-- ==== Sys2Proof/Word.lean ====
section
/-! DEFINITION. The word types of the VPM-3 and their plainest arithmetic (00_scope.md, Table 0-2; R1, R79). -/

namespace Sys2Proof

/-- A 64-bit general register (R79). -/
abbrev Word := BitVec 64

/-- A 32-bit register or instruction word (R1, R107). -/
abbrev W32 := BitVec 32

/-- A byte. -/
abbrev Byte := BitVec 8

/-- A logical engine CE0 to CE7. -/
abbrev Eng := Fin 8

/-- A task class TC0 to TC7. -/
abbrev Cls := Fin 8

/-- A general register number (R79). -/
abbrev GReg := Fin 32

/-- A condition register number (R80). -/
abbrev CReg := Fin 8

/-- Sparse data: pairs of a key and a value, keys strictly rising. -/
abbrev Tbl (α : Type) := List (Nat × α)

end Sys2Proof
end

