-- ==== Sys2Proof/Syntax.lean ====
section
/-! DEFINITION. The commands of the block, one constructor per row of spec/opcode_table.json, and the data that the
environment hands over with them. -/

namespace Sys2Proof

/-! ## Who and what -/

/-- The three channels (06, "Channels and clocks"). -/
inductive Ch where
  | a | b | c
  deriving DecidableEq, Repr

/-- The requesters of registers: each logical engine, each steward core and the maintenance port (R3). -/
inductive Req where
  | eng (e : Eng) | st0 | st1 | maint
  deriving DecidableEq, Repr

/-- Pair roles, coded as in Table 8-5. -/
inductive Role where
  | none | alone | active | standby | fenced
  deriving DecidableEq, Repr

/-- Module states, coded as in SUP.STATE.MSTATE (Table 1-7, Table 16-10). -/
inductive MState where
  | boot | starttest | init | run | safe | recovery
  deriving DecidableEq, Repr

/-- The key that authenticates a maintenance session (R347, R367). -/
inductive SessionKey where
  | owner | hafahild
  deriving DecidableEq, Repr

/-! ## A program version (R169) -/

/-- A function unit descriptor (R94): entry and code range are addresses of the code area, the end exclusive. -/
structure UnitDesc where
  num : Nat
  entry : Nat
  lo : Nat
  hi : Nat
  safe : Bool
  scratch : Nat
  deriving DecidableEq, Repr

/-- A task descriptor (R43, R83, R84, R87). The scratch window is `[winLo, winHi)`; the context record begins at `ctx`. -/
structure TaskDesc where
  id : Nat
  cls : Cls
  eng : Eng
  unit : Nat
  sb : BitVec 25
  ib : BitVec 20
  net : Bool
  winLo : Nat
  winHi : Nat
  ctx : Nat
  deriving DecidableEq, Repr

/-- One segment of the static schedule (R44 to R46): its frame of the hyperperiod and the start offset of its lane in the frame
(Table 7-1), in ns; on one engine and frame, the order of the offsets is the schedule's. -/
structure SegEnt where
  frame : Nat
  start : Nat
  eng : Eng
  task : Nat
  seg : Nat
  last : Bool
  budget : Nat
  deriving DecidableEq, Repr

/-- A directory entry of a version with its initial value (Table 3-1). -/
structure SigDef where
  id : Nat
  w0 : W32
  w1 : W32
  w2 : W32
  init : List Byte
  deriving DecidableEq, Repr

/-- An instance slot of a version (R89, R90, R181): its place `addr` in tile SRAM (`hot`) or in the cold slot area. -/
structure SlotDef where
  idx : Nat
  w0 : W32
  inst : W32
  task : Nat
  inputKey : W32
  hot : Bool
  addr : Nat
  deriving DecidableEq, Repr

/-- A base address register that the card map assigns (R300): function, number 0 to 5, and the range at which it lies. -/
structure Bar where
  fn : Fin 8
  reg : Fin 6
  base : Nat
  size : Nat
  deriving DecidableEq, Repr

/-- A card of the card map (R298): peripheral slot, its identity, its base address registers, and whether it has a scan port. -/
structure CardDef where
  slot : Nat
  ident : W32
  bars : List Bar
  scan : Bool
  deriving DecidableEq, Repr

/-- One Ixbel Workbench build (R169), with the figures its analysis states (R151, R171, R196, R301, Table 7-1). The part of tile SRAM from
offset `tileLo` to below `tileHi` is assigned to hot instance slots and snapshots (R55); `names` is the name table. -/
structure Program where
  pver : W32
  schedId : W32
  hyper : Nat
  maxSeg : Nat
  per : List W32
  units : List UnitDesc
  tasks : List TaskDesc
  segs : List SegEnt
  reads : List (List Nat)
  writes : List (List Nat)
  sigs : List SigDef
  slots : List SlotDef
  code : Tbl Byte
  pubs : Tbl (List W32)
  subs : Tbl (List W32)
  binds : List (W32 × W32)
  osrc : List Nat
  cards : List CardDef
  vtype : Nat
  rack : Nat
  sizeMiB : Nat
  tileLo : Nat
  tileHi : Nat
  names : List (Nat × List Byte)
  heldStores : Nat
  outStores : Nat
  retChange : Nat
  copyOut : Nat
  deriving DecidableEq, Repr

/-! ## NV images (R314 to R317) -/

/-- A 12-byte entry of an NV image body (R316). -/
structure NvEntry where
  word0 : W32
  mask : W32
  value : W32
  deriving DecidableEq, Repr

/-- An NV image as its header and body hold it (Table 14-1). -/
structure NvImage where
  magic : W32
  format : BitVec 16
  cfgver : W32
  actseq : W32
  bodyCrc : W32
  created : BitVec 64
  prevver : W32
  hcrc : W32
  entries : List NvEntry
  deriving DecidableEq, Repr

/-! ## Packages (R333 to R336) -/

/-- The package and slot header (Table 15-1). -/
structure PkgHeader where
  magic : W32
  format : BitVec 16
  kind : Byte
  flags : Byte
  part : W32
  hwmin : Byte
  hwmax : Byte
  fwrel : BitVec 16
  svn : W32
  pver : W32
  keyid : BitVec 16
  copyfmt : BitVec 16
  manlen : W32
  datalen : BitVec 64
  baseid : BitVec 256
  mandig : BitVec 256
  siglen : BitVec 16
  hsig : List Byte
  deriving DecidableEq, Repr

/-- A section entry of the manifest (R334). -/
structure SectEnt where
  type : W32
  offset : W32
  length : W32
  deriving DecidableEq, Repr

/-- The manifest and its signature (R334). -/
structure Manifest where
  sections : List SectEnt
  digests : List (BitVec 256)
  siglen : BitVec 16
  msig : List Byte
  deriving DecidableEq, Repr

/-- An owner message (R345). -/
structure OwnerMsg where
  magic : W32
  action : Byte
  serial : BitVec 64
  chal : BitVec 64
  keyid : BitVec 16
  newKey : List Byte
  siglen : BitVec 16
  sig : List Byte
  deriving DecidableEq, Repr

/-- Who asks for LOCK# (R305): an inbound transaction of the card in slot `k` + 2, with the REQ# lines of the other cards, or a steward core's locked or
atomic outbound request. -/
inductive LockBy where
  | card (k : Fin 7) (reqs : BitVec 7) | st0 | st1
  deriving DecidableEq, Repr

/-! ## The Geyser link (R206 to R211) -/

/-- The heartbeat's header frame and payload (Tables 8-4, 8-5). -/
structure Heartbeat where
  frame : Nat
  role : Role
  mstate : MState
  slot : BitVec 5
  flags : Byte
  epoch : W32
  ackf : Nat
  pver : W32
  xpver : W32
  cfgver : W32
  vmode : Nat
  lcs : Nat
  deriving DecidableEq, Repr

/-- What the report of an exchange holds beside the exchange registers (Table 7-3): FORCEOK, life-cycle state and standstill at A, the counts, and the
list. -/
structure ExchRep where
  forceOk : Bool
  lcs : Nat
  still : Bool
  matched : Nat
  newInst : Nat
  removed : Nat
  kindChg : Nat
  adopted : Nat
  newSig : Nat
  delSig : Nat
  fdrop : Nat
  fkept : Nat
  list : List (Nat × Nat × W32)
  deriving DecidableEq, Repr

/-- The report of an exchange that has not begun. -/
def ExchRep.none : ExchRep := ⟨false, 0, false, 0, 0, 0, 0, 0, 0, 0, 0, 0, []⟩

/-- One item of the per-frame copy (R207) or of the bulk data of a join (R210). A control item names the part of the task and exchange state
it carries, XSEQ and the report under way among them (R184, R186); a slot item carries the adoption mark with the slot (R181, R184). The last three are
bulk items only: a program version for the active or the shadow bank, a directory entry with the signal's value, and what an instance between
segments holds: context record, scratch window and snapshot. -/
inductive CopyItem where
  | sig (id : Nat) (w3 : W32) (value : List Byte)
  | slot (idx : Nat) (words : List W32) (adopt : Bool)
  | force (idx : Nat) (words : List W32)
  | forceCount (n : Nat)
  | skipRun (k : Cls) (n : Nat)
  | limHit (mask : Nat)
  | exch (xstat : W32) (armf : Nat) (swf : List Nat)
  | exchRep (xseq : W32) (rep : ExchRep)
  | ssc (entry : Nat) (v : W32)
  | epoch (v : W32)
  | image (shadow : Bool) (p : Program)
  | dirent (id : Nat) (w0 w1 w2 w3 : W32) (value : List Byte)
  | context (task : Nat) (words : List Word) (window : Tbl Byte) (snap : Tbl (BitVec 6 × List Byte))
  deriving DecidableEq, Repr

/-! ## Network frames (R256, R264, R265) -/

/-- A received Pd telegram, with what the header checks found. -/
structure PdTel where
  headerOk : Bool
  srcIp : W32
  comId : W32
  etbTopo : W32
  opTopo : W32
  seq : W32
  data : List Byte
  deriving DecidableEq, Repr

/-- The class of a received frame (Table 10-9). -/
inductive RxBody where
  | pd (t : PdTel) | pdPull | ptp | messageData | other
  deriving DecidableEq, Repr

/-- A frame addressed to the module: port of arrival (1 X1, 2 X2), source MAC, redundancy control trailer if any, and whether it uses an option
that Table 10-1 does not list (a VLAN other than 0, IPv6, an option of IP). -/
structure RxFrame where
  port : Nat
  mac : BitVec 48
  rct : Option (BitVec 16)
  unlisted : Bool
  body : RxBody
  bytes : List Byte
  deriving DecidableEq, Repr

/-- An Announce message: its domain, and its data set (R270, IEEE 1588-2019). -/
structure Announce where
  domain : Byte
  prio1 : Byte
  clockClass : Byte
  accuracy : Byte
  variance : BitVec 16
  prio2 : Byte
  ident : BitVec 64
  steps : BitVec 16
  utcOfs : BitVec 16
  deriving DecidableEq, Repr

/-- What a voter reports instead of its own decision when it is faulty (R149, R166): outcome code (0 AGREE, 1 MAJORITY,
2 NONE), minority mask, and the number of its release channel. -/
structure VoterSays where
  outcome : Nat
  minority : Nat
  release : Nat
  deriving DecidableEq, Repr

/-- Faults that the injection test meets (R167, R168): following channels whose delay register has a persistent parity error, and what a
faulty voter reports on path `p` in pattern `n`, by 16 n + p. -/
structure TestFaults where
  parity : List Ch
  v1 : Tbl VoterSays
  v2 : Tbl VoterSays
  deriving DecidableEq, Repr

/-- How a bus transaction of the bridge ended (R302, R303). -/
inductive BusEnd where
  | ok (data : BitVec 64) | masterAbort | targetAbort | parity | retry
  deriving DecidableEq, Repr

/-- One data phase of an inbound burst (R307). -/
structure InPhase where
  be : BitVec 4
  data : W32
  parityOk : Bool
  deriving DecidableEq, Repr

/-! ## The commands -/

/-- A command: a row of spec/opcode_table.json. Osrus instructions name their logical engine `e` first; `rsv` holds the
bits that the format reserves (R108); `r` is the requester of a register access (R3). -/
inductive Instr where
  /-- GONG_TICK (R28): The Gong tick edge of frame F begins a frame: inputs are latched, copy-in snapshots are taken and due classes are released. -/
  | gongTick
  /-- SEGMENT_START (R84): The engine starts the next scheduled segment, restoring the instance context and loading BUD. -/
  | segmentStart (e : Eng)
  /-- CUT (R35): At the CUT offset every engine stops, open windows close and unfinished scheduled instances are discarded. -/
  | cut
  /-- COMMIT (R152): The final windows and digests are voted and the held writes of committing instances are released and write sets applied. -/
  | commit
  /-- SELF_TEST_SLICE (R369): One self-test slice runs in the SLICE phase, after which the frame-complete token is issued to Tocsin. -/
  | selfTestSlice (matched : Bool) (failed : Nat) (item : Nat)
  /-- RETAIN_RECORD_WRITE (R194): After COMMIT and after the previous record is sealed, the retain writer writes the next record into the areas of A, B and C. -/
  | retainRecordWrite
  /-- ADD (R112): Adds two general registers. -/
  | add (e : Eng) (gd ga gb : GReg) (rsv : BitVec 5)
  /-- SUB (R112): Subtracts two general registers. -/
  | sub (e : Eng) (gd ga gb : GReg) (rsv : BitVec 5)
  /-- MUL (R112): Writes the low 64 bits of the product. -/
  | mul (e : Eng) (gd ga gb : GReg) (rsv : BitVec 5)
  /-- MULH (R112): Writes the high 64 bits of the signed product. -/
  | mulh (e : Eng) (gd ga gb : GReg) (rsv : BitVec 5)
  /-- MULHU (R112): Writes the high 64 bits of the unsigned product. -/
  | mulhu (e : Eng) (gd ga gb : GReg) (rsv : BitVec 5)
  /-- DIV (R113): Signed division truncated toward zero, raising 0x0F on a zero divisor. -/
  | div (e : Eng) (gd ga gb : GReg) (rsv : BitVec 5)
  /-- DIVU (R113): Unsigned division, raising 0x0F on a zero divisor. -/
  | divu (e : Eng) (gd ga gb : GReg) (rsv : BitVec 5)
  /-- REM (R113): Signed remainder, raising 0x0F on a zero divisor. -/
  | rem (e : Eng) (gd ga gb : GReg) (rsv : BitVec 5)
  /-- REMU (R113): Unsigned remainder, raising 0x0F on a zero divisor. -/
  | remu (e : Eng) (gd ga gb : GReg) (rsv : BitVec 5)
  /-- AND (R112): Bitwise AND of two registers. -/
  | andR (e : Eng) (gd ga gb : GReg) (rsv : BitVec 5)
  /-- OR (R112): Bitwise OR of two registers. -/
  | orR (e : Eng) (gd ga gb : GReg) (rsv : BitVec 5)
  /-- XOR (R112): Bitwise XOR of two registers. -/
  | xorR (e : Eng) (gd ga gb : GReg) (rsv : BitVec 5)
  /-- ANDN (R112): AND with the inverse of the second register. -/
  | andn (e : Eng) (gd ga gb : GReg) (rsv : BitVec 5)
  /-- SLL (R112): Logical left shift by a register amount. -/
  | sll (e : Eng) (gd ga gb : GReg) (rsv : BitVec 5)
  /-- SRL (R112): Logical right shift by a register amount. -/
  | srl (e : Eng) (gd ga gb : GReg) (rsv : BitVec 5)
  /-- SRA (R112): Arithmetic right shift by a register amount. -/
  | sra (e : Eng) (gd ga gb : GReg) (rsv : BitVec 5)
  /-- MIN (R112): Signed minimum. -/
  | minR (e : Eng) (gd ga gb : GReg) (rsv : BitVec 5)
  /-- MAX (R112): Signed maximum. -/
  | maxR (e : Eng) (gd ga gb : GReg) (rsv : BitVec 5)
  /-- MINU (R112): Unsigned minimum. -/
  | minu (e : Eng) (gd ga gb : GReg) (rsv : BitVec 5)
  /-- MAXU (R112): Unsigned maximum. -/
  | maxu (e : Eng) (gd ga gb : GReg) (rsv : BitVec 5)
  /-- SEXT (R112): Sign-extends the low byte, half-word or word. -/
  | sext (e : Eng) (gd ga gb : GReg) (sub : BitVec 5)
  /-- ZEXT (R112): Zero-extends the low byte, half-word or word. -/
  | zext (e : Eng) (gd ga gb : GReg) (sub : BitVec 5)
  /-- ADDI (R112): Adds a sign-extended 16-bit immediate. -/
  | addi (e : Eng) (gd ga : GReg) (imm : BitVec 16)
  /-- ANDI (R112): ANDs with a zero-extended immediate. -/
  | andi (e : Eng) (gd ga : GReg) (imm : BitVec 16)
  /-- ORI (R112): ORs with a zero-extended immediate. -/
  | ori (e : Eng) (gd ga : GReg) (imm : BitVec 16)
  /-- XORI (R112): XORs with a zero-extended immediate. -/
  | xori (e : Eng) (gd ga : GReg) (imm : BitVec 16)
  /-- SHI (R112): Shifts by an immediate amount of the selected kind. -/
  | shi (e : Eng) (gd ga : GReg) (imm : BitVec 16)
  /-- LDIL (R112): Loads a sign-extended 32-bit immediate. -/
  | ldil (e : Eng) (gd : GReg) (rsv : BitVec 21) (imm : W32)
  /-- LDIH (R112): Loads a 32-bit immediate into the high half. -/
  | ldih (e : Eng) (gd : GReg) (rsv : BitVec 21) (imm : W32)
  /-- LDB (R114): Loads a sign-extended byte. -/
  | ldb (e : Eng) (gd ga : GReg) (imm : BitVec 16)
  /-- LDBU (R114): Loads a zero-extended byte. -/
  | ldbu (e : Eng) (gd ga : GReg) (imm : BitVec 16)
  /-- LDH (R114): Loads a sign-extended half-word. -/
  | ldh (e : Eng) (gd ga : GReg) (imm : BitVec 16)
  /-- LDHU (R114): Loads a zero-extended half-word. -/
  | ldhu (e : Eng) (gd ga : GReg) (imm : BitVec 16)
  /-- LDW (R114): Loads a sign-extended word. -/
  | ldw (e : Eng) (gd ga : GReg) (imm : BitVec 16)
  /-- LDWU (R114): Loads a zero-extended word. -/
  | ldwu (e : Eng) (gd ga : GReg) (imm : BitVec 16)
  /-- LDD (R114): Loads a double-word. -/
  | ldd (e : Eng) (gd ga : GReg) (imm : BitVec 16)
  /-- STB (R114): Stores a byte. -/
  | stb (e : Eng) (gs ga : GReg) (imm : BitVec 16)
  /-- STH (R114): Stores a half-word. -/
  | sth (e : Eng) (gs ga : GReg) (imm : BitVec 16)
  /-- STW (R114): Stores a word. -/
  | stw (e : Eng) (gs ga : GReg) (imm : BitVec 16)
  /-- STD (R114): Stores a double-word. -/
  | std (e : Eng) (gs ga : GReg) (imm : BitVec 16)
  /-- CAND (R115): AND of two condition registers. -/
  | cand (e : Eng) (cd ca cb : CReg) (na nb : Bool) (rsv : BitVec 9)
  /-- COR (R115): OR of two condition registers. -/
  | cor (e : Eng) (cd ca cb : CReg) (na nb : Bool) (rsv : BitVec 9)
  /-- CXOR (R115): XOR of two condition registers. -/
  | cxor (e : Eng) (cd ca cb : CReg) (na nb : Bool) (rsv : BitVec 9)
  /-- CMV (R115): Moves a condition register, optionally inverted. -/
  | cmv (e : Eng) (cd ca : CReg) (na : Bool) (rsv : BitVec 13)
  /-- CNZ (R115): Sets a condition register if a general register is not zero. -/
  | cnz (e : Eng) (cd : CReg) (g : GReg) (rsv : BitVec 12)
  /-- MFC (R115): Moves a condition register into a general register. -/
  | mfc (e : Eng) (g : GReg) (ca : CReg) (na : Bool) (rsv : BitVec 11)
  /-- TBIT (R115): Copies one bit of a general register into a condition register. -/
  | tbit (e : Eng) (cd : CReg) (g : GReg) (b : BitVec 6) (rsv : BitVec 6)
  /-- CMP (R116): Compares two registers by the selected relation into a condition register. -/
  | cmp (e : Eng) (rel : BitVec 3) (cd : CReg) (ga gb : GReg) (rsv : BitVec 10)
  /-- CMPI (R116): Compares a register with an immediate. -/
  | cmpi (e : Eng) (rel : BitVec 3) (cd : CReg) (ga : GReg) (imm : BitVec 15)
  /-- SEL (R116): Selects one of two registers by a condition. -/
  | sel (e : Eng) (gd : GReg) (cs : CReg) (n : Bool) (ga gb : GReg) (rsv : BitVec 7)
  /-- BC (R117): Conditional forward branch. -/
  | bc (e : Eng) (cc : CReg) (n : Bool) (disp : BitVec 22)
  /-- BSW (R118): Bounded branch through a table. -/
  | bsw (e : Eng) (ga : GReg) (n : BitVec 10) (rsv : BitVec 11)
  /-- LOOP (R119): Bounded backward branch counting down a register. -/
  | loop (e : Eng) (ga : GReg) (back : BitVec 10) (bound : BitVec 11)
  /-- CALL (R120): Calls a function unit, pushing the return state. -/
  | call (e : Eng) (unit : BitVec 12) (k : BitVec 14)
  /-- RET (R120): Returns from a function unit. -/
  | ret (e : Eng) (rsv : BitVec 26)
  /-- LDS (R122): Reads a signal value by short form. -/
  | lds (e : Eng) (gd : GReg) (off : BitVec 21)
  /-- STS (R122): Writes a signal value into the write set by short form. -/
  | sts (e : Eng) (gs : GReg) (off : BitVec 21)
  /-- LDSQ (R123): Reads a signal's quality. -/
  | ldsq (e : Eng) (gd : GReg) (off : BitVec 21)
  /-- LDSC (R123): Reads a signal into a condition register. -/
  | ldsc (e : Eng) (cd : CReg) (rsv : BitVec 2) (off : BitVec 21)
  /-- STSC (R123): Writes 1 or 0 from a condition register to a signal. -/
  | stsc (e : Eng) (ca : CReg) (n : Bool) (rsv : BitVec 1) (off : BitVec 21)
  /-- LDSX (R122): Reads a signal by indexed ID. -/
  | ldsx (e : Eng) (gd ga : GReg) (imm : BitVec 16)
  /-- STSX (R122): Writes a signal by indexed ID. -/
  | stsx (e : Eng) (gs ga : GReg) (imm : BitVec 16)
  /-- LDSB (R124): Reads one 8-byte chunk of a signal. -/
  | ldsb (e : Eng) (gd ga gb : GReg) (rsv : BitVec 11)
  /-- STSB (R124): Writes one 8-byte chunk of a signal. -/
  | stsb (e : Eng) (gs ga gb : GReg) (rsv : BitVec 11)
  /-- LDS_L (R121): Long form of LDS with an absolute signal ID. -/
  | ldsL (e : Eng) (gd : GReg) (rsv : BitVec 21) (rsv1 : BitVec 7) (id : BitVec 25)
  /-- STS_L (R121): Long form of STS with an absolute signal ID. -/
  | stsL (e : Eng) (gs : GReg) (rsv : BitVec 21) (rsv1 : BitVec 7) (id : BitVec 25)
  /-- LDSQ_L (R121): Long form of LDSQ. -/
  | ldsqL (e : Eng) (gd : GReg) (rsv : BitVec 21) (rsv1 : BitVec 7) (id : BitVec 25)
  /-- LDSC_L (R121): Long form of LDSC. -/
  | ldscL (e : Eng) (cd : CReg) (rsv : BitVec 23) (rsv1 : BitVec 7) (id : BitVec 25)
  /-- STSC_L (R121): Long form of STSC. -/
  | stscL (e : Eng) (ca : CReg) (n : Bool) (rsv : BitVec 22) (rsv1 : BitVec 7) (id : BitVec 25)
  /-- TON (R126): Evaluates an on-delay timer slot. -/
  | ton (e : Eng) (cq ci : CReg) (gp : GReg) (rsv : BitVec 3) (off : BitVec 12)
  /-- TOF (R127): Evaluates an off-delay timer slot. -/
  | tof (e : Eng) (cq ci : CReg) (gp : GReg) (rsv : BitVec 3) (off : BitVec 12)
  /-- TP (R128): Evaluates a pulse timer slot. -/
  | tp (e : Eng) (cq ci : CReg) (gp : GReg) (rsv : BitVec 3) (off : BitVec 12)
  /-- REDGE (R129): Evaluates a rising-edge detector slot. -/
  | redge (e : Eng) (cq ci : CReg) (rsv : BitVec 8) (off : BitVec 12)
  /-- FEDGE (R129): Evaluates a falling-edge detector slot. -/
  | fedge (e : Eng) (cq ci : CReg) (rsv : BitVec 8) (off : BitVec 12)
  /-- CTU (R130): Evaluates an up-counter slot. -/
  | ctu (e : Eng) (cq ci cr : CReg) (gp : GReg) (off : BitVec 12)
  /-- CTD (R130): Evaluates a down-counter slot. -/
  | ctd (e : Eng) (cq ci cr : CReg) (gp : GReg) (off : BitVec 12)
  /-- SLD (R131): Reads a field of an instance slot without changing it. -/
  | sld (e : Eng) (gd : GReg) (sel : BitVec 2) (rsv : BitVec 7) (off : BitVec 12)
  /-- FADD (R132): Floating-point addition. -/
  | fadd (e : Eng) (gd ga gb : GReg) (d : Bool) (rsv : BitVec 4)
  /-- FSUB (R132): Floating-point subtraction. -/
  | fsub (e : Eng) (gd ga gb : GReg) (d : Bool) (rsv : BitVec 4)
  /-- FMUL (R132): Floating-point multiplication. -/
  | fmul (e : Eng) (gd ga gb : GReg) (d : Bool) (rsv : BitVec 4)
  /-- FDIV (R132): Floating-point division. -/
  | fdiv (e : Eng) (gd ga gb : GReg) (d : Bool) (rsv : BitVec 4)
  /-- FSQRT (R132): Floating-point square root. -/
  | fsqrt (e : Eng) (gd ga : GReg) (d : Bool) (rsv : BitVec 9)
  /-- FMIN (R132): Floating-point minimumNumber. -/
  | fmin (e : Eng) (gd ga gb : GReg) (d : Bool) (rsv : BitVec 4)
  /-- FMAX (R132): Floating-point maximumNumber. -/
  | fmax (e : Eng) (gd ga gb : GReg) (d : Bool) (rsv : BitVec 4)
  /-- FABS (R132): Clears the sign bit. -/
  | fabs (e : Eng) (gd ga : GReg) (d : Bool) (rsv : BitVec 9)
  /-- FNEG (R132): Inverts the sign bit. -/
  | fneg (e : Eng) (gd ga : GReg) (d : Bool) (rsv : BitVec 9)
  /-- FCMP (R133): Floating-point compare into a condition register. -/
  | fcmp (e : Eng) (rel : BitVec 4) (cd : CReg) (ga gb : GReg) (d : Bool) (rsv : BitVec 2)
  /-- FCVTI (R132): Converts a float to INT64. -/
  | fcvti (e : Eng) (gd ga : GReg) (d : Bool) (rsv : BitVec 9)
  /-- FCVTF (R132): Converts INT64 to a float. -/
  | fcvtf (e : Eng) (gd ga : GReg) (d : Bool) (rsv : BitVec 9)
  /-- FCVTS (R132): Converts between binary32 and binary64. -/
  | fcvts (e : Eng) (gd ga : GReg) (d : Bool) (rsv : BitVec 9)
  /-- FRND (R132): Rounds to an integral value in the same format. -/
  | frnd (e : Eng) (gd ga : GReg) (d : Bool) (rsv : BitVec 9)
  /-- NOP (R134): Does nothing. -/
  | nop (e : Eng) (rsv : BitVec 20)
  /-- SYNC (R134): Commit point that closes the engine's current vote window. -/
  | sync (e : Eng) (rsv : BitVec 20)
  /-- YIELD (R135): Ends the current segment and saves the context. -/
  | yield (e : Eng) (rsv : BitVec 20)
  /-- YIELD_E (R135): Ends the instance in any segment. -/
  | yieldE (e : Eng) (rsv : BitVec 20)
  /-- FAULT (R99): Raises exception 0x11, with a safe-state trigger for a safety class. -/
  | faultI (e : Eng) (code : BitVec 10) (rsv : BitVec 10)
  /-- EVT_C (R137): Claims an event through a distributed read of the engine's claim register. -/
  | evtC (e : Eng) (gd : GReg) (rsv : BitVec 15)
  /-- EVT_D (R137): Holds a completion of an event number for release at COMMIT. -/
  | evtD (e : Eng) (ga : GReg) (rsv : BitVec 15)
  /-- MFS (R136): Moves a special register into a general register. -/
  | mfs (e : Eng) (gd : GReg) (sel : BitVec 5) (rsv : BitVec 10)
  /-- MTS (R136): Moves a general register into SB, IB or ST. -/
  | mts (e : Eng) (ga : GReg) (sel : BitVec 5) (rsv : BitVec 10)
  /-- WINDOW_TIMEOUT (R146): A window open for 32,000 cycles closes with reason 3. -/
  | windowTimeout (e : Eng)
  /-- VOTE (R148): Voters V1 and V2 decide the outcome of a window or input signature from the included channels. -/
  | vote (v1 v2 : Option VoterSays)
  /-- DELAY_PARITY_ERROR (R165): A delay register parity error excludes its channel, or in 2oo2 raises trigger 2. -/
  | delayParityError (ch : Ch) (stage : BitVec 4)
  /-- CAPTURE_PARITY_ERROR (R165): A parity error in the shared capture stage raises a safe-state trigger. -/
  | captureParityError
  /-- REFERENCE_LOSS (R139): A failed channel reference is outvoted and VOTE.FLAG.REFLOSS is set. -/
  | referenceLoss (ch : Ch)
  /-- RESYNC_BULK_COPY_DONE (R158): The bulk copy completes and the channel follows the committed write sets. -/
  | resyncBulkCopyDone (ch : Ch)
  /-- DEGTIME_WARNING (R163): DEGTIME reaches 90 % of the 2oo2 limit and DEGWARN is set. -/
  | degtimeWarning
  /-- DEGTIME_LIMIT (R163): DEGTIME reaches the 2oo2 limit and a safe-state trigger is raised at the next tick. -/
  | degtimeLimit
  /-- CLEARPERM (R164): VOTE command that clears the permanent exclusion record for the next start. -/
  | clearperm (r : Req)
  /-- INJECTION_TEST (R167): In STARTTEST the vote unit runs the injection patterns and the module goes to INIT or SAFE. -/
  | injectionTest (faults : TestFaults)
  /-- FRAME_RECEIVE (R265): A received frame addressed to the module is checked, PRP-deduplicated and passed to the subscriber or a receive ring. -/
  | frameReceive (f : RxFrame)
  /-- TELEGRAM_ACCEPT (R257): An accepted telegram updates all its bound HOME 1 signals at one instant after the input signature vote. -/
  | telegramAccept
  /-- SUBSCRIBE_TIMEOUT (R258): An entry with no acceptance for TIMEOUT substitutes its signals and forgets its epoch and sequence values. -/
  | subscribeTimeout (i : Nat)
  /-- DIRECTORY_SWEEP (R70): The sweep visits signal entries and sets STALE where the age exceeds the limit. -/
  | directorySweep (id : Nat)
  /-- FORCE_SET (R73): Force command SET forces a signal to SIG.FVAL from the next tick. -/
  | forceSet (r : Req)
  /-- FORCE_CLEAR (R73): Force command CLEAR removes the force on a signal. -/
  | forceClear (r : Req)
  /-- FORCE_CLEARALL (R73): Force command CLEARALL removes every force. -/
  | forceClearall (r : Req)
  /-- STEWARD_SIGNAL_WRITE (R260): The steward writes a HOME 5 signal. -/
  | stewardSignalWrite (id : Nat) (value : List Byte)
  /-- EXCHANGE_STAGE (R174): Exchange command STAGE starts filling the shadow bank. -/
  | exchangeStage (r : Req)
  /-- EXCHANGE_ARM (R175): Exchange command ARM arms the exchange at the next tick if its conditions hold. -/
  | exchangeArm (r : Req)
  /-- EXCHANGE_CANCEL (R174): Exchange command CANCEL discards the shadow bank and returns to IDLE. -/
  | exchangeCancel (r : Req)
  /-- EXCHANGE_FILL_DONE (R173): The shadow bank fill completes and compatibility is checked, ending in READY or FAILED. -/
  | exchangeFillDone
  /-- EXCHANGE_PERSIST (R185): The steward rewrites the slot record for the exchanged version and the state becomes DONE. -/
  | exchangePersist (written : Bool)
  /-- POWER_INPUT_VALID (R381): The supply has been above 17.5 V for 100 ms and a start begins in BOOT. -/
  | powerInputValid (offNs : Nat) (mv10 : BitVec 16)
  /-- RESTART_BEGIN (R365): An accepted restart, cold start, activation or revert begins a new start at most 100 ms later. -/
  | restartBegin
  /-- SLOT_CODE_SAMPLE (R326): The slot lines are sampled 8 times over 1 ms in BOOT and the slot code is latched or found not valid. -/
  | slotCodeSample (samples : List (BitVec 6))
  /-- PLUG_READ (R327): The identity plug is read twice in BOOT and judged valid or not. -/
  | plugRead (first second : Option (List Byte))
  /-- PLUG_READ_RETRY (R380): After lost arbitration the module waits 1 ms and repeats the plug transfer. -/
  | plugReadRetry (second : Bool)
  /-- IMAGE_CHECK (R339): At BOOT the steward checks the active slot, falls back, rolls back or enters RECOVERY. -/
  | imageCheck
  /-- PROCESSOR_LOAD (R340): Each processor is loaded from the active slot and its returned digest is compared. -/
  | processorLoad (step : Fin 4) (digest : BitVec 256)
  /-- TOCSIN_CONFIG_CONFIRMED (R349): Tocsin confirms its configuration and withdraws start-hold. -/
  | tocsinConfigConfirmed
  /-- TOCSIN_CONFIRM_TIMEOUT (R349): The Tocsin configuration is not confirmed 2 s after BOOT began, and the module stops in BOOT. -/
  | tocsinConfirmTimeout
  /-- CONFIG_LAYERING (R318): The steward checks the NV images and sets every NV field from defaults, image and profile. -/
  | configLayering
  /-- PROGRAM_LOAD (R171): The loaders load the program version into the channels in INIT, or it is refused. -/
  | programLoad (digest : BitVec 256)
  /-- STORE_CHARGED (R358): The Solfatara store is charged and SUP.STATE.STORE becomes 1. -/
  | storeCharged (mv10 : BitVec 16)
  /-- START_ROLE_DECISION (R199): In the last second of INIT the module decides its start role. -/
  | startRoleDecision (m66en : Bool)
  /-- HEARTBEAT_SEND (R206): Every 125 µs the module sends an HB record on both lanes. -/
  | heartbeatSend
  /-- HEARTBEAT_RECEIVE (R206): A valid heartbeat from the partner is received and may change the role. -/
  | heartbeatReceive (hb : Heartbeat)
  /-- HEARTBEAT_TIMEOUT (R202): No valid heartbeat for 500 µs; a current standby promotes and an active becomes ALONE. -/
  | heartbeatTimeout
  /-- PAIR_ACT_IN_ACCEPT (R200): A new PAIR_ACT_IN level held for 500 µs is accepted, and a rise may mark a yield. -/
  | pairActInAccept (level : Bool) (firstNs : Nat)
  /-- FENCED_PROMOTION_TIMER (R203): A module FENCED with cause 5 promotes after PAIR_ACT_IN stayed released for SLOT × 5 ms. -/
  | fencedPromotionTimer
  /-- GEYSER_DATA_RECEIVE (R208): The standby applies a DATA record of the per-frame copy through its loaders. -/
  | geyserDataReceive (n : Nat) (items : List CopyItem)
  /-- GEYSER_END_RECEIVE (R208): On END the standby compares copy digests and sends ACK with status 0 or 1. -/
  | geyserEndReceive (n items bytes : Nat) (epoch : W32) (slice : Nat) (digest : BitVec 256)
  /-- GEYSER_ACK_RECEIVE (R208): The active receives the acknowledgement of a frame's copy. -/
  | geyserAckReceive (n : Nat) (status : Nat)
  /-- ACK_MISS (R209): A copy not acknowledged before the tick of n + 2 sets ACKMISS and the standby rejoins. -/
  | ackMiss (n : Nat)
  /-- BULK_RECEIVE (R210): A joining standby receives a BULK record of the resync state. -/
  | bulkReceive (b copyfmt total mib : Nat) (items : List CopyItem)
  /-- BULKEND_RECEIVE (R210): A joining standby receives BULKEND and then applies the following copies. -/
  | bulkendReceive (b : Nat)
  /-- CTRL_RECEIVE (R211): The standby receives the CTRL record of a planned switchover with handover frame h. -/
  | ctrlReceive (h : Nat)
  /-- GEYSER_LANE_LOSS (R209): A Geyser lane is lost and LANE0 or LANE1 is set. -/
  | geyserLaneLoss (lane : Fin 2)
  /-- SWITCHOVER (R211): PAIR command SWITCHOVER moves the active role to a current standby. -/
  | switchover (r : Req)
  /-- FENCE (R198): PAIR command FENCE fences the module. -/
  | fence (r : Req)
  /-- UNFENCE (R198): PAIR command UNFENCE ends a cause-2 fence. -/
  | unfence (r : Req)
  /-- INPUT_LEVEL_ACCEPTED (R218): Unmasked samples at a new level have accumulated for FILT and the accepted level changes. -/
  | inputLevelAccepted (i : Fin 16) (mv : List Nat)
  /-- INPUT_FAULT_DETECTED (R217): An input band, no-pulse, cross or overvoltage fault is detected. -/
  | inputFaultDetected (i : Fin 16) (code : Fin 5) (xtp : Fin 8)
  /-- INPUT_FAULT_CLEARED (R217): The clearing condition of an input fault holds. -/
  | inputFaultCleared (i : Fin 16) (code : Fin 5)
  /-- TEST_PULSE_START (R216): A test-pulse source switches off for TPW at its due instant. -/
  | testPulseStart (n : Fin 8)
  /-- TEST_PULSE_END (R216): A test-pulse source switches back on at the end of TPW. -/
  | testPulseEnd (n : Fin 8)
  /-- PAIR_DISCREPANCY_FAULT (R220): Discrepancy of a two-channel pair lasts longer than DISC and a pair fault is latched. -/
  | pairDiscrepancyFault (k : Fin 8)
  /-- OUTPUT_TEST_PULSE_START (R227): An off-pulse of an energised output falls due and opens HS or LS, or is postponed. -/
  | outputTestPulseStart (o : Fin 8)
  /-- OUTPUT_TEST_PULSE_END (R227): An output off-pulse ends and its pulse check is judged. -/
  | outputTestPulseEnd (o : Fin 8) (sensedOpen : Bool)
  /-- OUTPUT_FAULT_DETECTED (R229): An output fault of Table 9-5 is detected and its reaction applied. -/
  | outputFaultDetected (o : Fin 8) (code : Fin 8)
  /-- OVERCURRENT_RELEASE (R230): After an overcurrent the output follows its demand again once the demand has been 0 for 100 ms. -/
  | overcurrentRelease (o : Fin 8)
  /-- OUTPUT_FAULT_CLEARED (R229): An external-voltage fault absent for 100 ms, or an open-load warning, is cleared. -/
  | outputFaultCleared (o : Fin 8) (code : Fin 8)
  /-- CLRFLT (R230): SIO command CLRFLT releases latched outputs in the mask and resets their trip counts. -/
  | clrflt (r : Req) (mask : Byte)
  /-- WHEEL_SPEED_EDGE (R233): An accepted edge on a phase is counted and timestamped with its direction. -/
  | wheelSpeedEdge (s : Fin 2) (phaseB : Bool) (x : Nat)
  /-- SENSOR_FAULT (R232): A wheel-speed sensor fault is detected and the sensor is lost. -/
  | sensorFault (s : Fin 2) (code : Fin 6)
  /-- SENSOR_GOOD (R232): A sensor with no fault for 10 s becomes good. -/
  | sensorGood (s : Fin 2)
  /-- SPEED_NORMAL_ENTRY (R236): Both sensors good and plausible for 10 s put the speed function in normal mode. -/
  | speedNormalEntry
  /-- SPEED_DISCREPANCY_TIMEOUT (R236): Sensor discrepancy for PLTIME makes the speed unknown. -/
  | speedDiscrepancyTimeout
  /-- SINGLE_SENSOR_LIMIT (R236): SSUSED reaches SSLIM and the speed becomes unknown. -/
  | singleSensorLimit
  /-- SSUSED_WARNING (R236): SSUSED reaches 90 % of SSLIM and SSWARN is set. -/
  | ssusedWarning
  /-- SSUSED_RESET (R236): After 60 s of continuous normal mode SSUSED returns to 0. -/
  | ssusedReset
  /-- PD_TELEGRAM_LAUNCH (R279): A due publish telegram is launched at its tick plus LOFS. -/
  | pdTelegramLaunch
  /-- TX_DESCRIPTOR_LAUNCH (R280): A ring transmit descriptor is sent when its port is free and its launch time reached, or handled as late. -/
  | txDescriptorLaunch (ring : Fin 3) (skew : Nat)
  /-- RING_HEAD_WRITE (R262): The producer side advances HEAD of a ring. -/
  | ringHeadWrite (r : Req) (ring : Fin 64) (v : BitVec 16)
  /-- RING_TAIL_WRITE (R262): The consumer side advances TAIL of a ring. -/
  | ringTailWrite (r : Req) (ring : Fin 64) (v : BitVec 16)
  /-- BRIDGE_FORWARD (R244): In PMODE 1 a frame is forwarded between X1 and X2, with residence time added to PTP event messages. -/
  | bridgeForward (toX2 : Bool) (mac dst : BitVec 48) (ptpEvent : Bool) (correction : BitVec 64) (residence : BitVec 64)
  /-- PRP_SUPERVISION_SEND (R243): A PRP supervision frame is sent every 2 s. -/
  | prpSupervisionSend
  /-- PRP_LAN_LOSS (R243): A source heard on only one LAN for 6 s sets LANLOSS. -/
  | prpLanLoss (lanB : Bool) (mac : BitVec 48)
  /-- LINK_CHANGE (R284): An ECN link changes state and NET.FLAG.LINKCHG is set. -/
  | linkChange (x2 : Bool) (up : Bool)
  /-- INAUGURATION (R247): The TTDB reports new topology counters and the steward rebinds entries and writes the new counters. -/
  | inauguration (etb op : W32) (cst : Nat) (vehs : List (Nat × List Byte)) (tnid : W32) (resolved : Tbl W32)
  /-- TTDB_READ_DONE (R329): The steward has read the TTDB and derives the unit key and addresses. -/
  | ttdbReadDone (etb op : W32) (cst : Nat) (vehs : List (Nat × List Byte)) (tnid : W32) (resolved : Tbl W32)
  /-- ARP_PROBE_DONE (R331): The 200 ms ARP probe ends without reply and the module becomes ADDRESSED at the next tick. -/
  | arpProbeDone
  /-- ARP_CONFLICT (R332): An ARP reply claims one of the module's addresses, making it UNADDRESSED. -/
  | arpConflict
  /-- ARP_REPROBE (R332): After the conflict has been absent for 10 s the module probes again. -/
  | arpReprobe
  /-- PTP_OFFSET_MEASUREMENT (R272): A Sync received gives an offset measurement that may change the synchronisation state. -/
  | ptpOffsetMeasurement (ns : Int)
  /-- ANNOUNCE_RECEIPT_TIMEOUT (R272): The selected master's announce receipt times out and LOCKED becomes HOLDOVER. -/
  | announceReceiptTimeout
  /-- ANNOUNCE_RECEIVE (R270): An Announce is received and the best master clock algorithm may change the master. -/
  | announceReceive (m : Announce)
  /-- INCR_WRITE (R273): The steward writes TIME.INCR, clamped to ±500 ppm. -/
  | incrWrite (r : Req) (hi : W32)
  /-- TIME_STEP (R274): A write completing TIME.STEP applies the step or refuses it into PEND and JUMPHOLD. -/
  | timeStep (r : Req) (hi : W32)
  /-- TIME_FORCE (R276): TIME command FORCE applies PEND as a step and re-phases the Gong. -/
  | timeForce (r : Req)
  /-- SOLFATARA_TIME_COPY (R269): While LOCKED the time is copied into Solfatara's clock once per second. -/
  | solfataraTimeCopy
  /-- NOWSEC_LO_READ (R268): A read of TIME.NOWSEC_LO latches the other three time registers for the requester. -/
  | nowsecLoRead (r : Req)
  /-- LO_REGISTER_READ (R3): A read of a _LO register latches its _HI register for the requester. -/
  | loRegisterRead (r : Req) (off : Nat)
  /-- LO_REGISTER_WRITE (R4): A write to a _LO register is held for the requester. -/
  | loRegisterWrite (r : Req) (off : Nat) (v : W32)
  /-- HI_REGISTER_WRITE (R4): A write to a _HI register updates both halves with the held _LO value, or the high half only. -/
  | hiRegisterWrite (r : Req) (off : Nat) (v : W32)
  /-- REGISTER_WRITE (R5): A write to a register with no row of its own acts as its access code states. -/
  | registerWrite (r : Req) (off : Nat) (v : W32)
  /-- EVENT_SOURCE_ASSERT (R285): An enabled source's level is asserted and it becomes PENDING with a timestamp. -/
  | eventSourceAssert (t : Fin 10) (num : Fin 256)
  /-- EVENT_SOURCE_WITHDRAW (R285): A source's level is withdrawn, returning a PENDING source to IDLE. -/
  | eventSourceWithdraw (t : Fin 10) (num : Fin 256)
  /-- EVENT_DELIVERY (R286): An eligible PENDING source's record is written to its target's ring. -/
  | eventDelivery (t : Fin 10)
  /-- EVENT_CLAIM (R288): A read of EVC.CLAIM claims the record at the ring tail or returns 0x3FF. -/
  | eventClaim (r : Req) (t : Fin 10)
  /-- EVENT_COMPLETE (R289): A write to EVC.COMPLETE completes a claimed source and clears its latch. -/
  | eventComplete (r : Req) (t : Fin 10) (num : BitVec 10)
  /-- HOLDSET (R292): Sets HOLD bits, stopping delivery to those targets. -/
  | holdset (r : Req) (mask : BitVec 10)
  /-- HOLDCLR (R292): Clears HOLD bits, delivering every eligible PENDING source. -/
  | holdclr (r : Req) (mask : BitVec 10)
  /-- PSET (R283): Sets doorbell latches of a target's private bank. -/
  | pset (r : Req) (t : Fin 10) (mask : Byte)
  /-- SWSET (R283): Sets software event latches. -/
  | swset (r : Req) (j : Fin 6) (mask : W32)
  /-- PENSET (R285): Enables private sources of a target. -/
  | penset (r : Req) (t : Fin 10) (mask : BitVec 16)
  /-- PENCLR (R285): Disables private sources of a target. -/
  | penclr (r : Req) (t : Fin 10) (mask : BitVec 16)
  /-- CPEND_WRITE (R293): A compatibility-window write sets and clears latch bits of 32 sources at once. -/
  | cpendWrite (r : Req) (j : Fin 8) (v : W32)
  /-- CMASK_WRITE (R293): A compatibility-window write sets the enables of 32 sources at once. -/
  | cmaskWrite (r : Req) (j : Fin 8) (v : W32)
  /-- CVEC_READ (R293): A compatibility-window read acts as a claim for the requester's target. -/
  | cvecRead (r : Req)
  /-- CACK_WRITE (R293): A compatibility-window write acts as a completion for the requester's target. -/
  | cackWrite (r : Req) (v : W32)
  /-- POSTED_WRITE_COMPLETE (R302): A posted write leaves the buffer on the bus, or ends with an abort or parity error recorded in RING10. -/
  | postedWriteComplete (how : BusEnd) (reqs : BitVec 7)
  /-- POSTED_WRITE_DISCARD (R302): A posted write not accepted when its discard timer expires is dropped with cause 4. -/
  | postedWriteDiscard
  /-- DELAYED_READ_COMPLETE (R303): A delayed read completes on the bus with data or an error response delivered to the requester. -/
  | delayedReadComplete (slot : Fin 8) (how : BusEnd) (reqs : BitVec 7)
  /-- DELAYED_READ_DISCARD (R304): A delayed-read slot's discard timer expires and the slot is freed. -/
  | delayedReadDiscard (slot : Fin 8)
  /-- CPCI_INBOUND_WRITE (R307): A card's inbound write is applied to the exchange area and updates its HOME 4 signals. -/
  | cpciInboundWrite (card : Fin 7) (reqs : BitVec 7) (addr : W32) (phases : List InPhase)
  /-- INBOUND_LOCK (R305): An inbound transaction with LOCK# is ended by target abort. -/
  | inboundLock (sender : LockBy)
  /-- SERR_SENSED (R313): SERR# sensed low sets BRG.FLAG.SERR. -/
  | serrSensed
  /-- DUTIES_TAKE_AFTER_PROMOTION (R298): The bridge takes the system-slot duties 20 µs after the accepted fall of PAIR_ACT_IN. -/
  | dutiesTakeAfterPromotion (m66en : Bool)
  /-- CPCI_RESET_RELEASE (R298): After 1 ms of RST# with the clock running, RST# is released. -/
  | cpciResetRelease
  /-- CARD_CONFIGURATION (R298): The steward configures every card of the card map and sets CFGD. -/
  | cardConfiguration (found : Tbl W32)
  /-- CONFIG_CYCLE_READ (R300): A read of BRG.CFGDATA performs a type 0 configuration read. -/
  | configCycleRead (r : Req) (how : BusEnd) (reqs : BitVec 7)
  /-- CONFIG_CYCLE_WRITE (R300): A write of BRG.CFGDATA performs a type 0 configuration write. -/
  | configCycleWrite (r : Req) (v : W32) (reqs : BitVec 7)
  /-- CFG_STAGE (R323): CFG command STAGE accepts a valid staged configuration image. -/
  | cfgStage (r : Req)
  /-- CFG_ACTIVATE (R323): CFG command ACTIVATE sets PEND = 1 and leads to a restart. -/
  | cfgActivate (r : Req)
  /-- CFG_REVERT (R323): CFG command REVERT sets PEND = 2 and leads to a restart. -/
  | cfgRevert (r : Req)
  /-- CFG_DISCARD (R323): CFG command DISCARD empties the staging store. -/
  | cfgDiscard (r : Req)
  /-- CFG_LOCK (R323): CFG command LOCK ends the expert unlock. -/
  | cfgLock (r : Req)
  /-- EXPCHAL_READ (R321): A read of CFG.EXPCHAL returns a new challenge for the requester. -/
  | expchalRead (r : Req)
  /-- EXPKEY_WRITE (R321): A write of CFG.EXPKEY with the right key unlocks the expert level. -/
  | expkeyWrite (r : Req) (key : W32)
  /-- EXPERT_TIMEOUT (R322): TLEFT reaches zero and UNLK returns to 0. -/
  | expertTimeout
  /-- PACKAGE_HEADER_RECEIVED (R337): A package header arrives in staging and header checks are run. -/
  | packageHeaderReceived (h : PkgHeader)
  /-- PACKAGE_RECEIVED (R337): The whole package is in staging, the manifest digest is checked and STATE becomes RECEIVED. -/
  | packageReceived (m : Manifest) (stream : List Byte)
  /-- APPLY (R341): UPD command APPLY writes the package into the inactive slot. -/
  | apply (r : Req)
  /-- APPLY_DONE (R337): All blocks are written and checked and MSIG verified, giving READY or FAILED. -/
  | applyDone
  /-- UPD_ACTIVATE (R341): UPD command ACTIVATE makes the inactive slot active on trial and a cold start follows. -/
  | updActivate (r : Req)
  /-- UPD_CANCEL (R341): UPD command CANCEL empties staging and returns to IDLE. -/
  | updCancel (r : Req)
  /-- VERIFY (R341): UPD command VERIFY checks a slot or the recovery image under R338. -/
  | verify (r : Req) (arg : BitVec 4)
  /-- OWNER (R345): UPD command OWNER applies a valid owner message to lock, unlock or install a key. -/
  | owner (r : Req)
  /-- OCHAL_READ (R345): A read of UPD.OCHAL_LO returns a new owner challenge. -/
  | ochalRead (r : Req)
  /-- ATTESTATION_REQUEST (R348): A request returns a signed attestation report with the supplied nonce. -/
  | attestationRequest (x3 : Bool) (nonce : BitVec 256)
  /-- MAINTENANCE_SESSION_OPEN (R347): A TLS 1.3 session with an authorised client certificate is opened on X3. -/
  | maintenanceSessionOpen (root : Nat) (mldsa chains : Bool)
  /-- WATCHDOG_WINDOW_CLOSE (R350): Tocsin's watchdog window closes and missed tokens may raise trigger 10. -/
  | watchdogWindowClose (missed : BitVec 3)
  /-- TOCSIN_MONITOR_TRIGGER (R351): A rail or temperature outside its trigger band for its time raises trigger 11 or 12. -/
  | tocsinMonitorTrigger (no : Fin 12) (value : BitVec 16)
  /-- TOCSIN_WARNING (R351): A temperature above its warning level sets a SUP.FLAG bit. -/
  | tocsinWarning (board : Bool) (value : BitVec 16)
  /-- CLOCK_CHECK_WINDOW (R352): Tocsin's 100 µs clock window ends, setting CLKDEV or raising trigger 13. -/
  | clockCheckWindow (devA devB devC : Nat)
  /-- TOCSIN_OSC_DEVIATION (R349): Tocsin's oscillator differs from Solfatara's clock by over 200 ppm for 10 ms, raising trigger 13. -/
  | tocsinOscDeviation
  /-- TOCSIN_LIVENESS_LOST (R356): The liveness line stops toggling for 1 ms and Solfatara raises trigger 17. -/
  | tocsinLivenessLost
  /-- SOLFATARA_STORE_LOW (R358): The store below its minimum for 1 s in RUN raises trigger 14. -/
  | solfataraStoreLow (mv10 : BitVec 16)
  /-- EXTERNAL_REQUEST (R359): A TSX line open for 2 ms raises trigger 15. -/
  | externalRequest (tsx : BitVec 2)
  /-- SAFE_STATE_TRIGGER (R354): A trigger line is asserted: releases stop, engines halt, Solfatara acts and the module enters SAFE. -/
  | safeStateTrigger (code : Fin 18) (detail : Byte)
  /-- RETAIN_BUFFER_CUTOFF (R357): 1 ms after the line, the retain record wholly in the buffer is written or a partial one discarded. -/
  | retainBufferCutoff (placed : Bool) (op1Us mv10 : BitVec 16)
  /-- POWER_FAILURE (R360): The supply below 16.8 V for 50 µs begins a power failure and sets PFAIL. -/
  | powerFailure (mv10 : BitVec 16)
  /-- POWER_DOWN (R360): At t_pd the module enters SAFE and the power-down sequence runs. -/
  | powerDown
  /-- POWER_RECOVERED (R361): The supply above 17.5 V for 1 ms before t_pd ends the power failure. -/
  | powerRecovered (mv10 : BitVec 16)
  /-- HOLDUP_END (R383): The hold-up of the SoC ends 20 ms after the input fell. -/
  | holdupEnd
  /-- STW_RESTART (R365): STW command RESTART requests a restart whose kind R21 decides. -/
  | stwRestart (r : Req)
  /-- COLDSTART (R365): STW command COLDSTART requests a cold start. -/
  | coldstart (r : Req)
  /-- STW_SAFE (R365): STW command SAFE raises trigger 16. -/
  | stwSafe (r : Req)
  /-- MFG (R367): Life-cycle command MFG moves BLANK to MANUFACTURE and generates the identity key. -/
  | mfg (r : Req)
  /-- RELEASE (R367): Life-cycle command RELEASE moves MANUFACTURE to SERVICE. -/
  | release (r : Req)
  /-- DEPOT (R367): Life-cycle command DEPOT moves SERVICE to DEPOT. -/
  | depot (r : Req)
  /-- SERVICE (R367): Life-cycle command SERVICE moves DEPOT to SERVICE. -/
  | service (r : Req)
  /-- RETURN (R367): Life-cycle command RETURN moves SERVICE or DEPOT to MANUFACTURE. -/
  | returnC (r : Req)
  /-- RETIRE (R367): Life-cycle command RETIRE moves the module to RETIRED. -/
  | retire (r : Req) (confirm : BitVec 16)
  /-- TEST_START (R372): BIST command START starts a test at the next SLICE. -/
  | testStart (r : Req) (test : Fin 8)
  /-- TEST_STOP (R372): BIST command STOP ends the running test with cause 1. -/
  | testStop (r : Req)
  /-- GEYSER_TEST_PARTNER_TIMEOUT (R370): The partner does not start its GEYSER test within 1 s and the test ends with cause 4. -/
  | geyserTestPartnerTimeout
  /-- GEYSER_LANE_UP (R209): A lost Geyser lane comes back up, its PAIR.ROLE.LANES bit is set again and the copy regains the capacity of both lanes. -/
  | geyserLaneUp (lane : Fin 2)
  /-- MAINTENANCE_SESSION_CLOSE (R347): The TLS maintenance session on X3 ends, after which the port offers only ID reads and attestation again. -/
  | maintenanceSessionClose
  /-- CONFIG_IMAGE_RECEIVED (R323): A configuration version built by the integrator's tool arrives through the maintenance port into the staging store. -/
  | configImageReceived (img : NvImage)
  /-- OWNER_MESSAGE_RECEIVED (R345): A signed owner message is placed in staging through the maintenance port. -/
  | ownerMessageReceived (m : OwnerMsg)
  /-- FACTORY_IDENTITY_RECORD_WRITE (R14): In MANUFACTURE the factory defaults region, including the factory identity record, is written. -/
  | factoryIdentityRecordWrite (serial : BitVec 64) (mac : BitVec 48) (idPub idCert : List Byte) (img : Option NvImage)
  deriving DecidableEq, Repr

end Sys2Proof
end

