-- ==== Sys2Proof/Decode.lean ====
section
/-! DEFINITION. The decoder of Osrus words (05, R107, R108, R138): formats of Table 5-1, opcodes of Table 5-12, function codes of
Table 5-13. The block's own commands have no encodings: no row of spec/opcode_table.json gives bits. -/

namespace Sys2Proof

/-! ## Fields -/

/-- Bits `lo` to `lo + w − 1` of an instruction word. -/
def bitsOf (v : W32) (lo w : Nat) : BitVec w := v.extractLsb' lo w

/-- A general register field. -/
def gAt (v : W32) (lo : Nat) : GReg := (bitsOf v lo 5).toFin

/-- A condition register field. -/
def cAt (v : W32) (lo : Nat) : CReg := (bitsOf v lo 3).toFin

/-- A one-bit field. -/
def bitAt (v : W32) (lo : Nat) : Bool := v.getLsbD lo

/-- The operation code. -/
def opOf (v : W32) : Nat := (bitsOf v 26 6).toNat

/-- The function code. -/
def fnOf (v : W32) : Nat := (bitsOf v 0 6).toNat

/-- A word whose bits 31 and 30 are ones begins a long form of 8 bytes; every other is an instruction of 4 (R107). -/
def wordLength (v : W32) : Nat := if bitsOf v 30 2 = 3 then 8 else 4

/-- A reserved code of one word: an instruction with a reserved field that is not zero, which raises 0x03 (R108, R138). -/
def reservedShort (e : Eng) : Instr := .nop e 1

/-- A reserved code of two words. -/
def reservedLong (e : Eng) : Instr := .ldil e 0 1 0

/-! ## Groups (Tables 5-2, 5-4, 5-10, 5-11) -/

/-- INT, opcode 0x01, format R. -/
def decodeInt (e : Eng) (v : W32) : Instr :=
  let gd := gAt v 21
  let ga := gAt v 16
  let gb := gAt v 11
  let sub := bitsOf v 6 5
  match fnOf v with
  | 0x00 => .add e gd ga gb sub
  | 0x01 => .sub e gd ga gb sub
  | 0x02 => .mul e gd ga gb sub
  | 0x03 => .mulh e gd ga gb sub
  | 0x04 => .mulhu e gd ga gb sub
  | 0x05 => .div e gd ga gb sub
  | 0x06 => .divu e gd ga gb sub
  | 0x07 => .rem e gd ga gb sub
  | 0x08 => .remu e gd ga gb sub
  | 0x09 => .andR e gd ga gb sub
  | 0x0A => .orR e gd ga gb sub
  | 0x0B => .xorR e gd ga gb sub
  | 0x0C => .andn e gd ga gb sub
  | 0x0D => .sll e gd ga gb sub
  | 0x0E => .srl e gd ga gb sub
  | 0x0F => .sra e gd ga gb sub
  | 0x10 => .minR e gd ga gb sub
  | 0x11 => .maxR e gd ga gb sub
  | 0x12 => .minu e gd ga gb sub
  | 0x13 => .maxu e gd ga gb sub
  | 0x14 => .sext e gd ga gb sub
  | 0x15 => .zext e gd ga gb sub
  | _ => reservedShort e

/-- CND, opcode 0x15, format C. -/
def decodeCnd (e : Eng) (v : W32) : Instr :=
  let cd := cAt v 23
  let ca := cAt v 20
  let cb := cAt v 17
  let na := bitAt v 16
  let nb := bitAt v 15
  let g := gAt v 10
  match fnOf v with
  | 0x00 => .cand e cd ca cb na nb (bitsOf v 6 9)
  | 0x01 => .cor e cd ca cb na nb (bitsOf v 6 9)
  | 0x02 => .cxor e cd ca cb na nb (bitsOf v 6 9)
  | 0x03 => .cmv e cd ca na (bitsOf v 17 3 ++ bitsOf v 6 10)
  | 0x04 => .cnz e cd g (bitsOf v 15 8 ++ bitsOf v 6 4)
  | 0x05 => .mfc e g ca na (bitsOf v 23 3 ++ (bitsOf v 17 3 ++ (bitsOf v 15 1 ++ bitsOf v 6 4)))
  | 0x06 => .tbit e cd g (bitsOf v 17 6) (bitsOf v 15 2 ++ bitsOf v 6 4)
  | _ => reservedShort e

/-- FPU, opcode 0x2E, format R. -/
def decodeFpu (e : Eng) (v : W32) : Instr :=
  let gd := gAt v 21
  let ga := gAt v 16
  let gb := gAt v 11
  let d := bitAt v 6
  let rsv := bitsOf v 7 4
  let one := bitsOf v 7 9
  match fnOf v with
  | 0x00 => .fadd e gd ga gb d rsv
  | 0x01 => .fsub e gd ga gb d rsv
  | 0x02 => .fmul e gd ga gb d rsv
  | 0x03 => .fdiv e gd ga gb d rsv
  | 0x04 => .fsqrt e gd ga d one
  | 0x05 => .fmin e gd ga gb d rsv
  | 0x06 => .fmax e gd ga gb d rsv
  | 0x07 => .fabs e gd ga d one
  | 0x08 => .fneg e gd ga d one
  | 0x09 => .fcmp e rsv (cAt v 23) ga gb d (bitsOf v 21 2)
  | 0x0A => .fcvti e gd ga d one
  | 0x0B => .fcvtf e gd ga d one
  | 0x0C => .fcvts e gd ga d one
  | 0x0D => .frnd e gd ga d one
  | _ => reservedShort e

/-- SYS, opcode 0x2F, format Y. -/
def decodeSys (e : Eng) (v : W32) : Instr :=
  let g := gAt v 21
  let sel := bitsOf v 16 5
  let imm := bitsOf v 6 10
  match fnOf v with
  | 0x00 => .nop e (bitsOf v 6 20)
  | 0x01 => .sync e (bitsOf v 6 20)
  | 0x02 => .yield e (bitsOf v 6 20)
  | 0x03 => .yieldE e (bitsOf v 6 20)
  | 0x04 => .faultI e imm (bitsOf v 16 10)
  | 0x05 => .evtC e g (bitsOf v 6 15)
  | 0x06 => .evtD e g (bitsOf v 6 15)
  | 0x07 => .mfs e g sel imm
  | 0x08 => .mts e g sel imm
  | _ => reservedShort e

/-! ## The opcode map (Table 5-12) -/

/-- The long forms, opcodes 0x30 to 0x3F: word 0 and the extension word. -/
def decodeLong (e : Eng) (v x : W32) : Instr :=
  let g := gAt v 21
  let c := cAt v 23
  let rest := bitsOf v 0 21
  let rsv1 := bitsOf x 25 7
  let id := bitsOf x 0 25
  match opOf v with
  | 0x30 => .ldil e g rest x
  | 0x31 => .ldih e g rest x
  | 0x32 => .ldsL e g rest rsv1 id
  | 0x33 => .stsL e g rest rsv1 id
  | 0x34 => .ldsqL e g rest rsv1 id
  | 0x35 => .ldscL e c (bitsOf v 0 23) rsv1 id
  | 0x36 => .stscL e c (bitAt v 22) (bitsOf v 0 22) rsv1 id
  | _ => reservedLong e

/-- The instruction that word `v`, with `x` at the next address, spells for logical engine `e`. -/
def decodeOsrus (e : Eng) (v x : W32) : Instr :=
  let gd := gAt v 21
  let ga := gAt v 16
  let imm := bitsOf v 0 16
  let cq := cAt v 23
  let ci := cAt v 20
  let gp := gAt v 12
  let off := bitsOf v 0 12
  match opOf v with
  | 0x01 => decodeInt e v
  | 0x02 => .addi e gd ga imm
  | 0x03 => .andi e gd ga imm
  | 0x04 => .ori e gd ga imm
  | 0x05 => .xori e gd ga imm
  | 0x06 => .shi e gd ga imm
  | 0x08 => .ldb e gd ga imm
  | 0x09 => .ldbu e gd ga imm
  | 0x0A => .ldh e gd ga imm
  | 0x0B => .ldhu e gd ga imm
  | 0x0C => .ldw e gd ga imm
  | 0x0D => .ldwu e gd ga imm
  | 0x0E => .ldd e gd ga imm
  | 0x10 => .stb e gd ga imm
  | 0x11 => .sth e gd ga imm
  | 0x12 => .stw e gd ga imm
  | 0x13 => .std e gd ga imm
  | 0x14 => .cmpi e (bitsOf v 20 3) cq (gAt v 15) (bitsOf v 0 15)
  | 0x15 => decodeCnd e v
  | 0x16 => .cmp e (bitsOf v 20 3) cq (gAt v 15) (gAt v 10) (bitsOf v 0 10)
  | 0x17 => .sel e gd (cAt v 8) (bitAt v 7) ga (gAt v 11) (bitsOf v 0 7)
  | 0x18 => .bc e (cAt v 22) (bitAt v 25) (bitsOf v 0 22)
  | 0x19 => .bsw e gd (bitsOf v 11 10) (bitsOf v 0 11)
  | 0x1A => .loop e gd (bitsOf v 11 10) (bitsOf v 0 11)
  | 0x1B => .call e (bitsOf v 14 12) (bitsOf v 0 14)
  | 0x1C => .ret e (bitsOf v 0 26)
  | 0x1D => .lds e gd (bitsOf v 0 21)
  | 0x1E => .sts e gd (bitsOf v 0 21)
  | 0x1F => .ldsq e gd (bitsOf v 0 21)
  | 0x20 => .ldsc e cq (bitsOf v 21 2) (bitsOf v 0 21)
  | 0x21 => .stsc e cq (bitAt v 22) (bitsOf v 21 1) (bitsOf v 0 21)
  | 0x22 => .ldsx e gd ga imm
  | 0x23 => .stsx e gd ga imm
  | 0x24 => .ldsb e gd ga (gAt v 11) (bitsOf v 0 11)
  | 0x25 => .stsb e gd ga (gAt v 11) (bitsOf v 0 11)
  | 0x26 => .ton e cq ci gp (bitsOf v 17 3) off
  | 0x27 => .tof e cq ci gp (bitsOf v 17 3) off
  | 0x28 => .tp e cq ci gp (bitsOf v 17 3) off
  | 0x29 => .redge e cq ci (bitsOf v 12 8) off
  | 0x2A => .fedge e cq ci (bitsOf v 12 8) off
  | 0x2B => .ctu e cq ci (cAt v 17) gp off
  | 0x2C => .ctd e cq ci (cAt v 17) gp off
  | 0x2D => .sld e gd (bitsOf v 19 2) (bitsOf v 12 7) off
  | 0x2E => decodeFpu e v
  | 0x2F => decodeSys e v
  | _ => if wordLength v = 8 then decodeLong e v x else reservedShort e

/-! ## The block's commands -/

/-- The command a word spells by the table's bits: no row gives any, so no word spells one. -/
def decodeTableWord (_nbits _w : Nat) : Option Instr := none

end Sys2Proof
end

