-- ==== Sys2Proof/Config.lean ====
section
/-! DEFINITION. What the spec leaves open: constants with no body, so that a statement holds whatever they are. The free
value of occurrence `n` is `Config.freeNat n` cut to the width wanted; `n` is the counter `State.free` (assumption 2). -/

namespace Sys2Proof.Config

/-- The free value of occurrence `n`: a challenge, a value the spec leaves undefined (assumption 2). -/
opaque freeNat : Nat → Nat

/-- Whether tininess is detected after rounding (IEEE 754-2019, 7.5, leaves the choice; R132). -/
opaque tinyAfterRounding : Bool

/-- The lower speed bound in mm/s of a sensor whose last two edges have the same time stamp, by its t_e in ns (R234 divides by the
time between them and states no result for 0). -/
opaque sameStampLow : (sensor te : Nat) → Nat

/-! ## Functions that the spec takes from standards it names, and formats it leaves to the tools (assumption 9) -/

/-- The signature of the identity key, ML-DSA-44 (R348). -/
opaque sign : (msg : List Byte) → List Byte

/-- How many work units more than the fewest SIOLOOP gives its step `k` of 80, before the room that is left bounds it (R370 gives no number). -/
opaque sioExtra : (k : Nat) → Nat

/-- The program version that the bytes of a program section hold (R169; the spec gives no layout of section 6). -/
opaque programOf : List Byte → Option Program

/-- What the blocks of a KEYS package change: KEYID, ML-DSA-65, revoked, key (R346; the spec gives no layout). -/
opaque keyChanges : List Byte → List (Nat × Bool × Bool × List Byte)

/-- The SDTv2 SID of a safe message identifier and topology counters (IEC 61375-2-3; R252, Table 10-8). -/
opaque sdtSid : (smi etb op : W32) → W32

/-- The SDTv2 safety code over a SID and the dataset up to it (IEC 61375-2-3; R252). -/
opaque sdtCode : (sid : W32) → (data : List Byte) → W32

/-- The consist-local address of a subnet and a host (IEC 61375-3-4; R330). -/
opaque localAddr : (esub host : Nat) → W32

/-- The train-wide address of a train network identifier, a subnet and a host (IEC 61375-2-5; R330). -/
opaque trainAddr : (tnid : W32) → (esub host : Nat) → W32

/-- Whether a host lies within the host range of IEC 61375-3-4 (R331). -/
opaque hostOk : (host : Nat) → Bool

/-- The MAC address that answers for an IPv4 address of the network (ARP; R242). -/
opaque arpMac : (ip : W32) → BitVec 48

/-- The priority of an Announce data set against another in the default best master clock algorithm (IEEE 1588-2019, 9.3; R270):
whether the first is better. -/
opaque bmcBetter : Announce → Announce → Bool

end Sys2Proof.Config
end

