-- ==== Sys2Proof/Machine/Regs.lean ====
section
/-! DEFINITION. The registers of the module as their register tables give them (00 R1 to R8; the register tables of 02 to
17, generated from the spec's own tables): each group of registers with its offset from 0x03_0000_0000, each field with its
place, access code and reset values, and the field names BLOCK.REGISTER.FIELD under `R`. A field `(lo, w, acc, cold, warm, nv)`
with no cold or warm value keeps what it held ("keep", "rec", "factory"); "loaded" is 0 until it is loaded. -/

namespace Sys2Proof.Machine

/-- Access codes (Table 0-3). -/
inductive Acc where
  | rw | ro | w1c | w1s | wo | rc
  deriving DecidableEq, Repr

/-- One field of a register table. -/
structure RegFld where
  lo : Nat
  w : Nat
  acc : Acc
  cold : Option Nat
  warm : Option Nat
  nv : Bool
  deriving DecidableEq, Repr

/-- A group of registers repeated `cnt` times from `base`, `stride` bytes apart: rows of (offset in the group, fields). -/
structure RegGrp where
  base : Nat
  stride : Nat
  cnt : Nat
  rows : List (Nat × List RegFld)
  deriving DecidableEq, Repr

/-- A field of a register by its place: the register's offset from 0x03_0000_0000, lowest bit, width. -/
structure Fld where
  off : Nat
  lo : Nat
  w : Nat
  deriving DecidableEq, Repr

/-- The ID block. -/
def regsID : List RegGrp := [
  -- ID.REV
  ⟨0x0, 0, 1, [(0, [⟨0, 8, .ro, (some 1), (some 1), false⟩, ⟨8, 16, .ro, (some 1), (some 1), false⟩])]⟩,
  -- ID.PART
  ⟨0x4, 0, 1, [(0, [⟨0, 32, .ro, (some 0x30300), (some 0x30300), false⟩])]⟩,
  -- ID.SERIAL_LO
  ⟨0x8, 0, 1, [(0, [⟨0, 32, .ro, none, none, false⟩])]⟩,
  -- ID.SERIAL_HI
  ⟨0xC, 0, 1, [(0, [⟨0, 32, .ro, none, none, false⟩])]⟩,
  -- ID.SLOT
  ⟨0x10, 0, 1, [(0, [⟨0, 5, .ro, (some 0), (some 0), false⟩, ⟨5, 1, .ro, (some 0), (some 0), false⟩, ⟨31, 1, .ro, (some 0), (some 0), false⟩])]⟩,
  -- ID.PLUG
  ⟨0x14, 0, 1, [(0, [⟨0, 16, .ro, (some 0), (some 0), false⟩, ⟨16, 8, .ro, (some 0), (some 0), false⟩, ⟨31, 1, .ro, (some 0), (some 0), false⟩])]⟩,
  -- ID.VEHID
  ⟨0x18, 4, 4, [(0, [⟨0, 32, .ro, (some 0), (some 0), false⟩])]⟩,
  -- ID.UNITKEY
  ⟨0x28, 0, 1, [(0, [⟨0, 32, .ro, (some 0), (some 0), false⟩])]⟩,
  -- ID.HOSTID
  ⟨0x2C, 0, 1, [(0, [⟨0, 13, .ro, (some 0), (some 0), false⟩])]⟩,
  -- ID.IPLOC
  ⟨0x30, 0, 1, [(0, [⟨0, 32, .ro, (some 0), (some 0), false⟩])]⟩,
  -- ID.IPTRN
  ⟨0x34, 0, 1, [(0, [⟨0, 32, .ro, (some 0), (some 0), false⟩])]⟩,
  -- ID.ASTAT
  ⟨0x38, 0, 1, [(0, [⟨0, 1, .ro, (some 0), (some 0), false⟩, ⟨1, 3, .ro, (some 0), (some 0), false⟩])]⟩,
  -- ID.FLAG
  ⟨0x3C, 0, 1, [(0, [⟨0, 1, .w1c, (some 0), (some 0), false⟩, ⟨1, 1, .w1c, (some 0), (some 0), false⟩, ⟨2, 1, .w1c, (some 0), (some 0), false⟩, ⟨3, 1, .w1c, (some 0), (some 0), false⟩])]⟩,
  -- ID.MACBASE_LO
  ⟨0x40, 0, 1, [(0, [⟨0, 32, .ro, none, none, false⟩])]⟩,
  -- ID.MACBASE_HI
  ⟨0x44, 0, 1, [(0, [⟨0, 32, .ro, none, none, false⟩])]⟩]

/-- The GONG block. -/
def regsGONG : List RegGrp := [
  -- GONG.CTRL
  ⟨0x10000, 0, 1, [(0, [⟨0, 2, .rw, (some 2), none, true⟩])]⟩,
  -- GONG.STATUS
  ⟨0x10004, 0, 1, [(0, [⟨0, 2, .ro, (some 2), none, false⟩, ⟨2, 1, .ro, (some 0), (some 0), false⟩, ⟨3, 1, .ro, (some 1), (some 1), false⟩, ⟨4, 1, .ro, (some 0), (some 0), false⟩, ⟨8, 3, .ro, (some 0), (some 0), false⟩])]⟩,
  -- GONG.FRAME_LO
  ⟨0x10008, 0, 1, [(0, [⟨0, 32, .ro, (some 0), (some 0), false⟩])]⟩,
  -- GONG.FRAME_HI
  ⟨0x1000C, 0, 1, [(0, [⟨0, 32, .ro, (some 0), (some 0), false⟩])]⟩,
  -- GONG.TICKS_LO
  ⟨0x10010, 0, 1, [(0, [⟨0, 32, .ro, (some 0), (some 0), false⟩])]⟩,
  -- GONG.TICKS_HI
  ⟨0x10014, 0, 1, [(0, [⟨0, 32, .ro, (some 0), (some 0), false⟩])]⟩,
  -- GONG.TICKNS
  ⟨0x10018, 0, 1, [(0, [⟨0, 30, .ro, (some 0), (some 0), false⟩])]⟩,
  -- GONG.CUTOFS
  ⟨0x1001C, 0, 1, [(0, [⟨0, 32, .ro, (some 0xDB3D0), none, false⟩])]⟩,
  -- GONG.ADJ
  ⟨0x10020, 0, 1, [(0, [⟨0, 32, .ro, (some 0), (some 0), false⟩])]⟩,
  -- GONG.FLAG
  ⟨0x10024, 0, 1, [(0, [⟨0, 1, .w1c, (some 0), none, false⟩, ⟨1, 1, .w1c, (some 0), (some 0), false⟩])]⟩,
  -- GONG.RPCNT
  ⟨0x10028, 0, 1, [(0, [⟨0, 32, .ro, (some 0), none, false⟩])]⟩]

/-- The TASK block. -/
def regsTASK : List RegGrp := [
  -- TASK.PER
  ⟨0x20000, 4, 8, [(0, [⟨0, 4, .rw, (some 0), (some 0), false⟩, ⟨4, 10, .rw, (some 0), (some 0), false⟩, ⟨16, 1, .rw, (some 0), (some 0), false⟩, ⟨17, 1, .rw, (some 0), (some 0), false⟩, ⟨20, 4, .rw, (some 0), (some 0), false⟩])]⟩,
  -- TASK.SKIPRUN
  ⟨0x20020, 4, 8, [(0, [⟨0, 4, .ro, (some 0), (some 0), false⟩])]⟩,
  -- TASK.SKIPTOT
  ⟨0x20040, 4, 8, [(0, [⟨0, 32, .ro, (some 0), (some 0), false⟩])]⟩,
  -- TASK.CYC
  ⟨0x20060, 4, 8, [(0, [⟨0, 32, .ro, (some 0), (some 0), false⟩])]⟩,
  -- TASK.SKIPFLG
  ⟨0x20080, 0, 1, [(0, [⟨0, 8, .w1c, (some 0), (some 0), false⟩])]⟩,
  -- TASK.LIMHIT
  ⟨0x20084, 0, 1, [(0, [⟨0, 8, .ro, (some 0), none, false⟩])]⟩,
  -- TASK.LASTSKIP
  ⟨0x20088, 0, 1, [(0, [⟨0, 3, .ro, (some 0), (some 0), false⟩, ⟨4, 3, .ro, (some 0), (some 0), false⟩, ⟨8, 2, .ro, (some 0), (some 0), false⟩])]⟩,
  -- TASK.LASTSKIPF_LO
  ⟨0x20090, 0, 1, [(0, [⟨0, 32, .ro, (some 0), (some 0), false⟩])]⟩,
  -- TASK.LASTSKIPF_HI
  ⟨0x20094, 0, 1, [(0, [⟨0, 32, .ro, (some 0), (some 0), false⟩])]⟩,
  -- TASK.SCHEDID
  ⟨0x20098, 0, 1, [(0, [⟨0, 32, .ro, (some 0), (some 0), false⟩])]⟩,
  -- TASK.SCHEDINF
  ⟨0x2009C, 0, 1, [(0, [⟨0, 11, .ro, (some 0), (some 0), false⟩, ⟨16, 9, .ro, (some 0), (some 0), false⟩])]⟩,
  -- TASK.ENGPEAK
  ⟨0x200A0, 4, 8, [(0, [⟨0, 32, .ro, (some 0), (some 0), false⟩])]⟩,
  -- TASK.HELD
  ⟨0x200C0, 0, 1, [(0, [⟨0, 8, .ro, (some 0), (some 0), false⟩])]⟩,
  -- TASK.EXCH
  ⟨0x20100, 0, 1, [(0, [⟨0, 1, .rw, (some 0), (some 0), false⟩])]⟩,
  -- TASK.XCMD
  ⟨0x20104, 0, 1, [(0, [⟨0, 4, .rw, (some 0), (some 0), false⟩])]⟩,
  -- TASK.XCMDCNT
  ⟨0x20108, 0, 1, [(0, [⟨0, 32, .ro, (some 0), (some 0), false⟩])]⟩,
  -- TASK.XREASON
  ⟨0x2010C, 0, 1, [(0, [⟨0, 4, .ro, (some 0), (some 0), false⟩])]⟩,
  -- TASK.XSTAT
  ⟨0x20110, 0, 1, [(0, [⟨0, 3, .ro, (some 0), (some 0), false⟩, ⟨8, 4, .ro, (some 0), (some 0), false⟩, ⟨16, 8, .ro, (some 0), (some 0), false⟩, ⟨24, 8, .ro, (some 0), (some 0), false⟩])]⟩,
  -- TASK.PVER
  ⟨0x20114, 0, 1, [(0, [⟨0, 32, .ro, (some 0), (some 0), false⟩])]⟩,
  -- TASK.XPVER
  ⟨0x20118, 0, 1, [(0, [⟨0, 32, .ro, (some 0), (some 0), false⟩])]⟩,
  -- TASK.XARMF_LO
  ⟨0x2011C, 0, 1, [(0, [⟨0, 32, .ro, (some 0), (some 0), false⟩])]⟩,
  -- TASK.XARMF_HI
  ⟨0x20120, 0, 1, [(0, [⟨0, 32, .ro, (some 0), (some 0), false⟩])]⟩,
  -- TASK.XFILL
  ⟨0x20124, 0, 1, [(0, [⟨0, 16, .ro, (some 0), (some 0), false⟩, ⟨16, 16, .ro, (some 0), (some 0), false⟩])]⟩,
  -- TASK.XSEQ
  ⟨0x20128, 0, 1, [(0, [⟨0, 32, .ro, (some 0), none, false⟩])]⟩,
  -- TASK.RETSTAT
  ⟨0x20140, 0, 1, [(0, [⟨0, 1, .ro, (some 0), (some 0), false⟩, ⟨1, 1, .ro, (some 0), (some 0), false⟩, ⟨8, 8, .ro, (some 0), (some 0), false⟩, ⟨16, 16, .ro, (some 0), (some 0), false⟩])]⟩,
  -- TASK.RETF_LO
  ⟨0x20144, 0, 1, [(0, [⟨0, 32, .ro, (some 0), none, false⟩])]⟩,
  -- TASK.RETF_HI
  ⟨0x20148, 0, 1, [(0, [⟨0, 32, .ro, (some 0), none, false⟩])]⟩,
  -- TASK.RETPEAK
  ⟨0x2014C, 0, 1, [(0, [⟨0, 32, .ro, (some 0), (some 0), false⟩])]⟩]

/-- The SIG block. -/
def regsSIG : List RegGrp := [
  -- SIG.NSIG
  ⟨0x30000, 0, 1, [(0, [⟨0, 25, .ro, (some 0), (some 0), false⟩])]⟩,
  -- SIG.HOTUSE
  ⟨0x30004, 0, 1, [(0, [⟨0, 16, .ro, (some 0), (some 0), false⟩])]⟩,
  -- SIG.COLDUSE
  ⟨0x30008, 0, 1, [(0, [⟨0, 21, .ro, (some 0), (some 0), false⟩])]⟩,
  -- SIG.STALECNT
  ⟨0x3000C, 0, 1, [(0, [⟨0, 32, .ro, (some 0), (some 0), false⟩])]⟩,
  -- SIG.QID
  ⟨0x30010, 0, 1, [(0, [⟨0, 25, .rw, (some 0), (some 0), false⟩])]⟩,
  -- SIG.QENT
  ⟨0x30014, 4, 4, [(0, [⟨0, 32, .ro, (some 0), (some 0), false⟩])]⟩,
  -- SIG.FLAG
  ⟨0x30024, 0, 1, [(0, [⟨0, 1, .w1c, (some 0), (some 0), false⟩, ⟨1, 1, .w1c, (some 0), (some 0), false⟩])]⟩,
  -- SIG.FSIG
  ⟨0x30040, 0, 1, [(0, [⟨0, 25, .rw, (some 0), (some 0), false⟩])]⟩,
  -- SIG.FVAL_LO
  ⟨0x30044, 0, 1, [(0, [⟨0, 32, .rw, (some 0), (some 0), false⟩])]⟩,
  -- SIG.FVAL_HI
  ⟨0x30048, 0, 1, [(0, [⟨0, 32, .rw, (some 0), (some 0), false⟩])]⟩,
  -- SIG.FCMD
  ⟨0x3004C, 0, 1, [(0, [⟨0, 4, .rw, (some 0), (some 0), false⟩])]⟩,
  -- SIG.FCMDCNT
  ⟨0x30050, 0, 1, [(0, [⟨0, 32, .ro, (some 0), (some 0), false⟩])]⟩,
  -- SIG.FREASON
  ⟨0x30054, 0, 1, [(0, [⟨0, 3, .ro, (some 0), (some 0), false⟩])]⟩,
  -- SIG.FCOUNT
  ⟨0x30058, 0, 1, [(0, [⟨0, 11, .ro, (some 0), (some 0), false⟩])]⟩]

/-- The VOTE block. -/
def regsVOTE : List RegGrp := [
  -- VOTE.MODE
  ⟨0x40000, 0, 1, [(0, [⟨0, 3, .ro, none, none, false⟩, ⟨4, 2, .ro, none, none, false⟩, ⟨8, 2, .ro, none, none, false⟩, ⟨12, 2, .ro, (some 0), (some 0), false⟩])]⟩,
  -- VOTE.CHST
  ⟨0x40004, 0, 1, [(0, [⟨0, 4, .ro, none, none, false⟩, ⟨4, 4, .ro, none, none, false⟩, ⟨8, 4, .ro, none, none, false⟩])]⟩,
  -- VOTE.CAUSE
  ⟨0x40008, 4, 3, [(0, [⟨0, 4, .ro, none, none, false⟩, ⟨4, 4, .ro, none, none, false⟩, ⟨8, 3, .ro, none, none, false⟩, ⟨12, 2, .ro, none, none, false⟩])]⟩,
  -- VOTE.ATTEMPT
  ⟨0x40014, 0, 1, [(0, [⟨0, 4, .ro, none, none, false⟩, ⟨4, 4, .ro, none, none, false⟩, ⟨8, 4, .ro, none, none, false⟩])]⟩,
  -- VOTE.DEGCFG
  ⟨0x40018, 0, 1, [(0, [⟨0, 10, .rw, (some 0x48), none, true⟩])]⟩,
  -- VOTE.DEGTIME
  ⟨0x4001C, 0, 1, [(0, [⟨0, 32, .ro, none, none, false⟩])]⟩,
  -- VOTE.FLAG
  ⟨0x40020, 0, 1, [(0, [⟨0, 1, .w1c, (some 0), (some 0), false⟩, ⟨1, 1, .w1c, (some 0), (some 0), false⟩, ⟨2, 1, .w1c, (some 0), (some 0), false⟩, ⟨3, 1, .w1c, (some 0), (some 0), false⟩, ⟨4, 1, .w1c, (some 0), (some 0), false⟩, ⟨5, 1, .w1c, (some 0), (some 0), false⟩, ⟨6, 1, .w1c, (some 0), (some 0), false⟩, ⟨7, 1, .w1c, (some 0), none, false⟩])]⟩,
  -- VOTE.STTEST
  ⟨0x40024, 0, 1, [(0, [⟨0, 11, .ro, (some 0), none, false⟩, ⟨30, 1, .ro, (some 0), none, false⟩, ⟨31, 1, .ro, (some 0), none, false⟩])]⟩,
  -- VOTE.DELAY
  ⟨0x40028, 0, 1, [(0, [⟨0, 4, .ro, (some 2), none, false⟩, ⟨4, 4, .ro, (some 4), none, false⟩])]⟩,
  -- VOTE.RSVOL
  ⟨0x4002C, 0, 1, [(0, [⟨0, 32, .ro, (some 0), (some 0), false⟩])]⟩,
  -- VOTE.RSPROG
  ⟨0x40030, 0, 1, [(0, [⟨0, 32, .ro, (some 0), (some 0), false⟩])]⟩,
  -- VOTE.SCRUB
  ⟨0x40034, 0, 1, [(0, [⟨0, 32, .ro, (some 0), (some 0), false⟩])]⟩,
  -- VOTE.CMD
  ⟨0x40038, 0, 1, [(0, [⟨0, 4, .rw, (some 0), (some 0), false⟩])]⟩,
  -- VOTE.CMDCNT
  ⟨0x4003C, 0, 1, [(0, [⟨0, 32, .ro, (some 0), (some 0), false⟩])]⟩,
  -- VOTE.EXCLCNT
  ⟨0x40040, 4, 3, [(0, [⟨0, 32, .ro, (some 0), none, false⟩])]⟩,
  -- VOTE.WINCNT_LO
  ⟨0x40050, 0, 1, [(0, [⟨0, 32, .ro, (some 0), (some 0), false⟩])]⟩,
  -- VOTE.WINCNT_HI
  ⟨0x40054, 0, 1, [(0, [⟨0, 32, .ro, (some 0), (some 0), false⟩])]⟩,
  -- VOTE.CBPEAK
  ⟨0x40060, 4, 8, [(0, [⟨0, 13, .ro, (some 0), (some 0), false⟩])]⟩,
  -- VOTE.DIGEST
  ⟨0x40080, 4, 8, [(0, [⟨0, 32, .ro, (some 0), (some 0), false⟩])]⟩]

/-- The EVC block. -/
def regsEVC : List RegGrp := [
  -- EVC.BASIC
  ⟨0x50000, 0, 1, [(0, [⟨0, 4, .rw, (some 1), none, true⟩])]⟩,
  -- EVC.FLAG
  ⟨0x50004, 0, 1, [(0, [⟨0, 1, .w1c, (some 0), (some 0), false⟩, ⟨1, 1, .w1c, (some 0), (some 0), false⟩, ⟨2, 1, .w1c, (some 0), (some 0), false⟩])]⟩,
  -- EVC.HOLD
  ⟨0x50008, 0, 1, [(0, [⟨0, 10, .ro, (some 0x3FF), (some 0x3FF), false⟩])]⟩,
  -- EVC.HOLDSET
  ⟨0x5000C, 0, 1, [(0, [⟨0, 10, .wo, (some 0), (some 0), false⟩])]⟩,
  -- EVC.HOLDCLR
  ⟨0x50010, 0, 1, [(0, [⟨0, 10, .wo, (some 0), (some 0), false⟩])]⟩,
  -- EVC.RNE
  ⟨0x50014, 0, 1, [(0, [⟨0, 10, .ro, (some 0), (some 0), false⟩])]⟩,
  -- EVC.IEN
  ⟨0x50018, 0, 1, [(0, [⟨0, 2, .rw, (some 0), (some 0), false⟩])]⟩,
  -- EVC.SLAT
  ⟨0x5001C, 0, 1, [(0, [⟨0, 1, .w1c, (some 0), (some 0), false⟩])]⟩,
  -- EVC.DELIVCNT
  ⟨0x50020, 0, 1, [(0, [⟨0, 32, .ro, (some 0), (some 0), false⟩])]⟩,
  -- EVC.SPURCNT
  ⟨0x50024, 0, 1, [(0, [⟨0, 32, .ro, (some 0), (some 0), false⟩])]⟩,
  -- EVC.SQRY
  ⟨0x50028, 0, 1, [(0, [⟨0, 8, .rw, (some 0), (some 0), false⟩, ⟨16, 4, .rw, (some 0), (some 0), false⟩])]⟩,
  -- EVC.SQST
  ⟨0x5002C, 0, 1, [(0, [⟨20, 4, .ro, (some 0), (some 0), false⟩, ⟨24, 4, .ro, (some 0), (some 0), false⟩, ⟨28, 2, .ro, (some 0), (some 0), false⟩, ⟨30, 1, .ro, (some 0), (some 0), false⟩, ⟨31, 1, .ro, (some 0), (some 0), false⟩])]⟩,
  -- EVC.CLAIM
  ⟨0x50040, 4, 10, [(0, [⟨0, 10, .rc, (some 0x3FF), (some 0x3FF), false⟩])]⟩,
  -- EVC.COMPLETE
  ⟨0x50080, 4, 10, [(0, [⟨0, 10, .wo, (some 0), (some 0), false⟩])]⟩,
  -- EVC.CLREC
  ⟨0x500C0, 4, 4, [(0, [⟨0, 32, .ro, (some 0), (some 0), false⟩])]⟩,
  -- EVC.PEN, EVC.PPRI0, EVC.PPRI1, EVC.PLAT
  ⟨0x50100, 16, 10, [(0, [⟨0, 16, .rw, (some 0), none, true⟩]),
    (4, [⟨0, 32, .rw, (some 0), none, true⟩]),
    (8, [⟨0, 32, .rw, (some 0), none, true⟩]),
    (12, [⟨0, 16, .w1c, (some 0), (some 0), false⟩])]⟩,
  -- EVC.PSET
  ⟨0x50200, 4, 10, [(0, [⟨0, 8, .wo, (some 0), (some 0), false⟩])]⟩,
  -- EVC.SWLAT
  ⟨0x50240, 4, 6, [(0, [⟨0, 32, .w1c, (some 0), (some 0), false⟩])]⟩,
  -- EVC.SWSET
  ⟨0x50260, 4, 6, [(0, [⟨0, 32, .wo, (some 0), (some 0), false⟩])]⟩,
  -- EVC.PENSET
  ⟨0x50280, 4, 10, [(0, [⟨0, 16, .wo, (some 0), (some 0), false⟩])]⟩,
  -- EVC.PENCLR
  ⟨0x502C0, 4, 10, [(0, [⟨0, 16, .wo, (some 0), (some 0), false⟩])]⟩,
  -- EVC.SCFG
  ⟨0x50440, 4, 240, [(0, [⟨0, 4, .rw, (some 8), none, true⟩, ⟨8, 4, .rw, (some 0), none, true⟩, ⟨31, 1, .rw, (some 0), none, true⟩])]⟩]

/-- The NET block. -/
def regsNET : List RegGrp := [
  -- NET.BASIC
  ⟨0x60000, 0, 1, [(0, [⟨0, 4, .rw, (some 1), none, true⟩])]⟩,
  -- NET.CFG
  ⟨0x60004, 0, 1, [(0, [⟨0, 2, .rw, (some 0), none, true⟩, ⟨4, 1, .rw, (some 1), none, true⟩, ⟨16, 16, .rw, (some 0x190), none, true⟩])]⟩,
  -- NET.STATUS
  ⟨0x60008, 0, 1, [(0, [⟨0, 2, .ro, (some 0), none, false⟩, ⟨2, 1, .ro, (some 0), (some 0), false⟩, ⟨3, 1, .ro, (some 0), (some 0), false⟩, ⟨4, 1, .ro, (some 0), (some 0), false⟩, ⟨8, 1, .ro, (some 0), (some 0), false⟩, ⟨9, 1, .ro, (some 0), (some 0), false⟩, ⟨10, 1, .ro, (some 0), (some 0), false⟩, ⟨11, 1, .ro, (some 0), (some 0), false⟩])]⟩,
  -- NET.FLAG
  ⟨0x6000C, 0, 1, [(0, [⟨0, 1, .w1c, (some 0), (some 0), false⟩, ⟨1, 1, .w1c, (some 0), (some 0), false⟩, ⟨2, 1, .w1c, (some 0), (some 0), false⟩, ⟨3, 1, .w1c, (some 0), (some 0), false⟩, ⟨4, 1, .w1c, (some 0), (some 0), false⟩, ⟨5, 1, .w1c, (some 0), (some 0), false⟩, ⟨6, 1, .w1c, (some 0), (some 0), false⟩, ⟨7, 1, .w1c, (some 0), (some 0), false⟩, ⟨8, 1, .w1c, (some 0), (some 0), false⟩])]⟩,
  -- NET.ETBTOPO
  ⟨0x60010, 0, 1, [(0, [⟨0, 32, .ro, (some 0), (some 0), false⟩])]⟩,
  -- NET.OPTOPO
  ⟨0x60014, 0, 1, [(0, [⟨0, 32, .ro, (some 0), (some 0), false⟩])]⟩,
  -- NET.INAUGCNT
  ⟨0x60018, 0, 1, [(0, [⟨0, 32, .ro, (some 0), (some 0), false⟩])]⟩,
  -- NET.TABN
  ⟨0x6001C, 0, 1, [(0, [⟨0, 16, .ro, (some 0), (some 0), false⟩, ⟨16, 16, .ro, (some 0), (some 0), false⟩])]⟩,
  -- NET.TSEL
  ⟨0x60020, 0, 1, [(0, [⟨0, 13, .rw, (some 0), (some 0), false⟩, ⟨31, 1, .rw, (some 0), (some 0), false⟩])]⟩,
  -- NET.TENT
  ⟨0x60024, 4, 10, [(0, [⟨0, 32, .ro, (some 0), (some 0), false⟩, ⟨0, 32, .ro, (some 0), (some 0), false⟩, ⟨0, 32, .ro, (some 0), (some 0), false⟩])]⟩,
  -- NET.TXPD
  ⟨0x60060, 0, 1, [(0, [⟨0, 32, .ro, (some 0), (some 0), false⟩])]⟩,
  -- NET.RXACC
  ⟨0x60064, 0, 1, [(0, [⟨0, 32, .ro, (some 0), (some 0), false⟩])]⟩,
  -- NET.DROPSDT
  ⟨0x60068, 0, 1, [(0, [⟨0, 32, .ro, (some 0), (some 0), false⟩])]⟩,
  -- NET.DROPEPO
  ⟨0x6006C, 0, 1, [(0, [⟨0, 32, .ro, (some 0), (some 0), false⟩])]⟩,
  -- NET.DROPTOPO
  ⟨0x60070, 0, 1, [(0, [⟨0, 32, .ro, (some 0), (some 0), false⟩])]⟩,
  -- NET.DROPOTHER
  ⟨0x60074, 0, 1, [(0, [⟨0, 32, .ro, (some 0), (some 0), false⟩])]⟩,
  -- NET.TOCNT
  ⟨0x60078, 0, 1, [(0, [⟨0, 32, .ro, (some 0), (some 0), false⟩])]⟩,
  -- NET.RXFULL
  ⟨0x6007C, 0, 1, [(0, [⟨0, 32, .ro, (some 0), (some 0), false⟩])]⟩,
  -- NET.PRPDUP
  ⟨0x60080, 0, 1, [(0, [⟨0, 32, .ro, (some 0), (some 0), false⟩])]⟩,
  -- NET.RBASE_LO, NET.RBASE_HI, NET.RCFG, NET.HEAD, NET.TAIL
  ⟨0x60800, 32, 64, [(0, [⟨0, 32, .rw, (some 0), (some 0), false⟩]),
    (4, [⟨0, 32, .rw, (some 0), (some 0), false⟩]),
    (8, [⟨0, 4, .rw, (some 4), (some 4), false⟩, ⟨4, 4, .ro, none, none, false⟩, ⟨24, 3, .ro, none, none, false⟩, ⟨30, 1, .ro, none, none, false⟩, ⟨31, 1, .rw, (some 0), (some 0), false⟩]),
    (12, [⟨0, 16, .rw, (some 0), (some 0), false⟩]),
    (16, [⟨0, 16, .rw, (some 0), (some 0), false⟩])]⟩]

/-- The TIME block. -/
def regsTIME : List RegGrp := [
  -- TIME.BASIC
  ⟨0x70000, 0, 1, [(0, [⟨0, 4, .rw, (some 1), none, true⟩])]⟩,
  -- TIME.CFG
  ⟨0x70004, 0, 1, [(0, [⟨0, 1, .rw, (some 0), none, true⟩, ⟨1, 1, .rw, (some 0), none, true⟩, ⟨8, 3, .rw, (some 3), none, true⟩, ⟨16, 8, .rw, (some 0), none, true⟩, ⟨24, 8, .rw, (some 0x80), none, true⟩])]⟩,
  -- TIME.STATUS
  ⟨0x70008, 0, 1, [(0, [⟨0, 2, .ro, (some 0), (some 0), false⟩, ⟨2, 1, .ro, (some 0), (some 0), false⟩, ⟨8, 1, .ro, (some 0), (some 0), false⟩])]⟩,
  -- TIME.FLAG
  ⟨0x7000C, 0, 1, [(0, [⟨0, 1, .w1c, (some 0), (some 0), false⟩, ⟨1, 1, .w1c, (some 0), (some 0), false⟩, ⟨2, 1, .w1c, (some 0), (some 0), false⟩, ⟨3, 1, .w1c, (some 0), none, false⟩, ⟨4, 1, .w1c, (some 0), (some 0), false⟩, ⟨5, 1, .w1c, (some 0), (some 0), false⟩])]⟩,
  -- TIME.NOWSEC_LO
  ⟨0x70010, 0, 1, [(0, [⟨0, 32, .ro, (some 0), (some 0), false⟩])]⟩,
  -- TIME.NOWSEC_HI
  ⟨0x70014, 0, 1, [(0, [⟨0, 32, .ro, (some 0), (some 0), false⟩])]⟩,
  -- TIME.NOWNS
  ⟨0x70018, 0, 1, [(0, [⟨0, 30, .ro, (some 0), (some 0), false⟩])]⟩,
  -- TIME.NOWFRAC
  ⟨0x7001C, 0, 1, [(0, [⟨0, 16, .ro, (some 0), (some 0), false⟩])]⟩,
  -- TIME.INCR_LO
  ⟨0x70020, 0, 1, [(0, [⟨0, 32, .rw, (some 0), (some 0), false⟩])]⟩,
  -- TIME.INCR_HI
  ⟨0x70024, 0, 1, [(0, [⟨0, 8, .rw, (some 4), (some 4), false⟩])]⟩,
  -- TIME.STEP_LO
  ⟨0x70028, 0, 1, [(0, [⟨0, 32, .rw, (some 0), (some 0), false⟩])]⟩,
  -- TIME.STEP_HI
  ⟨0x7002C, 0, 1, [(0, [⟨0, 32, .rw, (some 0), (some 0), false⟩])]⟩,
  -- TIME.STEPCNT
  ⟨0x70030, 0, 1, [(0, [⟨0, 32, .ro, (some 0), (some 0), false⟩])]⟩,
  -- TIME.REASON
  ⟨0x70034, 0, 1, [(0, [⟨0, 3, .ro, (some 0), (some 0), false⟩])]⟩,
  -- TIME.PEND_LO
  ⟨0x70038, 0, 1, [(0, [⟨0, 32, .ro, (some 0), (some 0), false⟩])]⟩,
  -- TIME.PEND_HI
  ⟨0x7003C, 0, 1, [(0, [⟨0, 32, .ro, (some 0), (some 0), false⟩])]⟩,
  -- TIME.JUMPLIM
  ⟨0x70040, 0, 1, [(0, [⟨0, 32, .rw, (some 0x30D40), none, true⟩])]⟩,
  -- TIME.LOCKCFG
  ⟨0x70044, 0, 1, [(0, [⟨0, 16, .rw, (some 0x3E8), none, true⟩])]⟩,
  -- TIME.LATECFG
  ⟨0x70048, 0, 1, [(0, [⟨0, 3, .rw, (some 1), none, true⟩, ⟨16, 10, .rw, (some 0xA), none, true⟩])]⟩,
  -- TIME.CMD
  ⟨0x7004C, 0, 1, [(0, [⟨0, 4, .rw, (some 0), (some 0), false⟩])]⟩,
  -- TIME.CMDCNT
  ⟨0x70050, 0, 1, [(0, [⟨0, 32, .ro, (some 0), (some 0), false⟩])]⟩,
  -- TIME.OFFS
  ⟨0x70054, 0, 1, [(0, [⟨0, 32, .ro, (some 0), (some 0), false⟩])]⟩,
  -- TIME.GMID_LO
  ⟨0x70058, 0, 1, [(0, [⟨0, 32, .ro, (some 0), (some 0), false⟩])]⟩,
  -- TIME.GMID_HI
  ⟨0x7005C, 0, 1, [(0, [⟨0, 32, .ro, (some 0), (some 0), false⟩])]⟩,
  -- TIME.UTCOFS
  ⟨0x70060, 0, 1, [(0, [⟨0, 16, .ro, (some 0), (some 0), false⟩])]⟩,
  -- TIME.LATECNT
  ⟨0x70064, 0, 1, [(0, [⟨0, 32, .ro, (some 0), (some 0), false⟩])]⟩,
  -- TIME.PDLATE
  ⟨0x70068, 0, 1, [(0, [⟨0, 32, .ro, (some 0), (some 0), false⟩])]⟩,
  -- TIME.JREFCNT
  ⟨0x7006C, 0, 1, [(0, [⟨0, 32, .ro, (some 0), (some 0), false⟩])]⟩]

/-- The SIO block. -/
def regsSIO : List RegGrp := [
  -- SIO.BASIC
  ⟨0x80000, 0, 1, [(0, [⟨0, 4, .rw, (some 0), none, true⟩])]⟩,
  -- SIO.TPCFG
  ⟨0x80004, 0, 1, [(0, [⟨0, 10, .rw, (some 0x12C), none, true⟩, ⟨16, 10, .rw, (some 0x28), none, true⟩])]⟩,
  -- SIO.OPCFG
  ⟨0x80008, 0, 1, [(0, [⟨0, 10, .rw, (some 0x190), none, true⟩, ⟨16, 9, .rw, (some 0x64), none, true⟩])]⟩,
  -- SIO.FLAG
  ⟨0x8000C, 0, 1, [(0, [⟨0, 1, .w1c, (some 0), (some 0), false⟩, ⟨1, 1, .w1c, (some 0), (some 0), false⟩, ⟨2, 1, .w1c, (some 0), (some 0), false⟩, ⟨3, 1, .w1c, (some 0), (some 0), false⟩, ⟨4, 1, .w1c, (some 0), (some 0), false⟩, ⟨5, 1, .w1c, (some 0), (some 0), false⟩])]⟩,
  -- SIO.CMD
  ⟨0x80010, 0, 1, [(0, [⟨0, 4, .rw, (some 0), (some 0), false⟩, ⟨8, 8, .rw, (some 0), (some 0), false⟩])]⟩,
  -- SIO.CMDCNT
  ⟨0x80014, 0, 1, [(0, [⟨0, 32, .ro, (some 0), (some 0), false⟩])]⟩,
  -- SIO.REASON
  ⟨0x80018, 0, 1, [(0, [⟨0, 3, .ro, (some 0), (some 0), false⟩])]⟩,
  -- SIO.ISTATE
  ⟨0x80020, 0, 1, [(0, [⟨0, 16, .ro, (some 0), (some 0), false⟩, ⟨16, 16, .ro, (some 0), (some 0), false⟩])]⟩,
  -- SIO.IFAULT
  ⟨0x80024, 0, 1, [(0, [⟨0, 16, .ro, (some 0), (some 0), false⟩, ⟨16, 8, .ro, (some 0), (some 0), false⟩])]⟩,
  -- SIO.OSTATE
  ⟨0x80028, 0, 1, [(0, [⟨0, 8, .ro, (some 0), (some 0), false⟩, ⟨8, 8, .ro, (some 0), (some 0), false⟩, ⟨16, 8, .ro, (some 0), none, false⟩, ⟨24, 8, .ro, (some 0), (some 0), false⟩])]⟩,
  -- SIO.ICFG
  ⟨0x80040, 4, 16, [(0, [⟨0, 3, .rw, (some 0), none, true⟩, ⟨4, 2, .rw, (some 0), none, true⟩, ⟨8, 8, .rw, (some 0x1E), none, true⟩, ⟨20, 1, .rw, (some 0), none, true⟩, ⟨21, 1, .rw, (some 0), none, true⟩])]⟩,
  -- SIO.IDIAG
  ⟨0x80080, 4, 16, [(0, [⟨0, 3, .ro, (some 0), (some 0), false⟩, ⟨8, 4, .ro, (some 0), (some 0), false⟩, ⟨16, 16, .ro, (some 0), (some 0), false⟩])]⟩,
  -- SIO.PCFG
  ⟨0x800C0, 4, 8, [(0, [⟨0, 2, .rw, (some 0), none, true⟩, ⟨16, 16, .rw, (some 0x64), none, true⟩])]⟩,
  -- SIO.OCFG
  ⟨0x800E0, 4, 8, [(0, [⟨0, 1, .rw, (some 0), none, true⟩, ⟨1, 1, .rw, (some 0), none, true⟩])]⟩,
  -- SIO.ODIAG
  ⟨0x80100, 4, 8, [(0, [⟨0, 3, .ro, (some 0), none, false⟩, ⟨8, 4, .ro, (some 0), (some 0), false⟩, ⟨12, 1, .ro, (some 0), (some 0), false⟩, ⟨13, 1, .ro, (some 0), none, false⟩, ⟨16, 16, .ro, (some 0), (some 0), false⟩])]⟩,
  -- SIO.OSRC
  ⟨0x80120, 4, 8, [(0, [⟨0, 25, .ro, (some 0), (some 0), false⟩])]⟩]

/-- The SPD block. -/
def regsSPD : List RegGrp := [
  -- SPD.BASIC
  ⟨0x90000, 0, 1, [(0, [⟨0, 4, .rw, (some 0), none, true⟩])]⟩,
  -- SPD.SCFG
  ⟨0x90004, 0, 1, [(0, [⟨0, 3, .rw, (some 0), none, true⟩, ⟨8, 3, .rw, (some 0), none, true⟩])]⟩,
  -- SPD.WHEEL
  ⟨0x90008, 4, 2, [(0, [⟨0, 16, .rw, (some 0x348), none, true⟩, ⟨16, 16, .rw, (some 0x398), none, true⟩])]⟩,
  -- SPD.TEETH
  ⟨0x90010, 0, 1, [(0, [⟨0, 10, .rw, (some 0x64), none, true⟩, ⟨16, 10, .rw, (some 0x64), none, true⟩])]⟩,
  -- SPD.AMAX
  ⟨0x90014, 0, 1, [(0, [⟨0, 16, .rw, (some 0x5DC), none, true⟩])]⟩,
  -- SPD.STILLT
  ⟨0x90018, 0, 1, [(0, [⟨0, 16, .rw, (some 0x1F4), none, true⟩])]⟩,
  -- SPD.PLAUS
  ⟨0x9001C, 0, 1, [(0, [⟨0, 8, .rw, (some 0xA), none, true⟩, ⟨8, 16, .rw, (some 0x12C), none, true⟩, ⟨24, 8, .rw, (some 0x14), none, true⟩])]⟩,
  -- SPD.SSLIM
  ⟨0x90020, 0, 1, [(0, [⟨0, 8, .rw, (some 0x1E), none, true⟩])]⟩,
  -- SPD.THR
  ⟨0x90040, 4, 8, [(0, [⟨0, 12, .rw, (some 0), none, true⟩, ⟨12, 20, .rw, (some 0), none, true⟩])]⟩,
  -- SPD.STATUS
  ⟨0x90060, 0, 1, [(0, [⟨0, 2, .ro, (some 3), (some 3), false⟩, ⟨2, 1, .ro, (some 0), (some 0), false⟩, ⟨4, 2, .ro, (some 0), (some 0), false⟩, ⟨8, 1, .ro, (some 0), (some 0), false⟩, ⟨9, 1, .ro, (some 0), (some 0), false⟩, ⟨10, 2, .ro, (some 0), (some 0), false⟩])]⟩,
  -- SPD.VHI
  ⟨0x90064, 0, 1, [(0, [⟨0, 32, .ro, (some 0xFFFFFFFF), (some 0xFFFFFFFF), false⟩])]⟩,
  -- SPD.VLO
  ⟨0x90068, 0, 1, [(0, [⟨0, 32, .ro, (some 0), (some 0), false⟩])]⟩,
  -- SPD.VSS
  ⟨0x9006C, 0, 1, [(0, [⟨0, 16, .ro, (some 0), (some 0), false⟩, ⟨16, 16, .ro, (some 0), (some 0), false⟩])]⟩,
  -- SPD.SSUSED
  ⟨0x90070, 0, 1, [(0, [⟨0, 32, .ro, none, none, false⟩])]⟩,
  -- SPD.SDIAG
  ⟨0x90074, 4, 2, [(0, [⟨0, 3, .ro, (some 0), (some 0), false⟩, ⟨16, 16, .ro, (some 0), (some 0), false⟩])]⟩,
  -- SPD.FLAG
  ⟨0x9007C, 0, 1, [(0, [⟨0, 1, .w1c, (some 0), (some 0), false⟩, ⟨1, 1, .w1c, (some 0), (some 0), false⟩, ⟨2, 1, .w1c, (some 0), (some 0), false⟩, ⟨3, 1, .w1c, (some 0), (some 0), false⟩, ⟨4, 1, .w1c, (some 0), (some 0), false⟩])]⟩,
  -- SPD.EDGES
  ⟨0x90080, 4, 2, [(0, [⟨0, 32, .ro, (some 0), (some 0), false⟩])]⟩]

/-- The BRG block. -/
def regsBRG : List RegGrp := [
  -- BRG.BASIC
  ⟨0xA0000, 0, 1, [(0, [⟨0, 4, .rw, (some 1), none, true⟩])]⟩,
  -- BRG.CFG
  ⟨0xA0004, 0, 1, [(0, [⟨0, 1, .rw, (some 0), none, true⟩, ⟨1, 1, .rw, (some 0), none, true⟩, ⟨16, 7, .rw, (some 0x7F), none, true⟩, ⟨26, 6, .rw, (some 0x3F), none, true⟩])]⟩,
  -- BRG.STATUS
  ⟨0xA0008, 0, 1, [(0, [⟨0, 1, .ro, (some 0), (some 0), false⟩, ⟨1, 1, .ro, (some 0), (some 0), false⟩, ⟨2, 1, .ro, (some 0), (some 0), false⟩, ⟨3, 1, .ro, (some 0), (some 0), false⟩, ⟨4, 1, .ro, (some 0), (some 0), false⟩, ⟨8, 7, .ro, (some 0), (some 0), false⟩, ⟨16, 4, .ro, (some 0), (some 0), false⟩])]⟩,
  -- BRG.FLAG
  ⟨0xA000C, 0, 1, [(0, [⟨0, 1, .w1c, (some 0), (some 0), false⟩, ⟨1, 1, .w1c, (some 0), (some 0), false⟩, ⟨2, 1, .w1c, (some 0), (some 0), false⟩, ⟨3, 1, .w1c, (some 0), (some 0), false⟩, ⟨4, 1, .w1c, (some 0), (some 0), false⟩, ⟨5, 1, .w1c, (some 0), (some 0), false⟩, ⟨6, 1, .w1c, (some 0), (some 0), false⟩, ⟨7, 1, .w1c, (some 0), (some 0), false⟩])]⟩,
  -- BRG.INTST
  ⟨0xA0010, 0, 1, [(0, [⟨0, 4, .ro, (some 0), (some 0), false⟩])]⟩,
  -- BRG.CFGADR
  ⟨0xA0014, 0, 1, [(0, [⟨2, 6, .rw, (some 0), (some 0), false⟩, ⟨8, 3, .rw, (some 0), (some 0), false⟩, ⟨11, 5, .rw, (some 0), (some 0), false⟩])]⟩,
  -- BRG.CFGDATA
  ⟨0xA0018, 0, 1, [(0, [⟨0, 32, .rw, (some 0), (some 0), false⟩])]⟩,
  -- BRG.PWLOST
  ⟨0xA001C, 0, 1, [(0, [⟨0, 32, .ro, (some 0), (some 0), false⟩])]⟩,
  -- BRG.DISCCNT
  ⟨0xA0020, 0, 1, [(0, [⟨0, 32, .ro, (some 0), (some 0), false⟩])]⟩,
  -- BRG.RDERRCNT
  ⟨0xA0024, 0, 1, [(0, [⟨0, 32, .ro, (some 0), (some 0), false⟩])]⟩,
  -- BRG.IPERRCNT
  ⟨0xA0028, 0, 1, [(0, [⟨0, 32, .ro, (some 0), (some 0), false⟩])]⟩]

/-- The PAIR block. -/
def regsPAIR : List RegGrp := [
  -- PAIR.CFG
  ⟨0xB0000, 0, 1, [(0, [⟨0, 1, .rw, (some 0), none, true⟩])]⟩,
  -- PAIR.ROLE
  ⟨0xB0004, 0, 1, [(0, [⟨0, 3, .ro, (some 0), (some 0), false⟩, ⟨4, 3, .ro, (some 0), (some 0), false⟩, ⟨8, 1, .ro, (some 0), (some 0), false⟩, ⟨12, 3, .ro, (some 0), (some 0), false⟩, ⟨16, 1, .ro, (some 0), (some 0), false⟩, ⟨17, 1, .ro, (some 0), (some 0), false⟩, ⟨20, 2, .ro, (some 0), (some 0), false⟩])]⟩,
  -- PAIR.EPOCH
  ⟨0xB0008, 0, 1, [(0, [⟨0, 32, .ro, none, none, false⟩])]⟩,
  -- PAIR.ACKF_LO
  ⟨0xB000C, 0, 1, [(0, [⟨0, 32, .ro, (some 0), (some 0), false⟩])]⟩,
  -- PAIR.ACKF_HI
  ⟨0xB0010, 0, 1, [(0, [⟨0, 32, .ro, (some 0), (some 0), false⟩])]⟩,
  -- PAIR.RESF_LO
  ⟨0xB0014, 0, 1, [(0, [⟨0, 32, .ro, (some 0), (some 0), false⟩])]⟩,
  -- PAIR.RESF_HI
  ⟨0xB0018, 0, 1, [(0, [⟨0, 32, .ro, (some 0), (some 0), false⟩])]⟩,
  -- PAIR.SKIPF
  ⟨0xB001C, 0, 1, [(0, [⟨0, 8, .ro, (some 0), (some 0), false⟩])]⟩,
  -- PAIR.FLAG
  ⟨0xB0020, 0, 1, [(0, [⟨0, 1, .w1c, (some 0), (some 0), false⟩, ⟨1, 1, .w1c, (some 0), none, false⟩, ⟨2, 1, .w1c, (some 0), none, false⟩, ⟨3, 1, .w1c, (some 0), (some 0), false⟩, ⟨4, 1, .w1c, (some 0), (some 0), false⟩, ⟨5, 1, .w1c, (some 0), (some 0), false⟩, ⟨6, 1, .w1c, (some 0), (some 0), false⟩, ⟨7, 1, .w1c, (some 0), (some 0), false⟩, ⟨8, 1, .w1c, (some 0), (some 0), false⟩, ⟨9, 1, .w1c, (some 0), (some 0), false⟩])]⟩,
  -- PAIR.CMD
  ⟨0xB0024, 0, 1, [(0, [⟨0, 4, .rw, (some 0), (some 0), false⟩])]⟩,
  -- PAIR.CMDCNT
  ⟨0xB0028, 0, 1, [(0, [⟨0, 32, .ro, (some 0), (some 0), false⟩])]⟩,
  -- PAIR.REASON
  ⟨0xB002C, 0, 1, [(0, [⟨0, 3, .ro, (some 0), (some 0), false⟩])]⟩,
  -- PAIR.JOIN
  ⟨0xB0030, 0, 1, [(0, [⟨0, 16, .ro, (some 0), (some 0), false⟩, ⟨16, 16, .ro, (some 0), (some 0), false⟩])]⟩,
  -- PAIR.COPYPEAK
  ⟨0xB0034, 0, 1, [(0, [⟨0, 32, .ro, (some 0), (some 0), false⟩])]⟩,
  -- PAIR.COUNTS
  ⟨0xB0038, 0, 1, [(0, [⟨0, 16, .ro, (some 0), none, false⟩, ⟨16, 16, .ro, (some 0), none, false⟩])]⟩,
  -- PAIR.BOTHNS
  ⟨0xB003C, 0, 1, [(0, [⟨0, 32, .ro, (some 0), (some 0), false⟩])]⟩]

/-- The STW block. -/
def regsSTW : List RegGrp := [
  -- STW.CMD
  ⟨0xC0000, 0, 1, [(0, [⟨0, 4, .rw, (some 0), (some 0), false⟩])]⟩,
  -- STW.CMDCNT
  ⟨0xC0004, 0, 1, [(0, [⟨0, 32, .ro, (some 0), (some 0), false⟩])]⟩,
  -- STW.REASON
  ⟨0xC0008, 0, 1, [(0, [⟨0, 2, .ro, (some 0), (some 0), false⟩])]⟩]

/-- The CFG block. -/
def regsCFG : List RegGrp := [
  -- CFG.BASIC
  ⟨0xD0000, 0, 1, [(0, [⟨0, 4, .rw, (some 1), none, true⟩])]⟩,
  -- CFG.STATUS
  ⟨0xD0004, 0, 1, [(0, [⟨0, 1, .ro, (some 0), (some 0), false⟩, ⟨3, 1, .ro, (some 0), (some 0), false⟩, ⟨4, 1, .ro, (some 0), none, false⟩, ⟨5, 1, .ro, (some 0), (some 0), false⟩, ⟨6, 2, .ro, (some 0), (some 0), false⟩])]⟩,
  -- CFG.FLAG
  ⟨0xD0008, 0, 1, [(0, [⟨0, 1, .w1c, (some 0), (some 0), false⟩, ⟨1, 1, .w1c, (some 0), (some 0), false⟩])]⟩,
  -- CFG.CURVER
  ⟨0xD000C, 0, 1, [(0, [⟨0, 32, .ro, (some 0), (some 0), false⟩])]⟩,
  -- CFG.PREVVER
  ⟨0xD0010, 0, 1, [(0, [⟨0, 32, .ro, (some 0), (some 0), false⟩])]⟩,
  -- CFG.STGVER
  ⟨0xD0014, 0, 1, [(0, [⟨0, 32, .ro, (some 0), (some 0), false⟩])]⟩,
  -- CFG.CMD
  ⟨0xD0018, 0, 1, [(0, [⟨0, 4, .rw, (some 0), (some 0), false⟩])]⟩,
  -- CFG.CMDCNT
  ⟨0xD001C, 0, 1, [(0, [⟨0, 32, .ro, (some 0), (some 0), false⟩])]⟩,
  -- CFG.REASON
  ⟨0xD0020, 0, 1, [(0, [⟨0, 4, .ro, (some 0), (some 0), false⟩])]⟩,
  -- CFG.STGERR
  ⟨0xD0024, 0, 1, [(0, [⟨0, 32, .ro, (some 0), (some 0), false⟩])]⟩,
  -- CFG.EXPERT
  ⟨0xD0028, 0, 1, [(0, [⟨0, 16, .ro, (some 0), (some 0), false⟩, ⟨31, 1, .ro, (some 0), (some 0), false⟩])]⟩,
  -- CFG.EXPCHAL
  ⟨0xD002C, 0, 1, [(0, [⟨0, 32, .ro, (some 0), (some 0), false⟩])]⟩,
  -- CFG.EXPKEY
  ⟨0xD0030, 0, 1, [(0, [⟨0, 32, .wo, (some 0), (some 0), false⟩])]⟩,
  -- CFG.EXPCFG
  ⟨0xD0034, 0, 1, [(0, [⟨0, 8, .rw, (some 0xF), none, true⟩])]⟩,
  -- CFG.ADDRCFG
  ⟨0xD0038, 0, 1, [(0, [⟨0, 6, .rw, (some 0), none, true⟩, ⟨16, 8, .rw, (some 1), none, true⟩, ⟨24, 6, .rw, (some 1), none, true⟩, ⟨31, 1, .rw, (some 0), none, true⟩])]⟩]

/-- The UPD block. -/
def regsUPD : List RegGrp := [
  -- UPD.BASIC
  ⟨0xE0000, 0, 1, [(0, [⟨0, 4, .rw, (some 1), none, true⟩])]⟩,
  -- UPD.CFG
  ⟨0xE0004, 0, 1, [(0, [⟨0, 25, .rw, (some 0), none, true⟩, ⟨28, 4, .rw, (some 3), none, true⟩])]⟩,
  -- UPD.STATE
  ⟨0xE0008, 0, 1, [(0, [⟨0, 3, .ro, (some 0), (some 0), false⟩, ⟨8, 4, .ro, (some 0), (some 0), false⟩, ⟨16, 2, .ro, none, none, false⟩, ⟨20, 1, .ro, none, none, false⟩, ⟨24, 8, .ro, none, none, false⟩])]⟩,
  -- UPD.STATUS
  ⟨0xE000C, 0, 1, [(0, [⟨0, 4, .ro, (some 0), (some 0), false⟩, ⟨8, 8, .ro, (some 0), (some 0), false⟩])]⟩,
  -- UPD.FLAG
  ⟨0xE0010, 0, 1, [(0, [⟨0, 1, .w1c, (some 0), (some 0), false⟩, ⟨1, 1, .w1c, (some 0), (some 0), false⟩, ⟨2, 1, .w1c, (some 0), none, false⟩, ⟨3, 1, .w1c, (some 0), none, false⟩, ⟨4, 1, .w1c, (some 0), none, false⟩, ⟨5, 1, .w1c, (some 0), none, false⟩])]⟩,
  -- UPD.CMD
  ⟨0xE0014, 0, 1, [(0, [⟨0, 4, .rw, (some 0), (some 0), false⟩, ⟨8, 4, .rw, (some 0), (some 0), false⟩])]⟩,
  -- UPD.CMDCNT
  ⟨0xE0018, 0, 1, [(0, [⟨0, 32, .ro, (some 0), (some 0), false⟩])]⟩,
  -- UPD.PROG
  ⟨0xE001C, 0, 1, [(0, [⟨0, 16, .ro, (some 0), (some 0), false⟩, ⟨16, 16, .ro, (some 0), (some 0), false⟩])]⟩,
  -- UPD.MINSVN
  ⟨0xE0020, 0, 1, [(0, [⟨0, 32, .ro, none, none, false⟩])]⟩,
  -- UPD.OWNER
  ⟨0xE0024, 0, 1, [(0, [⟨30, 1, .ro, none, none, false⟩, ⟨31, 1, .ro, none, none, false⟩])]⟩,
  -- UPD.OCHAL_LO
  ⟨0xE0028, 0, 1, [(0, [⟨0, 32, .ro, (some 0), (some 0), false⟩])]⟩,
  -- UPD.OCHAL_HI
  ⟨0xE002C, 0, 1, [(0, [⟨0, 32, .ro, (some 0), (some 0), false⟩])]⟩,
  -- UPD.BOOTCNT
  ⟨0xE0030, 0, 1, [(0, [⟨0, 32, .ro, none, none, false⟩])]⟩,
  -- UPD.ATTCNT
  ⟨0xE0034, 0, 1, [(0, [⟨0, 32, .ro, (some 0), (some 0), false⟩])]⟩,
  -- UPD.ACTID
  ⟨0xE0040, 4, 8, [(0, [⟨0, 32, .ro, none, none, false⟩])]⟩,
  -- UPD.STGID
  ⟨0xE0060, 4, 8, [(0, [⟨0, 32, .ro, (some 0), (some 0), false⟩])]⟩]

/-- The SUP block. -/
def regsSUP : List RegGrp := [
  -- SUP.BASIC
  ⟨0xF0000, 0, 1, [(0, [⟨0, 4, .rw, (some 1), none, true⟩])]⟩,
  -- SUP.CFG
  ⟨0xF0004, 0, 1, [(0, [⟨0, 1, .rw, (some 1), none, true⟩, ⟨1, 1, .rw, (some 0), none, true⟩])]⟩,
  -- SUP.STATE
  ⟨0xF0008, 0, 1, [(0, [⟨0, 3, .ro, (some 0), (some 0), false⟩, ⟨8, 4, .ro, (some 0), (some 0), false⟩, ⟨12, 1, .ro, (some 0), (some 0), false⟩, ⟨13, 1, .ro, (some 0), (some 0), false⟩])]⟩,
  -- SUP.CAUSE
  ⟨0xF000C, 0, 1, [(0, [⟨0, 8, .ro, none, none, false⟩, ⟨8, 8, .ro, none, none, false⟩])]⟩,
  -- SUP.FLAG
  ⟨0xF0010, 0, 1, [(0, [⟨0, 1, .w1c, (some 0), (some 0), false⟩, ⟨1, 1, .w1c, (some 0), (some 0), false⟩, ⟨2, 1, .w1c, (some 0), (some 0), false⟩, ⟨3, 1, .w1c, (some 0), (some 0), false⟩, ⟨4, 1, .w1c, (some 0), none, false⟩, ⟨5, 1, .w1c, (some 0), (some 0), false⟩, ⟨6, 1, .w1c, (some 0), (some 0), false⟩, ⟨7, 1, .w1c, (some 0), none, false⟩])]⟩,
  -- SUP.SUPPLY
  ⟨0xF0014, 0, 1, [(0, [⟨0, 16, .ro, (some 0), (some 0), false⟩, ⟨16, 16, .ro, (some 0), (some 0), false⟩])]⟩,
  -- SUP.TEMP
  ⟨0xF0018, 0, 1, [(0, [⟨0, 16, .ro, (some 0), (some 0), false⟩, ⟨16, 16, .ro, (some 0), (some 0), false⟩])]⟩,
  -- SUP.CLKDEV
  ⟨0xF001C, 0, 1, [(0, [⟨0, 10, .ro, (some 0), (some 0), false⟩, ⟨10, 10, .ro, (some 0), (some 0), false⟩, ⟨20, 10, .ro, (some 0), (some 0), false⟩])]⟩,
  -- SUP.WDOG
  ⟨0xF0020, 0, 1, [(0, [⟨0, 16, .ro, (some 0), (some 0), false⟩, ⟨16, 3, .ro, (some 0), (some 0), false⟩])]⟩,
  -- SUP.PFCNT
  ⟨0xF0024, 0, 1, [(0, [⟨0, 32, .ro, none, none, false⟩])]⟩,
  -- SUP.SAFECNT
  ⟨0xF0028, 0, 1, [(0, [⟨0, 32, .ro, none, none, false⟩])]⟩,
  -- SUP.FUMSEQ
  ⟨0xF002C, 0, 1, [(0, [⟨0, 32, .ro, none, none, false⟩])]⟩]

/-- The BIST block. -/
def regsBIST : List RegGrp := [
  -- BIST.BASIC
  ⟨0x100000, 0, 1, [(0, [⟨0, 4, .rw, (some 1), none, true⟩])]⟩,
  -- BIST.AUTO
  ⟨0x100004, 0, 1, [(0, [⟨0, 3, .rw, (some 7), none, true⟩])]⟩,
  -- BIST.LCS
  ⟨0x100008, 0, 1, [(0, [⟨0, 3, .ro, none, none, false⟩])]⟩,
  -- BIST.LCCMD
  ⟨0x10000C, 0, 1, [(0, [⟨0, 4, .rw, (some 0), (some 0), false⟩, ⟨16, 16, .rw, (some 0), (some 0), false⟩])]⟩,
  -- BIST.LCCNT
  ⟨0x100010, 0, 1, [(0, [⟨0, 32, .ro, none, none, false⟩])]⟩,
  -- BIST.LCREASON
  ⟨0x100014, 0, 1, [(0, [⟨0, 4, .ro, (some 0), (some 0), false⟩])]⟩,
  -- BIST.CMD
  ⟨0x100018, 0, 1, [(0, [⟨0, 4, .rw, (some 0), (some 0), false⟩, ⟨8, 3, .rw, (some 0), (some 0), false⟩])]⟩,
  -- BIST.CMDCNT
  ⟨0x10001C, 0, 1, [(0, [⟨0, 32, .ro, (some 0), (some 0), false⟩])]⟩,
  -- BIST.REASON
  ⟨0x100020, 0, 1, [(0, [⟨0, 3, .ro, (some 0), (some 0), false⟩])]⟩,
  -- BIST.STATUS
  ⟨0x100024, 0, 1, [(0, [⟨24, 3, .ro, (some 0), (some 0), false⟩, ⟨30, 1, .ro, (some 0), (some 0), false⟩, ⟨31, 1, .ro, (some 0), (some 0), false⟩])]⟩,
  -- BIST.PROG
  ⟨0x100028, 0, 1, [(0, [⟨0, 14, .ro, (some 0), (some 0), false⟩, ⟨16, 14, .ro, (some 0), (some 0), false⟩])]⟩,
  -- BIST.FLAG
  ⟨0x10002C, 0, 1, [(0, [⟨0, 1, .w1c, (some 0), (some 0), false⟩, ⟨1, 1, .w1c, (some 0), (some 0), false⟩, ⟨2, 1, .w1c, (some 0), (some 0), false⟩, ⟨3, 1, .w1c, (some 0), (some 0), false⟩])]⟩,
  -- BIST.RES
  ⟨0x100040, 4, 8, [(0, [⟨0, 14, .ro, none, none, false⟩, ⟨24, 3, .ro, none, none, false⟩, ⟨27, 1, .ro, none, none, false⟩, ⟨28, 4, .ro, none, none, false⟩])]⟩,
  -- BIST.DET
  ⟨0x100060, 4, 8, [(0, [⟨0, 16, .ro, none, none, false⟩, ⟨16, 16, .ro, none, none, false⟩])]⟩]

/-- Every group of registers, by rising offset. -/
def regGroups : List RegGrp :=
  regsID ++ regsGONG ++ regsTASK ++ regsSIG ++ regsVOTE ++ regsEVC ++ regsNET ++ regsTIME ++ regsSIO ++ regsSPD ++ regsBRG ++ regsPAIR ++ regsSTW ++ regsCFG ++ regsUPD ++ regsSUP ++ regsBIST

/-- The value of a field after a start: its Cold or Warm value, or what it held (R8). -/
def RegFld.start (f : RegFld) (warm : Bool) (old : W32) : Nat :=
  match (if warm then f.warm else f.cold) with
  | some v => v % 2 ^ f.w
  | none => old.toNat / 2 ^ f.lo % 2 ^ f.w

/-- The word of a register after a start; bits that no field names are reserved and read 0 (R2). -/
def startWord (warm : Bool) (old : W32) (fs : List RegFld) : W32 :=
  BitVec.ofNat 32 (fs.foldl (fun n f => n + f.start warm old * 2 ^ f.lo) 0)

/-- The register file after a start (R8): `old` gives what each register held. -/
def startRegs (warm : Bool) (old : Nat → W32) : Tbl W32 :=
  regGroups.flatMap fun g => (List.range g.cnt).flatMap fun i => g.rows.filterMap fun r =>
    let off := g.base + g.stride * i + r.1
    let v := startWord warm (old off) r.2
    if v = 0 then none else some (off, v)

/-- The fields of the register at `off`. -/
def regFields (off : Nat) : Option (List RegFld) :=
  regGroups.findSome? fun g =>
    if off < g.base then none
    else if g.stride = 0 then (if off = g.base then g.rows.head?.map (·.2) else none)
    else if (off - g.base) / g.stride < g.cnt then
      (g.rows.find? fun r => r.1 = (off - g.base) % g.stride).map (·.2)
    else none

end Sys2Proof.Machine

namespace Sys2Proof.Machine.R

def GONG.CTRL.PERIOD : Fld := ⟨0x10000, 0, 2⟩
def GONG.CTRL.all : Fld := ⟨0x10000, 0, 32⟩
def GONG.STATUS.PHASE : Fld := ⟨0x10004, 8, 3⟩
def GONG.STATUS.ALIGNED : Fld := ⟨0x10004, 4, 1⟩
def GONG.STATUS.FREERUN : Fld := ⟨0x10004, 3, 1⟩
def GONG.STATUS.SLEW : Fld := ⟨0x10004, 2, 1⟩
def GONG.STATUS.APERIOD : Fld := ⟨0x10004, 0, 2⟩
def GONG.STATUS.all : Fld := ⟨0x10004, 0, 32⟩
def GONG.FRAME_LO.FRAME : Fld := ⟨0x10008, 0, 32⟩
def GONG.FRAME_LO.all : Fld := ⟨0x10008, 0, 32⟩
def GONG.FRAME_HI.FRAME : Fld := ⟨0x1000C, 0, 32⟩
def GONG.FRAME_HI.all : Fld := ⟨0x1000C, 0, 32⟩
def GONG.TICKS_LO.SEC : Fld := ⟨0x10010, 0, 32⟩
def GONG.TICKS_LO.all : Fld := ⟨0x10010, 0, 32⟩
def GONG.TICKS_HI.SEC : Fld := ⟨0x10014, 0, 32⟩
def GONG.TICKS_HI.all : Fld := ⟨0x10014, 0, 32⟩
def GONG.TICKNS.NSEC : Fld := ⟨0x10018, 0, 30⟩
def GONG.TICKNS.all : Fld := ⟨0x10018, 0, 32⟩
def GONG.CUTOFS.NS : Fld := ⟨0x1001C, 0, 32⟩
def GONG.CUTOFS.all : Fld := ⟨0x1001C, 0, 32⟩
def GONG.ADJ.OFFS : Fld := ⟨0x10020, 0, 32⟩
def GONG.ADJ.all : Fld := ⟨0x10020, 0, 32⟩
def GONG.FLAG.REPHASE : Fld := ⟨0x10024, 1, 1⟩
def GONG.FLAG.LATE : Fld := ⟨0x10024, 0, 1⟩
def GONG.FLAG.all : Fld := ⟨0x10024, 0, 32⟩
def GONG.RPCNT.COUNT : Fld := ⟨0x10028, 0, 32⟩
def GONG.RPCNT.all : Fld := ⟨0x10028, 0, 32⟩
def TASK.PER.SKIPLIM (i : Nat) : Fld := ⟨0x20000 + 4 * i, 20, 4⟩
def TASK.PER.SAFE (i : Nat) : Fld := ⟨0x20000 + 4 * i, 17, 1⟩
def TASK.PER.EN (i : Nat) : Fld := ⟨0x20000 + 4 * i, 16, 1⟩
def TASK.PER.PHASE (i : Nat) : Fld := ⟨0x20000 + 4 * i, 4, 10⟩
def TASK.PER.EXP (i : Nat) : Fld := ⟨0x20000 + 4 * i, 0, 4⟩
def TASK.PER.all (i : Nat) : Fld := ⟨0x20000 + 4 * i, 0, 32⟩
def TASK.SKIPRUN.RUN (i : Nat) : Fld := ⟨0x20020 + 4 * i, 0, 4⟩
def TASK.SKIPRUN.all (i : Nat) : Fld := ⟨0x20020 + 4 * i, 0, 32⟩
def TASK.SKIPTOT.COUNT (i : Nat) : Fld := ⟨0x20040 + 4 * i, 0, 32⟩
def TASK.SKIPTOT.all (i : Nat) : Fld := ⟨0x20040 + 4 * i, 0, 32⟩
def TASK.CYC.COUNT (i : Nat) : Fld := ⟨0x20060 + 4 * i, 0, 32⟩
def TASK.CYC.all (i : Nat) : Fld := ⟨0x20060 + 4 * i, 0, 32⟩
def TASK.SKIPFLG.CLASS : Fld := ⟨0x20080, 0, 8⟩
def TASK.SKIPFLG.all : Fld := ⟨0x20080, 0, 32⟩
def TASK.LIMHIT.CLASS : Fld := ⟨0x20084, 0, 8⟩
def TASK.LIMHIT.all : Fld := ⟨0x20084, 0, 32⟩
def TASK.LASTSKIP.CAUSE : Fld := ⟨0x20088, 8, 2⟩
def TASK.LASTSKIP.ENGINE : Fld := ⟨0x20088, 4, 3⟩
def TASK.LASTSKIP.CLASS : Fld := ⟨0x20088, 0, 3⟩
def TASK.LASTSKIP.all : Fld := ⟨0x20088, 0, 32⟩
def TASK.LASTSKIPF_LO.FRAME : Fld := ⟨0x20090, 0, 32⟩
def TASK.LASTSKIPF_LO.all : Fld := ⟨0x20090, 0, 32⟩
def TASK.LASTSKIPF_HI.FRAME : Fld := ⟨0x20094, 0, 32⟩
def TASK.LASTSKIPF_HI.all : Fld := ⟨0x20094, 0, 32⟩
def TASK.SCHEDID.ID : Fld := ⟨0x20098, 0, 32⟩
def TASK.SCHEDID.all : Fld := ⟨0x20098, 0, 32⟩
def TASK.SCHEDINF.MAXSEG : Fld := ⟨0x2009C, 16, 9⟩
def TASK.SCHEDINF.HYPER : Fld := ⟨0x2009C, 0, 11⟩
def TASK.SCHEDINF.all : Fld := ⟨0x2009C, 0, 32⟩
def TASK.ENGPEAK.NS (i : Nat) : Fld := ⟨0x200A0 + 4 * i, 0, 32⟩
def TASK.ENGPEAK.all (i : Nat) : Fld := ⟨0x200A0 + 4 * i, 0, 32⟩
def TASK.HELD.CLASS : Fld := ⟨0x200C0, 0, 8⟩
def TASK.HELD.all : Fld := ⟨0x200C0, 0, 32⟩
def SIG.NSIG.COUNT : Fld := ⟨0x30000, 0, 25⟩
def SIG.NSIG.all : Fld := ⟨0x30000, 0, 32⟩
def SIG.HOTUSE.KIB : Fld := ⟨0x30004, 0, 16⟩
def SIG.HOTUSE.all : Fld := ⟨0x30004, 0, 32⟩
def SIG.COLDUSE.KIB : Fld := ⟨0x30008, 0, 21⟩
def SIG.COLDUSE.all : Fld := ⟨0x30008, 0, 32⟩
def SIG.STALECNT.COUNT : Fld := ⟨0x3000C, 0, 32⟩
def SIG.STALECNT.all : Fld := ⟨0x3000C, 0, 32⟩
def SIG.QID.SIGID : Fld := ⟨0x30010, 0, 25⟩
def SIG.QID.all : Fld := ⟨0x30010, 0, 32⟩
def SIG.QENT.WORD (i : Nat) : Fld := ⟨0x30014 + 4 * i, 0, 32⟩
def SIG.QENT.all (i : Nat) : Fld := ⟨0x30014 + 4 * i, 0, 32⟩
def SIG.FLAG.FDROP : Fld := ⟨0x30024, 1, 1⟩
def SIG.FLAG.STALE : Fld := ⟨0x30024, 0, 1⟩
def SIG.FLAG.all : Fld := ⟨0x30024, 0, 32⟩
def SIG.FSIG.SIGID : Fld := ⟨0x30040, 0, 25⟩
def SIG.FSIG.all : Fld := ⟨0x30040, 0, 32⟩
def SIG.FVAL_LO.VAL : Fld := ⟨0x30044, 0, 32⟩
def SIG.FVAL_LO.all : Fld := ⟨0x30044, 0, 32⟩
def SIG.FVAL_HI.VAL : Fld := ⟨0x30048, 0, 32⟩
def SIG.FVAL_HI.all : Fld := ⟨0x30048, 0, 32⟩
def SIG.FCMD.CODE : Fld := ⟨0x3004C, 0, 4⟩
def SIG.FCMD.all : Fld := ⟨0x3004C, 0, 32⟩
def SIG.FCMDCNT.COUNT : Fld := ⟨0x30050, 0, 32⟩
def SIG.FCMDCNT.all : Fld := ⟨0x30050, 0, 32⟩
def SIG.FREASON.CODE : Fld := ⟨0x30054, 0, 3⟩
def SIG.FREASON.all : Fld := ⟨0x30054, 0, 32⟩
def SIG.FCOUNT.COUNT : Fld := ⟨0x30058, 0, 11⟩
def SIG.FCOUNT.all : Fld := ⟨0x30058, 0, 32⟩
def VOTE.MODE.PROBCH : Fld := ⟨0x40000, 12, 2⟩
def VOTE.MODE.LEAD : Fld := ⟨0x40000, 8, 2⟩
def VOTE.MODE.VMODE : Fld := ⟨0x40000, 4, 2⟩
def VOTE.MODE.INCL : Fld := ⟨0x40000, 0, 3⟩
def VOTE.MODE.all : Fld := ⟨0x40000, 0, 32⟩
def VOTE.CHST.CH (ch : Nat) : Fld := ⟨0x40004, 4 * ch, 4⟩
def VOTE.CHST.all : Fld := ⟨0x40004, 0, 32⟩
def VOTE.CAUSE.PERM (i : Nat) : Fld := ⟨0x40008 + 4 * i, 12, 2⟩
def VOTE.CAUSE.ENGINE (i : Nat) : Fld := ⟨0x40008 + 4 * i, 8, 3⟩
def VOTE.CAUSE.DREG (i : Nat) : Fld := ⟨0x40008 + 4 * i, 4, 4⟩
def VOTE.CAUSE.fld (i : Nat) : Fld := ⟨0x40008 + 4 * i, 0, 4⟩
def VOTE.CAUSE.all (i : Nat) : Fld := ⟨0x40008 + 4 * i, 0, 32⟩
def VOTE.ATTEMPT.CH (ch : Nat) : Fld := ⟨0x40014, 4 * ch, 4⟩
def VOTE.ATTEMPT.all : Fld := ⟨0x40014, 0, 32⟩
def VOTE.DEGCFG.LIMH : Fld := ⟨0x40018, 0, 10⟩
def VOTE.DEGCFG.all : Fld := ⟨0x40018, 0, 32⟩
def VOTE.DEGTIME.SEC : Fld := ⟨0x4001C, 0, 32⟩
def VOTE.DEGTIME.all : Fld := ⟨0x4001C, 0, 32⟩
def VOTE.FLAG.XCHK : Fld := ⟨0x40020, 7, 1⟩
def VOTE.FLAG.REFLOSS : Fld := ⟨0x40020, 6, 1⟩
def VOTE.FLAG.DEGWARN : Fld := ⟨0x40020, 5, 1⟩
def VOTE.FLAG.PROBFAIL : Fld := ⟨0x40020, 4, 1⟩
def VOTE.FLAG.DELAYPAR : Fld := ⟨0x40020, 3, 1⟩
def VOTE.FLAG.PERM : Fld := ⟨0x40020, 2, 1⟩
def VOTE.FLAG.READMIT : Fld := ⟨0x40020, 1, 1⟩
def VOTE.FLAG.EXCL : Fld := ⟨0x40020, 0, 1⟩
def VOTE.FLAG.all : Fld := ⟨0x40020, 0, 32⟩
def VOTE.STTEST.PASS : Fld := ⟨0x40024, 31, 1⟩
def VOTE.STTEST.DONE : Fld := ⟨0x40024, 30, 1⟩
def VOTE.STTEST.PAT : Fld := ⟨0x40024, 0, 11⟩
def VOTE.STTEST.all : Fld := ⟨0x40024, 0, 32⟩
def VOTE.DELAY.DC : Fld := ⟨0x40028, 4, 4⟩
def VOTE.DELAY.DB : Fld := ⟨0x40028, 0, 4⟩
def VOTE.DELAY.all : Fld := ⟨0x40028, 0, 32⟩
def VOTE.RSVOL.MIB : Fld := ⟨0x4002C, 0, 32⟩
def VOTE.RSVOL.all : Fld := ⟨0x4002C, 0, 32⟩
def VOTE.RSPROG.MIB : Fld := ⟨0x40030, 0, 32⟩
def VOTE.RSPROG.all : Fld := ⟨0x40030, 0, 32⟩
def VOTE.SCRUB.FRAMES : Fld := ⟨0x40034, 0, 32⟩
def VOTE.SCRUB.all : Fld := ⟨0x40034, 0, 32⟩
def VOTE.CMD.CODE : Fld := ⟨0x40038, 0, 4⟩
def VOTE.CMD.all : Fld := ⟨0x40038, 0, 32⟩
def VOTE.CMDCNT.COUNT : Fld := ⟨0x4003C, 0, 32⟩
def VOTE.CMDCNT.all : Fld := ⟨0x4003C, 0, 32⟩
def VOTE.EXCLCNT.COUNT (i : Nat) : Fld := ⟨0x40040 + 4 * i, 0, 32⟩
def VOTE.EXCLCNT.all (i : Nat) : Fld := ⟨0x40040 + 4 * i, 0, 32⟩
def VOTE.WINCNT_LO.COUNT : Fld := ⟨0x40050, 0, 32⟩
def VOTE.WINCNT_LO.all : Fld := ⟨0x40050, 0, 32⟩
def VOTE.WINCNT_HI.COUNT : Fld := ⟨0x40054, 0, 32⟩
def VOTE.WINCNT_HI.all : Fld := ⟨0x40054, 0, 32⟩
def VOTE.CBPEAK.ENTRIES (i : Nat) : Fld := ⟨0x40060 + 4 * i, 0, 13⟩
def VOTE.CBPEAK.all (i : Nat) : Fld := ⟨0x40060 + 4 * i, 0, 32⟩
def VOTE.DIGEST.WORD (i : Nat) : Fld := ⟨0x40080 + 4 * i, 0, 32⟩
def VOTE.DIGEST.all (i : Nat) : Fld := ⟨0x40080 + 4 * i, 0, 32⟩
def TASK.EXCH.FORCEOK : Fld := ⟨0x20100, 0, 1⟩
def TASK.EXCH.all : Fld := ⟨0x20100, 0, 32⟩
def TASK.XCMD.CODE : Fld := ⟨0x20104, 0, 4⟩
def TASK.XCMD.all : Fld := ⟨0x20104, 0, 32⟩
def TASK.XCMDCNT.COUNT : Fld := ⟨0x20108, 0, 32⟩
def TASK.XCMDCNT.all : Fld := ⟨0x20108, 0, 32⟩
def TASK.XREASON.CODE : Fld := ⟨0x2010C, 0, 4⟩
def TASK.XREASON.all : Fld := ⟨0x2010C, 0, 32⟩
def TASK.XSTAT.XMASK : Fld := ⟨0x20110, 24, 8⟩
def TASK.XSTAT.SWMASK : Fld := ⟨0x20110, 16, 8⟩
def TASK.XSTAT.FCODE : Fld := ⟨0x20110, 8, 4⟩
def TASK.XSTAT.STATE : Fld := ⟨0x20110, 0, 3⟩
def TASK.XSTAT.all : Fld := ⟨0x20110, 0, 32⟩
def TASK.PVER.fld : Fld := ⟨0x20114, 0, 32⟩
def TASK.PVER.all : Fld := ⟨0x20114, 0, 32⟩
def TASK.XPVER.PVER : Fld := ⟨0x20118, 0, 32⟩
def TASK.XPVER.all : Fld := ⟨0x20118, 0, 32⟩
def TASK.XARMF_LO.FRAME : Fld := ⟨0x2011C, 0, 32⟩
def TASK.XARMF_LO.all : Fld := ⟨0x2011C, 0, 32⟩
def TASK.XARMF_HI.FRAME : Fld := ⟨0x20120, 0, 32⟩
def TASK.XARMF_HI.all : Fld := ⟨0x20120, 0, 32⟩
def TASK.XFILL.TOTAL : Fld := ⟨0x20124, 16, 16⟩
def TASK.XFILL.DONE : Fld := ⟨0x20124, 0, 16⟩
def TASK.XFILL.all : Fld := ⟨0x20124, 0, 32⟩
def TASK.XSEQ.SEQ : Fld := ⟨0x20128, 0, 32⟩
def TASK.XSEQ.all : Fld := ⟨0x20128, 0, 32⟩
def TASK.RETSTAT.SKIPPED : Fld := ⟨0x20140, 16, 16⟩
def TASK.RETSTAT.LAG : Fld := ⟨0x20140, 8, 8⟩
def TASK.RETSTAT.XCH : Fld := ⟨0x20140, 1, 1⟩
def TASK.RETSTAT.VALID : Fld := ⟨0x20140, 0, 1⟩
def TASK.RETSTAT.all : Fld := ⟨0x20140, 0, 32⟩
def TASK.RETF_LO.FRAME : Fld := ⟨0x20144, 0, 32⟩
def TASK.RETF_LO.all : Fld := ⟨0x20144, 0, 32⟩
def TASK.RETF_HI.FRAME : Fld := ⟨0x20148, 0, 32⟩
def TASK.RETF_HI.all : Fld := ⟨0x20148, 0, 32⟩
def TASK.RETPEAK.BYTES : Fld := ⟨0x2014C, 0, 32⟩
def TASK.RETPEAK.all : Fld := ⟨0x2014C, 0, 32⟩
def PAIR.CFG.COLDTAKE : Fld := ⟨0xB0000, 0, 1⟩
def PAIR.CFG.all : Fld := ⟨0xB0000, 0, 32⟩
def PAIR.ROLE.LANES : Fld := ⟨0xB0004, 20, 2⟩
def PAIR.ROLE.PACTIN : Fld := ⟨0xB0004, 17, 1⟩
def PAIR.ROLE.PACT : Fld := ⟨0xB0004, 16, 1⟩
def PAIR.ROLE.FCAUSE : Fld := ⟨0xB0004, 12, 3⟩
def PAIR.ROLE.CUR : Fld := ⟨0xB0004, 8, 1⟩
def PAIR.ROLE.PROLE : Fld := ⟨0xB0004, 4, 3⟩
def PAIR.ROLE.fld : Fld := ⟨0xB0004, 0, 3⟩
def PAIR.ROLE.all : Fld := ⟨0xB0004, 0, 32⟩
def PAIR.EPOCH.fld : Fld := ⟨0xB0008, 0, 32⟩
def PAIR.EPOCH.all : Fld := ⟨0xB0008, 0, 32⟩
def PAIR.ACKF_LO.FRAME : Fld := ⟨0xB000C, 0, 32⟩
def PAIR.ACKF_LO.all : Fld := ⟨0xB000C, 0, 32⟩
def PAIR.ACKF_HI.FRAME : Fld := ⟨0xB0010, 0, 32⟩
def PAIR.ACKF_HI.all : Fld := ⟨0xB0010, 0, 32⟩
def PAIR.RESF_LO.FRAME : Fld := ⟨0xB0014, 0, 32⟩
def PAIR.RESF_LO.all : Fld := ⟨0xB0014, 0, 32⟩
def PAIR.RESF_HI.FRAME : Fld := ⟨0xB0018, 0, 32⟩
def PAIR.RESF_HI.all : Fld := ⟨0xB0018, 0, 32⟩
def PAIR.SKIPF.FRAMES : Fld := ⟨0xB001C, 0, 8⟩
def PAIR.SKIPF.all : Fld := ⟨0xB001C, 0, 32⟩
def PAIR.FLAG.SLOTDUP : Fld := ⟨0xB0020, 9, 1⟩
def PAIR.FLAG.NOPROMO : Fld := ⟨0xB0020, 8, 1⟩
def PAIR.FLAG.JOINFAIL : Fld := ⟨0xB0020, 7, 1⟩
def PAIR.FLAG.LANE1 : Fld := ⟨0xB0020, 6, 1⟩
def PAIR.FLAG.LANE0 : Fld := ⟨0xB0020, 5, 1⟩
def PAIR.FLAG.DIGMIS : Fld := ⟨0xB0020, 4, 1⟩
def PAIR.FLAG.ACKMISS : Fld := ⟨0xB0020, 3, 1⟩
def PAIR.FLAG.YIELD : Fld := ⟨0xB0020, 2, 1⟩
def PAIR.FLAG.PROMO : Fld := ⟨0xB0020, 1, 1⟩
def PAIR.FLAG.HBLOSS : Fld := ⟨0xB0020, 0, 1⟩
def PAIR.FLAG.all : Fld := ⟨0xB0020, 0, 32⟩
def PAIR.CMD.CODE : Fld := ⟨0xB0024, 0, 4⟩
def PAIR.CMD.all : Fld := ⟨0xB0024, 0, 32⟩
def PAIR.CMDCNT.COUNT : Fld := ⟨0xB0028, 0, 32⟩
def PAIR.CMDCNT.all : Fld := ⟨0xB0028, 0, 32⟩
def PAIR.REASON.CODE : Fld := ⟨0xB002C, 0, 3⟩
def PAIR.REASON.all : Fld := ⟨0xB002C, 0, 32⟩
def PAIR.JOIN.TOTAL : Fld := ⟨0xB0030, 16, 16⟩
def PAIR.JOIN.DONE : Fld := ⟨0xB0030, 0, 16⟩
def PAIR.JOIN.all : Fld := ⟨0xB0030, 0, 32⟩
def PAIR.COPYPEAK.BYTES : Fld := ⟨0xB0034, 0, 32⟩
def PAIR.COPYPEAK.all : Fld := ⟨0xB0034, 0, 32⟩
def PAIR.COUNTS.YIELDS : Fld := ⟨0xB0038, 16, 16⟩
def PAIR.COUNTS.PROMOS : Fld := ⟨0xB0038, 0, 16⟩
def PAIR.COUNTS.all : Fld := ⟨0xB0038, 0, 32⟩
def PAIR.BOTHNS.NS : Fld := ⟨0xB003C, 0, 32⟩
def PAIR.BOTHNS.all : Fld := ⟨0xB003C, 0, 32⟩
def SIO.BASIC.PROFILE : Fld := ⟨0x80000, 0, 4⟩
def SIO.BASIC.all : Fld := ⟨0x80000, 0, 32⟩
def SIO.TPCFG.TPP : Fld := ⟨0x80004, 16, 10⟩
def SIO.TPCFG.TPW : Fld := ⟨0x80004, 0, 10⟩
def SIO.TPCFG.all : Fld := ⟨0x80004, 0, 32⟩
def SIO.OPCFG.OPP : Fld := ⟨0x80008, 16, 9⟩
def SIO.OPCFG.OPW : Fld := ⟨0x80008, 0, 10⟩
def SIO.OPCFG.all : Fld := ⟨0x80008, 0, 32⟩
def SIO.FLAG.PROOFLOSS : Fld := ⟨0x8000C, 5, 1⟩
def SIO.FLAG.CFGERR : Fld := ⟨0x8000C, 4, 1⟩
def SIO.FLAG.PULSEPP : Fld := ⟨0x8000C, 3, 1⟩
def SIO.FLAG.OFLT : Fld := ⟨0x8000C, 2, 1⟩
def SIO.FLAG.PFLT : Fld := ⟨0x8000C, 1, 1⟩
def SIO.FLAG.IFLT : Fld := ⟨0x8000C, 0, 1⟩
def SIO.FLAG.all : Fld := ⟨0x8000C, 0, 32⟩
def SIO.CMD.MASK : Fld := ⟨0x80010, 8, 8⟩
def SIO.CMD.CODE : Fld := ⟨0x80010, 0, 4⟩
def SIO.CMD.all : Fld := ⟨0x80010, 0, 32⟩
def SIO.CMDCNT.COUNT : Fld := ⟨0x80014, 0, 32⟩
def SIO.CMDCNT.all : Fld := ⟨0x80014, 0, 32⟩
def SIO.REASON.CODE : Fld := ⟨0x80018, 0, 3⟩
def SIO.REASON.all : Fld := ⟨0x80018, 0, 32⟩
def SIO.ISTATE.PROVEN : Fld := ⟨0x80020, 16, 16⟩
def SIO.ISTATE.LEVEL : Fld := ⟨0x80020, 0, 16⟩
def SIO.ISTATE.all : Fld := ⟨0x80020, 0, 32⟩
def SIO.IFAULT.PAIR : Fld := ⟨0x80024, 16, 8⟩
def SIO.IFAULT.INPUT : Fld := ⟨0x80024, 0, 16⟩
def SIO.IFAULT.all : Fld := ⟨0x80024, 0, 32⟩
def SIO.OSTATE.PULSE : Fld := ⟨0x80028, 24, 8⟩
def SIO.OSTATE.LATCH : Fld := ⟨0x80028, 16, 8⟩
def SIO.OSTATE.ACT : Fld := ⟨0x80028, 8, 8⟩
def SIO.OSTATE.DEM : Fld := ⟨0x80028, 0, 8⟩
def SIO.OSTATE.all : Fld := ⟨0x80028, 0, 32⟩
def SIO.ICFG.RGUARD (i : Nat) : Fld := ⟨0x80040 + 4 * i, 21, 1⟩
def SIO.ICFG.GUARD (i : Nat) : Fld := ⟨0x80040 + 4 * i, 20, 1⟩
def SIO.ICFG.FILT (i : Nat) : Fld := ⟨0x80040 + 4 * i, 8, 8⟩
def SIO.ICFG.MODE (i : Nat) : Fld := ⟨0x80040 + 4 * i, 4, 2⟩
def SIO.ICFG.VCLASS (i : Nat) : Fld := ⟨0x80040 + 4 * i, 0, 3⟩
def SIO.ICFG.all (i : Nat) : Fld := ⟨0x80040 + 4 * i, 0, 32⟩
def SIO.IDIAG.FCOUNT (i : Nat) : Fld := ⟨0x80080 + 4 * i, 16, 16⟩
def SIO.IDIAG.XTP (i : Nat) : Fld := ⟨0x80080 + 4 * i, 8, 4⟩
def SIO.IDIAG.FAULT (i : Nat) : Fld := ⟨0x80080 + 4 * i, 0, 3⟩
def SIO.IDIAG.all (i : Nat) : Fld := ⟨0x80080 + 4 * i, 0, 32⟩
def SIO.PCFG.DISC (i : Nat) : Fld := ⟨0x800C0 + 4 * i, 16, 16⟩
def SIO.PCFG.MODE (i : Nat) : Fld := ⟨0x800C0 + 4 * i, 0, 2⟩
def SIO.PCFG.all (i : Nat) : Fld := ⟨0x800C0 + 4 * i, 0, 32⟩
def SIO.OCFG.OPENLD (i : Nat) : Fld := ⟨0x800E0 + 4 * i, 1, 1⟩
def SIO.OCFG.PAIRW (i : Nat) : Fld := ⟨0x800E0 + 4 * i, 0, 1⟩
def SIO.OCFG.all (i : Nat) : Fld := ⟨0x800E0 + 4 * i, 0, 32⟩
def SIO.ODIAG.PCNT (i : Nat) : Fld := ⟨0x80100 + 4 * i, 16, 16⟩
def SIO.ODIAG.LATCHED (i : Nat) : Fld := ⟨0x80100 + 4 * i, 13, 1⟩
def SIO.ODIAG.OPEN (i : Nat) : Fld := ⟨0x80100 + 4 * i, 12, 1⟩
def SIO.ODIAG.TRIPS (i : Nat) : Fld := ⟨0x80100 + 4 * i, 8, 4⟩
def SIO.ODIAG.FAULT (i : Nat) : Fld := ⟨0x80100 + 4 * i, 0, 3⟩
def SIO.ODIAG.all (i : Nat) : Fld := ⟨0x80100 + 4 * i, 0, 32⟩
def SIO.OSRC.SIGID (i : Nat) : Fld := ⟨0x80120 + 4 * i, 0, 25⟩
def SIO.OSRC.all (i : Nat) : Fld := ⟨0x80120 + 4 * i, 0, 32⟩
def SPD.BASIC.PROFILE : Fld := ⟨0x90000, 0, 4⟩
def SPD.BASIC.all : Fld := ⟨0x90000, 0, 32⟩
def SPD.SCFG.S1 : Fld := ⟨0x90004, 8, 3⟩
def SPD.SCFG.S0 : Fld := ⟨0x90004, 0, 3⟩
def SPD.SCFG.all : Fld := ⟨0x90004, 0, 32⟩
def SPD.WHEEL.DMAX (i : Nat) : Fld := ⟨0x90008 + 4 * i, 16, 16⟩
def SPD.WHEEL.DMIN (i : Nat) : Fld := ⟨0x90008 + 4 * i, 0, 16⟩
def SPD.WHEEL.all (i : Nat) : Fld := ⟨0x90008 + 4 * i, 0, 32⟩
def SPD.TEETH.N1 : Fld := ⟨0x90010, 16, 10⟩
def SPD.TEETH.N0 : Fld := ⟨0x90010, 0, 10⟩
def SPD.TEETH.all : Fld := ⟨0x90010, 0, 32⟩
def SPD.AMAX.A : Fld := ⟨0x90014, 0, 16⟩
def SPD.AMAX.all : Fld := ⟨0x90014, 0, 32⟩
def SPD.STILLT.MS : Fld := ⟨0x90018, 0, 16⟩
def SPD.STILLT.all : Fld := ⟨0x90018, 0, 32⟩
def SPD.PLAUS.PLTIME : Fld := ⟨0x9001C, 24, 8⟩
def SPD.PLAUS.PLABS : Fld := ⟨0x9001C, 8, 16⟩
def SPD.PLAUS.PLREL : Fld := ⟨0x9001C, 0, 8⟩
def SPD.PLAUS.all : Fld := ⟨0x9001C, 0, 32⟩
def SPD.SSLIM.MIN : Fld := ⟨0x90020, 0, 8⟩
def SPD.SSLIM.all : Fld := ⟨0x90020, 0, 32⟩
def SPD.THR.LIMIT (i : Nat) : Fld := ⟨0x90040 + 4 * i, 12, 20⟩
def SPD.THR.HYST (i : Nat) : Fld := ⟨0x90040 + 4 * i, 0, 12⟩
def SPD.THR.all (i : Nat) : Fld := ⟨0x90040 + 4 * i, 0, 32⟩
def SPD.STATUS.UCAUSE : Fld := ⟨0x90060, 10, 2⟩
def SPD.STATUS.S1OK : Fld := ⟨0x90060, 9, 1⟩
def SPD.STATUS.S0OK : Fld := ⟨0x90060, 8, 1⟩
def SPD.STATUS.DIR : Fld := ⟨0x90060, 4, 2⟩
def SPD.STATUS.STILL : Fld := ⟨0x90060, 2, 1⟩
def SPD.STATUS.MODE : Fld := ⟨0x90060, 0, 2⟩
def SPD.STATUS.all : Fld := ⟨0x90060, 0, 32⟩
def SPD.VHI.MMS : Fld := ⟨0x90064, 0, 32⟩
def SPD.VHI.all : Fld := ⟨0x90064, 0, 32⟩
def SPD.VLO.MMS : Fld := ⟨0x90068, 0, 32⟩
def SPD.VLO.all : Fld := ⟨0x90068, 0, 32⟩
def SPD.VSS.TC : Fld := ⟨0x9006C, 16, 16⟩
def SPD.VSS.MMS : Fld := ⟨0x9006C, 0, 16⟩
def SPD.VSS.all : Fld := ⟨0x9006C, 0, 32⟩
def SPD.SSUSED.SEC : Fld := ⟨0x90070, 0, 32⟩
def SPD.SSUSED.all : Fld := ⟨0x90070, 0, 32⟩
def SPD.SDIAG.FCOUNT (i : Nat) : Fld := ⟨0x90074 + 4 * i, 16, 16⟩
def SPD.SDIAG.FAULT (i : Nat) : Fld := ⟨0x90074 + 4 * i, 0, 3⟩
def SPD.SDIAG.all (i : Nat) : Fld := ⟨0x90074 + 4 * i, 0, 32⟩
def SPD.FLAG.CFGERR : Fld := ⟨0x9007C, 4, 1⟩
def SPD.FLAG.DISCR : Fld := ⟨0x9007C, 3, 1⟩
def SPD.FLAG.SSWARN : Fld := ⟨0x9007C, 2, 1⟩
def SPD.FLAG.UNKNOWN : Fld := ⟨0x9007C, 1, 1⟩
def SPD.FLAG.SINGLE : Fld := ⟨0x9007C, 0, 1⟩
def SPD.FLAG.all : Fld := ⟨0x9007C, 0, 32⟩
def SPD.EDGES.COUNT (i : Nat) : Fld := ⟨0x90080 + 4 * i, 0, 32⟩
def SPD.EDGES.all (i : Nat) : Fld := ⟨0x90080 + 4 * i, 0, 32⟩
def NET.BASIC.PROFILE : Fld := ⟨0x60000, 0, 4⟩
def NET.BASIC.all : Fld := ⟨0x60000, 0, 32⟩
def NET.CFG.FORGET : Fld := ⟨0x60004, 16, 16⟩
def NET.CFG.TCEN : Fld := ⟨0x60004, 4, 1⟩
def NET.CFG.PMODE : Fld := ⟨0x60004, 0, 2⟩
def NET.CFG.all : Fld := ⟨0x60004, 0, 32⟩
def NET.STATUS.LANB : Fld := ⟨0x60008, 11, 1⟩
def NET.STATUS.LANA : Fld := ⟨0x60008, 10, 1⟩
def NET.STATUS.LINK2 : Fld := ⟨0x60008, 9, 1⟩
def NET.STATUS.LINK1 : Fld := ⟨0x60008, 8, 1⟩
def NET.STATUS.TXEN : Fld := ⟨0x60008, 4, 1⟩
def NET.STATUS.INAUG : Fld := ⟨0x60008, 3, 1⟩
def NET.STATUS.ADDR : Fld := ⟨0x60008, 2, 1⟩
def NET.STATUS.APMODE : Fld := ⟨0x60008, 0, 2⟩
def NET.STATUS.all : Fld := ⟨0x60008, 0, 32⟩
def NET.FLAG.CFGERR : Fld := ⟨0x6000C, 8, 1⟩
def NET.FLAG.LANLOSS : Fld := ⟨0x6000C, 7, 1⟩
def NET.FLAG.NEWINAUG : Fld := ⟨0x6000C, 6, 1⟩
def NET.FLAG.RXFULL : Fld := ⟨0x6000C, 5, 1⟩
def NET.FLAG.TOPODROP : Fld := ⟨0x6000C, 4, 1⟩
def NET.FLAG.EPODROP : Fld := ⟨0x6000C, 3, 1⟩
def NET.FLAG.SDTERR : Fld := ⟨0x6000C, 2, 1⟩
def NET.FLAG.TIMEOUT : Fld := ⟨0x6000C, 1, 1⟩
def NET.FLAG.LINKCHG : Fld := ⟨0x6000C, 0, 1⟩
def NET.FLAG.all : Fld := ⟨0x6000C, 0, 32⟩
def NET.ETBTOPO.CNT : Fld := ⟨0x60010, 0, 32⟩
def NET.ETBTOPO.all : Fld := ⟨0x60010, 0, 32⟩
def NET.OPTOPO.CNT : Fld := ⟨0x60014, 0, 32⟩
def NET.OPTOPO.all : Fld := ⟨0x60014, 0, 32⟩
def NET.INAUGCNT.COUNT : Fld := ⟨0x60018, 0, 32⟩
def NET.INAUGCNT.all : Fld := ⟨0x60018, 0, 32⟩
def NET.TABN.SUBN : Fld := ⟨0x6001C, 16, 16⟩
def NET.TABN.PUBN : Fld := ⟨0x6001C, 0, 16⟩
def NET.TABN.all : Fld := ⟨0x6001C, 0, 32⟩
def NET.TSEL.KIND : Fld := ⟨0x60020, 31, 1⟩
def NET.TSEL.INDEX : Fld := ⟨0x60020, 0, 13⟩
def NET.TSEL.all : Fld := ⟨0x60020, 0, 32⟩
def NET.TENT.WORD (i : Nat) : Fld := ⟨0x60024 + 4 * i, 0, 32⟩
def NET.TENT.STAT (i : Nat) : Fld := ⟨0x60024 + 4 * i, 0, 32⟩
def NET.TENT.VAL (i : Nat) : Fld := ⟨0x60024 + 4 * i, 0, 32⟩
def NET.TENT.all (i : Nat) : Fld := ⟨0x60024 + 4 * i, 0, 32⟩
def NET.RBASE_LO.ADDR (i : Nat) : Fld := ⟨0x60800 + 32 * i, 0, 32⟩
def NET.RBASE_LO.all (i : Nat) : Fld := ⟨0x60800 + 32 * i, 0, 32⟩
def NET.RBASE_HI.ADDR (i : Nat) : Fld := ⟨0x60804 + 32 * i, 0, 32⟩
def NET.RBASE_HI.all (i : Nat) : Fld := ⟨0x60804 + 32 * i, 0, 32⟩
def NET.RCFG.EN (i : Nat) : Fld := ⟨0x60808 + 32 * i, 31, 1⟩
def NET.RCFG.DIR (i : Nat) : Fld := ⟨0x60808 + 32 * i, 30, 1⟩
def NET.RCFG.USER (i : Nat) : Fld := ⟨0x60808 + 32 * i, 24, 3⟩
def NET.RCFG.ESZ (i : Nat) : Fld := ⟨0x60808 + 32 * i, 4, 4⟩
def NET.RCFG.LOG2N (i : Nat) : Fld := ⟨0x60808 + 32 * i, 0, 4⟩
def NET.RCFG.all (i : Nat) : Fld := ⟨0x60808 + 32 * i, 0, 32⟩
def NET.HEAD.INDEX (i : Nat) : Fld := ⟨0x6080C + 32 * i, 0, 16⟩
def NET.HEAD.all (i : Nat) : Fld := ⟨0x6080C + 32 * i, 0, 32⟩
def NET.TAIL.INDEX (i : Nat) : Fld := ⟨0x60810 + 32 * i, 0, 16⟩
def NET.TAIL.all (i : Nat) : Fld := ⟨0x60810 + 32 * i, 0, 32⟩
def NET.TXPD.COUNT : Fld := ⟨0x60060, 0, 32⟩
def NET.TXPD.all : Fld := ⟨0x60060, 0, 32⟩
def NET.RXACC.COUNT : Fld := ⟨0x60064, 0, 32⟩
def NET.RXACC.all : Fld := ⟨0x60064, 0, 32⟩
def NET.DROPSDT.COUNT : Fld := ⟨0x60068, 0, 32⟩
def NET.DROPSDT.all : Fld := ⟨0x60068, 0, 32⟩
def NET.DROPEPO.COUNT : Fld := ⟨0x6006C, 0, 32⟩
def NET.DROPEPO.all : Fld := ⟨0x6006C, 0, 32⟩
def NET.DROPTOPO.COUNT : Fld := ⟨0x60070, 0, 32⟩
def NET.DROPTOPO.all : Fld := ⟨0x60070, 0, 32⟩
def NET.DROPOTHER.COUNT : Fld := ⟨0x60074, 0, 32⟩
def NET.DROPOTHER.all : Fld := ⟨0x60074, 0, 32⟩
def NET.TOCNT.COUNT : Fld := ⟨0x60078, 0, 32⟩
def NET.TOCNT.all : Fld := ⟨0x60078, 0, 32⟩
def NET.RXFULL.COUNT : Fld := ⟨0x6007C, 0, 32⟩
def NET.RXFULL.all : Fld := ⟨0x6007C, 0, 32⟩
def NET.PRPDUP.COUNT : Fld := ⟨0x60080, 0, 32⟩
def NET.PRPDUP.all : Fld := ⟨0x60080, 0, 32⟩
def TIME.BASIC.PROFILE : Fld := ⟨0x70000, 0, 4⟩
def TIME.BASIC.all : Fld := ⟨0x70000, 0, 32⟩
def TIME.CFG.PRIO1 : Fld := ⟨0x70004, 24, 8⟩
def TIME.CFG.DOMAIN : Fld := ⟨0x70004, 16, 8⟩
def TIME.CFG.SYNCI : Fld := ⟨0x70004, 8, 3⟩
def TIME.CFG.MASTEN : Fld := ⟨0x70004, 1, 1⟩
def TIME.CFG.TRANS : Fld := ⟨0x70004, 0, 1⟩
def TIME.CFG.all : Fld := ⟨0x70004, 0, 32⟩
def TIME.STATUS.PENDV : Fld := ⟨0x70008, 8, 1⟩
def TIME.STATUS.MASTER : Fld := ⟨0x70008, 2, 1⟩
def TIME.STATUS.SYNC : Fld := ⟨0x70008, 0, 2⟩
def TIME.STATUS.all : Fld := ⟨0x70008, 0, 32⟩
def TIME.FLAG.CFGERR : Fld := ⟨0x7000C, 5, 1⟩
def TIME.FLAG.GMCHG : Fld := ⟨0x7000C, 4, 1⟩
def TIME.FLAG.FORCED : Fld := ⟨0x7000C, 3, 1⟩
def TIME.FLAG.INCRLIM : Fld := ⟨0x7000C, 2, 1⟩
def TIME.FLAG.LOCKLOSS : Fld := ⟨0x7000C, 1, 1⟩
def TIME.FLAG.JUMPREF : Fld := ⟨0x7000C, 0, 1⟩
def TIME.FLAG.all : Fld := ⟨0x7000C, 0, 32⟩
def TIME.NOWSEC_LO.SEC : Fld := ⟨0x70010, 0, 32⟩
def TIME.NOWSEC_LO.all : Fld := ⟨0x70010, 0, 32⟩
def TIME.NOWSEC_HI.SEC : Fld := ⟨0x70014, 0, 32⟩
def TIME.NOWSEC_HI.all : Fld := ⟨0x70014, 0, 32⟩
def TIME.NOWNS.NSEC : Fld := ⟨0x70018, 0, 30⟩
def TIME.NOWNS.all : Fld := ⟨0x70018, 0, 32⟩
def TIME.NOWFRAC.FRAC : Fld := ⟨0x7001C, 0, 16⟩
def TIME.NOWFRAC.all : Fld := ⟨0x7001C, 0, 32⟩
def TIME.INCR_LO.FRAC : Fld := ⟨0x70020, 0, 32⟩
def TIME.INCR_LO.all : Fld := ⟨0x70020, 0, 32⟩
def TIME.INCR_HI.NS : Fld := ⟨0x70024, 0, 8⟩
def TIME.INCR_HI.all : Fld := ⟨0x70024, 0, 32⟩
def TIME.STEP_LO.OFFS : Fld := ⟨0x70028, 0, 32⟩
def TIME.STEP_LO.all : Fld := ⟨0x70028, 0, 32⟩
def TIME.STEP_HI.OFFS : Fld := ⟨0x7002C, 0, 32⟩
def TIME.STEP_HI.all : Fld := ⟨0x7002C, 0, 32⟩
def TIME.STEPCNT.COUNT : Fld := ⟨0x70030, 0, 32⟩
def TIME.STEPCNT.all : Fld := ⟨0x70030, 0, 32⟩
def TIME.REASON.CODE : Fld := ⟨0x70034, 0, 3⟩
def TIME.REASON.all : Fld := ⟨0x70034, 0, 32⟩
def TIME.PEND_LO.OFFS : Fld := ⟨0x70038, 0, 32⟩
def TIME.PEND_LO.all : Fld := ⟨0x70038, 0, 32⟩
def TIME.PEND_HI.OFFS : Fld := ⟨0x7003C, 0, 32⟩
def TIME.PEND_HI.all : Fld := ⟨0x7003C, 0, 32⟩
def TIME.JUMPLIM.NS : Fld := ⟨0x70040, 0, 32⟩
def TIME.JUMPLIM.all : Fld := ⟨0x70040, 0, 32⟩
def TIME.LOCKCFG.THR : Fld := ⟨0x70044, 0, 16⟩
def TIME.LOCKCFG.all : Fld := ⟨0x70044, 0, 32⟩
def TIME.LATECFG.TOL : Fld := ⟨0x70048, 16, 10⟩
def TIME.LATECFG.POL : Fld := ⟨0x70048, 0, 3⟩
def TIME.LATECFG.all : Fld := ⟨0x70048, 0, 32⟩
def TIME.CMD.CODE : Fld := ⟨0x7004C, 0, 4⟩
def TIME.CMD.all : Fld := ⟨0x7004C, 0, 32⟩
def TIME.CMDCNT.COUNT : Fld := ⟨0x70050, 0, 32⟩
def TIME.CMDCNT.all : Fld := ⟨0x70050, 0, 32⟩
def TIME.OFFS.NS : Fld := ⟨0x70054, 0, 32⟩
def TIME.OFFS.all : Fld := ⟨0x70054, 0, 32⟩
def TIME.GMID_LO.ID : Fld := ⟨0x70058, 0, 32⟩
def TIME.GMID_LO.all : Fld := ⟨0x70058, 0, 32⟩
def TIME.GMID_HI.ID : Fld := ⟨0x7005C, 0, 32⟩
def TIME.GMID_HI.all : Fld := ⟨0x7005C, 0, 32⟩
def TIME.UTCOFS.SEC : Fld := ⟨0x70060, 0, 16⟩
def TIME.UTCOFS.all : Fld := ⟨0x70060, 0, 32⟩
def TIME.LATECNT.COUNT : Fld := ⟨0x70064, 0, 32⟩
def TIME.LATECNT.all : Fld := ⟨0x70064, 0, 32⟩
def TIME.PDLATE.COUNT : Fld := ⟨0x70068, 0, 32⟩
def TIME.PDLATE.all : Fld := ⟨0x70068, 0, 32⟩
def TIME.JREFCNT.COUNT : Fld := ⟨0x7006C, 0, 32⟩
def TIME.JREFCNT.all : Fld := ⟨0x7006C, 0, 32⟩
def EVC.BASIC.PROFILE : Fld := ⟨0x50000, 0, 4⟩
def EVC.BASIC.all : Fld := ⟨0x50000, 0, 32⟩
def EVC.FLAG.CFGERR : Fld := ⟨0x50004, 2, 1⟩
def EVC.FLAG.SPUR : Fld := ⟨0x50004, 1, 1⟩
def EVC.FLAG.RFULL : Fld := ⟨0x50004, 0, 1⟩
def EVC.FLAG.all : Fld := ⟨0x50004, 0, 32⟩
def EVC.HOLD.TGT : Fld := ⟨0x50008, 0, 10⟩
def EVC.HOLD.all : Fld := ⟨0x50008, 0, 32⟩
def EVC.HOLDSET.TGT : Fld := ⟨0x5000C, 0, 10⟩
def EVC.HOLDSET.all : Fld := ⟨0x5000C, 0, 32⟩
def EVC.HOLDCLR.TGT : Fld := ⟨0x50010, 0, 10⟩
def EVC.HOLDCLR.all : Fld := ⟨0x50010, 0, 32⟩
def EVC.RNE.TGT : Fld := ⟨0x50014, 0, 10⟩
def EVC.RNE.all : Fld := ⟨0x50014, 0, 32⟩
def EVC.IEN.ST : Fld := ⟨0x50018, 0, 2⟩
def EVC.IEN.all : Fld := ⟨0x50018, 0, 32⟩
def EVC.SLAT.EXC : Fld := ⟨0x5001C, 0, 1⟩
def EVC.SLAT.all : Fld := ⟨0x5001C, 0, 32⟩
def EVC.DELIVCNT.COUNT : Fld := ⟨0x50020, 0, 32⟩
def EVC.DELIVCNT.all : Fld := ⟨0x50020, 0, 32⟩
def EVC.SPURCNT.COUNT : Fld := ⟨0x50024, 0, 32⟩
def EVC.SPURCNT.all : Fld := ⟨0x50024, 0, 32⟩
def EVC.SQRY.TGT : Fld := ⟨0x50028, 16, 4⟩
def EVC.SQRY.NUM : Fld := ⟨0x50028, 0, 8⟩
def EVC.SQRY.all : Fld := ⟨0x50028, 0, 32⟩
def EVC.SQST.LEVEL : Fld := ⟨0x5002C, 31, 1⟩
def EVC.SQST.EN : Fld := ⟨0x5002C, 30, 1⟩
def EVC.SQST.STATE : Fld := ⟨0x5002C, 28, 2⟩
def EVC.SQST.PRIO : Fld := ⟨0x5002C, 24, 4⟩
def EVC.SQST.TARGET : Fld := ⟨0x5002C, 20, 4⟩
def EVC.SQST.all : Fld := ⟨0x5002C, 0, 32⟩
def EVC.CLAIM.NUM (i : Nat) : Fld := ⟨0x50040 + 4 * i, 0, 10⟩
def EVC.CLAIM.all (i : Nat) : Fld := ⟨0x50040 + 4 * i, 0, 32⟩
def EVC.COMPLETE.NUM (i : Nat) : Fld := ⟨0x50080 + 4 * i, 0, 10⟩
def EVC.COMPLETE.all (i : Nat) : Fld := ⟨0x50080 + 4 * i, 0, 32⟩
def EVC.CLREC.WORD (i : Nat) : Fld := ⟨0x500C0 + 4 * i, 0, 32⟩
def EVC.CLREC.all (i : Nat) : Fld := ⟨0x500C0 + 4 * i, 0, 32⟩
def EVC.PEN.EN (i : Nat) : Fld := ⟨0x50100 + 16 * i, 0, 16⟩
def EVC.PEN.all (i : Nat) : Fld := ⟨0x50100 + 16 * i, 0, 32⟩
def EVC.PPRI0.PRIO (i : Nat) : Fld := ⟨0x50104 + 16 * i, 0, 32⟩
def EVC.PPRI0.all (i : Nat) : Fld := ⟨0x50104 + 16 * i, 0, 32⟩
def EVC.PPRI1.PRIO (i : Nat) : Fld := ⟨0x50108 + 16 * i, 0, 32⟩
def EVC.PPRI1.all (i : Nat) : Fld := ⟨0x50108 + 16 * i, 0, 32⟩
def EVC.PLAT.LAT (i : Nat) : Fld := ⟨0x5010C + 16 * i, 0, 16⟩
def EVC.PLAT.all (i : Nat) : Fld := ⟨0x5010C + 16 * i, 0, 32⟩
def EVC.PSET.DB (i : Nat) : Fld := ⟨0x50200 + 4 * i, 0, 8⟩
def EVC.PSET.all (i : Nat) : Fld := ⟨0x50200 + 4 * i, 0, 32⟩
def EVC.SWLAT.LAT (i : Nat) : Fld := ⟨0x50240 + 4 * i, 0, 32⟩
def EVC.SWLAT.all (i : Nat) : Fld := ⟨0x50240 + 4 * i, 0, 32⟩
def EVC.SWSET.SET (i : Nat) : Fld := ⟨0x50260 + 4 * i, 0, 32⟩
def EVC.SWSET.all (i : Nat) : Fld := ⟨0x50260 + 4 * i, 0, 32⟩
def EVC.PENSET.EN (i : Nat) : Fld := ⟨0x50280 + 4 * i, 0, 16⟩
def EVC.PENSET.all (i : Nat) : Fld := ⟨0x50280 + 4 * i, 0, 32⟩
def EVC.PENCLR.EN (i : Nat) : Fld := ⟨0x502C0 + 4 * i, 0, 16⟩
def EVC.PENCLR.all (i : Nat) : Fld := ⟨0x502C0 + 4 * i, 0, 32⟩
def EVC.SCFG.EN (i : Nat) : Fld := ⟨0x50400 + 4 * i, 31, 1⟩
def EVC.SCFG.PRIO (i : Nat) : Fld := ⟨0x50400 + 4 * i, 8, 4⟩
def EVC.SCFG.TARGET (i : Nat) : Fld := ⟨0x50400 + 4 * i, 0, 4⟩
def EVC.SCFG.all (i : Nat) : Fld := ⟨0x50400 + 4 * i, 0, 32⟩
def BRG.BASIC.PROFILE : Fld := ⟨0xA0000, 0, 4⟩
def BRG.BASIC.all : Fld := ⟨0xA0000, 0, 32⟩
def BRG.CFG.IBASE : Fld := ⟨0xA0004, 26, 6⟩
def BRG.CFG.SLOTEN : Fld := ⟨0xA0004, 16, 7⟩
def BRG.CFG.DISC : Fld := ⟨0xA0004, 1, 1⟩
def BRG.CFG.FREQ : Fld := ⟨0xA0004, 0, 1⟩
def BRG.CFG.all : Fld := ⟨0xA0004, 0, 32⟩
def BRG.STATUS.DRUSE : Fld := ⟨0xA0008, 16, 4⟩
def BRG.STATUS.PWUSE : Fld := ⟨0xA0008, 8, 7⟩
def BRG.STATUS.M66EN : Fld := ⟨0xA0008, 4, 1⟩
def BRG.STATUS.AFREQ : Fld := ⟨0xA0008, 3, 1⟩
def BRG.STATUS.IDLE : Fld := ⟨0xA0008, 2, 1⟩
def BRG.STATUS.CFGD : Fld := ⟨0xA0008, 1, 1⟩
def BRG.STATUS.HOLD : Fld := ⟨0xA0008, 0, 1⟩
def BRG.STATUS.all : Fld := ⟨0xA0008, 0, 32⟩
def BRG.FLAG.CFGERR : Fld := ⟨0xA000C, 7, 1⟩
def BRG.FLAG.CARDMIS : Fld := ⟨0xA000C, 6, 1⟩
def BRG.FLAG.LOCKAB : Fld := ⟨0xA000C, 5, 1⟩
def BRG.FLAG.SERR : Fld := ⟨0xA000C, 4, 1⟩
def BRG.FLAG.IPERR : Fld := ⟨0xA000C, 3, 1⟩
def BRG.FLAG.RDDISC : Fld := ⟨0xA000C, 2, 1⟩
def BRG.FLAG.RDERR : Fld := ⟨0xA000C, 1, 1⟩
def BRG.FLAG.PWLOSS : Fld := ⟨0xA000C, 0, 1⟩
def BRG.FLAG.all : Fld := ⟨0xA000C, 0, 32⟩
def BRG.INTST.INT : Fld := ⟨0xA0010, 0, 4⟩
def BRG.INTST.all : Fld := ⟨0xA0010, 0, 32⟩
def BRG.CFGADR.DEV : Fld := ⟨0xA0014, 11, 5⟩
def BRG.CFGADR.FUNC : Fld := ⟨0xA0014, 8, 3⟩
def BRG.CFGADR.REG : Fld := ⟨0xA0014, 2, 6⟩
def BRG.CFGADR.all : Fld := ⟨0xA0014, 0, 32⟩
def BRG.CFGDATA.DATA : Fld := ⟨0xA0018, 0, 32⟩
def BRG.CFGDATA.all : Fld := ⟨0xA0018, 0, 32⟩
def BRG.PWLOST.COUNT : Fld := ⟨0xA001C, 0, 32⟩
def BRG.PWLOST.all : Fld := ⟨0xA001C, 0, 32⟩
def BRG.DISCCNT.COUNT : Fld := ⟨0xA0020, 0, 32⟩
def BRG.DISCCNT.all : Fld := ⟨0xA0020, 0, 32⟩
def BRG.RDERRCNT.COUNT : Fld := ⟨0xA0024, 0, 32⟩
def BRG.RDERRCNT.all : Fld := ⟨0xA0024, 0, 32⟩
def BRG.IPERRCNT.COUNT : Fld := ⟨0xA0028, 0, 32⟩
def BRG.IPERRCNT.all : Fld := ⟨0xA0028, 0, 32⟩
def ID.REV.FWREL : Fld := ⟨0x0, 8, 16⟩
def ID.REV.HWREV : Fld := ⟨0x0, 0, 8⟩
def ID.REV.all : Fld := ⟨0x0, 0, 32⟩
def ID.PART.NUM : Fld := ⟨0x4, 0, 32⟩
def ID.PART.all : Fld := ⟨0x4, 0, 32⟩
def ID.SERIAL_LO.SN : Fld := ⟨0x8, 0, 32⟩
def ID.SERIAL_LO.all : Fld := ⟨0x8, 0, 32⟩
def ID.SERIAL_HI.SN : Fld := ⟨0xC, 0, 32⟩
def ID.SERIAL_HI.all : Fld := ⟨0xC, 0, 32⟩
def ID.SLOT.VALID : Fld := ⟨0x10, 31, 1⟩
def ID.SLOT.SLOTP : Fld := ⟨0x10, 5, 1⟩
def ID.SLOT.CODE : Fld := ⟨0x10, 0, 5⟩
def ID.SLOT.all : Fld := ⟨0x10, 0, 32⟩
def ID.PLUG.VALID : Fld := ⟨0x14, 31, 1⟩
def ID.PLUG.RACK : Fld := ⟨0x14, 16, 8⟩
def ID.PLUG.VTYPE : Fld := ⟨0x14, 0, 16⟩
def ID.PLUG.all : Fld := ⟨0x14, 0, 32⟩
def ID.VEHID.BYTES (i : Nat) : Fld := ⟨0x18 + 4 * i, 0, 32⟩
def ID.VEHID.all (i : Nat) : Fld := ⟨0x18 + 4 * i, 0, 32⟩
def ID.UNITKEY.KEY : Fld := ⟨0x28, 0, 32⟩
def ID.UNITKEY.all : Fld := ⟨0x28, 0, 32⟩
def ID.HOSTID.ID : Fld := ⟨0x2C, 0, 13⟩
def ID.HOSTID.all : Fld := ⟨0x2C, 0, 32⟩
def ID.IPLOC.ADDR : Fld := ⟨0x30, 0, 32⟩
def ID.IPLOC.all : Fld := ⟨0x30, 0, 32⟩
def ID.IPTRN.ADDR : Fld := ⟨0x34, 0, 32⟩
def ID.IPTRN.all : Fld := ⟨0x34, 0, 32⟩
def ID.ASTAT.UCAUSE : Fld := ⟨0x38, 1, 3⟩
def ID.ASTAT.ADDR : Fld := ⟨0x38, 0, 1⟩
def ID.ASTAT.all : Fld := ⟨0x38, 0, 32⟩
def ID.FLAG.SLOTERR : Fld := ⟨0x3C, 3, 1⟩
def ID.FLAG.PLUGMIS : Fld := ⟨0x3C, 2, 1⟩
def ID.FLAG.IPDUP : Fld := ⟨0x3C, 1, 1⟩
def ID.FLAG.ADDRCHG : Fld := ⟨0x3C, 0, 1⟩
def ID.FLAG.all : Fld := ⟨0x3C, 0, 32⟩
def ID.MACBASE_LO.MAC : Fld := ⟨0x40, 0, 32⟩
def ID.MACBASE_LO.all : Fld := ⟨0x40, 0, 32⟩
def ID.MACBASE_HI.MAC : Fld := ⟨0x44, 0, 32⟩
def ID.MACBASE_HI.all : Fld := ⟨0x44, 0, 32⟩
def CFG.BASIC.PROFILE : Fld := ⟨0xD0000, 0, 4⟩
def CFG.BASIC.all : Fld := ⟨0xD0000, 0, 32⟩
def CFG.STATUS.PEND : Fld := ⟨0xD0004, 6, 2⟩
def CFG.STATUS.FACTONLY : Fld := ⟨0xD0004, 5, 1⟩
def CFG.STATUS.STGV : Fld := ⟨0xD0004, 4, 1⟩
def CFG.STATUS.PREVV : Fld := ⟨0xD0004, 3, 1⟩
def CFG.STATUS.CUR : Fld := ⟨0xD0004, 0, 1⟩
def CFG.STATUS.all : Fld := ⟨0xD0004, 0, 32⟩
def CFG.FLAG.BADIMG : Fld := ⟨0xD0008, 1, 1⟩
def CFG.FLAG.FALLBACK : Fld := ⟨0xD0008, 0, 1⟩
def CFG.FLAG.all : Fld := ⟨0xD0008, 0, 32⟩
def CFG.CURVER.CFGVER : Fld := ⟨0xD000C, 0, 32⟩
def CFG.CURVER.all : Fld := ⟨0xD000C, 0, 32⟩
def CFG.PREVVER.CFGVER : Fld := ⟨0xD0010, 0, 32⟩
def CFG.PREVVER.all : Fld := ⟨0xD0010, 0, 32⟩
def CFG.STGVER.CFGVER : Fld := ⟨0xD0014, 0, 32⟩
def CFG.STGVER.all : Fld := ⟨0xD0014, 0, 32⟩
def CFG.CMD.CODE : Fld := ⟨0xD0018, 0, 4⟩
def CFG.CMD.all : Fld := ⟨0xD0018, 0, 32⟩
def CFG.CMDCNT.COUNT : Fld := ⟨0xD001C, 0, 32⟩
def CFG.CMDCNT.all : Fld := ⟨0xD001C, 0, 32⟩
def CFG.REASON.CODE : Fld := ⟨0xD0020, 0, 4⟩
def CFG.REASON.all : Fld := ⟨0xD0020, 0, 32⟩
def CFG.STGERR.INDEX : Fld := ⟨0xD0024, 0, 32⟩
def CFG.STGERR.all : Fld := ⟨0xD0024, 0, 32⟩
def CFG.EXPERT.UNLK : Fld := ⟨0xD0028, 31, 1⟩
def CFG.EXPERT.TLEFT : Fld := ⟨0xD0028, 0, 16⟩
def CFG.EXPERT.all : Fld := ⟨0xD0028, 0, 32⟩
def CFG.EXPCHAL.CHAL : Fld := ⟨0xD002C, 0, 32⟩
def CFG.EXPCHAL.all : Fld := ⟨0xD002C, 0, 32⟩
def CFG.EXPKEY.KEY : Fld := ⟨0xD0030, 0, 32⟩
def CFG.EXPKEY.all : Fld := ⟨0xD0030, 0, 32⟩
def CFG.EXPCFG.TO : Fld := ⟨0xD0034, 0, 8⟩
def CFG.EXPCFG.all : Fld := ⟨0xD0034, 0, 32⟩
def CFG.ADDRCFG.MODE : Fld := ⟨0xD0038, 31, 1⟩
def CFG.ADDRCFG.FIXCST : Fld := ⟨0xD0038, 24, 6⟩
def CFG.ADDRCFG.FIXVEH : Fld := ⟨0xD0038, 16, 8⟩
def CFG.ADDRCFG.ESUB : Fld := ⟨0xD0038, 0, 6⟩
def CFG.ADDRCFG.all : Fld := ⟨0xD0038, 0, 32⟩
def UPD.BASIC.PROFILE : Fld := ⟨0xE0000, 0, 4⟩
def UPD.BASIC.all : Fld := ⟨0xE0000, 0, 32⟩
def UPD.CFG.TRIALN : Fld := ⟨0xE0004, 28, 4⟩
def UPD.CFG.BATSIG : Fld := ⟨0xE0004, 0, 25⟩
def UPD.CFG.all : Fld := ⟨0xE0004, 0, 32⟩
def UPD.STATE.TRIALS : Fld := ⟨0xE0008, 24, 8⟩
def UPD.STATE.TRIAL : Fld := ⟨0xE0008, 20, 1⟩
def UPD.STATE.ACT : Fld := ⟨0xE0008, 16, 2⟩
def UPD.STATE.KIND : Fld := ⟨0xE0008, 8, 4⟩
def UPD.STATE.fld : Fld := ⟨0xE0008, 0, 3⟩
def UPD.STATE.all : Fld := ⟨0xE0008, 0, 32⟩
def UPD.STATUS.CHECK : Fld := ⟨0xE000C, 8, 8⟩
def UPD.STATUS.REASON : Fld := ⟨0xE000C, 0, 4⟩
def UPD.STATUS.all : Fld := ⟨0xE000C, 0, 32⟩
def UPD.FLAG.SVNUP : Fld := ⟨0xE0010, 5, 1⟩
def UPD.FLAG.ROLLBACK : Fld := ⟨0xE0010, 4, 1⟩
def UPD.FLAG.SLOTFALL : Fld := ⟨0xE0010, 3, 1⟩
def UPD.FLAG.LOADERR : Fld := ⟨0xE0010, 2, 1⟩
def UPD.FLAG.CHKFAIL : Fld := ⟨0xE0010, 1, 1⟩
def UPD.FLAG.READY : Fld := ⟨0xE0010, 0, 1⟩
def UPD.FLAG.all : Fld := ⟨0xE0010, 0, 32⟩
def UPD.CMD.ARG : Fld := ⟨0xE0014, 8, 4⟩
def UPD.CMD.CODE : Fld := ⟨0xE0014, 0, 4⟩
def UPD.CMD.all : Fld := ⟨0xE0014, 0, 32⟩
def UPD.CMDCNT.COUNT : Fld := ⟨0xE0018, 0, 32⟩
def UPD.CMDCNT.all : Fld := ⟨0xE0018, 0, 32⟩
def UPD.PROG.TOTAL : Fld := ⟨0xE001C, 16, 16⟩
def UPD.PROG.DONE : Fld := ⟨0xE001C, 0, 16⟩
def UPD.PROG.all : Fld := ⟨0xE001C, 0, 32⟩
def UPD.MINSVN.SVN : Fld := ⟨0xE0020, 0, 32⟩
def UPD.MINSVN.all : Fld := ⟨0xE0020, 0, 32⟩
def UPD.OWNER.LOCKED : Fld := ⟨0xE0024, 31, 1⟩
def UPD.OWNER.OWNKEY : Fld := ⟨0xE0024, 30, 1⟩
def UPD.OWNER.all : Fld := ⟨0xE0024, 0, 32⟩
def UPD.OCHAL_LO.CHAL : Fld := ⟨0xE0028, 0, 32⟩
def UPD.OCHAL_LO.all : Fld := ⟨0xE0028, 0, 32⟩
def UPD.OCHAL_HI.CHAL : Fld := ⟨0xE002C, 0, 32⟩
def UPD.OCHAL_HI.all : Fld := ⟨0xE002C, 0, 32⟩
def UPD.BOOTCNT.COUNT : Fld := ⟨0xE0030, 0, 32⟩
def UPD.BOOTCNT.all : Fld := ⟨0xE0030, 0, 32⟩
def UPD.ATTCNT.COUNT : Fld := ⟨0xE0034, 0, 32⟩
def UPD.ATTCNT.all : Fld := ⟨0xE0034, 0, 32⟩
def UPD.ACTID.WORD (i : Nat) : Fld := ⟨0xE0040 + 4 * i, 0, 32⟩
def UPD.ACTID.all (i : Nat) : Fld := ⟨0xE0040 + 4 * i, 0, 32⟩
def UPD.STGID.WORD (i : Nat) : Fld := ⟨0xE0060 + 4 * i, 0, 32⟩
def UPD.STGID.all (i : Nat) : Fld := ⟨0xE0060 + 4 * i, 0, 32⟩
def SUP.BASIC.PROFILE : Fld := ⟨0xF0000, 0, 4⟩
def SUP.BASIC.all : Fld := ⟨0xF0000, 0, 32⟩
def SUP.CFG.EXTEN : Fld := ⟨0xF0004, 1, 1⟩
def SUP.CFG.WARMEN : Fld := ⟨0xF0004, 0, 1⟩
def SUP.CFG.all : Fld := ⟨0xF0004, 0, 32⟩
def SUP.STATE.PDOWN : Fld := ⟨0xF0008, 13, 1⟩
def SUP.STATE.STORE : Fld := ⟨0xF0008, 12, 1⟩
def SUP.STATE.STOPC : Fld := ⟨0xF0008, 8, 4⟩
def SUP.STATE.MSTATE : Fld := ⟨0xF0008, 0, 3⟩
def SUP.STATE.all : Fld := ⟨0xF0008, 0, 32⟩
def SUP.CAUSE.DETAIL : Fld := ⟨0xF000C, 8, 8⟩
def SUP.CAUSE.CODE : Fld := ⟨0xF000C, 0, 8⟩
def SUP.CAUSE.all : Fld := ⟨0xF000C, 0, 32⟩
def SUP.FLAG.SAFE : Fld := ⟨0xF0010, 7, 1⟩
def SUP.FLAG.EXTREQ : Fld := ⟨0xF0010, 6, 1⟩
def SUP.FLAG.STORELOW : Fld := ⟨0xF0010, 5, 1⟩
def SUP.FLAG.PFAIL : Fld := ⟨0xF0010, 4, 1⟩
def SUP.FLAG.CLKDEV : Fld := ⟨0xF0010, 3, 1⟩
def SUP.FLAG.TEMPW : Fld := ⟨0xF0010, 2, 1⟩
def SUP.FLAG.RAIL : Fld := ⟨0xF0010, 1, 1⟩
def SUP.FLAG.WDMISS : Fld := ⟨0xF0010, 0, 1⟩
def SUP.FLAG.all : Fld := ⟨0xF0010, 0, 32⟩
def SUP.SUPPLY.STORE : Fld := ⟨0xF0014, 16, 16⟩
def SUP.SUPPLY.INPUT : Fld := ⟨0xF0014, 0, 16⟩
def SUP.SUPPLY.all : Fld := ⟨0xF0014, 0, 32⟩
def SUP.TEMP.BOARD : Fld := ⟨0xF0018, 16, 16⟩
def SUP.TEMP.DIE : Fld := ⟨0xF0018, 0, 16⟩
def SUP.TEMP.all : Fld := ⟨0xF0018, 0, 32⟩
def SUP.CLKDEV.CH (ch : Nat) : Fld := ⟨0xF001C, 10 * ch, 10⟩
def SUP.CLKDEV.all : Fld := ⟨0xF001C, 0, 32⟩
def SUP.WDOG.LAST : Fld := ⟨0xF0020, 16, 3⟩
def SUP.WDOG.MISSES : Fld := ⟨0xF0020, 0, 16⟩
def SUP.WDOG.all : Fld := ⟨0xF0020, 0, 32⟩
def SUP.PFCNT.COUNT : Fld := ⟨0xF0024, 0, 32⟩
def SUP.PFCNT.all : Fld := ⟨0xF0024, 0, 32⟩
def SUP.SAFECNT.COUNT : Fld := ⟨0xF0028, 0, 32⟩
def SUP.SAFECNT.all : Fld := ⟨0xF0028, 0, 32⟩
def SUP.FUMSEQ.SEQ : Fld := ⟨0xF002C, 0, 32⟩
def SUP.FUMSEQ.all : Fld := ⟨0xF002C, 0, 32⟩
def STW.CMD.CODE : Fld := ⟨0xC0000, 0, 4⟩
def STW.CMD.all : Fld := ⟨0xC0000, 0, 32⟩
def STW.CMDCNT.COUNT : Fld := ⟨0xC0004, 0, 32⟩
def STW.CMDCNT.all : Fld := ⟨0xC0004, 0, 32⟩
def STW.REASON.CODE : Fld := ⟨0xC0008, 0, 2⟩
def STW.REASON.all : Fld := ⟨0xC0008, 0, 32⟩
def BIST.BASIC.PROFILE : Fld := ⟨0x100000, 0, 4⟩
def BIST.BASIC.all : Fld := ⟨0x100000, 0, 32⟩
def BIST.AUTO.MASK : Fld := ⟨0x100004, 0, 3⟩
def BIST.AUTO.all : Fld := ⟨0x100004, 0, 32⟩
def BIST.LCS.STATE : Fld := ⟨0x100008, 0, 3⟩
def BIST.LCS.all : Fld := ⟨0x100008, 0, 32⟩
def BIST.LCCMD.CONFIRM : Fld := ⟨0x10000C, 16, 16⟩
def BIST.LCCMD.CODE : Fld := ⟨0x10000C, 0, 4⟩
def BIST.LCCMD.all : Fld := ⟨0x10000C, 0, 32⟩
def BIST.LCCNT.COUNT : Fld := ⟨0x100010, 0, 32⟩
def BIST.LCCNT.all : Fld := ⟨0x100010, 0, 32⟩
def BIST.LCREASON.CODE : Fld := ⟨0x100014, 0, 4⟩
def BIST.LCREASON.all : Fld := ⟨0x100014, 0, 32⟩
def BIST.CMD.TEST : Fld := ⟨0x100018, 8, 3⟩
def BIST.CMD.CODE : Fld := ⟨0x100018, 0, 4⟩
def BIST.CMD.all : Fld := ⟨0x100018, 0, 32⟩
def BIST.CMDCNT.COUNT : Fld := ⟨0x10001C, 0, 32⟩
def BIST.CMDCNT.all : Fld := ⟨0x10001C, 0, 32⟩
def BIST.REASON.CODE : Fld := ⟨0x100020, 0, 3⟩
def BIST.REASON.all : Fld := ⟨0x100020, 0, 32⟩
def BIST.STATUS.RUN : Fld := ⟨0x100024, 31, 1⟩
def BIST.STATUS.MANUAL : Fld := ⟨0x100024, 30, 1⟩
def BIST.STATUS.TEST : Fld := ⟨0x100024, 24, 3⟩
def BIST.STATUS.all : Fld := ⟨0x100024, 0, 32⟩
def BIST.PROG.TOTAL : Fld := ⟨0x100028, 16, 14⟩
def BIST.PROG.DONE : Fld := ⟨0x100028, 0, 14⟩
def BIST.PROG.all : Fld := ⟨0x100028, 0, 32⟩
def BIST.FLAG.LCCHG : Fld := ⟨0x10002C, 3, 1⟩
def BIST.FLAG.INCOMPLETE : Fld := ⟨0x10002C, 2, 1⟩
def BIST.FLAG.FAIL : Fld := ⟨0x10002C, 1, 1⟩
def BIST.FLAG.DONE : Fld := ⟨0x10002C, 0, 1⟩
def BIST.FLAG.all : Fld := ⟨0x10002C, 0, 32⟩
def BIST.RES.RESULT (i : Nat) : Fld := ⟨0x100040 + 4 * i, 28, 4⟩
def BIST.RES.PARTBAD (i : Nat) : Fld := ⟨0x100040 + 4 * i, 27, 1⟩
def BIST.RES.ABCAUSE (i : Nat) : Fld := ⟨0x100040 + 4 * i, 24, 3⟩
def BIST.RES.SLICES (i : Nat) : Fld := ⟨0x100040 + 4 * i, 0, 14⟩
def BIST.RES.all (i : Nat) : Fld := ⟨0x100040 + 4 * i, 0, 32⟩
def BIST.DET.ITEM (i : Nat) : Fld := ⟨0x100060 + 4 * i, 16, 16⟩
def BIST.DET.FAILCNT (i : Nat) : Fld := ⟨0x100060 + 4 * i, 0, 16⟩
def BIST.DET.all (i : Nat) : Fld := ⟨0x100060 + 4 * i, 0, 32⟩

end Sys2Proof.Machine.R
end

