-- ==== Sys2Proof/Machine/State.lean ====
section
/-! DEFINITION. The state of the module: every register, buffer, counter, mode and memory the spec gives it, as plain
data, the queue of waiting commands, and the state right after reset. Sparse data is a list of (key, value) pairs in one
canonical form: keys strictly rising. -/

namespace Sys2Proof.Machine

/-! ## Channels (03, 04, 06) -/

/-- A signal directory entry (Table 3-1) and the signal's value in its value area (R55). -/
structure DirEnt where
  w0 : W32
  w1 : W32
  w2 : W32
  w3 : W32
  val : List Byte
  deriving DecidableEq, Repr

/-- An instance slot (Tables 4-4, 4-5): word 0, INSTID, and the three 64-bit fields of words 2 to 7;
and the mark for adoption (R181). -/
structure Slot where
  w0 : W32
  inst : W32
  p : Word
  e : Word
  l : Word
  adopt : Bool
  deriving DecidableEq, Repr

/-- An entry of the call stack (R95), with the unit it returns to (R96). -/
structure CallFrame where
  pc : W32
  sb : BitVec 25
  ib : BitVec 20
  unit : Nat
  deriving DecidableEq, Repr

/-- The registers a context record holds (R84) and the function unit now running (R96). -/
structure Ctx where
  g : Vector Word 32
  c : Vector Bool 8
  sb : BitVec 25
  ib : BitVec 20
  pc : W32
  st : W32
  stack : List CallFrame
  unit : Nat
  deriving DecidableEq, Repr

/-- A held store in the commit buffer (R150): address, data, byte mask, window with the frame it lies in, instance, whether it is voted, and
the mask of the channels that agreed in that vote (R149, R153). -/
structure CbEntry where
  addr : Nat
  data : Word
  mask : Byte
  win : Nat
  task : Nat
  voted : Bool
  frame : Nat
  agree : Nat
  deriving DecidableEq, Repr

/-- What an exception record holds (R100). -/
structure ExcRec where
  code : Nat
  cls : Nat
  eng : Nat
  seg : Nat
  pc : W32
  frame : Nat
  info : Nat
  deriving DecidableEq, Repr

/-- An open vote window (R145, R146): number in the frame, signature, items of tags 1 to 3, retired instructions. -/
structure Win where
  seq : Nat
  sig : BitVec 128
  n : Nat
  ret : Nat
  deriving DecidableEq, Repr

/-- A closed window as it waits for its vote (R146, R147), with the exception it holds (R101). The digest vote (R155)
closes one with a signature of state digest, copy digest and the trailers' items (R252). -/
structure Close where
  seq : Nat
  sig : BitVec 640
  reason : Nat
  task : Nat
  exc : Option ExcRec
  deriving DecidableEq, Repr

/-- Why an engine copy waits: a delayed read in a slot (R303) into `gd` of `size` bytes, one that waits for a slot, or a full commit buffer (R151). -/
inductive Stall where
  | read (slot : Nat) (gd : GReg) (addr size : Nat) (signed : Bool)
  | noSlot (gd : GReg) (addr size : Nat) (signed : Bool)
  | bufferFull
  deriving DecidableEq, Repr

/-- One engine copy (R79 to R82, R95 to R97, R145, R150). `cyc` counts the fixed cycles of the running segment (R103), `peak` is the highest use of
the commit buffer (R151). -/
structure EngC where
  x : Ctx
  bud : W32
  run : Option Nat
  stall : Option Stall
  win : Option Win
  wseq : Nat
  cbuf : List CbEntry
  cyc : Nat
  peak : Nat
  deriving DecidableEq, Repr

/-- A signal of a snapshot (R62): quality and value as readers see them. -/
structure Snap where
  q : BitVec 6
  val : List Byte
  deriving DecidableEq, Repr

/-- A task instance in one channel (R44, R62, R84, R87, R93): its task descriptor, the bank its version is in, its release
frame, the next segment's number, snapshot, write set, slot changes, saved context, scratch window, whether it ended, and whether its
segment of this frame finished. -/
structure Inst where
  td : TaskDesc
  bank : Bool
  fr : Nat
  seg : Nat
  snap : Tbl Snap
  wset : Tbl (List Byte)
  slots : Tbl Slot
  ctx : Option Ctx
  scratch : Tbl Byte
  ended : Bool
  fin : Bool
  deriving DecidableEq, Repr

/-- One channel: directory and values, instance slots, task instances, engine copies, the open input signature (R144), and the data bits that its loader
received inverted of the version in bank 0 and in bank 1 (R143, R170; none through a sound delay register). -/
structure Chan where
  dir : Tbl DirEnt
  slots : Tbl Slot
  insts : Tbl Inst
  eng : Vector EngC 8
  insig : Option (BitVec 128)
  rx0 : Word
  rx1 : Word
  deriving DecidableEq, Repr

/-! ## Vote unit (06) -/

/-- One vote that waits: the signature path (0 to 7 engines, 8 input, 9 digest) and what each channel delivered. -/
structure VGroup where
  path : Nat
  a : Option Close
  b : Option Close
  c : Option Close
  deriving DecidableEq, Repr

/-- A deviation: cause code, logical engine, delay register stage (R157, R160). -/
structure Devn where
  cause : Nat
  eng : Nat
  dreg : Nat
  deriving DecidableEq, Repr

/-- What the vote unit keeps of one channel: attempt times in ns of network time (R160), the exclusion that started the
attempt, the frame of its last readmission (R160), the frame its bulk copy completed in (R158, R159). -/
structure ChRec where
  attempts : List Nat
  devn : Option Devn
  readm : Option Nat
  bulkK : Option Nat
  deriving DecidableEq, Repr

/-- The exclusion record of the persistent store (R162): channel, reason, the cause as VOTE.CAUSE recorded it. -/
structure ExclRec where
  ch : Ch
  devn : Devn
  reason : Nat
  cause : Nat
  deriving DecidableEq, Repr

/-- A delay register (R143): the value and the parity of its eight bytes in each stage in use, and the data bits that a fault inverts with
correct parity (R165; none set in a sound register). -/
structure Dreg where
  stages : List (Word × Byte)
  wrong : Word
  deriving DecidableEq, Repr

/-- The vote unit's hidden state: the votes that wait, what it keeps of each channel, the exclusion record, an accepted CLEARPERM, the
shared capture stage (R142), the delay registers of B and C (R143), what a voter with a fault reports on every vote (R166), and how long the bulk
copy of a resync will have run at the next tick, in ns (R158). -/
structure VoteSt where
  groups : List VGroup
  a : ChRec
  b : ChRec
  c : ChRec
  excl : Option ExclRec
  clearPerm : Bool
  capture : Word
  dregB : Dreg
  dregC : Dreg
  v1 : Option VoterSays
  v2 : Option VoterSays
  copyNs : Nat
  deriving DecidableEq, Repr

/-! ## Gong and task sequencer (02, 07) -/

/-- The Gong: frame number, instants of the present and the next tick in ns, remaining slew offset, re-phase stage
(0 none, 1 the present frame ends at its own tick, 2 in the long frame, 3 in the long frame with another re-phase to follow it) with the
step that caused it and the one that follows, and whether it ticks (R27 to R31). -/
structure GongSt where
  frame : Nat
  tick : Nat
  next : Nat
  adj : Int
  reph : Nat
  step : BitVec 64
  step2 : BitVec 64
  ticking : Bool
  deriving DecidableEq, Repr

/-- A cycle of a class (R40, R50, R51): its release frame, the tasks still to commit, whether an instance was discarded. -/
structure Cycle where
  fr : Nat
  left : List Nat
  skipped : Bool
  deriving DecidableEq, Repr

/-- A discard of the present frame (R50). -/
structure Discard where
  cls : Nat
  eng : Nat
  cause : Nat
  deriving DecidableEq, Repr

/-- The task sequencer: segments of this frame taken on each engine (R34), cycles by class, discards of
the present frame, tasks that committed since the start or their class's exchange (ST.FIRST, R82), FAULT of a safety class. -/
structure SeqSt where
  taken : Vector Nat 8
  cycles : Tbl Cycle
  discs : List Discard
  done : List Nat
  fault : List Nat
  deriving DecidableEq, Repr

/-! ## Forces (03) -/

/-- A force table entry in use (Table 3-8). -/
structure ForceEnt where
  id : Nat
  frame : W32
  val : Word
  deriving DecidableEq, Repr

/-- An accepted force command not yet in effect (R74). -/
inductive ForceCmd where
  | set (id : Nat) (val : Word)
  | clear (id : Nat)
  | clearAll
  deriving DecidableEq, Repr

/-! ## Event controller (12) -/

/-- Source states other than IDLE (R285). -/
inductive EvPh where
  | pending | delivered | claimed
  deriving DecidableEq, Repr

/-- A source that is not IDLE: its state, instant and frame of entry into PENDING, REDO, the task and the target that claimed it (R289, R290). -/
structure EvSrc where
  ph : EvPh
  ts : BitVec 64
  frame : W32
  redo : Bool
  task : Option Nat
  target : Option Nat
  deriving DecidableEq, Repr

/-! ## Fumarole (16) -/

/-- A Fumarole record (Table 16-5): SEQ and bytes 0x04 to 0x1F. -/
structure FumRec where
  seq : W32
  body : List Byte
  deriving DecidableEq, Repr

/-! ## Exchange and retain (07) -/

/-- An entry of a retain record's body (R193): a signal with its word 3 and value, or a slot. -/
inductive RetEnt where
  | sig (id : Nat) (w3 : W32) (val : List Byte)
  | slot (idx : Nat) (s : Slot)
  deriving DecidableEq, Repr

/-- A sealed retain record (R192, R193): header fields, guard section, body. -/
structure RetBuf where
  seq : W32
  frame : Nat
  pver : W32
  cfgver : W32
  wallNs : Nat
  xch : Bool
  tlock : Bool
  proven : BitVec 16
  guards : BitVec 16
  body : List RetEnt
  deriving DecidableEq, Repr

/-- A retain area: its two buffers (R191). -/
structure RetArea where
  b0 : Option RetBuf
  b1 : Option RetBuf
  deriving DecidableEq, Repr

/-- The proof bits and the RGUARD bits as they stood at the tick of a frame (R222). -/
structure GuardNote where
  frame : Nat
  proven : BitVec 16
  guards : BitVec 16
  deriving DecidableEq, Repr

/-- The retain areas of A, B and C, the last record's number, the record of the latest committed frame that is not yet written, and the guard
bits at the last four ticks, newest first. -/
structure RetSt where
  a : RetArea
  b : RetArea
  c : RetArea
  seq : Nat
  due : Option RetBuf
  notes : List GuardNote
  deriving DecidableEq, Repr

/-- The exchange beside its registers: whether ARM waits for its tick, S_k of each class (0 none), the report under way (Table 7-3), and the last 16
reports, newest first. -/
structure XchSt where
  arm : Bool
  swf : Vector Nat 8
  rep : ExchRep
  reports : List (List Byte)
  deriving DecidableEq, Repr

/-! ## Module pair (08) -/

/-- The END record of a copy (R207): its frame, the items and bytes of the copy, epoch and copy digest. -/
structure CopyEnd where
  n : Nat
  items : Nat
  bytes : Nat
  epoch : W32
  digest : BitVec 256
  deriving DecidableEq, Repr

/-- What the pair function keeps beside the PAIR registers: the partner's last valid heartbeat and whether one was heard in the
last 500 µs; the last epoch heard; the cause of a yield due at the next tick (R203) and of a planned handover (R211); the
instant PAIR_ACT was asserted, and whether a valid heartbeat was heard since then and since the yield (R203); the accepted
instant since which PAIR_ACT_IN is released; whether the both-active time is being measured (R205); UNFENCE; the join: whether
joining, the bulk frame and whether BULKEND came, the bytes of bulk data that an active module has still to send and the frame in which it sent
BULKEND, times of failed joins (R210); copies
not yet acknowledged and the items of the last COMMIT (R207, R208); a_f while the resumption of a promotion is due (R204);
the last frame committed in ALONE or ACTIVE; items that arrived and are not applied, with the END records that came before BULKEND (R208,
R210); the control items and force table last sent (R207); and the bytes of HOME 5 updates since the last tick (R196). -/
structure PairSt where
  hb : Option Heartbeat
  hbLive : Bool
  epochIn : Nat
  yield : Option Nat
  handover : Option Nat
  pactNs : Nat
  hbSincePact : Bool
  hbSinceYield : Bool
  both : Bool
  unfenced : Bool
  joining : Bool
  bulkB : Option Nat
  bulkEnd : Bool
  bulkLeft : Nat
  bulkE : Option Nat
  joinFails : List Nat
  await : List Nat
  copy : List CopyItem
  touched : List Nat
  resume : Option Nat
  lastF : Nat
  held : List (Nat × List CopyItem)
  ended : List CopyEnd
  sent : List CopyItem
  home5 : Nat
  deriving DecidableEq, Repr

/-! ## Safety inputs, outputs and speed (09) -/

/-- A run of samples for which a condition has held, or has not: which, and how many in a row. -/
structure Run where
  on : Bool
  n : Nat
  deriving DecidableEq, Repr

/-- An input SI0 to SI15: accepted level (R218), the codes of the faults present (R217), raw level at the last sample (R214), unmasked samples
at the new level accumulated (R218), raw level at the start of the last pulse of another source, and the pulses of the own source passed in a
row since a fault of code 2 and since a cross indication, and the runs of unmasked samples between the thresholds, above the overvoltage
limit and below it (Table 9-2). -/
structure InSt where
  level : Bool
  faults : List Nat
  raw : Bool
  acc : Nat
  before : Bool
  passed : Nat
  uncrossed : Nat
  band : Run
  high : Run
  low : Run
  deriving DecidableEq, Repr

/-- An output SO0 to SO7: a demand change pending from CUT to the release (R225), the switch a pulse opens (true HS), whether a
de-energise met the pulse (R228), the switch the next pulse opens, the due index of a postponed pulse, the instant of the last
change, instants of overcurrent trips, whether an overcurrent holds the output off (R230), the codes of the faults present, newest first (R229). -/
structure OutSt where
  pend : Option Bool
  pulse : Option Bool
  met : Bool
  nextHs : Bool
  postponed : Option Nat
  changeNs : Nat
  trips : List Nat
  oc : Bool
  faults : List Nat
  deriving DecidableEq, Repr

/-- The safety I/O controller: inputs, outputs, which test-pulse sources are switched off (R216), and the instant until which samples of each
source's inputs are masked after its pulse (R218). -/
structure SioSt where
  ins : Vector InSt 16
  outs : Vector OutSt 8
  tpOff : Vector Bool 8
  maskNs : Vector Nat 8
  deriving DecidableEq, Repr

/-- A phase of a wheel-speed sensor: its level, the instant of its last edge, of its last two counted edges (newest first), the instant since which
it has been where Table 9-7 calls the level a fault, and that since which its counted edges have come faster than 20 kHz (R231, R232). -/
structure PhaseSt where
  level : Bool
  last : Option Nat
  counted : List Nat
  zone : Option Nat
  fast : Option Nat
  deriving DecidableEq, Repr

/-- A wheel-speed sensor: its phases PA and PB, instants of the last two counted edges (newest first), directions of the last 8 (true forward), the
run of counted edges on one phase (on for PB), the codes of the faults present, newest first, and the instant since which there has been none (R231
to R234). -/
structure SenSt where
  pa : PhaseSt
  pb : PhaseSt
  edges : List Nat
  dirs : List Bool
  run : Run
  faults : List Nat
  goodFrom : Nat
  deriving DecidableEq, Repr

/-- A sensor at reset: both phases low, no edge. -/
def SenSt.reset : SenSt :=
  let p : PhaseSt := ⟨false, none, [], none, none⟩
  ⟨p, p, [], [], ⟨false, 0⟩, [], 0⟩

/-- The speed function: sensors, the instant of the first tick of RUN (R234), BELOW items (R237). -/
structure SpdSt where
  s0 : SenSt
  s1 : SenSt
  runNs : Nat
  below : List Nat
  deriving DecidableEq, Repr

/-! ## Train network (10) -/

/-- What the publisher keeps of an entry: the safe sequence counter of the next capture (R252), the TRDP sequence counter, the low
32 bits of the frame of the last launch. -/
structure PubSt where
  ssc : W32
  seq : W32
  lastF : W32
  deriving DecidableEq, Repr

/-- What the subscriber keeps of an entry: its resolved source addresses (none: unbound), whether it timed out, its epoch, the last
sequence value of each source address (R256), the instant of the last acceptance (R258). -/
structure SubSt where
  addrs : List W32
  tout : Bool
  epoch : Option W32
  seqs : Tbl W32
  lastAcc : Option Nat
  deriving DecidableEq, Repr

/-- A captured telegram (R250): entry, the frame at whose tick it is due, its launch instant once that tick has come (R279), dataset with prefix
and trailer, and the topology counters of its header. -/
structure PdCap where
  idx : Nat
  frame : Nat
  due : Option Nat
  data : List Byte
  etb : W32
  op : W32
  deriving DecidableEq, Repr

/-- A telegram that passed its checks and awaits acceptance (R257): entry, source, sequence value, epoch prefix, dataset. -/
structure PdWait where
  idx : Nat
  src : W32
  seq : W32
  epoch : Option W32
  data : List Byte
  deriving DecidableEq, Repr

/-- A PRP source (R243): MAC, instants it was last heard on LAN A and on LAN B, and whether it is heard on the other LAN only. -/
structure PrpSrc where
  mac : BitVec 48
  a : Option Nat
  b : Option Nat
  lostA : Bool
  lostB : Bool
  deriving DecidableEq, Repr

/-- The network engine beside its registers: the tables in its table memory (R248, R251, R255), entry states, captured telegrams,
telegrams awaiting acceptance, PRP copies seen (MAC, sequence number, instant) and sources heard, the redundancy control
trailer's sequence counter, the bridge's learned addresses (MAC, on X2, instant), whether TRN entries are held off (R247), the resolved
addresses by unit key read from the TTDB (R329), what ADDR changes to at the next tick, whether an address conflict is present (R331, R332),
whether entries are bound anew at the next tick (R258), and the instant the descriptor at the head of RING16 to RING18 came there (R280). -/
structure NetSt where
  pub : Tbl (List W32)
  sub : Tbl (List W32)
  binds : List (W32 × W32)
  pubSt : Tbl PubSt
  subSt : Tbl SubSt
  caps : List PdCap
  waiting : List PdWait
  seen : List (BitVec 48 × BitVec 16 × Nat)
  heard : List PrpSrc
  rctSeq : BitVec 16
  fdb : List (BitVec 48 × Bool × Nat)
  resolved : Tbl W32
  addrNext : Option Bool
  conflict : Bool
  rebind : Bool
  headNs : Vector Nat 3
  deriving DecidableEq, Repr

/-! ## Time (11) -/

/-- The servo's view (R270, R272): consecutive measurements within and above THR, and the selected master's data set. -/
structure TimeSt where
  within : Nat
  above : Nat
  master : Option Announce
  deriving DecidableEq, Repr

/-! ## Bridge (13) -/

/-- An entry of the posted buffer (R301): PCI address, data bytes, byte enables, source, frame of the release. -/
structure PwEnt where
  addr : W32
  data : Word
  be : Byte
  src : Nat
  frame : W32
  deriving DecidableEq, Repr

/-- The requester of a delayed read (R303): an engine, or a steward core (false ST0). -/
inductive DrReq where
  | eng (e : Eng)
  | core (st1 : Bool)
  deriving DecidableEq, Repr

/-- A delayed read that waits for a slot (R303). -/
structure DrWait where
  req : DrReq
  addr : W32
  size : Nat
  deriving DecidableEq, Repr

/-- A delayed-read slot in use (R303, R304): the requester, the PCI address, the size, the posted entries still ahead of it, and whether
the requester has gone. -/
structure DrSlot where
  req : DrReq
  addr : W32
  size : Nat
  ahead : Nat
  gone : Bool
  deriving DecidableEq, Repr

/-- An inbound write held until the end of IN (R308): offsets in the exchange area and bytes. -/
structure InWrite where
  bytes : List (Nat × Byte)
  deriving DecidableEq, Repr

/-- The bridge: posted buffer, delayed-read slots, reads that wait for one, oldest first, count of error records (R310), held inbound writes, RST#
asserted (R298), the peripheral slots whose card is missing or differs (R298), and for the arbiter (R296) the card granted last, 0 in slot 2, and
whether the last transaction was a card's; and the bytes that inbound writes delivered since the last tick (R196). -/
structure BrgSt where
  posted : List PwEnt
  slots : Vector (Option DrSlot) 8
  errSeq : Nat
  inbuf : List InWrite
  rst : Bool
  waits : List DrWait
  mis : List Nat
  rr : Fin 7
  cardLast : Bool
  inBytes : Nat
  deriving DecidableEq, Repr

/-! ## What the module sends -/

/-- What the module emits on its links, for the model's own record: a Pd telegram by entry on a list of ports (1 X1, 2 X2), a ring frame on a
port, a PRP supervision frame, a forwarded frame, Geyser records, a PCI transaction, an attestation report, an ARP probe, a frame-complete
token. `mac` is the sender's MAC address (R330), `rct` the number in the redundancy control trailer (R243). -/
inductive Out where
  | pd (idx : Nat) (ports : List Nat) (mac : BitVec 48) (rct : Option (BitVec 16)) (etb op seq : W32) (data : List Byte)
  | frame (ring port : Nat) (rct : Option (BitVec 16)) (bytes : List Byte)
  | prpSup (ports : List Nat) (mac : BitVec 48) (rct : Option (BitVec 16))
  | forward (toX2 : Bool) (mac dst : BitVec 48) (correction : BitVec 64)
  | hb (h : Heartbeat)
  | copy (n : Nat) (items : List CopyItem) (epoch : W32) (slice : Nat) (digest : BitVec 256)
  | ack (n status : Nat)
  | bulk (b copyfmt : Nat) (items : List CopyItem)
  | bulkEnd (b : Nat)
  | ctrl (h : Nat)
  | unfence
  | pciWrite (addr : W32) (data : Word) (be : Byte)
  | cfgWrite (adr data : W32)
  | report (mac : BitVec 48) (data : List Byte)
  | arpProbe (addr : W32) (ports : List Nat) (mac : BitVec 48) (rct : Option (BitVec 16))
  | token (ch : Ch)
  deriving DecidableEq, Repr

/-! ## Configuration store and start (14, 15, 16) -/

/-- The NV store (R314, R323): factory defaults image, identity record (if present) with the identity key's public half and Hafahild's certificate over
it (Table 15-4), user images A and B, the staging store, and PEND as the
next start finds it (R324). -/
structure NvSt where
  factory : Option NvImage
  ident : Bool
  serial : BitVec 64
  mac : BitVec 48
  idPub : List Byte
  idCert : List Byte
  userA : Option NvImage
  userB : Option NvImage
  staged : Option NvImage
  pend : Nat
  deriving DecidableEq, Repr

/-- How far the present start has come: the image check's outcome, processors loaded (R340), Tocsin confirmed (R349), slot code and
plug read, layering done, program loaded, the slot started from (R339), the start role decided with its FENCED cause (R199), lost attempts of the first and of the second read of
the plug (R380), the frame
restored, WALL and slot fallback (R363), the position and network identifier read from the TTDB (R329), the address probed (R331), the digests of
the firmware that this start took from its slot and of the program that runs (R348), and that firmware's COPYFMT (R344). -/
structure BootSt where
  imageOk : Bool
  loaded : List Nat
  tocsin : Bool
  slotDone : Bool
  plugDone : Bool
  layered : Bool
  program : Bool
  role : Option (Role × Nat)
  retry : Nat
  retry2 : Nat
  fRec : Option Nat
  wallFb : Bool
  slot : Option Nat
  slotFb : Bool
  pos : Option (Nat × Nat)
  posRead : Bool
  trnId : W32
  probed : Bool
  fwDig : BitVec 256
  prgDig : Option (BitVec 256)
  copyfmt : Nat
  deriving DecidableEq, Repr

/-! ## Update (15) -/

/-- An image in flash: an image slot or the recovery image (R336): header, manifest, the base image's header and manifest, the
64 KiB blocks, and whether it is marked valid. -/
structure FlashImg where
  hdr : PkgHeader
  man : Manifest
  base : Option (PkgHeader × Manifest)
  blocks : List (List Byte)
  valid : Bool
  deriving DecidableEq, Repr

/-- A public key of the key store (Table 15-4): KEYID, ML-DSA-65 or ML-DSA-44, whether it was revoked, the key. -/
structure KeyEnt where
  id : Nat
  big : Bool
  revoked : Bool
  key : List Byte
  deriving DecidableEq, Repr

/-- A copy of the steward's slot record (R336): its sequence number, the active slot, whether that slot is on trial, the starts made from it on
trial, and the CRC-32. -/
structure SlotRec where
  seq : Nat
  act : Nat
  trial : Nat
  trials : Nat
  crc : W32
  deriving DecidableEq, Repr

/-- Flash, the delta staging partition (package and owner message) and the key store (R333, R336, R345, R346); the two copies of the slot record;
value and VALID of the last update of BATSIG that the input distributor delivered (R342). -/
structure UpdSt where
  slotA : Option FlashImg
  slotB : Option FlashImg
  rcv : Option FlashImg
  hdr : Option PkgHeader
  man : Option Manifest
  stream : List Byte
  owner : Option OwnerMsg
  keys : List KeyEnt
  idKey : Bool
  rec0 : Option SlotRec
  rec1 : Option SlotRec
  bat : Option (Bool × Bool)
  deriving DecidableEq, Repr

/-! ## Self-test and life cycle (17) -/

/-- What SIOLOOP drives (R370): one switch of an output, closed or open, and never both closed; or an input from the internal test source, at the
off, band or on level (0, 1, 2). -/
inductive SioDrive where
  | switch (o : Fin 8) (ls closed : Bool)
  | source (i : Fin 16) (level : Fin 3)
  deriving DecidableEq, Repr

/-- Beside the BIST registers: a START accepted for the next SLICE, the automatic test run last, whether a slice of the running test
did not match with the count and the first number of failing items, what the last SLICE drove for SIOLOOP, the life-cycle state pending (R368), whether
forces are to be removed at the first tick edge (R76), and whether the partner has reported its part of the GEYSER test that runs (R374). -/
structure BistSt where
  start : Option Nat
  auto : Nat
  bad : Bool
  failed : Nat
  item : Nat
  drove : List SioDrive
  lcNew : Option Nat
  dropSil : Bool
  geyser : Bool
  deriving DecidableEq, Repr

/-! ## Supervision (16) -/

/-- A sequence of Solfatara's operations in progress (R357, R364): the trigger code (0x20 power-down), and the module state and
pair role at the trigger. -/
structure LastWords where
  code : Nat
  mstate : Nat
  role : Nat
  deriving DecidableEq, Repr

/-- Supervision beside the SUP registers: Solfatara's latch of its operations and Tocsin's start-hold (R349, R356), the sequence whose
last words are due (R364), whether the SoC is powered (R383), the supply input holds and a power-down has begun (R360, R361), the supply input as
last measured, in 10 mV (R363), each channel's
consecutive misses and the channels whose frame-complete token came since the last watchdog window closed (R38, R350),
a restart accepted and its kind (`some true`: cold whatever R21 finds; R365), whether the present start is warm, and the cause of the
last entry into SAFE as the persistent store keeps it (R21, R354; 0x20 for a power-down). -/
structure SupSt where
  latch : Bool
  startHold : Bool
  words : Option LastWords
  powered : Bool
  supplyOk : Bool
  down : Bool
  supply : Nat
  misses : Vector Nat 3
  tokens : Nat
  restart : Option Bool
  warm : Bool
  lastSafe : Nat
  deriving DecidableEq, Repr

/-! ## The whole state -/

/-- The state of the module. -/
structure State where
  /-- The commands that wait, first in first out. -/
  pending : List Instr
  /-- The registers of the 17 blocks, by offset from 0x03_0000_0000; an unlisted offset reads 0 (R2). -/
  regs : Tbl W32
  /-- Per-requester registers (R3), by `reqKey`. -/
  preq : Tbl W32
  /-- Latched _HI halves per requester (R3, R268), by `reqKey` of the latched register. -/
  latch : Tbl W32
  /-- Held _LO writes per requester (R4), by `reqKey` of the _LO register. -/
  held : Tbl W32
  /-- The word last returned to a requester outside the engines (model's own). -/
  resp : Option W32
  /-- The number of free values used (model's own, assumption 2). -/
  free : Nat
  /-- Network time in units of 2^-32 ns (R266, R267). -/
  clk : Nat
  /-- Solfatara's clock in ns (R269, R356). -/
  solNs : Nat
  /-- The part of the present second that has passed, in ns (model's own, for R163, R236, R322). -/
  secAcc : Nat
  gong : GongSt
  seqr : SeqSt
  /-- Channel A. -/
  chA : Chan
  /-- Channel B. -/
  chB : Chan
  /-- Channel C. -/
  chC : Chan
  vote : VoteSt
  /-- Program bank 0 (R172). -/
  bank0 : Option Program
  /-- Program bank 1 (R172). -/
  bank1 : Option Program
  /-- The bank of the active version: false 0, true 1. -/
  act : Bool
  /-- The force table in effect (R72). -/
  forces : List ForceEnt
  /-- Accepted force commands not yet in effect (R74), oldest first. -/
  fcmds : List ForceCmd
  /-- Event sources that are not IDLE (R285), by `evKey`. -/
  evs : Tbl EvSrc
  /-- Fumarole, newest record first (R362). -/
  fum : List FumRec
  /-- The place in the Fumarole ring that the next record takes. -/
  fumPos : Nat
  /-- Steward memory and the backplane exchange area, by physical address as the steward sees it (R12). -/
  smem : Tbl Byte
  pair : PairSt
  sio : SioSt
  spd : SpdSt
  /-- Records written to each target's ring (R287, SEQ), low 8 bits. -/
  evSeq : Vector Byte 10
  net : NetSt
  tim : TimeSt
  brg : BrgSt
  /-- What was sent, newest first (model's own record of the links). -/
  out : List Out
  ret : RetSt
  xch : XchSt
  nv : NvSt
  boot : BootSt
  upd : UpdSt
  bist : BistSt
  /-- The maintenance session that is open (R347). -/
  session : Option SessionKey
  sup : SupSt
  deriving DecidableEq, Repr

/-! ## Outcomes -/

/-- Faults: none. No event of this module stops it: an exception discards an instance (R99), a trigger enters SAFE (R354),
a refused command is ignored (R23). -/
inductive Fault where
  deriving DecidableEq, Repr

/-- Refusals. -/
inductive Refusal where
  /-- Raised by an arm of `exec` for a command that has no meaning yet; safe. No arm raises it in this model. -/
  | notModelled (mnemonic : String)
  deriving DecidableEq, Repr

/-! ## The state right after reset -/

/-- Registers of an engine copy at reset (R83 sets them at every instance start; assumption 3). -/
def Ctx.reset : Ctx :=
  { g := Vector.replicate 32 0, c := Vector.replicate 8 false, sb := 0, ib := 0, pc := 0, st := 0, stack := [], unit := 0 }

/-- An engine copy at reset. -/
def EngC.reset : EngC :=
  { x := Ctx.reset, bud := 0, run := none, stall := none, win := none, wseq := 0, cbuf := [], cyc := 0, peak := 0 }

/-- A channel at reset: nothing loaded. -/
def Chan.reset : Chan :=
  { dir := [], slots := [], insts := [], eng := Vector.replicate 8 EngC.reset, insig := none, rx0 := 0, rx1 := 0 }

/-- What the vote unit keeps of a channel at reset. -/
def ChRec.reset : ChRec := { attempts := [], devn := none, readm := none, bulkK := none }

/-- The Gong at reset: it does not tick in BOOT (R31). -/
def GongSt.reset : GongSt := { frame := 0, tick := 0, next := 0, adj := 0, reph := 0, step := 0, step2 := 0, ticking := false }

/-- The task sequencer at reset. -/
def SeqSt.reset : SeqSt :=
  { taken := Vector.replicate 8 0, cycles := [], discs := [], done := [], fault := [] }

/-- No exchange. -/
def XchSt.reset : XchSt :=
  { arm := false, swf := Vector.replicate 8 0, rep := ExchRep.none, reports := [] }

/-- The beginning of a start. -/
def BootSt.reset : BootSt :=
  { imageOk := false, loaded := [], tocsin := false, slotDone := false, plugDone := false, layered := false
    program := false, role := none, retry := 0, retry2 := 0, fRec := none, wallFb := false, slot := none, slotFb := false, pos := none
    posRead := false, trnId := 0, probed := false, fwDig := 0, prgDig := none, copyfmt := 0 }

/-- Fields restored "rec", "factory" or fixed by Table 10-9, before anything was stored (assumption 3). -/
def resetRec (off : Nat) : W32 :=
  if off = 0x40000 then 7
  else if 0x60800 ≤ off ∧ off < 0x61000 ∧ off % 32 = 8 then
    let r := (off - 0x60800) / 32
    if r < 10 then 0x40
    else if r = 10 then 0x1000050
    else if 16 ≤ r ∧ r < 19 then 0x42000050
    else if 24 ≤ r ∧ r < 28 then 0x3000050
    else if 32 ≤ r then 0x4000000
    else 0
  else 0

/-- The module right after reset: power applied, at the beginning of a cold start in BOOT, every register at its Cold value,
nothing loaded, nothing waiting. -/
def State.reset : State :=
  { pending := [], regs := startRegs false resetRec, preq := [], latch := [], held := [], resp := none, free := 0
    clk := 0, solNs := 0, secAcc := 0, gong := GongSt.reset, seqr := SeqSt.reset
    chA := Chan.reset, chB := Chan.reset, chC := Chan.reset
    vote := { groups := [], a := ChRec.reset, b := ChRec.reset, c := ChRec.reset, excl := none, clearPerm := false
              capture := 0, dregB := ⟨[], 0⟩, dregC := ⟨[], 0⟩, v1 := none, v2 := none, copyNs := 0 }
    bank0 := none, bank1 := none, act := false, forces := [], fcmds := [], evs := [], fum := [], fumPos := 0, smem := []
    pair := { hb := none, hbLive := false, epochIn := 0, yield := none, handover := none, pactNs := 0
              hbSincePact := false, hbSinceYield := false, both := false, unfenced := false, joining := false
              bulkB := none, bulkEnd := false, bulkLeft := 0, bulkE := none, joinFails := [], await := [], copy := []
              touched := [], resume := none, lastF := 0, held := [], ended := [], sent := [], home5 := 0 }
    sio := { ins := Vector.replicate 16 ⟨false, [], false, 0, false, 0, 0, ⟨false, 0⟩, ⟨false, 0⟩, ⟨false, 0⟩⟩
             outs := Vector.replicate 8 ⟨none, none, false, true, none, 0, [], false, []⟩
             tpOff := Vector.replicate 8 false, maskNs := Vector.replicate 8 0 }
    spd := { s0 := SenSt.reset, s1 := SenSt.reset, runNs := 0, below := [] }
    evSeq := Vector.replicate 10 0
    net := { pub := [], sub := [], binds := [], pubSt := [], subSt := [], caps := [], waiting := [], seen := [], heard := []
             rctSeq := 0, fdb := [], resolved := [], addrNext := none, conflict := false, rebind := false
             headNs := Vector.replicate 3 0 }
    tim := { within := 0, above := 0, master := none }
    brg := { posted := [], slots := Vector.replicate 8 none, errSeq := 0, inbuf := [], rst := false, waits := [], mis := [], rr := 6, cardLast := false, inBytes := 0 }
    out := []
    ret := { a := ⟨none, none⟩, b := ⟨none, none⟩, c := ⟨none, none⟩, seq := 0, due := none, notes := [] }
    xch := XchSt.reset
    nv := { factory := none, ident := false, serial := 0, mac := 0, idPub := [], idCert := [], userA := none, userB := none, staged := none, pend := 0 }
    boot := BootSt.reset
    upd := { slotA := none, slotB := none, rcv := none, hdr := none, man := none, stream := [], owner := none, keys := [], idKey := false
             rec0 := none, rec1 := none, bat := none }
    bist := { start := none, auto := 7, bad := false, failed := 0, item := 0, drove := [], lcNew := none, dropSil := false, geyser := false }
    session := none
    sup := { latch := false, startHold := true, words := none, powered := true, supplyOk := true, down := false, supply := 2400
             misses := Vector.replicate 3 0, tokens := 0, restart := none, warm := false, lastSafe := 0 }
  }

end Sys2Proof.Machine
end

