-- ==== Sys2Proof/Machine/Ops.lean ====
section
/-! DEFINITION. The named operations over sparse tables, registers, memory, channels and the small records, shared by every
meaning. -/

namespace Sys2Proof.Machine

/-! ## Sparse tables: keys strictly rising -/

/-- The entry of key `k`. -/
def tblFind {α : Type} : Tbl α → Nat → Option α
  | [], _ => none
  | (k', v) :: t, k => if k' = k then some v else tblFind t k

/-- Enters `v` at key `k`. -/
def tblPut {α : Type} : Tbl α → Nat → α → Tbl α
  | [], k, v => [(k, v)]
  | (k', v') :: t, k, v =>
    if k < k' then (k, v) :: (k', v') :: t else if k' = k then (k, v) :: t else (k', v') :: tblPut t k v

/-- Removes key `k`. -/
def tblDel {α : Type} : Tbl α → Nat → Tbl α
  | [], _ => []
  | (k', v') :: t, k => if k' = k then tblDel t k else (k', v') :: tblDel t k

/-- A table from pairs in any order, the last of a key winning. -/
def tblOf {α : Type} (l : List (Nat × α)) : Tbl α := l.foldl (fun t p => tblPut t p.1 p.2) []

/-- Changes the entry of key `k`, if there is one. -/
def tblMod {α : Type} (t : Tbl α) (k : Nat) (f : α → α) : Tbl α :=
  match tblFind t k with
  | some v => tblPut t k (f v)
  | none => t

/-- Keys strictly rising, the first above `b`. -/
def tblAbove {α : Type} : Option Nat → Tbl α → Bool
  | _, [] => true
  | b, (k, _) :: t => (match b with | none => true | some b => decide (b < k)) && tblAbove (some k) t

/-- The canonical form of a sparse table. -/
def tblWf {α : Type} (t : Tbl α) : Bool := tblAbove none t

/-- The word at offset `k` of a file in which an unlisted offset reads 0. -/
def fileGet {w : Nat} (t : Tbl (BitVec w)) (k : Nat) : BitVec w := (tblFind t k).getD 0

/-- Writes the word at offset `k`; a zero word is not listed. -/
def filePut {w : Nat} (t : Tbl (BitVec w)) (k : Nat) (v : BitVec w) : Tbl (BitVec w) :=
  if v = 0 then tblDel t k else tblPut t k v

/-- The canonical form of a file: keys strictly rising, no zero listed. -/
def fileWf {w : Nat} (t : Tbl (BitVec w)) : Bool := tblWf t && t.all (fun p => p.2 != 0)

/-! ## Memory (R12, assumption 4): bytes, an unlisted address reads 0 -/

/-- The byte at `a`. -/
def memGet (m : Tbl Byte) (a : Nat) : Byte := fileGet m a

/-- Stores the byte `b` at `a`. -/
def memPut (m : Tbl Byte) (a : Nat) (b : Byte) : Tbl Byte := filePut m a b

/-- The canonical form of memory. -/
def memWf (m : Tbl Byte) : Bool := fileWf m

/-- `n` bytes from `a`, lowest address first. -/
def memBytes (m : Tbl Byte) (a n : Nat) : List Byte := (List.range n).map fun i => memGet m (a + i)

/-- Stores bytes from `a` on. -/
def memPutBytes (m : Tbl Byte) (a : Nat) : List Byte → Tbl Byte
  | [] => m
  | b :: bs => memPutBytes (memPut m a b) (a + 1) bs

/-! ## Bytes and words, little-endian (R1) -/

/-- An address of memory that the map gives the steward, and with it the rings, descriptors and buffers (Table 1-4): its own 2 GiB and the
backplane exchange area. -/
def smemMapped (a : Nat) : Bool := decide (a < 0x80000000) || (decide (0x180000000 ≤ a) && decide (a < 0x184000000))

/-- `n` bytes from `a` as the hardware reads them for a ring, a descriptor or a buffer: what is not mapped reads 0 (assumption 4). -/
def dmaBytes (m : Tbl Byte) (a n : Nat) : List Byte := (List.range n).map fun i => if smemMapped (a + i) then memGet m (a + i) else 0

/-- Stores bytes from `a` on for a ring, a descriptor or a buffer: what is not mapped takes none (assumption 4). -/
def dmaPut (m : Tbl Byte) (a : Nat) : List Byte → Tbl Byte
  | [] => m
  | b :: bs => dmaPut (if smemMapped a then memPut m a b else m) (a + 1) bs

/-- The number of a little-endian byte list. -/
def leNat : List Byte → Nat
  | [] => 0
  | b :: bs => b.toNat + 256 * leNat bs

/-- `n` little-endian bytes of a number. -/
def leBytes : Nat → Nat → List Byte
  | 0, _ => []
  | n + 1, v => BitVec.ofNat 8 v :: leBytes n (v / 256)

/-- `n` bytes of a list from `i`, bytes beyond its end reading 0. -/
def bytesAt (l : List Byte) (i n : Nat) : List Byte := (List.range n).map fun j => l.getD (i + j) 0

/-! ## Bit fields -/

/-- The field of `w` bits from bit `lo` of a word. -/
def fieldOf (v : W32) (lo w : Nat) : Nat := v.toNat / 2 ^ lo % 2 ^ w

/-- The word with the field of `w` bits from bit `lo` replaced. -/
def withField (v : W32) (lo w n : Nat) : W32 :=
  BitVec.ofNat 32 (2 ^ (lo + w) * (v.toNat / 2 ^ (lo + w)) + 2 ^ lo * (n % 2 ^ w) + v.toNat % 2 ^ lo)

/-- The mask with the bits listed. -/
def maskOf (ks : List Nat) : Nat := ks.foldl (fun m k => m ||| 2 ^ k) 0

/-- 1 for true. -/
def b2n (b : Bool) : Nat := if b then 1 else 0

/-! ## Registers -/

/-- The stored word of the register at `off`. -/
def State.reg (s : State) (off : Nat) : W32 := fileGet s.regs off

/-- Writes the stored word of the register at `off`. -/
def State.setReg (s : State) (off : Nat) (v : W32) : State := { s with regs := filePut s.regs off v }

/-- The value of a field. -/
def State.get (s : State) (f : Fld) : Nat := fieldOf (s.reg f.off) f.lo f.w

/-- Writes a field. -/
def State.set (s : State) (f : Fld) (n : Nat) : State := s.setReg f.off (withField (s.reg f.off) f.lo f.w n)

/-- Writes a flag. -/
def State.flag (s : State) (f : Fld) : State := s.set f 1

/-- Advances a counter field; it wraps. -/
def State.inc (s : State) (f : Fld) : State := s.set f (1 + s.get f)

/-- Advances a counter field by `n`; it saturates. -/
def State.incSat (s : State) (f : Fld) (n : Nat := 1) : State := s.set f (min (s.get f + n) (2 ^ f.w - 1))

/-- Writes a 64-bit pair: the low half at `lo`, the high half at `hi`. -/
def State.setPair (s : State) (lo hi : Fld) (n : Nat) : State := (s.set lo n).set hi (n / 2 ^ 32)

/-- The value of a 64-bit pair. -/
def State.getPair (s : State) (lo hi : Fld) : Nat := s.get lo + 2 ^ 32 * s.get hi

/-- Writes a field with the bits of `m` set. -/
def State.orBits (s : State) (f : Fld) (m : Nat) : State := s.set f (s.get f ||| m)

/-- Whether bit `n` of a field is 1. -/
def State.bit (s : State) (f : Fld) (n : Nat) : Bool := s.get f / 2 ^ n % 2 = 1

/-! ## Requesters (R3) -/

/-- The number of a requester: CE0 to CE7 0 to 7, ST0 8, ST1 9, the maintenance port 10. -/
def reqNum : Req → Nat
  | .eng e => e.val
  | .st0 => 8
  | .st1 => 9
  | .maint => 10

/-- The key of a requester's own copy of the register at `off`. -/
def reqKey (r : Req) (off : Nat) : Nat := off * 16 + reqNum r

/-- Whether a requester is an engine. -/
def isEng : Req → Bool
  | .eng _ => true
  | _ => false

/-- Without a maintenance session the port reads other registers than ID as zero and writes none (R347). -/
def State.shut (s : State) (r : Req) : Bool := r = .maint && s.session.isNone

/-- A register write as the steward makes it, on its own behalf or for the maintenance port (R15, R347); without power the steward stands still
(R383). -/
def State.steward (s : State) (r : Req) : Bool := s.sup.powered && !isEng r && !s.shut r

/-- A requester's own copy of a per-requester register. -/
def State.preqGet (s : State) (r : Req) (off : Nat) : W32 := fileGet s.preq (reqKey r off)

/-- Writes a requester's own copy of a per-requester register. -/
def State.preqSet (s : State) (r : Req) (off : Nat) (v : W32) : State :=
  { s with preq := filePut s.preq (reqKey r off) v }

/-! ## Free values (assumption 2) -/

/-- The next free value, with the state after it is used. -/
def State.fresh (s : State) (w : Nat) : BitVec w × State :=
  (BitVec.ofNat w (Config.freeNat s.free), { s with free := s.free + 1 })

/-! ## Power (R383) -/

/-- What a command makes of the state where the SoC, the steward or Tocsin does it: without power they stand still and nothing happens. -/
def State.whilePowered (s t : State) : Host.Outcome State Fault Refusal := .next (if s.sup.powered then t else s)

/-! ## Module state and roles -/

/-- The code of a module state in SUP.STATE.MSTATE (Table 16-10). -/
def mstateCode : MState → Nat
  | .boot => 0
  | .starttest => 1
  | .init => 2
  | .run => 3
  | .safe => 4
  | .recovery => 5

/-- The module state of a code. -/
def mstateOf : Nat → MState
  | 0 => .boot
  | 1 => .starttest
  | 2 => .init
  | 3 => .run
  | 4 => .safe
  | _ => .recovery

/-- The module state (R17). -/
def State.mstate (s : State) : MState := mstateOf (s.get R.SUP.STATE.MSTATE)

/-- The code of a pair role (Table 8-5). -/
def roleCode : Role → Nat
  | .none => 0
  | .alone => 1
  | .active => 2
  | .standby => 3
  | .fenced => 4

/-- The pair role of a code. -/
def roleOf : Nat → Role
  | 1 => .alone
  | 2 => .active
  | 3 => .standby
  | 4 => .fenced
  | _ => .none

/-- The pair role (R197). -/
def State.role (s : State) : Role := roleOf (s.get R.PAIR.ROLE.fld)

/-- The role is ACTIVE or ALONE. -/
def State.leads (s : State) : Bool := s.role = .active || s.role = .alone

/-- The module leads and has come to the first tick of its leadership: a promotion resumes there (R204). -/
def State.works (s : State) : Bool := s.leads && s.pair.resume.isNone

/-- The life-cycle state code of BIST.LCS: 0 BLANK, 1 MANUFACTURE, 2 SERVICE, 3 DEPOT, 4 RETIRED. -/
def State.lcs (s : State) : Nat := s.get R.BIST.LCS.STATE

/-- The life-cycle state is DEPOT or MANUFACTURE. -/
def State.depot (s : State) : Bool := s.lcs = 3 || s.lcs = 1

/-! ## Time (R266, R267) -/

/-- Network time in whole ns. -/
def State.nowNs (s : State) : Nat := s.clk / 2 ^ 32

/-! ## Channels (R139 to R141) -/

/-- The number of a channel. -/
def chNum : Ch → Nat
  | .a => 0
  | .b => 1
  | .c => 2

/-- A channel's state. -/
def State.ch (s : State) : Ch → Chan
  | .a => s.chA
  | .b => s.chB
  | .c => s.chC

/-- Replaces a channel's state. -/
def State.setCh (s : State) (ch : Ch) (v : Chan) : State :=
  match ch with
  | .a => { s with chA := v }
  | .b => { s with chB := v }
  | .c => { s with chC := v }

/-- VOTE.CHST of a channel: 0 included, 1 excluded, 2 resync, 3 probation, 4 permanent. -/
def State.chst (s : State) (ch : Ch) : Nat := s.get (R.VOTE.CHST.CH (chNum ch))

/-- A channel is included in the votes. -/
def State.included (s : State) (ch : Ch) : Bool := s.bit R.VOTE.MODE.INCL (chNum ch)

/-- A channel executes: it is included or in probation. -/
def State.executing (s : State) (ch : Ch) : Bool := s.included ch || s.chst ch = 3

/-- The module is in INIT or RUN. -/
def State.initOrRun (s : State) : Bool := s.mstate = .init || s.mstate = .run

/-- The included channels, lowest letter first. -/
def State.incl (s : State) : List Ch := [Ch.a, .b, .c].filter s.included

/-- The leading channel: the included channel with the lowest letter (R141). -/
def State.leadCh (s : State) : Ch := s.incl.headD .a

/-- What the vote unit keeps of a channel. -/
def State.chRec (s : State) : Ch → ChRec
  | .a => s.vote.a
  | .b => s.vote.b
  | .c => s.vote.c

/-- Replaces what the vote unit keeps of a channel. -/
def State.setChRec (s : State) (ch : Ch) (v : ChRec) : State :=
  match ch with
  | .a => { s with vote := { s.vote with a := v } }
  | .b => { s with vote := { s.vote with b := v } }
  | .c => { s with vote := { s.vote with c := v } }

/-- Applies a function of the channel to every channel for which `p` holds. -/
def State.eachCh (s : State) (p : Ch → Bool) (f : Ch → Chan → Chan) : State :=
  [Ch.a, .b, .c].foldl (fun t ch => if p ch then t.setCh ch (f ch (t.ch ch)) else t) s

/-- Applies a function to every channel for which `p` holds. -/
def State.mapCh (s : State) (p : Ch → Bool) (f : Chan → Chan) : State :=
  [Ch.a, .b, .c].foldl (fun t ch => if p ch then t.setCh ch (f (t.ch ch)) else t) s

/-- GONG.FRAME as it reads: 0 until ALIGNED is 1 (Table 2-7). -/
def State.frameShown (s : State) : Nat := if s.get R.GONG.STATUS.ALIGNED = 1 then s.gong.frame else 0

/-! ## Fumarole (R362, R363) -/

/-- The number of records Fumarole holds. -/
def fumSize : Nat := 2097152

/-- Writes a record of 28 bytes with the next number. -/
def State.fumPut (s : State) (body : List Byte) : State :=
  { (s.inc R.SUP.FUMSEQ.SEQ) with
    fum := (⟨BitVec.ofNat 32 (1 + s.get R.SUP.FUMSEQ.SEQ), body⟩ :: s.fum).take fumSize
    fumPos := (1 + s.fumPos) % fumSize }

/-- Writes one Fumarole record: TYPE, SRC, CODE, DATA (Table 16-5). -/
def State.fumarole (s : State) (type src code : Nat) (data : List Byte) : State :=
  s.fumPut (leBytes 1 type ++ leBytes 1 src ++ leBytes 2 code ++ leBytes 8 (s.clk / 2 ^ 32) ++
    leBytes 4 s.frameShown ++ bytesAt data 0 12)

/-- Writes a continuation record (TYPE 0x7F) of 24 bytes with its index. -/
def State.fumCont (s : State) (src idx : Nat) (data : List Byte) : State :=
  s.fumPut (leBytes 1 0x7F ++ leBytes 1 src ++ leBytes 2 idx ++ bytesAt data 0 24)

end Sys2Proof.Machine
end

