-- ==== Sys2Proof/Machine/Cmd.lean ====
section
/-! DEFINITION. Writes to command registers (R22, R23): judged, and taken or ignored, with the reason field. -/

namespace Sys2Proof.Machine

/-- The lowest reason code among those whose condition holds, 0 if none (R23). -/
def firstReason : List (Nat × Bool) → Nat
  | [] => 0
  | (n, b) :: t => if b then n else firstReason t

/-- A write to the command register `cmd` with value `v`, judged with outcome `why` (0 accepted). A program's write is ignored
(R15), and so is the maintenance port's without a session (R347). The reason field takes the outcome of every other write; an accepted command takes the value and advances the counter
in the same step, and then acts. -/
def State.command (s : State) (r : Req) (cmd cnt reason : Fld) (v why : Nat) (act : State → State) : State :=
  if !s.steward r then s
  else
    let s1 := s.set reason why
    if why = 0 then act ((s1.set cmd v).inc cnt) else s1

/-- As `command`, for a block that has no reason field (VOTE, R164). -/
def State.commandNoReason (s : State) (r : Req) (cmd cnt : Fld) (v : Nat) (ok : Bool) (act : State → State) : State :=
  if !s.steward r then s else if ok then act ((s.set cmd v).inc cnt) else s

end Sys2Proof.Machine
end

