-- ==== Sys2Proof/Machine/Operands.lean ====
section
/-! DEFINITION. The operand forms of the Osrus instructions (04, 05): general and condition registers, addresses and the
memory view (Table 4-3), signal IDs (Table 5-6) and slot indexes, stored and loaded forms (Table 5-7), and what an
instruction sees and changes in one engine copy. -/

namespace Sys2Proof.Machine

/-! ## Registers (R79, R80) -/

/-- g[x]: g0 reads as zero. -/
def Ctx.gr (x : Ctx) (r : GReg) : Word := if r = 0 then 0 else x.g[r]

/-- Writes g[x]: a write to g0 is discarded. -/
def Ctx.setG (x : Ctx) (r : GReg) (v : Word) : Ctx := if r = 0 then x else { x with g := x.g.set r v }

/-- c[x]: c0 reads as 1. -/
def Ctx.cr (x : Ctx) (r : CReg) : Bool := if r = 0 then true else x.c[r]

/-- Writes c[x]: a write to c0 is discarded. -/
def Ctx.setC (x : Ctx) (r : CReg) (v : Bool) : Ctx := if r = 0 then x else { x with c := x.c.set r v }

/-- PC advanced by `n` bytes. -/
def Ctx.adv (x : Ctx) (n : Nat) : Ctx := { x with pc := x.pc + BitVec.ofNat 32 n }

/-- The task class in ST. -/
def Ctx.cls (x : Ctx) : Nat := fieldOf x.st 1 3

/-- ST.SAFE. -/
def Ctx.safe (x : Ctx) : Bool := fieldOf x.st 0 1 = 1

/-- The rounding mode ST.RM. -/
def Ctx.rm (x : Ctx) : Nat := fieldOf x.st 16 2

/-- ST.FX. -/
def Ctx.fx (x : Ctx) : Nat := fieldOf x.st 11 5

/-- Registers of a new instance (R83). -/
def Ctx.clear : Ctx :=
  { g := Vector.replicate 32 0, c := Vector.replicate 8 false, sb := 0, ib := 0, pc := 0, st := 0, stack := [], unit := 0 }

/-! ## The memory view (Tables 1-4, 4-3) -/

/-- The ranges of Table 4-3. -/
inductive Region where
  | code | shadow | coldSlot | work | context | value | dir | tile | exchange | mram | periph | window | outbound | unmapped
  deriving DecidableEq, Repr

/-- The range a physical address lies in. -/
def regionOf (a : Nat) : Region :=
  if a < 0x20000000 then .code
  else if a < 0x40000000 then .shadow
  else if a < 0x60000000 then .coldSlot
  else if a < 0x80000000 then .work
  else if a < 0xA0000000 then .context
  else if a < 0xE0000000 then .value
  else if a < 0x100000000 then .dir
  else if a < 0x102000000 then .tile
  else if 0x180000000 ≤ a ∧ a < 0x184000000 then .exchange
  else if 0x200000000 ≤ a ∧ a < 0x210000000 then .mram
  else if 0x300000000 ≤ a ∧ a < 0x300110000 then .periph
  else if 0x300200000 ≤ a ∧ a < 0x300210000 then .window
  else if 0x400000000 ≤ a ∧ a < 0x500000000 then .outbound
  else .unmapped

/-- Shared ranges, whose reads are distributed (R13). -/
def Region.shared : Region → Bool
  | .exchange | .mram | .periph | .window | .outbound => true
  | _ => false

/-- Ranges in which R1 stands in place of R88. -/
def Region.isReg : Region → Bool
  | .periph | .window => true
  | _ => false

/-- The address of a load or store (R114). -/
def effAddr (x : Ctx) (ga : GReg) (imm : BitVec 16) : Nat := (x.gr ga + imm.signExtend 64).toNat

/-! ## Signals (Tables 3-1, 3-2, 5-7) -/

/-- The type code of an entry. -/
def DirEnt.type (e : DirEnt) : Nat := fieldOf e.w0 0 5
/-- For BYTES(n), n − 1. -/
def DirEnt.len (e : DirEnt) : Nat := fieldOf e.w0 5 10
/-- 1: value in tile SRAM. -/
def DirEnt.place (e : DirEnt) : Nat := fieldOf e.w0 20 1
/-- 1: retained over warm restart. -/
def DirEnt.ret (e : DirEnt) : Bool := fieldOf e.w0 21 1 = 1
/-- The home of the signal (Table 3-3). -/
def DirEnt.home (e : DirEnt) : Nat := fieldOf e.w0 22 3
/-- The safety class. -/
def DirEnt.sclass (e : DirEnt) : Nat := fieldOf e.w0 25 3
/-- The owning task class. -/
def DirEnt.owner (e : DirEnt) : Nat := fieldOf e.w0 29 3
/-- FRESH, in FUNIT. -/
def DirEnt.fresh (e : DirEnt) : Nat := fieldOf e.w2 0 16
/-- The unit of FRESH in ns. -/
def DirEnt.funit (e : DirEnt) : Nat :=
  match fieldOf e.w2 16 2 with
  | 0 => 100000
  | 1 => 1000000
  | 2 => 10000000
  | _ => 100000000
/-- The home reference. -/
def DirEnt.href (e : DirEnt) : Nat := fieldOf e.w2 18 14
/-- The quality bits. -/
def DirEnt.qual (e : DirEnt) : BitVec 6 := BitVec.ofNat 6 (fieldOf e.w3 0 6)
/-- The frame number of the last update, low 24 bits. -/
def DirEnt.stamp (e : DirEnt) : Nat := fieldOf e.w3 8 24

/-- The size in bytes of a value of type code `t` with LEN `len` (Table 3-2). -/
def typeSize (t len : Nat) : Nat :=
  match t with
  | 1 | 2 | 6 => 1
  | 3 | 7 => 2
  | 4 | 8 | 0xA => 4
  | 5 | 9 | 0xB | 0xC => 8
  | 0xD => len + 1
  | _ => 0

/-- The size in bytes of the entry's value. -/
def DirEnt.size (e : DirEnt) : Nat := typeSize e.type e.len

/-- The type is BYTES(n). -/
def DirEnt.isBytes (e : DirEnt) : Bool := e.type = 0xD

/-- The loaded form of a value of type code `t` (Table 5-7). -/
def loadedForm (t : Nat) (v : List Byte) : Word :=
  match t with
  | 1 => BitVec.ofNat 64 (leNat (v.take 1) % 2)
  | 2 => (BitVec.ofNat 8 (leNat v)).signExtend 64
  | 3 => (BitVec.ofNat 16 (leNat v)).signExtend 64
  | 4 => (BitVec.ofNat 32 (leNat v)).signExtend 64
  | _ => BitVec.ofNat 64 (leNat (v.take 8))

/-- The stored form of a register value in a type of code `t` (R122); for BYTES it is chunk 0. -/
def storedForm (t : Nat) (v : Word) : List Byte :=
  if t = 1 then leBytes 1 (v.toNat % 2) else leBytes (typeSize t 7) v.toNat

/-- A BYTES(n) value of `n` bytes with chunk `j` written from `v` (R124). -/
def putChunk (old : List Byte) (n j : Nat) (v : Word) : List Byte :=
  (List.range n).map fun i =>
    if 8 * j ≤ i ∧ i < 8 * j + 8 then BitVec.ofNat 8 (v.toNat / 256 ^ (i - 8 * j)) else old.getD i 0

/-- Chunk `j` of a BYTES value (R124). -/
def getChunk (v : List Byte) (n j : Nat) : Word :=
  BitVec.ofNat 64 (leNat ((List.range 8).map fun i => if 8 * j + i < n then v.getD (8 * j + i) 0 else 0))

/-- The short form of a signal ID (Table 5-6). -/
def shortId (x : Ctx) (off : BitVec 21) : Nat := (x.sb + off.zeroExtend 25).toNat

/-- The indexed form of a signal ID. -/
def indexedId (x : Ctx) (ga : GReg) (imm : BitVec 16) : Nat := (x.gr ga + imm.signExtend 64).toNat % 2 ^ 25

/-- The chunk form of a signal ID. -/
def chunkId (x : Ctx) (ga : GReg) : Nat := (x.gr ga).toNat % 2 ^ 25

/-- The index of the slot an instance operation addresses (R125). -/
def slotIndex (x : Ctx) (off : BitVec 12) : Nat := (x.ib + off.zeroExtend 20).toNat

/-! ## Slots (Table 4-4) -/

/-- KIND. -/
def Slot.kind (s : Slot) : Nat := fieldOf s.w0 28 4
/-- 1: retained over warm restart. -/
def Slot.ret (s : Slot) : Bool := fieldOf s.w0 27 1 = 1
/-- 1: off-time is counted from network time. -/
def Slot.wall (s : Slot) : Bool := fieldOf s.w0 26 1 = 1
/-- The class of the owning task. -/
def Slot.owner (s : Slot) : Nat := fieldOf s.w0 23 3
/-- Output. -/
def Slot.q (s : Slot) : Bool := fieldOf s.w0 21 1 = 1
/-- Input at the last evaluation. -/
def Slot.m (s : Slot) : Bool := fieldOf s.w0 20 1 = 1
/-- A timer is timing. -/
def Slot.run (s : Slot) : Bool := fieldOf s.w0 19 1 = 1

/-- The slot with Q, M and RUN replaced. -/
def Slot.setQMR (s : Slot) (q m r : Bool) : Slot :=
  { s with w0 := withField s.w0 19 3 (b2n r + 2 * b2n m + 4 * b2n q) }

/-! ## Signature items (Table 6-2) -/

/-- An item of tag `t`. -/
def item (t rest : Nat) : BitVec 128 := BitVec.ofNat 128 (2 ^ 124 * t + rest)

/-- Tag 0x1: a retired store. -/
def itemStore (mask : Byte) (a : Nat) (d : Word) : BitVec 128 :=
  item 1 (2 ^ 112 * mask.toNat + 2 ^ 64 * (a % 2 ^ 40) + d.toNat)

/-- Tag 0x2: a signal write. -/
def itemSig (id : Nat) (v : List Byte) : BitVec 128 := item 2 (2 ^ 64 * (id % 2 ^ 25) + leNat (v.take 8))

/-- Tag 0x3: a slot change. -/
def itemSlot (field idx : Nat) (v : Word) : BitVec 128 := item 3 (2 ^ 84 * field + 2 ^ 64 * (idx % 2 ^ 20) + v.toNat)

/-- Tag 0x4: a distributed read. -/
def itemRead (a : Nat) (v : Word) : BitVec 128 := item 4 (2 ^ 64 * (a % 2 ^ 40) + v.toNat)

/-- Tag 0x5: an exception. -/
def itemExc (code : Nat) (pc : W32) : BitVec 128 := item 5 (2 ^ 104 * (code % 256) + 2 ^ 64 * pc.toNat)

/-- Tag 0x6: a window close. -/
def itemClose (reason n ret : Nat) : BitVec 128 := item 6 (2 ^ 112 * reason + 2 ^ 96 * (n % 512) + ret % 2 ^ 64)

/-- Tag 0x7: an input update. Of a value longer than 8 bytes the first 8 fill the field: Table 6-2 says [63:0] value only (DESIGN CHOICE,
assumption 33). -/
def itemInput (q : BitVec 6) (id : Nat) (v : List Byte) : BitVec 128 :=
  item 7 (2 ^ 90 * q.toNat + 2 ^ 64 * (id % 2 ^ 25) + leNat (v.take 8))

/-- One fold of the signature register: the feedback polynomial x^128 + x^7 + x^2 + x + 1 (R145, assumption 6). -/
def misr (s item : BitVec 128) : BitVec 128 := ((s <<< 1) ^^^ (if s.msb then 0x87 else 0)) ^^^ item

/-! ## What an instruction sees and changes in one engine copy -/

/-- What an instruction sees: the engine, the base period in ns, the task and its program version, whether this is the
instance's last scheduled segment, the channel, and the value a distributed read delivered (R142). -/
structure Env where
  eng : Eng
  pNs : Nat
  prog : Program
  last : Bool
  ch : Chan
  shared : Word
  deriving DecidableEq, Repr

/-- What an instruction changes: registers, the instance, the items folded (each with whether it counts as a store), stores
to hold, and how it ends: a commit point (R146), the end of the segment or of the instance (R135). -/
structure Work where
  x : Ctx
  inst : Inst
  items : List (BitVec 128)
  held : List CbEntry
  point : Bool
  segEnd : Bool
  instEnd : Bool
  deriving DecidableEq, Repr

/-- The outcome of an instruction on one copy: its work, or an exception with its code and the address, signal ID, slot index
or FAULT code concerned (R98, R100). -/
abbrev Res := Except (Nat × Nat) Work

/-- The meaning of an instruction on one copy. -/
abbrev Op := Env → Work → Res

/-- raise(n) with the item concerned. -/
def raise (n info : Nat) : Res := .error (n, info)

/-- An instruction of `n` bytes that only changes registers. -/
def regOp (n : Nat) (f : Ctx → Ctx) : Op := fun _ w => .ok { w with x := (f w.x).adv n }

/-- The function unit of a number in a version. -/
def unitOf (p : Program) (n : Nat) : Option UnitDesc := p.units.find? fun u => u.num = n

/-- Whether `n` bytes at an address lie in a unit's code range and in the code area, 4-byte aligned (R85, R96). -/
def unitHolds (u : UnitDesc) (a n : Nat) : Bool := u.lo ≤ a && a + n ≤ u.hi && a + n ≤ 0x20000000 && a % 4 = 0

/-- Whether a target lies in the code range of the unit now running (R96). -/
def Env.inUnit (v : Env) (x : Ctx) (a n : Nat) : Bool :=
  match unitOf v.prog x.unit with
  | some u => unitHolds u a n
  | none => false

/-- The slot as the instance sees it: its own latest change, or the channel's (R93). -/
def slotSeen (v : Env) (i : Inst) (k : Nat) : Option Slot :=
  match tblFind i.slots k with
  | some s => some s
  | none => tblFind v.ch.slots k

/-- The value and quality a read of a signal gives (R62, R64): the instance's own latest write, or its snapshot. A signal in neither set of the class
has none: to the first chunk written of an owned BYTES signal of that kind the other bytes are 0 (DESIGN CHOICE, assumption 14: the spec states no value
for them). -/
def sigSeen (v : Env) (i : Inst) (x : Ctx) (id : Nat) : Snap :=
  match tblFind i.wset id with
  | some b =>
    let safe := match tblFind v.ch.dir id with
      | some e => e.sclass != 0 && x.safe
      | none => false
    ⟨BitVec.ofNat 6 (1 + 16 * b2n safe), b⟩
  | none => (tblFind i.snap id).getD ⟨0, []⟩

end Sys2Proof.Machine
end

