-- ==== Sys2Proof/Machine/Osrus.lean ====
section
/-! DEFINITION. How an engine copy executes one instruction (04 R97 to R101, 06 R145 to R151): budget and fetch checks, retirement,
signature windows, held stores, exceptions and the end of a segment, on every executing channel at once. -/

namespace Sys2Proof.Machine

/-! ## Program versions and the schedule (R44, R172) -/

/-- The version in a bank. -/
def State.bank (s : State) (b : Bool) : Option Program := if b then s.bank1 else s.bank0

/-- Bytes of which bits are inverted as in the word `w`, eight at a time. -/
def xorBytes (w : Word) (l : List Byte) : List Byte :=
  if w = 0 then l else l.zipIdx.map fun p => p.1 ^^^ BitVec.ofNat 8 (w.toNat / 256 ^ (p.2 % 8))

/-- A signal's definition as a loader received it: words 0 to 2 of the entry, and the value. -/
def sigAs (w : Word) (d : SigDef) : SigDef :=
  let b := xorBytes w (leBytes 4 d.w0.toNat ++ leBytes 4 d.w1.toNat ++ leBytes 4 d.w2.toNat)
  let n (o : Nat) : W32 := BitVec.ofNat 32 (leNat (bytesAt b o 4))
  { d with w0 := n 0, w1 := n 4, w2 := n 8, init := xorBytes w d.init }

/-- A slot's definition as a loader received it: word 0 and INSTID. -/
def slotAs (w : Word) (d : SlotDef) : SlotDef :=
  let b := xorBytes w (leBytes 4 d.w0.toNat ++ leBytes 4 d.inst.toNat)
  { d with w0 := BitVec.ofNat 32 (leNat (b.take 4)), inst := BitVec.ofNat 32 (leNat (b.drop 4)) }

/-- A code byte at its address as a loader received it. -/
def codeAs (w : Word) (b : Nat × Byte) : Nat × Byte := (b.1, b.2 ^^^ BitVec.ofNat 8 (w.toNat / 256 ^ (b.1 % 8)))

/-- A version as a loader received it with the bits of `w` inverted (R143, R170): directory entries, slots and code. Of descriptors and sets the spec gives no
bytes, and they are the version's own; what a loader received of them is folded and voted all the same (DESIGN CHOICE, assumption 15). -/
def versionAs (w : Word) (p : Program) : Program :=
  if w = 0 then p else { p with sigs := p.sigs.map (sigAs w), slots := p.slots.map (slotAs w), code := p.code.map (codeAs w) }

/-- The bits that a channel's loader received inverted of the version in a bank. -/
def Chan.rx (c : Chan) (b : Bool) : Word := if b then c.rx1 else c.rx0

/-- Notes them. -/
def Chan.setRx (c : Chan) (b : Bool) (w : Word) : Chan := if b then { c with rx1 := w } else { c with rx0 := w }

/-- The version in a bank as a channel's memory holds it. -/
def State.bankIn (s : State) (c : Chan) (b : Bool) : Option Program := (s.bank b).map (versionAs (c.rx b))

/-- The active version. -/
def State.prog (s : State) : Option Program := s.bank s.act

/-- The shadow version. -/
def State.shadow (s : State) : Option Program := s.bank (!s.act)

/-- The bank a class runs from: the shadow bank once the class has switched, until the exchange ends (R172, R177). -/
def State.bankOf (s : State) (k : Nat) : Bool :=
  s.act ^^ (s.bit R.TASK.XSTAT.SWMASK k && (s.get R.TASK.XSTAT.STATE = 4 || s.get R.TASK.XSTAT.STATE = 5))

/-- The version a class runs. -/
def State.progOf (s : State) (k : Nat) : Option Program := s.bank (s.bankOf k)

/-- The base period in ns of a period code (R27). -/
def periodNs : Nat → Nat
  | 0 => 250000
  | 1 => 500000
  | 2 => 1000000
  | _ => 2000000

/-- The CUT offset in ns of a period code (Table 2-1). -/
def cutOfs : Nat → Nat
  | 0 => 178000
  | 1 => 418000
  | 2 => 898000
  | _ => 1858000

/-- The base period in force in ns. -/
def State.pNs (s : State) : Nat := periodNs (s.get R.GONG.STATUS.APERIOD)

/-- The base period in force in µs. -/
def State.pUs (s : State) : Nat := s.pNs / 1000

/-- Whether a segment lies in frame `f` of the schedule on engine `e`. -/
def segAt (hyper f : Nat) (e : Eng) (g : SegEnt) : Bool := g.frame = f % max hyper 1 && g.eng = e

/-- Enters a segment before the first that starts later. -/
def insertSeg (g : SegEnt × Bool) : List (SegEnt × Bool) → List (SegEnt × Bool)
  | [] => [g]
  | h :: t => if g.1.start < h.1.start then g :: h :: t else h :: insertSeg g t

/-- The segments of frame `f` on engine `e` in version `b`, of the classes that run from it. -/
def State.segsOf (s : State) (f : Nat) (e : Eng) (b : Bool) : List (SegEnt × Bool) :=
  match s.bank b with
  | some p => (p.segs.filter fun g => segAt p.hyper f e g && p.tasks.any fun t => t.id = g.task && s.bankOf t.cls.val = b).map (·, b)
  | none => []

/-- The segments of frame `f` on engine `e`, in schedule order, each with the bank of its version. A class that has switched takes them from
the new version (R177); both versions lie in the same lanes (Table 7-1), and the lanes' start offsets give the order. -/
def State.segs (s : State) (f : Nat) (e : Eng) : List (SegEnt × Bool) :=
  (s.segsOf f e (!s.act)).foldl (fun l g => insertSeg g l) (s.segsOf f e s.act)

/-- Whether segment `n` of a task is its last scheduled one. -/
def lastSeg (p : Program) (t n : Nat) : Bool := p.segs.any fun g => g.task = t && g.seg = n && g.last

/-! ## Delay registers (R141 to R143, R165) -/

/-- The data bits that the delay register of a following channel inverts: none in a sound register. The leading channel has no register. -/
def State.wrongBits (s : State) (ch : Ch) : Word :=
  if ch = s.leadCh then 0
  else match ch with
    | .a => 0
    | .b => s.vote.dregB.wrong
    | .c => s.vote.dregC.wrong

/-- A captured value as a channel receives it. -/
def State.received (s : State) (ch : Ch) (v : Word) : Word := v ^^^ s.wrongBits ch

/-- The stages in use of a channel's delay register: its offset from the leading channel. -/
def State.stagesOf (s : State) : Ch → Nat
  | .a => 0
  | .b => s.get R.VOTE.DELAY.DB
  | .c => s.get R.VOTE.DELAY.DC

/-- Even parity of each byte of a word. -/
def parityOf (v : Word) : Byte :=
  BitVec.ofNat 8 ((List.range 8).foldl (fun n i => n + 2 ^ i * (((List.range 8).filter fun j => v.getLsbD (8 * i + j)).length % 2)) 0)

/-- A delay register of `n` stages in use that carries the value `v`: every stage has held it, with its parity. -/
def Dreg.carry (d : Dreg) (n : Nat) (v : Word) : Dreg := { d with stages := List.replicate n (v ^^^ d.wrong, parityOf (v ^^^ d.wrong)) }

/-- What a delay register delivers; one with no stage in use delivers the captured value `v`. -/
def Dreg.delivers (d : Dreg) (v : Word) : Word := match d.stages.getLast? with
  | some x => x.1
  | none => v

/-- A stage of a delay register has a parity error. -/
def Dreg.parityError (d : Dreg) : Bool := d.stages.any fun x => x.2 != parityOf x.1

/-- The captured value `v` passes through the delay registers: every stage in use has held it, with its parity, when it arrives. -/
def State.distribute (s : State) (v : Word) : State :=
  let pass (ch : Ch) (d : Dreg) : Dreg := d.carry (s.stagesOf ch) v
  { s with vote := { s.vote with capture := v, dregB := pass .b s.vote.dregB, dregC := pass .c s.vote.dregC } }

/-- Resets the stages of a channel's delay register (R158). -/
def State.resetDreg (s : State) : Ch → State
  | .a => s
  | .b => { s with vote := { s.vote with dregB := { s.vote.dregB with stages := [] } } }
  | .c => { s with vote := { s.vote with dregC := { s.vote.dregC with stages := [] } } }

/-! ## Windows (R145, R146) -/

/-- The seed of a window (R145). -/
def winSeed (frame : Nat) (e : Eng) (seq : Nat) : BitVec 128 :=
  BitVec.ofNat 128 (2 ^ 96 * (frame % 2 ^ 32) + 2 ^ 93 * e.val + 2 ^ 80 * (seq % 2 ^ 13))

/-- The window open on a copy, or the one that opens with the next item. -/
def EngC.window (k : EngC) (frame : Nat) (e : Eng) : Win := k.win.getD ⟨k.wseq, winSeed frame e k.wseq, 0, 0⟩

/-- Closes the open window for `reason` (1 store count, 2 commit point, 3 time, 4 CUT), folding the close item last; `extra` counts
the instruction that closes it. With no open window nothing is formed. -/
def EngC.close (k : EngC) (reason extra task : Nat) (exc : Option ExcRec) : EngC × Option Close :=
  match k.win with
  | none => (k, none)
  | some w =>
    ({ k with win := none, wseq := k.wseq + 1 },
     some ⟨w.seq, (misr w.sig (itemClose reason w.n (w.ret + extra))).zeroExtend 640, reason, task, exc⟩)

/-- Whether an item counts towards the 256 of a window: tags 1 to 3. -/
def counted (i : BitVec 128) : Bool :=
  let t := i.toNat / 2 ^ 124
  t = 1 || t = 2 || t = 3

/-- Folds one item; the 256th counted item closes the window. -/
def EngC.fold (k : EngC) (frame : Nat) (e : Eng) (task : Nat) (i : BitVec 128) : EngC × Option Close :=
  let w := k.window frame e
  let w := { w with sig := misr w.sig i, n := w.n + b2n (counted i) }
  let k := { k with win := some w }
  if w.n = 256 ∧ counted i then k.close 1 1 task none else (k, none)

/-- Folds items in order. -/
def EngC.foldAll (k : EngC) (frame : Nat) (e : Eng) (task : Nat) : List (BitVec 128) → EngC × List Close
  | [] => (k, [])
  | i :: is =>
    let (k1, c) := k.fold frame e task i
    let (k2, cs) := EngC.foldAll k1 frame e task is
    (k2, c.toList ++ cs)

/-- Counts a retired instruction in the open window. -/
def EngC.count (k : EngC) : EngC := { k with win := k.win.map fun w => { w with ret := w.ret + 1 } }

/-! ## One copy -/

/-- The copy with its instance discarded: it halts and drops the instance's held stores (R48, R99). -/
def EngC.drop (k : EngC) (task : Nat) : EngC :=
  { k with run := none, stall := none, cbuf := k.cbuf.filter fun c => c.task != task }

/-- Raises an exception on a copy (R99 to R101): the item is folded, the window closes, the instance is discarded. -/
def Chan.except (c : Chan) (e : Eng) (frame task code info : Nat) : Chan × List Close :=
  let k := c.eng[e]
  let r : ExcRec := ⟨code, k.x.cls, e.val, fieldOf k.x.st 20 8, k.x.pc, frame, info⟩
  let (k1, c1) := k.fold frame e task (itemExc code k.x.pc)
  let (k2, c2) := k1.close 2 0 task (some r)
  ({ c with eng := c.eng.set e (k2.drop task), insts := tblDel c.insts task }, c1.toList ++ c2.toList)

/-- Retires an instruction with its work on a copy (R97, R145, R150): items folded, the store held in its window, the budget and
the instance advanced, the segment or the instance ended. -/
def Chan.retire (c : Chan) (e : Eng) (frame cyc task : Nat) (w : Work) : Chan × List Close :=
  let k := c.eng[e]
  let (k1, c1) := k.foldAll frame e task w.items
  let held := w.held.map fun h => { h with win := (k.window frame e).seq, frame := frame }
  let cbuf := k1.cbuf ++ held
  let k2 := { k1.count with x := w.x, bud := k1.bud - 1, cyc := k1.cyc + cyc, cbuf := cbuf, peak := max k1.peak cbuf.length }
  let (k3, c2) := if w.point then k2.close 2 0 task none else (k2, none)
  let ends := w.segEnd || w.instEnd
  let inst := if ends then { w.inst with ctx := if w.instEnd then none else some w.x, ended := w.instEnd, fin := true } else w.inst
  let k4 := if ends then { k3 with run := none } else k3
  ({ c with eng := c.eng.set e k4, insts := tblPut c.insts task inst }, c1 ++ c2.toList)

/-- Executes an instruction of `n` bytes and `cyc` cycles on engine `e` of one channel. A halted or waiting copy executes
nothing. The checks are those of R98 in order: budget, fetch, encoding (`legal`), then the instruction's own. For 0x02 the record's address is 0:
the spec does not say whether the address of the fetch, which the PC gives, is the address concerned (DESIGN CHOICE, assumption 33). A
store that finds the commit buffer full waits (R151). -/
def Chan.step (c : Chan) (s : State) (e : Eng) (legal : Bool) (n cyc : Nat) (shared : Word) (op : Op) : Chan × List Close :=
  let k := c.eng[e]
  match k.run with
  | none => (c, [])
  | some task =>
    if k.stall.isSome then (c, []) else
    match tblFind c.insts task with
    | none => (c, [])
    | some i =>
      match s.bankIn c i.bank with
      | none => (c, [])
      | some p =>
        let env : Env := ⟨e, s.pNs, p, lastSeg p task i.seg, c, shared⟩
        let exc (code info : Nat) := c.except e s.gong.frame task code info
        if k.bud = 0 then exc 0x01 0
        else if !env.inUnit k.x k.x.pc.toNat n then exc 0x02 0
        else if !legal then exc 0x03 0
        else match op env ⟨k.x, i, [], [], false, false, false⟩ with
          | .error (code, info) => exc code info
          | .ok w =>
            if w.held ≠ [] ∧ 4096 ≤ k.cbuf.length then
              ({ c with eng := c.eng.set e { k with stall := some .bufferFull } }, [])
            else c.retire e s.gong.frame cyc task w

/-! ## Every executing channel -/

/-- The votes that closes on engine `e` ask for: the first closes of the copies form one vote, the second ones another. -/
def groupsOf (path : Nat) (a b c : List Close) : List VGroup :=
  (List.range (max a.length (max b.length c.length))).map fun i => ⟨path, (a.drop i).head?, (b.drop i).head?, (c.drop i).head?⟩

/-- Applies a step of engine `e` to every executing channel and queues the votes its closes ask for (R147, R148). -/
def State.onEngine (s : State) (e : Eng) (f : Ch → Chan → Chan × List Close) : State :=
  let run (ch : Ch) := if s.executing ch then f ch (s.ch ch) else (s.ch ch, [])
  let a := run .a
  let b := run .b
  let c := run .c
  let s1 := { s with chA := a.1, chB := b.1, chC := c.1 }
  { s1 with vote := { s1.vote with groups := s1.vote.groups ++ groupsOf e.val a.2 b.2 c.2 } }

/-- Executes an instruction on every executing copy of engine `e`. `shared` is the value a distributed read captured; each copy receives it after
its own delay register (R143). -/
def State.osrus (s : State) (e : Eng) (legal : Bool) (n cyc : Nat) (op : Op) (shared : Word := 0) : State :=
  s.onEngine e fun ch c => c.step s e legal n cyc (s.received ch shared) op

end Sys2Proof.Machine
end

