-- ==== Sys2Proof/Machine/Image.lean ====
section
/-! DEFINITION. The process image (03): updates by the homes (R59, R63, R68, R144), freshness (R69, R70), forces as readers see
them (R72 to R75) and snapshots (R62). -/

namespace Sys2Proof.Machine

/-! ## Quality (Table 3-6) -/

/-- What the source of an update declares: good, come through a safety path, a substitute. -/
structure Src where
  good : Bool
  safe : Bool
  subst : Bool
  deriving DecidableEq, Repr

/-- Word 3 with STAMP and QUAL. -/
def word3 (stamp : Nat) (q : Nat) : W32 := BitVec.ofNat 32 (stamp % 2 ^ 24 * 256 + q % 64)

/-- The FORCED bit of an entry. -/
def DirEnt.forced (e : DirEnt) : Bool := fieldOf e.w3 1 1 = 1

/-- The quality of an update (Table 3-6): VALID unless substituted, SAFE for a safety class through a safety path, FORCED kept;
STALE and INIT cleared. -/
def updQual (e : DirEnt) (src : Src) : Nat :=
  let valid := src.good && !src.subst
  b2n valid + 2 * b2n e.forced + 4 * b2n src.subst + 16 * b2n (valid && src.safe && e.sclass != 0)

/-- One update of a signal (R59): value, STAMP and quality. -/
def DirEnt.update (e : DirEnt) (frame : Nat) (val : List Byte) (src : Src) : DirEnt :=
  { e with val := val, w3 := word3 frame (updQual e src) }

/-- Sets STALE, clearing VALID and SAFE; STAMP is kept (R69). -/
def DirEnt.setStale (e : DirEnt) : DirEnt :=
  { e with w3 := word3 e.stamp (e.qual.toNat &&& 0x26 ||| 8) }

/-- Sets or clears FORCED. -/
def DirEnt.setForced (e : DirEnt) (b : Bool) : DirEnt := { e with w3 := withField e.w3 1 1 (b2n b) }

/-! ## Updates through the input distributor (R144) -/

/-- A channel takes updates: it executes, or it follows the committed state after its bulk copy (R158). -/
def State.follows (s : State) (ch : Ch) : Bool :=
  s.executing ch || (s.chst ch = 2 && (s.chRec ch).bulkK.isSome)

/-- The input signature with one more item; it is seeded like a window of no engine (R145, assumption 6). -/
def Chan.foldInput (c : Chan) (frame : Nat) (i : BitVec 128) : Chan :=
  { c with insig := some (misr (c.insig.getD (winSeed frame 0 0)) i) }

/-- The update of signal `id` in one channel. -/
def Chan.input (c : Chan) (frame id : Nat) (val : List Byte) (src : Src) : Chan :=
  match tblFind c.dir id with
  | none => c
  | some e =>
    let e1 := e.update frame val src
    { c with dir := tblPut c.dir id e1 }.foldInput frame (itemInput e1.qual id val)

/-- Bytes as a channel receives them through its delay register, eight at a time (R143, R144). -/
def State.receivedBytes (s : State) (ch : Ch) (l : List Byte) : List Byte :=
  xorBytes (s.wrongBits ch) l

/-- Word 3 and value of a signal as a loader receives them, in the form of a retain body entry: the tag, whose word 1 is word 3, then the value (R193,
R207). -/
def receivedSig (rx : List Byte → List Byte) (id : Nat) (w3 : W32) (v : List Byte) : W32 × List Byte :=
  let b := rx (leBytes 4 id ++ leBytes 4 w3.toNat ++ v)
  (BitVec.ofNat 32 (leNat (bytesAt b 4 4)), b.drop 8)

/-- A directory entry with its value as a loader receives it (Table 3-1, R170). -/
def receivedDirent (rx : List Byte → List Byte) (e : DirEnt) : DirEnt :=
  let b := rx ((leBytes 4 e.w0.toNat ++ leBytes 4 e.w1.toNat ++ leBytes 4 e.w2.toNat ++ leBytes 4 e.w3.toNat) ++ e.val)
  let n (o : Nat) : W32 := BitVec.ofNat 32 (leNat (bytesAt b o 4))
  ⟨n 0, n 4, n 8, n 12, b.drop 16⟩

/-- The last update of BATSIG is kept for R342. -/
def State.noteBattery (s : State) (id : Nat) (val : List Byte) (src : Src) : State :=
  if id ≠ 0 ∧ s.get R.UPD.CFG.BATSIG = id then { s with upd := { s.upd with bat := some (decide (leNat val % 2 = 1), src.good && !src.subst) } } else s

/-- The update of signal `id` in every channel that takes updates, each after its own delay register; one of HOME 4 or 5 goes with the next
copy (R207). -/
def State.input (s : State) (id : Nat) (val : List Byte) (src : Src) : State :=
  let s1 := (s.noteBattery id val src).eachCh s.follows fun ch c => c.input s.gong.frame id (s.receivedBytes ch val) src
  match tblFind (s.ch s.leadCh).dir id with
  | some e =>
    if (e.home = 4 || e.home = 5) && !s.pair.touched.contains id then { s1 with pair := { s1.pair with touched := id :: s1.pair.touched } }
    else s1
  | none => s1

/-- Updates every signal of a home whose HREF is `href` with the value `v` in its type's stored form. -/
def State.inputItem (s : State) (home href : Nat) (v : Nat) (src : Src) : State :=
  (s.ch s.leadCh).dir.foldl (fun t p =>
    if p.2.type != 0 && p.2.home = home && p.2.href = href then t.input p.1 (leBytes p.2.size v) src else t) s

/-! ## Forces (R72, R75) -/

/-- The force in effect on a signal. -/
def State.forceOf (s : State) (id : Nat) : Option ForceEnt := s.forces.find? fun f => f.id = id

/-- A signal as readers and sinks see it: its value and quality, or the forced value with FORCED and VALID, and SAFE for a safety
class (R75). -/
def seen (forces : List ForceEnt) (id : Nat) (e : DirEnt) : Snap :=
  match forces.find? fun f => f.id = id with
  | some f => ⟨BitVec.ofNat 6 (3 + 16 * b2n (e.sclass != 0)), leBytes e.size f.val.toNat⟩
  | none => ⟨e.qual, e.val⟩

/-! ## Freshness (R69) -/

/-- A freshness check at frame `f` finds the age above the limit. -/
def DirEnt.tooOld (e : DirEnt) (f pNs : Nat) : Bool :=
  e.fresh != 0 &&
    (let age := (f + 2 ^ 24 - e.stamp) % 2 ^ 24 * pNs
     let limit := min (e.fresh * e.funit) (2 ^ 20 * pNs)
     limit < age)

/-- The freshness check of one signal in every channel that takes updates; a transition of STALE from 0 to 1 in the leading channel
is counted and flagged (Tables 3-12, 3-14). -/
def State.freshCheck (s : State) (id : Nat) : State :=
  let check (c : Chan) : Chan :=
    match tblFind c.dir id with
    | some e => if e.type != 0 && e.tooOld s.gong.frame s.pNs then { c with dir := tblPut c.dir id e.setStale } else c
    | none => c
  let was := match tblFind (s.ch s.leadCh).dir id with
    | some e => e.type != 0 && e.tooOld s.gong.frame s.pNs && fieldOf e.w3 3 1 = 0
    | none => false
  let s1 := s.mapCh s.follows check
  if was then (s1.incSat R.SIG.STALECNT.COUNT).flag R.SIG.FLAG.STALE else s1

/-! ## Snapshots (R62) -/

/-- The value of a signal where its bytes live: a HOME 4 value is in the backplane exchange area at VALOFS (R144). -/
def State.valueOf (s : State) (e : DirEnt) : List Byte :=
  if e.home = 4 then memBytes s.smem (0x180000000 + e.w1.toNat) e.size else e.val

/-- The value of a signal as a channel gets it: a HOME 4 value by a distributed read, after the channel's own delay register (R144). -/
def State.valueIn (s : State) (ch : Ch) (e : DirEnt) : List Byte :=
  if e.home = 4 then s.receivedBytes ch (s.valueOf e) else e.val

/-- The snapshot of a class in a channel: every signal of its read set, and of its write set for R124, as readers see it. -/
def State.snapshot (s : State) (ch : Ch) (c : Chan) (p : Program) (k : Nat) : Tbl Snap :=
  tblOf ((p.reads.getD k [] ++ p.writes.getD k []).filterMap fun id =>
    match tblFind c.dir id with
    | some e => some (id, seen s.forces id { e with val := s.valueIn ch e })
    | none => none)

/-- The distributed reads of a class's copy-in pass the capture stage and the delay registers, 8 bytes at a time (R142 to R144). -/
def State.readHome4 (s : State) (p : Program) (k : Nat) : State :=
  (p.reads.getD k []).foldl (fun t id => match tblFind (t.ch t.leadCh).dir id with
    | some e =>
      if e.home = 4 then
        let v := t.valueOf e
        (List.range ((v.length + 7) / 8)).foldl (fun u j => u.distribute (getChunk v v.length j)) t
      else t
    | none => t) s

end Sys2Proof.Machine
end

