-- ==== Sys2Proof/Machine/Signals.lean ====
section
/-! DEFINITION. The directory sweep, force commands and the force table (03, R69 to R76), and the steward's signals (R59, R260). -/

namespace Sys2Proof.Machine

/-- DIRECTORY_SWEEP: one entry is visited; STALE where its age exceeds the limit. Ages count in frames, so the sweep acts while the
Gong counts them. -/
def execDirectorySweep (id : Nat) (s : State) : Host.Outcome State Fault Refusal :=
  s.whilePowered (if s.get R.GONG.STATUS.ALIGNED = 1 then s.freshCheck id else s)

/-! ## Forces -/

/-- Applies a command to a force table: a SET of a forced signal replaces its value in place, a new one goes to the end (R72). Of a CLEAR (or
CLEARALL) and a SET of one signal before one tick both act in order, so that the entry moves to the end: the spec has the last of them decide
and leaves open whether the entry keeps its place (DESIGN CHOICE, assumption 33). -/
def forceApply (frame : W32) (t : List ForceEnt) : ForceCmd → List ForceEnt
  | .set id v => if t.any (fun f => f.id = id) then t.map (fun f => if f.id = id then ⟨id, frame, v⟩ else f) else t ++ [⟨id, frame, v⟩]
  | .clear id => t.filter fun f => f.id != id
  | .clearAll => []

/-- The force table as the commands accepted but not yet in effect will leave it (R74). -/
def State.forcesAfter (s : State) : List ForceEnt := s.fcmds.foldl (forceApply 0) s.forces

/-- Writes the FORCED bit of directory entries as a force table has it. -/
def Chan.markForced (c : Chan) (ids : List Nat) (b : Bool) : Chan :=
  { c with dir := ids.foldl (fun d id => tblMod d id (·.setForced b)) c.dir }

/-- Replaces the force table: signals that leave it lose FORCED, those in it have it. -/
def State.setForces (s : State) (t : List ForceEnt) : State :=
  let gone := (s.forces.map (·.id)).filter fun id => !t.any fun f => f.id = id
  let s1 := s.mapCh s.follows fun c => (c.markForced gone false).markForced (t.map (·.id)) true
  { s1 with forces := t }

/-- Accepted commands take effect at a tick edge (R74), with the frame number of that tick. -/
def State.forceTick (s : State) : State :=
  if s.fcmds = [] then s
  else { s.setForces (s.fcmds.foldl (forceApply (BitVec.ofNat 32 s.gong.frame)) s.forces) with fcmds := [] }

/-- Removes forces for good (R76, R183): FDROP is set and a record written for each. -/
def State.dropForces (s : State) (ids : List Nat) : State :=
  let gone := (s.forces.map (·.id)).filter fun id => ids.contains id
  if gone = [] then s
  else
    let s1 := (s.setForces (s.forces.filter fun f => !ids.contains f.id)).flag R.SIG.FLAG.FDROP
    gone.foldl (fun t id => t.fumarole 0x0C 0x03 0 (leBytes 4 id)) s1

/-- The directory entry of a signal in the leading channel. -/
def State.dirEnt (s : State) (id : Nat) : Option DirEnt := tblFind (s.ch s.leadCh).dir id

/-- The outcome of SET (Table 3-9). -/
def State.setWhy (s : State) (id : Nat) : Nat :=
  let undefined := match s.dirEnt id with
    | some e => e.type = 0
    | none => true
  let isBytes := match s.dirEnt id with
    | some e => e.isBytes
    | none => false
  let sil := match s.dirEnt id with
    | some e => decide (1 ≤ e.sclass) && decide (e.sclass ≤ 4)
    | none => false
  let t := s.forcesAfter
  firstReason [(2, undefined), (3, isBytes), (4, !(t.any fun f => f.id = id) && decide (1024 ≤ t.length)),
    (5, sil && !s.depot), (7, !s.initOrRun)]

/-- A force command (R73). -/
def State.force (s : State) (r : Req) (code why : Nat) (c : ForceCmd) : State :=
  s.command r R.SIG.FCMD.CODE R.SIG.FCMDCNT.COUNT R.SIG.FREASON.CODE code why fun t => { t with fcmds := t.fcmds ++ [c] }

/-- FORCE_SET: forces SIG.FSIG to SIG.FVAL from the next tick. -/
def execForceSet (r : Req) (s : State) : Host.Outcome State Fault Refusal :=
  let id := s.get R.SIG.FSIG.SIGID
  s.whilePowered (s.force r 1 (s.setWhy id) (.set id (BitVec.ofNat 64 (s.getPair R.SIG.FVAL_LO.VAL R.SIG.FVAL_HI.VAL))))

/-- FORCE_CLEAR. -/
def execForceClear (r : Req) (s : State) : Host.Outcome State Fault Refusal :=
  let id := s.get R.SIG.FSIG.SIGID
  s.whilePowered (s.force r 2 (firstReason [(6, !(s.forcesAfter.any fun f => f.id = id)), (7, !s.initOrRun)]) (.clear id))

/-- FORCE_CLEARALL. -/
def execForceClearall (r : Req) (s : State) : Host.Outcome State Fault Refusal :=
  s.whilePowered (s.force r 3 (firstReason [(7, !s.initOrRun)]) .clearAll)

/-- What a write of raw bytes stores in a signal: as many as its size, and of a BOOL bit 0 only (Table 3-2). -/
def DirEnt.stores (e : DirEnt) (v : List Byte) : List Byte :=
  if e.type = 1 then [BitVec.ofNat 8 (leNat (bytesAt v 0 1) % 2)] else bytesAt v 0 e.size

/-- `n` more bytes of HOME 5 updates would exceed 16 KiB per ms of base period in this frame (R196). -/
def State.home5Full (s : State) (n : Nat) : Bool := decide (16384 * s.pUs < 1000 * (s.pair.home5 + n))

/-- Counts bytes of HOME 5 updates. -/
def State.countHome5 (s : State) (n : Nat) : State := { s with pair := { s.pair with home5 := s.pair.home5 + n } }

/-- STEWARD_SIGNAL_WRITE: the steward writes a signal of HOME 5 (R59, R260), within the rate it keeps to (R196; assumption 33). -/
def execStewardSignalWrite (id : Nat) (value : List Byte) (s : State) : Host.Outcome State Fault Refusal :=
  s.whilePowered (match s.dirEnt id with
    | some e =>
      if e.type != 0 && e.home = 5 && !s.home5Full e.size then (s.countHome5 e.size).input id (e.stores value) ⟨true, false, false⟩ else s
    | none => s)

end Sys2Proof.Machine
end

