-- ==== Sys2Proof/Machine/Flags.lean ====
section
/-! DEFINITION. Every flag and value computation of the arithmetic instructions: the integer results of Table 5-2, the compare
relations of R116, and the IEEE 754-2019 operations of R132 and R133 with the sticky flags ST.FX. -/

namespace Sys2Proof.Machine

/-! ## Integer (R112, R113, R116) -/

/-- High 64 bits of the signed product. -/
def mulHigh (a b : Word) : Word := BitVec.ofInt 64 ((a.toInt * b.toInt) / 2 ^ 64)

/-- High 64 bits of the unsigned product. -/
def mulHighU (a b : Word) : Word := BitVec.ofNat 64 (a.toNat * b.toNat / 2 ^ 64)

/-- Signed quotient, truncated toward zero; −2^63 by −1 wraps (R113). -/
def divS (a b : Word) : Word := BitVec.ofInt 64 (a.toInt.tdiv b.toInt)

/-- Signed remainder, sign of the dividend. -/
def remS (a b : Word) : Word := BitVec.ofInt 64 (a.toInt.tmod b.toInt)

/-- Unsigned quotient. -/
def divU (a b : Word) : Word := BitVec.ofNat 64 (a.toNat / b.toNat)

/-- Unsigned remainder. -/
def remU (a b : Word) : Word := BitVec.ofNat 64 (a.toNat % b.toNat)

/-- Signed less than. -/
def ltS (a b : Word) : Bool := decide (a.toInt < b.toInt)

/-- Unsigned less than. -/
def ltU (a b : Word) : Bool := decide (a.toNat < b.toNat)

/-- A shift of kind 0 SLL, 1 SRL, 2 SRA by `n`. -/
def shiftBy (kind : Nat) (a : Word) (n : Nat) : Word :=
  match kind with
  | 0 => a <<< n
  | 1 => a >>> n
  | _ => a.sshiftRight n

/-- The width of a size code of SEXT and ZEXT: 0 byte, 1 half-word, 2 word. -/
def sizeBits (c : Nat) : Nat := 8 * 2 ^ c

/-- sext or zext of the low bits. -/
def extend (signed : Bool) (bits : Nat) (v : Nat) : Word :=
  if signed then (BitVec.ofNat bits v).signExtend 64 else (BitVec.ofNat bits v).zeroExtend 64

/-- The relations of CMP and CMPI (R116). -/
def relation (rel : BitVec 3) (a b : Word) : Bool :=
  match rel.toNat with
  | 0 => a == b
  | 1 => a != b
  | 2 => ltS a b
  | 3 => !ltS b a
  | 4 => ltS b a
  | 5 => !ltS a b
  | 6 => ltU a b
  | _ => !ltU a b

/-! ## IEEE 754-2019 binary32 and binary64 (R132, R133) -/

/-- A binary format: precision in bits, width of the exponent field. -/
structure Fmt where
  p : Nat
  ew : Nat
  deriving DecidableEq, Repr

/-- binary32. -/
def binary32 : Fmt := ⟨24, 8⟩
/-- binary64. -/
def binary64 : Fmt := ⟨53, 11⟩
/-- The format D selects. -/
def fmtOf (d : Bool) : Fmt := if d then binary64 else binary32
/-- The width of a format. -/
def Fmt.width (f : Fmt) : Nat := f.p + f.ew
/-- The largest exponent of a finite value, as the exponent of its leading bit. -/
def Fmt.emax (f : Fmt) : Nat := 2 ^ (f.ew - 1) - 1
/-- The exponent of the least significant bit of subnormals. -/
def Fmt.qmin (f : Fmt) : Int := 2 - (f.emax : Int) - f.p
/-- The sign bit's weight. -/
def Fmt.signBit (f : Fmt) : Nat := 2 ^ (f.p + f.ew - 1)
/-- The default NaN. -/
def Fmt.nan (f : Fmt) : Nat := (2 ^ f.ew - 1) * 2 ^ (f.p - 1) + 2 ^ (f.p - 2)
/-- Infinity of a sign. -/
def Fmt.inf (f : Fmt) (neg : Bool) : Nat := b2n neg * f.signBit + (2 ^ f.ew - 1) * 2 ^ (f.p - 1)
/-- The largest finite value of a sign. -/
def Fmt.maxFin (f : Fmt) (neg : Bool) : Nat := f.inf neg - 1
/-- Zero of a sign. -/
def Fmt.zero (f : Fmt) (neg : Bool) : Nat := b2n neg * f.signBit

/-- A float's value: a finite value is (−1)^neg · m · 2^q. -/
inductive FVal where
  | nan (quiet : Bool) (payload : Nat) (neg : Bool)
  | inf (neg : Bool)
  | fin (neg : Bool) (m : Nat) (q : Int)
  deriving DecidableEq, Repr

/-- The value of an encoding. -/
def Fmt.decode (f : Fmt) (v : Nat) : FVal :=
  let neg := v / f.signBit % 2 = 1
  let ex := v / 2 ^ (f.p - 1) % 2 ^ f.ew
  let fr := v % 2 ^ (f.p - 1)
  if ex = 2 ^ f.ew - 1 then
    if fr = 0 then .inf neg else .nan (fr / 2 ^ (f.p - 2) % 2 = 1) (fr % 2 ^ (f.p - 2)) neg
  else if ex = 0 then .fin neg fr f.qmin
  else .fin neg (2 ^ (f.p - 1) + fr) (f.qmin + (ex - 1 : Nat))

/-- The flags of ST.FX, bit 0 inexact, 1 underflow, 2 overflow, 3 division by zero, 4 invalid. -/
def fxInexact : Nat := 1
/-- Underflow. -/
def fxUnderflow : Nat := 2
/-- Overflow. -/
def fxOverflow : Nat := 4
/-- Division by zero. -/
def fxDivZero : Nat := 8
/-- Invalid. -/
def fxInvalid : Nat := 16

/-- Whether a truncated magnitude rounds up in mode `rm`: `half` compares the remainder with half a unit (0 below, 1 equal,
2 above), `inx` says it is not zero. -/
def roundsUp (rm : Nat) (neg odd inx : Bool) (half : Nat) : Bool :=
  match rm with
  | 0 => half = 2 || (half = 1 && odd)
  | 1 => false
  | 2 => inx && !neg
  | _ => inx && neg

/-- m · 2^q (with `sticky` for a discarded non-zero remainder below m's unit) to a multiple of 2^u in mode `rm`: the multiple
and whether it is inexact. -/
def roundAt (rm : Nat) (neg : Bool) (m : Nat) (q u : Int) (sticky : Bool) : Nat × Bool :=
  if q ≥ u then (m * 2 ^ (q - u).toNat, sticky)
  else
    let d := (u - q).toNat
    let n := m / 2 ^ d
    let r := 2 * (m % 2 ^ d) + b2n sticky
    let half := if r < 2 ^ d then 0 else if r = 2 ^ d then 1 else 2
    let inx := r != 0
    (n + b2n (roundsUp rm neg (n % 2 = 1) inx half), inx)

/-- The encoding of (−1)^neg · m · 2^q rounded to a format, with its flags (R132). -/
def Fmt.round (f : Fmt) (rm : Nat) (neg : Bool) (m : Nat) (q : Int) (sticky : Bool) : Nat × Nat :=
  if m = 0 ∧ !sticky then (f.zero neg, 0) else
  let top : Int := q + Nat.log2 m
  let u := max f.qmin (top - (f.p - 1 : Nat))
  let (n, inx) := roundAt rm neg m q u sticky
  let (n, u) := if n = 2 ^ f.p then (2 ^ (f.p - 1), u + 1) else (n, u)
  let emaxQ : Int := (f.emax : Int) - (f.p - 1 : Nat)
  if u > emaxQ then
    let toInf := rm = 0 || (rm = 2 && !neg) || (rm = 3 && neg)
    ((if toInf then f.inf neg else f.maxFin neg), fxOverflow + fxInexact)
  else
    let minNormal : Int := f.qmin + (f.p - 1 : Nat)
    let before := top < minNormal
    let after := before &&
      (let (n', _) := roundAt rm neg m q (top - (f.p - 1 : Nat)) sticky
       top < minNormal - 1 || n' < 2 ^ f.p)
    let tiny := if Config.tinyAfterRounding then after else before
    let ex := if n < 2 ^ (f.p - 1) then 0 else (u - f.qmin).toNat + 1
    (b2n neg * f.signBit + ex * 2 ^ (f.p - 1) + n % 2 ^ (f.p - 1),
      b2n inx * fxInexact + b2n (tiny && inx) * fxUnderflow)

/-- A NaN operand made quiet, in its own format. -/
def Fmt.quiet (f : Fmt) (payload : Nat) (neg : Bool) : Nat := b2n neg * f.signBit + f.nan + payload

/-- The result of an operation with a NaN operand: the first NaN operand, made quiet; invalid for a signalling one. -/
def Fmt.nanOf (f : Fmt) (a b : FVal) : Option (Nat × Nat) :=
  let sig (v : FVal) : Bool := match v with | .nan q _ _ => !q | _ => false
  let fl := if sig a || sig b then fxInvalid else 0
  match a, b with
  | .nan _ p n, _ => some (f.quiet p n, fl)
  | _, .nan _ p n => some (f.quiet p n, fl)
  | _, _ => none

/-- The invalid operation's default result. -/
def Fmt.invalid (f : Fmt) : Nat × Nat := (f.nan, fxInvalid)

/-- A magnitude with sign as an integer. -/
def signed (neg : Bool) (m : Nat) : Int := if neg then -(m : Int) else m

/-- Addition; `sub` negates the second operand's value. -/
def Fmt.add (f : Fmt) (rm : Nat) (sub : Bool) (x y : Nat) : Nat × Nat :=
  let a := f.decode x
  let b := f.decode y
  match f.nanOf a b with
  | some r => r
  | none =>
    match a, b with
    | .inf s, .inf t => if s = (t ^^ sub) then (f.inf s, 0) else f.invalid
    | .inf s, _ => (f.inf s, 0)
    | _, .inf t => (f.inf (t ^^ sub), 0)
    | .fin s m q, .fin t n r =>
      let t := t ^^ sub
      let u := min q r
      let v := signed s (m * 2 ^ (q - u).toNat) + signed t (n * 2 ^ (r - u).toNat)
      if v = 0 then (f.zero (if s = t then s else rm = 3), 0)
      else f.round rm (v < 0) v.natAbs u false
    | _, _ => f.invalid

/-- Multiplication. -/
def Fmt.mul (f : Fmt) (rm : Nat) (x y : Nat) : Nat × Nat :=
  let a := f.decode x
  let b := f.decode y
  match f.nanOf a b with
  | some r => r
  | none =>
    match a, b with
    | .inf s, .inf t => (f.inf (s ^^ t), 0)
    | .inf s, .fin t n _ => if n = 0 then f.invalid else (f.inf (s ^^ t), 0)
    | .fin s m _, .inf t => if m = 0 then f.invalid else (f.inf (s ^^ t), 0)
    | .fin s m q, .fin t n r => f.round rm (s ^^ t) (m * n) (q + r) false
    | _, _ => f.invalid

/-- Division. -/
def Fmt.div (f : Fmt) (rm : Nat) (x y : Nat) : Nat × Nat :=
  let a := f.decode x
  let b := f.decode y
  match f.nanOf a b with
  | some r => r
  | none =>
    match a, b with
    | .inf _, .inf _ => f.invalid
    | .inf s, .fin t _ _ => (f.inf (s ^^ t), 0)
    | .fin s _ _, .inf t => (f.zero (s ^^ t), 0)
    | .fin s m q, .fin t n r =>
      if n = 0 then (if m = 0 then f.invalid else (f.inf (s ^^ t), fxDivZero))
      else if m = 0 then (f.zero (s ^^ t), 0)
      else
        let k := 2 * f.p + 2
        f.round rm (s ^^ t) (m * 2 ^ k / n) (q - r - k) (m * 2 ^ k % n != 0)
    | _, _ => f.invalid

/-- The integer square root by `n` bits, from the highest: the root found so far is `r`. -/
def isqrtBits (v : Nat) : Nat → Nat → Nat
  | 0, r => r
  | n + 1, r =>
    let t := r + 2 ^ n
    isqrtBits v n (if t * t ≤ v then t else r)

/-- Square root. -/
def Fmt.sqrt (f : Fmt) (rm : Nat) (x : Nat) : Nat × Nat :=
  let a := f.decode x
  match f.nanOf a a with
  | some r => r
  | none =>
    match a with
    | .inf false => (f.inf false, 0)
    | .fin s m q =>
      if m = 0 then (f.zero s, 0)
      else if s then f.invalid
      else
        let k := 2 * f.p + 4 + ((q - (2 * f.p + 4 : Nat)) % 2).toNat
        let v := m * 2 ^ k
        let r := isqrtBits v (2 * f.p + 4) 0
        f.round rm false r ((q - k) / 2) (r * r != v)
    | _ => f.invalid

/-- The order of two values that are not NaN: −1, 0 or 1; zeros of either sign are equal. -/
def cmpF (a b : FVal) : Int :=
  match a, b with
  | .inf s, .inf t => if s = t then 0 else if s then -1 else 1
  | .inf s, _ => if s then -1 else 1
  | _, .inf t => if t then 1 else -1
  | .fin s m q, .fin t n r =>
    let u := min q r
    (signed s (m * 2 ^ (q - u).toNat) - signed t (n * 2 ^ (r - u).toNat)).sign
  | _, _ => 0

/-- Whether a value is a NaN. -/
def FVal.isNan : FVal → Bool
  | .nan _ _ _ => true
  | _ => false

/-- Whether a value is a signalling NaN. -/
def FVal.isSnan : FVal → Bool
  | .nan q _ _ => !q
  | _ => false

/-- Whether the sign of a value is negative. -/
def FVal.neg : FVal → Bool
  | .nan _ _ n => n
  | .inf n => n
  | .fin n _ _ => n

/-- minimumNumber and maximumNumber: a NaN gives way to a number, −0 is below +0 (Table 5-10, assumption 7). -/
def Fmt.minMax (f : Fmt) (isMax : Bool) (x y : Nat) : Nat × Nat :=
  let a := f.decode x
  let b := f.decode y
  let fl := if a.isSnan || b.isSnan then fxInvalid else 0
  let v :=
    match a.isNan, b.isNan with
    | true, true => match f.nanOf a b with | some r => r.1 | none => f.nan
    | true, false => y
    | false, true => x
    | false, false =>
      let c := cmpF a b
      let below := c < 0 || (c = 0 && a.neg && !b.neg)
      if isMax then (if below then y else x) else (if below then x else if c = 0 && !(b.neg && !a.neg) then x else y)
  (v, fl)

/-- The relations of FCMP (R133): the truth and the flags. -/
def Fmt.cmp (f : Fmt) (rel : Nat) (x y : Nat) : Bool × Nat :=
  let a := f.decode x
  let b := f.decode y
  let un := a.isNan || b.isNan
  let c := cmpF a b
  let truth :=
    match rel with
    | 0 => !un && c = 0
    | 1 => un || c != 0
    | 2 => !un && c < 0
    | 3 => !un && c ≤ 0
    | 4 => !un && c > 0
    | 5 => !un && c ≥ 0
    | 6 => un
    | _ => !un
  let inv := if 2 ≤ rel ∧ rel ≤ 5 then un else a.isSnan || b.isSnan
  (truth, if inv then fxInvalid else 0)

/-- Float to INT64, rounded by RM (Table 5-10); a value in range that rounding changes is inexact (DESIGN CHOICE, assumption 7: IEEE 754-2019 has
conversions of either kind). -/
def Fmt.toInt (f : Fmt) (rm : Nat) (x : Nat) : Word × Nat :=
  match f.decode x with
  | .nan _ _ _ => (0, fxInvalid)
  | .inf s => (if s then BitVec.intMin 64 else BitVec.intMax 64, fxInvalid)
  | .fin s m q =>
    let (n, inx) := roundAt rm s m q 0 false
    let v := signed s n
    if v > 2 ^ 63 - 1 then (BitVec.intMax 64, fxInvalid)
    else if v < -(2 ^ 63) then (BitVec.intMin 64, fxInvalid)
    else (BitVec.ofInt 64 v, b2n inx * fxInexact)

/-- INT64 to float, rounded by RM. -/
def Fmt.ofInt (f : Fmt) (rm : Nat) (v : Word) : Nat × Nat :=
  f.round rm (v.toInt < 0) v.toInt.natAbs 0 false

/-- Between formats; a NaN is made quiet and keeps the leading bits of its payload (assumption 7). -/
def Fmt.convert (f g : Fmt) (rm : Nat) (x : Nat) : Nat × Nat :=
  match f.decode x with
  | .nan q p n =>
    let p' := if f.p ≤ g.p then p * 2 ^ (g.p - f.p) else p / 2 ^ (f.p - g.p)
    (g.quiet p' n, if q then 0 else fxInvalid)
  | .inf s => (g.inf s, 0)
  | .fin s m q => g.round rm s m q false

/-- To an integral value in the same format, by RM; the inexact flag is set where the value changes. -/
def Fmt.integral (f : Fmt) (rm : Nat) (x : Nat) : Nat × Nat :=
  let a := f.decode x
  match f.nanOf a a with
  | some r => r
  | none =>
    match a with
    | .fin s m q =>
      let (n, inx) := roundAt rm s m q 0 false
      if q ≥ 0 then (x, 0)
      else ((f.round rm s n 0 false).1, b2n inx * fxInexact)
    | _ => (x, 0)

end Sys2Proof.Machine
end

