-- ==== Sys2Proof/Machine/Sio.lean ====
section
/-! DEFINITION. The safety I/O controller (09, R214 to R230): inputs, pairs, guards, test pulses, outputs and their faults. -/

namespace Sys2Proof.Machine

/-! ## Configuration in effect: a value outside its range acts as the default -/

/-- A value, or the default where it lies outside `lo` to `hi`. -/
def inRange (v lo hi dflt : Nat) : Nat := if lo ≤ v ∧ v ≤ hi then v else dflt

/-- The mode an input acts in: 0 off, 1 static, 2 pulsed (R215). -/
def State.inMode (s : State) (i : Nat) : Nat :=
  let m := s.get (R.SIO.ICFG.MODE i)
  let v := s.get (R.SIO.ICFG.VCLASS i)
  if m = 3 ∨ 5 ≤ v ∨ (m = 2 ∧ v ≠ 0) then 0 else m

/-- The pair mode: 0 none, 1 equivalent, 2 antivalent. -/
def State.pairMode (s : State) (k : Nat) : Nat := inRange (s.get (R.SIO.PCFG.MODE k)) 0 2 0

/-- The state of an input. -/
def State.inp (s : State) (i : Fin 16) : InSt := s.sio.ins[i]

/-- The accepted level of input `i`. -/
def State.inLevel (s : State) (i : Nat) : Bool := (s.inp (Fin.ofNat 16 i)).level

/-- The codes of the faults present at input `i` (R217). -/
def State.inFaults (s : State) (i : Nat) : List Nat := (s.inp (Fin.ofNat 16 i)).faults

/-- A fault of input `i` is present. -/
def State.inFault (s : State) (i : Nat) : Bool := s.inFaults i != []

/-- Replaces the state of an input. -/
def State.setInp (s : State) (i : Fin 16) (v : InSt) : State := { s with sio := { s.sio with ins := s.sio.ins.set i v } }

/-- The state of an output. -/
def State.outp (s : State) (o : Fin 8) : OutSt := s.sio.outs[o]

/-- Replaces the state of an output. -/
def State.setOutp (s : State) (o : Fin 8) (v : OutSt) : State :=
  { s with sio := { s.sio with outs := s.sio.outs.set o v } }

/-- Writes bit `n` of a field. -/
def State.setBit (s : State) (f : Fld) (n : Nat) (b : Bool) : State :=
  s.set f (s.get f / 2 ^ (n + 1) * 2 ^ (n + 1) + b2n b * 2 ^ n + s.get f % 2 ^ n)

/-- The least of a list of codes, 0 for none. -/
def lowestCode (l : List Nat) : Nat := l.foldl (fun m x => if m = 0 then x else min m x) 0

/-- A Fumarole record of an I/O fault: kind 0 input, 1 pair, 2 output, 3 sensor (Table 16-6). -/
def State.ioRecord (s : State) (kind code n : Nat) : State := s.fumarole 0x08 (if kind = 3 then 0x09 else 0x08) code (leBytes 1 kind ++ leBytes 1 n)

/-! ## Inputs (R217, R218, R221) -/

/-- The thresholds of Table 9-1 in mV: off at most, on at least. -/
def inThresholds (vclass : Nat) : Nat × Nat :=
  match vclass with
  | 0 => (5000, 14000)
  | 1 => (7200, 21000)
  | 2 => (9600, 28000)
  | 3 => (14400, 42000)
  | _ => (22000, 64000)

/-- The overvoltage limit of Table 9-1 in mV. -/
def inLimit (vclass : Nat) : Nat :=
  match vclass with
  | 0 => 33600
  | 1 => 50400
  | 2 => 67200
  | 3 => 100800
  | _ => 154000

/-- A run with one more sample. -/
def Run.add (r : Run) (b : Bool) : Run := if r.on = b then { r with n := r.n + 1 } else ⟨b, 1⟩

/-- The condition has held, or has not held, for `n` samples in a row. -/
def Run.for (r : Run) (b : Bool) (n : Nat) : Bool := r.on = b && decide (n ≤ r.n)

/-- The raw level of a sample of `mv` mV; between the thresholds it stays (R214). -/
def rawLevel (vclass : Nat) (was : Bool) (mv : Nat) : Bool :=
  if (inThresholds vclass).2 ≤ mv then true else if mv ≤ (inThresholds vclass).1 then false else was

/-- The test-pulse source that feeds input `i` (R215). -/
def ownTp (i : Fin 16) : Fin 8 := Fin.ofNat 8 i.val

/-- Samples of input `i` are masked: it is pulsed, and its own source is off or has been on for less than 100 µs (R218). -/
def State.masked (s : State) (i : Fin 16) : Bool :=
  s.inMode i.val = 2 && (s.sio.tpOff[ownTp i] || decide (s.nowNs < s.sio.maskNs[ownTp i]))

/-- The runs of the band, of overvoltage and of a level below the limit with one more sample (Table 9-2). A masked sample counts in neither (DEDUCED, assumption 27). -/
def InSt.judged (p : InSt) (vclass mv : Nat) : InSt :=
  let t := inThresholds vclass
  { p with band := p.band.add (decide (t.1 < mv) && decide (mv < t.2)), high := p.high.add (decide (inLimit vclass < mv)),
           low := p.low.add (decide (mv < inLimit vclass)) }

/-- One sample of an input, `masked` or not, at filter time `filt` in units of 100 µs (R214, R218): each unmasked sample at the new level adds 10 µs. -/
def InSt.sample (q : InSt) (vclass filt : Nat) (masked : Bool) (mv : Nat) : InSt :=
  let p := if masked then q else q.judged vclass mv
  let raw := rawLevel vclass p.raw mv
  if masked then { p with raw := raw }
  else if raw = p.level then { p with raw := raw, acc := 0 }
  else if filt * 100 ≤ (p.acc + 1) * 10 then { p with raw := raw, acc := 0, level := raw }
  else { p with raw := raw, acc := p.acc + 1 }

/-- INPUT_LEVEL_ACCEPTED: the samples of a sampled input since the last command of this row, in mV, one each 10 µs; with enough of them at the new
level the accepted level changes (R214, R218). -/
def execInputLevelAccepted (i : Fin 16) (mv : List Nat) (s : State) : Host.Outcome State Fault Refusal :=
  s.whilePowered (if s.inMode i.val = 0 then s
    else s.setInp i (mv.foldl (fun p v => p.sample (s.get (R.SIO.ICFG.VCLASS i.val)) (s.get (R.SIO.ICFG.FILT i.val)) (s.masked i) v) (s.inp i)))

/-- The bits that show an input's faults. -/
def State.showFaults (s : State) (i : Fin 16) : State :=
  let f := (s.inp i).faults
  (s.set (R.SIO.IDIAG.FAULT i.val) (lowestCode f)).setBit R.SIO.IFAULT.INPUT i.val (f != [])

/-- The samples of 10 µs in 100 ms, and in 1 ms. -/
def samples100ms : Nat := 10000
def samples1ms : Nat := 100

/-- What the state shows of a fault of input `i` (Table 9-2): the input is sampled, and its level has been between the thresholds for 100 ms or above the
overvoltage limit for 1 ms; for codes 2 and 3 it is pulsed, and the raw level is on in its own source's pulse, or was on before the pulse of another
source `xtp` and is off in it. -/
def State.inFaultShows (s : State) (i : Fin 16) (code : Nat) (xtp : Fin 8) : Bool :=
  match code with
  | 1 => s.inMode i.val != 0 && (s.inp i).band.for true samples100ms
  | 4 => s.inMode i.val != 0 && (s.inp i).high.for true samples1ms
  | 2 => s.inMode i.val = 2 && s.sio.tpOff[ownTp i] && (s.inp i).raw
  | 3 => s.inMode i.val = 2 && decide (xtp ≠ ownTp i) && s.sio.tpOff[xtp] && (s.inp i).before && !(s.inp i).raw
  | _ => false

/-- INPUT_FAULT_DETECTED: a fault of Table 9-2 not yet present. A guard's proof is cleared (R221). -/
def execInputFaultDetected (i : Fin 16) (code : Fin 5) (xtp : Fin 8) (s : State) : Host.Outcome State Fault Refusal :=
  let p := s.inp i
  s.whilePowered (if !s.inFaultShows i code.val xtp ∨ code.val ∈ p.faults then s
  else
    let s := (s.setInp i { p with
      faults := code.val :: p.faults, passed := if code.val = 2 then 0 else p.passed
      uncrossed := if code.val = 3 then 0 else p.uncrossed }).showFaults i
    let s := (s.incSat (R.SIO.IDIAG.FCOUNT i.val)).flag R.SIO.FLAG.IFLT
    let s := if code.val = 3 then s.set (R.SIO.IDIAG.XTP i.val) xtp.val else s
    let s := if s.bit R.SIO.ISTATE.PROVEN i.val then
        (s.setBit R.SIO.ISTATE.PROVEN i.val false).flag R.SIO.FLAG.PROOFLOSS else s
    s.ioRecord 0 code.val i.val)

/-- The clearing condition of a fault's row (Table 9-2): the level has been outside the band, or below the overvoltage limit, for 100 ms; for codes 2
and 3 two consecutive pulses of the input's own source have passed. -/
def InSt.clears (p : InSt) (code : Nat) : Bool :=
  match code with
  | 1 => p.band.for false samples100ms
  | 2 => decide (2 ≤ p.passed)
  | 3 => decide (2 ≤ p.uncrossed)
  | _ => p.low.for true samples100ms

/-- INPUT_FAULT_CLEARED. -/
def execInputFaultCleared (i : Fin 16) (code : Fin 5) (s : State) : Host.Outcome State Fault Refusal :=
  let p := s.inp i
  s.whilePowered (if !p.clears code.val then s
    else (s.setInp i { p with faults := p.faults.filter fun c => c != code.val }).showFaults i)

/-- A pulse of source `n` begins at an input: of another source than its own the raw level before it is noted (Table 9-2, code 3). -/
def InSt.pulseBegins (p : InSt) (own : Bool) : InSt := if own then p else { p with before := p.raw }

/-- A pulse of source `n` ends at an input, its check point past: the own source's pulse passes where the raw level is off; one of another source
that took the level with it is a cross indication. -/
def InSt.pulseEnds (p : InSt) (own : Bool) : InSt :=
  if own then (if p.raw then { p with passed := 0, uncrossed := 0 } else { p with passed := p.passed + 1, uncrossed := p.uncrossed + 1 })
  else if p.before && !p.raw then { p with uncrossed := 0 } else p

/-- Applies a function to every input, told whether source `n` is its own. -/
def SioSt.atInputs (v : SioSt) (n : Fin 8) (f : InSt → Bool → InSt) : SioSt :=
  { v with ins := Vector.ofFn fun i => f v.ins[i] (decide (ownTp i = n)) }

/-- TEST_PULSE_START: source n switches off for TPW. -/
def execTestPulseStart (n : Fin 8) (s : State) : Host.Outcome State Fault Refusal :=
  s.whilePowered { s with sio := { (s.sio.atInputs n InSt.pulseBegins) with tpOff := s.sio.tpOff.set n true } }

/-- TEST_PULSE_END: source n switches back on; samples of its inputs stay masked for 100 µs. -/
def execTestPulseEnd (n : Fin 8) (s : State) : Host.Outcome State Fault Refusal :=
  s.whilePowered { s with sio := { (s.sio.atInputs n InSt.pulseEnds) with
    tpOff := s.sio.tpOff.set n false, maskNs := s.sio.maskNs.set n (s.nowNs + 100000) } }

/-! ## Pairs (R220) -/

/-- The accepted levels of a pair are discrepant. -/
def State.discrepant (s : State) (k : Nat) : Bool :=
  match s.pairMode k with
  | 1 => s.inLevel (2 * k) != s.inLevel (2 * k + 1)
  | 2 => s.inLevel (2 * k) == s.inLevel (2 * k + 1)
  | _ => false

/-- PAIR_DISCREPANCY_FAULT: discrepancy longer than DISC latches a pair fault. -/
def execPairDiscrepancyFault (k : Fin 8) (s : State) : Host.Outcome State Fault Refusal :=
  s.whilePowered (if s.discrepant k.val && !s.bit R.SIO.IFAULT.PAIR k.val then
      ((s.setBit R.SIO.IFAULT.PAIR k.val true).flag R.SIO.FLAG.PFLT).ioRecord 1 1 k.val
    else s)

/-- Both inputs of a pair are at their off position with no input fault. -/
def State.pairOff (s : State) (k : Nat) : Bool :=
  !s.inFault (2 * k) && !s.inFault (2 * k + 1) && !s.inLevel (2 * k) &&
    (if s.pairMode k = 2 then s.inLevel (2 * k + 1) else !s.inLevel (2 * k + 1))

/-! ## The tick edge (R219 to R221) -/

/-- A good sample with diagnostics passed. -/
def srcGood : Src := ⟨true, true, false⟩
/-- A substitute. -/
def srcSubst : Src := ⟨false, false, true⟩

/-- The input item: value and whether it is a substitute (Table 9-3). -/
def State.inItem (s : State) (i : Nat) : Bool × Src :=
  if s.inMode i = 0 ∨ s.inFault i then (false, srcSubst)
  else if s.get (R.SIO.ICFG.GUARD i) = 1 ∧ !s.bit R.SIO.ISTATE.PROVEN i then (false, srcGood)
  else (s.inLevel i, srcGood)

/-- The pair item (R220). -/
def State.pairItem (s : State) (k : Nat) : Bool × Src :=
  if s.pairMode k = 0 ∨ s.bit R.SIO.IFAULT.PAIR k ∨ s.inFault (2 * k) ∨ s.inFault (2 * k + 1) then (false, srcSubst)
  else
    let a := (s.inItem (2 * k)).1
    let b := (s.inItem (2 * k + 1)).1
    ((if s.pairMode k = 1 then a && b else a && !b), srcGood)

/-- Output o shows a fault of Table 9-5, open load excepted, or is latched. -/
def State.outFaulty (s : State) (o : Fin 8) : Bool :=
  s.bit R.SIO.OSTATE.LATCH o.val || (s.outp o).oc || (s.outp o).faults != []

/-- Applies a function for each number below `n`. -/
def forN (n : Nat) (s : State) (f : State → Nat → State) : State := (List.range n).foldl f s

/-- Overcurrent trips of output o within the last 60 s. -/
def State.recentTrips (s : State) (o : Fin 8) : List Nat := (s.outp o).trips.filter fun t => s.nowNs < t + 60000000000

/-- The controller at a tick edge: trips counted (Table 9-17), levels shown, proofs set (R221), pair faults released (R220), every item updated
(Table 9-9). R221 does not say whether a guard in MODE 0, which is not sampled, gets a proof: it gets none (DESIGN CHOICE, assumption 33). -/
def State.sioTick (s : State) : State :=
  let s := forN 8 s fun t o => t.set (R.SIO.ODIAG.TRIPS o) (t.recentTrips (Fin.ofNat 8 o)).length
  let s := forN 16 s fun t i =>
    let t := t.setBit R.SIO.ISTATE.LEVEL i (t.inLevel i)
    if t.get (R.SIO.ICFG.GUARD i) = 1 ∧ t.inMode i ≠ 0 ∧ !t.inLevel i ∧ !t.inFault i then t.setBit R.SIO.ISTATE.PROVEN i true
    else t
  let s := forN 8 s fun t k => if t.bit R.SIO.IFAULT.PAIR k && t.pairOff k then t.setBit R.SIO.IFAULT.PAIR k false else t
  let s := forN 16 s fun t i => t.inputItem 2 i (b2n (t.inItem i).1) (t.inItem i).2
  let s := forN 8 s fun t k => t.inputItem 2 (0x10 + k) (b2n (t.pairItem k).1) (t.pairItem k).2
  let s := forN 16 s fun t i => t.inputItem 2 (0x20 + i) (b2n (t.bit R.SIO.ISTATE.PROVEN i)) srcGood
  let s := forN 8 s fun t o => t.inputItem 2 (0x30 + o) (b2n (t.bit R.SIO.OSTATE.ACT o)) srcGood
  forN 8 s fun t o => t.inputItem 2 (0x38 + o) (b2n (t.outFaulty (Fin.ofNat 8 o))) srcGood

/-! ## Outputs (R223 to R230) -/

/-- Solfatara lets the gate enables follow the demand: neither its latch nor start-hold holds them off (R349, R356). -/
def State.gates (s : State) : Bool := !s.sup.latch && !s.sup.startHold

/-- Whether the switches of output o close for a demand of 1: not latched, no overcurrent, gate enables not held off. -/
def State.outFree (s : State) (o : Fin 8) : Bool :=
  s.gates && !s.bit R.SIO.OSTATE.LATCH o.val && !(s.outp o).oc

/-- Both switches of output o sensed closed or open, as ACT shows. -/
def State.setAct (s : State) (o : Fin 8) (b : Bool) : State := s.setBit R.SIO.OSTATE.ACT o.val b

/-- ODIAG.FAULT shows the current fault of output o: of several the one detected last (R229, Table 9-17; DEDUCED, assumption 27), 0 with none. -/
def State.setOutFaults (s : State) (o : Fin 8) (l : List Nat) : State :=
  (s.setOutp o { s.outp o with faults := l }).set (R.SIO.ODIAG.FAULT o.val) (l.headD 0)

/-- A fault of output o is present from now on, flagged and recorded. -/
def State.outFault (s : State) (o : Fin 8) (code : Nat) : State :=
  ((s.setOutFaults o (code :: (s.outp o).faults.filter fun c => c != code)).flag R.SIO.FLAG.OFLT).ioRecord 2 code o.val

/-- Faults of output o that have gone. -/
def State.faultGone (s : State) (o : Fin 8) (codes : List Nat) : State :=
  s.setOutFaults o ((s.outp o).faults.filter fun c => !codes.contains c)

/-- Latches output o off with fault `code` (Table 9-5). -/
def State.latchOut (s : State) (o : Fin 8) (code : Nat) : State :=
  (((s.setBit R.SIO.OSTATE.LATCH o.val true).set (R.SIO.ODIAG.LATCHED o.val) 1).setAct o false).outFault o code

/-- Judges the pulse check of output o (R227): passed, or the pulsed switch is stuck on. -/
def State.judgePulse (s : State) (o : Fin 8) (opened : Bool) : State :=
  let p := s.outp o
  match p.pulse with
  | none => s
  | some hs =>
    let s := (s.setOutp o { p with pulse := none, met := false, nextHs := !hs }).setBit R.SIO.OSTATE.PULSE o.val false
    if opened then s.inc (R.SIO.ODIAG.PCNT o.val) else s.latchOut o (if hs then 1 else 2)

/-- Executes demand `d` of output o (R225, R228). An energise during a pulse that a
de-energise met ends the pulse, which is judged at that instant: whether the switch was sensed open is a free value. -/
def State.execDemand (s : State) (o : Fin 8) (d : Bool) : State :=
  let was := s.bit R.SIO.OSTATE.DEM o.val
  let s := s.setOutp o { s.outp o with pend := none }
  if d = was then (if d then s.setAct o (s.outFree o) else s)
  else
    let s := if d ∧ (s.outp o).met then let (b, s) := s.fresh 1; s.judgePulse o (b = 1) else s
    let p := s.outp o
    let s := s.setOutp o { p with met := if d then false else p.pulse.isSome, changeNs := s.nowNs }
    (s.setBit R.SIO.OSTATE.DEM o.val d).setAct o (d && s.outFree o)

/-- The demand of output o from the leading channel's view `c` (R225). -/
def State.demandOf (s : State) (c : Chan) (o : Nat) : Bool :=
  let id := s.get (R.SIO.OSRC.SIGID o)
  if id = 0 ∨ s.mstate ≠ .run ∨ !s.works then false
  else match tblFind c.dir id with
    | none => false
    | some e =>
      let v := seen s.forces id e
      e.type != 0 && leNat v.val % 2 = 1 && v.q.toNat % 2 = 1 && v.q.toNat / 16 % 2 = 1

/-- De-energises every output at once: both switches open. Demands that change are executed as 0. -/
def State.outputsOff (s : State) : State := forN 8 s fun t o => t.execDemand (Fin.ofNat 8 o) false

/-- The off-pulse period in ns. -/
def State.oppNs (s : State) : Nat := 1000000 * inRange (s.get R.SIO.OPCFG.OPP) 50 500 100

/-- The number of the due instant of output o's pulse at the present time (R227). -/
def State.dueIndex (s : State) (o : Nat) : Nat := (s.nowNs - o * s.oppNs / 8) / s.oppNs

/-- OUTPUT_TEST_PULSE_START: a pulse on an energised output is given, or postponed while a change is pending or less than 2 ms old
(R227, R228). -/
def execOutputTestPulseStart (o : Fin 8) (s : State) : Host.Outcome State Fault Refusal :=
  let p := s.outp o
  s.whilePowered (if !s.bit R.SIO.OSTATE.ACT o.val || p.pulse.isSome then s.setOutp o { p with postponed := none }
  else
    let late : Bool := match p.postponed with
      | some j => decide (j < s.dueIndex o.val)
      | none => false
    let s := if late then s.flag R.SIO.FLAG.PULSEPP else s
    if p.pend.isSome || s.nowNs < p.changeNs + 2000000 then
      s.setOutp o { p with postponed := some (s.dueIndex o.val) }
    else
      (s.setOutp o { p with pulse := some p.nextHs, met := false, postponed := none }).setBit R.SIO.OSTATE.PULSE o.val true)

/-- OUTPUT_TEST_PULSE_END: the pulse ends and its check is judged; a switch met by a de-energise stays open. -/
def execOutputTestPulseEnd (o : Fin 8) (sensedOpen : Bool) (s : State) : Host.Outcome State Fault Refusal :=
  s.whilePowered (s.judgePulse o sensedOpen)

/-- What the state shows of a fault of output `o` (Table 9-5): a stuck switch while the output is not energised or in a pulse of that switch, an
overcurrent or a switch that fails to close while the output is driven, its demand 1 and nothing holding it off, but not a switch held open by its own
pulse, a voltage from outside with both switches open, an open load (7, which has no code) while
energised. -/
def State.outFaultShows (s : State) (o : Fin 8) (code : Nat) : Bool :=
  let act := s.bit R.SIO.OSTATE.ACT o.val
  match code with
  | 1 => !act || (s.outp o).pulse = some true
  | 2 => !act || (s.outp o).pulse = some false
  | 3 => s.bit R.SIO.OSTATE.DEM o.val && s.outFree o
  | 4 => s.bit R.SIO.OSTATE.DEM o.val && s.outFree o && (s.outp o).pulse != some true
  | 5 => s.bit R.SIO.OSTATE.DEM o.val && s.outFree o && (s.outp o).pulse != some false
  | 6 => !act && s.get (R.SIO.OCFG.PAIRW o.val) = 0
  | 7 => act && s.get (R.SIO.OCFG.OPENLD o.val) = 1
  | _ => false

/-- OUTPUT_FAULT_DETECTED: codes 1 to 6 of Table 9-5, and 7 for the open-load warning, which has no code. -/
def execOutputFaultDetected (o : Fin 8) (code : Fin 8) (s : State) : Host.Outcome State Fault Refusal :=
  let p := s.outp o
  s.whilePowered (if !s.outFaultShows o code.val then s else match code.val with
    | 1 | 2 | 4 | 5 => s.latchOut o code.val
    | 3 =>
      let tr := s.nowNs :: s.recentTrips o
      let s := (s.setOutp o { p with oc := true, trips := tr }).setAct o false
      let s := s.set (R.SIO.ODIAG.TRIPS o.val) tr.length
      let s := if 3 ≤ tr.length then (s.setBit R.SIO.OSTATE.LATCH o.val true).set (R.SIO.ODIAG.LATCHED o.val) 1 else s
      s.outFault o 3
    | 6 => s.outFault o 6
    | 7 => s.set (R.SIO.ODIAG.OPEN o.val) 1
    | _ => s)

/-- OVERCURRENT_RELEASE: with the demand 0 the output follows its demand again (R230); of a latched output the fault stays shown. -/
def execOvercurrentRelease (o : Fin 8) (s : State) : Host.Outcome State Fault Refusal :=
  s.whilePowered (if s.bit R.SIO.OSTATE.DEM o.val then s
    else
      let s1 := s.setOutp o { s.outp o with oc := false }
      if s.bit R.SIO.OSTATE.LATCH o.val then s1 else s1.faultGone o [3])

/-- OUTPUT_FAULT_CLEARED: the external voltage is absent (code 6), or the current is at least 10 mA (code 7). -/
def execOutputFaultCleared (o : Fin 8) (code : Fin 8) (s : State) : Host.Outcome State Fault Refusal :=
  s.whilePowered (match code.val with
    | 6 => s.faultGone o [6]
    | 7 => s.set (R.SIO.ODIAG.OPEN o.val) 0
    | _ => s)

/-- CLRFLT: releases the latched outputs of the mask and clears their trip records (R230, Table 9-14). -/
def State.clrfltWhy (s : State) (mask : Byte) : Nat :=
  firstReason [(2, s.mstate != .run && s.mstate != .safe), (3, !s.depot),
    (4, s.get R.SIO.OSTATE.LATCH &&& mask.toNat == 0)]

/-- Releases output o: unlatched, trips forgotten, driven by its demand again. An overcurrent that still holds it off stays shown (R230). -/
def State.unlatch (s : State) (o : Fin 8) : State :=
  let s := (s.setBit R.SIO.OSTATE.LATCH o.val false).set (R.SIO.ODIAG.LATCHED o.val) 0
  let s := ((s.set (R.SIO.ODIAG.TRIPS o.val) 0).setOutp o { s.outp o with trips := [] }).faultGone o ([1, 2, 4, 5] ++ if (s.outp o).oc then [] else [3])
  s.setAct o (s.bit R.SIO.OSTATE.DEM o.val && s.outFree o)

/-- CLRFLT. -/
def execClrflt (r : Req) (mask : Byte) (s : State) : Host.Outcome State Fault Refusal :=
  s.whilePowered (s.command r R.SIO.CMD.all R.SIO.CMDCNT.COUNT R.SIO.REASON.CODE (mask.toNat * 256 + 1) (s.clrfltWhy mask) fun t =>
    forN 8 t fun u o => if mask.toNat / 2 ^ o % 2 = 1 then u.unlatch (Fin.ofNat 8 o) else u)

end Sys2Proof.Machine
end

