-- ==== Sys2Proof/Machine/Spd.lean ====
section
/-! DEFINITION. The speed function (09, R231 to R238). Lengths are in mm, times in s, as exact rationals; π is taken from above for
upper bounds and from below for lower bounds. -/

namespace Sys2Proof.Machine

/-! ## Configuration in effect -/

/-- Sensor s is enabled. -/
def State.senEn (s : State) (n : Fin 2) : Bool := s.get (if n = 0 then R.SPD.SCFG.S0 else R.SPD.SCFG.S1) % 2 = 1
/-- ORIENT of sensor s. -/
def State.senOrient (s : State) (n : Fin 2) : Bool := s.get (if n = 0 then R.SPD.SCFG.S0 else R.SPD.SCFG.S1) / 4 % 2 = 1
/-- TEETH of sensor s. -/
def State.teeth (s : State) (n : Fin 2) : Nat := inRange (s.get (if n = 0 then R.SPD.TEETH.N0 else R.SPD.TEETH.N1)) 1 1023 100
/-- DMIN and DMAX of sensor s in mm; where the pair is inconsistent both act as their defaults (R318). -/
def State.wheel (s : State) (n : Fin 2) : Nat × Nat :=
  let hi := inRange (s.get (R.SPD.WHEEL.DMAX n.val)) 300 1500 920
  let lo := inRange (s.get (R.SPD.WHEEL.DMIN n.val)) 300 1500 840
  if lo ≤ hi then (lo, hi) else (840, 920)
/-- DMAX of sensor s in mm. -/
def State.dmax (s : State) (n : Fin 2) : Nat := (s.wheel n).2
/-- DMIN of sensor s in mm. -/
def State.dmin (s : State) (n : Fin 2) : Nat := (s.wheel n).1
/-- AMAX in mm/s². -/
def State.amax (s : State) : Nat := inRange (s.get R.SPD.AMAX.A) 100 10000 1500
/-- STILLT in ns. -/
def State.stillNs (s : State) : Nat := 1000000 * inRange (s.get R.SPD.STILLT.MS) 100 10000 500
/-- SSLIM in s. -/
def State.sslimSec (s : State) : Nat := inRange (s.get R.SPD.SSLIM.MIN) 1 240 30 * 60

/-- π from above. -/
def piUp : Rat := mkRat 3141592653589793238462643383280 1000000000000000000000000000000
/-- π from below. -/
def piDown : Rat := mkRat 3141592653589793238462643383279 1000000000000000000000000000000

/-- p_max (R233). -/
def State.pMax (s : State) (n : Fin 2) : Rat := piUp * s.dmax n / (4 * s.teeth n)
/-- p_min (R233). -/
def State.pMin (s : State) (n : Fin 2) : Rat := piDown * s.dmin n / (4 * s.teeth n)

/-- A time in ns as seconds. -/
def secs (ns : Nat) : Rat := mkRat ns 1000000000

/-- The least natural number not below a rational. -/
def ceilNat (r : Rat) : Nat := r.ceil.toNat
/-- The greatest natural number not above a rational that is not negative. -/
def floorNat (r : Rat) : Nat := r.floor.toNat

/-- The least natural number whose square is not below a rational. -/
def ceilSqrt (r : Rat) : Nat :=
  let c := ceilNat r
  let q := isqrtBits c 64 0
  if q * q = c then q else q + 1

/-- v_ss, rounded up to mm/s (R234). -/
def State.vss (s : State) (n : Fin 2) : Nat := ceilSqrt (2 * s.amax * s.pMax n)
/-- t_c, rounded up to ms. -/
def State.tcMs (s : State) (n : Fin 2) : Nat := ceilSqrt (1000000 * (2 * s.pMax n / s.amax))
/-- Whether a time is below t_c. -/
def State.belowTc (s : State) (n : Fin 2) (ns : Nat) : Bool := decide (secs ns * secs ns * s.amax < 2 * s.pMax n)

/-! ## Sensors -/

/-- A sensor's state. -/
def State.sen (s : State) (n : Fin 2) : SenSt := if n = 0 then s.spd.s0 else s.spd.s1
/-- Replaces a sensor's state. -/
def State.setSen (s : State) (n : Fin 2) (v : SenSt) : State :=
  if n = 0 then { s with spd := { s.spd with s0 := v } } else { s with spd := { s.spd with s1 := v } }
/-- The good bit of a sensor. -/
def okFld (n : Fin 2) : Fld := if n = 0 then R.SPD.STATUS.S0OK else R.SPD.STATUS.S1OK
/-- A sensor is good: not lost (R232). -/
def State.senGood (s : State) (n : Fin 2) : Bool := s.get (okFld n) = 1

/-- MODE of sensor s: voltage, else current. -/
def State.senVolt (s : State) (n : Fin 2) : Bool := s.get (if n = 0 then R.SPD.SCFG.S0 else R.SPD.SCFG.S1) / 2 % 2 = 1

/-- The level of a phase (R231): a current in µA, low below 10.5 mA and high above, or a voltage in mV, low below 3 V and high above 7 V. At exactly
10.5 mA and from 3 V to 7 V, for which the spec states no level, the phase keeps its last one (DESIGN CHOICE, assumption 27). -/
def phaseLevel (volt was : Bool) (x : Nat) : Bool :=
  let (lo, hi) := if volt then (3000, 7000) else (10500, 10500)
  if x < lo then false else if hi < x then true else was

/-- The previous edge of a phase was less than 2 µs ago (R231). -/
def tooSoon (last : Option Nat) (now : Nat) : Bool :=
  match last with
  | some t => decide (now < t + 2000)
  | none => false

/-- A level that is a level fault of its phase once it has stood for 1 ms (R231): a current outside 5.0 mA to 17.0 mA, a voltage from 3 V to 7 V. -/
def faultLevel (volt : Bool) (x : Nat) : Bool :=
  if volt then decide (3000 ≤ x) && decide (x ≤ 7000) else decide (x < 5000) || decide (17000 < x)

/-- The instant since which a condition holds, where it was held since `since`. -/
def holdsSince (since : Option Nat) (holds : Bool) (now : Nat) : Option Nat := if holds then some (since.getD now) else none

/-- A phase of a sensor. -/
def SenSt.phase (v : SenSt) (phaseB : Bool) : PhaseSt := if phaseB then v.pb else v.pa
/-- Replaces a phase of a sensor. -/
def SenSt.setPhase (v : SenSt) (phaseB : Bool) (p : PhaseSt) : SenSt := if phaseB then { v with pb := p } else { v with pa := p }

/-- A phase comes to `x` µA or mV: its level, and whether that is a level fault's. -/
def PhaseSt.come (p : PhaseSt) (volt : Bool) (x now : Nat) : PhaseSt :=
  let b := phaseLevel volt p.level x
  { p with level := b, last := if b = p.level then p.last else some now, zone := holdsSince p.zone (faultLevel volt x) now }

/-- A counted edge on a phase. Its period is the time from the last edge but one, the last of the same direction; above 20 kHz it is below 50 µs
(Table 9-7, code 5). -/
def PhaseSt.count (p : PhaseSt) (now : Nat) : PhaseSt :=
  { p with
    counted := (now :: p.counted).take 2
    fast := match p.counted with
      | [_, e] => holdsSince p.fast (decide (now < e + 50000)) now
      | _ => none }

/-- A counted edge of a sensor at `now`, forward or not (R233); the bounds take its time to 25 ns (R234). -/
def SenSt.count (v : SenSt) (phaseB fwd : Bool) (now : Nat) : SenSt :=
  let w := v.setPhase phaseB ((v.phase phaseB).count now)
  { w with edges := (now / 25 * 25 :: w.edges).take 2, dirs := (fwd :: w.dirs).take 8, run := w.run.add phaseB }

/-- A condition that has held since `since` has held for 1 ms. -/
def forMs (since : Option Nat) (now : Nat) : Bool :=
  match since with
  | some t => decide (t + 1000000 ≤ now)
  | none => false

/-- The last edges of both phases are at most 1 µs apart, and not before the last tick edge `tick`: such a meeting is present until the tick edge after
it (DEDUCED, assumption 27). -/
def edgesMeet (a b : Option Nat) (tick : Nat) : Bool :=
  match a, b with
  | some x, some y => decide (x ≤ y + 1000) && decide (y ≤ x + 1000) && decide (tick ≤ max x y)
  | _, _ => false

/-- A phase runs above 20 kHz, and has for 1 ms: its last counted edge is no older than a period of 20 kHz. -/
def PhaseSt.tooFast (p : PhaseSt) (now : Nat) : Bool :=
  forMs p.fast now && p.counted.head?.any fun t => decide (now < t + 50000)

/-- Whether a sensor shows a fault of Table 9-7 at `now`, after the tick edge `tick`. -/
def SenSt.shows (v : SenSt) (tick now code : Nat) : Bool :=
  match code with
  | 1 => forMs v.pa.zone now
  | 2 => forMs v.pb.zone now
  | 3 => edgesMeet v.pa.last v.pb.last tick
  | 4 => decide (16 < v.run.n)
  | 5 => v.pa.tooFast now || v.pb.tooFast now
  | _ => false

/-- The faults of a sensor that are still present at `now`; with the last gone the time without a fault begins (R232). -/
def SenSt.settle (v : SenSt) (tick now : Nat) : SenSt :=
  let l := v.faults.filter (v.shows tick now)
  { v with faults := l, goodFrom := if v.faults != [] && l = [] then now else v.goodFrom }

/-- Replaces a sensor's state and shows its present fault: of several the one detected last (R232 does not say which; DEDUCED, assumption 27), 0 with
none. -/
def State.showSen (s : State) (n : Fin 2) (v : SenSt) : State := (s.setSen n v).set (R.SPD.SDIAG.FAULT n.val) (v.faults.headD 0)

/-- WHEEL_SPEED_EDGE: a phase of an enabled sensor comes to `x` µA or mV. A change of its level is an edge; one that is not within 2 µs of the previous
edge on the phase is counted; it is forward when PA leads PB (R231, R233). Faults that it ends are present no longer. -/
def execWheelSpeedEdge (n : Fin 2) (phaseB : Bool) (x : Nat) (s : State) : Host.Outcome State Fault Refusal :=
  let v := s.sen n
  let p := v.phase phaseB
  let q := p.come (s.senVolt n) x s.nowNs
  let w := v.setPhase phaseB q
  let fwd := (if phaseB then w.pa.level == w.pb.level else w.pa.level != w.pb.level) ^^ s.senOrient n
  s.whilePowered (if !s.senEn n then s
    else if q.level = p.level ∨ tooSoon p.last s.nowNs then s.showSen n (w.settle s.gong.tick s.nowNs)
    else (s.showSen n ((w.count phaseB fwd s.nowNs).settle s.gong.tick s.nowNs)).inc (R.SPD.EDGES.COUNT n.val))

/-! ## Modes (Table 9-8) -/

/-- The mode code: 0 normal, 1 single on WS0, 2 single on WS1, 3 unknown. -/
def State.spdMode (s : State) : Nat := s.get R.SPD.STATUS.MODE

/-- The speed becomes unknown for a cause; standstill is then not proven (R236). -/
def State.spdUnknown (s : State) (cause : Nat) : State :=
  ((((s.set R.SPD.STATUS.MODE 3).set R.SPD.STATUS.UCAUSE cause).set R.SPD.STATUS.STILL 0).flag R.SPD.FLAG.UNKNOWN)

/-- A sensor is lost (Table 9-8). Where it was in use the speed is single on the other, if that is good and SSUSED below SSLIM, else unknown. -/
def State.senLost (s : State) (n : Fin 2) : State :=
  let other : Fin 2 := if n = 0 then 1 else 0
  let s1 := s.set (okFld n) 0
  if s1.spdMode = 3 ∨ s1.spdMode = other.val + 1 then s1
  else if !s1.senGood other then s1.spdUnknown 3
  else if s1.get R.SPD.SSUSED.SEC < s1.sslimSec then (s1.set R.SPD.STATUS.MODE (other.val + 1)).flag R.SPD.FLAG.SINGLE
  else s1.spdUnknown 2

/-- SENSOR_FAULT: a fault of Table 9-7 that an enabled sensor shows and that is not yet present; the sensor is lost. -/
def execSensorFault (n : Fin 2) (code : Fin 6) (s : State) : Host.Outcome State Fault Refusal :=
  let v := s.sen n
  s.whilePowered (if !s.senEn n ∨ !v.shows s.gong.tick s.nowNs code.val ∨ code.val ∈ v.faults then s
    else
      let s := (s.showSen n { v with faults := code.val :: v.faults }).incSat (R.SPD.SDIAG.FCOUNT n.val)
      (s.senLost n).ioRecord 3 code.val n.val)

/-- A sensor has had no fault for 10 s, counted in RUN (R232). -/
def State.senQuiet (s : State) (n : Fin 2) : Bool :=
  let v := s.sen n
  s.mstate = .run && v.faults = [] && decide (max s.spd.runNs v.goodFrom + 10000000000 ≤ s.nowNs)

/-- SENSOR_GOOD: no fault for 10 s, counted in RUN; the sensor is good (R232). While WSLOOP runs both count as lost (R370). -/
def execSensorGood (n : Fin 2) (s : State) : Host.Outcome State Fault Refusal :=
  let wsloop := s.get R.BIST.STATUS.RUN = 1 && s.get R.BIST.STATUS.TEST = 6
  s.whilePowered (if s.senEn n ∧ s.senQuiet n ∧ !wsloop then s.set (okFld n) 1 else s)

/-- SINGLE_SENSOR_LIMIT: SSUSED reaches SSLIM in single mode. -/
def execSingleSensorLimit (s : State) : Host.Outcome State Fault Refusal :=
  s.whilePowered (if (s.spdMode = 1 ∨ s.spdMode = 2) ∧ s.sslimSec ≤ s.get R.SPD.SSUSED.SEC then s.spdUnknown 2 else s)

/-- SSUSED_WARNING: SSUSED reaches 90 % of SSLIM. -/
def execSsusedWarning (s : State) : Host.Outcome State Fault Refusal :=
  s.whilePowered (if 9 * s.sslimSec ≤ 10 * s.get R.SPD.SSUSED.SEC then s.flag R.SPD.FLAG.SSWARN else s)

/-- SSUSED_RESET: 60 s of continuous normal mode. -/
def execSsusedReset (s : State) : Host.Outcome State Fault Refusal :=
  s.whilePowered (if s.spdMode = 0 then s.set R.SPD.SSUSED.SEC 0 else s)

/-! ## Bounds at a tick edge (R234 to R237) -/

/-- t_e in ns at `now`. -/
def State.teNs (s : State) (n : Fin 2) (now : Nat) : Nat := now - ((s.sen n).edges.head?.getD s.spd.runNs)

/-- v_ne(t), nothing for an unbounded value. -/
def State.vne (s : State) (n : Fin 2) (ns : Nat) : Option Rat :=
  if ns = 0 then none
  else if s.belowTc n ns then some (s.pMax n / secs ns + s.amax * secs ns / 2)
  else some (s.vss n)

/-- v_hi and v_lo of a sensor at `now`; an upper bound of none is unbounded. With two edges of one time stamp v_hi is v_ne, and v_lo is free
(assumption 27). -/
def State.bounds (s : State) (n : Fin 2) (now : Nat) : Option Rat × Rat :=
  let te := s.teNs n now
  let ne := s.vne n te
  match (s.sen n).edges with
  | e1 :: e0 :: _ =>
    let d := e1 - e0
    if d = 0 then (ne, Config.sameStampLow n.val te)
    else
      let slack : Rat := s.amax * secs (d + te)
      let hi := s.pMax n / secs d + slack
      (some (match ne with | some v => min hi v | none => hi), max 0 (s.pMin n / secs d - slack))
  | _ => (ne, 0)

/-- A sensor is at standstill (R235). -/
def State.senStill (s : State) (n : Fin 2) (now : Nat) : Bool :=
  let te := s.teNs n now
  s.stillNs ≤ te && !s.belowTc n te

/-- The sensors in use. -/
def State.inUse (s : State) : List (Fin 2) :=
  match s.spdMode with
  | 0 => [0, 1]
  | 1 => [0]
  | 2 => [1]
  | _ => []

/-- The two sensors are discrepant (R236). R236 does not say whether it compares the bounds as R234 rounds them: they are compared unrounded, v_ss rounded up
(DESIGN CHOICE, assumption 27). -/
def State.spdDiscrepant (s : State) (now : Nat) : Bool :=
  let a := s.bounds 0 now
  let b := s.bounds 1 now
  let rel : Rat := 1 + mkRat (inRange (s.get R.SPD.PLAUS.PLREL) 0 50 10) 100
  let abs : Rat := s.get R.SPD.PLAUS.PLABS
  let above (lo : Rat) (hi : Option Rat) : Bool := match hi with
    | some h => decide (h * rel + abs < lo)
    | none => false
  above a.2 b.1 || above b.2 a.1

/-- SPEED_NORMAL_ENTRY: both sensors good and plausible for 10 s, as they are at the present tick. -/
def execSpeedNormalEntry (s : State) : Host.Outcome State Fault Refusal :=
  s.whilePowered (if s.senGood 0 ∧ s.senGood 1 ∧ s.mstate = .run ∧ !s.spdDiscrepant s.gong.tick then (s.set R.SPD.STATUS.MODE 0).set R.SPD.STATUS.UCAUSE 0
    else s)

/-- SPEED_DISCREPANCY_TIMEOUT: discrepancy for PLTIME; it applies while both sensors are in use. -/
def execSpeedDiscrepancyTimeout (s : State) : Host.Outcome State Fault Refusal :=
  s.whilePowered (if s.spdMode = 0 ∧ s.spdDiscrepant s.gong.tick then (s.flag R.SPD.FLAG.DISCR).spdUnknown 1 else s)

/-- The largest of a list of naturals. -/
def maxOf (l : List Nat) : Nat := l.foldl max 0

/-- The least of a list of naturals, 0 for none. -/
def minOf : List Nat → Nat
  | [] => 0
  | a :: t => t.foldl min a

/-- DIR: 1 forward, 3 reverse, 0 none, from the last 8 edges of every sensor in use. -/
def State.spdDir (s : State) : Nat :=
  let all (b : Bool) : Bool := s.inUse != [] && s.inUse.all fun n => (s.sen n).dirs.length = 8 && (s.sen n).dirs.all (· == b)
  if all true then 1 else if all false then 3 else 0

/-- BELOW(k) (R237). -/
def State.belowItem (s : State) (k vhi : Nat) : Bool :=
  let h := s.get (R.SPD.THR.HYST k)
  let limit := if h ≤ s.get (R.SPD.THR.LIMIT k) then s.get (R.SPD.THR.LIMIT k) else 0
  let hyst := if h ≤ limit then h else 0
  limit != 0 && s.spdMode != 3 && vhi ≤ limit && (vhi + hyst ≤ limit || s.spd.below.contains k)

/-- The speed function at a tick edge: status, bounds, thresholds and items (Table 9-9). -/
def State.spdTick (s : State) : State :=
  let now := s.gong.tick
  let s := (s.showSen 0 ((s.sen 0).settle now s.nowNs)).showSen 1 ((s.sen 1).settle now s.nowNs)
  let use := s.inUse
  let unknown := s.spdMode = 3
  let still := !decide unknown && use.all fun n => s.senStill n now
  let upper (n : Fin 2) : Nat := match (s.bounds n now).1 with
    | some v => ceilNat v
    | none => 2 ^ 32 - 1
  let vhi := if unknown then 2 ^ 32 - 1 else if still then maxOf (use.map s.vss) else min (maxOf (use.map upper)) (2 ^ 32 - 1)
  let vlo := if unknown ∨ still then 0 else minOf (use.map fun n => floorNat (s.bounds n now).2)
  let dir := if unknown ∨ still then 0 else s.spdDir
  let vs := if use = [] then [(0 : Fin 2)] else use
  let below := if unknown then [] else (List.range 8).filter fun k => s.belowItem k vhi
  let s := if s.mstate = .run ∧ s.senGood 0 ∧ s.senGood 1 ∧ s.spdDiscrepant now then s.flag R.SPD.FLAG.DISCR else s
  let s := ((s.set R.SPD.VHI.MMS vhi).set R.SPD.VLO.MMS vlo).set R.SPD.STATUS.DIR dir
  let s := s.set R.SPD.STATUS.STILL (b2n still)
  let s := (s.set R.SPD.VSS.TC (maxOf (vs.map s.tcMs))).set R.SPD.VSS.MMS (maxOf (vs.map s.vss))
  let s := { s with spd := { s.spd with below := below } }
  let src := if unknown then srcSubst else srcGood
  let s := s.inputItem 3 0 vhi src
  let s := s.inputItem 3 1 vlo src
  let s := s.inputItem 3 2 (b2n still) src
  let s := s.inputItem 3 3 (if dir = 3 then 255 else dir) src
  let s := s.inputItem 3 4 (b2n unknown) srcGood
  let s := s.inputItem 3 5 (b2n (s.spdMode = 1 ∨ s.spdMode = 2)) srcGood
  let s := s.inputItem 3 6 (s.sslimSec - s.get R.SPD.SSUSED.SEC) srcGood
  forN 8 s fun t k => t.inputItem 3 (0x10 + k) (b2n (below.contains k)) src

end Sys2Proof.Machine
end

