-- ==== Sys2Proof/Machine/Inflate.lean ====
section
/-! DEFINITION. DEFLATE decompression (RFC 1951), as the delta stream's records of OP 3 use it (15, R335). A stream that RFC 1951 does not admit
gives nothing. -/

namespace Sys2Proof.Machine

/-- The bits of a stream in the order in which RFC 1951 reads them: each byte from its least significant bit. -/
def streamBits (l : List Byte) : List Bool := l.flatMap fun b => (List.range 8).map fun i => b.getLsbD i

/-- The number of `n` bits, the first the least significant, and the rest of the stream. -/
def readBits : Nat → List Bool → Option (Nat × List Bool)
  | 0, l => some (0, l)
  | _ + 1, [] => none
  | n + 1, b :: l => (readBits n l).map fun r => ((if b then 1 else 0) + 2 * r.1, r.2)

/-- A Huffman code (RFC 1951, 3.2.2): how many symbols have each code length from 1 to 15, and the symbols by length and number. -/
structure Huff where
  counts : List Nat
  syms : List Nat
  deriving DecidableEq, Repr

/-- The code of a list of code lengths by symbol; none where the lengths claim more codes than there are. -/
def huffOf (lens : List Nat) : Option Huff :=
  let of (n : Nat) : List Nat := (List.range lens.length).filter fun i => lens.getD i 0 = n
  let ls := (List.range 15).map fun n => of (n + 1)
  let used := (List.range 15).foldl (fun u n => u + (ls.getD n []).length * 2 ^ (14 - n)) 0
  if used ≤ 2 ^ 15 then some ⟨ls.map (·.length), ls.flatMap id⟩ else none

/-- Decodes one symbol: `code` the bits read, `first` the first code of the present length, `index` the symbols of shorter codes. -/
def huffSym (syms : List Nat) : List Nat → (code first index : Nat) → List Bool → Option (Nat × List Bool)
  | [], _, _, _, _ => none
  | _ :: _, _, _, _, [] => none
  | n :: ns, code, first, index, b :: l =>
    let c := code + if b then 1 else 0
    if c < first + n then (syms[index + (c - first)]?).map fun s => (s, l)
    else huffSym syms ns (2 * c) (2 * (first + n)) (index + n) l

/-- The next symbol of a stream. -/
def Huff.next (h : Huff) (l : List Bool) : Option (Nat × List Bool) := huffSym h.syms h.counts 0 0 0 l

/-- Base lengths and extra bits of the length symbols 257 to 285 (RFC 1951, 3.2.5). -/
def lenBase : List (Nat × Nat) :=
  [(3, 0), (4, 0), (5, 0), (6, 0), (7, 0), (8, 0), (9, 0), (10, 0), (11, 1), (13, 1), (15, 1), (17, 1), (19, 2), (23, 2), (27, 2), (31, 2),
   (35, 3), (43, 3), (51, 3), (59, 3), (67, 4), (83, 4), (99, 4), (115, 4), (131, 5), (163, 5), (195, 5), (227, 5), (258, 0)]

/-- Base distances and extra bits of the distance symbols 0 to 29. -/
def distBase : List (Nat × Nat) :=
  [(1, 0), (2, 0), (3, 0), (4, 0)] ++ (List.range 26).map fun i => ((2 + i % 2) * 2 ^ (i / 2 + 1) + 1, i / 2 + 1)

/-- Copies `n` bytes from a distance back; `out` holds the newest byte first. -/
def copyBack (d : Nat) : Nat → List Byte → List Byte
  | 0, out => out
  | n + 1, out => copyBack d n (out.getD (d - 1) 0 :: out)

/-- A value by its table: base and extra bits. -/
def baseValue (t : List (Nat × Nat)) (i : Nat) (l : List Bool) : Option (Nat × List Bool) := do
  let e ← t[i]?
  let r ← readBits e.2 l
  pure (e.1 + r.1, r.2)

/-- The symbols of a block until its end, at most `fuel`. -/
def blockCodes (lit dist : Huff) : Nat → List Byte → List Bool → Option (List Byte × List Bool)
  | 0, _, _ => none
  | fuel + 1, out, l =>
    match lit.next l with
    | none => none
    | some (s, l1) =>
      if s < 256 then blockCodes lit dist fuel (BitVec.ofNat 8 s :: out) l1
      else if s = 256 then some (out, l1)
      else
        match baseValue lenBase (s - 257) l1 with
        | none => none
        | some (n, l2) =>
          match (dist.next l2).bind fun d => baseValue distBase d.1 d.2 with
          | none => none
          | some (d, l3) => if d ≤ out.length then blockCodes lit dist fuel (copyBack d n out) l3 else none

/-- The fixed codes (RFC 1951, 3.2.6). -/
def fixedLens : List Nat := List.replicate 144 8 ++ List.replicate 112 9 ++ List.replicate 24 7 ++ List.replicate 8 8

/-- The order in which the lengths of the code length code are given (RFC 1951, 3.2.7). -/
def clenOrder : List Nat := [16, 17, 18, 0, 8, 7, 9, 6, 10, 5, 11, 4, 12, 3, 13, 2, 14, 1, 15]

/-- Reads `n` fields of three bits. -/
def threes : Nat → List Bool → Option (List Nat × List Bool)
  | 0, l => some ([], l)
  | n + 1, l => do
    let a ← readBits 3 l
    let r ← threes n a.2
    pure (a.1 :: r.1, r.2)

/-- The code lengths of a dynamic block until there are `want`; `out` holds the newest first. -/
def codeLens (h : Huff) (want : Nat) : Nat → List Nat → List Bool → Option (List Nat × List Bool)
  | 0, _, _ => none
  | fuel + 1, out, l =>
    if want ≤ out.length then (if out.length = want then some (out.reverse, l) else none)
    else
      match h.next l with
      | none => none
      | some (s, l1) =>
        if s < 16 then codeLens h want fuel (s :: out) l1
        else if s = 16 then
          match out, readBits 2 l1 with
          | p :: _, some (n, l2) => codeLens h want fuel (List.replicate (3 + n) p ++ out) l2
          | _, _ => none
        else
          match readBits (if s = 17 then 3 else 7) l1 with
          | some (n, l2) => codeLens h want fuel (List.replicate ((if s = 17 then 3 else 11) + n) 0 ++ out) l2
          | none => none

/-- The two codes of a dynamic block. -/
def dynamicCodes (l : List Bool) : Option (Huff × Huff × List Bool) := do
  let hl ← readBits 5 l
  let hd ← readBits 5 hl.2
  let hc ← readBits 4 hd.2
  let c ← threes (hc.1 + 4) hc.2
  let at' (i : Nat) : Nat := match (clenOrder.take c.1.length).findIdx? (· = i) with
    | some j => c.1.getD j 0
    | none => 0
  let h ← huffOf ((List.range 19).map at')
  let nl := hl.1 + 257
  let r ← codeLens h (nl + hd.1 + 1) (nl + hd.1 + 2) [] c.2
  let lit ← huffOf (r.1.take nl)
  let dist ← huffOf (r.1.drop nl)
  pure (lit, dist, r.2)

/-- A stored block: it begins at a byte boundary; `total` bits are in the whole stream. -/
def storedBlock (total : Nat) (out : List Byte) (l : List Bool) : Option (List Byte × List Bool) := do
  let n ← readBits 16 (l.drop ((8 - (total - l.length) % 8) % 8))
  let c ← readBits 16 n.2
  if n.1 + c.1 = 65535 ∧ 8 * n.1 ≤ c.2.length then
    let bytes := (List.range n.1).map fun i => match readBits 8 (c.2.drop (8 * i)) with
      | some v => BitVec.ofNat 8 v.1
      | none => 0
    some (bytes.reverse ++ out, c.2.drop (8 * n.1))
  else none

/-- The blocks of a stream, at most `fuel`. -/
def inflateBlocks (total : Nat) : Nat → List Byte → List Bool → Option (List Byte)
  | 0, _, _ => none
  | fuel + 1, out, l =>
    match readBits 1 l with
    | none => none
    | some (last, l1) =>
      match readBits 2 l1 with
      | none => none
      | some (type, l2) =>
        let r : Option (List Byte × List Bool) :=
          if type = 0 then storedBlock total out l2
          else if type = 1 then do
            let lit ← huffOf fixedLens
            let dist ← huffOf (List.replicate 30 5)
            blockCodes lit dist (total + 1) out l2
          else if type = 2 then do
            let c ← dynamicCodes l2
            blockCodes c.1 c.2.1 (total + 1) out c.2.2
          else none
        match r with
        | none => none
        | some (o, l3) => if last = 1 then some o.reverse else inflateBlocks total fuel o l3

/-- Decompresses a stream. -/
def inflate (l : List Byte) : Option (List Byte) := inflateBlocks (8 * l.length) (8 * l.length + 1) [] (streamBits l)

end Sys2Proof.Machine
end

