-- ==== Sys2Proof/Machine/Sha3.lean ====
section
/-! DEFINITION. SHA3-256 and SHAKE (FIPS 202), as the digests and signatures of the module use them (R154, Table 15-1). The 25 lanes of 64 bits stand in
one number of 1,600 bits, lane (x, y) at bit 64(x + 5y). -/

namespace Sys2Proof.Machine

/-- The 24 round constants. -/
def roundConsts : List Nat :=
  [0x0000000000000001, 0x0000000000008082, 0x800000000000808A, 0x8000000080008000, 0x000000000000808B, 0x0000000080000001,
   0x8000000080008081, 0x8000000000008009] ++
  [0x000000000000008A, 0x0000000000000088, 0x0000000080008009, 0x000000008000000A, 0x000000008000808B, 0x800000000000008B,
   0x8000000000008089, 0x8000000000008003] ++
  [0x8000000000008002, 0x8000000000000080, 0x000000000000800A, 0x800000008000000A, 0x8000000080008081, 0x8000000000008080,
   0x0000000080000001, 0x8000000080008008]

/-- For each lane of the result of rho and pi, the lane that it comes from and how far that is rotated. -/
def rhoPiTable : List (Nat × Nat) :=
  [(0, 0), (6, 44), (12, 43), (18, 21), (24, 14), (3, 28), (9, 20), (10, 3), (16, 45), (22, 61), (1, 1), (7, 6), (13, 25)] ++
  [(19, 8), (20, 18), (4, 27), (5, 36), (11, 10), (17, 15), (23, 56), (2, 62), (8, 55), (14, 39), (15, 41), (21, 2)]

/-- A row of five lanes in each of the five rows. -/
def eachRow (v : Nat) : Nat := v * (1 + 2 ^ 320 + 2 ^ 640 + 2 ^ 960 + 2 ^ 1280)

/-- Bit 0 of each lane of a row. -/
def lowBits : Nat := 1 + 2 ^ 64 + 2 ^ 128 + 2 ^ 192 + 2 ^ 256

/-- A lane rotated left. -/
def rotLane (v r : Nat) : Nat := ((v <<< r) ||| (v >>> (64 - r))) % 2 ^ 64

/-- Each lane of a row rotated left by one. -/
def rotRow (c : Nat) : Nat := ((c <<< 1) &&& ((2 ^ 64 - 2) * lowBits)) ||| ((c >>> 63) &&& lowBits)

/-- Column parity mixing: each lane with the parity of the column on its left and that of the column on its right, rotated. -/
def theta (a : Nat) : Nat :=
  let c := (a ^^^ (a >>> 320) ^^^ (a >>> 640) ^^^ (a >>> 960) ^^^ (a >>> 1280)) % 2 ^ 320
  a ^^^ eachRow ((((c <<< 64) % 2 ^ 320) ||| (c >>> 256)) ^^^ rotRow ((c >>> 64) ||| ((c % 2 ^ 64) <<< 256)))

/-- Rotation and transposition of lanes. -/
def rhoPi (a : Nat) : List (Nat × Nat) → Nat
  | [] => 0
  | p :: ps => rotLane ((a >>> (64 * p.1)) % 2 ^ 64) p.2 + rhoPi a ps <<< 64

/-- In each row the lane on the right of each. -/
def nextLane (a : Nat) : Nat := ((a >>> 64) &&& eachRow (2 ^ 256 - 1)) ||| ((a &&& eachRow (2 ^ 64 - 1)) <<< 256)

/-- Nonlinear mixing of rows: a lane and the next but one where the next is 0. -/
def chi (a : Nat) : Nat :=
  let n := nextLane a
  a ^^^ (nextLane n ^^^ (n &&& nextLane n))

/-- The permutation of 24 rounds. -/
def keccakF (a : Nat) : Nat := roundConsts.foldl (fun a rc => chi (rhoPi (theta a) rhoPiTable) ^^^ rc) a

/-- Absorbs `n` blocks of `rate` bytes. -/
def absorbAll (rate a : Nat) (m : List Byte) : (n : Nat) → Nat
  | 0 => a
  | n + 1 => absorbAll rate (keccakF (a ^^^ leNat (m.take rate))) (m.drop rate) n

/-- A message with its domain suffix and padding, absorbed: the state of the sponge. -/
def sponge (rate suffix : Nat) (m : List Byte) : Nat :=
  let q := rate - m.length % rate
  let pad : List Byte := if q = 1 then [BitVec.ofNat 8 (suffix + 0x80)] else BitVec.ofNat 8 suffix :: (List.replicate (q - 2) 0 ++ [0x80])
  absorbAll rate 0 (m ++ pad) ((m.length + q) / rate)

/-- SHA3-256 of a message, as a 256-bit little-endian integer. -/
def sha3 (m : List Byte) : BitVec 256 := BitVec.ofNat 256 (sponge 136 0x06 m)

/-- The first `n` bytes of SHAKE256, at most 136. -/
def shake256 (m : List Byte) (n : Nat) : List Byte := leBytes n (sponge 136 0x1F m)

end Sys2Proof.Machine
end

