-- ==== Sys2Proof/Machine/Mldsa.lean ====
section
/-! DEFINITION. Verification of a signature by ML-DSA-44 and ML-DSA-65 (FIPS 204, algorithms 3 and 8), which R333 names. Coefficients are numbers below
q, polynomials lists of 256 of them (PRESUMED: the spec names the standard and does not repeat it; assumption 9). -/

namespace Sys2Proof.Machine

/-- A parameter set: the length of the commitment hash, τ, γ1, γ2, k, ℓ, ω, β, and the bits of a coefficient of z and of w1. -/
structure MlDsa where
  hash : Nat
  tau : Nat
  g1 : Nat
  g2 : Nat
  k : Nat
  l : Nat
  omega : Nat
  beta : Nat
  zBits : Nat
  wBits : Nat
  deriving DecidableEq, Repr

/-- The modulus q. -/
def mlQ : Nat := 8380417

/-- ML-DSA-65 (`big`) or ML-DSA-44. -/
def mlSet (big : Bool) : MlDsa :=
  if big then ⟨48, 49, 2 ^ 19, (mlQ - 1) / 32, 6, 5, 55, 196, 20, 4⟩ else ⟨32, 39, 2 ^ 17, (mlQ - 1) / 88, 4, 4, 80, 78, 18, 6⟩

/-! ## Polynomials -/

/-- The 8 bits of a number in reverse order. -/
def rev8 (m : Nat) : Nat := (List.range 8).foldl (fun v i => 2 * v + m / 2 ^ i % 2) 0

/-- The root of node `m` of the transform. -/
def mlZeta (m : Nat) : Nat := 1753 ^ rev8 m % mlQ
/-- Its inverse. -/
def mlZetaInv (m : Nat) : Nat := 1753 ^ (512 - rev8 m) % mlQ

/-- The sum, the difference and the product by coefficient. -/
def polyAdd (a b : List Nat) : List Nat := List.zipWith (fun x y => (x + y) % mlQ) a b
def polySub (a b : List Nat) : List Nat := List.zipWith (fun x y => (x + mlQ - y) % mlQ) a b
def polyMul (a b : List Nat) : List Nat := List.zipWith (fun x y => x * y % mlQ) a b

/-- The number-theoretic transform of 2^n coefficients below node `m`. -/
def nttFrom : (n m : Nat) → List Nat → List Nat
  | 0, _, w => w
  | n + 1, m, w =>
    let lo := w.take (2 ^ n)
    let t := (w.drop (2 ^ n)).map fun x => mlZeta m * x % mlQ
    nttFrom n (2 * m) (polyAdd lo t) ++ nttFrom n (2 * m + 1) (polySub lo t)

/-- The inverse transform below node `m`, but for the factor 2^n. -/
def invFrom : (n m : Nat) → List Nat → List Nat
  | 0, _, w => w
  | n + 1, m, w =>
    let a := invFrom n (2 * m) (w.take (2 ^ n))
    let b := invFrom n (2 * m + 1) (w.drop (2 ^ n))
    polyAdd a b ++ (polySub a b).map fun x => mlZetaInv m * x % mlQ

/-- The transform of a polynomial. -/
def ntt (w : List Nat) : List Nat := nttFrom 8 1 w
/-- Its inverse; 8347681 is the inverse of 256. -/
def invNtt (w : List Nat) : List Nat := (invFrom 8 1 w).map fun x => 8347681 * x % mlQ

/-! ## Encodings and sampling -/

/-- 256 numbers of `b` bits. -/
def unpackBits (b : Nat) (l : List Byte) : List Nat :=
  let v := leNat l
  (List.range 256).map fun i => (v >>> (b * i)) % 2 ^ b

/-- Numbers of `b` bits as one number. -/
def packBits (b : Nat) (l : List Nat) : Nat := l.foldr (fun x v => x + v <<< b) 0

/-- The coefficients below q among the 56 of 23 bits that a block of SHAKE128 gives, until there are 256 (RejNTTPoly). Six blocks give 336, of which one
in a thousand is not below q. -/
def rejPoly : (blocks st : Nat) → List Nat → List Nat
  | 0, _, acc => acc
  | n + 1, st, acc =>
    if 256 ≤ acc.length then acc.take 256
    else rejPoly n (keccakF st) (acc ++ ((List.range 56).map fun i => (st >>> (24 * i)) % 2 ^ 23).filter fun x => x < mlQ)

/-- Entry (r, s) of the matrix that a seed expands to (ExpandA). -/
def matEntry (rho : List Byte) (r s : Nat) : List Nat :=
  rejPoly 7 (sponge 168 0x1F (rho ++ [BitVec.ofNat 8 s, BitVec.ofNat 8 r])) []

/-- The challenge polynomial with τ coefficients 1 or −1 (SampleInBall): each place is the next byte of SHAKE256 that is not above the place it fills. -/
def challenge (tau : Nat) (hash : List Byte) : List Nat :=
  let st := sponge 136 0x1F hash
  let bytes := (leBytes 136 st ++ leBytes 136 (keccakF st)).map BitVec.toNat
  ((List.range tau).foldl (fun (p : List Nat × List Nat) k =>
    let i := 256 - tau + k
    let l := p.2.dropWhile fun b => i < b
    let j := l.headD 0
    ((p.1.set i (p.1.getD j 0)).set j (if (st >>> k) % 2 = 1 then mlQ - 1 else 1), l.tail))
    (List.replicate 256 0, bytes.drop 8)).1

/-- The places of ones in a polynomial of the hint: `y` holds them all, the first `ix` belong to polynomials before; they rise up to place `e`. -/
def hintRow (y : List Nat) (ix e : Nat) : Option (List Nat) :=
  let l := (y.take e).drop ix
  if l.Pairwise (· < ·) then some l else none

/-- The hint (HintBitUnpack): for each polynomial the places of its ones, nothing where it is malformed. -/
def hintRows (omega : Nat) (y : List Nat) (ix : Nat) : List Nat → Option (List (List Nat))
  | [] => if (y.drop ix).all (· = 0) then some [] else none
  | e :: es =>
    if e < ix ∨ omega < e then none
    else match hintRow y ix e, hintRows omega y e es with
      | some l, some ls => some (l :: ls)
      | _, _ => none

/-- The high part of a coefficient, and whether its low part is above 0 (Decompose). -/
def highPart (g2 r : Nat) : Nat × Bool :=
  let x := r % (2 * g2)
  let y := if x ≤ g2 then r - x else r - x + 2 * g2
  (if y = mlQ - 1 then 0 else y / (2 * g2), 0 < x && x ≤ g2)

/-- The high part of a coefficient as its hint corrects it (UseHint). -/
def useHint (g2 : Nat) (h : Bool) (r : Nat) : Nat :=
  let m := (mlQ - 1) / (2 * g2)
  let p := highPart g2 r
  if !h then p.1 else if p.2 then (p.1 + 1) % m else (p.1 + m - 1) % m

/-! ## Verification -/

/-- Row `r` of A·z − c·t1·2^13, in the transformed domain: `zh` and `ch` are transforms. -/
def mlRow (p : MlDsa) (rho : List Byte) (zh : List (List Nat)) (ch t1 : List Nat) (r : Nat) : List Nat :=
  let az := (List.range p.l).foldl (fun a s => polyAdd a (polyMul (matEntry rho r s) (zh.getD s []))) (List.replicate 256 0)
  invNtt (polySub az (polyMul ch (ntt (t1.map (8192 * ·)))))

/-- Verifies `sig` over `msg` with context `ctx` and public key `key`. -/
def mlVerify (big : Bool) (key msg ctx sig : List Byte) : Bool :=
  let p := mlSet big
  let rho := key.take 32
  let hash := sig.take p.hash
  let zs := (List.range p.l).map fun i => unpackBits p.zBits ((sig.drop (p.hash + 32 * p.zBits * i)).take (32 * p.zBits))
  let y := (sig.drop (p.hash + 32 * p.zBits * p.l)).map BitVec.toNat
  let zh := zs.map fun z => ntt (z.map fun v => (p.g1 + mlQ - v) % mlQ)
  let ch := ntt (challenge p.tau hash)
  let mu := shake256 (shake256 key 64 ++ [0, BitVec.ofNat 8 ctx.length] ++ ctx ++ msg) 64
  key.length = 32 + 320 * p.k && sig.length = p.hash + 32 * p.zBits * p.l + p.omega + p.k && decide (ctx.length ≤ 255) &&
    zs.all (fun z => z.all fun v => decide (p.beta < v) && decide (v + p.beta < 2 * p.g1)) &&
    match hintRows p.omega (y.take p.omega) 0 (y.drop p.omega) with
    | none => false
    | some hs =>
      let w1 := (List.range p.k).map fun r =>
        let row := mlRow p rho zh ch (unpackBits 10 ((key.drop (32 + 320 * r)).take 320)) r
        leBytes (32 * p.wBits) (packBits p.wBits ((List.range 256).map fun j => useHint p.g2 ((hs.getD r []).contains j) (row.getD j 0)))
      shake256 (mu ++ w1.flatten) p.hash = hash

end Sys2Proof.Machine
end

