-- ==== Sys2Proof/Machine/Evc.lean ====
section
/-! DEFINITION. Rings (10, R261, R262) and the event controller (12, R282 to R294): levels, source states, delivery, claims,
completions, returns, HOLD, enables and the VPM-2 compatibility window. -/

namespace Sys2Proof.Machine

/-! ## Rings (R262) -/

/-- LOG2N in force: a value outside 4 to 14 acts as the default 4; RING10 has 16 entries. -/
def State.ringLog (s : State) (r : Nat) : Nat :=
  let n := s.get (R.NET.RCFG.LOG2N r)
  if r = 10 ∨ n < 4 ∨ 14 < n then 4 else n

/-- The number of entries. -/
def State.ringN (s : State) (r : Nat) : Nat := 2 ^ s.ringLog r

/-- The size of an entry in bytes. -/
def State.ringSize (s : State) (r : Nat) : Nat := 2 ^ s.get (R.NET.RCFG.ESZ r)

/-- The ring is enabled. -/
def State.ringOn (s : State) (r : Nat) : Bool := s.get (R.NET.RCFG.EN r) = 1

/-- The ring holds no entry. -/
def State.ringEmpty (s : State) (r : Nat) : Bool := s.get (R.NET.HEAD.INDEX r) = s.get (R.NET.TAIL.INDEX r)

/-- The ring is full. -/
def State.ringFull (s : State) (r : Nat) : Bool :=
  (s.get (R.NET.HEAD.INDEX r) + 1) % s.ringN r = s.get (R.NET.TAIL.INDEX r)

/-- The address of entry `i` of a ring. -/
def State.ringAddr (s : State) (r i : Nat) : Nat :=
  s.getPair (R.NET.RBASE_LO.ADDR r) (R.NET.RBASE_HI.ADDR r) % 2 ^ 40 + i * s.ringSize r

/-- Writes the words of an entry at HEAD and advances HEAD. -/
def State.ringPut (s : State) (r : Nat) (words : List Nat) : State :=
  let h := s.get (R.NET.HEAD.INDEX r)
  let bytes := words.flatMap fun w => leBytes 4 w
  { s with smem := dmaPut s.smem (s.ringAddr r h) bytes }.set (R.NET.HEAD.INDEX r) ((h + 1) % s.ringN r)

/-- Word `w` of the entry at TAIL. -/
def State.ringWord (s : State) (r w : Nat) : Nat :=
  leNat (dmaBytes s.smem (s.ringAddr r (s.get (R.NET.TAIL.INDEX r)) + 4 * w) 4)

/-- Advances TAIL. -/
def State.ringTake (s : State) (r : Nat) : State :=
  s.set (R.NET.TAIL.INDEX r) ((s.get (R.NET.TAIL.INDEX r) + 1) % s.ringN r)

/-! ## Sources (R282 to R285) -/

/-- The key of a source: private bank `t` number `n`, or shared number `n` from 16. -/
def evKey (t n : Nat) : Nat := if n < 16 then 16 * t + n else 160 + n

/-- The number of a source. -/
def evNum (k : Nat) : Nat := if k < 160 then k % 16 else k - 160

/-- Whether a source is latched, and so can be asserted through a latch (Tables 12-1, 12-2). -/
def evLatched (k : Nat) : Bool :=
  if k < 160 then
    let n := k % 16
    let t := k / 16
    decide (n < 8) || n = 11 || (decide (n < 11) && decide (t < 8))
  else
    let n := k - 160
    n = 17 || (decide (64 ≤ n) && decide (n < 256))

/-- The latch field and bit of a latched source. -/
def evLatch (k : Nat) : Fld × Nat :=
  if k < 160 then (R.EVC.PLAT.LAT (k / 16), k % 16)
  else
    let n := k - 160
    if n = 17 then (R.EVC.SLAT.EXC, 0) else (R.EVC.SWLAT.LAT ((n - 64) / 32), (n - 64) % 32)

/-- Writes bit `n` of a field. -/
def State.putBit (s : State) (f : Fld) (n : Nat) (b : Bool) : State :=
  s.set f (2 ^ (n + 1) * (s.get f / 2 ^ (n + 1)) + 2 ^ n * b2n b + s.get f % 2 ^ n)

/-- Sets a private latch of a target (Table 12-1). -/
def State.evSetPrivate (s : State) (t n : Nat) : State := s.putBit (R.EVC.PLAT.LAT t) n true

/-- The level of a shared source that is not latched (Table 12-2). -/
def State.evBlockLevel (s : State) (n : Nat) : Bool :=
  let any (f : Fld) : Bool := s.get f != 0
  match n with
  | 16 => any R.TASK.SKIPFLG.CLASS
  | 18 => any R.VOTE.FLAG.EXCL
  | 19 => any R.VOTE.FLAG.READMIT
  | 20 => any R.VOTE.FLAG.PERM
  | 21 => any R.VOTE.FLAG.DEGWARN
  | 22 => any R.GONG.FLAG.REPHASE
  | 23 => any R.SIG.FLAG.STALE
  | 24 => any R.SIG.FLAG.FDROP
  | 25 => any R.SIO.FLAG.IFLT || any R.SIO.FLAG.PFLT || any R.SIO.FLAG.OFLT
  | 26 => any R.SIO.FLAG.PROOFLOSS
  | 27 => any R.SPD.FLAG.UNKNOWN || any R.SPD.FLAG.SINGLE || any R.SPD.FLAG.SSWARN || any R.SPD.FLAG.DISCR
  | 28 => any R.PAIR.FLAG.all
  | 29 => any R.NET.FLAG.TIMEOUT
  | 30 => any R.NET.FLAG.SDTERR || any R.NET.FLAG.EPODROP
  | 31 => any R.NET.FLAG.LINKCHG || any R.NET.FLAG.LANLOSS
  | 32 => any R.NET.FLAG.NEWINAUG
  | 33 => any R.NET.FLAG.RXFULL
  | 34 => any R.TIME.FLAG.JUMPREF || any R.TIME.FLAG.LOCKLOSS || any R.TIME.FLAG.GMCHG
  | 35 => any R.TIME.FLAG.FORCED
  | 36 => !s.ringEmpty 24
  | 37 => !s.ringEmpty 25
  | 38 => !s.ringEmpty 26
  | 39 => !s.ringEmpty 27
  | 40 => s.bit R.BRG.INTST.INT 0
  | 41 => s.bit R.BRG.INTST.INT 1
  | 42 => s.bit R.BRG.INTST.INT 2
  | 43 => s.bit R.BRG.INTST.INT 3
  | 44 => !s.ringEmpty 10
  | 45 => any R.BRG.FLAG.all
  | 46 => any R.SUP.FLAG.all
  | 47 => any R.UPD.FLAG.all
  | 48 => any R.BIST.FLAG.all
  | 49 => any R.CFG.FLAG.all
  | _ => false

/-- The level of a source (R283, R284). -/
def State.evLevel (s : State) (k : Nat) : Bool :=
  if evLatched k then s.bit (evLatch k).1 (evLatch k).2 else if k < 160 then false else s.evBlockLevel (k - 160)

/-- Whether a source is enabled; a reserved TARGET disables it. -/
def State.evEnabled (s : State) (k : Nat) : Bool :=
  if k < 160 then s.bit (R.EVC.PEN.EN (k / 16)) (k % 16)
  else s.get (R.EVC.SCFG.EN (k - 160)) = 1 && decide (s.get (R.EVC.SCFG.TARGET (k - 160)) < 10)

/-- The target of a source. -/
def State.evTarget (s : State) (k : Nat) : Nat := if k < 160 then k / 16 else s.get (R.EVC.SCFG.TARGET (k - 160))

/-- The priority of a source. -/
def State.evPrio (s : State) (k : Nat) : Nat :=
  if k < 160 then
    let n := k % 16
    let w := if n < 8 then s.get (R.EVC.PPRI0.PRIO (k / 16)) else s.get (R.EVC.PPRI1.PRIO (k / 16))
    w / 2 ^ (4 * (n % 8)) % 16
  else s.get (R.EVC.SCFG.PRIO (k - 160))

/-- The state code of a source (Table 12-10). -/
def State.evState (s : State) (k : Nat) : Nat :=
  match tblFind s.evs k with
  | none => 0
  | some e => match e.ph with
    | .pending => 1
    | .delivered => 2
    | .claimed => 3

/-- Moves a source out of IDLE or PENDING as its level and enable stand (Table 12-3). `redo` marks the next record. -/
def State.evPoll (s : State) (k : Nat) (redo : Bool := false) : State :=
  let on := s.evLevel k && s.evEnabled k
  match tblFind s.evs k with
  | none =>
    if on then
      { s with evs := tblPut s.evs k ⟨.pending, BitVec.ofNat 64 s.nowNs, BitVec.ofNat 32 s.frameShown, redo, none, none⟩ }
    else s
  | some e => if e.ph = .pending && !on then { s with evs := tblDel s.evs k } else s

/-- Every PENDING source whose level is withdrawn, or which is disabled, becomes IDLE (Table 12-3). -/
def State.evSense (s : State) : State :=
  { s with evs := s.evs.filter fun p => p.2.ph != .pending || (s.evLevel p.1 && s.evEnabled p.1) }

/-- Polls the sources of a list. -/
def State.evPollAll (s : State) (ks : List Nat) : State := ks.foldl (fun t k => t.evPoll k) s

/-- The source becomes IDLE, and PENDING at once where its level is still asserted. -/
def State.evFinish (s : State) (k : Nat) (redo : Bool) : State := { s with evs := tblDel s.evs k }.evPoll k redo

/-! ## Delivery (R286, R287) -/

/-- The PENDING source of target `t` that is written first: highest PRIO, then lowest number, private before shared. -/
def State.evFirst (s : State) (t : Nat) : Option Nat :=
  s.evs.foldl (fun best p =>
    if p.2.ph = .pending && s.evTarget p.1 = t then
      match best with
      | none => some p.1
      | some b =>
        let x := s.evPrio p.1
        let y := s.evPrio b
        if y < x ∨ (x = y ∧ evNum p.1 < evNum b) then some p.1 else best
    else best) none

/-- Writes the record of source `k` to the ring of target `t`. -/
def State.evDeliver (s : State) (t : Fin 10) (k : Nat) : State :=
  match tblFind s.evs k with
  | none => s
  | some e =>
    let seq := s.evSeq[t] + 1
    let w0 := 2 ^ 28 * s.evPrio k + 2 ^ 24 * t.val + 2 ^ 16 * seq.toNat + 2 ^ 11 * b2n e.redo + evNum k
    let s := s.ringPut t.val [w0, e.ts.toNat % 2 ^ 32, e.ts.toNat / 2 ^ 32, e.frame.toNat]
    { s with evSeq := s.evSeq.set t seq, evs := tblPut s.evs k { e with ph := .delivered } }.inc R.EVC.DELIVCNT.COUNT

/-- Delivers the first eligible source of target `t`, after sources whose level is withdrawn have left PENDING; where the ring is full RFULL is set
and the source stays PENDING. -/
def State.evDeliverFirst (s : State) (t : Fin 10) : State :=
  let s := s.evSense
  if s.bit R.EVC.HOLD.TGT t.val || !s.ringOn t.val then s
  else match s.evFirst t.val with
    | none => s
    | some k => if s.ringFull t.val then s.flag R.EVC.FLAG.RFULL else s.evDeliver t k

/-- The event interrupt of a steward core, ST0 or ST1 (R291): asserted while its RNE bit and its IEN bit are both 1. -/
def State.eventIrq (s : State) (st1 : Bool) : Bool := !s.ringEmpty (8 + b2n st1) && s.bit R.EVC.IEN.ST (b2n st1)

/-- Delivers sources of target `t` until none is eligible, at most `n`. -/
def State.evDeliverAll (s : State) (t : Fin 10) : Nat → State
  | 0 => s
  | n + 1 => (s.evDeliverFirst t).evDeliverAll t n

/-! ## Claims, completions, returns (R288 to R290) -/

/-- Sets the requester's CLREC(0) to CLREC(3). -/
def State.setClrec (s : State) (r : Req) (ws : List Nat) : State :=
  (List.range 4).foldl (fun t i => t.preqSet r (R.EVC.CLREC.WORD i).off (BitVec.ofNat 32 (ws.getD i 0))) s

/-- A claim for target `t` by requester `r` (R288): the number returned and the state after. An empty ring changes nothing, and CLREC keeps the last
claimed record (DEDUCED, assumption 28: "the last two cases" in which CLREC reads zero cannot hold of it). -/
def State.evClaim (s : State) (r : Req) (t : Nat) (task : Option Nat) : Nat × State :=
  if s.ringEmpty t then (0x3FF, s)
  else
    let ws := (List.range 4).map fun w => s.ringWord t w
    let n := ws.headD 0 % 1024
    let k := evKey t n
    let s := s.ringTake t
    match tblFind s.evs k with
    | some e =>
      if s.evLevel k && s.evEnabled k then
        (n, { s with evs := tblPut s.evs k { e with ph := .claimed, redo := false, task := task, target := some t } }.setClrec r ws)
      else (0x3FF, (({ s with evs := tblDel s.evs k }.flag R.EVC.FLAG.SPUR).incSat R.EVC.SPURCNT.COUNT).setClrec r [])
    | none => (0x3FF, ((s.flag R.EVC.FLAG.SPUR).incSat R.EVC.SPURCNT.COUNT).setClrec r [])

/-- Completes number `n` for target `t`: the source is claimed by `t`, whatever target SCFG names by now (R289). -/
def State.evComplete (s : State) (t n : Nat) : State :=
  let k := evKey t n
  match tblFind s.evs k with
  | some e =>
    if e.ph = .claimed && e.target = some t && decide (n < 256) then
      let s := if evLatched k then s.putBit (evLatch k).1 (evLatch k).2 false else s
      s.evFinish k false
    else s
  | none => s

/-- Returns the sources that engines claimed for the tasks of a list and nothing completed (R290). -/
def State.evReturn (s : State) (tasks : List Nat) : State :=
  s.evs.foldl (fun t p =>
    match p.2.task with
    | some k => if p.2.ph = .claimed && tasks.contains k then t.evFinish p.1 true else t
    | none => t) s

/-! ## Who is which target (R293) -/

/-- The target of a requester: an engine its own, a steward core its own, the maintenance port ST0's. -/
def reqTarget : Req → Fin 10
  | .eng e => ⟨e.val, by omega⟩
  | .st0 => 8
  | .st1 => 9
  | .maint => 8

/-- The task that runs on an engine requester in the leading channel. -/
def State.reqTask (s : State) : Req → Option Nat
  | .eng e => ((s.ch s.leadCh).eng[e]).run
  | _ => none

/-- The steward may write source enables: INIT, RUN or SAFE. -/
def State.enablesOpen (s : State) : Bool := s.mstate = .init || s.mstate = .run || s.mstate = .safe

/-- Writes the enables of a private bank and polls its sources (Table 12-3). -/
def State.setPen (s : State) (t : Nat) (v : Nat) : State :=
  (s.set (R.EVC.PEN.EN t) v).evPollAll ((List.range 16).map fun n => evKey t n)

/-- The source of bit `b` of window word `j` for target `t` (R293). -/
def winKey (t j b : Nat) : Nat := evKey t (32 * j + b)

/-- CPEND(j): one bit per source that is PENDING or DELIVERED. -/
def State.cpend (s : State) (t j : Nat) : Nat :=
  (List.range 32).foldl (fun v b =>
    let st := s.evState (winKey t j b)
    v + (if st = 1 ∨ st = 2 then 2 ^ b else 0)) 0

/-- CMASK(j): the inverse of each source's enable. -/
def State.cmask (s : State) (t j : Nat) : Nat :=
  (List.range 32).foldl (fun v b =>
    let k := winKey t j b
    let en := if k < 160 then s.bit (R.EVC.PEN.EN (k / 16)) (k % 16) else s.get (R.EVC.SCFG.EN (k - 160)) = 1
    v + (if en then 0 else 2 ^ b)) 0

/-- A write of CPEND(j): a latched source's latch takes the bit, and a source withdrawn so leaves PENDING (Table 12-6). -/
def State.writeCpend (s : State) (r : Req) (j : Nat) (v : W32) : State :=
  ((List.range 32).foldl (fun t b =>
    let k := winKey (reqTarget r).val j b
    if evLatched k then t.putBit (evLatch k).1 (evLatch k).2 (v.toNat / 2 ^ b % 2 = 1) else t) s).evSense

/-- A write of CMASK(j): each enable takes the inverse of its bit; a program reaches its own bank and the shared sources targeted at
its engine. -/
def State.writeCmask (s : State) (r : Req) (j : Nat) (v : W32) : State :=
  (List.range 32).foldl (fun t b =>
    let k := winKey (reqTarget r).val j b
    let en := v.toNat / 2 ^ b % 2 = 0
    if k < 160 then (t.putBit (R.EVC.PEN.EN (k / 16)) (k % 16) en).evPoll k
    else if isEng r && t.evTarget k != (reqTarget r).val then t
    else (t.set (R.EVC.SCFG.EN (k - 160)) (b2n en)).evPoll k) s

/-- A write of HOLDSET: a program's acts on its own engine's bit. -/
def State.holdMask (r : Req) (mask : Nat) : Nat := if isEng r then mask &&& 2 ^ (reqTarget r).val else mask

/-- Sets HOLD bits (R292). -/
def State.holdSet (s : State) (r : Req) (mask : Nat) : State := s.set R.EVC.HOLD.TGT (s.get R.EVC.HOLD.TGT ||| State.holdMask r mask)

/-- Clears HOLD bits and delivers every eligible source of those targets (R292). -/
def State.holdClr (s : State) (r : Req) (mask : Nat) : State :=
  let m := State.holdMask r mask
  let s := s.set R.EVC.HOLD.TGT (s.get R.EVC.HOLD.TGT &&& (0x3FF ^^^ (m % 1024)))
  (List.range 10).foldl (fun t i => if m / 2 ^ i % 2 = 1 then t.evDeliverAll (Fin.ofNat 10 i) t.evs.length else t) s

/-! ## The commands -/

/-- EVENT_SOURCE_ASSERT: INTA# to INTD# are sensed low while the bridge holds the duties (R297, R312); any source whose level is asserted
and which is enabled becomes PENDING. -/
def execEventSourceAssert (t : Fin 10) (num : Fin 256) (old : State) : Host.Outcome State Fault Refusal :=
  let s := if 40 ≤ num.val ∧ num.val ≤ 43 ∧ old.get R.BRG.STATUS.HOLD = 1 then old.putBit R.BRG.INTST.INT (num.val - 40) true else old
  old.whilePowered (s.evPoll (evKey t.val num.val))

/-- EVENT_SOURCE_WITHDRAW: an interrupt line is released; a PENDING source whose level is withdrawn becomes IDLE. -/
def execEventSourceWithdraw (t : Fin 10) (num : Fin 256) (old : State) : Host.Outcome State Fault Refusal :=
  let s := if 40 ≤ num.val ∧ num.val ≤ 43 then old.putBit R.BRG.INTST.INT (num.val - 40) false else old
  old.whilePowered (s.evPoll (evKey t.val num.val))

/-- EVENT_DELIVERY: the first eligible source of a target. -/
def execEventDelivery (t : Fin 10) (s : State) : Host.Outcome State Fault Refusal := s.whilePowered (s.evDeliverFirst t)

/-- A requester's claim for target `t`, with the number it returns. -/
def State.claimFor (s : State) (r : Req) (t : Fin 10) : State :=
  let (n, s1) := s.evClaim r t.val (s.reqTask r)
  { s1 with resp := if isEng r then s1.resp else some (BitVec.ofNat 32 n) }

/-- EVENT_CLAIM: a read of CLAIM(t). -/
def execEventClaim (r : Req) (t : Fin 10) (s : State) : Host.Outcome State Fault Refusal :=
  s.whilePowered (if s.shut r then { s with resp := some 0 } else s.claimFor r t)

/-- EVENT_COMPLETE: a write to COMPLETE(t); an engine reaches only its own. -/
def execEventComplete (r : Req) (t : Fin 10) (num : BitVec 10) (s : State) : Host.Outcome State Fault Refusal :=
  s.whilePowered (if (isEng r && (reqTarget r).val != t.val) || s.shut r then s else s.evComplete t.val num.toNat)

/-- HOLDSET. -/
def execHoldset (r : Req) (mask : BitVec 10) (s : State) : Host.Outcome State Fault Refusal := s.whilePowered (if s.shut r then s else s.holdSet r mask.toNat)

/-- HOLDCLR. -/
def execHoldclr (r : Req) (mask : BitVec 10) (s : State) : Host.Outcome State Fault Refusal := s.whilePowered (if s.shut r then s else s.holdClr r mask.toNat)

/-- PSET: doorbell latches of target t. Programs may write it. -/
def execPset (r : Req) (t : Fin 10) (mask : Byte) (s : State) : Host.Outcome State Fault Refusal :=
  s.whilePowered (if s.shut r then s else s.orBits (R.EVC.PLAT.LAT t.val) mask.toNat)

/-- SWSET: software event latches. Programs may write it. -/
def execSwset (r : Req) (j : Fin 6) (mask : W32) (s : State) : Host.Outcome State Fault Refusal :=
  s.whilePowered (if s.shut r then s else s.orBits (R.EVC.SWLAT.LAT j.val) mask.toNat)

/-- PENSET: enables private sources; a program's write is ignored. -/
def execPenset (r : Req) (t : Fin 10) (mask : BitVec 16) (s : State) : Host.Outcome State Fault Refusal :=
  s.whilePowered (if !s.steward r || !s.enablesOpen then s else s.setPen t.val (s.get (R.EVC.PEN.EN t.val) ||| mask.toNat))

/-- PENCLR: disables private sources; a program's write is ignored. -/
def execPenclr (r : Req) (t : Fin 10) (mask : BitVec 16) (s : State) : Host.Outcome State Fault Refusal :=
  s.whilePowered (if !s.steward r || !s.enablesOpen then s
    else s.setPen t.val (s.get (R.EVC.PEN.EN t.val) &&& (0xFFFF ^^^ mask.toNat)))

/-- CPEND_WRITE. -/
def execCpendWrite (r : Req) (j : Fin 8) (v : W32) (s : State) : Host.Outcome State Fault Refusal :=
  s.whilePowered (if s.shut r then s else s.writeCpend r j.val v)

/-- CMASK_WRITE. -/
def execCmaskWrite (r : Req) (j : Fin 8) (v : W32) (s : State) : Host.Outcome State Fault Refusal :=
  s.whilePowered (if s.shut r then s else s.writeCmask r j.val v)

/-- CVEC_READ: as CLAIM of the requester's target. -/
def execCvecRead (r : Req) (s : State) : Host.Outcome State Fault Refusal :=
  s.whilePowered (if s.shut r then { s with resp := some 0 } else s.claimFor r (reqTarget r))

/-- CACK_WRITE: as COMPLETE of the requester's target. -/
def execCackWrite (r : Req) (v : W32) (s : State) : Host.Outcome State Fault Refusal :=
  s.whilePowered (if s.shut r then s else s.evComplete (reqTarget r).val (v.toNat % 1024))

end Sys2Proof.Machine
end

