-- ==== Sys2Proof/Machine/Mram.lean ====
section
/-! DEFINITION. What a read of MRAM sees (Table 1-5): NV images (R315, R316), retain areas (R191 to R193) and the Fumarole ring (R362). -/

namespace Sys2Proof.Machine

/-- One bit of the CRC-32 of IEEE 802.3, bits taken least significant first. -/
def crcBit (c : W32) : W32 := if c.getLsbD 0 then (c >>> 1) ^^^ 0xEDB88320 else c >>> 1

/-- One byte of the CRC-32. -/
def crcByte (c : W32) (b : Byte) : W32 :=
  crcBit (crcBit (crcBit (crcBit (crcBit (crcBit (crcBit (crcBit (c ^^^ b.zeroExtend 32))))))))

/-- CRC-32 with the IEEE 802.3 polynomial, initial value and final inversion as that standard has them. -/
def crc32 (l : List Byte) : W32 := (l.foldl crcByte 0xFFFFFFFF) ^^^ 0xFFFFFFFF

/-! ## NV images -/

/-- The body of an NV image (R316). -/
def nvBody (m : NvImage) : List Byte :=
  m.entries.flatMap fun e => leBytes 4 e.word0.toNat ++ leBytes 4 e.mask.toNat ++ leBytes 4 e.value.toNat

/-- The first 60 bytes of an image's header (Table 14-1). -/
def nvHead (m : NvImage) : List Byte :=
  leBytes 4 m.magic.toNat ++ leBytes 2 m.format.toNat ++ leBytes 2 0 ++ leBytes 4 m.cfgver.toNat ++ leBytes 4 m.actseq.toNat ++
  leBytes 4 m.entries.length ++ leBytes 4 m.bodyCrc.toNat ++ leBytes 8 m.created.toNat ++ leBytes 4 m.prevver.toNat ++
  leBytes 24 0

/-- An image as it lies in MRAM. -/
def nvBytes (m : NvImage) : List Byte := nvHead m ++ leBytes 4 m.hcrc.toNat ++ nvBody m

/-! ## Retain areas -/

/-- A slot as its 32 bytes (R90, R91). -/
def slotBytes (s : Slot) : List Byte :=
  leBytes 4 s.w0.toNat ++ leBytes 4 s.inst.toNat ++ leBytes 8 s.p.toNat ++ leBytes 8 s.e.toNat ++ leBytes 8 s.l.toNat

/-- A slot from its 32 bytes, with the adoption mark beside them. -/
def bytesSlot (b : List Byte) (adopt : Bool) : Slot :=
  let n (o k : Nat) := leNat (bytesAt b o k)
  ⟨BitVec.ofNat 32 (n 0 4), BitVec.ofNat 32 (n 4 4), BitVec.ofNat 64 (n 8 8), BitVec.ofNat 64 (n 16 8), BitVec.ofNat 64 (n 24 8), adopt⟩

/-- An entry of a record's body (R193). -/
def retEntBytes : RetEnt → List Byte
  | .sig id w3 val =>
    leBytes 4 id ++ leBytes 4 w3.toNat ++ bytesAt val 0 ((val.length + 7) / 8 * 8)
  | .slot idx s => leBytes 4 (2 ^ 31 + idx) ++ leBytes 4 0 ++ slotBytes s

/-- The body of a record. -/
def retBody (r : RetBuf) : List Byte := r.body.flatMap retEntBytes

/-- The first 60 bytes of a record's header (Table 7-6). -/
def retHead (r : RetBuf) : List Byte :=
  leBytes 4 0x7A310300 ++ leBytes 4 r.seq.toNat ++ leBytes 8 r.frame ++ leBytes 4 r.pver.toNat ++ leBytes 4 r.cfgver.toNat ++
  leBytes 4 r.body.length ++ leBytes 4 (retBody r).length ++ leBytes 8 (r.wallNs / 1000000000) ++
  leBytes 4 (r.wallNs % 1000000000) ++ leBytes 4 (b2n r.xch + 2 * b2n r.tlock) ++ leBytes 12 0

/-- A record as it lies in its buffer: header, guard section, body from 0x100. -/
def retBytes (r : RetBuf) : List Byte :=
  retHead r ++ leBytes 4 (crc32 (retHead r)).toNat ++ leBytes 2 r.proven.toNat ++ leBytes 2 r.guards.toNat ++ leBytes 60 0 ++
  leBytes 128 0 ++ retBody r

/-- A byte of a retain area at offset `o`. -/
def retAreaByte (a : RetArea) (o : Nat) : Byte :=
  match if o < 0x800000 then a.b0 else a.b1 with
  | some r => (retBytes r).getD (o % 0x800000) 0
  | none => 0

/-! ## Fumarole -/

/-- A byte of the Fumarole ring at offset `o`. -/
def State.fumByte (s : State) (o : Nat) : Byte :=
  let age := (s.fumPos + fumSize - 1 - o / 32) % fumSize
  match (s.fum.drop age).head? with
  | some r => (leBytes 4 r.seq.toNat ++ r.body).getD (o % 32) 0
  | none => 0

/-- The bytes of an optional image. -/
def nvByte (m : Option NvImage) (o : Nat) : Byte :=
  match m with
  | some i => (nvBytes i).getD o 0
  | none => 0

/-- The byte of MRAM at offset `o` (Table 1-5). Where the identity record lies in the factory region is not stated; it does not
show here (assumption 4). -/
def State.mramByte (s : State) (o : Nat) : Byte :=
  if o < 0x800000 then nvByte s.nv.factory o
  else if o < 0x1800000 then nvByte s.nv.userA (o - 0x800000)
  else if o < 0x2800000 then nvByte s.nv.userB (o - 0x1800000)
  else if o < 0x3800000 then retAreaByte s.ret.a (o - 0x2800000)
  else if o < 0x4800000 then retAreaByte s.ret.b (o - 0x3800000)
  else if o < 0x5800000 then retAreaByte s.ret.c (o - 0x4800000)
  else if o < 0x9800000 then s.fumByte (o - 0x5800000)
  else 0

end Sys2Proof.Machine
end

