-- ==== Sys2Proof/Machine/Bus.lean ====
section
/-! DEFINITION. Shared ranges as the engines, the steward cores and the maintenance port reach them: register reads with latches and
live views (R1 to R5, R13, R268), distributed reads (R13, R142), and stores released from the commit buffer (R15, R86). -/

namespace Sys2Proof.Machine

/-! ## Pairs (R3, R4) -/

/-- The offsets of the _LO registers. -/
def loOffs : List Nat :=
  [0x8, 0x40, 0x10008, 0x10010, 0x20090, 0x2011C, 0x20144, 0x30044, 0x40050, 0x70010, 0x70020, 0x70028, 0x70038, 0x70058,
   0xB000C, 0xB0014, 0xE0028]

/-- Whether an offset is a _LO register; its _HI register follows it. -/
def isLo (off : Nat) : Bool :=
  loOffs.contains off || (decide (0x60800 ≤ off) && decide (off < 0x61000) && off % 32 = 0)

/-- Whether an offset is a register a latch holds: a _HI register, NOWNS or NOWFRAC. -/
def isLatched (off : Nat) : Bool := (decide (4 ≤ off) && isLo (off - 4)) || off = 0x70018 || off = 0x7001C

/-! ## Live views -/

/-- Process-data transmit is permitted (Table 10-3). -/
def State.txen (s : State) : Bool :=
  s.mstate = .run && s.leads && s.get R.ID.ASTAT.ADDR = 1 && !s.sup.latch

/-- Word `w` of the directory entry of a signal in the leading channel. -/
def State.dirWord (s : State) (id w : Nat) : W32 :=
  match tblFind (s.ch s.leadCh).dir id with
  | none => 0
  | some e => match w with
    | 0 => e.w0
    | 1 => e.w1
    | 2 => e.w2
    | _ => e.w3

/-- Word `w` of force table entry `i` (Table 3-8). -/
def State.ftab (s : State) (i w : Nat) : W32 :=
  match (s.forces.drop i).head? with
  | none => 0
  | some f => match w with
    | 0 => BitVec.ofNat 32 (2 ^ 31 + f.id)
    | 1 => f.frame
    | 2 => f.val.truncate 32
    | _ => (f.val >>> 32).truncate 32

/-- NET.TENT(w) for a requester's TSEL (Table 10-16). -/
def State.tent (s : State) (r : Req) (w : Nat) : W32 :=
  let sel := (s.preqGet r R.NET.TSEL.INDEX.off).toNat
  let i := sel % 2 ^ 13
  if sel / 2 ^ 31 = 0 then
    if 4096 ≤ i then 0
    else
      let p := (tblFind s.net.pubSt i).getD ⟨0, 0, 0⟩
      if w = 8 then p.ssc else if w = 9 then p.lastF else ((tblFind s.net.pub i).getD []).getD w 0
  else
    let p := (tblFind s.net.subSt i).getD ⟨[], false, none, [], none⟩
    if w = 8 then BitVec.ofNat 32 (2 ^ 31 * b2n (p.addrs != []) + 2 ^ 30 * b2n p.tout + 2 ^ 29 * b2n p.epoch.isSome)
    else if w = 9 then p.epoch.getD 0 else ((tblFind s.net.sub i).getD []).getD w 0

/-- EVC.SQST for a requester's SQRY (Table 12-10). -/
def State.sqst (s : State) (r : Req) : W32 :=
  let q := s.preqGet r R.EVC.SQRY.NUM.off
  let k := evKey (fieldOf q 16 4) (fieldOf q 0 8)
  if fieldOf q 0 8 < 16 ∧ 10 ≤ fieldOf q 16 4 then 0
  else BitVec.ofNat 32 (2 ^ 31 * b2n (s.evLevel k) + 2 ^ 30 * b2n (s.evEnabled k) + 2 ^ 28 * s.evState k + 2 ^ 24 * s.evPrio k +
    2 ^ 20 * s.evTarget k)

/-- EVC.RNE: rings of the targets that are not empty (R291). -/
def State.rne (s : State) : Nat := (List.range 10).foldl (fun v t => v + (if s.ringEmpty t then 0 else 2 ^ t)) 0

/-- The highest commit buffer use of logical engine `e`: of the frames before, or of its copies in the present one (R151). -/
def State.cbPeak (s : State) (e : Nat) : Nat :=
  [Ch.a, .b, .c].foldl (fun m ch => max m (((s.ch ch).eng.toList.map (·.peak)).getD e 0)) (s.get (R.VOTE.CBPEAK.ENTRIES e))

/-- The value a register shows to requester `r`, with no side effect (R2, R5; the registers that show something other than a stored
word are those of Tables 2-7, 2-9, 3-13, 10-14, 10-16, 11-7, 12-9, 12-10 and 13-8). -/
def State.liveReg (s : State) (r : Req) (off : Nat) : W32 :=
  let word (n : Nat) : W32 := BitVec.ofNat 32 n
  if off = R.GONG.FRAME_LO.FRAME.off then word s.frameShown
  else if off = R.GONG.FRAME_HI.FRAME.off then word (s.frameShown / 2 ^ 32)
  else if off = R.GONG.ADJ.OFFS.off then BitVec.ofInt 32 (max (-(2 ^ 31)) (min (2 ^ 31 - 1) s.gong.adj))
  else if off = R.SIG.QID.SIGID.off then s.preqGet r off
  else if 0x30014 ≤ off ∧ off < 0x30024 then s.dirWord (s.preqGet r R.SIG.QID.SIGID.off).toNat ((off - 0x30014) / 4)
  else if off = R.SIG.FCOUNT.COUNT.off then word s.forces.length
  else if 0x31000 ≤ off ∧ off < 0x35000 then s.ftab ((off - 0x31000) / 16) ((off - 0x31000) % 16 / 4)
  else if 0x40060 ≤ off ∧ off < 0x40080 then word (s.cbPeak ((off - 0x40060) / 4))
  else if off = R.EVC.RNE.TGT.off then word s.rne
  else if off = R.EVC.SQRY.NUM.off then s.preqGet r off
  else if off = R.EVC.SQST.LEVEL.off then s.sqst r
  else if 0x500C0 ≤ off ∧ off < 0x500D0 then s.preqGet r off
  else if off = R.NET.STATUS.TXEN.off then withField (s.reg off) 4 1 (b2n s.txen)
  else if off = R.NET.TSEL.INDEX.off then s.preqGet r off
  else if 0x60024 ≤ off ∧ off < 0x6004C then s.tent r ((off - 0x60024) / 4)
  else if off = R.TIME.NOWSEC_LO.SEC.off then word (s.nowNs / 1000000000)
  else if off = R.TIME.NOWSEC_HI.SEC.off then word (s.nowNs / 1000000000 / 2 ^ 32)
  else if off = R.TIME.NOWNS.NSEC.off then word (s.nowNs % 1000000000)
  else if off = R.TIME.NOWFRAC.FRAC.off then word (s.clk % 2 ^ 32 / 2 ^ 16)
  else if off = R.BRG.STATUS.HOLD.off then
    withField (withField (s.reg off) 8 7 s.brg.posted.length) 16 4 (s.brg.slots.toList.filter Option.isSome).length
  else if off = R.UPD.OCHAL_HI.all.off then s.preqGet r off
  else s.reg off

/-! ## Reads -/

/-- Latches a register for a requester. -/
def State.latchReg (s : State) (r : Req) (off : Nat) : State :=
  { s with latch := tblPut s.latch (reqKey r off) (s.liveReg r off) }

/-- A read of CFG.EXPCHAL: a new challenge, held for the requester (R321). Its value is free (assumption 2). The key one above the
register's marks a challenge not used up. -/
def State.readExpchal (s : State) (r : Req) : W32 × State :=
  let (c, s1) := s.fresh 32
  (c, (s1.preqSet r R.CFG.EXPCHAL.CHAL.off c).preqSet r (R.CFG.EXPCHAL.CHAL.off + 1) 1)

/-- A read of UPD.OCHAL_LO: a new challenge, held for the requester, its high half latched (R3, R345). -/
def State.readOchal (s : State) (r : Req) : W32 × State :=
  let (c, s1) := s.fresh 64
  let s2 := (s1.preqSet r R.UPD.OCHAL_LO.all.off (c.truncate 32)).preqSet r R.UPD.OCHAL_HI.all.off ((c >>> 32).truncate 32)
  (c.truncate 32, (s2.preqSet r (R.UPD.OCHAL_LO.all.off + 1) 1).latchReg r R.UPD.OCHAL_HI.all.off)

/-- A read of TIME.NOWSEC_LO latches the other three time registers (R268). -/
def State.readNow (s : State) (r : Req) : W32 × State :=
  (s.liveReg r 0x70010, ((s.latchReg r 0x70014).latchReg r 0x70018).latchReg r 0x7001C)

/-- A read of the word at offset `off` from 0x03_0000_0000 by requester `r` (R3, R5); `task` is the task that a claim is for. -/
def State.readWord (s : State) (r : Req) (task : Option Nat) (off : Nat) : W32 × State :=
  if 0x50040 ≤ off ∧ off < 0x50068 then
    let (n, s1) := s.evClaim r ((off - 0x50040) / 4) task
    (BitVec.ofNat 32 n, s1)
  else if off = 0x200040 then
    let (n, s1) := s.evClaim r (reqTarget r).val task
    (BitVec.ofNat 32 n, s1)
  else if 0x200000 ≤ off ∧ off < 0x200020 then (BitVec.ofNat 32 (s.cpend (reqTarget r).val ((off - 0x200000) / 4)), s)
  else if 0x200020 ≤ off ∧ off < 0x200040 then (BitVec.ofNat 32 (s.cmask (reqTarget r).val ((off - 0x200020) / 4)), s)
  else if off = R.TIME.NOWSEC_LO.SEC.off then s.readNow r
  else if off = R.CFG.EXPCHAL.CHAL.off then s.readExpchal r
  else if off = R.UPD.OCHAL_LO.all.off then s.readOchal r
  else if isLo off then (s.liveReg r off, s.latchReg r (off + 4))
  else if isLatched off then ((tblFind s.latch (reqKey r off)).getD (s.liveReg r off), s)
  else (s.liveReg r off, s)

/-- A distributed read of `size` bytes at physical address `a` by engine `e`, the outbound window excepted (R13, R142). -/
def State.busRead (s : State) (e : Eng) (task : Option Nat) (a size : Nat) : Word × State :=
  match regionOf a with
  | .periph | .window =>
    let off := a - 0x300000000
    if size < 4 ∨ a % 4 ≠ 0 then (0, s)
    else
      let (lo, s1) := s.readWord (.eng e) task off
      if size = 4 then (lo.zeroExtend 64, s1)
      else
        let (hi, s2) := s1.readWord (.eng e) task (off + 4)
        (hi ++ lo, s2)
  | .exchange => (BitVec.ofNat 64 (leNat (memBytes s.smem a size)), s)
  | .mram => (BitVec.ofNat 64 (leNat ((List.range size).map fun i => s.mramByte (a - 0x200000000 + i))), s)
  | _ => (0, s)

/-! ## Released stores (R15, R86, R301) -/

/-- A released write of one word to a peripheral register or the compatibility window by engine `e`: only the registers that a program
may write take it. -/
def State.progWrite (s : State) (e : Eng) (off : Nat) (v : W32) : State :=
  let r : Req := .eng e
  if off = R.SIG.QID.SIGID.off then s.preqSet r off (BitVec.ofNat 32 (v.toNat % 2 ^ 25))
  else if off = R.NET.TSEL.INDEX.off then s.preqSet r off (v &&& 0x80001FFF)
  else if off = R.EVC.HOLDSET.TGT.off then s.holdSet r (v.toNat % 1024)
  else if off = R.EVC.HOLDCLR.TGT.off then s.holdClr r (v.toNat % 1024)
  else if off = 0x50080 + 4 * e.val then s.evComplete e.val (v.toNat % 1024)
  else if 0x50200 ≤ off ∧ off < 0x50228 then s.orBits (R.EVC.PLAT.LAT ((off - 0x50200) / 4)) (v.toNat % 256)
  else if 0x50260 ≤ off ∧ off < 0x50278 then s.orBits (R.EVC.SWLAT.LAT ((off - 0x50260) / 4)) v.toNat
  else if 0x200000 ≤ off ∧ off < 0x200020 then s.writeCpend r ((off - 0x200000) / 4) v
  else if 0x200020 ≤ off ∧ off < 0x200040 then s.writeCmask r ((off - 0x200020) / 4) v
  else if off = 0x200044 then s.evComplete e.val (v.toNat % 1024)
  else s

/-- Writes an error record to RING10 (R310, Table 13-4); where the ring is full the record is lost. A disabled ring takes none. -/
def State.pwRecord (s : State) (cause : Nat) (p : PwEnt) : State :=
  if !s.ringOn 10 then s
  else if s.ringFull 10 then (s.incSat R.BRG.PWLOST.COUNT).flag R.BRG.FLAG.PWLOSS
  else
    let seq := s.brg.errSeq + 1
    let s := { s with brg := { s.brg with errSeq := seq } }
    s.ringPut 10 [2 ^ 28 * cause + 2 ^ 24 * p.src + 2 ^ 16 * (seq % 256) + p.be.toNat, p.addr.toNat, p.data.toNat % 2 ^ 32,
      p.data.toNat / 2 ^ 32, s.nowNs % 2 ^ 32, s.nowNs / 2 ^ 32, p.frame.toNat, 0]

/-- The release of an outbound store of source `src`, 0 to 7 an engine, 8 and 9 a steward core (R299, R301): into the posted buffer, or recorded with cause 6 (duties not held) or 5 (full). -/
def State.postWrite (s : State) (src : Nat) (a : Nat) (d : Word) (be : Byte) : State :=
  let p : PwEnt := ⟨BitVec.ofNat 32 a, d, be, src, BitVec.ofNat 32 s.frameShown⟩
  if s.get R.BRG.STATUS.HOLD = 0 then s.pwRecord 6 p
  else if 64 ≤ s.brg.posted.length then s.pwRecord 5 p
  else { s with brg := { s.brg with posted := s.brg.posted ++ [p] } }

/-- The release of one held store (R86). -/
def State.release (s : State) (e : Eng) (c : CbEntry) : State :=
  match regionOf c.addr with
  | .periph | .window =>
    let off := c.addr - 0x300000000
    if c.addr % 4 ≠ 0 then s
    else if c.mask = 0x0F then s.progWrite e off (c.data.truncate 32)
    else if c.mask = 0xFF then (s.progWrite e off (c.data.truncate 32)).progWrite e (off + 4) ((c.data >>> 32).truncate 32)
    else s
  | .outbound => s.postWrite e.val (c.addr - 0x400000000) c.data c.mask
  | _ => s

end Sys2Proof.Machine
end

