-- ==== Sys2Proof/Machine/OsrusMem.lean ====
section
/-! DEFINITION. Loads, stores, and the event instructions (R85 to R88, R102, R114, R137, R142, R299, R303; Tables 4-3, 5-3, 5-11). -/

namespace Sys2Proof.Machine

/-- Whether `n` bytes at `a` lie in the running task's scratch window (R87). -/
def inScratch (i : Inst) (a n : Nat) : Bool := decide (i.td.winLo ≤ a) && decide (a + n ≤ i.td.winHi)

/-- The loaded form of a raw value of `n` bytes. -/
def loadExt (raw : Word) (n : Nat) (signed : Bool) : Word :=
  match n with
  | 1 => if signed then (raw.truncate 8).signExtend 64 else (raw.truncate 8).zeroExtend 64
  | 2 => if signed then (raw.truncate 16).signExtend 64 else (raw.truncate 16).zeroExtend 64
  | 4 => if signed then (raw.truncate 32).signExtend 64 else (raw.truncate 32).zeroExtend 64
  | _ => raw

/-- The exception a load of `n` bytes at `a` raises, in the order of Table 4-8. -/
def loadFault (x : Ctx) (i : Inst) (a n : Nat) : Option Nat :=
  let g := regionOf a
  if (g = .exchange ∨ g = .outbound) ∧ x.safe then some 0x0A
  else if g ≠ .unmapped ∧ !g.isReg ∧ a % n ≠ 0 then some 0x0C
  else match g with
    | .shadow | .coldSlot | .context | .value | .dir | .tile => some 0x0D
    | .work => if inScratch i a n then none else some 0x0D
    | _ => none

/-- The exception a store of `n` bytes at `a` raises, in the order of Table 4-8. -/
def storeFault (x : Ctx) (i : Inst) (a n : Nat) : Option Nat :=
  let g := regionOf a
  if (g = .exchange ∨ g = .outbound) ∧ x.safe then some 0x0A
  else if g ≠ .unmapped ∧ !g.isReg ∧ a % n ≠ 0 then some 0x0C
  else match g with
    | .work => if inScratch i a n then none else some 0x0D
    | .periph | .window => if x.safe then some 0x0D else none
    | .outbound | .unmapped => none
    | _ => some 0x0D

/-- A load of `n` bytes on one copy; the value of a distributed read is `v.shared`. -/
def loadOp (gd ga : GReg) (imm : BitVec 16) (n : Nat) (signed : Bool) : Op := fun v w =>
  let a := effAddr w.x ga imm
  match loadFault w.x w.inst a n with
  | some c => raise c a
  | none =>
    let g := regionOf a
    let raw : Word :=
      match g with
      | .code => BitVec.ofNat 64 (leNat (memBytes v.prog.code a n))
      | .work => BitVec.ofNat 64 (leNat (memBytes w.inst.scratch a n))
      | .unmapped => 0
      | _ => v.shared
    let items := if g.shared then w.items ++ [itemRead a raw] else w.items
    .ok { w with x := (w.x.setG gd (loadExt raw n signed)).adv 4, items := items }

/-- A store of the low `n` bytes of `d` at `a` on one copy, after its checks: into the scratch window, held, or with no effect. -/
def storeAt (a n : Nat) (d : Word) (task : Nat) (w : Work) : Work :=
  let data : Word := BitVec.ofNat 64 (d.toNat % 2 ^ (8 * n))
  let mask : Byte := BitVec.ofNat 8 (2 ^ n - 1)
  let w := { w with x := w.x.adv 4 }
  match regionOf a with
  | .work =>
    { w with
      inst := { w.inst with scratch := memPutBytes w.inst.scratch a (leBytes n data.toNat) }
      items := w.items ++ [itemStore mask a data] }
  | .periph | .window | .outbound =>
    { w with
      held := w.held ++ [⟨a, data, mask, 0, task, false, 0, 0⟩]
      items := w.items ++ [itemStore mask a data] }
  | _ => w

/-- A store of `n` bytes on one copy. -/
def storeOp (gs ga : GReg) (imm : BitVec 16) (n : Nat) : Op := fun _ w =>
  let a := effAddr w.x ga imm
  match storeFault w.x w.inst a n with
  | some c => raise c a
  | none => .ok (storeAt a n (w.x.gr gs) w.inst.td.id w)

/-! ## The leading copy's access (R142) -/

/-- The registers and instance of a copy that gets as far as the instruction itself: running, not waiting, budget left and the fetch
permitted (R98). -/
def Chan.reaches (c : Chan) (s : State) (e : Eng) (n : Nat) : Option (Ctx × Inst) :=
  let k := c.eng[e]
  match k.run with
  | none => none
  | some task =>
    match tblFind c.insts task with
    | none => none
    | some i =>
      match s.bankIn c i.bank with
      | none => none
      | some p =>
        let env : Env := ⟨e, s.pNs, p, lastSeg p task i.seg, c, 0⟩
        if k.stall.isSome || k.bud = 0 || !env.inUnit k.x k.x.pc.toNat n then none else some (k.x, i)

/-- The first free delayed-read slot (R303). -/
def State.freeSlot (s : State) : Option (Fin 8) :=
  (List.finRange 8).find? fun i => (s.brg.slots[i]).isNone

/-- The access at `a` of a copy is a distributed read that raises nothing of its own. -/
def readsShared (x : Ctx) (i : Inst) (a n : Nat) : Bool := (loadFault x i a n).isNone && (regionOf a).shared

/-- The copies that reach the load wait, each with the address that it formed itself and will fold (R145). A copy that gets no further, or whose own
address raises an exception or is served within its channel, carries `op` out. -/
def State.stallRead (s : State) (e : Eng) (ga : GReg) (imm : BitVec 16) (n : Nat) (op : Op) (why : Nat → Stall) : State :=
  s.onEngine e fun _ c =>
    match c.reaches s e 4 with
    | some (x, i) =>
      let a := effAddr x ga imm
      if readsShared x i a n then ({ c with eng := c.eng.set e { c.eng[e] with stall := some (why a) } }, [])
      else c.step s e true 4 2 0 op
    | none => c.step s e true 4 2 0 op

/-- The error response to a load of the outbound window (R299, R303), with the address that the copy formed; a copy whose own address raises an
exception or is served within its channel carries `op` out. -/
def errorOp (ga : GReg) (imm : BitVec 16) (n : Nat) (op : Op) : Op := fun v w =>
  let a := effAddr w.x ga imm
  if readsShared w.x w.inst a n then raise 0x10 a else op v w

/-- A delayed read enters slot `j`: every posted entry that is there goes before it (R303). -/
def State.enterSlot (s : State) (j : Fin 8) (w : DrWait) : State :=
  { s with brg := { s.brg with slots := s.brg.slots.set j (some ⟨w.req, w.addr, w.size, s.brg.posted.length, false⟩) } }

/-- A delayed read waits for a slot. -/
def State.queueRead (s : State) (w : DrWait) : State := { s with brg := { s.brg with waits := s.brg.waits ++ [w] } }

/-- An error response to an outbound load (R299, R303). -/
def State.readError (s : State) : State := (s.flag R.BRG.FLAG.RDERR).incSat R.BRG.RDERRCNT.COUNT

/-- A load of `n` bytes by logical engine `e`. An outbound load with the duties not held receives an error response at once; otherwise it
takes a delayed-read slot and waits; with no slot free it waits for one, after the reads that wait already. -/
def State.load (s : State) (e : Eng) (gd ga : GReg) (imm : BitVec 16) (n : Nat) (signed : Bool) : State :=
  let op := loadOp gd ga imm n signed
  match (s.ch s.leadCh).reaches s e 4 with
  | none => s.osrus e true 4 2 op
  | some (x, i) =>
    let a := effAddr x ga imm
    if (loadFault x i a n).isSome then s.osrus e true 4 2 op
    else if regionOf a = .outbound then
      if s.get R.BRG.STATUS.HOLD = 0 then s.readError.osrus e true 4 2 (errorOp ga imm n op)
      else match s.freeSlot with
        | none => (s.queueRead ⟨.eng e, BitVec.ofNat 32 (a - 0x400000000), n⟩).stallRead e ga imm n op (.noSlot gd · n signed)
        | some j => (s.enterSlot j ⟨.eng e, BitVec.ofNat 32 (a - 0x400000000), n⟩).stallRead e ga imm n op (.read j.val gd · n signed)
    else if (regionOf a).shared then
      let (d, s1) := s.busRead e (some i.td.id) a n
      (s1.distribute d).osrus e true 4 2 op d
    else s.osrus e true 4 2 op

/-! ## The instructions -/

/-- LDB. -/
def execLdb (e : Eng) (gd ga : GReg) (imm : BitVec 16) (s : State) : Host.Outcome State Fault Refusal :=
  .next (s.load e gd ga imm 1 true)

/-- LDBU. -/
def execLdbu (e : Eng) (gd ga : GReg) (imm : BitVec 16) (s : State) : Host.Outcome State Fault Refusal :=
  .next (s.load e gd ga imm 1 false)

/-- LDH. -/
def execLdh (e : Eng) (gd ga : GReg) (imm : BitVec 16) (s : State) : Host.Outcome State Fault Refusal :=
  .next (s.load e gd ga imm 2 true)

/-- LDHU. -/
def execLdhu (e : Eng) (gd ga : GReg) (imm : BitVec 16) (s : State) : Host.Outcome State Fault Refusal :=
  .next (s.load e gd ga imm 2 false)

/-- LDW. -/
def execLdw (e : Eng) (gd ga : GReg) (imm : BitVec 16) (s : State) : Host.Outcome State Fault Refusal :=
  .next (s.load e gd ga imm 4 true)

/-- LDWU. -/
def execLdwu (e : Eng) (gd ga : GReg) (imm : BitVec 16) (s : State) : Host.Outcome State Fault Refusal :=
  .next (s.load e gd ga imm 4 false)

/-- LDD. -/
def execLdd (e : Eng) (gd ga : GReg) (imm : BitVec 16) (s : State) : Host.Outcome State Fault Refusal :=
  .next (s.load e gd ga imm 8 false)

/-- STB. -/
def execStb (e : Eng) (gs ga : GReg) (imm : BitVec 16) (s : State) : Host.Outcome State Fault Refusal :=
  .next (s.osrus e true 4 1 (storeOp gs ga imm 1))

/-- STH. -/
def execSth (e : Eng) (gs ga : GReg) (imm : BitVec 16) (s : State) : Host.Outcome State Fault Refusal :=
  .next (s.osrus e true 4 1 (storeOp gs ga imm 2))

/-- STW. -/
def execStw (e : Eng) (gs ga : GReg) (imm : BitVec 16) (s : State) : Host.Outcome State Fault Refusal :=
  .next (s.osrus e true 4 1 (storeOp gs ga imm 4))

/-- STD. -/
def execStd (e : Eng) (gs ga : GReg) (imm : BitVec 16) (s : State) : Host.Outcome State Fault Refusal :=
  .next (s.osrus e true 4 1 (storeOp gs ga imm 8))

/-- EVT.C: a distributed read of CLAIM(e) (R137, R288). -/
def execEvtC (e : Eng) (gd : GReg) (rsv : BitVec 15) (s : State) : Host.Outcome State Fault Refusal :=
  let op : Op := fun v w =>
    .ok { w with
      x := (w.x.setG gd v.shared).adv 4
      items := w.items ++ [itemRead (0x300050040 + 4 * e.val) v.shared] }
  .next (match (s.ch s.leadCh).reaches s e 4 with
    | some (_, i) =>
      if rsv = 0 then
        let (n, s1) := s.evClaim (.eng e) e.val (some i.td.id)
        (s1.distribute (BitVec.ofNat 64 n)).osrus e true 4 2 op (BitVec.ofNat 64 n)
      else s.osrus e false 4 2 op
    | none => s.osrus e (rsv == 0) 4 2 op)

/-- EVT.D: a held store of the number to COMPLETE(e) (R137); a safety task class raises 0x0D. -/
def execEvtD (e : Eng) (ga : GReg) (rsv : BitVec 15) (s : State) : Host.Outcome State Fault Refusal :=
  let a := 0x300050080 + 4 * e.val
  .next (s.osrus e (rsv == 0) 4 2 fun _ w =>
    if w.x.safe then raise 0x0D a
    else .ok (storeAt a 4 (BitVec.ofNat 64 ((w.x.gr ga).toNat % 1024)) w.inst.td.id w))

end Sys2Proof.Machine
end

