-- ==== Sys2Proof/Machine/Brg.lean ====
section
/-! DEFINITION. The CompactPCI bridge (13, R295 to R313). -/

namespace Sys2Proof.Machine

/-! ## Posted writes (R301, R302, R310) -/

/-- Sends something. -/
def State.send (s : State) (o : Out) : State := { s with out := o :: s.out }

/-- The entry at the head of the posted buffer leaves: the delayed reads behind it come one nearer (R303). -/
def State.postedPop (s : State) : State :=
  let slots := s.brg.slots.map fun d => d.map fun x => { x with ahead := x.ahead - 1 }
  { s with brg := { s.brg with posted := s.brg.posted.tail, slots := slots } }

/-- The bus is granted to one of the cards whose REQ# lines `reqs` shows and whose SLOTEN bit is 1: the next in round-robin order. -/
def State.nextCard (s : State) (reqs : BitVec 7) : Option (Fin 7) :=
  ((List.finRange 7).map fun i => s.brg.rr + 1 + i).find? fun k => reqs.getLsbD k.val && s.bit R.BRG.CFG.SLOTEN k.val

/-- The bridge has a request of its own pending: a posted entry, or a delayed read with no posted entry ahead of it. -/
def State.bridgeAsks (s : State) : Bool :=
  !s.brg.posted.isEmpty || s.brg.slots.toList.any fun d => d.any fun x => x.ahead = 0 && !x.gone

/-- Arbitration (R296): the card that is granted the bus, or none for the bridge, on which it is also parked. -/
def State.grant (s : State) (reqs : BitVec 7) : Option (Fin 7) := if s.brg.cardLast && s.bridgeAsks then none else s.nextCard reqs

/-- The bridge is granted: no card asks, or the last transaction was a card's. -/
def State.bridgeGranted (s : State) (reqs : BitVec 7) : Bool := (s.grant reqs).isNone

/-- The last transaction was the bridge's own. -/
def State.bridgeRan (s : State) : State := { s with brg := { s.brg with cardLast := false } }

/-- The last transaction was that of the card in slot `k` + 2. -/
def State.cardRan (s : State) (k : Fin 7) : State := { s with brg := { s.brg with cardLast := true, rr := k } }

/-- An address lies in the range of a base address register. -/
def barCovers (b : Bar) (addr : W32) : Bool := decide (b.base ≤ addr.toNat) && decide (addr.toNat < b.base + b.size)

/-- An address belongs to a card of the card map that is missing or differs. -/
def State.cardGone (s : State) (addr : W32) : Bool :=
  s.prog.any fun p => p.cards.any fun c => s.brg.mis.contains c.slot && c.bars.any fun b => barCovers b addr

/-- How an access ends: at an address of a card that is missing or differs in master abort (R298). -/
def State.busEnd (s : State) (addr : W32) (how : BusEnd) : BusEnd := if s.cardGone addr then .masterAbort else how

/-- POSTED_WRITE_COMPLETE: the head entry ends on the bus, or is recorded with cause 1, 2 or 3, or stays to be repeated after retry (R302, R311). `reqs` are
the cards' REQ# lines. -/
def execPostedWriteComplete (how : BusEnd) (reqs : BitVec 7) (s : State) : Host.Outcome State Fault Refusal :=
  s.whilePowered (if s.get R.BRG.STATUS.HOLD = 0 ∨ s.brg.rst ∨ !s.bridgeGranted reqs then s else
    match s.brg.posted with
    | [] => s
    | p :: _ =>
      let t := s.postedPop.bridgeRan
      match s.busEnd p.addr how with
      | .ok _ => t.send (.pciWrite p.addr p.data p.be)
      | .masterAbort => t.pwRecord 1 p
      | .targetAbort => t.pwRecord 2 p
      | .parity => t.pwRecord 3 p
      | .retry => s.bridgeRan)

/-- POSTED_WRITE_DISCARD: the head entry's timer expires: cause 4. -/
def execPostedWriteDiscard (s : State) : Host.Outcome State Fault Refusal :=
  s.whilePowered (match s.brg.posted with
    | [] => s
    | p :: _ => s.postedPop.pwRecord 4 p)

/-! ## Delayed reads (R303, R304) -/

/-- What a copy that waits for slot `j` (`none`: for any slot) will load: register, address, size, sign. -/
def Stall.waitsFor (w : Stall) (j : Option Nat) : Option (GReg × Nat × Nat × Bool) :=
  match w with
  | .read slot gd a n signed => if j = some slot then some (gd, a, n, signed) else none
  | .noSlot gd a n signed => if j.isNone then some (gd, a, n, signed) else none
  | .bufferFull => none

/-- The copy of engine `e` of a channel that waits for slot `j`, or for any, receives its answer: the data, or exception 0x10, with the address that this
copy formed (R145). -/
def Chan.answer (c : Chan) (s : State) (e : Eng) (j : Option Nat) (data : Option Word) : Chan × List Close :=
  match c.eng[e].stall.bind fun w => w.waitsFor j with
  | some (gd, a, n, signed) =>
    let c1 := { c with eng := c.eng.set e { c.eng[e] with stall := none } }
    match data with
    | some d =>
      c1.step s e true 4 2 (BitVec.ofNat 64 (d.toNat % 2 ^ (8 * n))) fun v w =>
        .ok { w with
          x := (w.x.setG gd (loadExt v.shared n signed)).adv 4
          items := w.items ++ [itemRead a v.shared] }
    | none => c1.step s e true 4 2 0 fun _ _ => raise 0x10 a
  | none => (c, [])

/-- A requester receives its answer; an error response sets RDERR and is counted. An engine's data pass through the capture stage and the delay
registers (R142, R143); a steward core receives a word, or nothing as its error status. -/
def State.answerTo (s : State) (req : DrReq) (j : Option Nat) (data : Option Word) : State :=
  let s1 := if data.isNone then s.readError else s
  match req with
  | .eng e =>
    let s2 := match data with
      | some d => s1.distribute d
      | none => s1
    s2.onEngine e fun ch c => c.answer s2 e j (data.map fun d => s2.received ch d)
  | .core _ => { s1 with resp := data.map fun d => d.truncate 32 }

/-- A slot that is freed goes to the read that has waited longest. -/
def State.freeDr (s : State) (j : Fin 8) : State :=
  let s1 := { s with brg := { s.brg with slots := s.brg.slots.set j none } }
  match s.brg.waits with
  | [] => s1
  | w :: rest =>
    let s2 := { s1 with brg := { s1.brg with waits := rest } }.enterSlot j w
    match w.req with
    | .core _ => s2
    | .eng e => s2.mapCh (fun _ => true) fun c =>
      match c.eng[e].stall with
      | some (.noSlot gd a n signed) => { c with eng := c.eng.set e { c.eng[e] with stall := some (.read j.val gd a n signed) } }
      | _ => c

/-- The requester of slot `j` receives its answer and the slot is freed. -/
def State.answerRead (s : State) (j : Fin 8) (d : DrSlot) (data : Option Word) : State := (s.answerTo d.req (some j.val) data).freeDr j

/-- A slot ends without its requester: dropped and counted (R304). -/
def State.dropRead (s : State) (j : Fin 8) : State :=
  ((s.flag R.BRG.FLAG.RDDISC).incSat R.BRG.DISCCNT.COUNT).freeDr j

/-! ## The exchange area (R306 to R308) -/

/-- The HOME 4 signals of the leading channel that bytes at the given offsets touch. -/
def State.touched (s : State) (bytes : List (Nat × Byte)) : List Nat :=
  (s.ch s.leadCh).dir.filterMap fun p =>
    if p.2.type != 0 && p.2.home = 4 &&
        bytes.any fun b => decide (p.2.w1.toNat ≤ b.1) && decide (b.1 < p.2.w1.toNat + p.2.size) then some p.1 else none

/-- Applies one inbound write: bytes, then word 3 of every HOME 4 signal it touches, in every channel (R59, R144, R307). The bridge hands over the
signal's ID alone, and the item of tag 0x7 folds value 0 for it (DESIGN CHOICE, assumption 33). -/
def State.applyInbound (s : State) (w : InWrite) : State :=
  let m := w.bytes.foldl (fun m b => memPut m (0x180000000 + b.1) b.2) s.smem
  let s1 := { s with smem := m }
  (s1.touched w.bytes).foldl (fun t id => t.input id [] ⟨true, false, false⟩) s1

/-- Applies the inbound writes held during IN (R308). -/
def State.flushInbound (s : State) : State :=
  s.brg.inbuf.foldl (fun t w => t.applyInbound w) { s with brg := { s.brg with inbuf := [] } }

/-- DELAYED_READ_COMPLETE: the read of a slot ends on the bus, every posted entry before it gone, or stays to be repeated after retry (R303, R309, R311).
`reqs` are the cards' REQ# lines. -/
def execDelayedReadComplete (slot : Fin 8) (how : BusEnd) (reqs : BitVec 7) (s : State) : Host.Outcome State Fault Refusal :=
  s.whilePowered (match s.brg.slots[slot] with
    | none => s
    | some d =>
      if s.get R.BRG.STATUS.HOLD = 0 ∨ s.brg.rst ∨ d.ahead ≠ 0 ∨ d.gone ∨ !s.bridgeGranted reqs then s
      else match s.busEnd d.addr how with
        | .ok x => s.flushInbound.bridgeRan.answerRead slot d (some x)
        | .retry => s.bridgeRan
        | _ => s.bridgeRan.answerRead slot d none)

/-- DELAYED_READ_DISCARD: the slot's timer expires: an error response, or the read is dropped and counted. -/
def execDelayedReadDiscard (slot : Fin 8) (s : State) : Host.Outcome State Fault Refusal :=
  s.whilePowered (match s.brg.slots[slot] with
    | none => s
    | some d => if d.gone then s.dropRead slot else s.answerRead slot d none)

/-- The requesters for which `p` holds have gone (R304): their slots are marked, and a read of theirs that waits for a slot takes none. -/
def State.leaveReads (s : State) (p : DrReq → Bool) : State :=
  { s with brg := { s.brg with
    slots := s.brg.slots.map fun d => d.map fun x => if p x.req then { x with gone := true } else x
    waits := s.brg.waits.filter fun w => !p w.req } }

/-- An engine's request. -/
def DrReq.isEng : DrReq → Bool
  | .eng _ => true
  | .core _ => false

/-- The requesters on engines stopped at CUT have gone. -/
def State.goneReads (s : State) : State := s.leaveReads DrReq.isEng

/-- A steward core's load of a word from the outbound window (R299, R303). A core that loads again has abandoned its earlier request (R304). Nothing
is returned before the read completes. -/
def State.stewardLoad (s : State) (st1 : Bool) (a : W32) : State :=
  let s1 := { s.leaveReads (fun q => q = .core st1) with resp := none }
  if s.get R.BRG.STATUS.HOLD = 0 then s1.readError
  else match s1.freeSlot with
    | none => s1.queueRead ⟨.core st1, a, 4⟩
    | some j => s1.enterSlot j ⟨.core st1, a, 4⟩

/-- The data phases of a burst up to the first 64-byte boundary: offsets in the window and phases. -/
def burst (off : Nat) : List InPhase → List (Nat × InPhase)
  | [] => []
  | p :: ps => (off, p) :: if (off + 4) % 64 = 0 then [] else burst (off + 4) ps

/-- The bytes that a data phase writes. -/
def phaseBytes (off : Nat) (p : InPhase) : List (Nat × Byte) :=
  (List.range 4).filterMap fun i =>
    if p.be.getLsbD i then some (off + i, BitVec.ofNat 8 (p.data.toNat / 256 ^ i)) else none

/-- A write of `n` data phases would exceed what a 66 MHz segment delivers in this frame, as long as it is, at 264,000 bytes per ms (R30, R196): the bus
does not carry it (assumption 33). -/
def State.inboundFull (s : State) (n : Nat) : Bool :=
  s.gong.ticking && decide (264 * (s.gong.next - s.gong.tick) < 1000 * (s.brg.inBytes + 4 * n))

/-- The arbiter grants the bus to the card in slot `k` + 2, which asks for it beside the cards of `reqs`, while the bridge holds the duties and RST# is
released (R296 to R298). -/
def State.cardGranted (s : State) (k : Fin 7) (reqs : BitVec 7) : Bool :=
  s.get R.BRG.STATUS.HOLD = 1 && !s.brg.rst && s.grant (reqs ||| BitVec.ofNat 7 (2 ^ k.val)) = some k

/-- CPCI_INBOUND_WRITE: a write into the inbound window (R306, R307) by the card in slot `card` + 2, where the arbiter grants it the bus; `reqs` are
the REQ# lines of the other cards. One accepted during IN is held until IN ends (R308). -/
def execCpciInboundWrite (card : Fin 7) (reqs : BitVec 7) (addr : W32) (phases : List InPhase) (s : State) : Host.Outcome State Fault Refusal :=
  s.whilePowered (
    let ps := burst (addr.toNat % 2 ^ 26 / 4 * 4) phases
    if !s.cardGranted card reqs then s
    else if addr.toNat / 2 ^ 26 ≠ s.get R.BRG.CFG.IBASE then s.cardRan card
    else if s.inboundFull ps.length then s
    else
      let bad := (ps.filter fun p => !p.2.parityOk).length
      let s0 := { s.cardRan card with brg := { (s.cardRan card).brg with inBytes := s.brg.inBytes + 4 * ps.length } }
      let s1 := if bad = 0 then s0 else (s0.flag R.BRG.FLAG.IPERR).incSat R.BRG.IPERRCNT.COUNT bad
      let w : InWrite := ⟨(ps.filter fun p => p.2.parityOk).flatMap fun p => phaseBytes p.1 p.2⟩
      if s.mstate = .run ∧ s.get R.GONG.STATUS.PHASE = 0 then { s1 with brg := { s1.brg with inbuf := s1.brg.inbuf ++ [w] } }
      else s1.applyInbound w)

/-- INBOUND_LOCK: a card's transaction with LOCK# is ended by target abort; a steward core's locked or atomic outbound request receives an error
response, which is nothing in `resp`, and is not issued (R305). -/
def execInboundLock (sender : LockBy) (s : State) : Host.Outcome State Fault Refusal :=
  s.whilePowered (match sender with
    | .card k reqs => if s.cardGranted k reqs then (s.flag R.BRG.FLAG.LOCKAB).cardRan k else s
    | _ => { s with resp := none })

/-- SERR_SENSED (R313). -/
def execSerrSensed (s : State) : Host.Outcome State Fault Refusal := s.whilePowered (s.flag R.BRG.FLAG.SERR)

/-! ## The duties (R297 to R299) -/

/-- The bus frequency as the duties are taken: 66 MHz where FREQ and M66EN allow (R295). -/
def State.setBus (s : State) (m66en : Bool) : State :=
  ((s.set R.BRG.STATUS.M66EN (b2n m66en)).set R.BRG.STATUS.AFREQ (if m66en then s.get R.BRG.CFG.FREQ else 0)).set R.BRG.STATUS.IDLE 1

/-- Takes the duties at a start decision of ALONE: M66EN is sensed, CLK runs and RST# is asserted (R295, Table 13-2). -/
def State.takeDuties (s : State) (m66en : Bool) : State :=
  let s1 := (s.set R.BRG.STATUS.HOLD 1).setBus m66en
  { s1 with brg := { s1.brg with rst := true, mis := [], rr := 6, cardLast := false } }

/-- What is still on its way when the duties are given up ends as R299 states: posted entries are recorded with cause 6, reads receive an error
response. -/
def State.endTransfers (s : State) : State :=
  let posted := s.brg.posted
  let waits := s.brg.waits
  let s := { s with brg := { s.brg with posted := [], waits := [], rst := false } }
  let s := posted.foldl (fun t p => t.pwRecord 6 p) s
  let s := waits.foldl (fun t w => t.answerTo w.req none none) s
  (List.finRange 8).foldl (fun t j =>
    match t.brg.slots[j] with
    | none => t
    | some d => if d.gone then t.dropRead j else t.answerRead j d none) s

/-- Gives up the duties (Table 13-2, R299): inbound writes accepted before are applied, INT lines are sensed no more, the clock stops. -/
def State.giveUpDuties (s : State) : State :=
  if s.get R.BRG.STATUS.HOLD = 0 then s
  else (((s.flushInbound.endTransfers.set R.BRG.STATUS.HOLD 0).set R.BRG.STATUS.CFGD 0).set R.BRG.INTST.INT 0).set R.BRG.STATUS.AFREQ 0

/-- CPCI_RESET_RELEASE: RST# is released after 1 ms. -/
def execCpciResetRelease (s : State) : Host.Outcome State Fault Refusal :=
  s.whilePowered (if s.brg.rst then { s with brg := { s.brg with rst := false } } else s)

/-- A range lies outside the inbound window (R300). -/
def State.rangeClear (s : State) (b : Bar) : Bool :=
  decide (b.base + b.size ≤ 2 ^ 26 * s.get R.BRG.CFG.IBASE) || decide (2 ^ 26 * (s.get R.BRG.CFG.IBASE + 1) ≤ b.base)

/-- A card answers with the map's identity; one with a range that the map lays over the inbound window is left without addresses (DESIGN CHOICE,
assumption 28). -/
def State.cardOk (s : State) (found : Tbl W32) (c : CardDef) : Bool := tblFind found c.slot = some c.ident && c.bars.all s.rangeClear

/-- The configuration address of a card's base address register: configuration register 4 + `reg` of device slot − 1 (Table 13-8). -/
def barAddr (c : CardDef) (b : Bar) : W32 := BitVec.ofNat 32 (2 ^ 11 * (c.slot - 1) + 2 ^ 8 * b.fn.val + 4 * (4 + b.reg.val))

/-- The steward writes the card's base address registers. -/
def State.assignBase (s : State) (c : CardDef) : State :=
  c.bars.foldl (fun t b => t.send (.cfgWrite (barAddr c b) (BitVec.ofNat 32 b.base))) s

/-- CARD_CONFIGURATION: in INIT, once RST# is released, every card of the card map is configured; one missing or with another identity sets
CARDMIS. -/
def execCardConfiguration (found : Tbl W32) (s : State) : Host.Outcome State Fault Refusal :=
  s.whilePowered (
    if s.mstate ≠ .init ∨ s.get R.BRG.STATUS.HOLD = 0 ∨ s.brg.rst ∨ s.get R.BRG.STATUS.CFGD = 1 then s
    else
      let cards := match s.prog with
        | some p => p.cards
        | none => []
      let bad := cards.filter fun c => !s.cardOk found c
      let s1 := (cards.filter (s.cardOk found)).foldl State.assignBase s
      let s2 := if bad = [] then s1 else s1.flag R.BRG.FLAG.CARDMIS
      { s2 with brg := { s2.brg with mis := bad.map CardDef.slot } }.set R.BRG.STATUS.CFGD 1)

/-! ## Configuration cycles (R300) -/

/-- The bridge is granted the bus for a configuration cycle, its own request: after a card's transaction, or where no card asks (R296). -/
def State.configGranted (s : State) (reqs : BitVec 7) : Bool := s.brg.cardLast || (s.nextCard reqs).isNone

/-- CONFIG_CYCLE_READ: by the steward; a master abort returns 0xFFFF_FFFF. With the duties not held, or before the bridge is granted the bus, no cycle
takes place and nothing is returned, nor is it after retry, which repeats the cycle; what a target abort or a parity error returns is free
(assumption 2). -/
def execConfigCycleRead (r : Req) (how : BusEnd) (reqs : BitVec 7) (s : State) : Host.Outcome State Fault Refusal :=
  s.whilePowered (
    if isEng r then s
    else if s.shut r then { s with resp := some 0 }
    else if s.get R.BRG.STATUS.HOLD = 0 ∨ !s.configGranted reqs then { s with resp := none }
    else match how with
      | .ok d => { s.bridgeRan with resp := some (d.truncate 32) }
      | .masterAbort => { s.bridgeRan with resp := some 0xFFFFFFFF }
      | .retry => { s.bridgeRan with resp := none }
      | .targetAbort | .parity => let (v, s1) := s.bridgeRan.fresh 32; { s1 with resp := some v })

/-- CONFIG_CYCLE_WRITE: by the steward, once the bridge is granted the bus. -/
def execConfigCycleWrite (r : Req) (v : W32) (reqs : BitVec 7) (s : State) : Host.Outcome State Fault Refusal :=
  s.whilePowered (if !s.steward r || s.get R.BRG.STATUS.HOLD = 0 || !s.configGranted reqs then s else (s.send (.cfgWrite (s.reg R.BRG.CFGADR.DEV.off) v)).bridgeRan)

end Sys2Proof.Machine
end

