-- ==== Sys2Proof/Machine/Module.lean ====
section
/-! DEFINITION. What several units share of the module's life: module states (R17, R18), safe-state triggers and Solfatara's
operations (R353 to R357), and the end of everything that runs when RUN is left. -/

namespace Sys2Proof.Machine

/-! ## Module states (R17, R363) -/

/-- The supply input is measured: SUP.SUPPLY shows it, and the records that follow hold it. -/
def State.setSupply (s : State) (mv10 : Nat) : State :=
  { s.set R.SUP.SUPPLY.INPUT mv10 with sup := { s.sup with supply := mv10 } }

/-- Enters a module state and records the change (type 0x02). `old` is the old MSTATE as the record shows it. -/
def State.enterState (s : State) (m : MState) (old : Nat) : State :=
  let s1 := s.set R.SUP.STATE.MSTATE (mstateCode m)
  s1.fumarole 0x02 0x0F (mstateCode m) (leBytes 1 old ++ leBytes 1 0 ++ leBytes 2 s.sup.supply)

/-- Changes the module state. -/
def State.toState (s : State) (m : MState) : State := s.enterState m (s.get R.SUP.STATE.MSTATE)

/-! ## The end of RUN -/

/-- Every engine of a channel halts; its windows and held stores are gone. -/
def Chan.halt (c : Chan) : Chan :=
  { c with eng := c.eng.map fun k => { k with run := none, stall := none, win := none, cbuf := [] } }

/-- Instances released and not committed are dropped; they are counted nowhere (08, R360). -/
def State.dropWork (s : State) : State :=
  let s1 := s.mapCh (fun _ => true) fun c => { c.halt with insts := [] }
  { s1 with
    seqr := { s1.seqr with taken := Vector.replicate 8 0, cycles := [], discs := [], fault := [] }
    vote := { s1.vote with groups := [] } }

/-- The role becomes NONE and PAIR_ACT is released (R197, R201). PAIR.ROLE.FCAUSE keeps the cause of a module that was FENCED until the next start (DESIGN
CHOICE, assumption 16: the spec does not say that it returns to 0). -/
def State.leaveRole (s : State) : State :=
  let s1 := ((s.set R.PAIR.ROLE.fld 0).set R.PAIR.ROLE.PACT 0).set R.PAIR.ROLE.CUR 0
  { s1 with pair := { s1.pair with yield := none, handover := none, joining := false, both := false, resume := none } }

/-- Solfatara's operations on one of its lines (R356, R357): gate enables off, PAIR_ACT released, X1 and X2 transmit off; operation 3
follows at the cut-off of the record buffer (RETAIN_BUFFER_CUTOFF). -/
def State.solfatara (s : State) (code : Nat) : State :=
  let words : LastWords := ⟨code, s.get R.SUP.STATE.MSTATE, s.get R.PAIR.ROLE.fld⟩
  let s1 := s.outputsOff
  { s1 with sup := { s1.sup with latch := true, words := some (s1.sup.words.getD words) } }

/-- Enters SAFE (R18, R354, R360): no further release, engines halted, Solfatara's operations, the duties and the role given up. -/
def State.enterSafe (s : State) (code : Nat) : State :=
  let s1 := ((s.solfatara code).dropWork.giveUpDuties.leaveRole).toState .safe
  { s1 with xch := { s1.xch with arm := false } }

/-- A safe-state trigger (R353 to R355): the first decides SUP.CAUSE; one that comes later writes its record only. -/
def State.trigger (s : State) (code detail : Nat) : State :=
  let s1 := s.fumarole 0x03 0x0F code (leBytes 1 detail ++ leBytes 1 (s.get R.SUP.STATE.MSTATE) ++ leBytes 1 (s.get R.PAIR.ROLE.fld))
  if s.mstate = .safe ∨ s.mstate = .recovery then s1
  else
    let s2 := (s1.set R.SUP.CAUSE.CODE code).set R.SUP.CAUSE.DETAIL detail
    let s3 := (s2.flag R.SUP.FLAG.SAFE).inc R.SUP.SAFECNT.COUNT
    let s4 := { s3 with sup := { s3.sup with lastSafe := code } }
    s4.enterSafe code

/-! ## Conditions used by several blocks -/

/-- The module does not carry the rack's work (R323). -/
def State.noWork (s : State) : Bool :=
  s.mstate = .safe || s.mstate = .recovery || s.mstate = .init ||
    (s.mstate = .run && (s.role = .standby || s.role = .fenced)) || s.depot

/-- The MAC address of X1 and X2, which is MACBASE, or of X3, which is MACBASE + 1 (R330). -/
def State.portMac (s : State) (x3 : Bool) : BitVec 48 := BitVec.ofNat 48 (s.getPair R.ID.MACBASE_LO.MAC R.ID.MACBASE_HI.MAC + b2n x3)

/-- The ECNLOOP test runs (Table 17-3). -/
def State.ecnLoop (s : State) : Bool := s.get R.BIST.STATUS.RUN = 1 && s.get R.BIST.STATUS.TEST = 7

/-- Steward traffic, supervision frames and forwarding are permitted. -/
def State.txOpen (s : State) : Bool := s.initOrRun && !s.sup.latch && !s.ecnLoop

/-- Tocsin watches once its configuration is confirmed: until then it asserts start-hold and its trigger line stays withdrawn (R349). -/
def State.tocsinOn (s : State) : Bool := s.sup.powered && !s.sup.startHold

/-- The triggers that Tocsin raises, with the external request whose lines it reads (Table 18-1), and that of its liveness line, which is watched
from the withdrawal of start-hold on (R356). -/
def tocsinCodes : List Nat := [10, 11, 12, 13, 15, 17]

/-- What must stand for a trigger to be raised beside Tocsin's watch: the watchdog and a low store trip in RUN only (R350, R358), the external request
only while it is enabled (R359), and STW SAFE is accepted in STARTTEST, INIT and RUN only (R365). -/
def State.raisable (s : State) (code : Nat) : Bool :=
  match code with
  | 0 => false
  | 10 | 14 => s.mstate = .run
  | 15 => s.get R.SUP.CFG.EXTEN = 1
  | 16 => s.mstate = .starttest || s.initOrRun
  | _ => true

/-- SAFE_STATE_TRIGGER: a trigger line of Table 16-2 is asserted. -/
def execSafeStateTrigger (code : Fin 18) (detail : Byte) (s : State) : Host.Outcome State Fault Refusal :=
  s.whilePowered (if !s.raisable code.val || (tocsinCodes.contains code.val && !s.tocsinOn) then s else s.trigger code.val detail.toNat)

end Sys2Proof.Machine
end

