-- ==== Sys2Proof/Machine/Upd.lean ====
section
/-! DEFINITION. Packages, image slots, owner lock, key store, maintenance sessions and attestation (15, R333 to R348). -/

namespace Sys2Proof.Machine

/-! ## Flash (R336) -/

/-- The image of a slot: 0 A, 1 B, 2 the recovery image. -/
def State.img (s : State) (n : Nat) : Option FlashImg :=
  if n = 0 then s.upd.slotA else if n = 1 then s.upd.slotB else s.upd.rcv

/-- Replaces the image of a slot. -/
def State.setImg (s : State) (n : Nat) (v : Option FlashImg) : State :=
  if n = 0 then { s with upd := { s.upd with slotA := v } }
  else if n = 1 then { s with upd := { s.upd with slotB := v } }
  else { s with upd := { s.upd with rcv := v } }

/-- The active slot. -/
def State.actSlot (s : State) : Nat := s.get R.UPD.STATE.ACT

/-- The slot that is not active. -/
def State.idleSlot (s : State) : Nat := if s.actSlot = 0 then 1 else 0

/-- The section of a type in a manifest. -/
def sectOf (m : Manifest) (t : Nat) : Option SectEnt := m.sections.find? fun x => x.type.toNat = t

/-- The numbers of the blocks of a section: blocks are 64 KiB from slot offset 0x0010_0000 (R334). -/
def sectBlocks (x : SectEnt) : List Nat :=
  (List.range ((x.length.toNat + 65535) / 65536)).map fun i => (x.offset.toNat - 0x100000) / 65536 + i

/-- The blocks of the firmware part, sections 1 to 5. -/
def fwBlocks (m : Manifest) : List Nat :=
  [1, 2, 3, 4, 5].flatMap fun t => match sectOf m t with
    | some x => sectBlocks x
    | none => []

/-- The bytes of a section of an image. -/
def sectBytes (i : FlashImg) (t : Nat) : Option (List Byte) :=
  (sectOf i.man t).map fun x => ((sectBlocks x).flatMap fun b => i.blocks.getD b []).take x.length.toNat

/-- SHA3-256 of the block digests of sections, in order (R340, Table 15-5). -/
def sectsDigest (m : Manifest) (ts : List Nat) : BitVec 256 :=
  sha3 (ts.flatMap fun t => match sectOf m t with
    | some x => (sectBlocks x).flatMap fun b => leBytes 32 (m.digests.getD b 0).toNat
    | none => [])

/-- The program version in a slot's section 6 (R343, assumption 9). -/
def State.slotProgram (s : State) (n : Nat) : Option Program :=
  match s.img n with
  | some i => if i.valid then (sectBytes i 6).bind Config.programOf else none
  | none => none

/-! ## Checks (R337, R338) -/

/-- Header bytes 0x000 to 0x0FF (Table 15-1). -/
def hdrBytes (h : PkgHeader) : List Byte :=
  leBytes 4 h.magic.toNat ++ leBytes 2 h.format.toNat ++ leBytes 1 h.kind.toNat ++ leBytes 1 h.flags.toNat ++
  leBytes 4 h.part.toNat ++ leBytes 1 h.hwmin.toNat ++ leBytes 1 h.hwmax.toNat ++ leBytes 2 h.fwrel.toNat ++
  leBytes 4 h.svn.toNat ++ leBytes 4 h.pver.toNat ++ leBytes 2 h.keyid.toNat ++ leBytes 2 h.copyfmt.toNat ++
  leBytes 4 h.manlen.toNat ++ leBytes 8 h.datalen.toNat ++ leBytes 32 h.baseid.toNat ++ leBytes 32 h.mandig.toNat ++
  leBytes 152 0

/-- Manifest bytes (R334). -/
def manBytes (m : Manifest) : List Byte :=
  bytesAt (m.sections.flatMap fun x =>
    leBytes 4 x.type.toNat ++ leBytes 4 x.offset.toNat ++ leBytes 4 x.length.toNat ++ leBytes 20 0) 0 256 ++
  leBytes 4 m.digests.length ++ m.digests.flatMap fun d => leBytes 32 d.toNat

/-- DELTA. -/
def isDelta (h : PkgHeader) : Bool := h.flags.toNat % 2 = 1
/-- RAISE. -/
def isRaise (h : PkgHeader) : Bool := h.flags.toNat / 2 % 2 = 1

/-- The key of a KEYID that was not revoked. -/
def State.key (s : State) (id : Nat) : Option KeyEnt := s.upd.keys.find? fun k => k.id = id && !k.revoked

/-- Whether a KEYID may sign a KIND (Table 15-4). -/
def keyFor (id kind : Nat) : Bool :=
  if kind = 2 then decide (0x10 ≤ id) && decide (id ≤ 0x1F)
  else (decide (1 ≤ id) && decide (id ≤ 0xF)) || (kind = 4 && id = 0x20)

/-- The algorithm that SIGLEN implies: true ML-DSA-65. -/
def algOf (siglen : Nat) : Option Bool := if siglen = 3309 then some true else if siglen = 2420 then some false else none

/-- A signature, with an empty context string, verifies with a key of the key store (R333). -/
def State.signed (s : State) (id siglen : Nat) (msg sig : List Byte) : Bool :=
  match s.key id with
  | some k => algOf siglen = some k.big && mlVerify k.big k.key msg [] sig
  | none => false

/-- Steps 1 to 5 of Table 15-2 for the KINDs of a list. -/
def State.headSteps (s : State) (h : PkgHeader) (kinds : List Nat) : List (Nat × Bool) :=
  [(1, h.magic.toNat != 0x7A311501 || h.format.toNat != 1 || !kinds.contains h.kind.toNat),
   (2, h.part != s.reg R.ID.PART.NUM.off || decide (s.get R.ID.REV.HWREV < h.hwmin.toNat) || decide (h.hwmax.toNat < s.get R.ID.REV.HWREV)),
   (3, match s.key h.keyid.toNat with
     | some k => !keyFor h.keyid.toNat h.kind.toNat || algOf h.siglen.toNat != some k.big
     | none => true),
   (4, !s.signed h.keyid.toNat h.siglen.toNat (hdrBytes h) h.hsig),
   (5, decide (h.svn.toNat < s.get R.UPD.MINSVN.SVN))]

/-- Step 7 fails. -/
def badManifest (h : PkgHeader) (m : Manifest) : Bool :=
  (manBytes m).length != h.manlen.toNat || decide (520192 < h.manlen.toNat) || decide (8176 < m.digests.length) ||
    sha3 (manBytes m) != h.mandig

/-- Step 9 fails. -/
def State.badMsig (s : State) (h : PkgHeader) (m : Manifest) : Bool :=
  !s.signed h.keyid.toNat m.siglen.toNat (leBytes 32 h.mandig.toNat) m.msig

/-- The MANDIG of the active slot. -/
def State.actDigest (s : State) : BitVec 256 := match s.img s.actSlot with
  | some i => i.hdr.mandig
  | none => 0

/-- The KINDs allowed in the present life-cycle state (Table 15-3). -/
def State.kinds (s : State) : List Nat := if s.depot then [1, 2, 3, 4] else [1, 2]

/-- The header checks in service, steps 1 to 6: the first that fails, 0 for none. -/
def State.headCheck (s : State) (h : PkgHeader) : Nat :=
  firstReason (s.headSteps h s.kinds ++ [(6, isDelta h && h.baseid != s.actDigest)])

/-- Header, manifest and signature of an image or of its base image, as R338 orders them. -/
def State.sealSteps (s : State) (h : PkgHeader) (m : Manifest) (kinds : List Nat) : List (Nat × Bool) :=
  s.headSteps h kinds ++ [(7, badManifest h m), (9, s.badMsig h m)]

/-- A block does not have its digest. -/
def badBlock (i : FlashImg) (m : Manifest) (b : Nat) : Bool := sha3 (i.blocks.getD b []) != m.digests.getD b 0

/-- The check of a slot, of the recovery image where `n` is 2 (R338): the first step that fails, 0 for none. -/
def State.slotCheck (s : State) (n : Nat) : Nat :=
  match s.img n with
  | none => 1
  | some i =>
    let kinds := if n = 2 then [3] else [1, 2]
    let base : List (Nat × Bool) := match i.base with
      | some (h, m) => s.sealSteps h m [1, 2]
      | none => [(1, i.hdr.kind.toNat = 2)]
    let fw : Bool := match i.base with
      | some (_, m) => (fwBlocks m).any fun b => badBlock i m b
      | none => false
    firstReason ((1, !i.valid) :: s.sealSteps i.hdr i.man kinds ++ (if i.hdr.kind.toNat = 2 then base else []) ++
      [(8, ((List.range i.man.digests.length).any fun b => badBlock i i.man b) || (i.hdr.kind.toNat = 2 && fw))])

/-! ## Staging -/

/-- UPD.STATE.STATE: 0 IDLE, 1 RECEIVED, 2 APPLYING, 3 READY, 4 FAILED. -/
def State.updState (s : State) : Nat := s.get R.UPD.STATE.fld

/-- The words of the staged package's MANDIG in STGID. -/
def State.setStgid (s : State) (d : BitVec 256) : State :=
  (List.range 8).foldl (fun t w => t.set (R.UPD.STGID.WORD w) (d.toNat / 2 ^ (32 * w))) s

/-- The words of the active slot's MANDIG in ACTID. -/
def State.setActid (s : State) : State :=
  (List.range 8).foldl (fun t w => t.set (R.UPD.ACTID.WORD w) (s.actDigest.toNat / 2 ^ (32 * w))) s

/-- A check fails (R337). -/
def State.checkFail (s : State) (code : Nat) (pver : W32) : State :=
  (((s.set R.UPD.STATUS.CHECK code).set R.UPD.STATE.fld 4).flag R.UPD.FLAG.CHKFAIL).fumarole 0x0A 0x0E code
    (leBytes 1 0x0E ++ leBytes 3 0 ++ leBytes 4 pver.toNat)

/-- The package in staging is dropped. -/
def State.dropPackage (s : State) : State :=
  ({ s with upd := { s.upd with hdr := none, man := none, stream := [] } }.set R.UPD.STATE.KIND 0).setStgid 0

/-- Staging is emptied: of the package, and of an owner message (R341, R343, R345). -/
def State.emptyStaging (s : State) : State := State.dropPackage { s with upd := { s.upd with owner := none } }

/-- The KIND of the package in staging. -/
def State.stgKind (s : State) : Nat := s.get R.UPD.STATE.KIND

/-- PACKAGE_HEADER_RECEIVED: through a maintenance session, while staging is free; the header checks run as it arrives. -/
def execPackageHeaderReceived (h : PkgHeader) (s : State) : Host.Outcome State Fault Refusal :=
  s.whilePowered (
    if s.session.isNone ∨ (s.updState ≠ 0 ∧ s.updState ≠ 4) then s
    else
      let s1 := ((s.dropPackage.set R.UPD.STATE.KIND h.kind.toNat).setStgid h.mandig).set R.UPD.STATUS.CHECK 0
      let code := s.headCheck h
      if code = 0 then { s1 with upd := { s1.upd with hdr := some h } }.set R.UPD.STATE.fld 0
      else s1.checkFail code h.pver)

/-- PACKAGE_RECEIVED: the rest of the package whose header passed since the start is in staging, through the maintenance session; step 7. A package is not whole before DATALEN bytes of
its delta stream have come (R333), and what follows them is no part of it. -/
def execPackageReceived (m : Manifest) (stream : List Byte) (s : State) : Host.Outcome State Fault Refusal :=
  s.whilePowered (match s.upd.hdr with
    | none => s
    | some h =>
      if s.session.isNone ∨ s.updState ≠ 0 ∨ s.stgKind ≠ h.kind.toNat ∨ stream.length < h.datalen.toNat then s
      else
        let s1 := { s with upd := { s.upd with man := some m, stream := stream.take h.datalen.toNat } }
        if badManifest h m then s1.checkFail 7 h.pver else s1.set R.UPD.STATE.fld 1)

/-! ## Commands (R341) -/

/-- An exchange is in progress. -/
def State.exchBusy (s : State) : Bool :=
  let x := s.get R.TASK.XSTAT.STATE
  x = 1 || x = 2 || x = 4 || x = 5 || x = 6

/-- The owner lock is in effect. -/
def State.locked (s : State) : Bool := s.get R.UPD.OWNER.LOCKED = 1

/-- The last update of BATSIG had value 1 or VALID 0; one that had none since the start counts as one with VALID 0 (DESIGN CHOICE,
assumption 19). -/
def State.batteryAlarm (s : State) : Bool :=
  match s.upd.bat with
  | some (v, valid) => v || !valid
  | none => true

/-- The battery is low (R342). -/
def State.batteryLow (s : State) : Bool :=
  decide (s.get R.SUP.SUPPLY.INPUT < 2040) ||
    (s.get R.UPD.CFG.BATSIG != 0 && match tblFind (s.ch s.leadCh).dir (s.get R.UPD.CFG.BATSIG) with
      | some e => e.type = 1 && (e.home = 1 || e.home = 5) && s.batteryAlarm
      | none => false)

/-- A UPD command. -/
def State.updCommand (s : State) (r : Req) (v why : Nat) (act : State → State) : State :=
  s.command r R.UPD.CMD.all R.UPD.CMDCNT.COUNT R.UPD.STATUS.REASON v why act

/-- The outcome of APPLY. -/
def State.applyWhy (s : State) : Nat :=
  firstReason [(2, s.updState != 1), (3, s.locked), (7, s.exchBusy), (8, (s.stgKind = 3 || s.stgKind = 4) && !s.depot)]

/-- APPLY: the inactive slot is marked not valid and writing begins. -/
def execApply (r : Req) (s : State) : Host.Outcome State Fault Refusal :=
  s.whilePowered (s.updCommand r 1 s.applyWhy fun t =>
    let n := match t.upd.man with
      | some m => m.digests.length
      | none => 0
    let t1 := ((t.set R.UPD.STATE.fld 2).set R.UPD.PROG.TOTAL n).set R.UPD.PROG.DONE 0
    if t.stgKind = 1 ∨ t.stgKind = 2 then
      t1.setImg t.idleSlot ((t.img t.idleSlot).map fun i => { i with valid := false })
    else t1)

/-- A record of the delta stream (R335): OP and target block of word 0 of its tag, word 1, and the data that follow. -/
structure DeltaRec where
  op : Nat
  target : Nat
  arg : Nat
  data : List Byte
  deriving DecidableEq, Repr

/-- The record at the head of a stream, and the rest: an 8-byte tag, then the data of OP 2 or 3, padded to a multiple of 8 bytes. -/
def takeRec (l : List Byte) : Option (DeltaRec × List Byte) :=
  let w0 := BitVec.ofNat 32 (leNat (bytesAt l 0 4))
  let arg := leNat (bytesAt l 4 4)
  let op := fieldOf w0 28 4
  let n := if op = 2 then 65536 else if op = 3 then arg else 0
  let size := 8 + (n + 7) / 8 * 8
  if l.length < size then none else some (⟨op, fieldOf w0 0 20, arg, bytesAt l 8 n⟩, l.drop size)

/-- The target block that a record of the delta stream produces (R335). -/
def deltaBlock (base : List (List Byte)) (delta : Bool) (r : DeltaRec) : Option (List Byte) :=
  match r.op with
  | 1 => if delta then (base.drop r.arg).head? else none
  | 2 => if r.arg = 65536 then some r.data else none
  | 3 => if r.data.length = r.arg then inflate r.data else none
  | 4 => if r.arg = 0 then some (List.replicate 65536 0) else none
  | _ => none

/-- A block that a stream produces as block `n` passes step 8 (Table 15-2). -/
def blockOk (base : List (List Byte)) (m : Manifest) (fwSame : Bool) (n : Nat) (r : DeltaRec) (b : List Byte) : Bool :=
  r.target = n && b.length = 65536 && sha3 b = m.digests.getD n 0 && (!fwSame || !(fwBlocks m).contains n || base.getD n [] = b)

/-- The blocks that a delta stream produces, at most `todo`, up to the first record that is not the next block or fails step 8, and what is
left of the stream. -/
def deltaBlocks (base : List (List Byte)) (delta : Bool) (m : Manifest) (fwSame : Bool) : (todo : Nat) → List Byte → List (List Byte) × List Byte
  | 0, l => ([], l)
  | todo + 1, l =>
    match takeRec l with
    | none => ([], l)
    | some (r, rest) =>
      match deltaBlock base delta r with
      | none => ([], l)
      | some b =>
        if blockOk base m fwSame (m.digests.length - (todo + 1)) r b then
          let t := deltaBlocks base delta m fwSame todo rest
          (b :: t.1, t.2)
        else ([], l)

/-- Whether a KEYS package signed by `signer` may make a change (Table 15-4): a later Hafahild key asks for a signer as strong as the key that comes in
and as the one that is there. -/
def State.keyChangeOk (s : State) (signer : Nat) (c : Nat × Bool × Bool × List Byte) : Bool :=
  let big : Bool := match s.key signer with
    | some k => k.big
    | none => false
  if c.1 = 1 then signer = 2 && c.2.2.1
  else if c.1 = 2 then signer = 1 && c.2.2.1
  else if 3 ≤ c.1 ∧ c.1 ≤ 0xF then decide (signer ≤ 0xF) && (big || (!c.2.1 && !(s.upd.keys.any fun k => k.id = c.1 && k.big)))
  else if 0x10 ≤ c.1 ∧ c.1 ≤ 0x1F then signer = 0x20
  else false

/-- Makes a change of the key store. -/
def State.changeKey (s : State) (c : Nat × Bool × Bool × List Byte) : State :=
  let rest := s.upd.keys.filter fun k => k.id != c.1
  let e : KeyEnt :=
    if c.2.2.1 then
      match s.upd.keys.find? fun k => k.id = c.1 with
      | some k => { k with revoked := true }
      | none => ⟨c.1, c.2.1, true, c.2.2.2⟩
    else ⟨c.1, c.2.1, false, c.2.2.2⟩
  { s with upd := { s.upd with keys := rest ++ [e] } }

/-- APPLY_DONE: step 7 of a package that an earlier start received (Table 15-8), blocks, step 8, step 9; READY or FAILED (R337). -/
def execApplyDone (s : State) : Host.Outcome State Fault Refusal :=
  s.whilePowered (match s.upd.hdr, s.upd.man with
    | some h, some m =>
      if s.updState ≠ 2 then s
      else
        let base := match s.img s.actSlot with
          | some i => i.blocks
          | none => []
        let (bs, left) := deltaBlocks base (isDelta h) m (h.kind.toNat = 2) m.digests.length s.upd.stream
        let s1 := s.set R.UPD.PROG.DONE bs.length
        if badManifest h m then s.checkFail 7 h.pver
        else if bs.length ≠ m.digests.length ∨ left ≠ [] then s1.checkFail 8 h.pver
        else if s.badMsig h m then s1.checkFail 9 h.pver
        else
          let ready := (s1.set R.UPD.STATE.fld 3).flag R.UPD.FLAG.READY
          let img (b : Option (PkgHeader × Manifest)) : FlashImg := ⟨h, m, b, bs, true⟩
          match h.kind.toNat with
          | 1 => ready.setImg s.idleSlot (some (img none))
          | 2 => ready.setImg s.idleSlot (some (img ((s.img s.actSlot).map fun i => (i.hdr, i.man))))
          | 3 => ready.setImg 2 (some (img none))
          | _ => ((Config.keyChanges (bs.flatMap id)).filter (s.keyChangeOk h.keyid.toNat)).foldl State.changeKey ready
    | _, _ => s)

/-- The outcome of ACTIVATE. -/
def State.activateWhy (s : State) : Nat :=
  firstReason [(2, s.updState != 3 || (s.stgKind != 1 && s.stgKind != 2)), (3, s.locked),
    (4, s.get R.SPD.STATUS.STILL = 0 && !s.depot), (5, s.batteryLow), (6, !s.noWork), (7, s.exchBusy)]

/-- The CRC-32 of a copy of the slot record (assumption 19). -/
def SlotRec.sum (r : SlotRec) : W32 := crc32 (leBytes 4 r.seq ++ leBytes 1 r.act ++ leBytes 1 r.trial ++ leBytes 1 r.trials)

/-- A copy of the slot record is valid. -/
def SlotRec.ok (r : SlotRec) : Bool := r.crc = r.sum

/-- The slot record that holds: of the valid copies the one with the higher sequence number (R336). -/
def State.slotRec (s : State) : Option SlotRec :=
  match s.upd.rec0.filter SlotRec.ok, s.upd.rec1.filter SlotRec.ok with
  | some a, some b => if a.seq < b.seq then some b else some a
  | some a, none => some a
  | none, b => b

/-- The slot record is written as UPD.STATE shows it, over the copy that does not hold. -/
def State.writeSlotRec (s : State) : State :=
  let seq := match s.slotRec with
    | some r => r.seq + 1
    | none => 1
  let r : SlotRec := ⟨seq, s.actSlot, s.get R.UPD.STATE.TRIAL, s.get R.UPD.STATE.TRIALS, 0⟩
  let new : Option SlotRec := some { r with crc := r.sum }
  if s.slotRec.isSome ∧ s.slotRec = s.upd.rec0 then { s with upd := { s.upd with rec1 := new } } else { s with upd := { s.upd with rec0 := new } }

/-- UPD.STATE shows the slot record that holds, if there is one. -/
def State.readSlotRec (s : State) : State :=
  match s.slotRec with
  | some r => ((s.set R.UPD.STATE.ACT r.act).set R.UPD.STATE.TRIAL r.trial).set R.UPD.STATE.TRIALS r.trials
  | none => s

/-- Makes a slot the active one in the slot record. -/
def State.makeActive (s : State) (n : Nat) (trial : Bool) : State :=
  (((s.set R.UPD.STATE.ACT n).set R.UPD.STATE.TRIAL (b2n trial)).set R.UPD.STATE.TRIALS 0).setActid.writeSlotRec

/-- A restart is accepted; a later one does not undo a cold start (R365). -/
def State.acceptRestart (s : State) (cold : Bool) : State :=
  { s with sup := { s.sup with restart := some (cold || s.sup.restart.getD false) } }

/-- UPD ACTIVATE: the inactive slot becomes active on trial; a cold start follows. -/
def execUpdActivate (r : Req) (s : State) : Host.Outcome State Fault Refusal :=
  s.whilePowered (s.updCommand r 2 s.activateWhy fun t => (t.makeActive t.idleSlot true).acceptRestart true)

/-- UPD CANCEL. -/
def execUpdCancel (r : Req) (s : State) : Host.Outcome State Fault Refusal :=
  s.whilePowered (s.updCommand r 3 (firstReason [(2, s.updState != 1 && s.updState != 3 && s.updState != 4), (7, s.exchBusy)]) fun t =>
    t.emptyStaging.set R.UPD.STATE.fld 0)

/-- VERIFY: slot `arg` is checked under R338; an undefined slot is an undefined code. -/
def execVerify (r : Req) (arg : BitVec 4) (s : State) : Host.Outcome State Fault Refusal :=
  s.whilePowered (s.updCommand r (arg.toNat * 256 + 4) (firstReason [(1, decide (2 < arg.toNat)), (2, s.updState = 2)]) fun t =>
    t.set R.UPD.STATUS.CHECK (t.slotCheck arg.toNat))

/-! ## Owner lock (R345) -/

/-- The bytes of an owner message before its signature. -/
def ownerBytes (m : OwnerMsg) : List Byte :=
  leBytes 4 m.magic.toNat ++ leBytes 1 m.action.toNat ++ leBytes 3 0 ++ leBytes 8 m.serial.toNat ++ leBytes 8 m.chal.toNat ++
  leBytes 2 m.keyid.toNat ++ (if m.action = 3 then m.newKey else []) ++ leBytes 2 m.siglen.toNat

/-- The challenge that a requester last read and no command used up. -/
def State.chalOf (s : State) (r : Req) : Option Nat :=
  if s.preqGet r (R.UPD.OCHAL_LO.all.off + 1) = 1 then
    some ((s.preqGet r R.UPD.OCHAL_LO.all.off).toNat + 2 ^ 32 * (s.preqGet r R.UPD.OCHAL_HI.all.off).toNat)
  else none

/-- A valid owner message is in staging. -/
def State.ownerOk (s : State) (r : Req) : Bool :=
  match s.upd.owner with
  | none => false
  | some m =>
    m.magic.toNat = 0x7A3115A0 && decide (1 ≤ m.action.toNat) && decide (m.action.toNat ≤ 3) &&
    m.serial.toNat = s.getPair R.ID.SERIAL_LO.SN R.ID.SERIAL_HI.SN && s.chalOf r = some m.chal.toNat && m.keyid.toNat = 0x20 &&
    ((m.action = 3 && s.lcs = 1 && s.get R.UPD.OWNER.OWNKEY = 0) || s.signed 0x20 m.siglen.toNat (ownerBytes m) m.sig)

/-- The effect of an owner message; an ML-DSA-65 public key has 1,952 bytes (FIPS 204). -/
def State.ownerAct (s : State) : State :=
  match s.upd.owner with
  | none => s
  | some m =>
    let s1 := { s with upd := { s.upd with owner := none } }
    match m.action.toNat with
    | 1 => s1.set R.UPD.OWNER.LOCKED 1
    | 2 => s1.set R.UPD.OWNER.LOCKED 0
    | _ => (s1.changeKey (0x20, m.newKey.length = 1952, false, m.newKey)).set R.UPD.OWNER.OWNKEY 1

/-- The owner message in staging names the challenge that a requester holds. -/
def State.namesChal (s : State) (r : Req) : Bool := s.upd.owner.any fun m => s.chalOf r = some m.chal.toNat

/-- OWNER: the command uses up the challenge that it names. -/
def execOwner (r : Req) (s : State) : Host.Outcome State Fault Refusal :=
  s.whilePowered (if !s.steward r then s
    else
      let s1 := s.updCommand r 5 (firstReason [(9, !s.ownerOk r)]) State.ownerAct
      if s.namesChal r then s1.preqSet r (R.UPD.OCHAL_LO.all.off + 1) 0 else s1)

/-- OCHAL_READ: a new challenge; a read of _LO latches _HI (R3). -/
def execOchalRead (r : Req) (s : State) : Host.Outcome State Fault Refusal :=
  s.whilePowered (if s.shut r then { s with resp := some 0 }
    else { (s.readOchal r).2 with resp := if isEng r then s.resp else some (s.readOchal r).1 })

/-! ## The maintenance port (R347, R323, R345) -/

/-- The session key that a KEYID of the key store gives: the owner key, or a Hafahild key that was not revoked. -/
def State.sessionKey (s : State) (root : Nat) : Option SessionKey :=
  if (s.key root).isNone then none else if root = 0x20 then some .owner else if 1 ≤ root ∧ root ≤ 0xF then some .hafahild else none

/-- MAINTENANCE_SESSION_OPEN: authenticated by an ML-DSA certificate that chains to the owner key or a Hafahild key, `root` its KEYID. -/
def execMaintenanceSessionOpen (root : Nat) (mldsa chains : Bool) (s : State) : Host.Outcome State Fault Refusal :=
  s.whilePowered (if mldsa && chains && s.session.isNone then { s with session := s.sessionKey root } else s)

/-- MAINTENANCE_SESSION_CLOSE. -/
def execMaintenanceSessionClose (s : State) : Host.Outcome State Fault Refusal := s.whilePowered { s with session := none }

/-- CONFIG_IMAGE_RECEIVED: into the staging store; an image that STAGE accepted is replaced unless it is due at the next start. -/
def execConfigImageReceived (img : NvImage) (s : State) : Host.Outcome State Fault Refusal :=
  s.whilePowered (if s.session.isNone ∨ s.get R.CFG.STATUS.PEND ≠ 0 then s
    else ({ s with nv := { s.nv with staged := some img } }.set R.CFG.STATUS.STGV 0).set R.CFG.STGVER.CFGVER 0)

/-- OWNER_MESSAGE_RECEIVED. -/
def execOwnerMessageReceived (m : OwnerMsg) (s : State) : Host.Outcome State Fault Refusal :=
  s.whilePowered (if s.session.isNone then s else { s with upd := { s.upd with owner := some m } })

/-- FACTORY_IDENTITY_RECORD_WRITE: only in MANUFACTURE (R14). -/
def execFactoryIdentityRecordWrite (serial : BitVec 64) (mac : BitVec 48) (idPub idCert : List Byte) (img : Option NvImage)
    (s : State) : Host.Outcome State Fault Refusal :=
  s.whilePowered (if s.lcs ≠ 1 then s
    else { s with nv := { s.nv with
      ident := true, serial := serial, mac := mac, idPub := idPub, idCert := idCert, factory := img.orElse fun _ => s.nv.factory } })

/-! ## Attestation (R348) -/

/-- The current NV image. -/
def State.curImage (s : State) : Option NvImage := if s.get R.CFG.STATUS.CUR = 0 then s.nv.userA else s.nv.userB

/-- Bytes 0x000 to 0x0FF of a report (Table 15-5). FWDIG is that of the firmware that this start loaded and its receivers confirmed (R340), whatever became of
its slot since, and PRGDIG that of the version that runs, the new one from S_max of an exchange on. -/
def State.attestBytes (s : State) (nonce : BitVec 256) : List Byte :=
  let only := s.get R.CFG.STATUS.FACTONLY
  let prg : Nat := match s.boot.prgDig with
    | some d => d.toNat
    | none => 0
  let cfg : Nat := match s.curImage with
    | some i => if only = 1 then 0 else (sha3 (nvBytes i)).toNat
    | none => 0
  leBytes 4 0x7A3115C0 ++ leBytes 4 (s.reg R.ID.PART.NUM.off).toNat ++ leBytes 8 (s.getPair R.ID.SERIAL_LO.SN R.ID.SERIAL_HI.SN) ++
  leBytes 1 (s.get R.ID.REV.HWREV) ++ leBytes 1 s.lcs ++ leBytes 1 (s.get R.SUP.STATE.MSTATE) ++ leBytes 1 (s.get R.PAIR.ROLE.fld) ++
  leBytes 2 (match s.img s.actSlot with | some i => i.hdr.fwrel.toNat | none => s.get R.ID.REV.FWREL) ++ leBytes 1 s.actSlot ++
  leBytes 1 (s.get R.UPD.STATE.TRIAL + 2 * s.get R.UPD.OWNER.LOCKED + 4 * b2n s.boot.slotFb + 8 * only) ++
  leBytes 4 (s.get R.TASK.PVER.fld) ++ leBytes 4 (s.get R.CFG.CURVER.CFGVER) ++ leBytes 4 (s.get R.UPD.MINSVN.SVN) ++
  leBytes 4 (s.get R.UPD.BOOTCNT.COUNT) ++ leBytes 32 s.actDigest.toNat ++ leBytes 32 s.boot.fwDig.toNat ++ leBytes 32 prg ++
  leBytes 32 cfg ++ leBytes 32 nonce.toNat ++ leBytes 8 s.nowNs ++ leBytes 48 0

/-- ATTESTATION_REQUEST: a signed report, asked for through the maintenance port or as TRDP message data, where X1 and X2 are open; a module whose
identity key is absent or erased can sign none. -/
def execAttestationRequest (x3 : Bool) (nonce : BitVec 256) (s : State) : Host.Outcome State Fault Refusal :=
  s.whilePowered (if !s.upd.idKey ∨ (!x3 && !s.txOpen) then s
    else
      let b := s.attestBytes nonce
      (s.send (.report (s.portMac x3) (b ++ leBytes 2 2420 ++ bytesAt (Config.sign b) 0 2420))).inc R.UPD.ATTCNT.COUNT)

end Sys2Proof.Machine
end

