-- ==== Sys2Proof/Machine/Bist.lean ====
section
/-! DEFINITION. Built-in self-test and life-cycle states (17, R366 to R375), and the end of the expert unlock (14, R322). -/

namespace Sys2Proof.Machine

/-- UNLK returns to 0 (R322). -/
def State.lockExpert (s : State) : State := (s.set R.CFG.EXPERT.UNLK 0).set R.CFG.EXPERT.TLEFT 0

/-! ## Tests (Tables 17-3, 17-4) -/

/-- U of a test. -/
def testUnits (n : Nat) : Nat := ([2400, 400, 160, 800, 4000, 2000, 600, 200] : List Nat).getD n 0

/-- The slices of a test at a base period of `pUs` µs (R369). -/
def testSlices (n pUs : Nat) : Nat := (testUnits n + pUs / 250 - 1) / (pUs / 250)

/-- Whether a test is allowed in the present life-cycle state. -/
def State.testKind (s : State) (n : Nat) : Bool := s.depot || (s.lcs = 2 && decide (n ≤ 2))

/-- The partner's last valid heartbeat, while one was heard in the last 500 µs. -/
def State.partner (s : State) : Option Heartbeat := if s.pair.hbLive then s.pair.hb else none

/-- The running test. -/
def State.testRun (s : State) : Option Nat := if s.get R.BIST.STATUS.RUN = 1 then some (s.get R.BIST.STATUS.TEST) else none

/-- The partner reports that its own CPCI scan (FLAGS bit 5) or GEYSER test (bit 6) runs. -/
def State.partnerRuns (s : State) (bit : Nat) : Bool := match s.partner with
  | some h => h.flags.toNat / 2 ^ bit % 2 = 1
  | none => false

/-- Role STANDBY or FENCED, or module state SAFE. -/
def State.idleOutputs (s : State) : Bool := s.role = .standby || s.role = .fenced || s.mstate = .safe

/-- The precondition of a test for START, and for a slice once it runs. GEYSER waits for the partner, which must start within 1 s; once
the partner has reported its GEYSER test, the own test needs it to go on; a CPCI test that both modules started is that of the lower slot code. -/
def State.testPre (s : State) (n : Nat) (running : Bool) : Bool :=
  match n with
  | 3 => (s.role = .fenced || s.mstate = .safe) && (!running || !s.bist.geyser || s.partnerRuns 6)
  | 4 => s.get R.BRG.STATUS.HOLD = 0 && (match s.partner with
    | some h => h.role != .alone && h.role != .active &&
        (h.flags.toNat / 32 % 2 = 0 || (running && decide (s.get R.ID.SLOT.CODE < h.slot.toNat)))
    | none => true)
  | 5 | 6 => s.idleOutputs
  | 7 => !s.txen
  | _ => true

/-- What a test changes while it runs: WSLOOP makes the speed function treat both sensors as lost (R370). -/
def State.testStimulus (s : State) (n : Nat) : State :=
  if n = 6 then
    let s1 := (s.set R.SPD.STATUS.S0OK 0).set R.SPD.STATUS.S1OK 0
    if s1.spdMode = 3 then s1 else s1.spdUnknown 3
  else s

/-- Step `k` of SIOLOOP: the switches of SO0 to SO7, HS before LS, each closed and then opened alone, then SI0 to SI15 at the off, band and on levels
(R370, Table 17-6; the order within is DEDUCED, assumption 30). -/
def sioStep (k : Nat) : SioDrive :=
  if k < 32 then .switch (Fin.ofNat 8 (k / 4)) (k / 2 % 2 = 1) (k % 2 = 0) else .source (Fin.ofNat 16 ((k - 32) / 3)) (Fin.ofNat 3 ((k - 32) % 3))

/-- The fewest work units of step `k` that begins with unit `b`: one; slice 1 at 1 ms, units 0 to 3, closes SO0 HS alone (Table 17-6), so step 2 begins
with unit 4 at the earliest. -/
def sioLeast (k b : Nat) : Nat := if k = 1 then max 1 (4 - b) else 1

/-- The first work units of the `n` steps from `k` on, which fill the units from `b` to `hi`; how many each takes is open (assumption 9). -/
def sioStarts (hi k b : Nat) : Nat → List Nat
  | 0 => []
  | n + 1 => b :: sioStarts hi (k + 1) (b + sioLeast k b + Config.sioExtra k % (hi - b - n - sioLeast k b + 1)) n

/-- What work unit `u` of SIOLOOP's 2,000 drives: SO0 to SO4 in the first 1,248, which are 312 slices at 1 ms, and SO5 to SO7 and the inputs after them
(Table 17-6). -/
def sioDrive (u : Nat) : SioDrive :=
  sioStep (((sioStarts 1248 0 0 20 ++ sioStarts 2000 20 1248 60).filter fun b => decide (b ≤ u)).length - 1)

/-- What a slice of test `n` drives, P / 250 µs work units after those of the slices before it (R369, R370). -/
def State.sliceDrives (s : State) (n : Nat) : List SioDrive :=
  let u := s.pUs / 250
  if n = 5 then (List.range u).map fun i => sioDrive (s.get R.BIST.PROG.DONE * u + i) else []

/-- Both sensors count as without a fault from `now` on. -/
def SpdSt.anew (v : SpdSt) (now : Nat) : SpdSt := { v with s0 := { v.s0 with goodFrom := now }, s1 := { v.s1 with goodFrom := now } }

/-- WSLOOP's stimulus is gone: each sensor must be good for 10 s from here (R370). -/
def State.sensorsAnew (s : State) (n : Nat) : State := if n = 6 then { s with spd := s.spd.anew s.nowNs } else s

/-- Starts test `n`; its first slice runs in the next SLICE. -/
def State.testBegin (s : State) (n : Nat) (manual : Bool) : State :=
  let s1 := ((s.set R.BIST.STATUS.RUN 1).set R.BIST.STATUS.MANUAL (b2n manual)).set R.BIST.STATUS.TEST n
  let s2 := (s1.set R.BIST.PROG.TOTAL (testSlices n s.pUs)).set R.BIST.PROG.DONE 0
  let s3 := ((s2.set (R.BIST.RES.all n) 0).set (R.BIST.RES.RESULT n) 1).set (R.BIST.DET.all n) 0
  { s3 with bist := { s3.bist with start := some n, bad := false, failed := 0, item := 0, drove := [], geyser := s.partnerRuns 6 } }.testStimulus n

/-- What the end of test `n` writes to its registers (R374, R375). -/
def State.testRecord (s : State) (n cause : Nat) : State :=
  let done := s.get R.BIST.PROG.DONE
  let result := if cause != 0 then 4 else if s.bist.bad then 3 else 2
  let s1 := (s.set R.BIST.STATUS.RUN 0).set R.BIST.STATUS.MANUAL 0
  let s2 := ((s1.set (R.BIST.RES.RESULT n) result).set (R.BIST.RES.PARTBAD n) (b2n (cause != 0 && s.bist.bad))).set (R.BIST.RES.ABCAUSE n) cause
  let s3 := s2.set (R.BIST.RES.SLICES n) done
  let s4 := (s3.set (R.BIST.DET.FAILCNT n) (min s.bist.failed 0xFFFF)).set (R.BIST.DET.ITEM n) s.bist.item
  let s5 := s4.flag R.BIST.FLAG.DONE
  if result = 3 then s5.flag R.BIST.FLAG.FAIL else if result = 4 then s5.flag R.BIST.FLAG.INCOMPLETE else s5

/-- The running test ends (R374, R375): cause 0 after its last slice. -/
def State.testEnd (s : State) (cause : Nat) : State :=
  match s.testRun with
  | none => s
  | some n => State.sensorsAnew { s.testRecord n cause with bist := { s.bist with start := none, drove := [] } } n

/-- The cause with which test `n` ends where it is no longer reachable: 2 where life-cycle state, module state or role is what fails it, 4 for
any other loss of its precondition. -/
def State.testCause (s : State) (n : Nat) : Nat :=
  if !s.testKind n then 2
  else match n with
    | 3 => if s.role = .fenced || s.mstate = .safe then 4 else 2
    | 4 => 4
    | _ => 2

/-- While a GEYSER test runs, that the partner reports its own is kept: from then on its end ends the test (R374). -/
def State.noteGeyser (s : State) : State :=
  if s.testRun = some 3 ∧ s.partnerRuns 6 then { s with bist := { s.bist with geyser := true } } else s

/-- The running test ends where it is no longer reachable (R371, R374). -/
def State.testCheck (s : State) : State :=
  match s.testRun with
  | none => s
  | some n => if s.testKind n && s.testPre n true then s.noteGeyser else s.testEnd (s.testCause n)

/-- The module drives TCK, TMS, TDI and TRST# of P1: only while it has power and runs self-test 4; else these contacts are high-impedance (R377,
R378). -/
def State.drivesTestLines (s : State) : Bool := s.sup.powered && s.testRun = some 4 && s.bist.start.isNone

/-! ## Commands (R372) -/

/-- A BIST command. -/
def State.bistCommand (s : State) (r : Req) (v why : Nat) (act : State → State) : State :=
  s.command r R.BIST.CMD.all R.BIST.CMDCNT.COUNT R.BIST.REASON.CODE v why act

/-- The outcome of START. -/
def State.testWhy (s : State) (n : Nat) : Nat :=
  let m := s.mstate
  firstReason [(2, m = .boot || m = .recovery), (3, !s.testKind n), (4, !s.testPre n false),
    (5, s.testRun.isSome && s.get R.BIST.STATUS.MANUAL = 1)]

/-- TEST_START: an automatic test that runs ends with cause 5. -/
def execTestStart (r : Req) (test : Fin 8) (s : State) : Host.Outcome State Fault Refusal :=
  s.whilePowered (s.bistCommand r (test.val * 256 + 1) (s.testWhy test.val) fun t => (t.testEnd 5).testBegin test.val true)

/-- TEST_STOP. -/
def execTestStop (r : Req) (s : State) : Host.Outcome State Fault Refusal :=
  s.whilePowered (s.bistCommand r 2 (firstReason [(6, s.testRun.isNone)]) fun t => t.testEnd 1)

/-- GEYSER_TEST_PARTNER_TIMEOUT: the partner did not start within 1 s. -/
def execGeyserTestPartnerTimeout (s : State) : Host.Outcome State Fault Refusal :=
  s.whilePowered (if s.testRun = some 3 ∧ !s.bist.geyser ∧ !s.partnerRuns 6 then s.testEnd 4 else s)

/-! ## Slices (R369, R373) -/

/-- The next automatic test: the next number of AUTO after the last, then again from the lowest. -/
def State.nextAuto (s : State) : Option Nat :=
  let ts := (List.range 3).filter fun n => s.bit R.BIST.AUTO.MASK n
  match ts.find? fun n => decide (s.bist.auto < n) with
  | some n => some n
  | none => ts.head?

/-- With no test running the next automatic test starts, or waits until the next frame. -/
def State.startAuto (s : State) : State :=
  if s.testRun.isSome then s
  else match s.nextAuto with
    | some n => if s.testKind n && s.testPre n false then { s.testBegin n false with bist := { (s.testBegin n false).bist with auto := n } } else s
    | none => s

/-- What a slice adds to the results of its test. -/
def BistSt.slice (b : BistSt) (matched : Bool) (failed item : Nat) : BistSt :=
  { b with
    start := none
    bad := b.bad || !matched || failed != 0
    failed := b.failed + failed
    item := if b.failed = 0 ∧ failed ≠ 0 then item else b.item }

/-- A slice has run; after its last one the test ends. -/
def State.sliceRan (s : State) : State :=
  let done := s.get R.BIST.PROG.DONE + 1
  let s1 := s.set R.BIST.PROG.DONE done
  if decide (s.get R.BIST.PROG.TOTAL ≤ done) then s1.testEnd 0 else s1

/-- One slice of the running test: it matched its expected signature, with `failed` items from `item` on that did not. A GEYSER test
runs one only while the partner runs its own. -/
def State.runSlice (s : State) (matched : Bool) (failed item : Nat) : State :=
  match s.testRun with
  | none => { s with bist := { s.bist with drove := [] } }
  | some n =>
    if n = 3 ∧ !s.partnerRuns 6 then { s with bist := { s.bist with start := none } }
    else
      let t := State.sliceRan { s with bist := s.bist.slice matched failed item }
      { t with bist := { t.bist with drove := s.sliceDrives n } }

/-- SLICE may run: once in a frame; in RUN after COMMIT (R38), and in STARTTEST, INIT, SAFE and RECOVERY, where no frame is committed, at any time (R372,
R373; DEDUCED, assumption 30). -/
def State.sliceOpen (s : State) : Bool :=
  match s.mstate with
  | .run => s.get R.GONG.STATUS.PHASE = 4
  | .starttest | .init | .safe | .recovery => s.gong.ticking && s.get R.GONG.STATUS.PHASE != 6
  | _ => false

/-- The channels that issue a frame-complete token. -/
def State.tokenChs (s : State) : List Ch := [Ch.a, .b, .c].filter s.executing

/-- In RUN each channel that executes issues its frame-complete token to Tocsin (R38, R350). -/
def State.issueTokens (s : State) : State :=
  if s.mstate = .run then
    let s1 := s.tokenChs.foldl (fun t ch => t.send (.token ch)) s
    { s1 with sup := { s1.sup with tokens := maskOf (s.tokenChs.map chNum) } }
  else s

/-- SELF_TEST_SLICE: one slice of the running test, or none; then the frame-complete token, and SLACK. -/
def execSelfTestSlice (matched : Bool) (failed item : Nat) (s : State) : Host.Outcome State Fault Refusal :=
  s.whilePowered (if !s.sliceOpen then s
    else (s.testCheck.startAuto.runSlice matched failed item).issueTokens.set R.GONG.STATUS.PHASE 6)

/-! ## Life-cycle states (R366 to R368) -/

/-- Every force on a signal with SCLASS 1 to 4 is removed (R76). -/
def State.dropSil (s : State) : State :=
  s.dropForces ((s.forces.map (·.id)).filter fun id => match s.dirEnt id with
    | some e => decide (1 ≤ e.sclass) && decide (e.sclass ≤ 4)
    | none => false)

/-- The removal of R76 that a life-cycle change without a ticking Gong has left to the first tick edge. -/
def State.silTick (s : State) : State :=
  if s.bist.dropSil then { s.dropSil with bist := { s.bist with dropSil := false } } else s

/-- The pending life-cycle command takes effect. A module in INIT that becomes RETIRED stops there (R18). Where the Gong is not ticking, the next tick edge
of R76 is its first. -/
def State.lcTick (s : State) : State :=
  match s.bist.lcNew with
  | none => s
  | some n =>
    let old := s.lcs
    let s1 := { s with bist := { s.bist with lcNew := none, dropSil := decide (old = 1 ∨ old = 3) || s.bist.dropSil } }
    let s2 := (s1.set R.BIST.LCS.STATE n).flag R.BIST.FLAG.LCCHG
    let s3 := if s.gong.ticking then s2.silTick else s2
    let s4 := if n = 4 then { s3 with upd := { s3.upd with idKey := false } }
      else if old = 0 then { s3 with upd := { s3.upd with idKey := true } } else s3
    let s5 := if n = 4 ∧ s.mstate = .init then s4.set R.SUP.STATE.STOPC 4 else s4
    (s5.lockExpert.testCheck).fumarole 0x0A 0x10 n (leBytes 1 0x10 ++ leBytes 3 0 ++ leBytes 4 old)

/-- A life-cycle command `code` from one of `from'` to `to'`; `strong` asks for a Hafahild key, `more` are its further conditions. -/
def State.lcCommand (s : State) (r : Req) (v : Nat) (from' : List Nat) (to' : Nat) (strong : Bool) (more : List (Nat × Bool)) : State :=
  let weak : Bool := match s.session with
    | none => true
    | some .owner => strong
    | some .hafahild => false
  let why := firstReason ([(8, s.bist.lcNew.isSome), (2, !from'.contains s.lcs), (3, weak)] ++ more)
  s.command r R.BIST.LCCMD.all R.BIST.LCCNT.COUNT R.BIST.LCREASON.CODE v why fun t =>
    let t1 := { t with bist := { t.bist with lcNew := some to' } }
    if t.gong.ticking then t1 else t1.lcTick

/-- The module state is neither SAFE nor RECOVERY. -/
def State.notDown (s : State) : Bool := s.mstate != .safe && s.mstate != .recovery

/-- MFG. -/
def execMfg (r : Req) (s : State) : Host.Outcome State Fault Refusal := s.whilePowered (s.lcCommand r 1 [0] 1 true [])

/-- RELEASE: the factory identity record is present. -/
def execRelease (r : Req) (s : State) : Host.Outcome State Fault Refusal := s.whilePowered (s.lcCommand r 2 [1] 2 true [(7, !s.nv.ident)])

/-- DEPOT: standstill proven. -/
def execDepot (r : Req) (s : State) : Host.Outcome State Fault Refusal :=
  s.whilePowered (s.lcCommand r 3 [2] 3 false [(4, s.get R.SPD.STATUS.STILL = 0)])

/-- SERVICE. -/
def execService (r : Req) (s : State) : Host.Outcome State Fault Refusal := s.whilePowered (s.lcCommand r 4 [3] 2 false [])

/-- RETURN: in SAFE or RECOVERY. -/
def execReturn (r : Req) (s : State) : Host.Outcome State Fault Refusal := s.whilePowered (s.lcCommand r 5 [2, 3] 1 true [(5, s.notDown)])

/-- RETIRE: in SAFE or RECOVERY, with CONFIRM. -/
def execRetire (r : Req) (confirm : BitVec 16) (s : State) : Host.Outcome State Fault Refusal :=
  s.whilePowered (s.lcCommand r (65536 * confirm.toNat + 6) [1, 2, 3] 4 false [(5, s.notDown), (6, confirm.toNat != 0x5E7D)])

end Sys2Proof.Machine
end

