-- ==== Sys2Proof/Machine/Nv.lean ====
section
/-! DEFINITION. NV images (14, R314 to R317), the layering of configuration fields with the BASIC profiles and the range checks (R318,
R319), and expert fields (R320). -/

namespace Sys2Proof.Machine

/-! ## Validity (R317) -/

/-- The bits of a register's NV fields. -/
def nvMask (fs : List RegFld) : W32 :=
  (fs.filter (·.nv)).foldl (fun m f => m ||| BitVec.ofNat 32 ((2 ^ f.w - 1) * 2 ^ f.lo)) 0

/-- The register offset of an entry. -/
def entryOff (e : NvEntry) : Nat := fieldOf e.word0 0 24

/-- An entry names only NV fields, and no value bit lies outside its mask. -/
def entryFits (e : NvEntry) : Bool :=
  fieldOf e.word0 24 8 = 0 && e.value &&& ~~~e.mask = 0 && (match regFields (entryOff e) with
    | some fs => e.mask &&& ~~~(nvMask fs) = 0
    | none => e.mask = 0)

/-- Offsets strictly rising. -/
def risingFrom : Option Nat → List NvEntry → Bool
  | _, [] => true
  | b, e :: t => (match b with | none => true | some n => decide (n < (entryOff e))) && risingFrom (some (entryOff e)) t

/-- MAGIC, FORMAT, the bound on ENTRIES, both CRCs and the order of the entries. -/
def nvFrame (m : NvImage) (magic : Nat) : Bool :=
  m.magic.toNat = magic && m.format.toNat = 1 && decide (m.entries.length ≤ 1398096) && m.bodyCrc = crc32 (nvBody m) &&
    m.hcrc = crc32 (nvHead m) && risingFrom none m.entries

/-- A valid user image. -/
def nvValid (m : NvImage) : Bool := nvFrame m 0x7A310C01 && m.cfgver != 0 && m.entries.all entryFits

/-- A valid factory defaults image. -/
def nvFactory (m : NvImage) : Bool := nvFrame m 0x7A310CF0 && m.cfgver = 0 && m.actseq = 0 && m.entries.all entryFits

/-- The factory defaults image, if valid. -/
def State.factoryImage (s : State) : Option NvImage := s.nv.factory.filter nvFactory

/-! ## The current and the previous image (R314, R319) -/

/-- User image `n`: 0 A, 1 B. -/
def State.userImg (s : State) (n : Nat) : Option NvImage := if n = 0 then s.nv.userA else s.nv.userB

/-- Replaces a user image. -/
def State.setUserImg (s : State) (n : Nat) (v : Option NvImage) : State :=
  if n = 0 then { s with nv := { s.nv with userA := v } } else { s with nv := { s.nv with userB := v } }

/-- The user image with the higher ACTSEQ, valid or not. -/
def State.newestImg (s : State) : Option Nat :=
  match s.nv.userA, s.nv.userB with
  | some a, some b => if a.actseq.toNat < b.actseq.toNat then some 1 else some 0
  | some _, none => some 0
  | none, some _ => some 1
  | none, none => none

/-- A user image is present and valid. -/
def State.imgValid (s : State) (n : Nat) : Bool := ((s.userImg n).filter nvValid).isSome

/-- The image that is current for a start: that of the higher ACTSEQ, else the other one if it is valid. -/
def State.currentImg (s : State) : Option Nat :=
  match s.newestImg with
  | none => none
  | some n => if s.imgValid n then some n else if s.imgValid (1 - n) then some (1 - n) else none

/-- The configuration version that a start comes to. -/
def State.startCfgver (s : State) : W32 :=
  match s.currentImg.bind s.userImg with
  | some m => m.cfgver
  | none => 0

/-! ## Profiles (R318, step 3) -/

/-- A BASIC register with its highest PROFILE, its default, and its block's CFGERR flag. -/
structure BasicReg where
  reg : Fld
  top : Nat
  dflt : Nat
  err : Option Fld
  deriving DecidableEq, Repr

/-- The blocks with a BASIC register. -/
def basicSio : BasicReg := ⟨R.SIO.BASIC.PROFILE, 3, 0, some R.SIO.FLAG.CFGERR⟩
/-- SPD. -/
def basicSpd : BasicReg := ⟨R.SPD.BASIC.PROFILE, 2, 0, some R.SPD.FLAG.CFGERR⟩
/-- NET. -/
def basicNet : BasicReg := ⟨R.NET.BASIC.PROFILE, 3, 1, some R.NET.FLAG.CFGERR⟩
/-- TIME. -/
def basicTime : BasicReg := ⟨R.TIME.BASIC.PROFILE, 2, 1, some R.TIME.FLAG.CFGERR⟩
/-- EVC. -/
def basicEvc : BasicReg := ⟨R.EVC.BASIC.PROFILE, 1, 1, some R.EVC.FLAG.CFGERR⟩
/-- BRG. -/
def basicBrg : BasicReg := ⟨R.BRG.BASIC.PROFILE, 2, 1, some R.BRG.FLAG.CFGERR⟩
/-- CFG. -/
def basicCfg : BasicReg := ⟨R.CFG.BASIC.PROFILE, 2, 1, none⟩
/-- UPD. -/
def basicUpd : BasicReg := ⟨R.UPD.BASIC.PROFILE, 1, 1, none⟩
/-- SUP. -/
def basicSup : BasicReg := ⟨R.SUP.BASIC.PROFILE, 1, 1, none⟩
/-- BIST. -/
def basicBist : BasicReg := ⟨R.BIST.BASIC.PROFILE, 1, 1, none⟩

/-- Every BASIC register. -/
def basicRegs : List BasicReg :=
  [basicSio, basicSpd, basicNet, basicTime, basicEvc, basicBrg, basicCfg, basicUpd, basicSup, basicBist]

/-- The profile in force (R318, step 4). -/
def State.profile (s : State) (b : BasicReg) : Nat := if s.get b.reg ≤ b.top then s.get b.reg else b.dflt

/-- Input `i` pulsed, as SIO profile 1 sets it. -/
def inPulsed (i : Nat) : List (Fld × Nat) := [(R.SIO.ICFG.VCLASS i, 0), (R.SIO.ICFG.MODE i, 2), (R.SIO.ICFG.FILT i, 30)]
/-- Input `i` static, as SIO profile 2 sets it. -/
def inStatic (i : Nat) : List (Fld × Nat) := [(R.SIO.ICFG.VCLASS i, 4), (R.SIO.ICFG.MODE i, 1), (R.SIO.ICFG.FILT i, 50)]
/-- Pair `k` equivalent. -/
def pairEq (k : Nat) : List (Fld × Nat) := [(R.SIO.PCFG.MODE k, 1), (R.SIO.PCFG.DISC k, 100)]

/-- Table 9-12. -/
def sioSets (p : Nat) : List (Fld × Nat) :=
  let pulses := [(R.SIO.OPCFG.OPW, 400), (R.SIO.OPCFG.OPP, 100)]
  match p with
  | 1 => (List.range 16).flatMap inPulsed ++ (List.range 8).flatMap pairEq ++ [(R.SIO.TPCFG.TPW, 300), (R.SIO.TPCFG.TPP, 40)] ++ pulses
  | 2 => (List.range 16).flatMap inStatic ++ ((List.range 8).map fun k => (R.SIO.PCFG.MODE k, 0)) ++ pulses
  | 3 => (List.range 8).flatMap inPulsed ++ ((List.range 8).map (· + 8)).flatMap inStatic ++ (List.range 4).flatMap pairEq
  | _ => []

/-- The SPD profiles. -/
def spdSets (p : Nat) : List (Fld × Nat) :=
  let sensor := if p = 2 then 3 else 1
  if p = 0 then []
  else [(R.SPD.SCFG.S0, sensor), (R.SPD.SCFG.S1, sensor), (R.SPD.AMAX.A, 1500), (R.SPD.STILLT.MS, 500), (R.SPD.PLAUS.PLTIME, 20),
    (R.SPD.PLAUS.PLABS, 300), (R.SPD.PLAUS.PLREL, 10), (R.SPD.SSLIM.MIN, 30)]

/-- The NET profiles. -/
def netSets (p : Nat) : List (Fld × Nat) :=
  if p = 0 then [] else [(R.NET.CFG.PMODE, p - 1), (R.NET.CFG.FORGET, 400), (R.NET.CFG.TCEN, 1)]

/-- The TIME profiles. -/
def timeSets (p : Nat) : List (Fld × Nat) :=
  if p = 0 then []
  else [(R.TIME.CFG.TRANS, 0), (R.TIME.CFG.MASTEN, p - 1), (R.TIME.CFG.DOMAIN, 0), (R.TIME.CFG.SYNCI, 3), (R.TIME.LOCKCFG.THR, 1000),
    (R.TIME.JUMPLIM.NS, 200000)] ++ if p = 2 then [(R.TIME.CFG.PRIO1, 128)] else []

/-- The priorities of sources 16 to 49 in EVC profile 1 (Table 12-2). -/
def evcPrios : List Nat :=
  [10, 10, 13, 9, 13, 9, 8, 6, 8, 12, 12, 12, 13, 7, 11, 7, 8, 7, 9, 9, 5, 5, 5, 5, 4, 4, 4, 4, 11, 6, 12, 3, 3, 3]

/-- The EVC profiles. -/
def evcSets (p : Nat) : List (Fld × Nat) :=
  if p = 0 then []
  else (List.range 34).flatMap fun i =>
    [(R.EVC.SCFG.EN (16 + i), 1), (R.EVC.SCFG.TARGET (16 + i), 8), (R.EVC.SCFG.PRIO (16 + i), evcPrios.getD i 0)]

/-- The BRG profiles. -/
def brgSets (p : Nat) : List (Fld × Nat) :=
  if p = 0 then [] else [(R.BRG.CFG.FREQ, p - 1), (R.BRG.CFG.DISC, 0), (R.BRG.CFG.SLOTEN, 0x7F)]

/-- The CFG profiles. -/
def cfgSets (p : Nat) : List (Fld × Nat) :=
  match p with
  | 1 => [(R.CFG.ADDRCFG.MODE, 0), (R.CFG.ADDRCFG.ESUB, 0), (R.CFG.EXPCFG.TO, 15)]
  | 2 => [(R.CFG.ADDRCFG.MODE, 1), (R.CFG.ADDRCFG.FIXCST, 1), (R.CFG.ADDRCFG.ESUB, 0), (R.CFG.EXPCFG.TO, 15)]
  | _ => []

/-- What the profiles in force set. -/
def State.profileSets (s : State) : List (Fld × Nat) :=
  sioSets (s.profile basicSio) ++ spdSets (s.profile basicSpd) ++ netSets (s.profile basicNet) ++ timeSets (s.profile basicTime) ++
  evcSets (s.profile basicEvc) ++ brgSets (s.profile basicBrg) ++ cfgSets (s.profile basicCfg) ++
  (if s.profile basicUpd = 1 then [(R.UPD.CFG.TRIALN, 3), (R.UPD.CFG.BATSIG, 0)] else []) ++
  (if s.profile basicSup = 1 then [(R.SUP.CFG.WARMEN, 1), (R.SUP.CFG.EXTEN, 0)] else []) ++
  (if s.profile basicBist = 1 then [(R.BIST.AUTO.MASK, 7)] else [])

/-! ## Layering (R318, steps 1 to 3) -/

/-- The registers with NV fields. -/
def nvRegs : List (Nat × List RegFld) :=
  regGroups.flatMap fun g => (List.range g.cnt).flatMap fun i =>
    (g.rows.filter fun r => r.2.any (·.nv)).map fun r => (g.base + g.stride * i + r.1, r.2)

/-- A register word with the entries of an image applied. -/
def applyEntries (m : Option NvImage) (off : Nat) (w : W32) : W32 :=
  match m with
  | none => w
  | some m => m.entries.foldl (fun w e => if (entryOff e) = off then (w &&& ~~~e.mask) ||| (e.value &&& e.mask) else w) w

/-- The NV fields of one register: default, factory defaults, user image. -/
def layerWord (fact user : Option NvImage) (off : Nat) (fs : List RegFld) (old : W32) : W32 :=
  (old &&& ~~~(nvMask fs)) ||| (applyEntries user off (applyEntries fact off (startWord false 0 fs)) &&& nvMask fs)

/-- Every NV field layered. -/
def State.layered (s : State) (fact user : Option NvImage) : State :=
  let s1 := nvRegs.foldl (fun t r => t.setReg r.1 (layerWord fact user r.1 r.2 (t.reg r.1))) s
  s1.profileSets.foldl (fun t p => t.set p.1 p.2) s1

/-! ## Ranges (R318, step 4) -/

/-- Fields with a range: the field, lowest and highest value. -/
def sioRanges : List (Fld × Nat × Nat) :=
  [(R.SIO.TPCFG.TPP, 10, 200), (R.SIO.TPCFG.TPW, 100, 1000), (R.SIO.OPCFG.OPP, 50, 500), (R.SIO.OPCFG.OPW, 200, 800)] ++
  ((List.range 16).flatMap fun i => [(R.SIO.ICFG.MODE i, 0, 2), (R.SIO.ICFG.VCLASS i, 0, 4)]) ++
  (List.range 8).flatMap fun k => [(R.SIO.PCFG.DISC k, 10, 10000), (R.SIO.PCFG.MODE k, 0, 2)]

/-- SPD. -/
def spdRanges : List (Fld × Nat × Nat) :=
  [(R.SPD.WHEEL.DMAX 0, 300, 1500), (R.SPD.WHEEL.DMAX 1, 300, 1500), (R.SPD.WHEEL.DMIN 0, 300, 1500), (R.SPD.WHEEL.DMIN 1, 300, 1500),
   (R.SPD.TEETH.N0, 1, 1023), (R.SPD.TEETH.N1, 1, 1023), (R.SPD.AMAX.A, 100, 10000), (R.SPD.STILLT.MS, 100, 10000),
   (R.SPD.PLAUS.PLTIME, 1, 100), (R.SPD.PLAUS.PLREL, 0, 50), (R.SPD.SSLIM.MIN, 1, 240)]

/-- NET. -/
def netRanges : List (Fld × Nat × Nat) := [(R.NET.CFG.FORGET, 100, 2000), (R.NET.CFG.PMODE, 0, 2)]

/-- TIME. -/
def timeRanges : List (Fld × Nat × Nat) :=
  [(R.TIME.CFG.DOMAIN, 0, 127), (R.TIME.CFG.SYNCI, 0, 4), (R.TIME.JUMPLIM.NS, 1000, 10000000), (R.TIME.LOCKCFG.THR, 50, 10000),
   (R.TIME.LATECFG.TOL, 1, 1000)]

/-- EVC: a TARGET from 10 to 15 is reserved. -/
def evcRanges : List (Fld × Nat × Nat) := (List.range 240).map fun i => (R.EVC.SCFG.TARGET (16 + i), 0, 9)

/-- A field of a list lies outside its range. -/
def State.outOfRange (s : State) (l : List (Fld × Nat × Nat)) : Bool := l.any fun r => decide (s.get r.1 < r.2.1) || decide (r.2.2 < s.get r.1)

/-- An input is configured as pulsed with a class other than 0 (R215). -/
def State.pulsedWrong (s : State) : Bool := (List.range 16).any fun i => s.get (R.SIO.ICFG.MODE i) = 2 && s.get (R.SIO.ICFG.VCLASS i) != 0

/-- A pair of fields of the speed function is inconsistent. -/
def State.spdPairsWrong (s : State) : Bool :=
  ((List.range 2).any fun i => decide (s.get (R.SPD.WHEEL.DMAX i) < s.get (R.SPD.WHEEL.DMIN i))) ||
    (List.range 8).any fun k => decide (s.get (R.SPD.THR.LIMIT k) < s.get (R.SPD.THR.HYST k))

/-- The CFGERR flags. -/
def State.checkRanges (s : State) : State :=
  let s1 := basicRegs.foldl (fun t b => match b.err with
    | some f => if b.top < s.get b.reg then t.flag f else t
    | none => t) s
  let s2 := if s.outOfRange sioRanges || s.pulsedWrong then s1.flag R.SIO.FLAG.CFGERR else s1
  let s3 := if s.outOfRange spdRanges || s.spdPairsWrong then s2.flag R.SPD.FLAG.CFGERR else s2
  let s4 := if s.outOfRange netRanges then s3.flag R.NET.FLAG.CFGERR else s3
  let s5 := if s.outOfRange timeRanges then s4.flag R.TIME.FLAG.CFGERR else s4
  if s.outOfRange evcRanges then s5.flag R.EVC.FLAG.CFGERR else s5

/-! ## Expert fields (R320) -/

/-- The expert fields of the layering: fields marked (E). -/
def expertFlds : List Fld :=
  [R.SIO.TPCFG.TPP, R.SIO.TPCFG.TPW, R.SIO.OPCFG.OPP, R.SIO.OPCFG.OPW] ++ ((List.range 16).map fun i => R.SIO.ICFG.FILT i) ++
  [R.SPD.AMAX.A, R.SPD.STILLT.MS, R.SPD.PLAUS.PLTIME, R.SPD.PLAUS.PLABS, R.SPD.PLAUS.PLREL, R.SPD.SSLIM.MIN, R.NET.CFG.FORGET,
   R.NET.CFG.TCEN, R.NET.CFG.PMODE, R.TIME.CFG.PRIO1, R.TIME.CFG.DOMAIN, R.TIME.CFG.SYNCI, R.TIME.JUMPLIM.NS, R.TIME.LOCKCFG.THR,
   R.TIME.LATECFG.TOL, R.BRG.CFG.IBASE, R.BRG.CFG.DISC, R.CFG.ADDRCFG.MODE, R.CFG.ADDRCFG.FIXCST, R.CFG.ADDRCFG.FIXVEH,
   R.CFG.ADDRCFG.ESUB, R.UPD.CFG.TRIALN, R.SUP.CFG.EXTEN]

/-- The expert fields in which a version differs from the current one. -/
def State.expertDiff (s : State) (m : NvImage) : List Fld :=
  let t := s.layered s.factoryImage (some m)
  expertFlds.filter fun f => t.get f != s.get f

/-- An entry's mask covers a bit of a field. -/
def coversFld (e : NvEntry) (f : Fld) : Bool := (entryOff e) = f.off && fieldOf e.mask f.lo f.w != 0

/-- The header of an image with CRC. -/
def sealHeader (m : NvImage) : NvImage := { m with hcrc := crc32 (nvHead m) }

end Sys2Proof.Machine
end

