-- ==== Sys2Proof/Machine/Cfg.lean ====
section
/-! DEFINITION. Configuration commands and the expert unlock (14, R320 to R324). -/

namespace Sys2Proof.Machine

/-- A CFG command. -/
def State.cfgCommand (s : State) (r : Req) (code why : Nat) (act : State → State) : State :=
  s.command r R.CFG.CMD.CODE R.CFG.CMDCNT.COUNT R.CFG.REASON.CODE code why act

/-- The image in the staging store. -/
def State.stagedOk (s : State) : Bool := match s.nv.staged with
  | some m => nvFrame m 0x7A310C01
  | none => false

/-- The index of the first entry of a list for which `p` holds. -/
def firstIndex (l : List NvEntry) (p : NvEntry → Bool) : Option Nat := (List.range l.length).find? fun i => match (l.drop i).head? with
  | some e => p e
  | none => false

/-- The staged image changes an expert field while locked. -/
def State.expertLocked (s : State) : Bool := s.get R.CFG.EXPERT.UNLK = 0 && (match s.nv.staged with
  | some m => s.expertDiff m != []
  | none => false)

/-- The outcome of STAGE. -/
def State.stageWhy (s : State) : Nat :=
  firstReason [(2, !s.stagedOk),
    (3, match s.nv.staged with
     | some m => m.cfgver = 0 || m.cfgver = s.reg R.CFG.CURVER.CFGVER.off
     | none => false),
    (4, match s.nv.staged with
     | some m => !m.entries.all entryFits
     | none => false),
    (5, s.expertLocked)]

/-- STGERR for REASON 4 and 5. Where no entry of the image names the field that changes, the index is free (assumption 2). -/
def State.showStgerr (s : State) (why : Nat) : State :=
  match s.nv.staged with
  | none => s
  | some m =>
    let idx := if why = 4 then firstIndex m.entries fun e => !entryFits e
      else firstIndex m.entries fun e => (s.expertDiff m).any fun f => coversFld e f
    if why = 4 ∨ why = 5 then
      match idx with
      | some i => s.set R.CFG.STGERR.INDEX i
      | none => let (v, s1) := s.fresh 32; s1.set R.CFG.STGERR.INDEX v.toNat
    else s

/-- CFG_STAGE: the staged version is held. -/
def execCfgStage (r : Req) (s : State) : Host.Outcome State Fault Refusal :=
  let why := s.stageWhy
  let s1 := if s.steward r then s.showStgerr why else s
  s.whilePowered (s1.cfgCommand r 1 why fun t => (t.set R.CFG.STATUS.STGV 1).set R.CFG.STGVER.CFGVER (match t.nv.staged with
    | some m => m.cfgver.toNat
    | none => 0))

/-- CFG_ACTIVATE: a cold start follows. -/
def execCfgActivate (r : Req) (s : State) : Host.Outcome State Fault Refusal :=
  s.whilePowered (s.cfgCommand r 2 (firstReason [(2, s.get R.CFG.STATUS.STGV = 0), (6, !s.noWork)]) fun t =>
    { (t.set R.CFG.STATUS.PEND 1) with nv := { t.nv with pend := 1 } }.acceptRestart true)

/-- CFG_REVERT: a cold start follows. -/
def execCfgRevert (r : Req) (s : State) : Host.Outcome State Fault Refusal :=
  s.whilePowered (s.cfgCommand r 3 (firstReason [(6, !s.noWork), (7, s.get R.CFG.STATUS.PREVV = 0)]) fun t =>
    { (t.set R.CFG.STATUS.PEND 2) with nv := { t.nv with pend := 2 } }.acceptRestart true)

/-- CFG_DISCARD: the staging store is emptied. With an activation or a revert pending it is refused with REASON 2 (assumption 12). -/
def execCfgDiscard (r : Req) (s : State) : Host.Outcome State Fault Refusal :=
  s.whilePowered (s.cfgCommand r 4 (firstReason [(2, s.get R.CFG.STATUS.STGV = 0 || s.get R.CFG.STATUS.PEND != 0)]) fun t =>
    ({ t with nv := { t.nv with staged := none } }.set R.CFG.STATUS.STGV 0).set R.CFG.STGVER.CFGVER 0)

/-- CFG_LOCK: refused with REASON 8 where the level is locked (assumption 12). -/
def execCfgLock (r : Req) (s : State) : Host.Outcome State Fault Refusal :=
  s.whilePowered (s.cfgCommand r 5 (firstReason [(8, s.get R.CFG.EXPERT.UNLK = 0)]) State.lockExpert)

/-! ## The expert unlock (R321, R322) -/

/-- EXPCHAL_READ: a new challenge for the requester. -/
def execExpchalRead (r : Req) (s : State) : Host.Outcome State Fault Refusal :=
  s.whilePowered (if s.shut r then { s with resp := some 0 }
    else
      let (c, s1) := s.readExpchal r
      if isEng r then s1 else { s1 with resp := some c })

/-- The requester read a challenge that nothing used up. -/
def State.expchalOpen (s : State) (r : Req) : Bool := s.preqGet r (R.CFG.EXPCHAL.CHAL.off + 1) != 0

/-- The key that unlocks for a requester. -/
def State.expKey (s : State) (r : Req) : W32 := s.preqGet r R.CFG.EXPCHAL.CHAL.off ^^^ 0x7E5A1C3B

/-- EXPKEY_WRITE: a right key unlocks; either way the challenge is used up. -/
def execExpkeyWrite (r : Req) (key : W32) (s : State) : Host.Outcome State Fault Refusal :=
  s.whilePowered (
    if !s.steward r then s
    else
      let ok := s.expchalOpen r && key = s.expKey r
      let s1 := s.preqSet r (R.CFG.EXPCHAL.CHAL.off + 1) 0
      if ok then
        let s2 := (s1.set R.CFG.REASON.CODE 0).inc R.CFG.CMDCNT.COUNT
        (s2.set R.CFG.EXPERT.UNLK 1).set R.CFG.EXPERT.TLEFT (inRange (s.get R.CFG.EXPCFG.TO) 1 120 15 * 60)
      else s1.set R.CFG.REASON.CODE 8)

/-- EXPERT_TIMEOUT: TLEFT has reached zero. -/
def execExpertTimeout (s : State) : Host.Outcome State Fault Refusal :=
  s.whilePowered (if s.get R.CFG.EXPERT.TLEFT = 0 then s.lockExpert else s)

end Sys2Proof.Machine
end

