-- ==== Sys2Proof/Machine/Bind.lean ====
section
/-! DEFINITION. The subscriber's entries and their binding to source addresses (10, R246, R255, R258; 14, R329, R330), and the network tables of
a version. -/

namespace Sys2Proof.Machine

/-- The words of a subscribe entry. -/
def State.subE (s : State) (i : Nat) : List W32 := (tblFind s.net.sub i).getD []
/-- What the subscriber keeps of an entry. -/
def State.subS (s : State) (i : Nat) : SubSt := (tblFind s.net.subSt i).getD ⟨[], false, none, [], none⟩
/-- Replaces what the subscriber keeps. -/
def State.setSub (s : State) (i : Nat) (v : SubSt) : State := { s with net := { s.net with subSt := tblPut s.net.subSt i v } }

/-- Bit `n` of word 0 of an entry: 31 EN, 30 SDT, 29 EPO, 28 TRN, 27 TOACT. -/
def entBit (e : List W32) (n : Nat) : Bool := (e.getD 0 0).getLsbD n

/-- ADDRCFG.MODE 0: the TTDB gives the position. -/
def State.byTtdb (s : State) : Bool := s.get R.CFG.ADDRCFG.MODE = 0

/-- A consist or vehicle position of MODE 1, or its default where out of range. -/
def State.fixPos (s : State) : Nat × Nat := (inRange (s.get R.CFG.ADDRCFG.FIXCST) 1 63 1, inRange (s.get R.CFG.ADDRCFG.FIXVEH) 1 255 1)

/-- The address of a source key: from the train directory, or in MODE 1 of a unit of the own consist (R246, R330; assumption 11). -/
def State.resolve (s : State) (key : W32) : Option W32 :=
  if key = 0 then none
  else if s.byTtdb then tblFind s.net.resolved key.toNat
  else if fieldOf key 26 6 = s.fixPos.1 then
    some (Config.localAddr (s.get R.CFG.ADDRCFG.ESUB) (fieldOf key 10 8 * 32 + fieldOf key 5 5))
  else none

/-- Binds every subscribe entry in use to the addresses of its source keys. R247 does not say what becomes of a telegram that has passed its checks and awaits
acceptance when its entry is bound anew: it is still accepted (DESIGN CHOICE, assumption 29). -/
def State.bindAll (s : State) : State :=
  s.net.sub.foldl (fun t p =>
    if entBit p.2 31 then t.setSub p.1 { t.subS p.1 with addrs := [p.2.getD 2 0, p.2.getD 3 0].filterMap t.resolve } else t) s

/-- Unbinds every entry. -/
def State.unbindAll (s : State) : State :=
  { s with net := { s.net with subSt := s.net.subSt.map fun p => (p.1, { p.2 with addrs := [] }), waiting := [] } }

/-- The network tables of a version. What the publisher keeps goes on by index; a subscribe entry that differs begins anew. Entries are bound at the
next tick (R258). -/
def State.loadTables (s : State) (p : Program) : State :=
  let used (t : Tbl (List W32)) : Nat := (t.filter fun e => fieldOf (e.2.getD 0 0) 31 1 = 1).length
  let same (i : Nat) : Bool := tblFind p.subs i = tblFind s.net.sub i
  let s1 := { s with net := { s.net with
    pub := p.pubs, sub := p.subs, binds := p.binds, rebind := true, subSt := s.net.subSt.filter fun q => same q.1
    waiting := s.net.waiting.filter fun w => same w.idx } }
  (s1.set R.NET.TABN.PUBN (used p.pubs)).set R.NET.TABN.SUBN (used p.subs)

end Sys2Proof.Machine
end

