-- ==== Sys2Proof/Machine/Check.lean ====
section
/-! DEFINITION. The steward's checks of a program version (07, R171): R42, R57, R60, R67, R71, R87, R94, R151, R193, R196, and the
refusals with the same effect of R224, R238, R254, R255 and R301. -/

namespace Sys2Proof.Machine

/-! ## Directory entries of a version -/

/-- A version's definition as a directory entry with nothing in word 3. -/
def defEnt (d : SigDef) : DirEnt := ⟨d.w0, d.w1, d.w2, 0, d.init⟩

/-- The TASK.PER word of class `k` in a version. -/
def perWord (p : Program) (k : Nat) : W32 := p.per.getD k 0

/-- EXP of class `k` in a version. -/
def perExp (p : Program) (k : Nat) : Nat := fieldOf (perWord p k) 0 4
/-- PHASE of class `k` in a version. -/
def perPhase (p : Program) (k : Nat) : Nat := fieldOf (perWord p k) 4 10
/-- Whether class `k` is enabled in a version. -/
def perEn (p : Program) (k : Nat) : Bool := fieldOf (perWord p k) 16 1 = 1
/-- Whether class `k` is a safety task class in a version. -/
def perSafe (p : Program) (k : Nat) : Bool := fieldOf (perWord p k) 17 1 = 1
/-- SKIPLIM of class `k` in a version. -/
def perSkip (p : Program) (k : Nat) : Nat := fieldOf (perWord p k) 20 4

/-- R42. -/
def classesOk (p : Program) : Bool :=
  (List.range 8).all fun k => !perEn p k ||
    (decide (perExp p k ≤ 10) && decide (perPhase p k < 2 ^ perExp p k) && decide (1 ≤ perSkip p k) && decide (perSkip p k ≤ 8))

/-- The alignment of a value of `n` bytes (R57). -/
def alignOf (n : Nat) : Nat := if n ≤ 1 then 1 else if n ≤ 2 then 2 else if n ≤ 4 then 4 else 8

/-- Reserved fields and codes of a slot's word 0: KIND at most 7, bits 22 and 18 to 0 zero, WALL only with RET in KIND 1 to 3 (R57, Table 4-4). -/
def slotWordOk (w0 : W32) : Bool :=
  decide (fieldOf w0 28 4 ≤ 7) && fieldOf w0 22 1 = 0 && fieldOf w0 0 19 = 0 &&
    (fieldOf w0 26 1 = 0 || (fieldOf w0 27 1 = 1 && decide (1 ≤ fieldOf w0 28 4) && decide (fieldOf w0 28 4 ≤ 3)))

/-- The places of slots: 32-byte aligned, in the tile SRAM part or in the cold slot area, no two overlapping (R55, R89). -/
def slotPlacesOk (p : Program) : Bool :=
  (p.slots.all fun d => d.addr % 32 = 0 &&
    (if d.hot then decide (0x100000000 + p.tileLo ≤ d.addr) && decide (d.addr + 32 ≤ 0x100000000 + p.tileHi)
     else decide (0x40000000 ≤ d.addr) && decide (d.addr + 32 ≤ 0x60000000))) &&
    decide (p.slots.map (·.addr)).Nodup

/-- Reserved fields of a binding element (Table 10-6). -/
def bindWordsOk (b : W32 × W32) : Bool := fieldOf b.1 25 7 = 0 && fieldOf b.2 17 15 = 0

/-- Reserved fields of a publish entry, and SMI and UDV zero without SDT (Table 10-4). -/
def pubWordsOk (e : List W32) : Bool :=
  let w (i : Nat) := e.getD i 0
  fieldOf (w 0) 24 4 = 0 && fieldOf (w 0) 0 10 = 0 && fieldOf (w 5) 11 21 = 0 && fieldOf (w 7) 0 16 = 0 &&
    (fieldOf (w 0) 30 1 = 1 || (w 6 = 0 && fieldOf (w 7) 16 16 = 0))

/-- Reserved fields of a subscribe entry (Table 10-5). -/
def subWordsOk (e : List W32) : Bool := fieldOf (e.getD 0 0) 24 3 = 0

/-- No reserved field of the image is other than zero and no reserved code stands in it (R57), beside those of directory entries. -/
def reservedOk (p : Program) : Bool :=
  (p.per.all fun w => w &&& 0xFF0CC000 = 0) && (p.slots.all fun d => slotWordOk d.w0) && p.binds.all bindWordsOk &&
    (p.pubs.all fun e => pubWordsOk e.2) && p.subs.all fun e => subWordsOk e.2

/-- Reserved fields zero, reserved codes absent, and fields that R56 fixes for a home or type at zero. -/
def entryOk (e : DirEnt) : Bool :=
  decide (1 ≤ e.type) && decide (e.type ≤ 0xD) && fieldOf e.w0 28 1 = 0 && fieldOf e.w0 15 5 = 0 && decide (e.sclass ≤ 4) &&
    decide (e.home ≤ 5) && (e.isBytes || e.len = 0) && (e.home = 0 || e.owner = 0) &&
    ((e.home != 0 && e.home != 4) || e.href = 0) && (e.home != 1 || decide (e.href < 8192)) && (e.home != 4 || e.place = 0)

/-- The value lies within its area, in tile SRAM outside the part assigned to hot slots and snapshots, and is aligned (R55, R57, R67). -/
def placeOk (p : Program) (e : DirEnt) : Bool :=
  e.w1.toNat % alignOf e.size = 0 &&
    decide (e.w1.toNat + e.size ≤ (if e.home = 4 then 0x4000000 else if e.place = 1 then 0x2000000 else 0x40000000)) &&
    (e.home = 4 || e.place != 1 || decide (e.w1.toNat + e.size ≤ p.tileLo) || decide (p.tileHi ≤ e.w1.toNat))

/-- The area a value lies in: 0 DRAM value area, 1 tile SRAM, 2 exchange area. -/
def areaOf (e : DirEnt) : Nat := if e.home = 4 then 2 else e.place

/-- Values do not overlap. -/
def disjoint : List DirEnt → Bool
  | [] => true
  | a :: t =>
    (t.all fun b => areaOf a != areaOf b || decide (a.w1.toNat + a.size ≤ b.w1.toNat) || decide (b.w1.toNat + b.size ≤ a.w1.toNat)) &&
      disjoint t

/-- R60, R71; and, as R60 does for HOME 5, no safety class on a HOME 4 signal, which the bridge writes (R11; DEDUCED, assumption 33). -/
def homeOk (p : Program) (e : DirEnt) : Bool :=
  ((e.home != 5 && e.home != 4) || e.sclass = 0) && (e.home != 0 || e.sclass = 0 || perSafe p e.owner) && (!e.ret || e.home = 0)

/-- The type of an item of HOME 2 or 3 (Table 9-9), nothing for a number that is no item. -/
def itemType (home href : Nat) : Option Nat :=
  if home = 2 then
    if href < 0x18 ∨ (0x20 ≤ href ∧ href < 0x40) then some 1 else none
  else if href = 0 ∨ href = 1 ∨ href = 6 then some 8
  else if href = 3 then some 2
  else if href = 2 ∨ href = 4 ∨ href = 5 ∨ (0x10 ≤ href ∧ href < 0x18) then some 1
  else none

/-- R238. -/
def itemOk (e : DirEnt) : Bool := (e.home != 2 && e.home != 3) || itemType e.home e.href = some e.type

/-- The definition of a signal in a version. -/
def sigOf (p : Program) (id : Nat) : Option DirEnt := (p.sigs.find? fun d => d.id = id).map defEnt

/-- The bytes of a set of signals. -/
def setBytes (p : Program) (ids : List Nat) : Nat :=
  ids.foldl (fun n id => n + (match sigOf p id with | some e => e.size | none => 0)) 0

/-- The snapshot volume of the classes released in frame `f`: the value bytes of each class's read set, once for the class. The spec does not define
what the volume counts; the qualities are left out (DESIGN CHOICE, assumption 33). -/
def snapBytes (p : Program) (f : Nat) : Nat :=
  (List.range 8).foldl (fun n k =>
    if perEn p k && (f + 2 ^ perExp p k - perPhase p k) % 2 ^ perExp p k = 0 then n + setBytes p (p.reads.getD k []) else n) 0

/-- The bytes of a version's values in tile SRAM (`place` 1) or in the DRAM value area (0). -/
def valueBytes (p : Program) (place : Nat) : Nat :=
  p.sigs.foldl (fun n d => n + if (defEnt d).home != 4 && (defEnt d).place = place then (defEnt d).size else 0) 0

/-- Tile SRAM in use: values, and the part assigned to hot slots and snapshots (Table 3-5). -/
def hotBytes (p : Program) : Nat := valueBytes p 1 + (p.tileHi - p.tileLo)

/-- Bytes in begun KiB. -/
def kibOf (n : Nat) : Nat := (n + 1023) / 1024

/-- The bytes of the retain map (R193): a tag and the padded value of each retained signal, a tag and 32 bytes of each retained slot. -/
def retMapBytes (p : Program) : Nat :=
  p.sigs.foldl (fun n d => n + if (defEnt d).ret then 8 + ((defEnt d).size + 7) / 8 * 8 else 0) 0 +
    40 * (p.slots.filter fun d => fieldOf d.w0 27 1 = 1).length

/-- R67: releases repeat after at most 1,024 frames (R40). -/
def limitsOk (p : Program) (pUs : Nat) : Bool :=
  (p.sigs.all fun d => decide (1 ≤ d.id) && decide (d.id < 2 ^ 25)) && (p.slots.all fun d => decide (d.idx < 1048576)) &&
    decide (p.tileLo ≤ p.tileHi) && decide (p.tileHi ≤ 0x2000000) && decide (hotBytes p ≤ 0x2000000) && decide (valueBytes p 0 ≤ 0x40000000) &&
    ((List.range 8).all fun k => decide ((p.reads.getD k []).length ≤ 1048576) && decide ((p.writes.getD k []).length ≤ 524288)) &&
    ((List.range 1024).all fun f => decide (snapBytes p f * 1000 ≤ 4194304 * pUs)) &&
    decide (p.copyOut * 1000 ≤ 2097152 * pUs)

/-- Places of context records do not overlap. -/
def ctxApart : List TaskDesc → Bool
  | [] => true
  | a :: t => (t.all fun b => decide (a.ctx + 1024 ≤ b.ctx) || decide (b.ctx + 1024 ≤ a.ctx)) && ctxApart t

/-- Each task's context record and call stack in the range of Table 4-3. R84 gives neither the record's size nor its alignment, and R171 no such check: it is
1 KiB, 8-byte aligned, and a version whose records break this or overlap is refused (DESIGN CHOICE, assumption 22). -/
def contextsOk (p : Program) : Bool :=
  (p.tasks.all fun t => t.ctx % 8 = 0 && decide (0x80000000 ≤ t.ctx) && decide (t.ctx + 1024 ≤ 0xA0000000)) && ctxApart p.tasks

/-- R87. -/
def windowsOk (p : Program) : Bool :=
  (p.tasks.all fun t => t.winLo % 16 = 0 && decide (t.winLo ≤ t.winHi) && decide (t.winHi - t.winLo ≤ 16777216) &&
    decide (0x60000000 ≤ t.winLo) && decide (t.winHi ≤ 0x80000000)) &&
  decide (p.tasks.foldl (fun n t => n + (t.winHi - t.winLo)) 0 ≤ 0x20000000)

/-- R94: numbers, code ranges in the code area (Table 4-3) with the entry in them, and every task's entry point a unit. -/
def unitsOk (p : Program) : Bool :=
  decide (p.units.length ≤ 4096) && (p.units.all fun u => decide (u.num < 4096) && decide (u.hi ≤ 0x20000000) && unitHolds u u.entry 4) &&
    p.tasks.all fun t => p.units.any fun u => u.num = t.unit

/-- R224. -/
def outputsOk (p : Program) : Bool :=
  let ids := p.osrc.filter fun id => id != 0
  (ids.all fun id => match sigOf p id with
    | some e => e.type = 1 && e.home = 0 && (e.sclass = 3 || e.sclass = 4) && perSafe p e.owner
    | none => false) &&
  decide ids.Nodup

/-! ## Telegrams -/

/-- The binding elements of an entry whose word 4 is `w4`. -/
def bindsOf (binds : List (W32 × W32)) (w4 : W32) : List (W32 × W32) := (binds.drop (fieldOf w4 12 20)).take (fieldOf w4 0 12)

/-- An element's signal. -/
def bindSig (b : W32 × W32) : Nat := fieldOf b.1 0 25
/-- An element's byte offset. -/
def bindOfs (b : W32 × W32) : Nat := fieldOf b.2 0 16

/-- The byte ranges of a telegram's elements, prefix and trailer. -/
def telRanges (size : Nat → Nat) (epo sdt : Bool) (len : Nat) (bs : List (W32 × W32)) : List (Nat × Nat) :=
  (if epo then [(0, 4)] else []) ++ (if sdt then [(len - 16, len)] else []) ++
    (bs.filter fun b => bindSig b != 0).map fun b => (bindOfs b, bindOfs b + size (bindSig b))

/-- Ranges do not overlap. -/
def rangesApart : List (Nat × Nat) → Bool
  | [] => true
  | a :: t => (t.all fun b => decide (a.2 ≤ b.1) || decide (b.2 ≤ a.1)) && rangesApart t

/-- The size of a signal in a version. -/
def sigSize (p : Program) (id : Nat) : Nat := match sigOf p id with | some e => e.size | none => 0

/-- Fields that publish and subscribe entries share: no overlap, nothing beyond LEN, LEN within its limit (R254). -/
def telOk (p : Program) (w0 w4 : W32) (len : Nat) : Bool :=
  let bs := bindsOf p.binds w4
  let sdt : Bool := fieldOf w0 30 1 = 1
  let rs := telRanges (sigSize p) (fieldOf w0 29 1 = 1) sdt len bs
  rangesApart rs && (rs.all fun r => decide (r.2 ≤ len)) && decide (len ≤ (if sdt then 1000 else 1432)) && (!sdt || decide (16 ≤ len))

/-- Without SDT no bound signal has a safety class (R254). -/
def sdtOk (p : Program) (w0 w4 : W32) : Bool :=
  fieldOf w0 30 1 = 1 || (bindsOf p.binds w4).all fun b => bindSig b = 0 || (match sigOf p (bindSig b) with
    | some s => s.sclass = 0
    | none => true)

/-- A publish entry in use (R254). -/
def pubOk (p : Program) (pUs : Nat) (e : List W32) : Bool :=
  let w (i : Nat) := e.getD i 0
  fieldOf (w 0) 31 1 = 0 ||
    (telOk p (w 0) (w 4) (fieldOf (w 3) 0 16) &&
      sdtOk p (w 0) (w 4) &&
      decide (fieldOf (w 0) 20 4 ≤ 10) && decide (fieldOf (w 0) 10 10 < 2 ^ fieldOf (w 0) 20 4) && decide (fieldOf (w 3) 16 16 < pUs))

/-- A publish entry is due at frame `f` (R249). -/
def pubDue (e : List W32) (f : Nat) : Bool :=
  let n := 2 ^ fieldOf (e.getD 0 0) 20 4
  fieldOf (e.getD 0 0) 31 1 = 1 && (f + n - fieldOf (e.getD 0 0) 10 10 % n) % n = 0

/-- The telegrams due in any frame need at most 0.8 × P at 1 Gb/s (R254). -/
def wireOk (p : Program) (pUs : Nat) : Bool :=
  (List.range 1024).all fun f =>
    decide ((p.pubs.foldl (fun n e => if pubDue e.2 f then n + (fieldOf (e.2.getD 3 0) 0 16 + 116) else n) 0) * 8 ≤ 800 * pUs)

/-- A subscribe entry: its elements name only signals of HOME 1 with its index as HREF (R255), with a safety class only under SDT (R254). -/
def subOk (p : Program) (i : Nat) (e : List W32) : Bool :=
  let w (i : Nat) := e.getD i 0
  fieldOf (w 0) 31 1 = 0 ||
    (telOk p (w 0) (w 4) (fieldOf (w 7) 0 16) && sdtOk p (w 0) (w 4) &&
      (bindsOf p.binds (w 4)).all fun b => bindSig b = 0 || (match sigOf p (bindSig b) with
        | some s => s.home = 1 && s.href = i
        | none => false))

/-- Every HOME 1 signal is named by exactly one element of its entry (R255). -/
def namedOnce (p : Program) : Bool :=
  p.sigs.all fun d => (defEnt d).home != 1 ||
    (match tblFind p.subs (defEnt d).href with
     | some e => fieldOf (e.getD 0 0) 31 1 = 1 && ((bindsOf p.binds (e.getD 4 0)).filter fun b => bindSig b = d.id).length = 1
     | none => false)

/-- Two entries in use with one ComId have no source key in common (R255). -/
def sourcesApart : List (Nat × List W32) → Bool
  | [] => true
  | a :: t =>
    let keys (e : List W32) := [e.getD 2 0, e.getD 3 0].filter fun k => k != 0
    (t.all fun b => fieldOf (a.2.getD 0 0) 31 1 = 0 || fieldOf (b.2.getD 0 0) 31 1 = 0 || a.2.getD 1 0 != b.2.getD 1 0 ||
      !((keys a.2).any fun k => (keys b.2).contains k)) && sourcesApart t

/-- R254 and R255. -/
def telegramsOk (p : Program) (pUs : Nat) : Bool :=
  (p.pubs.all fun e => decide (e.1 < 4096) && pubOk p pUs e.2) && wireOk p pUs &&
    (p.subs.all fun e => decide (e.1 < 8192) && subOk p e.1 e.2) && namedOnce p && sourcesApart p.subs

/-- The schedule's bounds (R44, R46): at most 1,024 frames, 256 segments per engine and frame, one engine per task. -/
def scheduleOk (p : Program) : Bool :=
  decide (1 ≤ p.hyper) && decide (p.hyper ≤ 1024) && decide (p.maxSeg ≤ 256) &&
    (p.segs.all fun g => decide (g.frame < p.hyper) && p.tasks.any fun t => t.id = g.task && t.eng = g.eng)

/-- Analysed figures (R151, R193, R196, R301). -/
def figuresOk (p : Program) (pUs : Nat) : Bool :=
  decide (p.heldStores ≤ 4096) && decide (p.outStores ≤ 64) && decide (retMapBytes p ≤ 8388352) &&
    decide (p.retChange * 1000 ≤ 131072 * pUs)

/-- The version passes the steward's checks at a base period of `pUs` µs. -/
def programOk (p : Program) (pUs : Nat) : Bool :=
  classesOk p && reservedOk p && slotPlacesOk p && contextsOk p && (p.sigs.all fun d => entryOk (defEnt d) && placeOk p (defEnt d) && homeOk p (defEnt d) && itemOk (defEnt d)) &&
    disjoint (p.sigs.map defEnt) && limitsOk p pUs && windowsOk p && unitsOk p && outputsOk p && telegramsOk p pUs &&
    scheduleOk p && figuresOk p pUs

end Sys2Proof.Machine
end

