-- ==== Sys2Proof/Machine/Fetch.lean ====
section
/-! DEFINITION. What a logical engine fetches (05, R107, R108, R138): the words at its program counter, and the instruction that they spell. The
commands that execute instructions carry them decoded; this is the instruction that the code at the program counter names. -/

namespace Sys2Proof.Machine

/-- The word of a version's code at an address (R85, R107). -/
def codeWord (p : Program) (a : Nat) : W32 := BitVec.ofNat 32 (leNat (memBytes p.code a 4))

/-- The instruction at an address of a version's code, as engine `e` decodes it. -/
def instrAt (p : Program) (e : Eng) (a : Nat) : Instr := decodeOsrus e (codeWord p a) (codeWord p (a + 4))

/-- The instruction at the program counter of the leading copy of engine `e`, while it runs a task's segment. -/
def State.fetched (s : State) (e : Eng) : Option Instr :=
  let c := s.ch s.leadCh
  (c.eng[e].run.bind fun t => tblFind c.insts t).bind fun i => (s.bankIn c i.bank).map fun p => instrAt p e c.eng[e].x.pc.toNat

/-- The units that CALL instructions name (R94), in code from address `a` to `hi`, at most `n` instructions. -/
def callsFrom (p : Program) (hi : Nat) : Nat → Nat → List Nat
  | 0, _ => []
  | n + 1, a =>
    if hi ≤ a then []
    else
      let unit := match instrAt p 0 a with
        | .call _ u _ => [u.toNat]
        | _ => []
      unit ++ callsFrom p hi n (a + wordLength (codeWord p a))

end Sys2Proof.Machine
end

