-- ==== Sys2Proof/Machine/Exchange.lean ====
section
/-! DEFINITION. The on-line exchange of a program version (07, R172 to R186). -/

namespace Sys2Proof.Machine

/-! ## Which classes differ (R175) -/

/-- The units reached from a list of units within `n` calls. -/
def unitsReached (p : Program) : Nat → List Nat → List Nat
  | 0, us => us
  | n + 1, us =>
    let more := us.flatMap fun u => match unitOf p u with
      | some d => callsFrom p d.hi (d.hi - d.lo) d.lo
      | none => []
    let new := (more.filter fun u => !us.contains u).eraseDups
    if new = [] then us else unitsReached p n (us ++ new)

/-- The tasks of a class. -/
def tasksOf (p : Program) (k : Nat) : List TaskDesc := p.tasks.filter fun t => t.cls.val = k

/-- The units of a class with their code. -/
def classCode (p : Program) (k : Nat) : List (UnitDesc × List Byte) :=
  let us := unitsReached p p.units.length ((tasksOf p k).map (·.unit)).eraseDups
  us.filterMap fun u => (unitOf p u).map fun d => (d, memBytes p.code d.lo (d.hi - d.lo))

/-- The class that owns a slot definition. -/
def slotCls (d : SlotDef) : Nat := fieldOf d.w0 23 3
/-- The KIND of a slot definition. -/
def slotKind (d : SlotDef) : Nat := fieldOf d.w0 28 4

/-- The slots of a class. -/
def slotsOf (p : Program) (k : Nat) : List SlotDef := p.slots.filter fun d => slotCls d = k

/-- Whether class `k` differs between two versions: code, descriptors, read or write set, slots (R175). Segments that alone differ count too, as
part of the task descriptors' schedule (DESIGN CHOICE, assumption 33). -/
def classDiffers (a b : Program) (k : Nat) : Bool :=
  decide (classCode a k ≠ classCode b k) || decide (tasksOf a k ≠ tasksOf b k) ||
    decide (a.segs.filter (fun g => (tasksOf a k).any fun t => t.id = g.task) ≠ b.segs.filter (fun g => (tasksOf b k).any fun t => t.id = g.task)) ||
    a.reads.getD k [] != b.reads.getD k [] || a.writes.getD k [] != b.writes.getD k [] || decide (slotsOf a k ≠ slotsOf b k)

/-- The classes in the exchange of `b` for `a`. -/
def exchClasses (a b : Program) : List Nat := (List.range 8).filter fun k => classDiffers a b k

/-! ## Compatibility (Table 7-1) -/

/-- Two windows overlap. -/
def winsMeet (a b : TaskDesc) : Bool := decide (a.winLo < b.winHi) && decide (b.winLo < a.winHi)

/-- The bytes that entering or keeping signal `d` changes: a directory entry and the value of a new signal, the entry of a kept one whose
attributes change, with its value where PLACE or VALOFS does. -/
def sigChange (a : Program) (d : SigDef) : Nat :=
  match sigOf a d.id with
  | none => 16 + (defEnt d).size
  | some e =>
    if e.w0 = d.w0 ∧ e.w1 = d.w1 ∧ e.w2 = d.w2 then 0
    else 16 + if e.w1 = d.w1 ∧ e.place = (defEnt d).place then 0 else e.size

/-- The volume of the exchange's signal and slot changes (R173, R178 to R182): signals new, kept with a change, and deleted, and slots that
differ. The spec does not say in what bytes the changes count (DESIGN CHOICE, assumption 33). -/
def changeBytes (a b : Program) : Nat :=
  b.sigs.foldl (fun n d => n + sigChange a d) 0 + 16 * (a.sigs.filter fun d => (sigOf b d.id).isNone).length +
    32 * ((b.slots.filter fun d => !a.slots.contains d).length + (a.slots.filter fun d => !b.slots.any fun x => x.idx = d.idx).length)

/-- Conditions 3 to 9 of Table 7-1 that version `b` breaks against the running version `a`. For condition 7 every window of a class in the exchange is held
against every present window of any other class, whichever of them switches first: before its own switch each still has its old windows (DESIGN
CHOICE, assumption 23: the table does not name the pairs). -/
def compatSteps (a b : Program) (pUs : Nat) : List (Nat × Bool) :=
  let xs := exchClasses a b
  [(3, (List.range 8).any fun k => perWord a k != perWord b k),
   (4, a.schedId != b.schedId),
   (5, b.sigs.any fun d => match sigOf a d.id with
     | some e => withField (withField e.w0 20 1 0) 21 1 0 != withField (withField d.w0 20 1 0) 21 1 0 || e.href != (defEnt d).href
     | none => false),
   (6, b.slots.any fun d => a.slots.any fun x =>
     x.inst = d.inst && slotCls x = slotCls d && slotKind x = slotKind d && x.idx != d.idx),
   (7, xs.any fun k => (tasksOf b k).any fun t => a.tasks.any fun u => u.cls.val != k && winsMeet t u),
   (8, decide (2097152 * pUs < (changeBytes a b + max a.copyOut b.copyOut) * 1000)),
   (9, !programOk b pUs || a.osrc != b.osrc)]

/-- The version in staging for an exchange: a READY package of KIND 2 (R343). -/
def State.stagedProgram (s : State) : Option Program :=
  if s.updState = 3 ∧ s.stgKind = 2 then s.slotProgram s.idleSlot else none

/-! ## Commands (R174) -/

/-- TASK.XSTAT.STATE. -/
def State.xstate (s : State) : Nat := s.get R.TASK.XSTAT.STATE

/-- An exchange command. -/
def State.xCommand (s : State) (r : Req) (code why : Nat) (act : State → State) : State :=
  s.command r R.TASK.XCMD.CODE R.TASK.XCMDCNT.COUNT R.TASK.XREASON.CODE code why act

/-- EXCHANGE_STAGE. -/
def execExchangeStage (r : Req) (s : State) : Host.Outcome State Fault Refusal :=
  let x := s.xstate
  s.whilePowered (s.xCommand r 1 (firstReason [(2, s.mstate != .run), (3, x != 0 && x != 3 && x != 7),
      (4, s.updState != 3 || s.stgKind != 2), (8, s.lcs != 1 && s.lcs != 2 && s.lcs != 3)]) fun t =>
    let mib := match t.stagedProgram with
      | some p => p.sizeMiB
      | none => 0
    ((((t.set R.TASK.XSTAT.STATE 1).set R.TASK.XSTAT.FCODE 0).set R.TASK.XFILL.TOTAL mib).set R.TASK.XFILL.DONE 0).set R.TASK.XPVER.PVER 0)

/-- Replaces the version in the shadow bank. -/
def State.setShadow (s : State) (p : Option Program) : State := if s.act then { s with bank0 := p } else { s with bank1 := p }

/-- Replaces the version in the active bank. -/
def State.setActive (s : State) (p : Option Program) : State := if s.act then { s with bank1 := p } else { s with bank0 := p }

/-- The numbers that the descriptors, the schedule, the sets, the tables and the parameters of a version consist of. -/
def versionNums (p : Program) : List Nat :=
  [p.pver.toNat, p.schedId.toNat, p.hyper, p.maxSeg] ++ p.per.map BitVec.toNat ++
  (p.units.flatMap fun u => [u.num, u.entry, u.lo, u.hi, b2n u.safe, u.scratch]) ++
  (p.tasks.flatMap fun t => [t.id, t.cls.val, t.eng.val, t.unit, t.sb.toNat, t.ib.toNat, b2n t.net, t.winLo, t.winHi, t.ctx]) ++
  (p.segs.flatMap fun g => [g.frame, g.start, g.eng.val, g.task, g.seg, b2n g.last, g.budget]) ++
  p.reads.flatMap (fun l => l.length :: l) ++ p.writes.flatMap (fun l => l.length :: l) ++
  (p.slots.flatMap fun d => [d.task, d.inputKey.toNat, b2n d.hot, d.addr])

/-- The items that a loader folds for a version (R170): of each signal words 0 to 2 of its entry and its initial value with INIT, of each slot word 0 and
INSTID, each number of the rest, each byte of code with its address. The spec gives the tag only (DESIGN CHOICE, assumption 33). -/
def versionItems (w : Word) (p : Program) : List (BitVec 128) :=
  let rx := xorBytes w
  (p.sigs.flatMap fun d => [itemInput 0x20 d.id (rx (leBytes 4 d.w0.toNat ++ leBytes 4 d.w1.toNat)), itemInput 0x20 d.id (rx (leBytes 4 d.w2.toNat)),
    itemInput 0x20 d.id (rx d.init)]) ++
  (p.slots.map fun d => itemInput 0 d.idx (rx (leBytes 4 d.w0.toNat ++ leBytes 4 d.inst.toNat))) ++
  ((versionNums p).zipIdx.map fun n => itemInput 0 n.2 (rx (leBytes 8 n.1))) ++
  p.code.map fun b => itemInput 0 b.1 [(codeAs w b).2]

/-- Every loader writes what it received of the version for bank `b` into its channel's memory and folds it into the channel's input signature (R170). -/
def State.foldVersion (s : State) (b : Bool) (p : Program) : State :=
  s.eachCh s.follows fun ch c =>
    ((versionItems (s.wrongBits ch) p).foldl (fun c i => c.foldInput s.gong.frame i) c).setRx b (s.wrongBits ch)

/-- EXCHANGE_FILL_DONE: the shadow bank is complete and Table 7-1 is checked. The package checks of R337 passed when the package became READY
(R343); a section that holds no version breaks the first condition. Of several conditions that are broken FCODE shows the lowest code (DESIGN CHOICE,
assumption 23: R173 says "the code shown" of one failed condition). -/
def execExchangeFillDone (s : State) : Host.Outcome State Fault Refusal :=
  s.whilePowered (
    if s.xstate ≠ 1 then s
    else
      match s.prog, s.stagedProgram with
      | some a, some b =>
        let s1 := ((s.setShadow (some b)).foldVersion (!s.act) b).set R.TASK.XFILL.DONE b.sizeMiB
        let s2 := s1.set R.TASK.XPVER.PVER b.pver.toNat
        let c := firstReason (compatSteps a b s.pUs)
        (s2.set R.TASK.XSTAT.STATE (if c = 0 then 2 else 3)).set R.TASK.XSTAT.FCODE (if c = 0 then 1 else c)
      | _, _ => (s.set R.TASK.XSTAT.STATE 3).set R.TASK.XSTAT.FCODE 2)

/-- Conditions of R175 that do not hold. -/
def State.armSteps (s : State) : List (Nat × Bool) :=
  let xs := match s.prog, s.shadow with
    | some a, some b => exchClasses a b
    | _, _ => []
  [(5, (xs.any fun k => s.get (R.TASK.PER.SAFE k) = 1) && s.get R.SPD.STATUS.STILL = 0 && s.lcs != 3),
   (6, s.get R.TASK.EXCH.FORCEOK = 0 && s.forces.any fun f => match s.dirEnt f.id with
     | some e => e.sclass = 4
     | none => false),
   (7, match s.pair.hb with
     | some h => s.pair.hbLive && h.role = .standby && (h.flags.toNat / 8 % 2 = 0 || h.xpver.toNat != s.get R.TASK.XPVER.PVER)
     | none => false)]

/-- EXCHANGE_ARM: checked now, and again at the next tick. -/
def execExchangeArm (r : Req) (s : State) : Host.Outcome State Fault Refusal :=
  s.whilePowered (s.xCommand r 2 (firstReason ([(2, s.mstate != .run), (3, s.xstate != 2)] ++ s.armSteps ++ [(8, !s.leads)])) fun t =>
    { t with xch := { t.xch with arm := true } })

/-- EXCHANGE_CANCEL: the shadow bank is discarded. -/
def execExchangeCancel (r : Req) (s : State) : Host.Outcome State Fault Refusal :=
  let x := s.xstate
  s.whilePowered (s.xCommand r 3 (firstReason [(3, x != 1 && x != 2 && x != 3)]) fun t =>
    let t1 := { (t.setShadow none) with xch := { t.xch with arm := false } }
    (((t1.set R.TASK.XSTAT.STATE 0).set R.TASK.XSTAT.FCODE 0).set R.TASK.XPVER.PVER 0).set R.TASK.EXCH.FORCEOK 0)

/-! ## The arm tick (R175) -/

/-- The first release frame of a class with EXP and PHASE that is not before `f` (R40). -/
def releaseFrom (exp phase f : Nat) : Nat :=
  let n := 2 ^ exp
  f + (phase + n - f % n) % n

/-- The check at the arm tick A, which is the present frame. -/
def State.armTick (s : State) : State :=
  if !s.xch.arm then s
  else
    let s0 := { s with xch := { s.xch with arm := false } }
    if s.xstate ≠ 2 then s0
    else
      let why := firstReason s.armSteps
      if why ≠ 0 then s0.set R.TASK.XREASON.CODE why
      else match s.prog, s.shadow with
        | some a, some b =>
          let xs := exchClasses a b
          let f := s.gong.frame
          let swf : Vector Nat 8 := Vector.ofFn fun k =>
            if xs.contains k.val then releaseFrom (perExp a k.val) (perPhase a k.val) (f + 1) else 0
          let s1 := (((s0.set R.TASK.XSTAT.STATE 4).set R.TASK.XSTAT.XMASK (maskOf xs)).set R.TASK.XSTAT.SWMASK 0).inc R.TASK.XSEQ.SEQ
          let rep := { ExchRep.none with forceOk := s.get R.TASK.EXCH.FORCEOK = 1, lcs := s.lcs, still := s.get R.SPD.STATUS.STILL = 1 }
          let x : XchSt := { XchSt.reset with swf := swf, rep := rep, reports := s.xch.reports }
          { s1 with xch := x }.setPair R.TASK.XARMF_LO.FRAME R.TASK.XARMF_HI.FRAME f
        | _, _ => s0

/-! ## Signals (R178) -/

/-- A signal as a version defines it, new: initial value, INIT, STAMP of `f`. -/
def sigEnter (d : SigDef) (f : Nat) : DirEnt := ⟨d.w0, d.w1, d.w2, word3 f 0x20, bytesAt d.init 0 (defEnt d).size⟩

/-- A kept signal: RET, PLACE, FRESH, FUNIT and VALOFS of the new version. -/
def sigKeep (e : DirEnt) (d : SigDef) : DirEnt := { e with w0 := d.w0, w1 := d.w1, w2 := d.w2 }

/-- The directory with the signals of a version entered. -/
def enterDir (dir : Tbl DirEnt) (p : Program) (f : Nat) : Tbl DirEnt :=
  p.sigs.foldl (fun t d => match tblFind t d.id with
    | some e => tblPut t d.id (if e.type = 0 then sigEnter d f else sigKeep e d)
    | none => tblPut t d.id (sigEnter d f)) dir

/-- Values of HOME 4 whose place in the exchange area changes are moved. -/
def State.moveHome4 (s : State) (p : Program) : State :=
  p.sigs.foldl (fun t d => match s.dirEnt d.id with
    | some e =>
      if e.type != 0 && e.home = 4 && e.w1 != d.w1 then
        { t with smem := memPutBytes t.smem (0x180000000 + d.w1.toNat) (s.valueOf e) }
      else t
    | none => t) s

/-- The initial values of HOME 4 signals, which live in the exchange area (R144, R178). -/
def State.initHome4 (s : State) (ds : List SigDef) : State :=
  ds.foldl (fun t d =>
    if (defEnt d).home = 4 then { t with smem := memPutBytes t.smem (0x180000000 + d.w1.toNat) (bytesAt d.init 0 (defEnt d).size) } else t) s

/-- Replaces the report under way. -/
def State.setRep (s : State) (r : ExchRep) : State := { s with xch := { s.xch with rep := r } }

/-- Signals new in the version are entered, kept ones take its attributes (COMMIT of frame S_min − 1). -/
def State.enterSignals (s : State) (p : Program) : State :=
  let new := p.sigs.filter fun d => match s.dirEnt d.id with
    | some e => e.type = 0
    | none => true
  let s1 := ((s.moveHome4 p).initHome4 new).mapCh s.follows fun c => { c with dir := enterDir c.dir (versionAs (c.rx !s.act) p) s.gong.frame }
  s1.setRep { s1.xch.rep with newSig := new.length }

/-- An entry of the report's list, at most 4,096 kept. -/
def State.listed (s : State) (kind id : Nat) (inst : W32) : State :=
  s.setRep { s.xch.rep with list := s.xch.rep.list ++ [(kind, id, inst)] }

/-- SIG.NSIG, HOTUSE and COLDUSE of a version (Table 3-12). -/
def State.showUse (s : State) (p : Program) : State :=
  ((s.set R.SIG.NSIG.COUNT p.sigs.length).set R.SIG.HOTUSE.KIB (kibOf (hotBytes p))).set R.SIG.COLDUSE.KIB (kibOf (valueBytes p 0))

/-- Signals absent from the version take TYPE 0 and their forces go (COMMIT of frame S_max; R183). -/
def State.deleteSignals (s : State) (p : Program) : State :=
  let gone := (s.ch s.leadCh).dir.filterMap fun e => if e.2.type != 0 && (sigOf p e.1).isNone then some e.1 else none
  let forced := (s.forces.map (·.id)).filter fun id => gone.contains id
  let s1 := s.mapCh s.follows fun c => { c with dir := gone.foldl (fun t id => tblMod t id fun e => { e with w0 := withField e.w0 0 5 0 }) c.dir }
  let s2 := s1.dropForces gone
  let s3 := forced.foldl (fun t id => t.listed 1 id 0) s2
  s3.setRep { s3.xch.rep with delSig := gone.length, fdrop := forced.length, fkept := s3.forces.length }

/-! ## Slots (R179 to R182) -/

/-- Word 0 of a cold slot: KIND, RET, WALL and OWNER of the version. -/
def coldWord0 (w0 : W32) : W32 := w0 &&& 0xFF800000

/-- A cold slot (R182). -/
def slotCold (d : SlotDef) : Slot := ⟨coldWord0 d.w0, d.inst, 0, 0, 0, false⟩

/-- The old slot that a new definition matches (R179). -/
def slotMatch (c : Chan) (d : SlotDef) : Option Slot :=
  match tblFind c.slots d.idx with
  | some s => if s.kind != 0 && s.inst = d.inst && s.owner = slotCls d && s.kind = slotKind d then some s else none
  | none => none

/-- The input keys of a matched slot differ (R181). -/
def keyChanged (a : Program) (d : SlotDef) : Bool :=
  decide (4 ≤ slotKind d) && a.slots.any fun x => x.idx = d.idx && x.inputKey != d.inputKey

/-- A matched slot: RET and WALL of the new version; marked for adoption where its key changed. -/
def slotKept (a : Program) (s : Slot) (d : SlotDef) : Slot :=
  { s with w0 := withField s.w0 26 2 (fieldOf d.w0 26 2), adopt := s.adopt || keyChanged a d }

/-- The slots of class `k` in one channel after its switch. -/
def switchSlots (a b : Program) (c : Chan) (k : Nat) : Tbl Slot :=
  let kept := c.slots.map fun p =>
    if p.2.owner = k && p.2.kind != 0 && !(slotsOf b k).any fun d => d.idx = p.1 then (p.1, { p.2 with w0 := withField p.2.w0 28 4 0 }) else p
  (slotsOf b k).foldl (fun t d => tblPut t d.idx (match slotMatch c d with
    | some s => slotKept a s d
    | none => slotCold d)) kept

/-- The report's counts for the switch of class `k`, from the leading channel. An INSTID whose KIND changed is listed twice, as a removed slot (kind 2) and
as a changed KIND (kind 3), as Table 7-3 counts it twice (DESIGN CHOICE, assumption 23: the table does not say how it is listed). -/
def State.countSwitch (s : State) (a b : Program) (k : Nat) : State :=
  let c := s.ch s.leadCh
  let olds := c.slots.filter fun p => p.2.owner = k && p.2.kind != 0
  let m := (slotsOf b k).filter fun d => (slotMatch c d).isSome
  let removed := olds.filter fun p => !m.any fun d => d.idx = p.1
  let kinds := removed.filter fun p => (slotsOf b k).any fun d => d.inst = p.2.inst && slotKind d != p.2.kind
  let x := s.xch.rep
  let s1 := s.setRep { x with
    matched := x.matched + m.length, newInst := x.newInst + ((slotsOf b k).length - m.length)
    removed := x.removed + removed.length, kindChg := x.kindChg + kinds.length
    adopted := x.adopted + (m.filter fun d => keyChanged a d).length }
  let s2 := removed.foldl (fun t p => t.listed 2 p.1 p.2.inst) s1
  kinds.foldl (fun t p => t.listed 3 p.1 p.2.inst) s2

/-- Class `k` switches to the new version (R177): slots, bank, ST.FIRST of its tasks, and the XSW latch of their engines (Table 12-1). -/
def State.switchClass (s : State) (a b : Program) (k : Nat) : State :=
  let s0 := ((tasksOf a k ++ tasksOf b k).map (·.eng.val)).eraseDups.foldl (fun t e => t.evSetPrivate e 10) s
  let s1 := (s0.countSwitch a b k).mapCh s.follows fun c =>
    { c with slots := switchSlots (versionAs (c.rx s.act) a) (versionAs (c.rx !s.act) b) c k }
  let ids := ((tasksOf a k) ++ (tasksOf b k)).map (·.id)
  let s2 := { s1 with seqr := { s1.seqr with done := s1.seqr.done.filter fun t => !ids.contains t } }
  (s2.orBits R.TASK.XSTAT.SWMASK (2 ^ k)).set R.TASK.XSTAT.STATE 5

/-! ## Within COMMIT (R177, R178) -/

/-- TASK.XPVER shows the version in the shadow bank, 0 while it is empty (Table 7-8). -/
def State.showShadow (s : State) : State :=
  s.set R.TASK.XPVER.PVER (match s.shadow with
    | some p => p.pver.toNat
    | none => 0)

/-- From S_max on the new version is the one that an attestation report describes (R348). -/
def State.showProgram (s : State) : State :=
  { s with boot := { s.boot with prgDig := (s.img s.idleSlot).map fun i => sectsDigest i.man [6] } }

/-- S_max, 0 for no class. -/
def State.sMax (s : State) : Nat := s.xch.swf.toList.foldl max 0

/-- S_min, 0 for no class. -/
def State.sMin (s : State) : Nat := minOf (s.xch.swf.toList.filter fun f => f != 0)

/-- The exchange within COMMIT, after the writes: `next` is the frame of the next tick. -/
def State.exchCommit (s : State) (next : Nat) : State :=
  match s.prog, s.shadow with
  | some a, some b =>
    if s.xstate = 4 ∨ s.xstate = 5 then
      let sw := s.get R.TASK.XSTAT.SWMASK
      let s1 := if sw = 0 ∧ s.sMin ≤ next then s.enterSignals b else s
      let s2 := (List.range 8).foldl (fun t k =>
        let f := s.xch.swf.toList.getD k 0
        if f != 0 && sw / 2 ^ k % 2 = 0 && decide (f ≤ next) then t.switchClass a b k else t) s1
      if s2.sMax ≤ s.gong.frame ∧ s2.get R.TASK.XSTAT.SWMASK = s2.get R.TASK.XSTAT.XMASK then
        let s3 := ((s2.deleteSignals b).loadTables b).showUse b
        let s4 := { (s3.set R.TASK.XSTAT.STATE 6) with act := !s3.act }.showProgram
        (s4.set R.TASK.PVER.fld b.pver.toNat).showShadow
      else s2
    else s
  | _, _ => s

/-! ## Persisting and the report (R185, R186) -/

/-- An exchange report (Table 7-3). -/
def State.reportBytes (s : State) (outcome : Nat) : List Byte :=
  let x := s.xch.rep
  let old := match s.shadow with
    | some p => p.pver.toNat
    | none => 0
  let lst := x.list.take 4096
  leBytes 4 (s.get R.TASK.XSEQ.SEQ) ++ leBytes 1 outcome ++ leBytes 1 (s.get R.TASK.XSTAT.XMASK) ++ leBytes 2 0 ++ leBytes 4 old ++
  leBytes 4 (s.get R.TASK.PVER.fld) ++ leBytes 8 (s.getPair R.TASK.XARMF_LO.FRAME R.TASK.XARMF_HI.FRAME) ++
  (s.xch.swf.toList.flatMap fun f => leBytes 4 f) ++ leBytes 4 s.sMax ++ leBytes 1 (b2n x.forceOk) ++ leBytes 1 x.lcs ++
  leBytes 1 (b2n x.still) ++ leBytes 1 0 ++ leBytes 4 x.matched ++ leBytes 4 x.newInst ++ leBytes 4 x.removed ++ leBytes 4 x.kindChg ++
  leBytes 4 x.adopted ++ leBytes 4 x.newSig ++ leBytes 4 x.delSig ++ leBytes 4 x.fkept ++ leBytes 4 x.fdrop ++
  leBytes 4 (lst.length + if 4096 < x.list.length then 2 ^ 31 else 0) ++ leBytes 24 0 ++
  lst.flatMap fun e => leBytes 4 (2 ^ 28 * e.1 + e.2.1 % 2 ^ 25) ++ leBytes 4 e.2.2.toNat

/-- Writes the report, with its Fumarole record and three continuations. -/
def State.writeReport (s : State) (outcome : Nat) : State :=
  let b := s.reportBytes outcome
  let s1 := { s with xch := { s.xch with reports := (b :: s.xch.reports).take 16 } }
  let s2 := s1.fumarole 0x0B 0x02 0 (bytesAt b 0 12)
  ((s2.fumCont 0x02 1 (bytesAt b 12 24)).fumCont 0x02 2 (bytesAt b 36 24)).fumCont 0x02 3 (bytesAt b 60 4)

/-- EXCHANGE_PERSIST: in RUN, which safe state ends (R176), the slot record is rewritten, or the step fails; DONE follows. -/
def execExchangePersist (written : Bool) (s : State) : Host.Outcome State Fault Refusal :=
  s.whilePowered (
    if s.xstate ≠ 6 ∨ s.mstate ≠ .run then s
    else
      let s1 := if written then s.makeActive s.idleSlot false else s
      let s2 := (s1.set R.TASK.XSTAT.STATE 7).set R.TASK.EXCH.FORCEOK 0
      ((s2.writeReport (b2n !written)).emptyStaging).set R.UPD.STATE.fld 0)

end Sys2Proof.Machine
end

