-- ==== Sys2Proof/Machine/Digest.lean ====
section
/-! DEFINITION. The state digest and the copy digest (R154, R155): covered words by address, contributions, scrub slices. -/

namespace Sys2Proof.Machine

/-- Covered words by address. -/
abbrev Words := Tbl Word

/-- Covers bytes from address `a` on: each falls into its 8-byte-aligned word. -/
def cover (t : Words) (a : Nat) : List Byte → Words
  | [] => t
  | b :: bs =>
    let k := a / 8 * 8
    let old := (tblFind t k).getD 0
    cover (tblPut t k (old ||| BitVec.ofNat 64 (b.toNat * 256 ^ (a % 8)))) (a + 1) bs

/-- The physical address of a signal's value (R55, Table 3-1). -/
def valAddr (e : DirEnt) : Nat := (if e.place = 1 then 0x100000000 else 0xA0000000) + e.w1.toNat

/-- The retained signals of a directory: values, and word 3 with word 2 below it. -/
def coverSigs (t : Words) (dir : Tbl DirEnt) : Words :=
  dir.foldl (fun t p =>
    if p.2.type != 0 && p.2.ret then
      let t1 := cover t (valAddr p.2) p.2.val
      cover t1 (0xE0000000 + 16 * p.1 + 8) (leBytes 4 p.2.w2.toNat ++ leBytes 4 p.2.w3.toNat)
    else t) t

/-- Every instance slot, at the place its version gives it (R89). -/
def coverSlots (place : Nat → Nat) (t : Words) (slots : Tbl Slot) : Words :=
  slots.foldl (fun t p => cover t (place p.1) (slotBytes p.2)) t

/-- The two words of force table entry `i` at SIG.FTAB(i) words 0 and 2; an unused entry reads as zero (Table 3-8). -/
def forceWords (fs : List ForceEnt) (i : Nat) : Word × Word :=
  match fs[i]? with
  | some f => (BitVec.ofNat 64 (2 ^ 31 + f.id + 2 ^ 32 * f.frame.toNat), f.val)
  | none => (0, 0)

/-- The force table's 1,024 entries (R72), which lie above everything else that D_copy covers. -/
def coverForces (t : Words) (fs : List ForceEnt) : Words :=
  t ++ (List.range 1024).flatMap fun i => [(0x300031000 + 16 * i, (forceWords fs i).1), (0x300031008 + 16 * i, (forceWords fs i).2)]

/-- The words of a context record and its call stack (R84): one 8-byte word for each register, with the number of the running unit, and
four for each entry of the call stack. The spec gives the contents only (DESIGN CHOICE, assumption 9). -/
def ctxWords (x : Ctx) : List Word :=
  x.g.toList ++ x.c.toList.map (fun b => if b then 1 else 0) ++
  [x.sb.zeroExtend 64, x.ib.zeroExtend 64, x.pc.zeroExtend 64, x.st.zeroExtend 64, BitVec.ofNat 64 x.unit] ++
  x.stack.flatMap fun f => [f.pc.zeroExtend 64, f.sb.zeroExtend 64, f.ib.zeroExtend 64, BitVec.ofNat 64 f.unit]

/-- Context records, call stacks and scratch windows of instances between segments. -/
def coverCtx (t : Words) (insts : Tbl Inst) : Words :=
  insts.foldl (fun t p =>
    match p.2.ctx with
    | none => t
    | some x =>
      let ws := ctxWords x
      let t1 := ((List.range ws.length).zip ws).foldl (fun t q => cover t (p.2.td.ctx + 8 * q.1) (leBytes 8 q.2.toNat)) t
      cover t1 p.2.td.winLo (memBytes p.2.scratch p.2.td.winLo (p.2.td.winHi - p.2.td.winLo))) t

/-- The contribution of a covered word. -/
def contrib (a : Nat) (v : Word) : BitVec 256 := sha3 (leBytes 8 a ++ leBytes 8 v.toNat)

/-- The sum of the contributions of words. -/
def sumWords (t : Words) : BitVec 256 := t.foldl (fun d p => d + contrib p.1 p.2) 0

/-- Words of a scrub slice: 32,768 per ms of base period (R155). -/
def sliceWords (pUs : Nat) : Nat := 32768 * pUs / 1000

/-- Slices in one full pass. -/
def scrubFrames (pUs : Nat) (t : Words) : Nat := (t.length + sliceWords pUs - 1) / sliceWords pUs

/-- The definition of slot `k`: of the active version, or of the shadow version while an exchange brings it in. -/
def State.slotDef (s : State) (k : Nat) : Option SlotDef :=
  ([s.prog, s.shadow].filterMap id).findSome? fun p => p.slots.find? fun d => d.idx = k

/-- Whether a slot lies in tile SRAM. -/
def State.slotHot (s : State) (k : Nat) : Bool :=
  match s.slotDef k with
  | some d => d.hot
  | none => false

/-- The physical address of a slot (R89): its place in the version's image. A slot that no version defines any more keeps a cold place by its
index. -/
def State.slotPlace (s : State) (k : Nat) : Nat :=
  match s.slotDef k with
  | some d => d.addr
  | none => 0x40000000 + 32 * k

/-- The covered words of retained signals and instance slots. -/
def State.stateWords (s : State) (c : Chan) : Words := coverSlots s.slotPlace (coverSigs [] c.dir) c.slots

/-- The covered words of D_copy. -/
def State.copyWords (s : State) (c : Chan) : Words := coverForces (s.stateWords c) s.forces

/-- All covered words. -/
def State.coveredWords (s : State) (c : Chan) : Words := coverForces (coverCtx (s.stateWords c) c.insts) s.forces

/-- The copy digest of a channel. -/
def State.copyDigest (s : State) (c : Chan) : BitVec 256 := sumWords (s.copyWords c)

/-- The state digest of a channel at COMMIT of frame F, with scrub slice n = F mod SCRUB. -/
def State.stateDigest (s : State) (c : Chan) : BitVec 256 :=
  let t := s.coveredWords c
  let n := scrubFrames s.pUs t
  let q := if n = 0 then [] else (t.drop (s.gong.frame % n * sliceWords s.pUs)).take (sliceWords s.pUs)
  sumWords t + sumWords q

/-- The signature of the digest vote: state digest and copy digest. -/
def State.digestSig (s : State) (c : Chan) : BitVec 512 := s.stateDigest c ++ s.copyDigest c

end Sys2Proof.Machine
end

