-- ==== Sys2Proof/Machine/Net.lean ====
section
/-! DEFINITION. The network engine (10, R241 to R265), the timed transmission that launches its frames (11, R278 to R281), and the
module's addresses (14, R329 to R332). -/

namespace Sys2Proof.Machine

/-! ## Ports and permissions (Tables 10-2, 10-3) -/

/-- PMODE in force. -/
def State.pmode (s : State) : Nat := s.get R.NET.STATUS.APMODE

/-- The ports a frame for every LAN leaves by. -/
def State.ports (s : State) : List Nat := if s.pmode = 2 then [1] else [1, 2]

/-- The number of the frame that the next tick begins (R28, R30). -/
def GongSt.nextFrame (g : GongSt) (p : Nat) : Nat := if 2 ≤ g.reph then ((g.next : Int) + g.adj).toNat / p else g.frame + 1

/-- In PMODE 0 each frame takes the next number of the redundancy control trailer (R243). -/
def State.trailer (s : State) : Option (BitVec 16) × State :=
  if s.pmode = 0 then (some s.net.rctSeq, { s with net := { s.net with rctSeq := s.net.rctSeq + 1 } }) else (none, s)

/-! ## The learning bridge of PMODE 1 (R242) -/

/-- The addresses learned within the ageing time of 300 s. -/
def State.young (s : State) : List (BitVec 48 × Bool × Nat) := s.net.fdb.filter fun e => decide (s.nowNs < e.2.2 + 300000000000)

/-- The bridge learns on which port an address is; it holds 1,024. R242 does not say what becomes of a new address while it is full: it is not learned,
and no entry is replaced before it ages (DESIGN CHOICE, assumption 29). -/
def State.learn (s : State) (mac : BitVec 48) (x2 : Bool) : State :=
  let l := s.young.filter fun e => e.1 != mac
  { s with net := { s.net with fdb := if l.length < 1024 then l ++ [(mac, x2, s.nowNs)] else l } }

/-- The ports by which a frame of the module's own to `dst` leaves. -/
def State.portsTo (s : State) (dst : BitVec 48) : List Nat :=
  if s.pmode ≠ 1 then s.ports
  else match s.young.find? fun e => e.1 = dst with
    | some e => [if e.2.1 then 2 else 1]
    | none => s.ports

/-- The MAC address of a destination: of a multicast group as IPv4 maps it, else what ARP gives. -/
def destMac (ip : W32) : BitVec 48 := if fieldOf ip 28 4 = 0xE then BitVec.ofNat 48 (0x01005E000000 + fieldOf ip 0 23) else Config.arpMac ip

/-! ## Telegrams -/

/-- The words of a publish entry. -/
def State.pubE (s : State) (i : Nat) : List W32 := (tblFind s.net.pub i).getD []
/-- What the publisher keeps of an entry. -/
def State.pubS (s : State) (i : Nat) : PubSt := (tblFind s.net.pubSt i).getD ⟨0, 0, 0⟩
/-- Replaces what the publisher keeps. -/
def State.setPub (s : State) (i : Nat) (v : PubSt) : State := { s with net := { s.net with pubSt := tblPut s.net.pubSt i v } }
/-- Big-endian bytes. -/
def beBytes (n v : Nat) : List Byte := (leBytes n v).reverse
/-- The number of big-endian bytes. -/
def beNat (l : List Byte) : Nat := leNat l.reverse

/-- Writes bytes into a list at an offset. -/
def splice (l : List Byte) (o : Nat) (b : List Byte) : List Byte := l.take o ++ b ++ l.drop (o + b.length)

/-- The SDTv2 trailer's first 12 bytes in the standard's layout: reserved, user data version, safe sequence counter (R252;
assumption 10). -/
def sdtHead (udv : Nat) (ssc : W32) : List Byte := leBytes 6 0 ++ beBytes 2 udv ++ beBytes 4 ssc.toNat

/-- The SID of an entry: recomputed from the topology counters in force (Table 10-8). -/
def State.sid (s : State) (e : List W32) : W32 := Config.sdtSid (e.getD 6 0) (s.reg R.NET.ETBTOPO.CNT.off) (s.reg R.NET.OPTOPO.CNT.off)

/-- The bytes of a signal in a dataset (R251). -/
def telBytes (e : DirEnt) (v : List Byte) (le : Bool) : List Byte :=
  if e.type = 1 then leBytes 1 (leNat v % 2) else if e.isBytes ∨ le then bytesAt v 0 e.size else (bytesAt v 0 e.size).reverse

/-- The dataset of entry `i` from the values of channel `ch`, with its prefix and without its trailer (R250, R251, R253). -/
def State.valuesIn (s : State) (ch : Ch) (i : Nat) : List Byte :=
  let e := s.pubE i
  let len := fieldOf (e.getD 3 0) 0 16
  let d0 := leBytes len 0
  let d1 := if entBit e 29 then splice d0 0 (beBytes 4 (s.get R.PAIR.EPOCH.fld)) else d0
  (bindsOf s.net.binds (e.getD 4 0)).foldl (fun d b =>
    match tblFind (s.ch ch).dir (bindSig b) with
    | some x =>
      if bindSig b = 0 ∨ x.type = 0 then d
      else splice d (bindOfs b) (telBytes x (seen s.forces (bindSig b) { x with val := s.valueIn ch x }).val (b.2.getLsbD 16))
    | none => d) d1

/-- The 16 bytes of the SDTv2 trailer of entry `i` over a dataset (R252). -/
def State.sdtTrailer (s : State) (i : Nat) (data : List Byte) : List Byte :=
  let e := s.pubE i
  let head := sdtHead (fieldOf (e.getD 7 0) 16 16) (s.pubS i).ssc
  head ++ beBytes 4 (Config.sdtCode (s.sid e) (data ++ head)).toNat

/-- The dataset of entry `i` from channel `ch`, with prefix and trailer. -/
def State.datasetIn (s : State) (ch : Ch) (i : Nat) : List Byte :=
  let d := s.valuesIn ch i
  let body := d.take (fieldOf ((s.pubE i).getD 3 0) 0 16 - 16)
  if entBit (s.pubE i) 30 then body ++ s.sdtTrailer i body else d

/-- The dataset of entry `i` from the release channel. -/
def State.dataset (s : State) (i : Nat) : List Byte := s.datasetIn s.leadCh i

/-- A channel's trailers of the safe telegrams captured for the tick of frame `f`, folded as items of tag 0x2: two of 8 bytes each, with the
entry's index as their ID (R252; assumption 10). -/
def State.trailerSig (s : State) (ch : Ch) (f : Nat) : BitVec 128 :=
  if !s.leads then 0
  else (s.net.pub.filter fun p => pubDue p.2 f && entBit p.2 30).foldl (fun m p =>
    let t := (s.datasetIn ch p.1).drop (fieldOf (p.2.getD 3 0) 0 16 - 16)
    misr (misr m (itemSig p.1 (t.take 8))) (itemSig p.1 (t.drop 8))) 0

/-- Captures the telegrams due at the tick of frame `f` (R250): only in ALONE or ACTIVE. The safe sequence counter advances. The current counters of a TRN
header (Table 10-4, which does not name the instant) are those at the capture, so a telegram that leaves after an inauguration in its frame carries the
old ones (DESIGN CHOICE, assumption 29). -/
def State.capture (s : State) (f : Nat) : State :=
  if !s.leads ∨ s.mstate ≠ .run then s
  else s.net.pub.foldl (fun t p =>
    if pubDue p.2 f then
      let st := t.pubS p.1
      let trn := entBit p.2 28
      let cap : PdCap := ⟨p.1, f, none, t.dataset p.1, if trn then t.reg R.NET.ETBTOPO.CNT.off else 0, if trn then t.reg R.NET.OPTOPO.CNT.off else 0⟩
      ({ t with net := { t.net with caps := t.net.caps ++ [cap] } }.setPub p.1
        (if entBit p.2 30 then { st with ssc := st.ssc + 1 } else st))
    else t) s

/-- LOFS of a publish entry in ns. -/
def lofsNs (e : List W32) : Nat := 1000 * fieldOf (e.getD 3 0) 16 16

/-- At a tick the telegrams captured for it take their launch instants (R279). TRN telegrams are not due while an inauguration is in progress,
and the steward then ends it (R247, steps 1 and 4); none is due while transmit is not permitted (R245). -/
def State.netTick (s : State) : State :=
  let off := s.get R.NET.STATUS.INAUG = 1
  let caps := if s.txen then s.net.caps.filter fun c => !(off && c.due.isNone && entBit (s.pubE c.idx) 28) else []
  let timed := caps.map fun c => if c.due.isNone then { c with due := some (s.gong.tick + lofsNs (s.pubE c.idx)) } else c
  { s with net := { s.net with caps := timed } }.set R.NET.STATUS.INAUG 0

/-- The telegram that leaves first: the earliest launch instant, there the lowest entry (R249). -/
def pdFirst (l : List PdCap) : Option (Nat × PdCap) :=
  l.foldl (fun best c => match c.due, best with
    | none, b => b
    | some d, none => some (d, c)
    | some d, some (e, x) => if d < e ∨ (d = e ∧ c.idx < x.idx) then some (d, c) else best) none

/-- TOL in ns (R281). -/
def State.tolNs (s : State) : Nat := 1000 * inRange (s.get R.TIME.LATECFG.TOL) 1 1000 10

/-- PD_TELEGRAM_LAUNCH: the first telegram whose launch instant has come leaves; one later than TOL is counted, and none is dropped for lateness
(R279). -/
def execPdTelegramLaunch (s : State) : Host.Outcome State Fault Refusal :=
  s.whilePowered (match pdFirst s.net.caps with
    | none => s
    | some (due, c) =>
      let s1 := { s with net := { s.net with caps := s.net.caps.erase c } }
      if s.nowNs < due then s
      else if !s.txen then s1
      else
        let st := s1.pubS c.idx
        let (rct, s2) := (s1.setPub c.idx { st with seq := st.seq + 1, lastF := BitVec.ofNat 32 s.gong.frame }).trailer
        let s3 := (s2.send (.pd c.idx (s.portsTo (destMac ((s.pubE c.idx).getD 2 0))) (s.portMac false) rct c.etb c.op st.seq c.data)).inc
          R.NET.TXPD.COUNT
        if due + s.tolNs < s.nowNs then s3.incSat R.TIME.PDLATE.COUNT else s3)

/-! ## Transmit rings (R263, R278, R280, R281) -/

/-- Where the PTP message of a frame begins, for transport 0 UDP over IPv4 or 1 IEEE 802.3; an 802.1Q tag is passed over. A UDP
checksum that is not zero is refused, as is a frame that ends before the UDP header does. -/
def ptpOfs (b : List Byte) (trans : Nat) : Option Nat :=
  let l2 := if beNat (bytesAt b 12 2) = 0x8100 then 16 else 12
  let type := beNat (bytesAt b l2 2)
  if trans = 1 then (if type = 0x88F7 then some (l2 + 2) else none)
  else
    let ip := l2 + 2
    let udp := ip + 4 * ((b.getD ip 0).toNat % 16)
    if type = 0x0800 ∧ 5 ≤ (b.getD ip 0).toNat % 16 ∧ (b.getD (ip + 9) 0).toNat = 17 ∧ beNat (bytesAt b (udp + 2) 2) = 319 ∧ beNat (bytesAt b (udp + 6) 2) = 0 ∧ udp + 8 ≤ b.length then
      some (udp + 8)
    else none

/-- The bytes of a PTP event message: Sync and Delay_Req end with originTimestamp, Pdelay_Req and Pdelay_Resp have ten bytes more (IEEE 1588-2019). -/
def ptpLen (type : Nat) : Nat := if type < 2 then 44 else 54

/-- The PTP event message of a frame: message types 0 to 3 (IEEE 1588-2019), whole in the frame. -/
def ptpEvent (b : List Byte) (trans : Nat) : Option Nat :=
  match ptpOfs b trans with
  | some o =>
    let type := (b.getD o 0).toNat % 16
    if type < 4 ∧ o + ptpLen type ≤ b.length then some o else none
  | none => none

/-- One-step insertion at the instant `clk` in units of 2^-32 ns (R278): originTimestamp, the fraction added to correctionField, twoStepFlag
cleared. -/
def oneStep (clk : Nat) (b : List Byte) (o : Nat) : List Byte :=
  let ts := beBytes 6 (clk / 2 ^ 32 / 1000000000) ++ beBytes 4 (clk / 2 ^ 32 % 1000000000)
  let corr := beBytes 8 (beNat (bytesAt b (o + 8) 8) + clk % 2 ^ 32 / 2 ^ 16)
  let flags := [(b.getD (o + 6) 0) &&& 0xFD]
  splice (splice (splice b (o + 34) ts) (o + 8) corr) (o + 6) flags

/-- The instant at which a descriptor comes to the head of a transmit ring is noted (R280). -/
def State.atHead (s : State) (ring : Nat) : State :=
  if 16 ≤ ring ∧ ring < 19 ∧ !s.ringEmpty ring then
    { s with net := { s.net with headNs := Vector.ofFn fun i => if i.val + 16 = ring then s.nowNs else s.net.headNs[i] } }
  else s

/-- The hardware finishes with the descriptor at TAIL: words 0, 6 and 7 are written back and TAIL advances. -/
def State.txDone (s : State) (ring stat ts : Nat) : State :=
  let a := s.ringAddr ring (s.get (R.NET.TAIL.INDEX ring))
  let w0 := s.ringWord ring 0
  let w := 2 ^ 26 * (w0 / 2 ^ 26 % 2 ^ 5) + 2 ^ 31 + 2 ^ 24 * stat + w0 % 2 ^ 24
  let m := dmaPut (dmaPut s.smem a (leBytes 4 w)) (a + 24) (leBytes 8 ts)
  ({ s with smem := m }.ringTake ring).atHead ring

/-- The descriptor at the head of a transmit ring (Table 10-10). -/
structure TxHead where
  lt : Bool
  port : Nat
  ts : Bool
  one : Bool
  len : Nat
  buf : Nat
  launch : Nat
  deriving DecidableEq, Repr

/-- The descriptor at TAIL of ring `r`. -/
def State.txHead (s : State) (r : Nat) : TxHead :=
  let w0 := s.ringWord r 0
  { lt := w0 / 2 ^ 30 % 2 = 1, port := w0 / 2 ^ 28 % 4, ts := w0 / 2 ^ 27 % 2 = 1, one := w0 / 2 ^ 26 % 2 = 1, len := w0 % 2 ^ 16
    buf := (s.ringWord r 2 + 2 ^ 32 * s.ringWord r 3) % 2 ^ 40, launch := s.ringWord r 4 + 2 ^ 32 * s.ringWord r 5 }

/-- A ring has a descriptor whose launch time has come. -/
def State.txReady (s : State) (r : Nat) : Bool := s.ringOn r && !s.ringEmpty r && !((s.txHead r).lt && decide (s.nowNs < (s.txHead r).launch))

/-- The launch time of the descriptor at the head of a ring, none without LT. -/
def State.txTime (s : State) (r : Nat) : Option Nat := if (s.txHead r).lt then some (s.txHead r).launch else none

/-- A lower ring has a descriptor of the same launch time, which goes first (R263). -/
def State.lowerFirst (s : State) (r : Nat) : Bool := (List.range r).any fun m => decide (16 ≤ m) && s.txReady m && s.txTime m == s.txTime r

/-- The time on the wire in ns of a frame of `len` bytes: with preamble, FCS and trailer at 1 Gb/s. -/
def State.wireNs (s : State) (len : Nat) : Nat := 8 * (len + 12 + if s.pmode = 0 then 6 else 0)

/-- A publish entry's telegram leaves by one of `ports`. -/
def State.pubOn (s : State) (ports : List Nat) (e : List W32) : Bool := (s.portsTo (destMac (e.getD 2 0))).any ports.contains

/-- The launch instants of the publisher on `ports` that lie ahead or wait: of this frame's telegrams, and of those due at the next tick, with
INAUG set none of an entry with TRN (R247, R249, R279). -/
def State.pubInstants (s : State) (ports : List Nat) : List Nat :=
  if !s.txen then []
  else (s.net.caps.filter fun c => s.pubOn ports (s.pubE c.idx)).filterMap (·.due) ++
    (s.net.pub.filter fun p => s.pubOn ports p.2).filterMap fun p =>
      if pubDue p.2 (s.gong.nextFrame s.pNs) && !(s.get R.NET.STATUS.INAUG = 1 && entBit p.2 28) then some (s.gong.next + lofsNs p.2) else none

/-- A frame that starts now on `ports` would still be on the wire at a publish launch instant on one of them, or one waits (R249, R280). A frame for both
ports starts on both at once or waits (DEDUCED, assumption 29). -/
def State.pubBlocks (s : State) (ports : List Nat) (len : Nat) : Bool :=
  (s.pubInstants ports).any fun d => decide (d < s.nowNs + s.wireNs len)

/-- A descriptor that is not sent, with STAT 3 (R263, R278, R280): a reserved port, a length out of bounds, a launch time more than 1 s ahead when
it came to the head of its ring, ONESTEP without a PTP event message. -/
def State.txError (s : State) (n : Fin 3) (h : TxHead) (frame : List Byte) : Bool :=
  h.port = 3 || decide (h.len < 60) || decide (1522 < h.len) || (h.lt && decide (s.net.headNs[n] + 1000000000 < h.launch)) ||
    (h.one && (ptpEvent frame (s.get R.TIME.CFG.TRANS)).isNone)

/-- The ports a descriptor's frame leaves by. -/
def State.txPorts (s : State) (h : TxHead) (frame : List Byte) : List Nat :=
  if h.port = 0 then s.portsTo (BitVec.ofNat 48 (beNat (bytesAt frame 0 6))) else [h.port].filter fun p => s.ports.contains p

/-- The frame goes out, on each port with that port's instant; the copy on X2 leaves `skew` units of 2^-16 ns after the one on X1 (R278). -/
def State.txSend (s : State) (ring : Nat) (h : TxHead) (frame : List Byte) (ports : List Nat) (skew : Nat) : State :=
  let (rct, s1) := s.trailer
  ports.foldl (fun t p =>
    let clk := s.clk + if p = 2 ∧ 1 < ports.length then 2 ^ 16 * skew else 0
    t.send (.frame ring p rct (match (if h.one then ptpEvent frame (s.get R.TIME.CFG.TRANS) else none) with
      | some o => oneStep clk frame o
      | none => frame))) s1

/-- TX_DESCRIPTOR_LAUNCH: the descriptor at the head of RING16, RING17 or RING18 (R263, R278, R280, R281). A port that PMODE has switched off
transmits nothing. -/
def execTxDescriptorLaunch (n : Fin 3) (skew : Nat) (s : State) : Host.Outcome State Fault Refusal :=
  let ring := 16 + n.val
  let h := s.txHead ring
  let frame := dmaBytes s.smem h.buf h.len
  let ports := s.txPorts h frame
  let late := h.lt && decide (h.launch + s.tolNs < s.nowNs)
  s.whilePowered (
    if !s.ringOn ring || s.ringEmpty ring then s
    else if !s.txOpen then s.txDone ring 2 0
    else if s.txError n h frame then s.txDone ring 3 0
    else if ports = [] then s.txDone ring 2 0
    else if !s.txReady ring || s.lowerFirst ring then s
    else
      let s1 := if late then s.incSat R.TIME.LATECNT.COUNT else s
      if late ∧ s.get R.TIME.LATECFG.POL / 2 ^ n.val % 2 = 1 then s1.txDone ring 1 0
      else if s.pubBlocks ports h.len then s
      else (s1.txSend ring h frame ports skew).txDone ring (b2n late) (if h.ts then s.nowNs else 0))

/-! ## Rings (R262) -/

/-- The number of entries as an index wraps. -/
def State.ringIndex (s : State) (ring : Nat) (v : BitVec 16) : Nat := v.toNat % s.ringN ring

/-- RING_HEAD_WRITE: by the steward where software produces: the hardware consumes the ring, or the ring is the steward's own. -/
def execRingHeadWrite (r : Req) (ring : Fin 64) (v : BitVec 16) (s : State) : Host.Outcome State Fault Refusal :=
  s.whilePowered (if s.steward r && (s.get (R.NET.RCFG.DIR ring.val) = 1 || decide (32 ≤ ring.val)) then
      (let t := s.set (R.NET.HEAD.INDEX ring.val) (s.ringIndex ring.val v)
       if s.ringEmpty ring.val then t.atHead ring.val else t)
    else s)

/-- RING_TAIL_WRITE: by the steward where software consumes: the hardware produces into the ring, or the ring is the steward's own. The event
rings' TAIL moves by claims alone, and a write to it is ignored (R288). -/
def execRingTailWrite (r : Req) (ring : Fin 64) (v : BitVec 16) (s : State) : Host.Outcome State Fault Refusal :=
  s.whilePowered (if s.steward r && s.get (R.NET.RCFG.DIR ring.val) = 0 && decide (10 ≤ ring.val) then s.set (R.NET.TAIL.INDEX ring.val) (s.ringIndex ring.val v) else s)

/-! ## The switch (R243, R244) -/

/-- BRIDGE_FORWARD: in PMODE 1; the bridge learns the source, and does not send a frame back to the side of its destination. The module's own engine is the
third side (R242), so a frame for its address goes no further. -/
def execBridgeForward (toX2 : Bool) (mac dst : BitVec 48) (ptp : Bool) (correction residence : BitVec 64) (s : State) :
    Host.Outcome State Fault Refusal :=
  s.whilePowered (
    if s.pmode ≠ 1 || !s.txOpen then s
    else
      let s1 := s.learn mac (!toX2)
      let there := dst = s.portMac false || s1.young.any fun e => e.1 = dst && e.2.1 = !toX2
      if there then s1
      else s1.send (.forward toX2 mac dst (if ptp && s.get R.NET.CFG.TCEN = 1 then correction + residence else correction)))

/-- PRP_SUPERVISION_SEND. -/
def execPrpSupervisionSend (s : State) : Host.Outcome State Fault Refusal :=
  s.whilePowered (if s.pmode = 0 && s.txOpen then s.trailer.2.send (.prpSup s.ports (s.portMac false) s.trailer.1) else s)

/-- A source that was heard on both LANs is now heard on the other one than LAN B (`lanB`) or LAN A. -/
def oneSided (lanB : Bool) (p : PrpSrc) : Bool :=
  match p.a, p.b with
  | some a, some b => if lanB then decide (b < a) else decide (a < b)
  | _, _ => false

/-- LANA and LANB of NET.STATUS: some source is heard on the other LAN only (Table 10-14). -/
def State.showLans (s : State) : State :=
  (s.set R.NET.STATUS.LANA (b2n (s.net.heard.any (·.lostA)))).set R.NET.STATUS.LANB (b2n (s.net.heard.any (·.lostB)))

/-- PRP_LAN_LOSS: the source `mac`, which was heard on both LANs, is no longer heard on LAN A or B (R243). -/
def execPrpLanLoss (lanB : Bool) (mac : BitVec 48) (s : State) : Host.Outcome State Fault Refusal :=
  let is (p : PrpSrc) : Bool := p.mac = mac && oneSided lanB p
  let mark (p : PrpSrc) : PrpSrc := if is p then (if lanB then { p with lostB := true } else { p with lostA := true }) else p
  s.whilePowered (if s.pmode = 0 && s.net.heard.any is then
      (State.showLans { s with net := { s.net with heard := s.net.heard.map mark } }).flag R.NET.FLAG.LANLOSS
    else s)

/-- LINK_CHANGE. -/
def execLinkChange (x2 up : Bool) (s : State) : Host.Outcome State Fault Refusal :=
  let f := if x2 then R.NET.STATUS.LINK2 else R.NET.STATUS.LINK1
  s.whilePowered (if s.get f = b2n up then s else (s.set f (b2n up)).flag R.NET.FLAG.LINKCHG)

/-! ## Receiving (R256, R257, R264, R265) -/

/-- 32-bit serial comparison: `a` is greater than `b`. -/
def serialGt (a b : W32) : Bool := a != b && decide ((a - b).toNat < 2 ^ 31)

/-- Passes a frame to receive ring `ring`: the entry at HEAD names the buffer (R262, R264). -/
def State.rxRing (s : State) (ring : Nat) (f : RxFrame) : State :=
  if !s.ringOn ring then s
  else if s.ringFull ring then (s.incSat R.NET.RXFULL.COUNT).flag R.NET.FLAG.RXFULL
  else
    let h := s.get (R.NET.HEAD.INDEX ring)
    let a := s.ringAddr ring h
    let word (w : Nat) := leNat (dmaBytes s.smem (a + 4 * w) 4)
    let room := word 1 % 2 ^ 16
    let buf := (word 2 + 2 ^ 32 * word 3) % 2 ^ 40
    let n := min f.bytes.length room
    let w0 := 2 ^ 31 + 2 ^ 28 * (f.port % 4) + 2 ^ 27 * b2n f.rct.isSome + 2 ^ 26 * b2n (decide (room < f.bytes.length)) + n
    let m := dmaPut s.smem buf (f.bytes.take n)
    let m := dmaPut (dmaPut m a (leBytes 4 w0)) (a + 16) (leBytes 8 s.nowNs)
    { s with smem := m }.set (R.NET.HEAD.INDEX ring) ((h + 1) % s.ringN ring)

/-- The bound entry of a telegram: its ComId and source (R255, R256). -/
def State.boundTo (s : State) (t : PdTel) : Option Nat :=
  (s.net.sub.find? fun p => entBit p.2 31 && p.2.getD 1 0 = t.comId && (s.subS p.1).addrs.contains t.srcIp).map (·.1)

/-- The epoch and sequence checks of a telegram that has passed the others (R256): the entry's state after it, or the counter of
its drop. -/
def epochSeq (e : List W32) (st : SubSt) (w : PdWait) : Except Bool SubSt :=
  let higher : Except Bool SubSt := match w.epoch, st.epoch with
    | some p, some q => if serialGt q p then .error true else if serialGt p q then .ok { st with epoch := some p, seqs := [] } else .ok st
    | _, _ => .ok st
  match higher with
  | .error b => .error b
  | .ok st1 =>
    let fresh : Bool := match tblFind st1.seqs w.src.toNat with
      | some q => serialGt w.seq q
      | none => true
    if fresh then
      .ok { st1 with
            epoch := if entBit e 29 then w.epoch else st1.epoch
            seqs := tblPut st1.seqs w.src.toNat w.seq }
    else .error false

/-- Drops a telegram on its epoch, or as a repeat. -/
def State.pdDrop (s : State) (epoch : Bool) : State :=
  if epoch then (s.incSat R.NET.DROPEPO.COUNT).flag R.NET.FLAG.EPODROP else s.incSat R.NET.DROPOTHER.COUNT

/-- The SDTv2 check of a dataset against entry `e` (Table 10-8): SID, user data version, safety code. -/
def State.sdtGood (s : State) (e : List W32) (data : List Byte) : Bool :=
  let len := fieldOf (e.getD 7 0) 0 16
  let tail := data.drop (len - 16)
  bytesAt tail 6 2 == beBytes 2 (fieldOf (e.getD 7 0) 16 16) &&
    bytesAt tail 12 4 == beBytes 4 (Config.sdtCode (s.sid e) (data.take (len - 4))).toNat

/-- Each channel makes the SDTv2 check on the dataset as the input distributor delivered it to that channel (R257, R259), and folds its result as
an input item of the entry (assumption 10); a channel that decides otherwise is the minority of the next vote of the input signatures. -/
def State.sdtFold (s : State) (i : Nat) (e : List W32) (data : List Byte) : State :=
  s.eachCh s.follows fun ch c => c.foldInput s.gong.frame (itemInput 0 i [BitVec.ofNat 8 (b2n (s.sdtGood e (s.receivedBytes ch data)))])

/-- The outcome of the SDTv2 check: what most of the included channels found. -/
def State.sdtAgreed (s : State) (e : List W32) (data : List Byte) : Bool :=
  decide (s.incl.length < 2 * (s.incl.filter fun ch => s.sdtGood e (s.receivedBytes ch data)).length)

/-- The checks of R256 on a telegram; one that passes awaits acceptance. -/
def State.pdCheck (s : State) (f : RxFrame) (t : PdTel) : State :=
  if !t.headerOk then s.incSat R.NET.DROPOTHER.COUNT
  else match s.boundTo t with
    | none => s.rxRing 26 f
    | some i =>
      let e := s.subE i
      let len := fieldOf (e.getD 7 0) 0 16
      let topo (c : W32) (r : Fld) : Bool := c != 0 && c != s.reg r.off
      let tail := t.data.drop (len - 16)
      if t.data.length ≠ len then s.incSat R.NET.DROPOTHER.COUNT
      else if entBit e 28 && (topo t.etbTopo R.NET.ETBTOPO.CNT || topo t.opTopo R.NET.OPTOPO.CNT) then
        (s.incSat R.NET.DROPTOPO.COUNT).flag R.NET.FLAG.TOPODROP
      else if entBit e 30 && !s.sdtAgreed e t.data then ((s.sdtFold i e t.data).incSat R.NET.DROPSDT.COUNT).flag R.NET.FLAG.SDTERR
      else
        let s := if entBit e 30 then s.sdtFold i e t.data else s
        let w : PdWait :=
          ⟨i, t.srcIp, if entBit e 30 then BitVec.ofNat 32 (beNat (bytesAt tail 8 4)) else t.seq,
           if entBit e 29 then some (BitVec.ofNat 32 (beNat (t.data.take 4))) else none, t.data⟩
        match epochSeq e (s.subS i) w with
        | .error b => s.pdDrop b
        | .ok _ => { s with net := { s.net with waiting := s.net.waiting ++ [w] } }

/-- Notes that a source was heard on a LAN; a LAN on which no source is missed any longer is no longer named. -/
def State.hear (s : State) (f : RxFrame) : State :=
  let old := (s.net.heard.find? fun p => p.mac = f.mac).getD ⟨f.mac, none, none, false, false⟩
  let new : PrpSrc := if f.port = 1 then { old with a := some s.nowNs, lostA := false } else { old with b := some s.nowNs, lostB := false }
  State.showLans { s with net := { s.net with heard := new :: s.net.heard.filter fun p => p.mac != f.mac } }

/-- FORGET in ns (R243). -/
def State.forgetNs (s : State) : Nat := 1000000 * inRange (s.get R.NET.CFG.FORGET) 100 2000 400

/-- A later copy of a frame heard within FORGET. -/
def State.prpCopy (s : State) (f : RxFrame) : Bool :=
  match f.rct with
  | some q => s.pmode = 0 && s.net.seen.any fun e => e.1 = f.mac && e.2.1 = q && decide (s.nowNs < e.2.2 + s.forgetNs)
  | none => false

/-- Remembers the kept copy of a frame. -/
def State.prpKeep (s : State) (f : RxFrame) : State :=
  match f.rct with
  | some q =>
    if s.pmode = 0 then
      { s with net := { s.net with seen := (f.mac, q, s.nowNs) :: s.net.seen.filter fun e => decide (s.nowNs < e.2.2 + s.forgetNs) } }
    else s
  | none => s

/-- The ring for a frame of each class (Table 10-9). -/
def rxClass : RxBody → Nat
  | .pd _ | .pdPull => 26
  | .ptp => 24
  | .messageData => 25
  | .other => 27

/-- FRAME_RECEIVE: PRP duplicate discard, or in PMODE 1 learning of the source; then the subscriber or the ring of the frame's class; a frame that
uses an unlisted option goes to its ring (R241 to R243, R265). -/
def execFrameReceive (f : RxFrame) (s : State) : Host.Outcome State Fault Refusal :=
  s.whilePowered (
    if !s.initOrRun || s.ecnLoop || !(s.ports.contains f.port) then s
    else
      let s1 := if s.pmode = 0 then s.hear f else if s.pmode = 1 then s.learn f.mac (f.port = 2) else s
      if s.prpCopy f then s1.inc R.NET.PRPDUP.COUNT
      else
        let s2 := s1.prpKeep f
        match f.body with
        | .pd t => if f.unlisted then s2.rxRing 26 f else s2.pdCheck f t
        | b => s2.rxRing (rxClass b) f)

/-- The value of an element in a dataset (R251, R257). -/
def telValue (e : DirEnt) (data : List Byte) (b : W32 × W32) : List Byte :=
  let v := bytesAt data (bindOfs b) e.size
  if e.type = 1 then leBytes 1 (leNat v % 2) else if e.isBytes ∨ b.2.getLsbD 16 then v else v.reverse

/-- Updates every signal bound to entry `i` at one instant. -/
def State.telUpdate (s : State) (i : Nat) (src : Src) (val : DirEnt → W32 × W32 → List Byte) : State :=
  (bindsOf s.net.binds ((s.subE i).getD 4 0)).foldl (fun t b =>
    match t.dirEnt (bindSig b) with
    | some e => if bindSig b = 0 ∨ e.type = 0 then t else t.input (bindSig b) (val e b) src
    | none => t) s

/-- TELEGRAM_ACCEPT: the first telegram that awaits acceptance (R257). One accepted meanwhile may have made it a repeat. -/
def execTelegramAccept (s : State) : Host.Outcome State Fault Refusal :=
  s.whilePowered (match s.net.waiting with
    | [] => s
    | w :: rest =>
      let s1 := { s with net := { s.net with waiting := rest } }
      let e := s.subE w.idx
      match epochSeq e (s.subS w.idx) w with
      | .error b => s1.pdDrop b
      | .ok st =>
        let s2 := (s1.setSub w.idx { st with tout := false, lastAcc := some s.nowNs }).inc R.NET.RXACC.COUNT
        s2.telUpdate w.idx ⟨true, entBit e 30, false⟩ fun x b => telValue x w.data b)

/-- SUBSCRIBE_TIMEOUT: one update of every bound signal, zero or held (R258). -/
def execSubscribeTimeout (i : Nat) (s : State) : Host.Outcome State Fault Refusal :=
  let e := s.subE i
  let st := s.subS i
  s.whilePowered (
    if !entBit e 31 || fieldOf (e.getD 0 0) 0 24 = 0 || st.tout || (st.lastAcc.isNone && s.mstate != .run) then s
    else
      let s1 := ((s.setSub i { st with tout := true, epoch := none, seqs := [] }).incSat R.NET.TOCNT.COUNT).flag R.NET.FLAG.TIMEOUT
      s1.telUpdate i ⟨false, false, true⟩ fun x _ => if entBit e 27 then x.val else leBytes x.size 0)

/-! ## Addresses (R329 to R332) -/

/-- The own position, where known. -/
def State.position (s : State) : Option (Nat × Nat) := if s.byTtdb then s.boot.pos else some s.fixPos

/-- HOSTID (R330). -/
def State.hostId (s : State) : Nat := s.get R.ID.PLUG.RACK * 32 + s.get R.ID.SLOT.CODE

/-- The first condition of R331 that fails, 7 where only the probe is outstanding. -/
def State.ucause (s : State) : Nat :=
  firstReason [(1, s.get R.ID.SLOT.VALID = 0), (2, s.get R.ID.PLUG.VALID = 0), (3, s.byTtdb && !s.boot.posRead),
    (4, s.byTtdb && s.boot.pos.isNone), (5, !Config.hostOk s.hostId), (6, s.net.conflict), (7, !s.boot.probed)]

/-- The unit key (Table 3-10). -/
def State.unitKey (s : State) : Nat :=
  match s.position with
  | some (c, v) => 2 ^ 26 * c + 2 ^ 18 * v + 2 ^ 10 * s.get R.ID.PLUG.RACK + 2 ^ 5 * s.get R.ID.SLOT.CODE
  | none => 0

/-- While UNADDRESSED the module shows the first condition that fails (R331). -/
def State.showUcause (s : State) : State := if s.get R.ID.ASTAT.ADDR = 1 then s else s.set R.ID.ASTAT.UCAUSE s.ucause

/-- Sends an ARP probe for an address. -/
def State.probe (s : State) (addr : W32) : State := s.trailer.2.send (.arpProbe addr s.ports (s.portMac false) s.trailer.1)

/-- Derives HOSTID and the addresses, shows UCAUSE, and probes where only the probe is outstanding (R329 to R331). -/
def State.derive (s : State) : State :=
  let esub := s.get R.CFG.ADDRCFG.ESUB
  let s1 := ((s.set R.ID.HOSTID.ID s.hostId).set R.ID.IPLOC.ADDR (Config.localAddr esub s.hostId).toNat).set R.ID.IPTRN.ADDR
    (if s.byTtdb ∧ s.boot.posRead then (Config.trainAddr s.boot.trnId esub s.hostId).toNat else 0)
  let s2 := s1.showUcause
  if s1.ucause = 7 ∧ s2.txOpen then
    let s3 := s2.probe (s2.reg R.ID.IPLOC.ADDR.off)
    if s.byTtdb then s3.probe (s2.reg R.ID.IPTRN.ADDR.off) else s3
  else s2

/-- Becomes ADDRESSED at a tick. -/
def State.becomeAddressed (s : State) : State :=
  ((((s.set R.ID.ASTAT.ADDR 1).set R.ID.ASTAT.UCAUSE 0).set R.NET.STATUS.ADDR 1).set R.ID.UNITKEY.KEY s.unitKey).bindAll

/-- Becomes UNADDRESSED. -/
def State.becomeUnaddressed (s : State) : State :=
  let s1 := ((s.set R.ID.ASTAT.ADDR 0).set R.NET.STATUS.ADDR 0).set R.ID.UNITKEY.KEY 0
  let s2 := { s1 with boot := { s1.boot with probed := false }, net := { s1.net with addrNext := none } }
  s2.unbindAll.derive

/-- At a tick: a change of address that is due. Entries of a version that was loaded are bound from its first tick on (R258). -/
def State.addrTick (s : State) : State :=
  match s.net.addrNext with
  | some true => if s.ucause = 0 then { s with net := { s.net with addrNext := none } }.becomeAddressed else s
  | some false => s.becomeUnaddressed
  | none => if s.get R.ID.ASTAT.ADDR = 1 ∧ s.net.rebind then { s with net := { s.net with rebind := false } }.bindAll else s

/-- The plug's 16 identifier bytes. -/
def State.vehId (s : State) : List Byte := (List.range 4).flatMap fun w => leBytes 4 (s.get (R.ID.VEHID.BYTES w))

/-- The own position in the operational train directory: the own consist's, and in it that of the vehicle whose identifier equals the plug's VEHID, ASCII
and zero-padded (R329, Table 14-7). -/
def State.findVeh (s : State) (cst : Nat) (vehs : List (Nat × List Byte)) : Option (Nat × Nat) :=
  (vehs.find? fun v => v.2 ++ List.replicate (16 - v.2.length) 0 = s.vehId).map fun v => (cst, v.1)

/-- TTDB_READ_DONE: the position and the counters in force (R247, R329). -/
def execTtdbReadDone (etb op : W32) (cst : Nat) (vehs : List (Nat × List Byte)) (tnid : W32) (resolved : Tbl W32) (s : State) :
    Host.Outcome State Fault Refusal :=
  s.whilePowered (
    if !s.byTtdb || !s.initOrRun || s.ecnLoop || s.boot.posRead then s
    else
      let s1 := { s with
        boot := { s.boot with posRead := true, pos := s.findVeh cst vehs, trnId := tnid }
        net := { s.net with resolved := resolved } }
      ((s1.set R.NET.ETBTOPO.CNT etb.toNat).set R.NET.OPTOPO.CNT op.toNat).derive)

/-- INAUGURATION: steps 1 to 3 of R247, step 4 at the next tick: entries with TRN are not due at that tick, and are again from the one after. A
change of the own position makes the module UNADDRESSED at the next tick (R332); the train network identifier is the directory's. -/
def execInauguration (etb op : W32) (cst : Nat) (vehs : List (Nat × List Byte)) (tnid : W32) (resolved : Tbl W32) (s : State) :
    Host.Outcome State Fault Refusal :=
  s.whilePowered (
    if !s.byTtdb || !s.initOrRun || s.ecnLoop || !s.boot.posRead || (etb = s.reg R.NET.ETBTOPO.CNT.off && op = s.reg R.NET.OPTOPO.CNT.off) then s
    else
      let pos := s.findVeh cst vehs
      let moved := pos != s.boot.pos
      let s1 := { (s.flag R.NET.FLAG.NEWINAUG).set R.NET.STATUS.INAUG 1 with net := { s.net with resolved := resolved } }
      let s2 := if s.get R.ID.ASTAT.ADDR = 1 then s1.bindAll else s1
      let s3 := ((s2.set R.NET.ETBTOPO.CNT etb.toNat).set R.NET.OPTOPO.CNT op.toNat).inc R.NET.INAUGCNT.COUNT
      let s4 := { s3 with boot := { s3.boot with pos := pos, trnId := tnid } }
      if moved then
        let s5 := s4.flag R.ID.FLAG.ADDRCHG
        if s.get R.ID.ASTAT.ADDR = 1 then { s5 with net := { s5.net with addrNext := some false } }
        else { s5 with boot := { s5.boot with probed := false } }.derive
      else s4)

/-- ARP_PROBE_DONE: 200 ms without a reply; ADDRESSED at the next tick (R331). -/
def execArpProbeDone (s : State) : Host.Outcome State Fault Refusal :=
  s.whilePowered (if s.ucause = 7 ∧ s.initOrRun ∧ !s.ecnLoop then { s with boot := { s.boot with probed := true }, net := { s.net with addrNext := some true } } else s)

/-- ARP_CONFLICT: another station answers the probe or claims an address (R331, R332). -/
def execArpConflict (s : State) : Host.Outcome State Fault Refusal :=
  s.whilePowered (
    if s.ecnLoop || (s.get R.ID.ASTAT.ADDR = 0 && s.ucause != 7 && s.ucause != 0) then s
    else { s.flag R.ID.FLAG.IPDUP with net := { s.net with conflict := true } }.becomeUnaddressed)

/-- ARP_REPROBE: the conflict has been absent for 10 s (R332). -/
def execArpReprobe (s : State) : Host.Outcome State Fault Refusal :=
  s.whilePowered (if s.net.conflict then { s with net := { s.net with conflict := false } }.derive else s)

end Sys2Proof.Machine
end

