-- ==== Sys2Proof/Machine/Record.lean ====
section
/-! DEFINITION. What a retain record holds (07, R192 to R194; 09, R222): its body by the retain map, and the guard section as it stood at the
tick of its frame. -/

namespace Sys2Proof.Machine

/-- The body by the retain map: signals with RET in ascending ID order, then slots with RET by index. -/
def retMap (c : Chan) : List RetEnt :=
  ((c.dir.filter fun p => p.2.type != 0 && p.2.ret).map fun p => RetEnt.sig p.1 p.2.w3 p.2.val) ++
  ((c.slots.filter fun p => p.2.kind != 0 && p.2.ret).map fun p => RetEnt.slot p.1 { p.2 with adopt := false })

/-- A mask of the inputs below 16 for which `p` holds. -/
def inputMask (p : Nat → Bool) : BitVec 16 := BitVec.ofNat 16 (maskOf ((List.range 16).filter p))

/-- Input `i` is configured as a retained guard. -/
def State.retGuard (s : State) (i : Nat) : Bool := s.get (R.SIO.ICFG.GUARD i) = 1 && s.get (R.SIO.ICFG.RGUARD i) = 1

/-- An exchange was armed and is not DONE (R185). -/
def State.exchMark (s : State) : Bool := decide (4 ≤ s.get R.TASK.XSTAT.STATE) && decide (s.get R.TASK.XSTAT.STATE ≤ 6)

/-- The proof and RGUARD bits are noted at a tick; those of the last four frames are kept (R222). -/
def State.noteGuards (s : State) : State :=
  let g : GuardNote := ⟨s.gong.frame, inputMask fun i => s.bit R.SIO.ISTATE.PROVEN i, inputMask s.retGuard⟩
  { s with ret := { s.ret with notes := (g :: s.ret.notes).take 4 } }

/-- The proof and RGUARD bits as they stood at the tick of frame `f`; of a frame no longer kept, the oldest kept. -/
def State.guardsAt (s : State) (f : Nat) : GuardNote :=
  match s.ret.notes.find? fun g => decide (g.frame ≤ f) with
  | some g => g
  | none => s.ret.notes.getLastD ⟨f, 0, 0⟩

/-- What the record of frame `f` holds, taken at the end of its commit from the release channel; `ns` is the instant of its tick. It takes
its sequence number when it is written. -/
def State.recordOf (s : State) (f ns : Nat) : RetBuf :=
  { seq := 0, frame := f, pver := s.reg R.TASK.PVER.fld.off, cfgver := s.reg R.CFG.CURVER.CFGVER.off, wallNs := ns, xch := s.exchMark
    tlock := s.get R.TIME.STATUS.SYNC = 1, proven := (s.guardsAt f).proven, guards := (s.guardsAt f).guards, body := retMap (s.ch s.leadCh) }

end Sys2Proof.Machine
end

