-- ==== Sys2Proof/Machine/Pair.lean ====
section
/-! DEFINITION. The module pair (08, R197 to R211): roles, promotion and yield, heartbeats, the per-frame copy, joins and planned
switchover. -/

namespace Sys2Proof.Machine

/-! ## Roles (R197, R198) -/

/-- A role is shown, CUR beginning at 0. In FENCED no record is written, so one that is due is given up (R194). -/
def State.showRole (s : State) (r : Role) (fcause : Nat) : State :=
  let s1 := ((s.set R.PAIR.ROLE.fld (roleCode r)).set R.PAIR.ROLE.FCAUSE fcause).set R.PAIR.ROLE.CUR 0
  if r = .fenced then { s1 with ret := { s1.ret with due := none } } else s1

/-- Changes the role; a test that becomes unreachable ends. -/
def State.toRole (s : State) (r : Role) (fcause : Nat) : State := (s.showRole r fcause).testCheck

/-- A Fumarole record of the pair: 1 promotion, 2 yield, 3 fence, 4 join failure. -/
def State.pairRecord (s : State) (code : Nat) : State :=
  s.fumarole 0x07 0x0B code (leBytes 4 (s.get R.PAIR.EPOCH.fld) ++ leBytes 8 (s.getPair R.PAIR.RESF_LO.FRAME R.PAIR.RESF_HI.FRAME))

/-- PAIR.ACKF. -/
def State.ackf (s : State) : Nat := s.getPair R.PAIR.ACKF_LO.FRAME R.PAIR.ACKF_HI.FRAME

/-- The epoch of a start as ALONE or a promotion: one more than the higher of the own and the partner's last (R199, R202). -/
def State.raiseEpoch (s : State) : State := s.set R.PAIR.EPOCH.fld (max (s.get R.PAIR.EPOCH.fld) s.pair.epochIn + 1)

/-- Asserts PAIR_ACT (R201); while start-hold or its latch holds the line Solfatara keeps it released (R349, R356). -/
def State.assertPact (s : State) : State :=
  { s.set R.PAIR.ROLE.PACT (b2n s.gates) with pair := { s.pair with pactNs := s.nowNs, hbSincePact := false } }

/-- Promotion (R202) from the committed state of frame `a`: items of a copy that has not ended are not applied. -/
def State.promote (s : State) (a : Nat) : State :=
  let s1 := (s.assertPact.raiseEpoch).toRole .alone 0
  let s2 := (s1.flag R.PAIR.FLAG.PROMO).incSat R.PAIR.COUNTS.PROMOS
  let s3 := (s2.setPair R.PAIR.RESF_LO.FRAME R.PAIR.RESF_HI.FRAME a).set R.PAIR.BOTHNS.NS 0
  let p := s3.pair
  { s3 with pair := { p with resume := some a, both := s3.get R.PAIR.ROLE.PACTIN = 1, joining := false, handover := none, held := [], ended := [] } }.pairRecord 1

/-- A standby that would promote: it does with CUR = 1; else NOPROMO is set, and with COLDTAKE a cold start follows (R202). -/
def State.wouldPromote (s : State) : State :=
  if s.get R.PAIR.ROLE.CUR = 1 then s.promote s.ackf
  else
    let s1 := s.flag R.PAIR.FLAG.NOPROMO
    if s1.get R.PAIR.CFG.COLDTAKE = 1 then s1.acceptRestart true else s1

/-! ## Joining (R210) -/

/-- A join begins. -/
def State.joinBegin (s : State) : State :=
  let s1 := s.set R.PAIR.ROLE.CUR 0
  { s1 with pair := { s1.pair with joining := true, bulkB := none, bulkEnd := false, held := [], ended := [] } }

/-- A join fails: the third within 3,600 s ends in FENCED with cause 4. -/
def State.joinFail (s : State) : State :=
  let fails := s.nowNs :: s.pair.joinFails.filter fun t => decide (s.nowNs < t + 3600000000000)
  let s1 := { s with pair := { s.pair with joinFails := fails } }.pairRecord 4
  if 3 ≤ fails.length then
    let s2 := (s1.flag R.PAIR.FLAG.JOINFAIL).toRole .fenced 4
    { s2 with pair := { s2.pair with joining := false } }
  else s1.joinBegin

/-- Signals and slots as a version defines them, with no value yet (R187). -/
def freshChan (c : Chan) (p : Program) (f : Nat) : Chan :=
  { c with dir := enterDir [] p f, slots := tblOf (p.slots.map fun d => (d.idx, slotCold d)) }

/-- A channel without the state that was loaded or restored: signals of HOME 0 and slots as the version defines them; a signal in force keeps
FORCED. Updates that other homes have made stay (R187, R199). -/
def Chan.discard (c : Chan) (p : Program) (f : Nat) (forced : List Nat) : Chan :=
  let z := freshChan c p f
  { z with dir := z.dir.map fun e => match tblFind c.dir e.1 with
      | some d => if d.home = 0 then (e.1, e.2.setForced (forced.contains e.1)) else (e.1, d)
      | none => e }

/-- A module that starts as STANDBY discards what it loaded or restored (R199). -/
def State.discardImage (s : State) : State :=
  match s.prog with
  | some p => s.mapCh (fun _ => true) fun c => c.discard (versionAs (c.rx s.act) p) s.gong.frame (s.forces.map (·.id))
  | none => s

/-! ## Heartbeats (R206) -/

/-- FLAGS of the heartbeat (Table 8-5). A running CPCI or GEYSER test is reported from the slice after START. -/
def State.hbFlags (s : State) : Nat :=
  let test (n : Nat) : Bool := s.testRun = some n && s.bist.start.isNone
  s.get R.PAIR.ROLE.CUR + 2 * s.get R.SPD.STATUS.STILL + 4 * b2n (s.get R.TIME.STATUS.SYNC = 1) + 8 * b2n (s.xstate = 2) +
    16 * b2n s.pair.joining + 32 * b2n (test 4) + 64 * b2n (test 3)

/-- The heartbeat's payload (Table 8-5). -/
def State.heartbeat (s : State) : Heartbeat :=
  { frame := s.frameShown, role := s.role, mstate := s.mstate, slot := BitVec.ofNat 5 (s.get R.ID.SLOT.CODE)
    flags := BitVec.ofNat 8 s.hbFlags, epoch := s.reg R.PAIR.EPOCH.fld.off, ackf := s.ackf
    pver := s.reg R.TASK.PVER.fld.off, xpver := s.reg R.TASK.XPVER.PVER.off, cfgver := s.reg R.CFG.CURVER.CFGVER.off
    vmode := s.get R.VOTE.MODE.VMODE, lcs := s.lcs }

/-- HEARTBEAT_SEND: while the SoC is powered. -/
def execHeartbeatSend (s : State) : Host.Outcome State Fault Refusal := s.whilePowered (if s.sup.powered then s.send (.hb s.heartbeat) else s)

/-- What a valid heartbeat makes of the role (Table 8-2, R202, R211, R325). From CTRL until the tick of h + 1 the second case of R202 is held off. -/
def State.hbRole (s : State) (h : Heartbeat) : State :=
  let leads := h.role = .alone || h.role = .active
  match s.role with
  | .alone =>
    if h.role = .standby then
      let s1 := s.toRole .active 0
      { s1 with pair := { s1.pair with await := [], bulkB := none } }
    else s
  | .active => if h.role = .standby then s else s.toRole .alone 0
  | .standby =>
    let gone := h.mstate = .safe || h.mstate = .recovery || h.mstate = .boot || h.role = .none || h.role = .fenced
    if gone && s.pair.handover.isNone then s.wouldPromote
    else if leads && s.pair.joining && h.cfgver != s.reg R.CFG.CURVER.CFGVER.off then s.joinFail
    else s
  | .fenced =>
    let c := s.get R.PAIR.ROLE.FCAUSE
    if leads && (c = 1 || c = 5 || (c = 2 && s.pair.unfenced)) then
      let s1 := s.toRole .standby 0
      { s1 with pair := { s1.pair with unfenced := false } }.joinBegin
    else s
  | .none => s

/-- HEARTBEAT_RECEIVE. -/
def execHeartbeatReceive (h : Heartbeat) (s : State) : Host.Outcome State Fault Refusal :=
  let p := s.pair
  let bulk := if s.role = .active ∧ h.flags.toNat / 16 % 2 = 0 then none else p.bulkB
  let p1 := { p with hb := some h, hbLive := true, epochIn := h.epoch.toNat, hbSincePact := true, hbSinceYield := true, bulkB := if s.role = .active then bulk else p.bulkB }
  s.whilePowered (({ s with pair := p1 }.set R.PAIR.ROLE.PROLE (roleCode h.role)).hbRole h |>.testCheck)

/-- HEARTBEAT_TIMEOUT: no valid heartbeat for 500 µs. -/
def execHeartbeatTimeout (s : State) : Host.Outcome State Fault Refusal :=
  let s1 := { s with pair := { s.pair with hbLive := false } }.flag R.PAIR.FLAG.HBLOSS
  s.whilePowered ((match s1.role with
    | .active => s1.toRole .alone 0
    | .standby => s1.wouldPromote
    | _ => s1).testCheck)

/-! ## PAIR_ACT_IN (R200, R203, R205) -/

/-- The cause of the yield that an accepted rise marks, if any (R203). -/
def State.yieldOnRise (s : State) : Option Nat :=
  if !s.leads ∨ s.get R.PAIR.ROLE.PACT = 0 then none
  else if s.pair.pactNs + 1000000 ≤ s.nowNs then some 1
  else if !s.pair.hbSincePact then some 5
  else match s.pair.hb with
    | some h => if h.slot.toNat < s.get R.ID.SLOT.CODE then some 1 else none
    | none => some 5

/-- PAIR_ACT_IN_ACCEPT: `firstNs` is the instant of the first sample of the run accepted. -/
def execPairActInAccept (level : Bool) (firstNs : Nat) (s : State) : Host.Outcome State Fault Refusal :=
  let old := s.get R.PAIR.ROLE.PACTIN
  let s1 := s.set R.PAIR.ROLE.PACTIN (b2n level)
  s.whilePowered (
    if old = b2n level then s1
    else if level then { s1 with pair := { s1.pair with yield := s1.pair.yield.or s1.yieldOnRise } }
    else if s1.pair.both then
      { s1.set R.PAIR.BOTHNS.NS (min (firstNs - s1.pair.pactNs) (2 ^ 32 - 1)) with pair := { s1.pair with both := false } }
    else s1)

/-- FENCED_PROMOTION_TIMER: PAIR_ACT_IN stayed released for SLOT × 5 ms with FENCED cause 5 and no heartbeat since the yield. -/
def execFencedPromotionTimer (s : State) : Host.Outcome State Fault Refusal :=
  s.whilePowered (if s.role = .fenced ∧ s.get R.PAIR.ROLE.FCAUSE = 5 ∧ !s.pair.hbSinceYield ∧ s.get R.PAIR.ROLE.PACTIN = 0 then
      s.promote s.pair.lastF
    else s)

/-- DUTIES_TAKE_AFTER_PROMOTION: 20 µs after the accepted fall, without RST#; the cards keep their configuration (Table 13-2). A CPCI
scan ends first. -/
def execDutiesTakeAfterPromotion (m66en : Bool) (s : State) : Host.Outcome State Fault Refusal :=
  s.whilePowered (if s.mstate = .run ∧ s.leads ∧ s.get R.PAIR.ROLE.PACTIN = 0 ∧ s.get R.BRG.STATUS.HOLD = 0 then
      ((s.set R.BRG.STATUS.HOLD 1).testCheck.set R.BRG.STATUS.CFGD 1).setBus m66en
    else s)

/-! ## The start decision (R199) -/

/-- The rules of R199: role and FENCED cause. -/
def State.startRole (s : State) : Role × Nat :=
  let own := s.get R.ID.SLOT.CODE
  match s.partner with
  | some h =>
    if h.slot.toNat = own then (.fenced, 3)
    else if s.get R.PAIR.ROLE.PACTIN = 1 ∨ h.role = .alone ∨ h.role = .active then (.standby, 0)
    else if h.role = .none ∧ h.mstate = .init then (if own < h.slot.toNat then .alone else .standby, 0)
    else (.alone, 0)
  | none => (if s.get R.PAIR.ROLE.PACTIN = 1 then .standby else .alone, 0)

/-- START_ROLE_DECISION: in the last second of INIT; ALONE takes the system-slot duties at the decision (Table 13-2), where M66EN is
sensed (R295). -/
def execStartRoleDecision (m66en : Bool) (s : State) : Host.Outcome State Fault Refusal :=
  s.whilePowered (
    if s.mstate ≠ .init ∨ !s.boot.program ∨ s.boot.role.isSome then s
    else
      let d := s.startRole
      let s1 := { s with boot := { s.boot with role := some d } }
      let s2 := if d.2 = 3 then s1.flag R.PAIR.FLAG.SLOTDUP else s1
      if d.1 = .alone then (s2.takeDuties m66en).testCheck else s2)

/-- The decided role is taken at the tick that begins RUN. -/
def State.takeStartRole (s : State) : State :=
  match s.boot.role with
  | none => s
  | some (.alone, _) => (s.assertPact.raiseEpoch).toRole .alone 0
  | some (.standby, _) => (s.discardImage.toRole .standby 0).joinBegin
  | some (r, c) => (s.toRole r c).pairRecord 3

/-! ## The tick (R203, R204, R208, R211) -/

/-- A yield with `cause` (R203): no release, outputs de-energised, duties and PAIR_ACT given up, FENCED. -/
def State.yieldNow (s : State) (cause : Nat) : State :=
  let s1 := s.dropWork.outputsOff.giveUpDuties
  let s2 := (s1.set R.PAIR.ROLE.PACT 0).toRole .fenced cause
  let s3 := { s2 with
    xch := { s2.xch with arm := false }
    pair := { s2.pair with yield := none, handover := none, hbSinceYield := false, both := false, resume := none } }
  if cause = 2 then s3.pairRecord 3
  else ((s3.flag R.PAIR.FLAG.YIELD).incSat R.PAIR.COUNTS.YIELDS).pairRecord 2

/-- The frame at whose COMMIT the cycle of class `k` released at `r` is complete by the schedule (R44, R45). -/
def cycleEnd (p : Program) (k r : Nat) : Nat :=
  (tasksOf p k).foldl (fun m t =>
    (List.range (2 ^ perExp p k)).foldl (fun m i =>
      if p.segs.any fun g => g.task = t.id && g.last && g.frame = (r + i) % max p.hyper 1 then max m (r + i) else m) m) r

/-- The cycles of class `k` released before `f` and not committed by frame `a` (R204). -/
def lostCycles (p : Program) (k f a : Nat) : Nat :=
  let n := 2 ^ perExp p k
  let from' := a + 1 - n
  ((List.range (f - from')).filter fun i =>
    let r := from' + i
    perEn p k && (r + n - perPhase p k) % n = 0 && decide (a < cycleEnd p k r)).length

/-- The exchange at the first tick of a promoted module, frame `f`: the classes whose switch frames came in the skipped frames, or come now, have switched
before this tick's release, as at the COMMIT of frame `f` − 1 that the promotion passed over (R177, R184). -/
def State.resumeExch (s : State) (f : Nat) : State :=
  { State.exchCommit { s with gong := { s.gong with frame := f - 1 } } f with gong := s.gong }

/-- The first tick of a promoted module (R204). A count that SKIPF cannot hold leaves it undefined. -/
def State.resumeTick (s : State) : State :=
  match s.pair.resume with
  | none => s
  | some a =>
    let f := s.gong.frame
    let s1 := State.resumeExch { s with pair := { s.pair with resume := none } } f
    let s2 := (List.range 8).foldl (fun t k =>
      match t.progOf k with
      | some p => t.incSat (R.TASK.SKIPTOT.COUNT k) (lostCycles p k f a)
      | none => t) s1
    let n := f - 1 - a
    if n < 256 then s2.set R.PAIR.SKIPF.FRAMES n
    else let (v, s3) := s2.fresh 8; s3.set R.PAIR.SKIPF.FRAMES v.toNat

/-- The pair function at the tick of the present frame: a yield or handover that is due, the standby's own currency, a planned
promotion, and the resumption of a promotion. -/
def State.pairTick (s : State) : State :=
  let f := s.gong.frame
  match s.role with
  | .alone | .active =>
    match s.pair.yield, s.pair.handover with
    | some c, _ => s.yieldNow c
    | none, some h => if h ≤ f then s.yieldNow 1 else s.resumeTick
    | none, none => s.resumeTick
  | .standby =>
    let s1 := if s.get R.PAIR.ROLE.CUR = 1 ∧ s.ackf + 2 < f then s.joinBegin else s
    match s1.pair.handover with
    | some h =>
      if f ≤ h then s1
      else if s1.get R.PAIR.ROLE.CUR = 1 ∧ h ≤ s1.ackf + 1 then (s1.promote (h - 1)).resumeTick
      else { s1 with pair := { s1.pair with handover := none } }
    | none => s1
  | _ => s

/-! ## The per-frame copy (R207, R208) -/

/-- The bytes of the report under way beyond its exchange registers (Table 7-3). -/
def repBytes (xseq : W32) (r : ExchRep) : List Byte :=
  leBytes 4 xseq.toNat ++ leBytes 1 (b2n r.forceOk) ++ leBytes 1 r.lcs ++ leBytes 1 (b2n r.still) ++
  ([r.matched, r.newInst, r.removed, r.kindChg, r.adopted, r.newSig, r.delSig, r.fkept, r.fdrop].flatMap fun n => leBytes 4 n) ++
  (r.list.take 4096).flatMap fun e => leBytes 4 (2 ^ 28 * e.1 + e.2.1 % 2 ^ 25) ++ leBytes 4 e.2.2.toNat

/-- The items on the link that an entry of a copy makes: one, but the exchange registers (XSTAT, XARMF and 8 switch frames, 44 bytes) and the report under way
take as many control items of 16 bytes as their bytes need (DESIGN CHOICE, assumption 17: R207 gives the size of a control item and not what each holds). -/
def itemParts : CopyItem → Nat
  | .exch _ _ swf => (12 + 4 * swf.length + 15) / 16
  | .exchRep q r => ((repBytes q r).length + 15) / 16
  | _ => 1

/-- The size of an entry of a copy with its tags (R207, R193). -/
def itemSize : CopyItem → Nat
  | .sig _ _ v => 8 + (v.length + 7) / 8 * 8
  | .slot _ _ _ => 40
  | i => 24 * itemParts i

/-- ITEMS of a copy (R207). -/
def itemsCount (l : List CopyItem) : Nat := l.foldl (fun n i => n + itemParts i) 0

/-- BYTES of a copy (R207). -/
def itemsSize (l : List CopyItem) : Nat := l.foldl (fun n i => n + itemSize i) 0

/-- A slot as eight words. -/
def slotWords (s : Slot) : List W32 :=
  [s.w0, s.inst, s.p.truncate 32, (s.p >>> 32).truncate 32, s.e.truncate 32, (s.e >>> 32).truncate 32, s.l.truncate 32,
   (s.l >>> 32).truncate 32]

/-- A slot from eight words. -/
def wordsSlot (l : List W32) (adopt : Bool) : Slot :=
  let w (i : Nat) : W32 := l.getD i 0
  ⟨w 0, w 1, w 3 ++ w 2, w 5 ++ w 4, w 7 ++ w 6, adopt⟩

/-- The item of slot `k` in a channel. -/
def slotItem (c : Chan) (k : Nat) : List CopyItem :=
  match tblFind c.slots k with
  | some v => [.slot k (slotWords v) v.adopt]
  | none => []

/-- A force table entry as four words (Table 3-8). -/
def forceItemWords (f : ForceEnt) : List W32 := [BitVec.ofNat 32 (2 ^ 31 + f.id), f.frame, f.val.truncate 32, (f.val >>> 32).truncate 32]

/-- The force table with entry `i` from its words. -/
def putForce (t : List ForceEnt) (i : Nat) (l : List W32) : List ForceEnt :=
  let w (i : Nat) : W32 := l.getD i 0
  let e : ForceEnt := ⟨fieldOf (w 0) 0 25, w 1, w 3 ++ w 2⟩
  if i < t.length then t.set i e else t ++ [e]

/-- The items of one signal of HOME 0, 4 or 5 in the release channel. -/
def State.sigItem (s : State) (id : Nat) : List CopyItem :=
  match s.dirEnt id with
  | some e => if e.type != 0 && (e.home = 0 || e.home = 4 || e.home = 5) then [.sig id e.w3 (s.valueOf e)] else []
  | none => []

/-- The items of the force table. -/
def State.forceItems (s : State) : List CopyItem :=
  (((List.range s.forces.length).zip s.forces).map fun p => CopyItem.force p.1 (forceItemWords p.2)) ++ [.forceCount s.forces.length]

/-- The items of the task state, the sequence counters and the epoch. -/
def State.controlItems (s : State) : List CopyItem :=
  ((List.finRange 8).map fun k => CopyItem.skipRun k (s.get (R.TASK.SKIPRUN.RUN k.val))) ++ [.limHit (s.get R.TASK.LIMHIT.CLASS)] ++
  (s.net.pubSt.map fun p => CopyItem.ssc p.1 p.2.ssc) ++ [.epoch (s.reg R.PAIR.EPOCH.fld.off)]

/-- The report under way with the exchange's number, then the exchange state and switch frames (R184, R186). -/
def State.exchItems (s : State) : List CopyItem :=
  [.exchRep (s.reg R.TASK.XSEQ.SEQ.off) s.xch.rep,
   .exch (s.reg R.TASK.XSTAT.all.off) (s.getPair R.TASK.XARMF_LO.FRAME R.TASK.XARMF_HI.FRAME) s.xch.swf.toList]

/-- The resync state of R158 as bulk items: both banks, directory with values, slots, and what instances between segments hold: snapshots, context
records, scratch windows. -/
def State.resyncItems (s : State) : List CopyItem :=
  let c := s.ch s.leadCh
  (s.prog.map (CopyItem.image false)).toList ++ (s.shadow.map (CopyItem.image true)).toList ++
  (c.dir.map fun p => CopyItem.dirent p.1 p.2.w0 p.2.w1 p.2.w2 p.2.w3 (s.valueOf p.2)) ++
  c.slots.flatMap (fun p => slotItem c p.1) ++
  c.insts.map fun p => CopyItem.context p.1 ((p.2.ctx.map ctxWords).getD []) p.2.scratch (p.2.snap.map fun v => (v.1, v.2.q, v.2.val))

/-- The bulk data of a join (R210): the exchange as it stands, the resync state, the force table, the control block. -/
def State.bulkItems (s : State) : List CopyItem := s.exchItems ++ s.resyncItems ++ s.forceItems ++ s.controlItems

/-- FILLING, READY and FAILED are the standby's own fill (R184). -/
def State.ownFill (s : State) : Bool := [1, 2, 3].contains s.xstate

/-- The partner's exchange state `x` does not count here: it counts from ARMED on, and while an exchange goes on here; its DONE of an exchange before does not
end the standby's own fill for the next. -/
def State.exchApart (s : State) (x : W32) : Bool :=
  (decide (fieldOf x 0 3 < 4) && !([4, 5, 6].contains s.xstate)) || (fieldOf x 0 3 = 7 && s.ownFill)

/-- ST.FIRST is 1 again in the tasks of the classes of a mask: an exchange has switched them (Table 4-2, R177). -/
def State.firstAgain (s : State) (mask : Nat) : State :=
  let tasks := ([s.bank0, s.bank1].filterMap id).flatMap (·.tasks)
  let anew (t : Nat) : Bool := tasks.any fun d => d.id = t && mask / 2 ^ d.cls.val % 2 = 1
  { s with seqr := { s.seqr with done := s.seqr.done.filter fun t => !anew t } }

/-- The exchange registers of a copy or of bulk data. FORCEOK ends with the exchange (R183). Where the state becomes DONE by the copy, the standby rewrites no
slot record, writes no report and keeps its own staging, and PERSIST has no effect here (DESIGN CHOICE, assumption 23: R185 speaks of the steward and does
not say whose). -/
def State.takeExch (s : State) (x : W32) (armf : Nat) (swf : List Nat) : State :=
  if s.exchApart x then s
  else
    let s0 := s.firstAgain (fieldOf x 16 8 &&& (0xFF ^^^ s.get R.TASK.XSTAT.SWMASK))
    let s1 := (s0.setReg R.TASK.XSTAT.all.off (x &&& 0xFFFF0F07)).setPair R.TASK.XARMF_LO.FRAME R.TASK.XARMF_HI.FRAME armf
    let s2 := { s1 with xch := { s1.xch with swf := Vector.ofFn fun k => swf.getD k.val 0 } }
    if s2.xstate = 0 ∨ s2.xstate = 7 then s2.set R.TASK.EXCH.FORCEOK 0 else s2

/-- The report under way of exchange `q`. With a new number no class has switched yet in the exchange (R174, R177). -/
def State.takeRep (s : State) (q : W32) (r : ExchRep) : State :=
  let s1 := if q.toNat = s.get R.TASK.XSEQ.SEQ then s else s.set R.TASK.XSTAT.SWMASK 0
  (s1.set R.TASK.XSEQ.SEQ q.toNat).setRep r

/-- The exchange state of a copy takes effect on the standby (R184): signals, banks, tables. -/
def State.applyExch (s : State) (n : Nat) (x : W32) (armf : Nat) (swf : List Nat) : State :=
  let s2 := s.takeExch x armf swf
  match s2.shadow with
  | some b =>
    let s3 := if s.get R.TASK.XSTAT.SWMASK = 0 ∧ s2.get R.TASK.XSTAT.SWMASK ≠ 0 then
        { (State.enterSignals { s2 with gong := { s2.gong with frame := n } } b) with gong := s2.gong } else s2
    if !s.exchApart x ∧ [2, 4, 5].contains s.xstate ∧ 6 ≤ s3.xstate then
      (({ (((s3.deleteSignals b).loadTables b).showUse b) with act := !s3.act }.showProgram).set R.TASK.PVER.fld b.pver.toNat).showShadow
    else s3
  | none => s2

/-- The quality and the number with which a loader folds an item (R170, R208). -/
def itemTag : CopyItem → BitVec 6 × Nat
  | .sig id w3 _ => (BitVec.ofNat 6 (fieldOf w3 0 6), id)
  | .dirent id _ _ _ w3 _ => (BitVec.ofNat 6 (fieldOf w3 0 6), id)
  | .slot i _ _ | .force i _ | .ssc i _ | .context i _ _ _ => (0, i)
  | .skipRun k _ => (0, k.val)
  | .forceCount _ | .limHit _ | .exch _ _ _ | .exchRep _ _ | .epoch _ | .image _ _ => (0, 0)

/-- The bytes of an item as a loader receives them. -/
def itemBytes : CopyItem → List Byte
  | .sig _ _ v => v
  | .slot _ ws m => slotBytes (wordsSlot ws m)
  | .force _ ws => ws.flatMap fun w => leBytes 4 w.toNat
  | .forceCount k | .skipRun _ k | .limHit k => leBytes 8 k
  | .exch x armf swf => leBytes 4 x.toNat ++ leBytes 8 armf ++ swf.flatMap fun f => leBytes 4 f
  | .exchRep q r => repBytes q r
  | .ssc _ v | .epoch v => leBytes 4 v.toNat
  | .dirent _ w0 w1 w2 w3 v => leBytes 4 w0.toNat ++ leBytes 4 w1.toNat ++ leBytes 4 w2.toNat ++ leBytes 4 w3.toNat ++ v
  | .context _ ws _ _ => ws.flatMap fun w => leBytes 8 w.toNat
  | .image _ _ => []

/-- The loaders fold what they received of an item into the channels' input signatures, so that the channels vote it (R170, R208); a version item by
item. -/
def State.foldItem (s : State) (i : CopyItem) : State :=
  match i with
  | .image shadow p => if shadow && s.ownFill then s else s.foldVersion (shadow ^^ s.act) p
  | _ => s.eachCh s.follows fun ch c => c.foldInput s.gong.frame (itemInput (itemTag i).1 (itemTag i).2 (s.receivedBytes ch (itemBytes i)))

/-- The entry of a signal as bulk data bring it. The own entry of a signal of HOME 1 to 3 keeps its value, which is current from the standby's own
sources (R197); one that the own version does not define takes what the bulk data hold. -/
def putDirent (d : Tbl DirEnt) (id : Nat) (new : DirEnt) : Tbl DirEnt :=
  tblPut d id (match tblFind d id with
    | some e => if e.type != 0 && e.home = new.home && decide (1 ≤ e.home) && decide (e.home ≤ 3) then { new with w3 := e.w3, val := e.val } else new
    | none => new)

/-- A value of HOME 4 is in the backplane exchange area. -/
def State.putHome4 (s : State) (e : DirEnt) (v : List Byte) : State :=
  if e.home = 4 then { s with smem := memPutBytes s.smem (0x180000000 + e.w1.toNat) v } else s

/-- A channel as the bulk image finds it (R210, R158): of the directory only the entries of HOME 1 to 3 that version `p` defines as the channel has them
stay, until the image's own entry comes; everything else, and every slot, comes with the image. -/
def Chan.forImage (c : Chan) (p : Program) : Chan :=
  { c with
    slots := []
    dir := c.dir.filter fun e => e.2.type != 0 && decide (1 ≤ e.2.home) && decide (e.2.home ≤ 3) &&
      (match sigOf p e.1 with
        | some d => decide (d.home = e.2.home)
        | none => false) }

/-- A version in the active bank, with its tables (R210). -/
def State.takeVersion (s : State) (p : Program) : State :=
  let s1 := (((s.setActive (some p)).loadTables p).showUse p).mapCh s.follows fun c => c.forImage p
  (if s.slotProgram s.actSlot ≠ some p ∧ s.slotProgram s.idleSlot = some p then s1.showProgram else s1).set R.TASK.PVER.fld p.pver.toNat

/-- What an item of the copy of frame `n` changes. The partner's shadow version does not take the place of one that this standby has filled itself, while no
exchange is armed (R184; DEDUCED, assumption 17). Each channel takes what its loader received of a signal or a slot; the rest is the module's. A standby has no
use for what instances hold and keeps none of it. -/
def State.takeItem (s : State) (n : Nat) : CopyItem → State
  | .sig id w3 v =>
    let s1 := s.eachCh s.follows fun ch c =>
      let r := receivedSig (s.receivedBytes ch) id w3 v
      { c with dir := tblMod c.dir id fun e => { e with w3 := r.1, val := r.2 } }
    match s.dirEnt id with
    | some e => s1.putHome4 e v
    | none => s1
  | .slot i ws m => s.eachCh s.follows fun ch c =>
      { c with slots := tblPut c.slots i (bytesSlot (s.receivedBytes ch (slotBytes (wordsSlot ws m))) m) }
  | .force i ws => s.setForces (putForce s.forces i ws)
  | .forceCount k => s.setForces (s.forces.take k)
  | .skipRun k v => s.set (R.TASK.SKIPRUN.RUN k.val) v
  | .limHit m => s.set R.TASK.LIMHIT.CLASS m
  | .exch x armf swf => s.applyExch n x armf swf
  | .exchRep q r => s.takeRep q r
  | .ssc i v => s.setPub i { s.pubS i with ssc := v }
  | .epoch v => s.set R.PAIR.EPOCH.fld v.toNat
  | .image shadow p => if !shadow then s.takeVersion p else if s.ownFill then s else (s.setShadow (some p)).showShadow
  | .dirent id w0 w1 w2 w3 v =>
    let s1 := s.eachCh s.follows fun ch c =>
      { c with dir := putDirent c.dir id (receivedDirent (s.receivedBytes ch) ⟨w0, w1, w2, w3, v⟩) }
    s1.putHome4 ⟨w0, w1, w2, w3, v⟩ v
  | .context _ _ _ _ => s

/-- Applies one item of the copy of frame `n` through the loaders (R208). -/
def State.applyItem (s : State) (n : Nat) (i : CopyItem) : State := (s.foldItem i).takeItem n i

/-- Applies one item of the bulk data of frame `b` (R210). They hold both versions, the directory and the slots as the exchange has left them, so of the
exchange itself only its registers are taken, before the versions. -/
def State.applyBulk (s : State) (b : Nat) (i : CopyItem) : State :=
  match i with
  | .exch x armf swf => (s.foldItem i).takeExch x armf swf
  | _ => s.applyItem b i

/-- Applies items in order. -/
def State.applyItems (s : State) (n : Nat) (l : List CopyItem) : State := l.foldl (fun t i => t.applyItem n i) s

/-- The items of frame `n` that wait. -/
def State.heldOf (s : State) (n : Nat) : List CopyItem := (s.pair.held.filter fun h => h.1 = n).flatMap (·.2)

/-- The items of frame `n` no longer wait. -/
def State.dropHeld (s : State) (n : Nat) : State := { s with pair := { s.pair with held := s.pair.held.filter fun h => h.1 != n } }

/-- GEYSER_DATA_RECEIVE: the items wait for the END of their frame, so that a promotion carries on from the last acknowledged frame (R204,
R208). -/
def execGeyserDataReceive (n : Nat) (items : List CopyItem) (s : State) : Host.Outcome State Fault Refusal :=
  s.whilePowered (if s.role ≠ .standby then s else { s with pair := { s.pair with held := s.pair.held ++ [(n, items)] } })

/-- Frame `n`, whose tick was at `ns`, is the latest committed frame: its retain record is due; one still due is passed over (R194). -/
def State.retDue (s : State) (n ns : Nat) : State :=
  let s1 := if s.ret.due.isSome then s.incSat R.TASK.RETSTAT.SKIPPED else s
  let s2 := if s.get R.TASK.RETSTAT.VALID = 1 then
      s1.set R.TASK.RETSTAT.LAG (min 255 (n - s.getPair R.TASK.RETF_LO.FRAME R.TASK.RETF_HI.FRAME))
    else s1
  { s2 with ret := { s2.ret with due := some (s.recordOf n ns) } }

/-- The copy digest that most of the included channels hold (R155, R208). -/
def State.agreedCopy (s : State) : Option (BitVec 256) :=
  let ds := s.incl.map fun ch => s.copyDigest (s.ch ch)
  ds.find? fun d => decide (ds.length < 2 * (ds.filter fun x => x = d).length)

/-- The standby's agreed copy digest of frame `n` equals the one in the END record, or not (R208 to R210). An acknowledgement of an older frame than the
tick before this one makes the standby not yet current (R208). -/
def State.judgeCopy (s : State) (e : CopyEnd) : State :=
  if s.agreedCopy = some e.digest then
    let s1 := (s.send (.ack e.n 0)).setPair R.PAIR.ACKF_LO.FRAME R.PAIR.ACKF_HI.FRAME e.n
    let s2 := s1.set R.PAIR.EPOCH.fld e.epoch.toNat
    let s3 := if s.gong.frame ≤ e.n + 1 then { (s2.set R.PAIR.ROLE.CUR 1) with pair := { s2.pair with joining := false } } else s2
    s3.retDue e.n (s.gong.tick - (s.gong.frame - e.n) * s.pNs)
  else
    let s1 := (s.send (.ack e.n 1)).flag R.PAIR.FLAG.DIGMIS
    if s.pair.joining then s1.joinFail else s1.joinBegin

/-- The END record of a copy: where all its items arrived they are applied and judged. Before BULKEND of a join the record waits with the items. -/
def State.endCopy (s : State) (e : CopyEnd) : State :=
  if s.role ≠ .standby then s
  else if s.pair.joining && !s.pair.bulkEnd then { s with pair := { s.pair with ended := s.pair.ended ++ [e] } }
  else
    let l := s.heldOf e.n
    let s0 := s.dropHeld e.n
    if itemsCount l = e.items ∧ itemsSize l = e.bytes then (s0.applyItems e.n l).judgeCopy e else s0

/-- GEYSER_END_RECEIVE: ACK has status 0 where all items of frame n arrived and the copy digests are equal, status 1 on a mismatch (R208, R209,
R210). -/
def execGeyserEndReceive (n items bytes : Nat) (epoch : W32) (_slice : Nat) (digest : BitVec 256) (s : State) :
    Host.Outcome State Fault Refusal := s.whilePowered (s.endCopy ⟨n, items, bytes, epoch, digest⟩)

/-- The active module no longer waits for the acknowledgement of frame `n`. -/
def State.noAwait (s : State) (n : Nat) : State := { s with pair := { s.pair with await := s.pair.await.erase n } }

/-- The copy of frame `n` failed. Where BULKEND went out before it, the join has failed or the partner joins anew, and it gets new bulk data (R210); a
copy that ends before BULKEND is not acknowledged yet. -/
def State.bulkAgain (s : State) (n : Nat) : State :=
  match s.pair.bulkE with
  | some e => if e < n then { s with pair := { s.pair with bulkB := none, bulkE := none } } else s
  | none => s

/-- The copy of frame `n` after the bulk image gave another digest: the partner joins anew with new bulk data. -/
def State.bulkWrong (s : State) (n : Nat) : State :=
  match s.pair.bulkB with
  | some b => if b < n then { s with pair := { s.pair with bulkB := none, bulkE := none } } else s
  | none => s

/-- GEYSER_ACK_RECEIVE: an acknowledgement counts before the tick of frame n + 2 (R208); a digest mismatch is shown whenever it is heard
(R209). -/
def execGeyserAckReceive (n status : Nat) (s : State) : Host.Outcome State Fault Refusal :=
  s.whilePowered (
    if s.role ≠ .active then s
    else if status = 1 then (((s.noAwait n).bulkWrong n).flag R.PAIR.FLAG.DIGMIS).set R.PAIR.ROLE.CUR 0
    else if !s.pair.await.contains n ∨ n + 2 ≤ s.gong.frame then s
    else ((s.noAwait n).setPair R.PAIR.ACKF_LO.FRAME R.PAIR.ACKF_HI.FRAME n).set R.PAIR.ROLE.CUR 1)

/-- The partner's heartbeat reports an acknowledgement of frame `n` or a later one (Table 8-5, ACKF). -/
def State.heardAck (s : State) (n : Nat) : Bool :=
  match s.pair.hb with
  | some h => decide (n ≤ h.ackf)
  | none => false

/-- ACK_MISS: the copy of frame n is not acknowledged at the tick of n + 2: ACKMISS on the active module; the standby, unless the partner has
reported the acknowledgement, joins again, and before it is current its join fails (R209, R210). -/
def execAckMiss (n : Nat) (s : State) : Host.Outcome State Fault Refusal :=
  s.whilePowered (
    if s.gong.frame < n + 2 then s
    else match s.role with
      | .active =>
        if s.pair.await.contains n then (((s.noAwait n).bulkAgain n).flag R.PAIR.FLAG.ACKMISS).set R.PAIR.ROLE.CUR 0 else s
      | .standby =>
        if s.heardAck n then s
        else if s.pair.joining then (if s.pair.bulkEnd then s.joinFail else s)
        else s.joinBegin
      | _ => s)

/-- COPYFMT of the firmware that runs (R344): that of the slot that this start loaded. -/
def State.copyfmt (s : State) : Nat := s.boot.copyfmt

/-- BULK_RECEIVE: `mib` MiB received so far of `total`. Another COPYFMT fails the join at once (R344). -/
def execBulkReceive (b copyfmt total mib : Nat) (items : List CopyItem) (s : State) : Host.Outcome State Fault Refusal :=
  s.whilePowered (
    if s.role ≠ .standby ∨ !s.pair.joining ∨ s.pair.bulkEnd then s
    else if s.pair.bulkB.isNone ∧ copyfmt ≠ s.copyfmt then s.joinFail
    else
      let s1 := (s.set R.PAIR.JOIN.TOTAL total).set R.PAIR.JOIN.DONE mib
      items.foldl (fun t i => t.applyBulk b i) { s1 with pair := { s1.pair with bulkB := some b } })

/-- BULKEND_RECEIVE: the copies of frames after b that have ended are applied and judged in order; one still arriving goes on waiting for its END. -/
def execBulkendReceive (b : Nat) (s : State) : Host.Outcome State Fault Refusal :=
  s.whilePowered (
    if s.role ≠ .standby ∨ !s.pair.joining ∨ s.pair.bulkB ≠ some b then s
    else
      let held := s.pair.held.filter fun h => decide (b < h.1)
      let s1 := { s with pair := { s.pair with bulkEnd := true, held := held, ended := [] } }
      (s.pair.ended.filter fun e => decide (b < e.n)).foldl State.endCopy s1)

/-- CTRL_RECEIVE: the handover frame of a planned switchover (R211). -/
def execCtrlReceive (h : Nat) (s : State) : Host.Outcome State Fault Refusal :=
  s.whilePowered (if s.role = .standby then { s with pair := { s.pair with handover := some h } } else s)

/-- The LANES bit and the flag of a lane. -/
def laneFlag (lane : Fin 2) : Fld := if lane = 0 then R.PAIR.FLAG.LANE0 else R.PAIR.FLAG.LANE1

/-- GEYSER_LANE_LOSS (R209). -/
def execGeyserLaneLoss (lane : Fin 2) (s : State) : Host.Outcome State Fault Refusal :=
  s.whilePowered ((s.putBit R.PAIR.ROLE.LANES lane.val false).flag (laneFlag lane))

/-- GEYSER_LANE_UP: the flag stays until it is cleared. -/
def execGeyserLaneUp (lane : Fin 2) (s : State) : Host.Outcome State Fault Refusal := s.whilePowered (s.putBit R.PAIR.ROLE.LANES lane.val true)

/-! ## Commands (Table 8-11) -/

/-- A PAIR command. -/
def State.pairCommand (s : State) (r : Req) (code why : Nat) (act : State → State) : State :=
  s.command r R.PAIR.CMD.CODE R.PAIR.CMDCNT.COUNT R.PAIR.REASON.CODE code why act

/-- SWITCHOVER: the handover frame is two frames after the tick that follows. -/
def execSwitchover (r : Req) (s : State) : Host.Outcome State Fault Refusal :=
  s.whilePowered (s.pairCommand r 1 (firstReason [(2, s.mstate != .run), (3, s.role != .active), (4, s.get R.PAIR.ROLE.CUR = 0)]) fun t =>
    { t.send (.ctrl (t.gong.frame + 3)) with pair := { t.pair with handover := some (t.gong.frame + 3) } })

/-- FENCE: at the next tick on ALONE or ACTIVE, at once on STANDBY. Where a yield of cause 1 or 5 falls due at that same tick, FENCED shows cause 2
(DESIGN CHOICE, assumption 16: the spec does not say which is shown). -/
def execFence (r : Req) (s : State) : Host.Outcome State Fault Refusal :=
  s.whilePowered (s.pairCommand r 2 (firstReason [(2, s.mstate != .run), (3, s.role = .fenced), (5, s.role = .alone && !s.depot)]) fun t =>
    if t.leads then { t with pair := { t.pair with yield := some 2 } }
    else
      let t1 := t.toRole .fenced 2
      { t1 with pair := { t1.pair with joining := false, handover := none } }.pairRecord 3)

/-- UNFENCE: ends cause 2; a heartbeat that reports ALONE or ACTIVE makes the module STANDBY. -/
def execUnfence (r : Req) (s : State) : Host.Outcome State Fault Refusal :=
  s.whilePowered (s.pairCommand r 3 (firstReason [(2, s.mstate != .run), (3, s.role != .fenced), (5, s.get R.PAIR.ROLE.FCAUSE != 2)]) fun t =>
    { t with pair := { t.pair with unfenced := true } })

end Sys2Proof.Machine
end

