-- ==== Sys2Proof/Machine/Retain.lean ====
section
/-! DEFINITION. The retain record (07, R191 to R195), its choice at a warm restart, timers and guard proofs restored (R188 to R190), and
Solfatara's last words (16, R357, R364). -/

namespace Sys2Proof.Machine

/-! ## The areas (R191, R195) -/

/-- Buffer `n` of an area. -/
def RetArea.buf (a : RetArea) (n : Nat) : Option RetBuf := if n = 0 then a.b0 else a.b1

/-- The area with buffer `n` replaced. -/
def RetArea.put (a : RetArea) (n : Nat) (b : Option RetBuf) : RetArea := if n = 0 then { a with b0 := b } else { a with b1 := b }

/-- The record in buffer `n` that at least two areas hold alike. -/
def RetSt.agreed (r : RetSt) (n : Nat) : Option RetBuf :=
  let l := ([r.a, r.b, r.c] : List RetArea).filterMap fun a => a.buf n
  l.find? fun x => decide (2 ≤ (l.filter fun y => y = x).length)

/-- The record of the highest FRAME that at least two areas hold alike, else that of the other buffer (R195). -/
def RetSt.newest (r : RetSt) : Option RetBuf :=
  match r.agreed 0, r.agreed 1 with
  | some x, some y => if x.frame < y.frame then some y else some x
  | some x, none => some x
  | none, y => y

/-- The record a warm restart restores: of the active program and configuration version, without XCH (R21, R185). -/
def State.chosenRec (s : State) (pver cfgver : W32) : Option RetBuf :=
  match s.ret.newest with
  | some b => if b.pver = pver ∧ b.cfgver = cfgver ∧ !b.xch then some b else none
  | none => none

/-! ## Writing (R193, R194) -/

/-- The bytes of a record's body that its buffer did not hold before. -/
def retChange (old : Option RetBuf) (b : RetBuf) : Nat :=
  let was := match old with
    | some o => o.body
    | none => []
  (b.body.filter fun e => !was.contains e).foldl (fun n e => n + (retEntBytes e).length) 0

/-- Record n, of the contents `r`, is sealed in buffer n mod 2 of the areas of A, B and C. -/
def State.sealRec (s : State) (r : RetBuf) : State :=
  let b := { r with seq := BitVec.ofNat 32 (s.ret.seq + 1) }
  let n := b.seq.toNat % 2
  let s1 := { s with
    ret := { s.ret with
      a := s.ret.a.put n (some b), b := s.ret.b.put n (some b), c := s.ret.c.put n (some b), seq := s.ret.seq + 1, due := none } }
  let s2 := ((s1.set R.TASK.RETSTAT.VALID 1).set R.TASK.RETSTAT.XCH (b2n b.xch)).set R.TASK.RETSTAT.LAG 0
  let s3 := s2.setPair R.TASK.RETF_LO.FRAME R.TASK.RETF_HI.FRAME b.frame
  s3.set R.TASK.RETPEAK.BYTES (max (s.get R.TASK.RETPEAK.BYTES) (retChange (s.ret.a.buf n) b))

/-- RETAIN_RECORD_WRITE: the record of the latest committed frame, where one is due; a module in FENCED writes none. -/
def execRetainRecordWrite (s : State) : Host.Outcome State Fault Refusal :=
  s.whilePowered (match s.ret.due with
    | some r => if s.mstate = .run ∧ s.role ≠ .fenced then s.sealRec r else s
    | none => s)

/-! ## Last words (R357, R364) -/

/-- RETAIN_BUFFER_CUTOFF: a record in flight that is wholly in the buffer is sealed, a partial one discarded; then the last-words record
is written. `op1Us` is the time until operation 1 completed, `mv10` the supply input then. A module in FENCED has no record in flight. Solfatara does this
on its own store, with or without the SoC (R357). -/
def execRetainBufferCutoff (placed : Bool) (op1Us mv10 : BitVec 16) (s : State) : Host.Outcome State Fault Refusal :=
  .next (match s.sup.words with
    | none => s
    | some w =>
      let (outcome, s1) := match s.ret.due with
        | none => (0, s)
        | some r => if w.role = 4 then (0, s) else if placed then (1, s.sealRec r) else (2, { s with ret := { s.ret with due := none } })
      let last := s1.get R.TASK.RETF_LO.FRAME
      let s2 := s1.fumarole 0x0F 0xF0 w.code (leBytes 1 w.mstate ++ leBytes 1 w.role ++ leBytes 1 0xF ++ leBytes 1 outcome ++
        leBytes 4 last ++ leBytes 2 op1Us.toNat ++ leBytes 2 mv10.toNat)
      { s2.setSupply mv10.toNat with sup := { s2.sup with words := none, supply := mv10.toNat } })

/-! ## Restoring (R188 to R190, R195) -/

/-- The signals and slots of a record written into a channel; the force table is empty after a start, so no restored word 3 shows FORCED
(Table 3-6, R76). -/
def restoreChan (c : Chan) (b : RetBuf) : Chan :=
  b.body.foldl (fun c e => match e with
    | .sig id w3 v => { c with dir := tblMod c.dir id fun d => { d with w3 := withField w3 1 1 0, val := v } }
    | .slot i v => { c with slots := tblMod c.slots i fun _ => v }) c

/-- A slot restored from a record that R188 and R189 treat: KIND 1 to 3. -/
def restoredTimer (v : Slot) : Bool := v.ret && decide (1 ≤ v.kind) && decide (v.kind ≤ 3)

/-- LASTF of a restored timer moves with the frames of the outage (R188). -/
def shiftTimer (fRun fRec : Nat) (v : Slot) : Slot := { v with l := BitVec.ofNat 64 (fRun + v.l.toNat - fRec) }

/-- WALL timers keep LASTF as recorded (R189). -/
def State.wallOk (s : State) (b : RetBuf) : Bool := b.tlock && decide (s.get R.TIME.STATUS.SYNC = 1) && decide (b.frame < s.gong.frame)

/-- Timers of the restored state at the first tick of RUN; whether a WALL timer fell back. -/
def State.restoreTimers (s : State) (b : RetBuf) : State :=
  let ok := s.wallOk b
  let back := !ok && (s.ch s.leadCh).slots.any fun p => restoredTimer p.2 && p.2.wall
  let s1 := s.mapCh s.follows fun c =>
    { c with slots := c.slots.map fun p => if restoredTimer p.2 && !(p.2.wall && ok) then (p.1, shiftTimer s.gong.frame b.frame p.2) else p }
  { s1 with boot := { s1.boot with wallFb := back } }

/-- Guard proofs that survive the warm restart (R190): none of an input with a fault present, which clears it (R221). -/
def State.restoreGuards (s : State) (b : RetBuf) : State :=
  if b.tlock ∧ s.get R.TIME.STATUS.SYNC = 1 ∧ s.gong.tick < b.wallNs + 10000000000 then
    forN 16 s fun t i => if t.retGuard i && b.proven.getLsbD i && (t.inFaults i).isEmpty then t.putBit R.SIO.ISTATE.PROVEN i true else t
  else s

end Sys2Proof.Machine
end

