-- ==== Sys2Proof/Machine/Vote.lean ====
section
/-! DEFINITION. The vote unit (06, R141, R146 to R149, R157 to R168): votes, exclusion, permanent exclusion, probation, degraded
operation, faults of delay registers and references, and the injection test. -/

namespace Sys2Proof.Machine

/-! ## Discards (R47 to R50, R99) -/

/-- Counts a discard of a task's instance in this frame: cause 1 running at CUT, 2 not started at CUT, 3 exception. The private SKIP
latch of its engine is set (Table 12-1). -/
def State.discard (s : State) (task cls eng cause : Nat) : State :=
  let cyc := tblMod s.seqr.cycles cls fun c => { c with left := c.left.filter fun t => t != task }
  let s1 := { s with seqr := { s.seqr with discs := s.seqr.discs ++ [(⟨cls, eng, cause⟩ : Discard)], cycles := cyc } }
  s1.evSetPrivate eng 9

/-- The module's part of an exception that the voted outcome holds (R99 to R101). -/
def State.raiseVoted (s : State) (task : Nat) (r : ExcRec) : State :=
  let s1 := s.fumarole 0x04 0x02 r.code
    (leBytes 1 r.cls ++ leBytes 1 r.eng ++ leBytes 1 r.seg ++ leBytes 4 r.pc.toNat ++ leBytes 5 r.info)
  let s2 := ((s1.putBit R.EVC.SLAT.EXC 0 true).evSetPrivate r.eng 8).discard task r.cls r.eng 3
  if r.code = 0x11 ∧ s2.get (R.TASK.PER.SAFE r.cls) = 1 then
    { s2 with seqr := { s2.seqr with fault := s2.seqr.fault ++ [r.cls] } }
  else s2

/-! ## Exclusion (R157, R160 to R162) -/

/-- LEAD, and the offsets from the leading channel (R141, Table 6-11). -/
def State.setLead (s : State) : State :=
  let s1 := s.set R.VOTE.MODE.LEAD (chNum s.leadCh)
  match s.leadCh with
  | .a => (s1.set R.VOTE.DELAY.DB 2).set R.VOTE.DELAY.DC 4
  | .b => (s1.set R.VOTE.DELAY.DB 0).set R.VOTE.DELAY.DC 2
  | .c => (s1.set R.VOTE.DELAY.DB 0).set R.VOTE.DELAY.DC 0

/-- A Fumarole record of the vote unit (type 0x06). -/
def State.voteRecord (s : State) (code : Nat) (ch : Ch) (d : Devn) : State :=
  s.fumarole 0x06 0x04 code (leBytes 1 (chNum ch) ++ leBytes 1 d.eng ++ leBytes 1 d.dreg)

/-- The deviation that VOTE.CAUSE shows of an excluded channel: DREG is 0 unless the cause is 5 (Table 6-8). -/
def State.shownDevn (s : State) (ch : Ch) : Devn :=
  let d := (s.chRec ch).devn.getD ⟨0, 0, 0⟩
  if s.get (R.VOTE.CAUSE.fld (chNum ch)) = 5 then d else { d with dreg := 0 }

/-- Excludes a channel permanently with reason 1 (limit) or 2 (persistent); the exclusion record keeps the cause that VOTE.CAUSE shows (R162). -/
def State.excludePerm (s : State) (ch : Ch) (d : Devn) (reason : Nat) : State :=
  let s1 := (s.set (R.VOTE.CHST.CH (chNum ch)) 4).set (R.VOTE.CAUSE.PERM (chNum ch)) reason
  let s2 := (s1.set R.VOTE.MODE.VMODE 2).flag R.VOTE.FLAG.PERM
  { s2 with vote := { s2.vote with excl := some ⟨ch, d, reason, s.get (R.VOTE.CAUSE.fld (chNum ch))⟩ } }.voteRecord 0x11 ch d

/-- Two deviations have the same kind on the same logical engine or delay register (R160); a channel has one delay register, whatever the
stage. -/
def Devn.alike (a b : Devn) : Bool := decide (a.cause = b.cause) && decide (a.eng = b.eng)

/-- The deviation that started an attempt was like this one. -/
def persists (was : Option Devn) (d : Devn) : Bool :=
  match was with
  | some w => w.alike d
  | none => false

/-- Excludes a channel: cause as VOTE.CAUSE records it, `d` the deviation with its kind (R157, R160). DREG shows a stage for cause 5 only (Table 6-8). -/
def State.exclude (s : State) (ch : Ch) (cause : Nat) (d : Devn) : State :=
  let n := chNum ch
  let r := s.chRec ch
  let was := r.devn
  let s1 := s.setCh ch (s.ch ch).halt
  let s2 := ((s1.putBit R.VOTE.MODE.INCL n false).set (R.VOTE.CHST.CH n) 1).set R.VOTE.MODE.VMODE 1
  let shown : Devn := if cause = 5 then d else { d with dreg := 0 }
  let s3 := ((s2.set (R.VOTE.CAUSE.fld n) cause).set (R.VOTE.CAUSE.ENGINE n) d.eng).set (R.VOTE.CAUSE.DREG n) shown.dreg
  let s4 := ((s3.flag R.VOTE.FLAG.EXCL).incSat (R.VOTE.EXCLCNT.COUNT n)).setLead
  let s5 := (s4.setChRec ch { r with devn := some d, readm := none, bulkK := none }).voteRecord cause ch shown
  let soon : Bool := match r.readm with
    | some f => decide (s.gong.frame ≤ f + 1000)
    | none => false
  if persists was d && (soon || cause = 6) then s5.excludePerm ch shown 2 else s5

/-- A mismatch of the channel in probation (R159, R160). -/
def State.failProbation (s : State) (ch : Ch) (d : Devn) : State :=
  ((s.exclude ch 6 d).flag R.VOTE.FLAG.PROBFAIL).set R.VOTE.MODE.PROBCH 0

/-! ## One vote (R147 to R149, Table 6-3) -/

/-- A voter's decision: outcome (0 AGREE, 1 MAJORITY, 2 NONE), the minority channel, the release channel, which is the lowest-lettered of
the set that agrees (R149), and the close that stands: none where the window of the majority stays open (R147). -/
structure Verdict where
  outcome : Nat
  minority : Option Ch
  release : Option Ch
  stands : Option Close
  deriving DecidableEq, Repr

/-- What a group holds of a channel. -/
def VGroup.of (g : VGroup) : Ch → Option Close
  | .a => g.a
  | .b => g.b
  | .c => g.c

/-- The decision over the included channels: an absent signature differs from every other (R147). -/
def decide3 (g : VGroup) (incl : List Ch) : Verdict :=
  match incl with
  | [x, y, z] =>
    match g.of x, g.of y, g.of z with
    | some p, some q, some r =>
      if p.sig = q.sig ∧ q.sig = r.sig then ⟨0, none, some x, some p⟩
      else if p.sig = q.sig then ⟨1, some z, some x, some p⟩
      else if p.sig = r.sig then ⟨1, some y, some x, some p⟩
      else if q.sig = r.sig then ⟨1, some x, some y, some q⟩
      else ⟨2, none, none, none⟩
    | some p, some q, none => if p.sig = q.sig then ⟨1, some z, some x, some p⟩ else ⟨2, none, none, none⟩
    | some p, none, some r => if p.sig = r.sig then ⟨1, some y, some x, some p⟩ else ⟨2, none, none, none⟩
    | none, some q, some r => if q.sig = r.sig then ⟨1, some x, some y, some q⟩ else ⟨2, none, none, none⟩
    | some _, none, none => ⟨1, some x, some y, none⟩
    | none, some _, none => ⟨1, some y, some x, none⟩
    | none, none, some _ => ⟨1, some z, some x, none⟩
    | none, none, none => ⟨0, none, some x, none⟩
  | [x, y] =>
    match g.of x, g.of y with
    | some p, some q => if p.sig = q.sig then ⟨0, none, some x, some p⟩ else ⟨2, none, none, none⟩
    | none, none => ⟨0, none, some x, none⟩
    | _, _ => ⟨2, none, none, none⟩
  | _ => ⟨2, none, none, none⟩

/-- The minority mask of a verdict. -/
def Verdict.mask (v : Verdict) : Nat :=
  match v.minority with
  | some ch => 2 ^ chNum ch
  | none => 0

/-- The number of a verdict's release channel; 0 where there is none. -/
def Verdict.releaseNum (v : Verdict) : Nat :=
  match v.release with
  | some ch => chNum ch
  | none => 0

/-- What a voter reports, outcome, minority mask and release channel: its decision, or what a fault makes it report (R149, R166). -/
def voterResult (v : Verdict) (say : Option VoterSays) : VoterSays := say.getD ⟨v.outcome, v.mask, v.releaseNum⟩

/-- The deviation that a group shows of a channel (Table 6-8): cause 1 to 4 and the logical engine where the path has one. -/
def deviation (g : VGroup) (ch : Ch) : Devn :=
  if g.path = 8 then ⟨3, 0, 0⟩
  else if g.path = 9 then ⟨4, 0, 0⟩
  else if (g.of ch).isNone then ⟨2, g.path, 0⟩
  else ⟨1, g.path, 0⟩

/-- The included channels whose close is the one that stands, as a mask. -/
def State.agreeing (s : State) (g : VGroup) (stands : Close) : Nat :=
  (s.incl.filter fun ch => match g.of ch with
    | some p => decide (p.sig = stands.sig)
    | none => false) |> fun l => maskOf (l.map chNum)

/-- Marks the held stores of this frame's window `seq` of an engine voted, in every included channel, with the channels that agreed (R150). -/
def State.markVoted (s : State) (path seq agree : Nat) : State :=
  if 8 ≤ path then s
  else s.mapCh s.included fun c =>
    let e : Eng := Fin.ofNat 8 path
    let k := c.eng[e]
    { c with eng := c.eng.set e { k with cbuf := k.cbuf.map fun x =>
        if x.win = seq ∧ x.frame = s.gong.frame then { x with voted := true, agree := agree } else x } }

/-- Counts a window voted; an input signature is none. -/
def State.countWindow (s : State) (path : Nat) : State :=
  if path = 8 then s
  else s.setPair R.VOTE.WINCNT_LO.COUNT R.VOTE.WINCNT_HI.COUNT (s.getPair R.VOTE.WINCNT_LO.COUNT R.VOTE.WINCNT_HI.COUNT + 1)

/-- The comparison of the channel in probation with the agreed close. -/
def State.checkProbation (s : State) (g : VGroup) (stands : Option Close) : State :=
  match [Ch.a, .b, .c].find? fun ch => s.chst ch = 3 with
  | none => s
  | some ch =>
    let same := match g.of ch, stands with
      | some p, some q => decide (p.sig = q.sig)
      | none, none => true
      | _, _ => false
    if same then s else s.failProbation ch (deviation g ch)

/-- One vote: both voters' results compared, then the outcome (R148, R149). A voter with a fault reports the same on every vote. -/
def State.voteGroup (s : State) (g : VGroup) : State :=
  let v := decide3 g s.incl
  let r1 := voterResult v s.vote.v1
  if r1 ≠ voterResult v s.vote.v2 then (s.flag R.VOTE.FLAG.XCHK).trigger 3 0
  else if r1.outcome = 2 then s.trigger (if s.incl.length = 3 then 1 else 2) g.path
  else
    let s1 := match v.stands with
      | some c =>
        let t := (s.markVoted g.path c.seq (s.agreeing g c)).countWindow g.path
        match c.exc with
        | some r => t.raiseVoted c.task r
        | none => t
      | none => s
    let s2 := s1.checkProbation g v.stands
    if r1.outcome = 1 then
      match [Ch.a, .b, .c].find? fun ch => r1.minority = 2 ^ chNum ch with
      | some ch => if s2.included ch then s2.exclude ch (deviation g ch).cause (deviation g ch) else s2
      | none => s2
    else s2

/-- The first vote that waits. -/
def State.voteFront (s : State) : State :=
  match s.vote.groups with
  | [] => s
  | g :: gs => { s with vote := { s.vote with groups := gs } }.voteGroup g

/-- Every vote that waits, at most `n`. -/
def State.voteAll (s : State) : Nat → State
  | 0 => s
  | n + 1 => s.voteFront.voteAll n

/-! ## The commands -/

/-- A fault of a voter that appears stays (R166). -/
def State.voterFaults (s : State) (v1 v2 : Option VoterSays) : State :=
  { s with vote := { s.vote with v1 := v1.or s.vote.v1, v2 := v2.or s.vote.v2 } }

/-- VOTE: the oldest vote that waits. `v1` and `v2` are faults of the voters that appear with it. -/
def execVote (v1 v2 : Option VoterSays) (s : State) : Host.Outcome State Fault Refusal := s.whilePowered (s.voterFaults v1 v2).voteFront

/-- WINDOW_TIMEOUT: the open windows of an engine close with reason 3 (R146). -/
def execWindowTimeout (e : Eng) (s : State) : Host.Outcome State Fault Refusal :=
  s.whilePowered (s.onEngine e fun _ c =>
    let k := c.eng[e]
    let (k1, cl) := k.close 3 0 (k.run.getD 0) none
    ({ c with eng := c.eng.set e k1 }, cl.toList))

/-- DELAY_PARITY_ERROR: a stage in use of a following channel's delay register (R143, R165). -/
def execDelayParityError (ch : Ch) (stage : BitVec 4) (s : State) : Host.Outcome State Fault Refusal :=
  s.whilePowered (
    if ch = s.leadCh ∨ !s.executing ch ∨ s.stagesOf ch ≤ stage.toNat then s
    else
      let d : Devn := ⟨5, 0, stage.toNat⟩
      let s1 := s.flag R.VOTE.FLAG.DELAYPAR
      if !s.included ch then s1.failProbation ch d
      else if s.incl.length ≤ 2 then s1.trigger 2 10
      else s1.exclude ch 5 d)

/-- CAPTURE_PARITY_ERROR: trigger 4 (R165). -/
def execCaptureParityError (s : State) : Host.Outcome State Fault Refusal := s.whilePowered (s.trigger 4 0)

/-- REFERENCE_LOSS: REFLOSS is set (R139). -/
def execReferenceLoss (_ch : Ch) (s : State) : Host.Outcome State Fault Refusal := s.whilePowered (s.flag R.VOTE.FLAG.REFLOSS)

/-- The volume of a range of `n` bytes in MiB, begun ones counted. -/
def mibOf (n : Nat) : Nat := (n + 1048575) / 1048576

/-- The covered resync state of R158 in MiB: both versions, the directory's entries, tile SRAM, values in the DRAM value area, the cold slot area's
slots, cold snapshots (the read set of each class once; no version says which of its snapshots are hot, so each counts here), context records and
scratch windows; each range in begun MiB (DESIGN CHOICE, assumption 22: the spec gives no more than the ranges). -/
def State.resyncMib (s : State) : Nat :=
  let c := s.ch s.leadCh
  let vers := [s.bank0, s.bank1].filterMap id
  let tasks := vers.flatMap (·.tasks)
  vers.foldl (fun n p => n + p.sizeMiB) 0 + mibOf (16 * c.dir.length) + 32 +
    mibOf (c.dir.foldl (fun n p => n + if p.2.type != 0 && p.2.place = 0 && p.2.home != 4 then p.2.size else 0) 0) +
    mibOf (32 * (c.slots.filter fun p => !s.slotHot p.1).length) +
    mibOf (vers.foldl (fun n p => n + (p.reads.foldl (fun m ids => m + setBytes p ids) 0)) 0) + mibOf (1024 * tasks.length) +
    mibOf (tasks.foldl (fun n t => n + (t.winHi - t.winLo)) 0)

/-- Attempts of a channel within the last 3,600 s of network time. -/
def State.recentAttempts (s : State) (ch : Ch) : List Nat := (s.chRec ch).attempts.filter fun t => decide (s.nowNs < t + 3600000000000)

/-- VOTE.ATTEMPT shows the attempts of each channel. -/
def State.showAttempts (s : State) : State :=
  ([Ch.a, .b, .c] : List Ch).foldl (fun t ch => t.set (R.VOTE.ATTEMPT.CH (chNum ch)) (t.recentAttempts ch).length) s

/-- RESYNC_BULK_COPY_DONE: the channel holds what the donor holds, and follows the committed write sets (R158). -/
def execResyncBulkCopyDone (ch : Ch) (s : State) : Host.Outcome State Fault Refusal :=
  s.whilePowered (
    if s.chst ch ≠ 2 ∨ (s.chRec ch).bulkK.isSome then s
    else
      let d := s.ch s.leadCh
      let s1 := s.setCh ch { (s.ch ch) with dir := d.dir, slots := d.slots, insts := d.insts, insig := d.insig, rx0 := d.rx0, rx1 := d.rx1 }
      let s2 := s1.setChRec ch { s1.chRec ch with bulkK := some s.gong.frame }
      s2.set R.VOTE.RSPROG.MIB (s.get R.VOTE.RSVOL.MIB))

/-- The 2oo2 time limit in seconds (R163); a value outside 1 to 720 h acts as 72 h. -/
def State.degLimit (s : State) : Nat := inRange (s.get R.VOTE.DEGCFG.LIMH) 1 720 72 * 3600

/-- DEGTIME counts: RUN and 2oo2 permanent. -/
def State.degrading (s : State) : Bool := s.mstate = .run && s.get R.VOTE.MODE.VMODE = 2

/-- DEGTIME has reached 90 % of the limit, in 2oo2 permanent. -/
def State.degNear (s : State) : Bool := s.get R.VOTE.MODE.VMODE = 2 && decide (9 * s.degLimit ≤ 10 * s.get R.VOTE.DEGTIME.SEC)

/-- DEGTIME_WARNING: 90 % of the limit. -/
def execDegtimeWarning (s : State) : Host.Outcome State Fault Refusal :=
  s.whilePowered (if s.mstate = .run && s.degNear then s.flag R.VOTE.FLAG.DEGWARN else s)

/-- The 2oo2 time limit is reached. -/
def State.atDegLimit (s : State) : Bool := s.degrading && decide (s.degLimit ≤ s.get R.VOTE.DEGTIME.SEC)

/-- DEGTIME_LIMIT: trigger 9. -/
def execDegtimeLimit (s : State) : Host.Outcome State Fault Refusal := s.whilePowered (if s.atDegLimit then s.trigger 9 0 else s)

/-- CLEARPERM: taken at the next start (R164). -/
def execClearperm (r : Req) (s : State) : Host.Outcome State Fault Refusal :=
  s.whilePowered (s.commandNoReason r R.VOTE.CMD.CODE R.VOTE.CMDCNT.COUNT 1 (s.depot && (s.mstate = .safe || s.mstate = .recovery)) fun t =>
    { t with vote := { t.vote with clearPerm := true } })

/-! ## The injection test (R167, R168) -/

/-- One step of a pattern of Table 6-5: the included channels, the differences put into the signatures of A, B and C, the delay registers of which a
stage takes a parity error and those that deliver a data bit flipped with good parity; and the outcome and the minority mask expected (no mask for
NONE). The step expects DELAYPAR of the registers that take a parity error, and of no other. -/
structure TestStep where
  incl : List Ch
  diff : List Nat
  par : List Ch
  bit : List Ch
  outcome : Nat
  minority : Option Nat

/-- A step that puts differences into the signatures of A, B and C, all three included. -/
def diffStep (a b c outcome : Nat) (minority : Option Nat) : TestStep := ⟨[.a, .b, .c], [a, b, c], [], [], outcome, minority⟩

/-- A step of pattern 10: a difference with only the channels `x` and `y` included, as a vote in 2oo2 finds it. -/
def pairStep (x y : Ch) (a b c : Nat) : TestStep := ⟨[x, y], [a, b, c], [], [], 2, none⟩

/-- The steps of pattern `n`. In pattern 8 the parity error excludes B, and A and C agree; then C delivers a flipped bit. -/
def patternSteps : Nat → List TestStep
  | 0 | 9 => [diffStep 0 0 0 0 (some 0)]
  | 1 => [diffStep 1 0 0 1 (some 1)]
  | 2 => [diffStep 0 1 0 1 (some 2)]
  | 3 => [diffStep 0 0 1 1 (some 4)]
  | 4 => [diffStep 1 1 0 1 (some 4)]
  | 5 => [diffStep 1 0 1 1 (some 2)]
  | 6 => [diffStep 0 1 1 1 (some 1)]
  | 7 => [diffStep 1 2 4 2 none]
  | 8 => [⟨[.a, .c], [0, 0, 0], [.b], [], 0, some 0⟩, ⟨[.a, .b, .c], [0, 0, 0], [], [.c], 1, some 4⟩]
  | 10 => [pairStep .a .b 1 0 0, pairStep .a .c 1 0 0, pairStep .a .b 0 1 0, pairStep .b .c 0 1 0, pairStep .a .c 0 0 1, pairStep .b .c 0 0 1]
  | _ => []

/-- A sound value that the traffic of a pattern carries. -/
def testValue : Word := 0x5A

/-- The delay register of a channel as it carries the traffic of a step (R143, R167): of 2 stages for B and 4 for C. Of a channel that takes part and
follows, a fault stays in force: wrong bits, or a persistent parity error; the signature inputs of a channel held in reset are sound (R168). -/
def State.testDreg (s : State) (f : TestFaults) (st : TestStep) (ch : Ch) : Dreg :=
  let takes := s.included ch && ch != s.leadCh
  let wrong := (if takes then s.wrongBits ch else 0) ^^^ (if st.bit.contains ch then 1 else 0)
  let d := Dreg.carry ⟨[], wrong⟩ (match ch with | .a => 0 | .b => 2 | .c => 4) testValue
  if (takes && f.parity.contains ch) || st.par.contains ch then
    { d with stages := d.stages.modifyHead fun x => (x.1, x.2 ^^^ 1) }
  else d

/-- The vote that a step puts on path `p`: each channel's signature follows from what its delay register delivers and from the difference put in. -/
def State.testGroup (s : State) (f : TestFaults) (st : TestStep) (p : Nat) : VGroup :=
  let one (ch : Ch) : Option Close :=
    some ⟨0, ((s.testDreg f st ch).delivers testValue).zeroExtend 640 ^^^ BitVec.ofNat 640 (2 ^ 64 * st.diff.getD (chNum ch) 0), 0, 0, none⟩
  ⟨p, one .a, one .b, one .c⟩

/-- V2's result with its inputs inverted, which pattern 9 injects: any other outcome. -/
def inverted (r : VoterSays) : VoterSays := { r with outcome := 2 - r.outcome }

/-- A voter with a fault, in pattern `n` on path `p`: one that was there before, or one that appears in the test. -/
def testSays (old : Option VoterSays) (t : Tbl VoterSays) (n p : Nat) : Option VoterSays := (tblFind t (16 * n + p)).or old

/-- A voter gives the outcome and the minority that a step expects. -/
def TestStep.good (st : TestStep) (r : VoterSays) : Bool :=
  decide (r.outcome = st.outcome) && (match st.minority with
    | some m => decide (r.minority = m)
    | none => true)

/-- The channels of which the step finds a parity error in the delay register (VOTE.FLAG.DELAYPAR). -/
def State.testParity (s : State) (f : TestFaults) (st : TestStep) : List Ch := [Ch.b, .c].filter fun ch => (s.testDreg f st ch).parityError

/-- A step of pattern `n` on path `p` goes as Table 6-5 expects: DELAYPAR, the outcome and the minority that V1 and V2 give, and a mismatch of the
cross-check in pattern 9 only. -/
def State.stepPasses (s : State) (f : TestFaults) (n p : Nat) (st : TestStep) : Bool :=
  let d := decide3 (s.testGroup f st p) st.incl
  let r1 := voterResult d (testSays s.vote.v1 f.v1 n p)
  let r2 := voterResult d (testSays s.vote.v2 f.v2 n p)
  decide (s.testParity f st = st.par) &&
    if n = 9 then st.good r1 && decide (r1 ≠ inverted r2) else st.good r1 && st.good r2 && decide (r1 = r2)

/-- Whether pattern `n` passes: every step on all ten paths. -/
def State.patternPasses (s : State) (f : TestFaults) (n : Nat) : Bool :=
  (patternSteps n).all fun st => (List.range 10).all fun p => s.stepPasses f n p st

end Sys2Proof.Machine
end

