-- ==== Sys2Proof/Machine/Time.lean ====
section
/-! DEFINITION. The time unit (11, R266 to R277), the Gong's slew and re-phase (02, R29, R30), and one cycle of the network clock. -/

namespace Sys2Proof.Machine

/-! ## Time (R266, R267, R273) -/

/-- TIME.STATUS.SYNC: 0 FREERUN, 1 LOCKED, 2 HOLDOVER, 3 JUMPHOLD. -/
def State.sync (s : State) : Nat := s.get R.TIME.STATUS.SYNC

/-- Changes SYNC; GONG.STATUS.FREERUN is 1 in every state but LOCKED (R31, R272). The consecutive measurements that a state asks for are counted
from its entry (DEDUCED, assumption 29). -/
def State.toSync (s : State) (n : Nat) : State :=
  let s0 := if s.sync = 1 ∧ n ≠ 1 then s.flag R.TIME.FLAG.LOCKLOSS else s
  let s1 := { s0 with tim := { s0.tim with within := 0, above := 0 } }
  (s1.set R.TIME.STATUS.SYNC n).set R.GONG.STATUS.FREERUN (b2n (n ≠ 1))

/-- JUMPLIM in ns in force. -/
def State.jumpLim (s : State) : Nat := inRange (s.get R.TIME.JUMPLIM.NS) 1000 10000000 200000

/-- THR in ns in force. -/
def State.lockThr (s : State) : Nat := inRange (s.get R.TIME.LOCKCFG.THR) 50 10000 1000

/-- The increment of a cycle in units of 2^-32 ns. -/
def State.incr (s : State) : Nat := s.getPair R.TIME.INCR_LO.FRAC R.TIME.INCR_HI.NS

/-- A duration in units of 2^-16 ns rounded to whole ns. -/
def roundNs (d : Int) : Int := (d + 32768) / 65536

/-- Adds a signed offset in units of 2^-16 ns to the time; it does not go below the epoch. The launch instants of telegrams that wait are offsets
from a tick (R279): in the new time that tick lies `d` later. -/
def State.addTime (s : State) (d : Int) : State :=
  { s with
    clk := ((s.clk : Int) + 65536 * d).toNat
    net := { s.net with caps := s.net.caps.map fun c => { c with due := c.due.map fun t => ((t : Int) + roundNs d).toNat } } }

/-! ## The Gong (R29, R30) -/

/-- Shows whether a slew is in progress. -/
def State.showSlew (s : State) : State := s.set R.GONG.STATUS.SLEW (b2n (s.gong.adj != 0))

/-- A step adds its negative to GONG.ADJ (R275): the Gong's own time base follows the old time until the slew absorbs it. -/
def State.slewBy (s : State) (d : Int) : State :=
  if !s.gong.ticking then s else { s with gong := { s.gong with adj := s.gong.adj - roundNs d, next := (s.gong.next + roundNs d).toNat } }.showSlew

/-- The Gong with a re-phase begun by the step `d` (R30). In an ordinary frame the present frame ends at its own tick, the next is long, and
the remaining slew offset goes with it. In the long frame of an earlier re-phase that frame ends at its own tick with its own number, and
another long frame follows. A step while an earlier one still waits for its long frame joins it: one re-phase, recorded with the later
step (DESIGN CHOICE, assumption 20). -/
def GongSt.rephase (g : GongSt) (d : Int) : GongSt :=
  let n := (g.next + roundNs d).toNat
  if g.reph ≤ 1 then { g with reph := 1, step := BitVec.ofInt 64 d, adj := 0, next := n }
  else { g with reph := 3, step2 := BitVec.ofInt 64 d, adj := g.adj - roundNs d, next := n }

/-- Re-phases the Gong (R30). -/
def State.rephase (s : State) (d : Int) : State :=
  if !s.gong.ticking then s else { s with gong := s.gong.rephase d }.showSlew

/-! ## Steps (R274 to R277) -/

/-- A signed 64-bit value of a register pair. -/
def pairInt (lo hi : W32) : Int := (hi ++ lo : BitVec 64).toInt

/-- Applies an accepted step (R275). -/
def State.applyStep (s : State) (d : Int) (reph : Bool) : State :=
  let s1 := s.addTime d
  let s2 := if reph then s1.rephase d else s1.slewBy d
  let s3 := (s2.inc R.TIME.STEPCNT.COUNT).set R.TIME.STATUS.PENDV 0
  if s.sync = 3 then s3.toSync 2 else s3

/-- A write that completes TIME.STEP (R274). -/
def State.writeStep (s : State) (lo hi : W32) : State :=
  let d := pairInt lo hi
  let small := decide (d.natAbs ≤ 65536 * s.jumpLim)
  let acquire := s.sync = 0 && (s.mstate = .boot || s.mstate = .init)
  if small || acquire then
    let s1 := (s.setPair R.TIME.STEP_LO.OFFS R.TIME.STEP_HI.OFFS (lo.toNat + 2 ^ 32 * hi.toNat)).set R.TIME.REASON.CODE 0
    (s1.applyStep d (!small && s.mstate = .init)).inc R.TIME.CMDCNT.COUNT
  else
    let s1 := (s.setPair R.TIME.PEND_LO.OFFS R.TIME.PEND_HI.OFFS (lo.toNat + 2 ^ 32 * hi.toNat)).set R.TIME.STATUS.PENDV 1
    ((((s1.set R.TIME.REASON.CODE 1).flag R.TIME.FLAG.JUMPREF).incSat R.TIME.JREFCNT.COUNT)).toSync 3

/-- The held _LO write of a requester, or the register's low half (R4), and the state with the hold used. -/
def State.takeHeld (s : State) (r : Req) (lo : Nat) : W32 × State :=
  match tblFind s.held (reqKey r lo) with
  | some v => (v, { s with held := tblDel s.held (reqKey r lo) })
  | none => (s.reg lo, s)

/-- TIME_STEP: the write of STEP_HI completes the pair. -/
def execTimeStep (r : Req) (hi : W32) (s : State) : Host.Outcome State Fault Refusal :=
  s.whilePowered (if !s.steward r then s
    else
      let (lo, s1) := s.takeHeld r R.TIME.STEP_LO.OFFS.off
      s1.writeStep lo hi)

/-- The outcome of FORCE (R276). -/
def State.timeForceWhy (s : State) : Nat :=
  firstReason [(3, !s.initOrRun), (4, s.get R.TIME.STATUS.PENDV = 0), (5, s.get R.CFG.EXPERT.UNLK = 0),
    (6, s.get R.SPD.STATUS.STILL = 0 && s.lcs != 3)]

/-- FORCE applies PEND and re-phases the Gong (R277). -/
def State.forcePend (s : State) : State :=
  let lo := s.reg R.TIME.PEND_LO.OFFS.off
  let hi := s.reg R.TIME.PEND_HI.OFFS.off
  let s1 := s.applyStep (pairInt lo hi) true
  ((s1.flag R.TIME.FLAG.FORCED).toSync 2).fumarole 0x09 0x07 1 (leBytes 4 lo.toNat ++ leBytes 4 hi.toNat)

/-- TIME_FORCE. -/
def execTimeForce (r : Req) (s : State) : Host.Outcome State Fault Refusal :=
  s.whilePowered (s.command r R.TIME.CMD.CODE R.TIME.CMDCNT.COUNT R.TIME.REASON.CODE 1 s.timeForceWhy State.forcePend)

/-! ## The servo (R270, R272, R273) -/

/-- A value within the signed 32-bit limits. -/
def sat32 (d : Int) : W32 := BitVec.ofInt 32 (max (-(2 ^ 31)) (min (2 ^ 31 - 1) d))

/-- PTP_OFFSET_MEASUREMENT: a Sync of the selected master gives an offset in ns (Table 11-2). -/
def execPtpOffsetMeasurement (ns : Int) (s : State) : Host.Outcome State Fault Refusal :=
  s.whilePowered (
    if !s.initOrRun || s.ecnLoop || s.tim.master.isNone then s
    else
      let near := decide (ns.natAbs ≤ s.lockThr)
      let t : TimeSt := if near then { s.tim with within := s.tim.within + 1, above := 0 } else { s.tim with within := 0, above := s.tim.above + 1 }
      let s1 := { s.set R.TIME.OFFS.NS (sat32 ns).toNat with tim := t }
      if 8 ≤ t.within ∧ (s.sync = 0 ∨ s.sync = 2) then s1.toSync 1
      else if 4 ≤ t.above ∧ s.sync = 1 then s1.toSync 2
      else s1)

/-- DOMAIN in force. -/
def State.domain (s : State) : Nat := inRange (s.get R.TIME.CFG.DOMAIN) 0 127 0

/-- The module's own data set where it is master-capable: clockClass 248, priority1 from PRIO1, the identity from the MAC address (assumption 29). -/
def State.ownClock (s : State) (id : BitVec 64) : Announce :=
  ⟨BitVec.ofNat 8 s.domain, BitVec.ofNat 8 (s.get R.TIME.CFG.PRIO1), 248, 0xFE, 0xFFFF, 128, id, 0, 0⟩

/-- The clockIdentity of the module from its MAC address (IEEE 1588-2019, 7.5.2.2.2). -/
def State.clockIdent (s : State) : BitVec 64 :=
  let m := s.getPair R.ID.MACBASE_LO.MAC R.ID.MACBASE_HI.MAC % 2 ^ 48
  BitVec.ofNat 64 (2 ^ 40 * (m / 2 ^ 24) + 2 ^ 24 * 0xFFFE + m % 2 ^ 24)

/-- A master's data set is selected. -/
def State.selectMaster (s : State) (m : Announce) : State :=
  let t := { s with tim := { s.tim with master := some m } }
  ((t.setPair R.TIME.GMID_LO.ID R.TIME.GMID_HI.ID m.ident.toNat).set R.TIME.UTCOFS.SEC m.utcOfs.toNat).set R.TIME.STATUS.MASTER 0

/-- No other master is followed any longer: in INIT and RUN a master-capable module becomes master, with GMCHG and its own identity in GMID (R270;
assumption 29). SYNC stays as it is: Table 11-2 lists no change for it. -/
def State.dropMaster (s : State) : State :=
  let s1 := { s with tim := { s.tim with master := none } }
  if s.initOrRun ∧ s.get R.TIME.CFG.MASTEN = 1 ∧ s.get R.TIME.STATUS.MASTER = 0 then
    ((s1.setPair R.TIME.GMID_LO.ID R.TIME.GMID_HI.ID s.clockIdent.toNat).set R.TIME.STATUS.MASTER 1).flag R.TIME.FLAG.GMCHG
  else s1

/-- ANNOUNCE_RECEIPT_TIMEOUT: of the selected master, whose loss takes a locked unit to HOLDOVER in every module state (Table 11-2), or, with none
selected, of any. -/
def execAnnounceReceiptTimeout (s : State) : Host.Outcome State Fault Refusal :=
  s.whilePowered (if s.sync = 1 ∧ s.tim.master.isSome then (s.toSync 2).dropMaster else s.dropMaster)

/-- The module's own data set is the better one. -/
def State.ownBetter (s : State) (m : Announce) : Bool := s.get R.TIME.CFG.MASTEN = 1 && Config.bmcBetter (s.ownClock s.clockIdent) m

/-- ANNOUNCE_RECEIVE: the best master clock algorithm (R270), in the module's own domain: the own data set where it is the best, else a better data
set than the selected master's, or that master's own. -/
def execAnnounceReceive (m : Announce) (s : State) : Host.Outcome State Fault Refusal :=
  s.whilePowered (
    if !s.initOrRun || s.ecnLoop || m.domain.toNat ≠ s.domain then s
    else match s.tim.master with
      | none => if s.ownBetter m then s.dropMaster else (s.selectMaster m).flag R.TIME.FLAG.GMCHG
      | some old =>
        if old.ident = m.ident then (if s.ownBetter m then s.dropMaster else s.selectMaster m)
        else if Config.bmcBetter m old then (s.selectMaster m).flag R.TIME.FLAG.GMCHG
        else s)

/-- The bounds of ±500 ppm in units of 2^-32 ns: 3.998 ns and 4.002 ns. -/
def incrMin : Nat := (3998 * 2 ^ 32 + 999) / 1000
/-- The upper bound. -/
def incrMax : Nat := 4002 * 2 ^ 32 / 1000

/-- INCR_WRITE: the write of INCR_HI completes the pair; outside its bounds the value is clamped (R273). -/
def execIncrWrite (r : Req) (hi : W32) (s : State) : Host.Outcome State Fault Refusal :=
  s.whilePowered (if !s.steward r then s
    else
      let (lo, s1) := s.takeHeld r R.TIME.INCR_LO.FRAC.off
      let v := lo.toNat + 2 ^ 32 * (hi.toNat % 256)
      let w := max incrMin (min incrMax v)
      let s2 := s1.setPair R.TIME.INCR_LO.FRAC R.TIME.INCR_HI.NS w
      if w = v then s2 else s2.flag R.TIME.FLAG.INCRLIM)

/-- SOLFATARA_TIME_COPY: once per second while LOCKED (R269). -/
def execSolfataraTimeCopy (s : State) : Host.Outcome State Fault Refusal :=
  s.whilePowered (if s.sync = 1 then { s with solNs := s.nowNs } else s)

/-! ## One cycle of the oscillator -/

/-- What counts whole seconds: DEGTIME (R163), SSUSED (R236), TLEFT (R322). -/
def State.second (s : State) : State :=
  let s1 := if s.degrading then s.set R.VOTE.DEGTIME.SEC (s.get R.VOTE.DEGTIME.SEC + 1) else s
  let s2 := if s1.mstate = .run ∧ (s1.spdMode = 1 ∨ s1.spdMode = 2) then s1.incSat R.SPD.SSUSED.SEC else s1
  if s2.get R.CFG.EXPERT.UNLK = 1 ∧ 0 < s2.get R.CFG.EXPERT.TLEFT then s2.set R.CFG.EXPERT.TLEFT (s2.get R.CFG.EXPERT.TLEFT - 1) else s2

/-- One cycle of the 250 MHz oscillator (R273): the time advances by INCR, and each whole second counts. While the module is not
powered only Solfatara's clock runs. -/
def State.cycle (s : State) : State :=
  if !s.sup.powered then { s with solNs := s.solNs + 4 }
  else
    let clk := s.clk + s.incr
    let acc := s.secAcc + (clk / 2 ^ 32 - s.clk / 2 ^ 32)
    let s1 := { s with clk := clk, solNs := s.solNs + 4, secAcc := acc }
    if acc < 1000000000 then s1 else { s1 with secAcc := acc - 1000000000 }.second

end Sys2Proof.Machine
end

