-- ==== Sys2Proof/Machine/Frame.lean ====
section
/-! DEFINITION. The frame (02, R27 to R53; 06, R152 to R160; 07, R188 to R190, R393): the Gong tick, the start of a segment, CUT and
COMMIT. -/

namespace Sys2Proof.Machine

/-! ## The Gong (R28 to R31) -/

/-- An offset brought towards zero by at most 2 µs (R29). -/
def slewLeft (a : Int) : Int := if a < 0 then min 0 (a + 2000) else max 0 (a - 2000)

/-- The tick instant of frame `f` with the offset `a` still to absorb. -/
def tickOf (f p : Nat) (a : Int) : Nat := (((f * p : Nat) : Int) - a).toNat

/-- The tick edge at base period `p`: the first at `now`, one that begins the long frame of a re-phase (with the number of an earlier
re-phase that it completes), any other. -/
def GongSt.advance (g : GongSt) (p now : Nat) : GongSt :=
  if !g.ticking then { g with frame := now / p, tick := now / p * p, next := (now / p + 1) * p, adj := 0, reph := 0, ticking := true }
  else if g.reph = 1 then { g with frame := g.frame + 1, tick := g.next, next := (g.next + 2 * p - 1) / p * p, adj := 0, reph := 2 }
  else if g.reph = 3 then
    { g with frame := g.nextFrame p, tick := g.next, next := (g.next + 2 * p - 1) / p * p, adj := 0, reph := 2, step := g.step2 }
  else
    { g with
      frame := g.nextFrame p, tick := g.next, next := tickOf (g.nextFrame p + 1) p (slewLeft g.adj), adj := slewLeft g.adj, reph := 0 }

/-- The registers that show the tick: its target time F × P (R28, Table 2-8), whether a slew is in progress, phase IN. -/
def State.showTick (s : State) : State :=
  let t := s.gong.frame * s.pNs
  let s1 := (s.setPair R.GONG.TICKS_LO.SEC R.GONG.TICKS_HI.SEC (t / 1000000000)).set R.GONG.TICKNS.NSEC (t % 1000000000)
  (s1.showSlew).set R.GONG.STATUS.PHASE 0

/-- The Gong has taken its new frame number after a re-phase by `step` (R30). -/
def State.rephased (s : State) (step : BitVec 64) : State :=
  let s1 := ((s.flag R.GONG.FLAG.REPHASE).inc R.GONG.RPCNT.COUNT).fumarole 0x09 0x01 2 (leBytes 8 step.toNat)
  forN 10 s1 fun t k => t.evSetPrivate k 11

/-- The tick edge. -/
def State.gongAdvance (s : State) : State :=
  let s1 := { s with gong := s.gong.advance s.pNs s.nowNs }.showTick
  if s.gong.ticking && decide (2 ≤ s.gong.reph) then s1.rephased s.gong.step else s1

/-- The triggers of the tick edge itself: COMMIT of the frame before has not completed (R39), and the 2oo2 time limit is reached (R163). Where both fall in
this cycle the lower code is recorded, and the other writes its record (R355). -/
def State.tickTriggers (s : State) : State :=
  let limit := s.atDegLimit
  let s1 := if s.mstate = .run ∧ s.get R.GONG.STATUS.PHASE < 4 then (s.flag R.GONG.FLAG.LATE).trigger 6 0 else s
  if limit then s1.trigger 9 0 else s1

/-! ## The end of INIT (R18, R31, R43, R187 to R190, R339, R358, R393) -/

/-- Load and restore are complete: the program loaded, the store charged, the start role decided, the cards configured where the bridge has taken the
duties (R298), and no reason to stop. -/
def State.initDone (s : State) : Bool :=
  s.mstate = .init && s.boot.program && s.boot.role.isSome && s.get R.SUP.STATE.STORE = 1 && s.get R.SUP.STATE.STOPC = 0 &&
    s.lcs != 0 && s.lcs != 4 && (s.get R.BRG.STATUS.HOLD = 0 || s.get R.BRG.STATUS.CFGD = 1)

/-- The record this start restored. -/
def State.restoredRec (s : State) : Option RetBuf :=
  if s.boot.fRec.isSome then s.chosenRec (s.reg R.TASK.PVER.fld.off) (s.reg R.CFG.CURVER.CFGVER.off) else none

/-- The Fumarole start record. -/
def State.startRecord (s : State) : State :=
  s.fumarole 0x01 0xF1 (b2n s.sup.warm)
    (leBytes 1 (b2n s.boot.wallFb + 2 * b2n s.boot.slotFb) ++ leBytes 3 0 ++ leBytes 8 (s.boot.fRec.getD 0))

/-- A slot on trial has reached RUN (R339). -/
def State.endTrial (s : State) : State :=
  if s.get R.UPD.STATE.TRIAL = 0 ∨ s.boot.slot ≠ some s.actSlot then s
  else
    let s1 := ((s.set R.UPD.STATE.TRIAL 0).set R.UPD.STATE.TRIALS 0).writeSlotRec
    match s1.img s1.actSlot with
    | some i => if isRaise i.hdr then (s1.set R.UPD.MINSVN.SVN i.hdr.svn.toNat).flag R.UPD.FLAG.SVNUP else s1
    | none => s1

/-- STAMP takes F_run for every signal neither restored nor updated since the start (R393). -/
def State.firstStamps (s : State) : State :=
  let restored := s.boot.fRec.isSome && s.role != .standby
  s.mapCh s.follows fun c =>
    { c with dir := c.dir.map fun p =>
        if fieldOf p.2.w3 5 1 = 1 && !(restored && p.2.ret) then (p.1, { p.2 with w3 := word3 s.gong.frame p.2.qual.toNat }) else p }

/-- The first tick of RUN; the speed bounds use edges from here on (R234). -/
def State.beginRun (s : State) : State :=
  let s1 := (s.set R.GONG.STATUS.ALIGNED 1).toState .run
  let sp := s1.spd
  let s2 := { s1 with spd := { sp with runNs := s1.gong.tick, s0 := { sp.s0 with edges := [] }, s1 := { sp.s1 with edges := [] } } }
  let s3 := match s2.restoredRec with
    | some b => (s2.restoreTimers b).restoreGuards b
    | none => s2
  (s3.startRecord.endTrial.takeStartRole).firstStamps

/-! ## Input signatures (R144) -/

/-- The close of a channel's input signature. -/
def inputClose (sig : BitVec 128) : Close := ⟨0, sig.zeroExtend 640, 0, 0, none⟩

/-- The input signatures of the executing channels close and are voted. -/
def State.closeInputs (s : State) : State :=
  let of (ch : Ch) : Option Close := if s.executing ch then (s.ch ch).insig.map inputClose else none
  let g : VGroup := ⟨8, of .a, of .b, of .c⟩
  let s1 := s.mapCh (fun _ => true) fun c => { c with insig := none }
  if (g.a.isNone && g.b.isNone && g.c.isNone) || !s.initOrRun then s1 else s1.voteGroup g

/-! ## Resync, probation and readmission (R158 to R160) -/

/-- A resync starts, or the channel is excluded permanently where a fourth attempt would be needed. -/
def State.resyncStart (s : State) (ch : Ch) : State :=
  let r := s.chRec ch
  let old := s.recentAttempts ch
  if 3 ≤ old.length then s.excludePerm ch (s.shownDevn ch) 1
  else
    let s1 := ((s.setCh ch Chan.reset).resetDreg ch).setChRec ch { r with attempts := s.nowNs :: old, bulkK := none }
    let s2 := ((s1.set (R.VOTE.CHST.CH (chNum ch)) 2).set R.VOTE.RSVOL.MIB s.resyncMib).set R.VOTE.RSPROG.MIB 0
    { s2 with vote := { s2.vote with copyNs := s.gong.next - s.gong.tick } }

/-- The probation frame begins: the channel holds the committed state of the donor. -/
def State.probationStart (s : State) (ch : Ch) : State :=
  let s1 := s.setCh ch { s.ch s.leadCh with eng := Chan.reset.eng }
  (s1.set (R.VOTE.CHST.CH (chNum ch)) 3).set R.VOTE.MODE.PROBCH (chNum ch + 1)

/-- The channel is readmitted. -/
def State.readmit (s : State) (ch : Ch) : State :=
  let r := s.chRec ch
  let s1 := ((s.putBit R.VOTE.MODE.INCL (chNum ch) true).set (R.VOTE.CHST.CH (chNum ch)) 0).set R.VOTE.MODE.VMODE 0
  let s2 := ((s1.set R.VOTE.MODE.PROBCH 0).flag R.VOTE.FLAG.READMIT).setLead
  (s2.setChRec ch { r with readm := some s.gong.frame, bulkK := none }).voteRecord 0x10 ch (s.shownDevn ch)

/-- What the tick of the present frame does to a channel that is not included. -/
def State.resyncTick (s : State) (ch : Ch) : State :=
  let f := s.gong.frame
  match s.chst ch, (s.chRec ch).bulkK with
  | 1, _ => s.resyncStart ch
  | 2, some k => if k + 2 ≤ f then s.probationStart ch else s
  | 3, some k => if k + 3 ≤ f then s.readmit ch else s
  | _, _ => s

/-- VOTE.RSPROG advances while a bulk copy runs, from the tick after the one that starts it: what 16 GiB/s carry in the time the copy has run, to the
volume at most (R158). The frame that begins is added to that time, for its end. -/
def State.showCopying (s : State) : State :=
  if ([Ch.a, .b, .c].any fun ch => decide (s.chst ch = 2) && (s.chRec ch).bulkK.isNone) then
    { s.set R.VOTE.RSPROG.MIB (min (s.get R.VOTE.RSVOL.MIB) (16384 * s.vote.copyNs / 1000000000)) with
      vote := { s.vote with copyNs := s.vote.copyNs + (s.gong.next - s.gong.tick) } }
  else s

/-- The vote unit at a tick edge: a channel that this tick's vote of the input signatures excludes is reset at the next tick (R158). -/
def State.voteTick (s : State) : State :=
  let s1 := s.closeInputs
  if !s1.initOrRun then s1
  else (([Ch.a, .b, .c] : List Ch).foldl (fun t ch => if t.chst ch = s.chst ch then t.resyncTick ch else t) s1.showCopying).showAttempts

/-! ## Release (R40 to R43, R62) -/

/-- A class is due at frame `f`. -/
def State.classDue (s : State) (k f : Nat) : Bool :=
  let n := 2 ^ s.get (R.TASK.PER.EXP k)
  s.get (R.TASK.PER.EN k) = 1 && (f + n - s.get (R.TASK.PER.PHASE k) % n) % n = 0

/-- A task is held back. -/
def State.heldBack (s : State) (t : TaskDesc) : Bool := t.net && s.get R.ID.ASTAT.ADDR = 0

/-- TASK.HELD, formed at each tick. Where a conflict takes ASTAT.ADDR away inside a frame, HELD follows at the next tick, at which the tasks are held back
(DESIGN CHOICE, assumption 29: R43 names no instant). -/
def State.showHeld (s : State) : State :=
  s.set R.TASK.HELD.CLASS (maskOf ((List.range 8).filter fun k => s.get (R.TASK.PER.EN k) = 1 && (match s.progOf k with
    | some p => (tasksOf p k).any s.heldBack
    | none => false)))

/-- A new instance. -/
def newInst (t : TaskDesc) (bank : Bool) (f : Nat) (snap : Tbl Snap) : Inst :=
  { td := t, bank := bank, fr := f, seg := 0, snap := snap, wset := [], slots := [], ctx := none, scratch := [], ended := false, fin := false }

/-- At the tick that begins frame `f` an instance released at `fr` goes on: `f` is one of its `n` frames after F_r (R44). At F_r itself, to which only a
re-phase back leads while it lives, its class is due anew. -/
def inFrames (fr n f : Nat) : Bool := decide (fr < f) && decide (f < fr + n)

/-- Drops the instances whose frames after F_r do not include the present one: it lies beyond F_r + 2^n − 1 or before F_r (R44), or it is F_r again, where
the release that follows replaces instance and cycle; a re-phase forward or back brings this about (R30). The spec does not say what becomes of such an
instance: here it is dropped with its held stores, its claims are returned, and it is no discard, counts as no skip and completes no
cycle (DESIGN CHOICE, assumption 20). -/
def State.dropPassed (s : State) : State :=
  let past (i : Inst) : Bool := !inFrames i.fr (2 ^ s.get (R.TASK.PER.EXP i.td.cls.val)) s.gong.frame
  let s1 := s.mapCh (fun _ => true) fun c =>
    let gone := (c.insts.filter fun p => past p.2).map (·.1)
    { c with insts := c.insts.filter fun p => !past p.2, eng := c.eng.map fun k => { k with cbuf := k.cbuf.filter fun x => !gone.contains x.task } }
  let cyc := s.seqr.cycles.filter fun p => inFrames p.2.fr (2 ^ s.get (R.TASK.PER.EXP p.1)) s.gong.frame
  let gone := ((s.ch s.leadCh).insts.filter fun p => past p.2).map (·.1)
  { s1 with seqr := { s1.seqr with cycles := cyc } }.evReturn gone

/-- Releases a cycle of class `k`: freshness of its read set (R69), snapshots, instances. -/
def State.releaseClass (s : State) (k : Nat) : State :=
  match s.progOf k with
  | none => s
  | some p =>
    let ts := (tasksOf p k).filter fun t => !s.heldBack t
    if ts = [] then s
    else
      let s1 := (p.reads.getD k []).foldl (fun t id => t.freshCheck id) s
      let s2 := (s1.readHome4 p k).eachCh s1.executing fun ch c =>
        let snap := s1.snapshot ch c p k
        { c with insts := ts.foldl (fun m t => tblPut m t.id (newInst t (s1.bankOf k) s.gong.frame snap)) c.insts }
      { s2 with seqr := { s2.seqr with cycles := tblPut s2.seqr.cycles k ⟨s.gong.frame, ts.map (·.id), false⟩ } }

/-- Every class due at the present frame is released: in RUN, as ALONE or ACTIVE. -/
def State.releaseAll (s : State) : State :=
  if s.mstate ≠ .run ∨ !s.leads then s
  else forN 8 s fun t k => if t.classDue k t.gong.frame then t.releaseClass k else t

/-- Each frame begins with no segment taken, no discard, and window number 0. -/
def State.frameReset (s : State) : State :=
  let s1 := s.mapCh (fun _ => true) fun c =>
    { c with insts := c.insts.map fun p => (p.1, { p.2 with fin := false }), eng := c.eng.map fun k => { k with wseq := 0 } }
  { s1 with
    seqr := { s1.seqr with taken := Vector.replicate 8 0, discs := [], fault := [] }
    brg := { s1.brg with inBytes := 0 }, pair := { s1.pair with home5 := 0 } }

/-! ## GONG_TICK -/

/-- A change of address that is due takes effect. An ECNLOOP test whose precondition it ends (X1 and X2 transmit from now on) ends with cause 4 (R374). -/
def State.addrStep (s : State) : State :=
  let t := s.addrTick
  if t.testRun = some 7 ∧ t.txen then t.testEnd 4 else t

/-- The units that latch samples or act at a tick edge (R33, R175, R203, R221, R234, R331). The I/O controller runs no firmware in RECOVERY (R340). The
spec does not order them within a tick: the standstill that R175 asks for at tick A is the one the tick before found (DESIGN CHOICE, assumption 33). -/
def State.unitsTick (s : State) : State :=
  let s1 := s.addrStep.netTick
  let s2 := if s1.mstate = .run then s1.pairTick.armTick else s1
  let s3 := s2.voteTick
  if s3.mstate = .recovery then s3 else s3.sioTick.noteGuards.spdTick

/-- The tick edge with the force and life-cycle commands that take effect at it, which they do before INIT can end at this tick (R74, R368, R18). -/
def State.tickEdge (s : State) : State := s.tickTriggers.gongAdvance.forceTick.lcTick.silTick

/-- At the edge INIT ends where load and restore are complete (R31). -/
def State.tickBegun (s : State) : State := if s.tickEdge.initDone then s.tickEdge.beginRun else s.tickEdge

/-- The frame has begun, and the units have acted at its tick. -/
def State.tickUnits (s : State) : State := s.tickBegun.frameReset.unitsTick

/-- GONG_TICK: the Gong does not tick in BOOT (R31). -/
def execGongTick (s : State) : Host.Outcome State Fault Refusal :=
  s.whilePowered (if s.mstate = .boot then s else s.tickUnits.dropPassed.showHeld.releaseAll.testCheck)

/-! ## SEGMENT_START (R34, R45, R48, R83, R84, R97) -/

/-- ST at the start of an instance (Table 4-2). FIRST counts this module's own commits: where it was promoted, a commit that the partner made before is none
(DESIGN CHOICE, assumption 16: Table 4-2 speaks of the last start and does not say whose commit counts). -/
def State.startSt (s : State) (t : TaskDesc) (seg : Nat) : W32 :=
  BitVec.ofNat 32 (s.get (R.TASK.PER.SAFE t.cls.val) + 2 * t.cls.val + 2 ^ 4 * t.eng.val +
    2 ^ 8 * b2n (!s.seqr.done.contains t.id) + 2 ^ 9 * b2n s.sup.warm + 2 ^ 20 * (seg % 256))

/-- The registers at the start of an instance (R83). -/
def State.startCtx (s : State) (p : Program) (t : TaskDesc) (seg : Nat) : Ctx :=
  let pc := match unitOf p t.unit with
    | some u => u.entry
    | none => 0
  { Ctx.clear.setG 29 (BitVec.ofNat 64 t.winHi) with sb := t.sb, ib := t.ib, pc := BitVec.ofNat 32 pc, st := s.startSt t seg, unit := t.unit }

/-- The registers at the start of a segment: restored (R84) or new (R83). -/
def State.segCtx (s : State) (p : Program) (i : Inst) (seg : Nat) : Ctx :=
  match i.ctx with
  | some x => { x with st := withField x.st 20 8 seg }
  | none => s.startCtx p i.td seg

/-- A segment starts in one channel. Of an instance that has ended it ends at once (R45). -/
def Chan.startSeg (c : Chan) (s : State) (e : Eng) (g : SegEnt) (p : Program) : Chan :=
  match tblFind c.insts g.task with
  | none => c
  | some i =>
    if i.ended then { c with insts := tblPut c.insts g.task { i with seg := g.seg, fin := true } }
    else
      { c with
        insts := tblPut c.insts g.task { i with seg := g.seg }
        eng := c.eng.set e { c.eng[e] with x := s.segCtx p i g.seg, bud := BitVec.ofNat 32 g.budget, run := some g.task, stall := none, cyc := 0 } }

/-- The executing channels. -/
def State.execChs (s : State) : List Ch := ([Ch.a, .b, .c] : List Ch).filter s.executing

/-- A task has an instance in an executing channel. -/
def State.live (s : State) (task : Nat) : Bool := s.execChs.any fun ch => (tblFind (s.ch ch).insts task).isSome

/-- Engine `e` runs a segment in an executing channel. -/
def State.busy (s : State) (e : Eng) : Bool := s.execChs.any fun ch => (s.ch ch).eng[e].run.isSome

/-- The number of leading segments of a list that are not run (R48). -/
def skipDead (s : State) : List (SegEnt × Bool) → Nat
  | [] => 0
  | g :: t => if s.live g.1.task then 0 else skipDead s t + 1

/-- The next segment of engine `e` starts. Where a re-phase passed over a frame that held an earlier segment of the instance, and not its last frame,
this segment runs from the context that the segment before left, and the instance may commit; where a re-phase led back to a frame after F_r in which a
segment of the instance ran before, that segment runs again, from the context saved last (DESIGN CHOICE, assumption 20: R30 leaves both open). -/
def State.startNext (s : State) (e : Eng) : State :=
  let rest := (s.segs s.gong.frame e).drop s.seqr.taken[e]
  let n := skipDead s rest
  match rest.drop n with
  | [] => { s with seqr := { s.seqr with taken := s.seqr.taken.set e (s.seqr.taken[e] + n) } }
  | g :: _ =>
    let s1 := { s with seqr := { s.seqr with taken := s.seqr.taken.set e (s.seqr.taken[e] + n + 1) } }
    match s.bank g.2 with
    | some p => s1.mapCh s1.executing fun c => c.startSeg s e g.1 p
    | none => s1

/-- RUN begins after IN, and inbound writes held during IN are applied (R34, R308). -/
def State.beginPhaseRun (s : State) : State :=
  if s.get R.GONG.STATUS.PHASE = 0 then (s.set R.GONG.STATUS.PHASE 1).flushInbound else s

/-- SEGMENT_START: on an engine that runs no segment, between IN and CUT. -/
def execSegmentStart (e : Eng) (s : State) : Host.Outcome State Fault Refusal :=
  s.whilePowered (
    if s.mstate ≠ .run ∨ !s.leads ∨ 1 < s.get R.GONG.STATUS.PHASE ∨ s.busy e then s
    else s.beginPhaseRun.startNext e)

/-! ## What the commit of a frame writes (R45, R65, R152) -/

/-- The segments of the present frame in R65 order. -/
def State.frameSegs (s : State) : List (SegEnt × Bool) := (List.finRange 8).flatMap fun e => s.segs s.gong.frame e

/-- The tasks whose instance commits in the present frame, in R65 order: its last segment lies here and it was not discarded. -/
def State.committing (s : State) : List Nat :=
  (s.frameSegs.filter fun g => g.1.last && (tblFind (s.ch s.leadCh).insts g.1.task).isSome).map (·.1.task)

/-- Applies the write set of one instance. -/
def Chan.applyInst (c : Chan) (frame : Nat) (safe : Nat → Bool) (i : Inst) : Chan :=
  let src : Src := ⟨true, safe i.td.cls.val, false⟩
  { c with
    dir := i.wset.foldl (fun d w => tblMod d w.1 fun e => e.update frame w.2 src) c.dir
    slots := i.slots.foldl (fun d w => tblPut d w.1 w.2) c.slots }

/-- Applies the write sets of instances of `src` in order. -/
def Chan.applyFrom (c : Chan) (frame : Nat) (safe : Nat → Bool) (src : Tbl Inst) (tasks : List Nat) : Chan :=
  tasks.foldl (fun c t => match tblFind src t with
    | some i => c.applyInst frame safe i
    | none => c) c

/-- A class is a safety task class. -/
def State.safeCls (s : State) (k : Nat) : Bool := s.get (R.TASK.PER.SAFE k) = 1

/-- A channel after its own write sets of committing tasks. -/
def State.committed (s : State) (tasks : List Nat) (c : Chan) : Chan :=
  { c.applyFrom s.gong.frame s.safeCls c.insts tasks with insts := c.insts.filter fun p => !tasks.contains p.1 }

/-! ## CUT (R35, R47, R48) -/

/-- Open windows of an engine close with reason 4, and its copies stop. -/
def State.cutEngine (s : State) (e : Eng) : State :=
  s.onEngine e fun _ c =>
    let k := c.eng[e]
    let (k1, cl) := k.close 4 0 (k.run.getD 0) none
    ({ c with eng := c.eng.set e k1 }, cl.toList)

/-- A task's instance is dropped in every executing channel, its held stores with it (R48). -/
def State.dropInst (s : State) (e : Eng) (task : Nat) : State :=
  s.mapCh s.executing fun c => { c with eng := c.eng.set e (c.eng[e].drop task), insts := tblDel c.insts task }

/-- A scheduled segment of the frame at CUT: its instance is discarded where it is not finished. -/
def State.cutSeg (s : State) (e : Eng) (g : SegEnt) : State :=
  let c := s.ch s.leadCh
  match tblFind c.insts g.task with
  | none => s
  | some i =>
    if i.fin || i.ended then s
    else
      let cause := if c.eng[e].run = some g.task then 1 else 2
      (s.dropInst e g.task).discard g.task i.td.cls.val e.val cause

/-- VOTE.CBPEAK takes up what it shows of the present frame. -/
def State.showPeaks (s : State) : State := forN 8 s fun t e => t.set (R.VOTE.CBPEAK.ENTRIES e) (t.cbPeak e)

/-- Every copy of every engine stops. -/
def Chan.stopAll (c : Chan) : Chan := { c with eng := c.eng.map fun k => { k with run := none, stall := none } }

/-- The demands that the release of this frame will change are pending from CUT on (R228). -/
def State.pendDemands (s : State) : State :=
  let c := s.committed s.committing (s.ch s.leadCh)
  (List.finRange 8).foldl (fun t o =>
    let d := s.demandOf c o.val
    if d = s.bit R.SIO.OSTATE.DEM o.val then t else t.setOutp o { t.outp o with pend := some d }) s

/-- CUT with the duties of the pair held: votes of windows that closed before, the last windows, discards. -/
def State.cutWork (s : State) : State :=
  let s1 := s.voteAll s.vote.groups.length
  if s1.mstate ≠ .run then s1
  else
    let s2 := ((List.finRange 8).foldl (fun t e => t.cutEngine e) s1).showPeaks
    let s3 := (List.finRange 8).foldl (fun t e => (t.segs t.gong.frame e).foldl (fun t g => t.cutSeg e g.1) t) s2
    ((s3.mapCh (fun _ => true) Chan.stopAll).goneReads).pendDemands

/-- CUT. -/
def execCut (s : State) : Host.Outcome State Fault Refusal :=
  s.whilePowered (
    if s.mstate ≠ .run ∨ 1 < s.get R.GONG.STATUS.PHASE then s
    else
      let s1 := s.beginPhaseRun
      (if s1.works then s1.cutWork else s1).set R.GONG.STATUS.PHASE 2)

/-! ## COMMIT (R36, R152, R153) -/

/-- Step 5: write sets, in every channel that follows the committed state. -/
def State.applyWrites (s : State) (ts : List Nat) : State :=
  let lead := (s.ch s.leadCh).insts
  (s.mapCh s.executing fun c => s.committed ts c).mapCh (fun ch => s.follows ch && !s.executing ch) fun c =>
    c.applyFrom s.gong.frame s.safeCls lead ts

/-- Cycles with nothing left to commit are complete (R51). -/
def State.endCycles (s : State) (ts : List Nat) : State :=
  let cyc := s.seqr.cycles.map fun p => (p.1, { p.2 with left := p.2.left.filter fun t => !ts.contains t })
  let s1 := { s with seqr := { s.seqr with cycles := cyc.filter fun p => p.2.left != [], done := (s.seqr.done ++ ts).eraseDups } }
  cyc.foldl (fun t p => if p.2.left = [] ∧ !p.2.skipped then (t.set (R.TASK.SKIPRUN.RUN p.1) 0).inc (R.TASK.CYC.COUNT p.1) else t) s1

/-- What a channel votes at COMMIT (R155, R252): the digests of the state as it will stand after this COMMIT (`u`), and the trailers of the telegrams
that it captures for the tick of frame `next`, over the channel's own values of that state. -/
def State.commitSig (u : State) (next : Nat) (ch : Ch) : Close := ⟨0, u.digestSig (u.ch ch) ++ u.trailerSig ch next, 0, 0, none⟩

/-- The state as it will stand after this COMMIT: write sets applied and classes switched. -/
def State.captureView (s : State) (ts : List Nat) (next : Nat) : State :=
  if s.works then ((s.applyWrites ts).endCycles ts).exchCommit next else s

/-- Steps 1 and 2: the windows that wait, then the state digest, the copy digest and the trailers. -/
def State.commitVotes (s : State) : State :=
  let s1 := s.voteAll s.vote.groups.length
  if s1.mstate ≠ .run then s1
  else
    let ts := s1.committing
    let next := s1.gong.nextFrame s1.pNs
    let u := s1.captureView ts next
    let of (ch : Ch) : Option Close := if s1.executing ch then some (u.commitSig next ch) else none
    let s2 := s1.voteGroup ⟨9, of .a, of .b, of .c⟩
    if s2.mstate ≠ .run then s2 else
    let c := u.ch s2.leadCh
    let d := (u.stateDigest c).toNat
    let s3 := forN 8 s2 fun t w => t.set (R.VOTE.DIGEST.WORD w) (d / 2 ^ (32 * w))
    s3.set R.VOTE.SCRUB.FRAMES (scrubFrames s1.pUs (u.coveredWords c))

/-- Enters a held store behind those of the same or an earlier window. -/
def insertEntry (x : CbEntry) : List CbEntry → List CbEntry
  | [] => [x]
  | y :: t => if x.frame < y.frame ∨ (x.frame = y.frame ∧ x.win < y.win) then x :: y :: t else y :: insertEntry x t

/-- A channel's commit buffer of engine `e` holds the voted entries of the window of `x`. -/
def Chan.holds (c : Chan) (e : Eng) (x : CbEntry) : Bool :=
  c.eng[e].cbuf.any fun y => y.voted && decide (y.task = x.task ∧ y.frame = x.frame ∧ y.win = x.win)

/-- The release channel of an entry's window on engine `e` (R149, R153): the lowest-lettered included channel of the set that agreed. A channel that was
reset since (R158) and readmitted holds the window's entries no more, and the next of the set releases them (DEDUCED, assumption 21). -/
def State.releaseCh (s : State) (e : Eng) (x : CbEntry) : Option Ch :=
  s.incl.find? fun ch => x.agree / 2 ^ chNum ch % 2 = 1 && (s.ch ch).holds e x

/-- The voted entries of engine `e` that instances of `ts` release, each from its window's release channel, in program order. -/
def State.released (s : State) (e : Eng) (ts : List Nat) : List CbEntry :=
  (s.incl.flatMap fun ch => (s.ch ch).eng[e].cbuf.filter fun x => x.voted && ts.contains x.task && s.releaseCh e x = some ch).foldl
    (fun l x => insertEntry x l) []

/-- Step 3: voted entries of committing instances, CE0 first, in program order. -/
def State.releaseEntries (s : State) (ts : List Nat) : State :=
  (List.finRange 8).foldl (fun t e => (s.released e ts).foldl (fun t x => t.release e x) t) s

/-- Step 4: entries released or dropped leave the commit buffers. -/
def State.clearEntries (s : State) (ts : List Nat) : State :=
  let drop (c : Chan) (p : CbEntry → Bool) : Chan :=
    { c with eng := c.eng.map fun k => { k with cbuf := k.cbuf.filter p, peak := (k.cbuf.filter p).length } }
  (s.mapCh s.included fun c => drop c fun x => !ts.contains x.task).mapCh (fun ch => !s.included ch) fun c => drop c fun _ => false

/-! ### Cycles (R50 to R52) -/

/-- The discard that a list of discards records for its lowest class and engine. Of two of one class on the same engine in one frame it is the one
discarded first (DESIGN CHOICE, assumption 21: R50 orders classes and engines only). -/
def firstDiscard (l : List Discard) : Option Discard :=
  l.foldl (fun m d => match m with
    | none => some d
    | some x => if d.cls < x.cls ∨ (d.cls = x.cls ∧ d.eng < x.eng) then some d else some x) none

/-- The discards of this frame in cycles not yet counted as skipped. -/
def State.newSkips (s : State) : List Discard :=
  s.seqr.discs.filter fun d => match tblFind s.seqr.cycles d.cls with
    | some c => !c.skipped
    | none => false

/-- Counts the skip of a cycle of class `k` with discard `d`. -/
def State.countSkip (s : State) (k : Nat) (d : Discard) : State :=
  let s1 := ((s.incSat (R.TASK.SKIPRUN.RUN k)).incSat (R.TASK.SKIPTOT.COUNT k)).orBits R.TASK.SKIPFLG.CLASS (2 ^ k)
  let s2 := s1.fumarole 0x05 0x02 d.cause (leBytes 1 d.cls ++ leBytes 1 d.eng)
  { s2 with seqr := { s2.seqr with cycles := tblMod s2.seqr.cycles k fun c => { c with skipped := true } } }

/-- Skips counted, and LASTSKIP: of all discards of the frame the one in the lowest-numbered class, there on the lowest-numbered engine (R50). -/
def State.countSkips (s : State) : State :=
  let l := s.newSkips
  let s1 := forN 8 s fun t k => match firstDiscard (l.filter fun d => d.cls = k) with
    | some d => t.countSkip k d
    | none => t
  if l = [] then s1 else match firstDiscard s.seqr.discs with
  | some d =>
    let s2 := ((s1.set R.TASK.LASTSKIP.CLASS d.cls).set R.TASK.LASTSKIP.ENGINE d.eng).set R.TASK.LASTSKIP.CAUSE d.cause
    s2.setPair R.TASK.LASTSKIPF_LO.FRAME R.TASK.LASTSKIPF_HI.FRAME s.gong.frame
  | none => s1

/-- The safety classes that reach their skip limit in this COMMIT (R52). -/
def State.limitHits (s : State) (skips : List Discard) : List Nat :=
  (List.range 8).filter fun k =>
    (skips.any fun d => d.cls = k) && s.safeCls k && decide (s.get (R.TASK.PER.SKIPLIM k) ≤ s.get (R.TASK.SKIPRUN.RUN k))

/-- The triggers at the end of COMMIT: skip limit, then FAULT of a safety class. Where several classes reach their limit, or raise FAULT, in one COMMIT,
one trigger is raised and one record written, with the lowest class as DETAIL (DESIGN CHOICE, assumption 21: R52 speaks of one class). -/
def State.endTriggers (s : State) (hits faults : List Nat) : State :=
  let s1 := match hits with
    | k :: _ => (s.orBits R.TASK.LIMHIT.CLASS (maskOf hits)).trigger 7 k
    | [] => s
  match faults with
  | [] => s1
  | k :: t => s1.trigger 8 (t.foldl min k)

/-! ### The copy (R207, R210) -/

/-- What the control block and the force table stand at. -/
def State.standing (s : State) : List CopyItem := s.forceItems ++ s.controlItems ++ s.exchItems

/-- The copy of a frame: signals written, updated by HOME 4 or 5, or entered by an exchange (new, or anew after an earlier deletion), slots changed by
instances or by a class switch, and what has changed of the rest. `insts` are the committing instances, `old` is the release channel before the COMMIT. -/
def State.copyItems (s : State) (old : Chan) (insts : List Inst) : List CopyItem :=
  let c := s.ch s.leadCh
  let entered := (c.dir.filter fun p => p.2.type != 0 && (match tblFind old.dir p.1 with
    | some e => e.type = 0
    | none => true)).map (·.1)
  let ids := (insts.flatMap (fun i => i.wset.map (·.1)) ++ s.pair.touched.reverse ++ entered).eraseDups
  let switched := (c.slots.filter fun p => tblFind old.slots p.1 ≠ some p.2).map (·.1)
  let idx := (insts.flatMap (fun i => i.slots.map (·.1)) ++ switched).eraseDups
  ids.flatMap s.sigItem ++ idx.flatMap (slotItem c) ++ s.standing.filter fun i => !s.pair.sent.contains i

/-- The bytes that the Geyser link carries in one frame: 1.25 GB/s on each lane that is up, framing of 1.5 % deducted (R209). -/
def State.linkBytes (s : State) : Nat :=
  ((List.range 2).filter fun l => s.bit R.PAIR.ROLE.LANES l).length * 1250 * s.pUs * 1000 / 1015

/-- Bulk data begin for a partner that joins with the same configuration version (R210, R325). -/
def State.startBulk (s : State) (f : Nat) : State :=
  match s.partner with
  | some h =>
    if h.flags.toNat / 16 % 2 = 1 && s.pair.bulkB.isNone && h.cfgver = s.reg R.CFG.CURVER.CFGVER.off then
      let s1 := s.send (.bulk f s.copyfmt s.bulkItems)
      { s1 with pair := { s1.pair with bulkB := some f, bulkE := none, bulkLeft := 1048576 * s.resyncMib } }
    else s
  | none => s

/-- In the frame after COMMIT of `f` bulk data use what a copy of `n` bytes leaves of the link; BULKEND follows the last of them (R210; the volume is that of
R158, DEDUCED, assumption 17). -/
def State.sendBulk (s : State) (f n : Nat) : State :=
  match s.pair.bulkB, s.pair.bulkE with
  | some b, none =>
    let left := s.pair.bulkLeft - (s.linkBytes - n)
    let s1 := { s with pair := { s.pair with bulkLeft := left } }
    if left = 0 then
      let s2 := s1.send (.bulkEnd b)
      { s2 with pair := { s2.pair with bulkE := some f } }
    else s1
  | _, _ => s

/-- Sends the copy of the present frame, and bulk data to a partner that joins. -/
def State.sendCopy (s : State) (old : Chan) (insts : List Inst) : State :=
  let f := s.gong.frame
  let items := s.copyItems old insts
  let n := s.get R.VOTE.SCRUB.FRAMES
  let s1 := s.send (.copy f items (s.reg R.PAIR.EPOCH.fld.off) (if n = 0 then 0 else f % n) (s.copyDigest (s.ch s.leadCh)))
  let s2 := { s1 with pair := { s1.pair with await := s1.pair.await ++ [f], copy := items, sent := s.standing } }
  let s3 := s2.set R.PAIR.COPYPEAK.BYTES (max (s2.get R.PAIR.COPYPEAK.BYTES) (itemsSize items))
  (s3.startBulk f).sendBulk f (itemsSize items)

/-! ### The whole COMMIT -/

/-- Claims of tasks that no longer have an instance are returned (R290). -/
def State.returnClaims (s : State) : State :=
  s.evReturn ((s.evs.filterMap fun p => p.2.task).filter fun t => (tblFind (s.ch s.leadCh).insts t).isNone)

/-- Demands of the outputs (R225). -/
def State.execDemands (s : State) : State :=
  forN 8 s fun t o => t.execDemand (Fin.ofNat 8 o) (t.demandOf (t.ch t.leadCh) o)

/-- Steps 3 to 6 and what follows them, in a module that leads. -/
def State.commitWork (s : State) : State :=
  let ts := s.committing
  let insts := ts.filterMap fun t => tblFind (s.ch s.leadCh).insts t
  let next := s.gong.nextFrame s.pNs
  let s1 := (((s.releaseEntries ts).clearEntries ts).applyWrites ts).execDemands
  let skips := s1.newSkips
  let s2 := (s1.countSkips.endCycles ts).exchCommit next
  let s3 := (s2.capture next).retDue s.gong.frame s.gong.tick
  let s4 := if s3.role = .active then s3.sendCopy (s.ch s.leadCh) insts else s3
  let s5 := { s4 with pair := { s4.pair with lastF := s.gong.frame, touched := [] } }.returnClaims
  s5.endTriggers (s5.limitHits skips) s.seqr.fault

/-- The commit of the present frame. A module that does not lead, or has not come to the first tick of its leadership (R204), votes its digests and
drives no output. -/
def State.commitFrame (s : State) : State :=
  let s1 := s.commitVotes
  (if s1.mstate ≠ .run then s1 else if s1.works then s1.commitWork else s1.execDemands).set R.GONG.STATUS.PHASE 4

/-- COMMIT: after CUT. -/
def execCommit (s : State) : Host.Outcome State Fault Refusal :=
  s.whilePowered (if s.mstate ≠ .run ∨ s.get R.GONG.STATUS.PHASE ≠ 2 then s else s.commitFrame)

end Sys2Proof.Machine
end

