-- ==== Sys2Proof/Machine/OsrusCond.lean ====
section
/-! DEFINITION. Condition, compare, select and branch instructions (R115 to R120). -/

namespace Sys2Proof.Machine

/-- c[cd] = f of the registers. -/
def condOp (cd : CReg) (f : Ctx → Bool) : Op := regOp 4 fun x => x.setC cd (f x)

/-- CAND: c[cd] = (c[ca] xor NA) and (c[cb] xor NB). -/
def execCand (e : Eng) (cd ca cb : CReg) (na nb : Bool) (rsv : BitVec 9) (s : State) : Host.Outcome State Fault Refusal :=
  .next (s.osrus e (rsv == 0) 4 1 (condOp cd fun x => (x.cr ca ^^ na) && (x.cr cb ^^ nb)))

/-- COR: c[cd] = (c[ca] xor NA) or (c[cb] xor NB). -/
def execCor (e : Eng) (cd ca cb : CReg) (na nb : Bool) (rsv : BitVec 9) (s : State) : Host.Outcome State Fault Refusal :=
  .next (s.osrus e (rsv == 0) 4 1 (condOp cd fun x => (x.cr ca ^^ na) || (x.cr cb ^^ nb)))

/-- CXOR: c[cd] = (c[ca] xor NA) xor (c[cb] xor NB). -/
def execCxor (e : Eng) (cd ca cb : CReg) (na nb : Bool) (rsv : BitVec 9) (s : State) : Host.Outcome State Fault Refusal :=
  .next (s.osrus e (rsv == 0) 4 1 (condOp cd fun x => (x.cr ca ^^ na) ^^ (x.cr cb ^^ nb)))

/-- CMV: c[cd] = c[ca] xor NA. -/
def execCmv (e : Eng) (cd ca : CReg) (na : Bool) (rsv : BitVec 13) (s : State) : Host.Outcome State Fault Refusal :=
  .next (s.osrus e (rsv == 0) 4 1 (condOp cd fun x => x.cr ca ^^ na))

/-- CNZ: c[cd] = (g[g] != 0). -/
def execCnz (e : Eng) (cd : CReg) (g : GReg) (rsv : BitVec 12) (s : State) : Host.Outcome State Fault Refusal :=
  .next (s.osrus e (rsv == 0) 4 1 (condOp cd fun x => x.gr g != 0))

/-- MFC: g[g] = 1 if (c[ca] xor NA), else 0. -/
def execMfc (e : Eng) (g : GReg) (ca : CReg) (na : Bool) (rsv : BitVec 11) (s : State) :
    Host.Outcome State Fault Refusal :=
  .next (s.osrus e (rsv == 0) 4 1 (regOp 4 fun x => x.setG g (BitVec.ofNat 64 (b2n (x.cr ca ^^ na)))))

/-- TBIT: c[cd] = bit b of g[g]. -/
def execTbit (e : Eng) (cd : CReg) (g : GReg) (b : BitVec 6) (rsv : BitVec 6) (s : State) :
    Host.Outcome State Fault Refusal :=
  .next (s.osrus e (rsv == 0) 4 1 (condOp cd fun x => (x.gr g).toNat / 2 ^ b.toNat % 2 = 1))

/-- CMP: c[cd] = g[ga] rel g[gb]. -/
def execCmp (e : Eng) (rel : BitVec 3) (cd : CReg) (ga gb : GReg) (rsv : BitVec 10) (s : State) :
    Host.Outcome State Fault Refusal :=
  .next (s.osrus e (rsv == 0) 4 1 (condOp cd fun x => relation rel (x.gr ga) (x.gr gb)))

/-- CMPI: c[cd] = g[ga] rel sext(imm15). -/
def execCmpi (e : Eng) (rel : BitVec 3) (cd : CReg) (ga : GReg) (imm : BitVec 15) (s : State) :
    Host.Outcome State Fault Refusal :=
  .next (s.osrus e true 4 1 (condOp cd fun x => relation rel (x.gr ga) (imm.signExtend 64)))

/-- SEL: g[gd] = g[ga] if (c[cs] xor N), else g[gb]. -/
def execSel (e : Eng) (gd : GReg) (cs : CReg) (n : Bool) (ga gb : GReg) (rsv : BitVec 7) (s : State) :
    Host.Outcome State Fault Refusal :=
  .next (s.osrus e (rsv == 0) 4 1 (regOp 4 fun x => x.setG gd (if x.cr cs ^^ n then x.gr ga else x.gr gb)))

/-! ## Branches (R117 to R120) -/

/-- Continues at `target`, which must lie in the unit now running (0x06, R96). The exception's record holds the target as the address
concerned, and 0 for a LOOP target below address 0; the spec does not say which address that is (DESIGN CHOICE, assumption 33). -/
def jump (v : Env) (w : Work) (x : Ctx) (target : Nat) : Res :=
  if v.inUnit w.x target 4 then .ok { w with x := { x with pc := BitVec.ofNat 32 target } } else raise 0x06 target

/-- BC: PC = PC + 4 × disp if (c[cc] xor N), else PC + 4; disp = 0 is illegal. -/
def execBc (e : Eng) (cc : CReg) (n : Bool) (disp : BitVec 22) (s : State) : Host.Outcome State Fault Refusal :=
  .next (s.osrus e (disp != 0) 4 2 fun v w =>
    if w.x.cr cc ^^ n then jump v w w.x (w.x.pc.toNat + 4 * disp.toNat) else .ok { w with x := w.x.adv 4 })

/-- BSW: PC = PC + 4 × (1 + min(g[ga], n)). -/
def execBsw (e : Eng) (ga : GReg) (n : BitVec 10) (rsv : BitVec 11) (s : State) : Host.Outcome State Fault Refusal :=
  .next (s.osrus e (rsv == 0) 4 3 fun v w =>
    jump v w w.x (w.x.pc.toNat + 4 * (1 + min (w.x.gr ga).toNat n.toNat)))

/-- LOOP: counts g[ga] down and branches back (R119); back = 0 and bound = 0 are illegal. A target below address 0 lies
outside every unit. -/
def execLoop (e : Eng) (ga : GReg) (back : BitVec 10) (bound : BitVec 11) (s : State) : Host.Outcome State Fault Refusal :=
  .next (s.osrus e (back != 0 && bound != 0) 4 2 fun v w =>
    let n := (w.x.gr ga).toNat
    if n > bound.toNat then raise 0x07 0
    else if n > 1 then
      let pc := w.x.pc.toNat
      if pc < 4 * back.toNat then raise 0x06 0
      else jump v w (w.x.setG ga (BitVec.ofNat 64 (n - 1))) (pc - 4 * back.toNat)
    else .ok { w with x := (w.x.setG ga 0).adv 4 })

/-- CALL: pushes the address after the CALL, SB and IB, sets IB = IB + k and PC to the unit's entry (R95, R120); 0x04 with a full
stack, 0x05 for an undefined unit or, from a safety task class, a unit without SAFE (R102). -/
def execCall (e : Eng) (unit : BitVec 12) (k : BitVec 14) (s : State) : Host.Outcome State Fault Refusal :=
  .next (s.osrus e true 4 4 fun v w =>
    if 16 ≤ w.x.stack.length then raise 0x04 0
    else match unitOf v.prog unit.toNat with
      | none => raise 0x05 0
      | some u =>
        if w.x.safe && !u.safe then raise 0x05 0
        else .ok { w with x := { w.x with
          stack := ⟨w.x.pc + 4, w.x.sb, w.x.ib, w.x.unit⟩ :: w.x.stack
          ib := w.x.ib + k.zeroExtend 20
          pc := BitVec.ofNat 32 u.entry
          unit := u.num } })

/-- RET: pops the top entry and restores PC, SB and IB; 0x04 with an empty stack. -/
def execRet (e : Eng) (rsv : BitVec 26) (s : State) : Host.Outcome State Fault Refusal :=
  .next (s.osrus e (rsv == 0) 4 4 fun _ w =>
    match w.x.stack with
    | [] => raise 0x04 0
    | f :: fs => .ok { w with x := { w.x with stack := fs, pc := f.pc, sb := f.sb, ib := f.ib, unit := f.unit } })

end Sys2Proof.Machine
end

