-- ==== Sys2Proof/Machine/OsrusFloat.lean ====
section
/-! DEFINITION. The floating-point instructions (R132, R133; Table 5-10). -/

namespace Sys2Proof.Machine

/-- The operand bits of a format: [31:0] of a binary32 operand, all of a binary64 one. -/
def fIn (d : Bool) (v : Word) : Nat := v.toNat % 2 ^ (fmtOf d).width

/-- A float result: binary32 results have [63:32] zero. -/
def fOut (n : Nat) : Word := BitVec.ofNat 64 n

/-- ST with flags accumulated in FX. -/
def Ctx.addFx (x : Ctx) (fl : Nat) : Ctx := { x with st := withField x.st 11 5 (x.fx ||| fl) }

/-- g[gd] = f, with its flags. -/
def floatOp (gd : GReg) (f : Ctx → Nat × Nat) : Op := regOp 4 fun x =>
  let r := f x
  (x.addFx r.2).setG gd (fOut r.1)

/-- FADD: addition. -/
def execFadd (e : Eng) (gd ga gb : GReg) (d : Bool) (rsv : BitVec 4) (s : State) : Host.Outcome State Fault Refusal :=
  .next (s.osrus e (rsv == 0) 4 4 (floatOp gd fun x => (fmtOf d).add x.rm false (fIn d (x.gr ga)) (fIn d (x.gr gb))))

/-- FSUB: subtraction. -/
def execFsub (e : Eng) (gd ga gb : GReg) (d : Bool) (rsv : BitVec 4) (s : State) : Host.Outcome State Fault Refusal :=
  .next (s.osrus e (rsv == 0) 4 4 (floatOp gd fun x => (fmtOf d).add x.rm true (fIn d (x.gr ga)) (fIn d (x.gr gb))))

/-- FMUL: multiplication. -/
def execFmul (e : Eng) (gd ga gb : GReg) (d : Bool) (rsv : BitVec 4) (s : State) : Host.Outcome State Fault Refusal :=
  .next (s.osrus e (rsv == 0) 4 (if d then 5 else 4) (floatOp gd fun x => (fmtOf d).mul x.rm (fIn d (x.gr ga)) (fIn d (x.gr gb))))

/-- FDIV: division. -/
def execFdiv (e : Eng) (gd ga gb : GReg) (d : Bool) (rsv : BitVec 4) (s : State) : Host.Outcome State Fault Refusal :=
  .next (s.osrus e (rsv == 0) 4 (if d then 22 else 14) (floatOp gd fun x => (fmtOf d).div x.rm (fIn d (x.gr ga)) (fIn d (x.gr gb))))

/-- FMIN: minimumNumber. -/
def execFmin (e : Eng) (gd ga gb : GReg) (d : Bool) (rsv : BitVec 4) (s : State) : Host.Outcome State Fault Refusal :=
  .next (s.osrus e (rsv == 0) 4 2 (floatOp gd fun x => (fmtOf d).minMax false (fIn d (x.gr ga)) (fIn d (x.gr gb))))

/-- FMAX: maximumNumber. -/
def execFmax (e : Eng) (gd ga gb : GReg) (d : Bool) (rsv : BitVec 4) (s : State) : Host.Outcome State Fault Refusal :=
  .next (s.osrus e (rsv == 0) 4 2 (floatOp gd fun x => (fmtOf d).minMax true (fIn d (x.gr ga)) (fIn d (x.gr gb))))

/-- FSQRT: square root. -/
def execFsqrt (e : Eng) (gd ga : GReg) (d : Bool) (rsv : BitVec 9) (s : State) : Host.Outcome State Fault Refusal :=
  .next (s.osrus e (rsv == 0) 4 (if d then 26 else 16) (floatOp gd fun x => (fmtOf d).sqrt x.rm (fIn d (x.gr ga))))

/-- FRND: to an integral value in the same format, by RM (assumption 7). -/
def execFrnd (e : Eng) (gd ga : GReg) (d : Bool) (rsv : BitVec 9) (s : State) : Host.Outcome State Fault Refusal :=
  .next (s.osrus e (rsv == 0) 4 3 (floatOp gd fun x => (fmtOf d).integral x.rm (fIn d (x.gr ga))))

/-- FABS: clears the sign bit; no flags. -/
def execFabs (e : Eng) (gd ga : GReg) (d : Bool) (rsv : BitVec 9) (s : State) : Host.Outcome State Fault Refusal :=
  .next (s.osrus e (rsv == 0) 4 1 (floatOp gd fun x => (fIn d (x.gr ga) % (fmtOf d).signBit, 0)))

/-- FNEG: inverts the sign bit; no flags. -/
def execFneg (e : Eng) (gd ga : GReg) (d : Bool) (rsv : BitVec 9) (s : State) : Host.Outcome State Fault Refusal :=
  .next (s.osrus e (rsv == 0) 4 1 (floatOp gd fun x => ((fIn d (x.gr ga) + (fmtOf d).signBit) % 2 ^ (fmtOf d).width, 0)))

/-- FCVTF: INT64 to float (format by D), rounded by RM. -/
def execFcvtf (e : Eng) (gd ga : GReg) (d : Bool) (rsv : BitVec 9) (s : State) : Host.Outcome State Fault Refusal :=
  .next (s.osrus e (rsv == 0) 4 3 (floatOp gd fun x => (fmtOf d).ofInt x.rm (x.gr ga)))

/-- FCVTS: D = 0 binary32 to binary64, D = 1 binary64 to binary32. -/
def execFcvts (e : Eng) (gd ga : GReg) (d : Bool) (rsv : BitVec 9) (s : State) : Host.Outcome State Fault Refusal :=
  .next (s.osrus e (rsv == 0) 4 2 (floatOp gd fun x => (fmtOf d).convert (fmtOf (!d)) x.rm (fIn d (x.gr ga))))

/-- FCVTI: float (format by D) to INT64, rounded by RM. -/
def execFcvti (e : Eng) (gd ga : GReg) (d : Bool) (rsv : BitVec 9) (s : State) : Host.Outcome State Fault Refusal :=
  .next (s.osrus e (rsv == 0) 4 3 (regOp 4 fun x =>
    let r := (fmtOf d).toInt x.rm (fIn d (x.gr ga))
    (x.addFx r.2).setG gd r.1))

/-- FCMP: c[cd] = relation; codes 8 to 15 are illegal. -/
def execFcmp (e : Eng) (rel : BitVec 4) (cd : CReg) (ga gb : GReg) (d : Bool) (rsv : BitVec 2) (s : State) :
    Host.Outcome State Fault Refusal :=
  .next (s.osrus e (rsv == 0 && rel.toNat < 8) 4 2 (regOp 4 fun x =>
    let r := (fmtOf d).cmp rel.toNat (fIn d (x.gr ga)) (fIn d (x.gr gb))
    (x.addFx r.2).setC cd r.1))

end Sys2Proof.Machine
end

