-- ==== Sys2Proof/Machine/OsrusInt.lean ====
section
/-! DEFINITION. The integer and logic instructions (R112, R113; Table 5-2). -/

namespace Sys2Proof.Machine

/-- gd = f(ga, gb). -/
def binOp (gd ga gb : GReg) (f : Word → Word → Word) : Op := regOp 4 fun x => x.setG gd (f (x.gr ga) (x.gr gb))

/-- gd = f(ga, gb), a zero divisor raising 0x0F (R113). -/
def divOp (gd ga gb : GReg) (f : Word → Word → Word) : Op := fun v w =>
  if w.x.gr gb = 0 then raise 0x0F 0 else binOp gd ga gb f v w

/-- gd = f(ga). -/
def immOp (gd ga : GReg) (f : Word → Word) : Op := regOp 4 fun x => x.setG gd (f (x.gr ga))

/-- ADD: g[gd] = g[ga] + g[gb]. -/
def execAdd (e : Eng) (gd ga gb : GReg) (rsv : BitVec 5) (s : State) : Host.Outcome State Fault Refusal :=
  .next (s.osrus e (rsv == 0) 4 1 (binOp gd ga gb (· + ·)))

/-- SUB: g[gd] = g[ga] − g[gb]. -/
def execSub (e : Eng) (gd ga gb : GReg) (rsv : BitVec 5) (s : State) : Host.Outcome State Fault Refusal :=
  .next (s.osrus e (rsv == 0) 4 1 (binOp gd ga gb (· - ·)))

/-- MUL: low 64 bits of the product. -/
def execMul (e : Eng) (gd ga gb : GReg) (rsv : BitVec 5) (s : State) : Host.Outcome State Fault Refusal :=
  .next (s.osrus e (rsv == 0) 4 3 (binOp gd ga gb (· * ·)))

/-- MULH: high 64 bits of the signed product. -/
def execMulh (e : Eng) (gd ga gb : GReg) (rsv : BitVec 5) (s : State) : Host.Outcome State Fault Refusal :=
  .next (s.osrus e (rsv == 0) 4 4 (binOp gd ga gb mulHigh))

/-- MULHU: high 64 bits of the unsigned product. -/
def execMulhu (e : Eng) (gd ga gb : GReg) (rsv : BitVec 5) (s : State) : Host.Outcome State Fault Refusal :=
  .next (s.osrus e (rsv == 0) 4 4 (binOp gd ga gb mulHighU))

/-- DIV: signed quotient, truncated toward zero; 0x0F on a zero divisor. -/
def execDiv (e : Eng) (gd ga gb : GReg) (rsv : BitVec 5) (s : State) : Host.Outcome State Fault Refusal :=
  .next (s.osrus e (rsv == 0) 4 20 (divOp gd ga gb divS))

/-- DIVU: unsigned quotient; 0x0F on a zero divisor. -/
def execDivu (e : Eng) (gd ga gb : GReg) (rsv : BitVec 5) (s : State) : Host.Outcome State Fault Refusal :=
  .next (s.osrus e (rsv == 0) 4 20 (divOp gd ga gb divU))

/-- REM: signed remainder, sign of the dividend; 0x0F on a zero divisor. -/
def execRem (e : Eng) (gd ga gb : GReg) (rsv : BitVec 5) (s : State) : Host.Outcome State Fault Refusal :=
  .next (s.osrus e (rsv == 0) 4 20 (divOp gd ga gb remS))

/-- REMU: unsigned remainder; 0x0F on a zero divisor. -/
def execRemu (e : Eng) (gd ga gb : GReg) (rsv : BitVec 5) (s : State) : Host.Outcome State Fault Refusal :=
  .next (s.osrus e (rsv == 0) 4 20 (divOp gd ga gb remU))

/-- AND: g[ga] and g[gb]. -/
def execAnd (e : Eng) (gd ga gb : GReg) (rsv : BitVec 5) (s : State) : Host.Outcome State Fault Refusal :=
  .next (s.osrus e (rsv == 0) 4 1 (binOp gd ga gb (· &&& ·)))

/-- OR: g[ga] or g[gb]. -/
def execOr (e : Eng) (gd ga gb : GReg) (rsv : BitVec 5) (s : State) : Host.Outcome State Fault Refusal :=
  .next (s.osrus e (rsv == 0) 4 1 (binOp gd ga gb (· ||| ·)))

/-- XOR: g[ga] xor g[gb]. -/
def execXor (e : Eng) (gd ga gb : GReg) (rsv : BitVec 5) (s : State) : Host.Outcome State Fault Refusal :=
  .next (s.osrus e (rsv == 0) 4 1 (binOp gd ga gb (· ^^^ ·)))

/-- ANDN: g[ga] and not g[gb]. -/
def execAndn (e : Eng) (gd ga gb : GReg) (rsv : BitVec 5) (s : State) : Host.Outcome State Fault Refusal :=
  .next (s.osrus e (rsv == 0) 4 1 (binOp gd ga gb (fun a b => a &&& ~~~b)))

/-- SLL: left by g[gb][5:0]. -/
def execSll (e : Eng) (gd ga gb : GReg) (rsv : BitVec 5) (s : State) : Host.Outcome State Fault Refusal :=
  .next (s.osrus e (rsv == 0) 4 1 (binOp gd ga gb (fun a b => shiftBy 0 a (b.toNat % 64))))

/-- SRL: logical right by g[gb][5:0]. -/
def execSrl (e : Eng) (gd ga gb : GReg) (rsv : BitVec 5) (s : State) : Host.Outcome State Fault Refusal :=
  .next (s.osrus e (rsv == 0) 4 1 (binOp gd ga gb (fun a b => shiftBy 1 a (b.toNat % 64))))

/-- SRA: arithmetic right by g[gb][5:0]. -/
def execSra (e : Eng) (gd ga gb : GReg) (rsv : BitVec 5) (s : State) : Host.Outcome State Fault Refusal :=
  .next (s.osrus e (rsv == 0) 4 1 (binOp gd ga gb (fun a b => shiftBy 2 a (b.toNat % 64))))

/-- MIN: signed minimum. -/
def execMin (e : Eng) (gd ga gb : GReg) (rsv : BitVec 5) (s : State) : Host.Outcome State Fault Refusal :=
  .next (s.osrus e (rsv == 0) 4 1 (binOp gd ga gb (fun a b => if ltS b a then b else a)))

/-- MAX: signed maximum. -/
def execMax (e : Eng) (gd ga gb : GReg) (rsv : BitVec 5) (s : State) : Host.Outcome State Fault Refusal :=
  .next (s.osrus e (rsv == 0) 4 1 (binOp gd ga gb (fun a b => if ltS a b then b else a)))

/-- MINU: unsigned minimum. -/
def execMinu (e : Eng) (gd ga gb : GReg) (rsv : BitVec 5) (s : State) : Host.Outcome State Fault Refusal :=
  .next (s.osrus e (rsv == 0) 4 1 (binOp gd ga gb (fun a b => if ltU b a then b else a)))

/-- MAXU: unsigned maximum. -/
def execMaxu (e : Eng) (gd ga gb : GReg) (rsv : BitVec 5) (s : State) : Host.Outcome State Fault Refusal :=
  .next (s.osrus e (rsv == 0) 4 1 (binOp gd ga gb (fun a b => if ltU a b then b else a)))

/-- SEXT: sext of the low byte, half-word or word of g[ga]; the size code is sub[7:6], 0b11 is illegal, gb must be 0. -/
def execSext (e : Eng) (gd ga gb : GReg) (sub : BitVec 5) (s : State) : Host.Outcome State Fault Refusal :=
  let size := sub.toNat % 4
  .next (s.osrus e (sub.toNat / 4 == 0 && size != 3 && gb == 0) 4 1
    (immOp gd ga fun a => extend true (sizeBits size) a.toNat))

/-- ZEXT: zext of the low byte, half-word or word of g[ga]; the size code is sub[7:6], 0b11 is illegal, gb must be 0. -/
def execZext (e : Eng) (gd ga gb : GReg) (sub : BitVec 5) (s : State) : Host.Outcome State Fault Refusal :=
  let size := sub.toNat % 4
  .next (s.osrus e (sub.toNat / 4 == 0 && size != 3 && gb == 0) 4 1
    (immOp gd ga fun a => extend false (sizeBits size) a.toNat))

/-- ADDI: g[ga] + sext(imm16). -/
def execAddi (e : Eng) (gd ga : GReg) (imm : BitVec 16) (s : State) : Host.Outcome State Fault Refusal :=
  .next (s.osrus e true 4 1 (immOp gd ga fun a => a + imm.signExtend 64))

/-- ANDI: g[ga] and zext(imm16). -/
def execAndi (e : Eng) (gd ga : GReg) (imm : BitVec 16) (s : State) : Host.Outcome State Fault Refusal :=
  .next (s.osrus e true 4 1 (immOp gd ga fun a => a &&& imm.zeroExtend 64))

/-- ORI: g[ga] or zext(imm16). -/
def execOri (e : Eng) (gd ga : GReg) (imm : BitVec 16) (s : State) : Host.Outcome State Fault Refusal :=
  .next (s.osrus e true 4 1 (immOp gd ga fun a => a ||| imm.zeroExtend 64))

/-- XORI: g[ga] xor zext(imm16). -/
def execXori (e : Eng) (gd ga : GReg) (imm : BitVec 16) (s : State) : Host.Outcome State Fault Refusal :=
  .next (s.osrus e true 4 1 (immOp gd ga fun a => a ^^^ imm.zeroExtend 64))

/-- SHI: as SLL, SRL or SRA by imm16[5:0]; the kind is imm16[7:6] (0b11 illegal), imm16[15:8] is reserved. -/
def execShi (e : Eng) (gd ga : GReg) (imm : BitVec 16) (s : State) : Host.Outcome State Fault Refusal :=
  let kind := imm.toNat / 64 % 4
  .next (s.osrus e (imm.toNat / 256 == 0 && kind != 3) 4 1 (immOp gd ga fun a => shiftBy kind a (imm.toNat % 64)))

/-- LDIL: g[gd] = sext(imm32); a long form of 8 bytes. -/
def execLdil (e : Eng) (gd : GReg) (rsv : BitVec 21) (imm : W32) (s : State) : Host.Outcome State Fault Refusal :=
  .next (s.osrus e (rsv == 0) 8 1 (regOp 8 fun x => x.setG gd (imm.signExtend 64)))

/-- LDIH: g[gd][63:32] = imm32, bits [31:0] unchanged. -/
def execLdih (e : Eng) (gd : GReg) (rsv : BitVec 21) (imm : W32) (s : State) : Host.Outcome State Fault Refusal :=
  .next (s.osrus e (rsv == 0) 8 1
    (regOp 8 fun x => x.setG gd (BitVec.ofNat 64 (2 ^ 32 * imm.toNat + (x.gr gd).toNat % 2 ^ 32))))

end Sys2Proof.Machine
end

