-- ==== Sys2Proof/Machine/OsrusSig.lean ====
section
/-! DEFINITION. The signal access instructions (R61, R121 to R124; Tables 3-4, 5-6 to 5-8). -/

namespace Sys2Proof.Machine

/-- A read of a signal with the checks of R121: the type code and LEN, and the value and quality. ID 0 reads 0. -/
def sigRead (v : Env) (w : Work) (id : Nat) : Except (Nat × Nat) (Nat × Nat × Snap) :=
  if id = 0 then .ok (0, 0, ⟨0, []⟩)
  else match tblFind v.ch.dir id with
    | none => .error (0x08, id)
    | some e =>
      if e.type = 0 then .error (0x08, id)
      else if !((v.prog.reads.getD w.x.cls []).contains id) then .error (0x09, id)
      else if e.home = 4 ∧ w.x.safe then .error (0x0A, id)
      else .ok (e.type, e.len, sigSeen v w.inst w.x id)

/-- The item of a distributed read for chunk `j` of a HOME 4 signal as the instance reads it: address in the exchange area, value as the channel received
it at the copy-in (R144, Table 6-2). A signal of another home has none. The spec does not say in which window the copy-in's distributed reads are
folded: here the instruction that reads the value folds its item (DESIGN CHOICE, assumption 14). -/
def homeItems (v : Env) (w : Work) (id j : Nat) : List (BitVec 128) :=
  match tblFind v.ch.dir id with
  | some e =>
    if id ≠ 0 ∧ e.home = 4 ∧ 8 * j < e.size then
      [itemRead (0x180000000 + e.w1.toNat + 8 * j) (getChunk (sigSeen v w.inst w.x id).val e.size j)]
    else []
  | none => []

/-- A read that ends in a register change; `j` is the chunk of the value that it reads. -/
def readOp (n : Nat) (id : Ctx → Nat) (j : Ctx → Nat) (f : Ctx → Nat × Nat × Snap → Ctx) : Op := fun v w =>
  match sigRead v w (id w.x) with
  | .error r => .error r
  | .ok r => .ok { w with x := (f w.x r).adv n, items := w.items ++ homeItems v w (id w.x) (j w.x) }

/-- A read of the quality, which lies in the directory. -/
def qualOp (n : Nat) (id : Ctx → Nat) (f : Ctx → Nat × Nat × Snap → Ctx) : Op := fun v w =>
  match sigRead v w (id w.x) with
  | .error r => .error r
  | .ok r => .ok { w with x := (f w.x r).adv n }

/-- The first chunk. -/
def chunk0 (_ : Ctx) : Nat := 0

/-- Holds a written value in the instance's write set (R61). -/
def putSig (w : Work) (n id : Nat) (val : List Byte) (folded : List Byte) : Work :=
  { w with
    x := w.x.adv n
    inst := { w.inst with wset := tblPut w.inst.wset id val }
    items := w.items ++ [itemSig id folded] }

/-- A write with the checks of R121; `stored` gives the whole value and the stored form that is folded, or nothing to store.
ID 0 drops the write. -/
def writeOp (n : Nat) (id : Ctx → Nat) (stored : Env → Work → DirEnt → Option (List Byte × List Byte)) : Op := fun v w =>
  let i := id w.x
  if i = 0 then .ok { w with x := w.x.adv n }
  else match tblFind v.ch.dir i with
    | none => raise 0x08 i
    | some e =>
      if e.type = 0 then raise 0x08 i
      else if e.home != 0 || e.owner != w.x.cls then raise 0x0B i
      else match stored v w e with
        | none => .ok { w with x := w.x.adv n }
        | some (val, folded) => .ok (putSig w n i val folded)

/-- The whole value of a BYTES(n) signal with chunk `j` written (R124): into the latest written value, or the snapshot. -/
def chunkInto (v : Env) (w : Work) (e : DirEnt) (id j : Nat) (d : Word) : List Byte × List Byte :=
  let val := putChunk (sigSeen v w.inst w.x id).val e.size j d
  (val, leBytes 8 (getChunk val e.size j).toNat)

/-- The stored form of g[gs] in the signal (R122). -/
def storeG (id : Ctx → Nat) (gs : GReg) (v : Env) (w : Work) (e : DirEnt) : Option (List Byte × List Byte) :=
  if e.isBytes then some (chunkInto v w e (id w.x) 0 (w.x.gr gs))
  else let b := storedForm e.type (w.x.gr gs); some (b, b)

/-- The stored form of a condition (R123): 1 or 0, 1.0 or 0.0; for BYTES byte 0, with bytes 1 to 7 of chunk 0 zero. -/
def storeC (id : Ctx → Nat) (c : Ctx → Bool) (v : Env) (w : Work) (e : DirEnt) : Option (List Byte × List Byte) :=
  let one : Nat := if e.type = 0xA then 0x3F800000 else if e.type = 0xB then 0x3FF0000000000000 else 1
  let d : Word := BitVec.ofNat 64 (if c w.x then one else 0)
  if e.isBytes then some (chunkInto v w e (id w.x) 0 d)
  else let b := storedForm e.type d; some (b, b)

/-- The loaded form into g[gd] (R122). -/
def loadG (gd : GReg) (x : Ctx) (r : Nat × Nat × Snap) : Ctx := x.setG gd (loadedForm r.1 r.2.2.val)

/-- The quality into g[gd][5:0] (R123). -/
def loadQ (gd : GReg) (x : Ctx) (r : Nat × Nat × Snap) : Ctx := x.setG gd (r.2.2.q.zeroExtend 64)

/-- Whether the loaded form is not zero, into c[cd] (R123). -/
def loadC (cd : CReg) (x : Ctx) (r : Nat × Nat × Snap) : Ctx := x.setC cd (loadedForm r.1 r.2.2.val != 0)

/-- LDS: reads a signal by short form. -/
def execLds (e : Eng) (gd : GReg) (off : BitVec 21) (s : State) : Host.Outcome State Fault Refusal :=
  .next (s.osrus e true 4 4 (readOp 4 (shortId · off) chunk0 (loadG gd)))

/-- STS: writes a signal by short form. -/
def execSts (e : Eng) (gs : GReg) (off : BitVec 21) (s : State) : Host.Outcome State Fault Refusal :=
  .next (s.osrus e true 4 3 (writeOp 4 (shortId · off) (storeG (shortId · off) gs)))

/-- LDSQ: reads a signal's quality. -/
def execLdsq (e : Eng) (gd : GReg) (off : BitVec 21) (s : State) : Host.Outcome State Fault Refusal :=
  .next (s.osrus e true 4 4 (qualOp 4 (shortId · off) (loadQ gd)))

/-- LDSC: reads a signal into a condition register. -/
def execLdsc (e : Eng) (cd : CReg) (rsv : BitVec 2) (off : BitVec 21) (s : State) : Host.Outcome State Fault Refusal :=
  .next (s.osrus e (rsv == 0) 4 4 (readOp 4 (shortId · off) chunk0 (loadC cd)))

/-- STSC: writes 1 or 0 from a condition register. -/
def execStsc (e : Eng) (ca : CReg) (n : Bool) (rsv : BitVec 1) (off : BitVec 21) (s : State) :
    Host.Outcome State Fault Refusal :=
  .next (s.osrus e (rsv == 0) 4 3 (writeOp 4 (shortId · off) (storeC (shortId · off) fun x => x.cr ca ^^ n)))

/-- LDSX: reads a signal by indexed ID. -/
def execLdsx (e : Eng) (gd ga : GReg) (imm : BitVec 16) (s : State) : Host.Outcome State Fault Refusal :=
  .next (s.osrus e true 4 4 (readOp 4 (indexedId · ga imm) chunk0 (loadG gd)))

/-- STSX: writes a signal by indexed ID. -/
def execStsx (e : Eng) (gs ga : GReg) (imm : BitVec 16) (s : State) : Host.Outcome State Fault Refusal :=
  .next (s.osrus e true 4 3 (writeOp 4 (indexedId · ga imm) (storeG (indexedId · ga imm) gs)))

/-- LDSB: reads chunk g[gb] of a signal (R124). -/
def execLdsb (e : Eng) (gd ga gb : GReg) (rsv : BitVec 11) (s : State) : Host.Outcome State Fault Refusal :=
  .next (s.osrus e (rsv == 0) 4 5 (readOp 4 (chunkId · ga) (fun x => (x.gr gb).toNat) fun x r =>
    let j := (x.gr gb).toNat
    x.setG gd (if r.1 = 0xD then getChunk r.2.2.val (r.2.1 + 1) j
      else if j = 0 then loadedForm r.1 r.2.2.val else 0)))

/-- STSB: writes chunk g[gb] of a signal (R124). -/
def execStsb (e : Eng) (gs ga gb : GReg) (rsv : BitVec 11) (s : State) : Host.Outcome State Fault Refusal :=
  .next (s.osrus e (rsv == 0) 4 4 (writeOp 4 (chunkId · ga) fun v w e =>
    let j := (w.x.gr gb).toNat
    if e.isBytes then
      (if 8 * j < e.size then some (chunkInto v w e (chunkId w.x ga) j (w.x.gr gs)) else none)
    else if j = 0 then storeG (chunkId · ga) gs v w e else none))

/-- LDS.L: reads a signal by absolute ID. -/
def execLdsL (e : Eng) (gd : GReg) (rsv : BitVec 21) (rsv1 : BitVec 7) (id : BitVec 25) (s : State) :
    Host.Outcome State Fault Refusal :=
  .next (s.osrus e (rsv == 0 && rsv1 == 0) 8 4 (readOp 8 (fun _ => id.toNat) chunk0 (loadG gd)))

/-- STS.L: writes a signal by absolute ID. -/
def execStsL (e : Eng) (gs : GReg) (rsv : BitVec 21) (rsv1 : BitVec 7) (id : BitVec 25) (s : State) :
    Host.Outcome State Fault Refusal :=
  .next (s.osrus e (rsv == 0 && rsv1 == 0) 8 3 (writeOp 8 (fun _ => id.toNat) (storeG (fun _ => id.toNat) gs)))

/-- LDSQ.L: reads a signal's quality by absolute ID. -/
def execLdsqL (e : Eng) (gd : GReg) (rsv : BitVec 21) (rsv1 : BitVec 7) (id : BitVec 25) (s : State) :
    Host.Outcome State Fault Refusal :=
  .next (s.osrus e (rsv == 0 && rsv1 == 0) 8 4 (qualOp 8 (fun _ => id.toNat) (loadQ gd)))

/-- LDSC.L: reads a signal into a condition register by absolute ID. -/
def execLdscL (e : Eng) (cd : CReg) (rsv : BitVec 23) (rsv1 : BitVec 7) (id : BitVec 25) (s : State) :
    Host.Outcome State Fault Refusal :=
  .next (s.osrus e (rsv == 0 && rsv1 == 0) 8 4 (readOp 8 (fun _ => id.toNat) chunk0 (loadC cd)))

/-- STSC.L: writes 1 or 0 from a condition register by absolute ID. -/
def execStscL (e : Eng) (ca : CReg) (n : Bool) (rsv : BitVec 22) (rsv1 : BitVec 7) (id : BitVec 25) (s : State) :
    Host.Outcome State Fault Refusal :=
  .next (s.osrus e (rsv == 0 && rsv1 == 0) 8 3
    (writeOp 8 (fun _ => id.toNat) (storeC (fun _ => id.toNat) fun x => x.cr ca ^^ n)))

end Sys2Proof.Machine
end

