-- ==== Sys2Proof/Machine/OsrusSlot.lean ====
section
/-! DEFINITION. The instance operations (R89, R92, R125 to R131; Tables 4-4, 4-5, 5-9). -/

namespace Sys2Proof.Machine

/-- A slot an operation reaches (R89): its index below the number of slots, owned by the running class, its KIND accepted. -/
def slotAt (v : Env) (w : Work) (k : Nat) (kind : Nat → Bool) : Except (Nat × Nat) Slot :=
  match slotSeen v w.inst k with
  | some s => if s.owner = w.x.cls && kind s.kind then .ok s else .error (0x0E, k)
  | none => .error (0x0E, k)

/-- The elapsed time of a timer advanced to the instance's release frame (R92, R125). -/
def advanceTimer (pNs fr : Nat) (s : Slot) (pt : Int) : Slot :=
  let d := (fr - s.l.toNat) * pNs
  { s with e := BitVec.ofInt 64 (min (s.e.toInt + d) pt), l := BitVec.ofNat 64 fr }

/-- A timer that starts to time: ET 0, LASTF F_r. -/
def startTimer (fr : Nat) (s : Slot) : Slot := { s with e := 0, l := BitVec.ofNat 64 fr }

/-- TON (R126), with the slot's M as the operation sees it. -/
def tonSlot (pNs fr : Nat) (pt : Int) (i : Bool) (s : Slot) : Slot :=
  if i then
    let (s1, q, run) :=
      if !s.m then (startTimer fr s, false, true)
      else if s.run then (advanceTimer pNs fr s pt, s.q, true)
      else (s, s.q, false)
    if run && s1.e.toInt ≥ pt then s1.setQMR true i false else s1.setQMR q i run
  else { s with e := 0 }.setQMR false i false

/-- TOF (R127). -/
def tofSlot (pNs fr : Nat) (pt : Int) (i : Bool) (s : Slot) : Slot :=
  if i then { s with e := 0 }.setQMR true i false
  else
    let (s1, run) :=
      if s.m then (startTimer fr s, true)
      else if s.run then (advanceTimer pNs fr s pt, true)
      else (s, false)
    if run && s1.e.toInt ≥ pt then s1.setQMR false i false else s1.setQMR s.q i run

/-- TP (R128). -/
def tpSlot (pNs fr : Nat) (pt : Int) (i : Bool) (s : Slot) : Slot :=
  if s.run then
    let s1 := advanceTimer pNs fr s pt
    if s1.e.toInt ≥ pt then s1.setQMR false i false else s1.setQMR s.q i true
  else if i && !s.m then
    let s1 := startTimer fr s
    if pt = 0 then s1.setQMR false i false else s1.setQMR true i true
  else if !i then { s with e := 0 }.setQMR s.q i false
  else s.setQMR s.q i false

/-- CTU (R130): CV saturates. -/
def ctuSlot (pv : Word) (i r : Bool) (s : Slot) : Slot :=
  let cv := if r then 0 else if i && !s.m && ltS s.e (BitVec.intMax 64) then s.e + 1 else s.e
  { s with p := pv, e := cv }.setQMR (!ltS cv pv) i s.run

/-- CTD (R130). -/
def ctdSlot (pv : Word) (i ld : Bool) (s : Slot) : Slot :=
  let cv := if ld then pv else if i && !s.m && ltS (BitVec.intMin 64) s.e then s.e - 1 else s.e
  { s with p := pv, e := cv }.setQMR (!ltS 0 cv) i s.run

/-- The items of a slot change (Table 6-2): the fields that changed, in field order (assumption 8). -/
def slotItems (k : Nat) (a b : Slot) : List (BitVec 128) :=
  let w0 (s : Slot) : Word := BitVec.ofNat 64 (s.w0.toNat + 2 ^ 32 * s.inst.toNat)
  (if a.w0 = b.w0 then [] else [itemSlot 0 k (w0 b)]) ++ (if a.p = b.p then [] else [itemSlot 1 k b.p]) ++
    (if a.e = b.e then [] else [itemSlot 2 k b.e]) ++ (if a.l = b.l then [] else [itemSlot 3 k b.l])

/-- An instance operation of KIND `kind`: slot IB + off evaluated by `f` into the write set, Q into c[cq] (R125). The adoption
mark makes the first evaluation take M equal to the input, and goes with it (R181). -/
def instOp (kind : Nat) (cq ci : CReg) (off : BitVec 12) (f : Env → Work → Slot → Slot) : Op := fun v w =>
  let k := slotIndex w.x off
  match slotAt v w k (· = kind) with
  | .error r => .error r
  | .ok s0 =>
    let s := if s0.adopt then { s0.setQMR s0.q (w.x.cr ci) s0.run with adopt := false } else s0
    let s1 := f v w s
    .ok { w with
      x := (w.x.setC cq s1.q).adv 4
      inst := { w.inst with slots := tblPut w.inst.slots k s1 }
      items := w.items ++ slotItems k s0 s1 }

/-- A timer operation: the preset is max(g[gp], 0), written to PT. -/
def timerOp (kind : Nat) (cq ci : CReg) (gp : GReg) (off : BitVec 12) (f : Nat → Nat → Int → Bool → Slot → Slot) : Op :=
  instOp kind cq ci off fun v w s =>
    let pt := max (w.x.gr gp).toInt 0
    { f v.pNs w.inst.fr pt (w.x.cr ci) s with p := BitVec.ofInt 64 pt }

/-- TON: on-delay timer. -/
def execTon (e : Eng) (cq ci : CReg) (gp : GReg) (rsv : BitVec 3) (off : BitVec 12) (s : State) :
    Host.Outcome State Fault Refusal :=
  .next (s.osrus e (rsv == 0) 4 6 (timerOp 1 cq ci gp off tonSlot))

/-- TOF: off-delay timer. -/
def execTof (e : Eng) (cq ci : CReg) (gp : GReg) (rsv : BitVec 3) (off : BitVec 12) (s : State) :
    Host.Outcome State Fault Refusal :=
  .next (s.osrus e (rsv == 0) 4 6 (timerOp 2 cq ci gp off tofSlot))

/-- TP: pulse timer. -/
def execTp (e : Eng) (cq ci : CReg) (gp : GReg) (rsv : BitVec 3) (off : BitVec 12) (s : State) :
    Host.Outcome State Fault Refusal :=
  .next (s.osrus e (rsv == 0) 4 6 (timerOp 3 cq ci gp off tpSlot))

/-- REDGE: Q = (input and not M) (R129). -/
def execRedge (e : Eng) (cq ci : CReg) (rsv : BitVec 8) (off : BitVec 12) (s : State) :
    Host.Outcome State Fault Refusal :=
  .next (s.osrus e (rsv == 0) 4 4 (instOp 4 cq ci off fun _ w t => t.setQMR (w.x.cr ci && !t.m) (w.x.cr ci) t.run))

/-- FEDGE: Q = (not input and M) (R129). -/
def execFedge (e : Eng) (cq ci : CReg) (rsv : BitVec 8) (off : BitVec 12) (s : State) :
    Host.Outcome State Fault Refusal :=
  .next (s.osrus e (rsv == 0) 4 4 (instOp 5 cq ci off fun _ w t => t.setQMR (!w.x.cr ci && t.m) (w.x.cr ci) t.run))

/-- CTU: up-counter; c[cr] is the reset. -/
def execCtu (e : Eng) (cq ci cr : CReg) (gp : GReg) (off : BitVec 12) (s : State) : Host.Outcome State Fault Refusal :=
  .next (s.osrus e true 4 5 (instOp 6 cq ci off fun _ w t => ctuSlot (w.x.gr gp) (w.x.cr ci) (w.x.cr cr) t))

/-- CTD: down-counter; c[cr] is the load. -/
def execCtd (e : Eng) (cq ci cr : CReg) (gp : GReg) (off : BitVec 12) (s : State) : Host.Outcome State Fault Refusal :=
  .next (s.osrus e true 4 5 (instOp 7 cq ci off fun _ w t => ctdSlot (w.x.gr gp) (w.x.cr ci) (w.x.cr cr) t))

/-- SLD: reads word 0, PT or PV, ET or CV, or LASTF of a slot of any KIND from 1 to 7 (R131). -/
def execSld (e : Eng) (gd : GReg) (sel : BitVec 2) (rsv : BitVec 7) (off : BitVec 12) (s : State) :
    Host.Outcome State Fault Refusal :=
  .next (s.osrus e (rsv == 0) 4 3 fun v w =>
    match slotAt v w (slotIndex w.x off) (fun k => 1 ≤ k && k ≤ 7) with
    | .error r => .error r
    | .ok t =>
      let d : Word := match sel.toNat with
        | 0 => t.w0.zeroExtend 64
        | 1 => t.p
        | 2 => t.e
        | _ => t.l
      .ok { w with x := (w.x.setG gd d).adv 4 })

end Sys2Proof.Machine
end

