-- ==== Sys2Proof/Machine/OsrusSys.lean ====
section
/-! DEFINITION. The system instructions that stay inside the engine (R134 to R136; Table 5-11). -/

namespace Sys2Proof.Machine

/-- Records the latest end of a finished segment (Table 2-16), where the leading copy's segment on engine `e` has just finished: `s` is the
state before the instruction. -/
def State.finishSeg (t s : State) (e : Eng) : State :=
  let ch := s.leadCh
  match (s.ch ch).eng[e].run, (t.ch ch).eng[e].run with
  | some task, none =>
    if (tblFind (t.ch ch).insts task).isSome then
      t.set (R.TASK.ENGPEAK.NS e.val) (max (t.get (R.TASK.ENGPEAK.NS e.val)) (t.nowNs - t.gong.tick))
    else t
  | _, _ => t

/-- NOP: none. -/
def execNop (e : Eng) (rsv : BitVec 20) (s : State) : Host.Outcome State Fault Refusal :=
  .next (s.osrus e (rsv == 0) 4 1 (regOp 4 id))

/-- SYNC: closes the engine's current vote window. -/
def execSync (e : Eng) (rsv : BitVec 20) (s : State) : Host.Outcome State Fault Refusal :=
  .next (s.osrus e (rsv == 0) 4 2 fun _ w => .ok { w with x := w.x.adv 4, point := true })

/-- YIELD: ends the current segment and saves the context; in the last scheduled segment it ends the instance (R135). -/
def execYield (e : Eng) (rsv : BitVec 20) (s : State) : Host.Outcome State Fault Refusal :=
  .next ((s.osrus e (rsv == 0) 4 2 fun v w =>
    .ok { w with x := w.x.adv 4, point := true, segEnd := true, instEnd := v.last }).finishSeg s e)

/-- YIELD.E: ends the instance in any segment. -/
def execYieldE (e : Eng) (rsv : BitVec 20) (s : State) : Host.Outcome State Fault Refusal :=
  .next ((s.osrus e (rsv == 0) 4 2 fun _ w =>
    .ok { w with x := w.x.adv 4, point := true, segEnd := true, instEnd := true }).finishSeg s e)

/-- FAULT: raise(0x11) with the code (R99, R134). -/
def execFaultI (e : Eng) (code : BitVec 10) (rsv : BitVec 10) (s : State) : Host.Outcome State Fault Refusal :=
  .next (s.osrus e (rsv == 0) 4 1 fun _ _ => raise 0x11 code.toNat)

/-- MFS: a special register, zero-extended (R136). -/
def execMfs (e : Eng) (gd : GReg) (sel : BitVec 5) (rsv : BitVec 10) (s : State) : Host.Outcome State Fault Refusal :=
  .next (s.osrus e (rsv == 0 && sel.toNat < 5) 4 1 fun v w =>
    let d : Word := match sel.toNat with
      | 0 => w.x.sb.zeroExtend 64
      | 1 => w.x.ib.zeroExtend 64
      | 2 => w.x.pc.zeroExtend 64
      | 3 => w.x.st.zeroExtend 64
      | _ => (v.ch.eng[v.eng]).bud.zeroExtend 64
    .ok { w with x := (w.x.setG gd d).adv 4 })

/-- MTS: SB, IB, or RM and FX of ST from g[ga]; sel 2 and 4 are illegal (R136). -/
def execMts (e : Eng) (ga : GReg) (sel : BitVec 5) (rsv : BitVec 10) (s : State) : Host.Outcome State Fault Refusal :=
  .next (s.osrus e (rsv == 0 && (sel.toNat == 0 || sel.toNat == 1 || sel.toNat == 3)) 4 2 (regOp 4 fun x =>
    let d := x.gr ga
    match sel.toNat with
    | 0 => { x with sb := d.truncate 25 }
    | 1 => { x with ib := d.truncate 20 }
    | _ =>
      let v := d.truncate 32
      { x with st := withField (withField x.st 16 2 (fieldOf v 16 2)) 11 5 (fieldOf v 11 5) }))

end Sys2Proof.Machine
end

