-- ==== Sys2Proof/Machine/Start.lean ====
section
/-! DEFINITION. A start of the module (01, R17 to R21; 06, R162; 07, R171, R187; 14, R318, R319, R324, R326 to R328; 15, R339, R340;
16, R349, R358): its beginning, BOOT, and the loading of the program in INIT. -/

namespace Sys2Proof.Machine

/-! ## The image check (R339) -/

/-- What R339 makes of the image slots: the slot to start from, whether the other slot became active, whether a trial was
abandoned. -/
structure ImageStart where
  slot : Option Nat
  fall : Bool
  back : Bool
  deriving DecidableEq, Repr

/-- A slot passes its checks. -/
def State.passes (s : State) (n : Nat) : Bool := s.slotCheck n = 0

/-- TRIALN in force. -/
def State.trialN (s : State) : Nat := inRange (s.get R.UPD.CFG.TRIALN) 1 5 3

/-- The slot to start from: the active one, else the other, which falls back where the active one fails its checks; from a slot on trial that fails or used up
its starts, the previous one. -/
def State.imageStart (s : State) : ImageStart :=
  let act := s.actSlot
  let other := s.idleSlot
  let trial := s.get R.UPD.STATE.TRIAL = 1
  if trial && (decide (s.trialN ≤ s.get R.UPD.STATE.TRIALS) || !s.passes act) then
    if s.passes other then ⟨some other, !s.passes act, true⟩ else if s.passes act then ⟨some act, true, true⟩ else ⟨none, false, true⟩
  else if act ≤ 1 && s.passes act then ⟨some act, false, false⟩
  else if s.passes other then ⟨some other, true, false⟩
  else if 1 < act && s.passes 1 then ⟨some 1, true, false⟩
  else ⟨none, false, false⟩

/-! ## The kind of a start (R21) -/

/-- The start is a warm restart: never from a slot on trial, whose image has not reached RUN since its activation (R21; DEDUCED, assumption 24). -/
def State.startWarm (s : State) : Bool :=
  let i := s.imageStart
  s.sup.restart != some true && s.nv.pend = 0 && s.get R.UPD.STATE.TRIAL = 0 && !s.vote.clearPerm && s.get R.SUP.CFG.WARMEN = 1 &&
    s.sup.lastSafe != 2 && s.sup.lastSafe != 3 && i = ⟨some s.actSlot, false, false⟩ &&
    (match s.slotProgram s.actSlot with
     | some p => (s.chosenRec p.pver s.startCfgver).isSome
     | none => false)

/-! ## The beginning of a start -/

/-- Everything that runs ends: outputs, instances, duties, role and the self-test. -/
def State.stopAll (s : State) : State := (s.outputsOff.dropWork.giveUpDuties.leaveRole).testEnd 3

/-- The vote unit's registers from the exclusion record (R162); CLEARPERM has cleared it (R164). A fault of a voter or of a delay register
stays as it is. -/
def State.restoreVote (s : State) : State :=
  let excl := if s.vote.clearPerm then none else s.vote.excl
  let fresh (r : ChRec) : ChRec := { r with devn := none, readm := none, bulkK := none }
  let s1 := ({ s with
    vote := { s.vote with groups := [], a := fresh s.vote.a, b := fresh s.vote.b, c := fresh s.vote.c, excl := excl, clearPerm := false
                          capture := 0 } }.resetDreg .b).resetDreg .c
  let s2 := ((s1.set R.VOTE.MODE.VMODE 0).set R.VOTE.MODE.INCL 7).set R.VOTE.CHST.all 0
  let s3 := ([Ch.a, .b, .c] : List Ch).foldl (fun t ch => t.set (R.VOTE.CAUSE.all (chNum ch)) 0) s2
  match excl with
  | none => (s3.set R.VOTE.DEGTIME.SEC 0).setLead
  | some x =>
    let n := chNum x.ch
    let s4 := ((s3.set R.VOTE.MODE.VMODE 2).putBit R.VOTE.MODE.INCL n false).set (R.VOTE.CHST.CH n) 4
    let s5 := (s4.set (R.VOTE.CAUSE.fld n) x.cause).set (R.VOTE.CAUSE.ENGINE n) x.devn.eng
    ((s5.set (R.VOTE.CAUSE.DREG n) x.devn.dreg).set (R.VOTE.CAUSE.PERM n) x.reason).setLead

/-- The staging area as a start finds it (Table 15-8); a header whose package has not come is no package. -/
def State.restoreStaging (s : State) : State :=
  match s.upd.hdr, s.upd.man with
  | some h, some _ =>
    if firstReason (s.headSteps h s.kinds) = 0 then
      ((s.set R.UPD.STATE.fld 1).set R.UPD.STATE.KIND h.kind.toNat).setStgid h.mandig
    else s
  | _, _ => s

/-- The I/O controller as a start finds it: a warm restart keeps the faults that ODIAG keeps, and what holds their outputs off (Table 9-17, R230). -/
def SioSt.atStart (v : SioSt) (warm : Bool) : SioSt :=
  let z := State.reset.sio
  if warm then { z with outs := Vector.ofFn fun o => { z.outs[o] with oc := v.outs[o].oc, faults := v.outs[o].faults } } else z

/-- What is not a register as a start finds it; flash, MRAM, Fumarole, the vote unit's records and Solfatara's clock are kept. -/
def State.clearHidden (s : State) (warm : Bool) : State :=
  let z := State.reset
  { s with
    preq := [], latch := [], held := [], resp := none, clk := 2 ^ 32 * s.solNs, gong := z.gong, seqr := z.seqr
    chA := z.chA, chB := z.chB, chC := z.chC, bank0 := none, bank1 := none, act := false, forces := [], fcmds := [], evs := []
    pair := z.pair, sio := s.sio.atStart warm, spd := z.spd, evSeq := z.evSeq, net := z.net, tim := z.tim, brg := z.brg
    ret := { s.ret with due := none, notes := [] }, xch := { z.xch with reports := s.xch.reports }, boot := z.boot
    bist := { z.bist with lcNew := s.bist.lcNew }, session := none, upd := { s.upd with bat := none }
    sup := { z.sup with warm := warm, lastSafe := s.sup.lastSafe, supplyOk := s.sup.supplyOk, supply := s.sup.supply } }

/-- The identity registers, from the factory identity record (R314). -/
def State.restoreIdent (s : State) : State :=
  (s.setPair R.ID.SERIAL_LO.SN R.ID.SERIAL_HI.SN s.nv.serial.toNat).setPair R.ID.MACBASE_LO.MAC R.ID.MACBASE_HI.MAC s.nv.mac.toNat

/-- A start begins in BOOT (R18, R356, R363). `old` is the MSTATE that its record shows; a power failure in progress goes on (R360). The Gong does not
tick in BOOT, so a life-cycle command that is still pending takes effect here (R368; DEDUCED, assumption 24). Where a warm restart keeps STGV at 1, STGVER shows
the staged image's version again, though its Warm column says 0 (DESIGN CHOICE, assumption 24: Table 14-7 also says "staged version; 0 where none"). -/
def State.beginStart (s : State) (old : Nat) : State :=
  let s0 := s.readSlotRec
  let warm := s0.startWarm
  let s1 := s0.stopAll
  let s2 := { s1 with regs := startRegs warm s1.reg }.clearHidden warm
  let s3 := (s2.restoreVote.showAttempts.restoreIdent.restoreStaging).inc R.UPD.BOOTCNT.COUNT
  let s4 := if s3.get R.CFG.STATUS.STGV = 1 then s3.set R.CFG.STGVER.CFGVER (match s3.nv.staged with
    | some m => m.cfgver.toNat
    | none => 0) else s3
  let s5 := if s4.sup.supplyOk then s4 else s4.set R.SUP.STATE.PDOWN 1
  (s5.showUcause.enterState .boot old).lcTick

/-- POWER_INPUT_VALID: the supply, now `mv10`, is above 17.5 V; it was away for `offNs` of Solfatara's clock. A power-down runs to its end first, its
hold-up and its last words (R361). Steward memory has lost its contents, and an activation or a revert whose image was not yet written is forgotten
(R324). -/
def execPowerInputValid (offNs : Nat) (mv10 : BitVec 16) (s : State) : Host.Outcome State Fault Refusal :=
  .next (if s.sup.powered ∨ s.sup.words.isSome ∨ mv10.toNat ≤ 1750 then s
    else
      let s1 := { s with
        nv := { s.nv with pend := 0 }
        sup := { s.sup with powered := true, supplyOk := true, restart := none, supply := mv10.toNat } }
      State.beginStart { s1 with solNs := s.solNs + offNs, smem := [] } 0xFF)

/-- RESTART_BEGIN: an accepted restart begins. A power-down runs to its end first (R361), and so do Solfatara's operations after a trigger (R357). -/
def execRestartBegin (s : State) : Host.Outcome State Fault Refusal :=
  s.whilePowered (if s.sup.restart.isNone ∨ s.sup.down ∨ s.sup.words.isSome then s else s.beginStart (s.get R.SUP.STATE.MSTATE))

/-! ## BOOT -/

/-- The module is in BOOT and has not stopped there. -/
def State.booting (s : State) : Bool := s.mstate = .boot && s.get R.SUP.STATE.STOPC = 0 && s.sup.powered

/-- Every step of BOOT is done. -/
def State.bootDone (s : State) : Bool :=
  let b := s.boot
  s.booting && b.imageOk && b.loaded.length = 4 && b.tocsin && b.slotDone && b.plugDone && b.layered

/-- BOOT ends once its last step is done (Table 1-8). -/
def State.leaveBoot (s : State) : State :=
  if s.bootDone then (s.toState (if s.sup.warm then .init else .starttest)).derive else s

/-- SLOT_CODE_SAMPLE: eight samples of SLOT[4:0] and, in bit 5, SLOTP. A code that is not valid gives the start role FENCED with cause 3. -/
def execSlotCodeSample (samples : List (BitVec 6)) (s : State) : Host.Outcome State Fault Refusal :=
  s.whilePowered (
    if !s.booting ∨ s.boot.slotDone then s
    else
      let v : BitVec 6 := samples.headD 0
      let ones := ((List.range 6).filter fun i => v.getLsbD i).length
      let code := v.toNat % 32
      let ok := samples.length = 8 && samples.all (fun x => x = v) && ones % 2 = 1 && decide (1 ≤ code) && decide (code ≤ 30)
      let s1 := ((s.set R.ID.SLOT.CODE code).set R.ID.SLOT.SLOTP (v.toNat / 32)).set R.ID.SLOT.VALID (b2n ok)
      let b := { s1.boot with slotDone := true }
      let s2 := if ok then { s1 with boot := b } else { s1.flag R.ID.FLAG.SLOTERR with boot := { b with role := some (.fenced, 3) } }
      s2.showUcause.leaveBoot)

/-- The contents of a plug are valid (Table 14-3). -/
def plugOk (b : List Byte) : Bool :=
  b.length = 256 && leNat (b.take 4) = 0x7A1D0001 && leNat (bytesAt b 4 1) = 1 && leNat (bytesAt b 5 1) != 0 &&
    leNat (bytesAt b 252 4) = (crc32 (b.take 252)).toNat

/-- The plug is read. -/
def State.plugDone (s : State) (b : Option (List Byte)) : State :=
  let s1 := match b with
    | some b =>
      let s1 := ((s.set R.ID.PLUG.VALID 1).set R.ID.PLUG.RACK (leNat (bytesAt b 5 1))).set R.ID.PLUG.VTYPE (leNat (bytesAt b 6 2))
      forN 4 s1 fun t w => t.set (R.ID.VEHID.BYTES w) (leNat (bytesAt b (8 + 4 * w) 4))
    | none => s
  (State.showUcause { s1 with boot := { s1.boot with plugDone := true } }).leaveBoot

/-- PLUG_READ: both reads, each nothing where it failed. -/
def execPlugRead (first second : Option (List Byte)) (s : State) : Host.Outcome State Fault Refusal :=
  s.whilePowered (if !s.booting ∨ s.boot.plugDone then s
    else s.plugDone (match first, second with
      | some a, some b => if a = b ∧ plugOk a then some a else none
      | _, _ => none))

/-- An attempt of the first or of the second read of the plug lost arbitration. -/
def BootSt.lost (b : BootSt) (second : Bool) : BootSt := if second then { b with retry2 := b.retry2 + 1 } else { b with retry := b.retry + 1 }

/-- PLUG_READ_RETRY: after the 50th lost attempt of one read that read has failed, and the plug is not valid (R380). -/
def execPlugReadRetry (second : Bool) (s : State) : Host.Outcome State Fault Refusal :=
  s.whilePowered (if !s.booting ∨ s.boot.plugDone then s
    else
      let s1 := { s with boot := s.boot.lost second }
      if 50 ≤ s1.boot.retry ∨ 50 ≤ s1.boot.retry2 then s1.plugDone none else s1)

/-- What the steward takes from slot `n` as it starts from it: digests of the firmware and of the program section, and COPYFMT. -/
def State.takeSlot (s : State) (n : Nat) : BootSt :=
  match s.img n with
  | some i =>
    { s.boot with
      slot := some n, fwDig := sectsDigest i.man [1, 2, 3, 4, 5], prgDig := some (sectsDigest i.man [6]), copyfmt := i.hdr.copyfmt.toNat }
  | none => { s.boot with slot := some n }

/-- The module starts from slot `n`. -/
def State.startFrom (s : State) (n : Nat) (i : ImageStart) : State :=
  let trial := s.get R.UPD.STATE.TRIAL = 1 && !i.back
  let s1 := ((s.set R.UPD.STATE.ACT n).set R.UPD.STATE.TRIAL (b2n trial)).set R.UPD.STATE.TRIALS
    (if trial then s.get R.UPD.STATE.TRIALS + 1 else 0)
  let s2 := if i.fall then s1.flag R.UPD.FLAG.SLOTFALL else s1
  let s3 := (if i.back then s2.flag R.UPD.FLAG.ROLLBACK else s2).setActid
  let s4 := match s3.img n with
    | some x => s3.set R.ID.REV.FWREL x.hdr.fwrel.toNat
    | none => s3
  let s4 := if trial || n ≠ s.actSlot || i.back then s4.writeSlotRec else s4
  { s4 with boot := { s4.takeSlot n with imageOk := true, slotFb := i.fall } }.leaveBoot

/-- IMAGE_CHECK: a start from an image slot, RECOVERY, or a stop in BOOT. Where a trial is abandoned and neither slot passes, the previous slot is the active one
of the slot record from here on. -/
def execImageCheck (s : State) : Host.Outcome State Fault Refusal :=
  s.whilePowered (
    if !s.booting ∨ s.boot.imageOk then s
    else
      let i := s.imageStart
      match i.slot with
      | some n => s.startFrom n i
      | none =>
        let s1 := if i.back then (s.makeActive s.idleSlot false).flag R.UPD.FLAG.ROLLBACK else s
        if s.passes 2 then
          let s2 := ((((s1.set R.UPD.STATE.ACT 2).set R.UPD.STATE.TRIAL 0).setActid).toState .recovery).showUcause
          { s2 with boot := s2.takeSlot 2 }
        else s1.set R.SUP.STATE.STOPC 5)

/-- The slot that this start loads from: the one that passed its checks, whatever an activation since has made active. -/
def State.loadSlot (s : State) : Nat := s.boot.slot.getD s.actSlot

/-- PROCESSOR_LOAD: steps 0 to 3 are sections 5 to 2; `digest` is what the receiver returned. -/
def execProcessorLoad (step : Fin 4) (digest : BitVec 256) (s : State) : Host.Outcome State Fault Refusal :=
  s.whilePowered (
    if !s.booting ∨ !s.boot.imageOk ∨ s.boot.loaded.length ≠ step.val then s
    else match s.img s.loadSlot with
      | none => s
      | some i =>
        if digest = sectsDigest i.man [5 - step.val] then
          { s with boot := { s.boot with loaded := s.boot.loaded ++ [step.val] } }.leaveBoot
        else (s.flag R.UPD.FLAG.LOADERR).set R.SUP.STATE.STOPC 6)

/-- TOCSIN_CONFIG_CONFIRMED: start-hold is withdrawn. -/
def execTocsinConfigConfirmed (s : State) : Host.Outcome State Fault Refusal :=
  s.whilePowered (if !s.booting ∨ s.boot.tocsin ∨ s.boot.loaded = [] then s
    else { s with boot := { s.boot with tocsin := true }, sup := { s.sup with startHold := false } }.leaveBoot)

/-- TOCSIN_CONFIRM_TIMEOUT: 2 s after BOOT began. -/
def execTocsinConfirmTimeout (s : State) : Host.Outcome State Fault Refusal :=
  s.whilePowered (if s.booting ∧ !s.boot.tocsin then s.set R.SUP.STATE.STOPC 7 else s)

/-! ## Layering (R318, R319, R324) -/

/-- An activation or a revert that is pending takes place. -/
def State.applyPend (s : State) : State :=
  let seq := match s.currentImg.bind s.userImg with
    | some m => m.actseq
    | none => 0
  let cur := s.currentImg
  let other := match cur with
    | some n => 1 - n
    | none => 0
  let s0 := { s with nv := { s.nv with pend := 0 } }
  if s.nv.pend = 1 then
    match s.nv.staged with
    | some m =>
      let s1 := s0.setUserImg other (some (sealHeader { m with actseq := seq + 1, prevver := s.startCfgver }))
      ({ s1 with nv := { s1.nv with staged := none } }.set R.CFG.STATUS.STGV 0).set R.CFG.STGVER.CFGVER 0
    | none => s0
  else if s.nv.pend = 2 then
    match s.userImg other with
    | some m => s0.setUserImg other (some (sealHeader { m with actseq := seq + 1 }))
    | none => s0
  else s0

/-- The images are checked (R319): STATUS, versions and flags. -/
def State.checkImages (s : State) : State :=
  let bad (n : Nat) : Bool := (s.userImg n).isSome && !s.imgValid n
  let s1 := if bad 0 || bad 1 then s.flag R.CFG.FLAG.BADIMG else s
  let cur := s.currentImg
  let s2 := match cur, s.newestImg with
    | some n, some m =>
      if n ≠ m then (s1.flag R.CFG.FLAG.FALLBACK).fumarole 0x0A 0x0D 0 (leBytes 1 0x0D ++ leBytes 3 0 ++ leBytes 4 (match s.userImg m with
        | some x => x.cfgver.toNat
        | none => 0))
      else s1
    | _, _ => s1
  match cur with
  | none => ((s2.set R.CFG.STATUS.FACTONLY 1).set R.CFG.STATUS.PREVV 0).set R.CFG.CURVER.CFGVER 0
  | some n =>
    let prev := if s.imgValid (1 - n) then s.userImg (1 - n) else none
    let s3 := ((s2.set R.CFG.STATUS.FACTONLY 0).set R.CFG.STATUS.CUR n).set R.CFG.STATUS.PREVV (b2n prev.isSome)
    (s3.set R.CFG.CURVER.CFGVER s.startCfgver.toNat).set R.CFG.PREVVER.CFGVER (match prev with
      | some m => m.cfgver.toNat
      | none => 0)

/-- Values in force that follow the configuration: base period, CUT offset, port mode (R27, Table 2-9, R242). -/
def State.inForce (s : State) : State :=
  let p := s.get R.GONG.CTRL.PERIOD
  let m := s.get R.NET.CFG.PMODE
  ((s.set R.GONG.STATUS.APERIOD p).set R.GONG.CUTOFS.NS (cutOfs p)).set R.NET.STATUS.APMODE (if m ≤ 2 then m else 0)

/-- CONFIG_LAYERING: where the factory defaults image is not valid the module will stop in INIT. With the limit of the configuration known,
DEGWARN is set again where its condition holds (R163, Table 6-10), and with MODE known UCAUSE shows the first condition of R331 that fails. -/
def execConfigLayering (s : State) : Host.Outcome State Fault Refusal :=
  s.whilePowered (
    if !s.booting ∨ s.boot.layered then s
    else
      let s1 := s.applyPend.checkImages
      let s2 := match s1.factoryImage with
        | some f => ((s1.layered (some f) (s1.currentImg.bind s1.userImg)).checkRanges).inForce
        | none => s1
      let s3 := if s2.degNear then s2.flag R.VOTE.FLAG.DEGWARN else s2
      (State.showUcause { s3 with boot := { s3.boot with layered := true } }).leaveBoot)

/-- INJECTION_TEST: the patterns of Table 6-5 in ascending number, all three channels taking part (R167, R168); in INIT the module derives its addresses (R331). -/
def execInjectionTest (f : TestFaults) (s : State) : Host.Outcome State Fault Refusal :=
  s.whilePowered (
    if s.mstate ≠ .starttest then s
    else
      let passed := (List.range 11).filter (s.patternPasses f)
      let s1 := (s.set R.VOTE.STTEST.PAT (maskOf passed)).set R.VOTE.STTEST.DONE 1
      match (List.range 11).find? fun n => !s.patternPasses f n with
      | none => ((s1.set R.VOTE.STTEST.PASS 1).toState .init).derive
      | some n => (s1.set R.VOTE.STTEST.PASS 0).trigger 5 n)

/-! ## Loading the program (R171, R187, R195, R328) -/

/-- The plug does not fit a version. -/
def State.plugMis (s : State) (p : Program) : Bool :=
  s.get R.ID.PLUG.VALID = 0 || (p.vtype != 0 && p.vtype != s.get R.ID.PLUG.VTYPE) || (p.rack != 0 && p.rack != s.get R.ID.PLUG.RACK)

/-- The image slot's manifest holds no program section. -/
def State.noProgram (s : State) : Bool := match s.img s.loadSlot with
  | some i => (sectOf i.man 6).isNone
  | none => true

/-- Why the module stops in INIT (Table 16-10), 0 where it does not. -/
def State.stopCode (s : State) : Nat :=
  let p := s.slotProgram s.loadSlot
  firstReason
    [(1, !s.noProgram && (match p with | some p => !programOk p s.pUs | none => true)),
     (2, s.factoryImage.isNone),
     (3, match p with | some p => s.plugMis p | none => s.get R.ID.PLUG.VALID = 0),
     (4, s.lcs = 0 || s.lcs = 4), (8, s.noProgram)]

/-- The registers that a version loads (Tables 2-12, 2-16, 3-12, 7-8, 9-15). -/
def State.loadRegs (s : State) (p : Program) : State :=
  let s1 := forN 8 s fun t k => t.setReg (R.TASK.PER.all k).off (perWord p k &&& 0xF33FFF)
  let s2 := ((s1.set R.TASK.SCHEDID.ID p.schedId.toNat).set R.TASK.SCHEDINF.MAXSEG p.maxSeg).set R.TASK.SCHEDINF.HYPER p.hyper
  let s3 := forN 8 (s2.set R.TASK.PVER.fld p.pver.toNat) fun t o => t.set (R.SIO.OSRC.SIGID o) (p.osrc.getD o 0)
  (s3.showUse p).loadTables p

/-- Word 3 and value of a signal, and a slot, of a record as a loader received them. -/
def receivedEnt (rx : List Byte → List Byte) : RetEnt → RetEnt
  | .sig id w3 v => .sig id (receivedSig rx id w3 v).1 (receivedSig rx id w3 v).2
  | .slot i v => .slot i (bytesSlot (rx (slotBytes v)) v.adopt)

/-- A record as a loader received it. -/
def receivedRecord (rx : List Byte → List Byte) (b : RetBuf) : RetBuf := { b with body := b.body.map (receivedEnt rx) }

/-- The items that a loader folds for a record as it received it (R170, R195). -/
def recordItems (b : RetBuf) : List (BitVec 128) :=
  b.body.map fun e => match e with
    | .sig id w3 v => itemInput (BitVec.ofNat 6 (fieldOf w3 0 6)) id v
    | .slot i v => itemInput 0 i (slotBytes v)

/-- A cold start zeroes the retain areas during INIT (R19, Table 7-5). -/
def State.clearRetain (s : State) : State :=
  { s with ret := { s.ret with a := ⟨none, none⟩, b := ⟨none, none⟩, c := ⟨none, none⟩, seq := 0 } }

/-- Every channel that is not excluded is loaded by its own loader, and restored on a warm restart. -/
def State.loadChannels (s : State) (p : Program) : State :=
  let s1 := (s.eachCh s.included fun ch c => freshChan c (versionAs (s.wrongBits ch) p) s.gong.frame).foldVersion false p
  let s2 := s1.initHome4 p.sigs
  match (if s.sup.warm then s.chosenRec p.pver (s.reg R.CFG.CURVER.CFGVER.off) else none) with
  | some b =>
    let s3 := s2.eachCh s.included fun ch c =>
      let r := receivedRecord (s.receivedBytes ch) b
      (recordItems r).foldl (fun c i => c.foldInput s.gong.frame i) (restoreChan c r)
    { s3 with boot := { s3.boot with fRec := some b.frame } }.setPair R.TASK.RETF_LO.FRAME R.TASK.RETF_HI.FRAME b.frame
  | none => s2

/-- The loaders' digest of section 6 is not that of the manifest of the slot that this start loads from (R340). -/
def State.loadWrong (s : State) (digest : BitVec 256) : Bool := (s.img s.loadSlot).any fun i => digest != sectsDigest i.man [6]

/-- PROGRAM_LOAD: in INIT; a cold start clears the retain areas whether or not it stops here (R19). `digest` is what the loaders returned: one
that differs sets LOADERR and stops the module (R340; the load is in INIT, and it stops there: DEDUCED, assumption 24). -/
def execProgramLoad (digest : BitVec 256) (s : State) : Host.Outcome State Fault Refusal :=
  s.whilePowered (
    if s.mstate ≠ .init ∨ s.boot.program ∨ s.get R.SUP.STATE.STOPC ≠ 0 then s
    else
      let why := s.stopCode
      let mis : Bool := match s.slotProgram s.loadSlot with
        | some p => s.plugMis p
        | none => s.get R.ID.PLUG.VALID = 0
      let s0 := if s.sup.warm then s else s.clearRetain
      let s1 := if mis then s0.flag R.ID.FLAG.PLUGMIS else s0
      if why ≠ 0 then s1.set R.SUP.STATE.STOPC why
      else if s.loadWrong digest then (s1.flag R.UPD.FLAG.LOADERR).set R.SUP.STATE.STOPC 6
      else match s.slotProgram s.loadSlot with
        | none => s1
        | some p =>
          let s2 := ({ s1 with bank0 := some p, bank1 := none, act := false }.loadRegs p).loadChannels p
          { s2 with boot := { s2.boot with program := true, prgDig := some digest } })

/-- STORE_CHARGED: INIT can end (R358). -/
def execStoreCharged (mv10 : BitVec 16) (s : State) : Host.Outcome State Fault Refusal :=
  s.whilePowered (if !s.sup.powered then s else (s.set R.SUP.SUPPLY.STORE mv10.toNat).set R.SUP.STATE.STORE 1)

end Sys2Proof.Machine
end

