-- ==== Sys2Proof/Machine/Sup.lean ====
section
/-! DEFINITION. Supervision (16, R349 to R361, R365; 18, R383): Tocsin, Solfatara, external requests, power failure and the steward
commands. -/

namespace Sys2Proof.Machine

/-! ## Tocsin (R349 to R352) -/

/-- Bit `n` of a mask of channels. -/
def chBit (m : Nat) (ch : Ch) : Bool := m / 2 ^ chNum ch % 2 = 1

/-- The included channels that missed, as a mask: their token came outside the window, which `missed` says, or they issued none. -/
def State.missMask (s : State) (missed : Nat) : Nat :=
  maskOf ((s.incl.filter fun ch => chBit missed ch || !chBit s.sup.tokens ch).map chNum)

/-- Trigger 10 follows from a frame in which the channels of `m` missed. -/
def State.wdTrigger (s : State) (m : Nat) (counts : Vector Nat 3) : Bool :=
  let got := (s.incl.filter fun ch => !chBit m ch).length
  if s.incl.length = 3 then decide (got < 2) || counts.toList.any fun n => decide (8 ≤ n)
  else m != 0 || counts.toList.any fun n => decide (8 ≤ n)

/-- Consecutive misses of each channel. -/
def State.missCounts (s : State) (m : Nat) : Vector Nat 3 :=
  Vector.ofFn fun i => if m / 2 ^ i.val % 2 = 1 then s.sup.misses[i] + 1 else 0

/-- WATCHDOG_WINDOW_CLOSE: bit n of `missed` says that no token of channel n arrived in its window. The watchdog is armed in RUN. -/
def execWatchdogWindowClose (missed : BitVec 3) (s : State) : Host.Outcome State Fault Refusal :=
  s.whilePowered (
    if s.mstate ≠ .run then s
    else
      let m := s.missMask missed.toNat
      let counts := s.missCounts m
      let s1 := { s with sup := { s.sup with misses := counts, tokens := 0 } }
      if m = 0 then s1
      else
        let n := (s.incl.filter (chBit m)).length
        let s2 := (s1.set R.SUP.WDOG.LAST m).incSat R.SUP.WDOG.MISSES n
        if s.wdTrigger m counts then s2.trigger 10 m else s2.flag R.SUP.FLAG.WDMISS)

/-- Quantity `no` of Table 16-1 lies outside its trigger band. The value is in the unit of SUP.SUPPLY (10 mV) for the input, in mV for a rail
and in the unit of SUP.TEMP (signed, 0.1 °C) for a temperature (assumption 25). -/
def outsideBand (no : Fin 12) (value : BitVec 16) : Bool :=
  let v := value.toNat
  let off (lo hi : Nat) : Bool := decide (v < lo) || decide (hi < v)
  match no.val with
  | 0 => decide (3000 < v)
  | 4 | 5 | 6 => off 1000 1100
  | 8 => off 1660 1940
  | 9 => off 3040 3560
  | 10 => decide (1250 < value.toInt)
  | 11 => decide (1000 < value.toInt)
  | _ => off 760 840

/-- TOCSIN_MONITOR_TRIGGER: quantity `no` of Table 16-1 with the value measured. -/
def execTocsinMonitorTrigger (no : Fin 12) (value : BitVec 16) (s : State) : Host.Outcome State Fault Refusal :=
  s.whilePowered (
    if !s.tocsinOn || !outsideBand no value then s
    else if no.val < 10 then
      let s1 := if no = 0 then s.setSupply value.toNat else s
      (s1.flag R.SUP.FLAG.RAIL).trigger 11 no.val
    else
      (s.set (if no.val = 10 then R.SUP.TEMP.DIE else R.SUP.TEMP.BOARD) value.toNat).trigger 12 no.val)

/-- TOCSIN_WARNING: a temperature above its warning level, 90 °C for the board and 110 °C for the die. -/
def execTocsinWarning (board : Bool) (value : BitVec 16) (s : State) : Host.Outcome State Fault Refusal :=
  s.whilePowered (if !s.tocsinOn || decide (value.toInt ≤ (if board then 900 else 1100)) then s
    else (s.set (if board then R.SUP.TEMP.BOARD else R.SUP.TEMP.DIE) value.toNat).flag R.SUP.FLAG.TEMPW)

/-- CLOCK_CHECK_WINDOW: the deviation of each channel clock in ppm. -/
def execClockCheckWindow (devA devB devC : Nat) (s : State) : Host.Outcome State Fault Refusal :=
  s.whilePowered (
    if !s.tocsinOn then s
    else
      let devs := [devA, devB, devC]
      let s1 := forN 3 s fun t i => t.set (R.SUP.CLKDEV.CH i) (min 1023 (devs.getD i 0 / 10))
      let far := (List.range 3).filter fun i => decide (1000 < devs.getD i 0)
      let s2 := if far = [] then s1 else s1.flag R.SUP.FLAG.CLKDEV
      if 2 ≤ far.length then s2.trigger 13 (maskOf far) else s2)

/-- TOCSIN_OSC_DEVIATION: Tocsin's own oscillator. -/
def execTocsinOscDeviation (s : State) : Host.Outcome State Fault Refusal := s.whilePowered (if s.tocsinOn then s.trigger 13 8 else s)

/-! ## Solfatara (R356, R358, R359) -/

/-- TOCSIN_LIVENESS_LOST: watched from the withdrawal of start-hold on. -/
def execTocsinLivenessLost (s : State) : Host.Outcome State Fault Refusal := s.whilePowered (if s.tocsinOn then s.trigger 17 0 else s)

/-- SOLFATARA_STORE_LOW: for 1 s in RUN. -/
def execSolfataraStoreLow (mv10 : BitVec 16) (s : State) : Host.Outcome State Fault Refusal :=
  s.whilePowered (if s.mstate ≠ .run then s
    else ((s.set R.SUP.SUPPLY.STORE mv10.toNat).flag R.SUP.FLAG.STORELOW).trigger 14 0)

/-- EXTERNAL_REQUEST: a TSX line open for 2 ms. Tocsin reads the lines (Table 18-1). -/
def execExternalRequest (tsx : BitVec 2) (s : State) : Host.Outcome State Fault Refusal :=
  s.whilePowered (if s.get R.SUP.CFG.EXTEN = 0 ∨ tsx = 0 ∨ !s.tocsinOn then s else (s.flag R.SUP.FLAG.EXTREQ).trigger 15 tsx.toNat)

/-! ## Power failure (R360, R361, R383) -/

/-- POWER_FAILURE: the input lies below 16.8 V; RUN continues. -/
def execPowerFailure (mv10 : BitVec 16) (s : State) : Host.Outcome State Fault Refusal :=
  s.whilePowered (
    if !s.sup.powered ∨ !s.sup.supplyOk ∨ 1680 ≤ mv10.toNat then s
    else
      let s1 := (s.setSupply mv10.toNat).set R.SUP.STATE.PDOWN 1
      let s2 := ((s1.flag R.SUP.FLAG.PFAIL).inc R.SUP.PFCNT.COUNT).fumarole 0x02 0x0F 0x100
        (leBytes 1 (s.get R.SUP.STATE.MSTATE) ++ leBytes 1 0 ++ leBytes 2 mv10.toNat)
      { s2 with sup := { s2.sup with supplyOk := false } })

/-- The entry into SAFE at power-down, which is no trigger but sets SUP.FLAG.SAFE (Table 16-10); in SAFE or RECOVERY the state stays. From now on the sequence runs to its end (R361). -/
def State.powerDown (s : State) : State :=
  if s.mstate = .safe ∨ s.mstate = .recovery then
    let s1 := s.solfatara 0x20
    { s1 with sup := { s1.sup with down := true } }
  else
    let s1 := (s.enterSafe 0x20).flag R.SUP.FLAG.SAFE
    { s1 with sup := { s1.sup with lastSafe := 0x20, down := true } }

/-- POWER_DOWN: at t_pd, or at the end of a COMMIT in progress then. -/
def execPowerDown (s : State) : Host.Outcome State Fault Refusal :=
  s.whilePowered (
    if !s.sup.powered ∨ s.sup.supplyOk ∨ s.sup.down then s
    else
      let s1 := if s.mstate = .run ∧ s.get R.GONG.STATUS.PHASE = 2 then s.commitFrame else s
      s1.powerDown)

/-- POWER_RECOVERED: before t_pd the failure ends with no loss; PFAIL stays. -/
def execPowerRecovered (mv10 : BitVec 16) (s : State) : Host.Outcome State Fault Refusal :=
  s.whilePowered (
    if !s.sup.powered ∨ s.sup.supplyOk ∨ s.sup.down ∨ mv10.toNat ≤ 1750 then s
    else
      let s1 := (s.setSupply mv10.toNat).set R.SUP.STATE.PDOWN 0
      { s1 with sup := { s1.sup with supplyOk := true } })

/-- HOLDUP_END: after a power-down the SoC, the steward and Tocsin stop. Until then the partner hears heartbeats (R360). -/
def execHoldupEnd (s : State) : Host.Outcome State Fault Refusal :=
  s.whilePowered (if s.sup.down then { s with sup := { s.sup with powered := false } } else s)

/-! ## Steward commands (R365) -/

/-- A STW command. -/
def State.stwCommand (s : State) (r : Req) (code why : Nat) (act : State → State) : State :=
  s.command r R.STW.CMD.CODE R.STW.CMDCNT.COUNT R.STW.REASON.CODE code why act

/-- The outcome of RESTART and COLDSTART. -/
def State.restartWhy (s : State) : Nat := firstReason [(2, s.mstate = .boot), (3, !s.noWork)]

/-- STW_RESTART. -/
def execStwRestart (r : Req) (s : State) : Host.Outcome State Fault Refusal :=
  s.whilePowered (s.stwCommand r 1 s.restartWhy fun t => t.acceptRestart false)

/-- COLDSTART. -/
def execColdstart (r : Req) (s : State) : Host.Outcome State Fault Refusal :=
  s.whilePowered (s.stwCommand r 2 s.restartWhy fun t => t.acceptRestart true)

/-- STW_SAFE: trigger 16. -/
def execStwSafe (r : Req) (s : State) : Host.Outcome State Fault Refusal :=
  let m := s.mstate
  s.whilePowered (s.stwCommand r 3 (firstReason [(2, m != .starttest && m != .init && m != .run)]) fun t => t.trigger 16 0)

end Sys2Proof.Machine
end

