-- ==== Sys2Proof/Machine/Registers.lean ====
section
/-! DEFINITION. Reads and writes of single registers (00, R1 to R6; R15, R22, R23, R268, R347): _LO and _HI registers, access codes,
and who may write which register when. A register whose write has a row of its own is written as that row says. -/

namespace Sys2Proof.Machine

/-! ## Reads -/

/-- A read by requester `r`: what an engine's read returns goes to the engine, not to `resp`. Without a session the maintenance port
reads 0 outside the ID block (R347); a misaligned offset is unmapped (R1). An offset that leads into the outbound window, which begins 4 GiB above
the peripherals, is a steward core's load from it (R303). -/
def State.readFor (s : State) (r : Req) (off : Nat) : State :=
  if off % 4 = 0 ∧ 0x100000000 ≤ off ∧ off < 0x200000000 ∧ (r = .st0 ∨ r = .st1) then s.stewardLoad (r = .st1) (BitVec.ofNat 32 off)
  else if off % 4 ≠ 0 ∨ (s.shut r ∧ 0x10000 ≤ off) then { s with resp := if isEng r then s.resp else some 0 }
  else
    let (v, s1) := s.readWord r (s.reqTask r) off
    { s1 with resp := if isEng r then s1.resp else some v }

/-- NOWSEC_LO_READ: the other three time registers are latched for the requester. -/
def execNowsecLoRead (r : Req) (s : State) : Host.Outcome State Fault Refusal := s.whilePowered (s.readFor r R.TIME.NOWSEC_LO.SEC.off)

/-- LO_REGISTER_READ: the _HI register is latched for the requester. At any other offset the register there is read. -/
def execLoRegisterRead (r : Req) (off : Nat) (s : State) : Host.Outcome State Fault Refusal := s.whilePowered (s.readFor r off)

/-! ## Writes of pairs (R4) -/

/-- The _LO register of a writable pair: FVAL, INCR, STEP, RBASE(r). -/
def isPairLo (off : Nat) : Bool :=
  off = R.SIG.FVAL_LO.VAL.off || off = R.TIME.INCR_LO.FRAC.off || off = R.TIME.STEP_LO.OFFS.off ||
    (decide (0x60800 ≤ off) && decide (off < 0x61000) && off % 32 = 0)

/-- Holds a _LO write for the requester, in place of one held before (R4). -/
def State.holdLo (s : State) (r : Req) (off : Nat) (v : W32) : State :=
  if s.steward r && isPairLo off then { s with held := tblPut s.held (reqKey r off) v } else s

/-- LO_REGISTER_WRITE. -/
def execLoRegisterWrite (r : Req) (off : Nat) (v : W32) (s : State) : Host.Outcome State Fault Refusal := s.whilePowered (s.holdLo r off v)

/-- BOOT or INIT, the time in which configuration registers take a write. -/
def State.cfgOpen (s : State) : Bool := s.mstate = .boot || s.mstate = .init

/-- A _HI write of FVAL or RBASE(r): both halves change, and a hold ends; RBASE takes a write only in BOOT and INIT, and bits [31:8]
of its high half are reserved (Table 10-14). -/
def State.writeHi (s : State) (r : Req) (off : Nat) (v : W32) : State :=
  let (lo, s1) := s.takeHeld r (off - 4)
  if off = R.SIG.FVAL_HI.VAL.off then (s1.setReg (off - 4) lo).setReg off v
  else if s.cfgOpen then (s1.setReg (off - 4) lo).setReg off (v &&& 0xFF) else s1

/-- HI_REGISTER_WRITE. INCR and STEP act as their rules say (R273, R274). -/
def execHiRegisterWrite (r : Req) (off : Nat) (v : W32) (s : State) : Host.Outcome State Fault Refusal :=
  if !s.steward r || decide (off < 4) || !isPairLo (off - 4) then .next s
  else if off = R.TIME.INCR_HI.NS.off then execIncrWrite r v s
  else if off = R.TIME.STEP_HI.OFFS.off then execTimeStep r v s
  else s.whilePowered (s.writeHi r off v)

/-! ## Command registers (R22, R23) -/

/-- The outcome of a write with an undefined code: the reason field shows it. -/
def State.undefinedCode (s : State) (r : Req) (cmd cnt reason : Fld) (why : Nat) : Host.Outcome State Fault Refusal :=
  .next (s.command r cmd cnt reason 0 why id)

/-- An accepted command takes the whole written value of its register (R22). -/
def State.takeValue (s : State) (cmd cnt : Nat) (v mask : W32) (o : Host.Outcome State Fault Refusal) : Host.Outcome State Fault Refusal :=
  match o with
  | .next t => .next (if t.reg cnt = s.reg cnt then t else t.setReg cmd (v &&& mask))
  | x => x

/-- A write of TASK.XCMD, SIG.FCMD, VOTE.CMD, TIME.CMD, SIO.CMD, PAIR.CMD or STW.CMD. -/
def State.runCommand (s : State) (r : Req) (off : Nat) (v : W32) : Option (Host.Outcome State Fault Refusal) :=
  let c := v.toNat % 16
  if off = R.TASK.XCMD.CODE.off then
    some (if c = 1 then execExchangeStage r s else if c = 2 then execExchangeArm r s else if c = 3 then execExchangeCancel r s
      else s.undefinedCode r R.TASK.XCMD.CODE R.TASK.XCMDCNT.COUNT R.TASK.XREASON.CODE 1)
  else if off = R.SIG.FCMD.CODE.off then
    some (if c = 1 then execForceSet r s else if c = 2 then execForceClear r s else if c = 3 then execForceClearall r s
      else s.undefinedCode r R.SIG.FCMD.CODE R.SIG.FCMDCNT.COUNT R.SIG.FREASON.CODE 1)
  else if off = R.VOTE.CMD.CODE.off then some (if c = 1 then execClearperm r s else .next s)
  else if off = R.TIME.CMD.CODE.off then
    some (if c = 1 then execTimeForce r s else s.undefinedCode r R.TIME.CMD.CODE R.TIME.CMDCNT.COUNT R.TIME.REASON.CODE 2)
  else if off = R.SIO.CMD.CODE.off then
    some (if c = 1 then execClrflt r (BitVec.ofNat 8 (fieldOf v 8 8)) s
      else s.undefinedCode r R.SIO.CMD.all R.SIO.CMDCNT.COUNT R.SIO.REASON.CODE 1)
  else if off = R.PAIR.CMD.CODE.off then
    some (if c = 1 then execSwitchover r s else if c = 2 then execFence r s else if c = 3 then execUnfence r s
      else s.undefinedCode r R.PAIR.CMD.CODE R.PAIR.CMDCNT.COUNT R.PAIR.REASON.CODE 1)
  else if off = R.STW.CMD.CODE.off then
    some (if c = 1 then execStwRestart r s else if c = 2 then execColdstart r s else if c = 3 then execStwSafe r s
      else s.undefinedCode r R.STW.CMD.CODE R.STW.CMDCNT.COUNT R.STW.REASON.CODE 1)
  else none

/-- A write of BIST.LCCMD; a pending life-cycle command is judged first (Table 17-2). -/
def State.writeLccmd (s : State) (r : Req) (v : W32) : Host.Outcome State Fault Refusal :=
  let c := v.toNat % 16
  s.takeValue R.BIST.LCCMD.all.off R.BIST.LCCNT.COUNT.off v 0xFFFF000F
    (if c = 1 then execMfg r s else if c = 2 then execRelease r s else if c = 3 then execDepot r s else if c = 4 then execService r s
     else if c = 5 then execReturn r s else if c = 6 then execRetire r (BitVec.ofNat 16 (fieldOf v 16 16)) s
     else s.undefinedCode r R.BIST.LCCMD.all R.BIST.LCCNT.COUNT R.BIST.LCREASON.CODE (if s.bist.lcNew.isSome then 8 else 1))

/-- A write of CFG.CMD, UPD.CMD, BIST.CMD or BIST.LCCMD. -/
def State.storeCommand (s : State) (r : Req) (off : Nat) (v : W32) : Option (Host.Outcome State Fault Refusal) :=
  let c := v.toNat % 16
  if off = R.CFG.CMD.CODE.off then
    some (if c = 1 then execCfgStage r s else if c = 2 then execCfgActivate r s else if c = 3 then execCfgRevert r s
      else if c = 4 then execCfgDiscard r s else if c = 5 then execCfgLock r s
      else s.undefinedCode r R.CFG.CMD.CODE R.CFG.CMDCNT.COUNT R.CFG.REASON.CODE 1)
  else if off = R.UPD.CMD.CODE.off then
    some (s.takeValue off R.UPD.CMDCNT.COUNT.off v 0xF0F (if c = 1 then execApply r s else if c = 2 then execUpdActivate r s
      else if c = 3 then execUpdCancel r s else if c = 4 then execVerify r (BitVec.ofNat 4 (fieldOf v 8 4)) s
      else if c = 5 then execOwner r s
      else s.undefinedCode r R.UPD.CMD.all R.UPD.CMDCNT.COUNT R.UPD.STATUS.REASON 1))
  else if off = R.BIST.CMD.CODE.off then
    some (s.takeValue off R.BIST.CMDCNT.COUNT.off v 0x70F
      (if c = 1 then execTestStart r (Fin.ofNat 8 (fieldOf v 8 3)) s
       else if c = 2 then execTestStop r s
       else s.undefinedCode r R.BIST.CMD.all R.BIST.CMDCNT.COUNT R.BIST.REASON.CODE 1))
  else if off = R.BIST.LCCMD.CODE.off then some (s.writeLccmd r v)
  else none

/-! ## Other registers whose write has a row of its own -/

/-- A write in the EVC block or the compatibility window that has a row of its own. -/
def State.eventWrite (s : State) (r : Req) (off : Nat) (v : W32) : Option State :=
  let n := v.toNat
  if off = R.EVC.HOLDSET.TGT.off then some (s.holdSet r (n % 1024))
  else if off = R.EVC.HOLDCLR.TGT.off then some (s.holdClr r (n % 1024))
  else if 0x50080 ≤ off ∧ off < 0x500A8 then some (s.evComplete ((off - 0x50080) / 4) (n % 1024))
  else if 0x50200 ≤ off ∧ off < 0x50228 then some (s.orBits (R.EVC.PLAT.LAT ((off - 0x50200) / 4)) (n % 256))
  else if 0x50260 ≤ off ∧ off < 0x50278 then some (s.orBits (R.EVC.SWLAT.LAT ((off - 0x50260) / 4)) n)
  else if 0x50280 ≤ off ∧ off < 0x502A8 then
    let t := (off - 0x50280) / 4
    some (if s.enablesOpen then s.setPen t (s.get (R.EVC.PEN.EN t) ||| n % 65536) else s)
  else if 0x502C0 ≤ off ∧ off < 0x502E8 then
    let t := (off - 0x502C0) / 4
    some (if s.enablesOpen then s.setPen t (s.get (R.EVC.PEN.EN t) &&& (0xFFFF ^^^ (n % 65536))) else s)
  else if 0x200000 ≤ off ∧ off < 0x200020 then some (s.writeCpend r ((off - 0x200000) / 4) v)
  else if 0x200020 ≤ off ∧ off < 0x200040 then some (s.writeCmask r ((off - 0x200020) / 4) v)
  else if off = 0x200044 then some (s.evComplete (reqTarget r).val (n % 1024))
  else none

/-! ## Registers with no row of their own -/

/-- The word with the W1C bits that `v` clears, of the fields of a register (R5). -/
def clearBits (fs : List RegFld) (old v : W32) : W32 :=
  fs.foldl (fun w f => if f.acc = .w1c then withField w f.lo f.w (fieldOf w f.lo f.w &&& ((2 ^ f.w - 1) ^^^ fieldOf v f.lo f.w)) else w) old

/-- The word with the RW fields that `p` admits taken from `v` (R2, R5). -/
def takeBits (p : RegFld → Bool) (fs : List RegFld) (old v : W32) : W32 :=
  fs.foldl (fun w f => if f.acc = .rw && p f then withField w f.lo f.w (fieldOf v f.lo f.w) else w) old

/-- CFGERR of a block where the register just written holds a value outside its range (R318). -/
def State.checkReg (s : State) (off : Nat) : State :=
  let near (l : List (Fld × Nat × Nat)) : Bool := s.outOfRange (l.filter fun r => r.1.off = off)
  let s1 := basicRegs.foldl (fun t b => match b.err with
    | some f => if b.reg.off = off ∧ b.top < s.get b.reg then t.flag f else t
    | none => t) s
  if near sioRanges || (decide (0x80040 ≤ off) && decide (off < 0x80080) && s.pulsedWrong) then s1.flag R.SIO.FLAG.CFGERR
  else if near spdRanges || (decide (0x90000 ≤ off) && decide (off < 0x90060) && s.spdPairsWrong) then s1.flag R.SPD.FLAG.CFGERR
  else if near netRanges then s1.flag R.NET.FLAG.CFGERR
  else if near timeRanges then s1.flag R.TIME.FLAG.CFGERR
  else if near evcRanges then s1.flag R.EVC.FLAG.CFGERR
  else s1

/-- What follows a change of ADDRCFG (R329 to R331): UCAUSE shows the first condition that fails; in INIT addresses and probes are made anew, at once, or from the
next tick on where the module is ADDRESSED already (DEDUCED, assumption 29). -/
def State.readdress (s : State) : State :=
  if s.mstate ≠ .init then s.showUcause
  else if s.get R.ID.ASTAT.ADDR = 1 then { s with net := { s.net with addrNext := some false } }
  else State.derive { s with boot := { s.boot with probed := false }, net := { s.net with addrNext := none } }

/-- A write of a configuration field that the layering fills, in BOOT or INIT. -/
def State.writeConfig (s : State) (off : Nat) (fs : List RegFld) (v : W32) : State :=
  if s.cfgOpen then
    let new := takeBits (·.nv) fs (s.reg off) v
    let s1 := (s.setReg off new).checkReg off
    if off = R.CFG.ADDRCFG.ESUB.off ∧ new ≠ s.reg off then s1.readdress else s1
  else s

/-- A write of GONG.CTRL: in BOOT before the first tick (R27). -/
def State.writePeriod (s : State) (v : W32) : State :=
  if s.mstate = .boot && !s.gong.ticking then
    let p := v.toNat % 4
    ((s.set R.GONG.CTRL.PERIOD p).set R.GONG.STATUS.APERIOD p).set R.GONG.CUTOFS.NS (cutOfs p)
  else s

/-- A write of EVC.SCFG(n): all of it in BOOT and INIT, EN only in RUN and SAFE; the source follows its enable (Table 12-3). -/
def State.writeScfg (s : State) (n : Nat) (v : W32) : State :=
  let off := (R.EVC.SCFG.EN n).off
  let s1 := if s.cfgOpen then (s.setReg off (v &&& 0x80000F0F)).checkReg off
    else if s.enablesOpen then s.set (R.EVC.SCFG.EN n) (v.toNat / 2 ^ 31) else s
  s1.evPoll (n + 160)

/-- A write of NET.RCFG(r): EN and LOG2N in BOOT and INIT; LOG2N of RING10 stays 4 (Table 10-14). -/
def State.writeRcfg (s : State) (ring : Nat) (v : W32) : State :=
  if !s.cfgOpen then s
  else
    let s1 := s.set (R.NET.RCFG.EN ring) (v.toNat / 2 ^ 31)
    if ring = 10 then s1 else s1.set (R.NET.RCFG.LOG2N ring) (v.toNat % 16)

/-- A steward write of a register whose fields are `fs` and which has no row of its own. A flag or a latch that it clears withdraws its source
(R283). -/
def State.plainWrite (s : State) (r : Req) (off : Nat) (fs : List RegFld) (v : W32) : State :=
  if off = R.SIG.QID.SIGID.off ∨ off = R.NET.TSEL.INDEX.off ∨ off = R.EVC.SQRY.NUM.off then s.preqSet r off (takeBits (fun _ => true) fs 0 v)
  else if off = R.GONG.CTRL.PERIOD.off then s.writePeriod v
  else if 0x20000 ≤ off ∧ off < 0x20020 then
    (if s.mstate = .init then s.setReg off (takeBits (fun _ => true) fs (s.reg off) v) else s)
  else if off = R.TASK.EXCH.FORCEOK.off then (if s.get R.CFG.EXPERT.UNLK = 1 then s.set R.TASK.EXCH.FORCEOK (v.toNat % 2) else s)
  else if 0x50100 ≤ off ∧ off < 0x501A0 ∧ off % 16 = 0 then
    (if s.cfgOpen || s.enablesOpen then s.setPen ((off - 0x50100) / 16) (v.toNat % 65536) else s)
  else if 0x50440 ≤ off ∧ off < 0x50800 then s.writeScfg ((off - 0x50400) / 4) v
  else if 0x60800 ≤ off ∧ off < 0x61000 then s.writeRcfg ((off - 0x60800) / 32) v
  else if fs.any (·.nv) then s.writeConfig off fs v
  else (s.setReg off (clearBits fs (takeBits (fun _ => true) fs (s.reg off) v) v)).evSense

/-- A steward write of the word at `off`; in the outbound window it is a store of source 8 or 9 (R301, Table 13-4). -/
def State.stewardWrite (s : State) (r : Req) (off : Nat) (v : W32) : Host.Outcome State Fault Refusal :=
  if 0x100000000 ≤ off ∧ off < 0x200000000 ∧ r ≠ .maint then
    .next (s.postWrite (if r = .st1 then 9 else 8) (off - 0x100000000) (v.zeroExtend 64) 0x0F)
  else match (s.runCommand r off v).orElse fun _ => s.storeCommand r off v with
  | some o => o
  | none => match s.eventWrite r off v with
    | some t => .next t
    | none =>
      if off = R.CFG.EXPKEY.KEY.off then execExpkeyWrite r v s
      else if off = R.BRG.CFGDATA.DATA.off then execConfigCycleWrite r v 0 s
      else if isPairLo off then .next (s.holdLo r off v)
      else if 4 ≤ off ∧ isPairLo (off - 4) then execHiRegisterWrite r off v s
      else if 0x60800 ≤ off ∧ off < 0x61000 ∧ off % 32 = 12 then execRingHeadWrite r (Fin.ofNat 64 ((off - 0x60800) / 32)) (v.truncate 16) s
      else if 0x60800 ≤ off ∧ off < 0x61000 ∧ off % 32 = 16 then execRingTailWrite r (Fin.ofNat 64 ((off - 0x60800) / 32)) (v.truncate 16) s
      else match regFields off with
        | some fs => .next (s.plainWrite r off fs v)
        | none => .next s

/-- REGISTER_WRITE: an engine's write is a program's (R15); a misaligned or unmapped offset ignores it (R1, R2). -/
def execRegisterWrite (r : Req) (off : Nat) (v : W32) (s : State) : Host.Outcome State Fault Refusal :=
  if off % 4 ≠ 0 then .next s
  else match r with
    | .eng e => s.whilePowered (s.progWrite e off v)
    | _ => if s.steward r then s.stewardWrite r off v else .next s

end Sys2Proof.Machine
end

