-- ==== Sys2Proof/Machine/Dispatch.lean ====
section
/-! DEFINITION. One arm per command (R1 to R393): each calls its own meaning. -/

namespace Sys2Proof.Machine

/-- The effect of a command on everything but the queue. -/
def exec (i : Instr) (s : State) : Host.Outcome State Fault Refusal :=
  match i with
  | .gongTick => Sys2Proof.Machine.execGongTick s
  | .segmentStart e => Sys2Proof.Machine.execSegmentStart e s
  | .cut => Sys2Proof.Machine.execCut s
  | .commit => Sys2Proof.Machine.execCommit s
  | .selfTestSlice matched failed item => Sys2Proof.Machine.execSelfTestSlice matched failed item s
  | .retainRecordWrite => Sys2Proof.Machine.execRetainRecordWrite s
  | .add e gd ga gb rsv => Sys2Proof.Machine.execAdd e gd ga gb rsv s
  | .sub e gd ga gb rsv => Sys2Proof.Machine.execSub e gd ga gb rsv s
  | .mul e gd ga gb rsv => Sys2Proof.Machine.execMul e gd ga gb rsv s
  | .mulh e gd ga gb rsv => Sys2Proof.Machine.execMulh e gd ga gb rsv s
  | .mulhu e gd ga gb rsv => Sys2Proof.Machine.execMulhu e gd ga gb rsv s
  | .div e gd ga gb rsv => Sys2Proof.Machine.execDiv e gd ga gb rsv s
  | .divu e gd ga gb rsv => Sys2Proof.Machine.execDivu e gd ga gb rsv s
  | .rem e gd ga gb rsv => Sys2Proof.Machine.execRem e gd ga gb rsv s
  | .remu e gd ga gb rsv => Sys2Proof.Machine.execRemu e gd ga gb rsv s
  | .andR e gd ga gb rsv => Sys2Proof.Machine.execAnd e gd ga gb rsv s
  | .orR e gd ga gb rsv => Sys2Proof.Machine.execOr e gd ga gb rsv s
  | .xorR e gd ga gb rsv => Sys2Proof.Machine.execXor e gd ga gb rsv s
  | .andn e gd ga gb rsv => Sys2Proof.Machine.execAndn e gd ga gb rsv s
  | .sll e gd ga gb rsv => Sys2Proof.Machine.execSll e gd ga gb rsv s
  | .srl e gd ga gb rsv => Sys2Proof.Machine.execSrl e gd ga gb rsv s
  | .sra e gd ga gb rsv => Sys2Proof.Machine.execSra e gd ga gb rsv s
  | .minR e gd ga gb rsv => Sys2Proof.Machine.execMin e gd ga gb rsv s
  | .maxR e gd ga gb rsv => Sys2Proof.Machine.execMax e gd ga gb rsv s
  | .minu e gd ga gb rsv => Sys2Proof.Machine.execMinu e gd ga gb rsv s
  | .maxu e gd ga gb rsv => Sys2Proof.Machine.execMaxu e gd ga gb rsv s
  | .sext e gd ga gb sub => Sys2Proof.Machine.execSext e gd ga gb sub s
  | .zext e gd ga gb sub => Sys2Proof.Machine.execZext e gd ga gb sub s
  | .addi e gd ga imm => Sys2Proof.Machine.execAddi e gd ga imm s
  | .andi e gd ga imm => Sys2Proof.Machine.execAndi e gd ga imm s
  | .ori e gd ga imm => Sys2Proof.Machine.execOri e gd ga imm s
  | .xori e gd ga imm => Sys2Proof.Machine.execXori e gd ga imm s
  | .shi e gd ga imm => Sys2Proof.Machine.execShi e gd ga imm s
  | .ldil e gd rsv imm => Sys2Proof.Machine.execLdil e gd rsv imm s
  | .ldih e gd rsv imm => Sys2Proof.Machine.execLdih e gd rsv imm s
  | .ldb e gd ga imm => Sys2Proof.Machine.execLdb e gd ga imm s
  | .ldbu e gd ga imm => Sys2Proof.Machine.execLdbu e gd ga imm s
  | .ldh e gd ga imm => Sys2Proof.Machine.execLdh e gd ga imm s
  | .ldhu e gd ga imm => Sys2Proof.Machine.execLdhu e gd ga imm s
  | .ldw e gd ga imm => Sys2Proof.Machine.execLdw e gd ga imm s
  | .ldwu e gd ga imm => Sys2Proof.Machine.execLdwu e gd ga imm s
  | .ldd e gd ga imm => Sys2Proof.Machine.execLdd e gd ga imm s
  | .stb e gs ga imm => Sys2Proof.Machine.execStb e gs ga imm s
  | .sth e gs ga imm => Sys2Proof.Machine.execSth e gs ga imm s
  | .stw e gs ga imm => Sys2Proof.Machine.execStw e gs ga imm s
  | .std e gs ga imm => Sys2Proof.Machine.execStd e gs ga imm s
  | .cand e cd ca cb na nb rsv => Sys2Proof.Machine.execCand e cd ca cb na nb rsv s
  | .cor e cd ca cb na nb rsv => Sys2Proof.Machine.execCor e cd ca cb na nb rsv s
  | .cxor e cd ca cb na nb rsv => Sys2Proof.Machine.execCxor e cd ca cb na nb rsv s
  | .cmv e cd ca na rsv => Sys2Proof.Machine.execCmv e cd ca na rsv s
  | .cnz e cd g rsv => Sys2Proof.Machine.execCnz e cd g rsv s
  | .mfc e g ca na rsv => Sys2Proof.Machine.execMfc e g ca na rsv s
  | .tbit e cd g b rsv => Sys2Proof.Machine.execTbit e cd g b rsv s
  | .cmp e rel cd ga gb rsv => Sys2Proof.Machine.execCmp e rel cd ga gb rsv s
  | .cmpi e rel cd ga imm => Sys2Proof.Machine.execCmpi e rel cd ga imm s
  | .sel e gd cs n ga gb rsv => Sys2Proof.Machine.execSel e gd cs n ga gb rsv s
  | .bc e cc n disp => Sys2Proof.Machine.execBc e cc n disp s
  | .bsw e ga n rsv => Sys2Proof.Machine.execBsw e ga n rsv s
  | .loop e ga back bound => Sys2Proof.Machine.execLoop e ga back bound s
  | .call e unit k => Sys2Proof.Machine.execCall e unit k s
  | .ret e rsv => Sys2Proof.Machine.execRet e rsv s
  | .lds e gd off => Sys2Proof.Machine.execLds e gd off s
  | .sts e gs off => Sys2Proof.Machine.execSts e gs off s
  | .ldsq e gd off => Sys2Proof.Machine.execLdsq e gd off s
  | .ldsc e cd rsv off => Sys2Proof.Machine.execLdsc e cd rsv off s
  | .stsc e ca n rsv off => Sys2Proof.Machine.execStsc e ca n rsv off s
  | .ldsx e gd ga imm => Sys2Proof.Machine.execLdsx e gd ga imm s
  | .stsx e gs ga imm => Sys2Proof.Machine.execStsx e gs ga imm s
  | .ldsb e gd ga gb rsv => Sys2Proof.Machine.execLdsb e gd ga gb rsv s
  | .stsb e gs ga gb rsv => Sys2Proof.Machine.execStsb e gs ga gb rsv s
  | .ldsL e gd rsv rsv1 id => Sys2Proof.Machine.execLdsL e gd rsv rsv1 id s
  | .stsL e gs rsv rsv1 id => Sys2Proof.Machine.execStsL e gs rsv rsv1 id s
  | .ldsqL e gd rsv rsv1 id => Sys2Proof.Machine.execLdsqL e gd rsv rsv1 id s
  | .ldscL e cd rsv rsv1 id => Sys2Proof.Machine.execLdscL e cd rsv rsv1 id s
  | .stscL e ca n rsv rsv1 id => Sys2Proof.Machine.execStscL e ca n rsv rsv1 id s
  | .ton e cq ci gp rsv off => Sys2Proof.Machine.execTon e cq ci gp rsv off s
  | .tof e cq ci gp rsv off => Sys2Proof.Machine.execTof e cq ci gp rsv off s
  | .tp e cq ci gp rsv off => Sys2Proof.Machine.execTp e cq ci gp rsv off s
  | .redge e cq ci rsv off => Sys2Proof.Machine.execRedge e cq ci rsv off s
  | .fedge e cq ci rsv off => Sys2Proof.Machine.execFedge e cq ci rsv off s
  | .ctu e cq ci cr gp off => Sys2Proof.Machine.execCtu e cq ci cr gp off s
  | .ctd e cq ci cr gp off => Sys2Proof.Machine.execCtd e cq ci cr gp off s
  | .sld e gd sel rsv off => Sys2Proof.Machine.execSld e gd sel rsv off s
  | .fadd e gd ga gb d rsv => Sys2Proof.Machine.execFadd e gd ga gb d rsv s
  | .fsub e gd ga gb d rsv => Sys2Proof.Machine.execFsub e gd ga gb d rsv s
  | .fmul e gd ga gb d rsv => Sys2Proof.Machine.execFmul e gd ga gb d rsv s
  | .fdiv e gd ga gb d rsv => Sys2Proof.Machine.execFdiv e gd ga gb d rsv s
  | .fsqrt e gd ga d rsv => Sys2Proof.Machine.execFsqrt e gd ga d rsv s
  | .fmin e gd ga gb d rsv => Sys2Proof.Machine.execFmin e gd ga gb d rsv s
  | .fmax e gd ga gb d rsv => Sys2Proof.Machine.execFmax e gd ga gb d rsv s
  | .fabs e gd ga d rsv => Sys2Proof.Machine.execFabs e gd ga d rsv s
  | .fneg e gd ga d rsv => Sys2Proof.Machine.execFneg e gd ga d rsv s
  | .fcmp e rel cd ga gb d rsv => Sys2Proof.Machine.execFcmp e rel cd ga gb d rsv s
  | .fcvti e gd ga d rsv => Sys2Proof.Machine.execFcvti e gd ga d rsv s
  | .fcvtf e gd ga d rsv => Sys2Proof.Machine.execFcvtf e gd ga d rsv s
  | .fcvts e gd ga d rsv => Sys2Proof.Machine.execFcvts e gd ga d rsv s
  | .frnd e gd ga d rsv => Sys2Proof.Machine.execFrnd e gd ga d rsv s
  | .nop e rsv => Sys2Proof.Machine.execNop e rsv s
  | .sync e rsv => Sys2Proof.Machine.execSync e rsv s
  | .yield e rsv => Sys2Proof.Machine.execYield e rsv s
  | .yieldE e rsv => Sys2Proof.Machine.execYieldE e rsv s
  | .faultI e code rsv => Sys2Proof.Machine.execFaultI e code rsv s
  | .evtC e gd rsv => Sys2Proof.Machine.execEvtC e gd rsv s
  | .evtD e ga rsv => Sys2Proof.Machine.execEvtD e ga rsv s
  | .mfs e gd sel rsv => Sys2Proof.Machine.execMfs e gd sel rsv s
  | .mts e ga sel rsv => Sys2Proof.Machine.execMts e ga sel rsv s
  | .windowTimeout e => Sys2Proof.Machine.execWindowTimeout e s
  | .vote v1 v2 => Sys2Proof.Machine.execVote v1 v2 s
  | .delayParityError ch stage => Sys2Proof.Machine.execDelayParityError ch stage s
  | .captureParityError => Sys2Proof.Machine.execCaptureParityError s
  | .referenceLoss ch => Sys2Proof.Machine.execReferenceLoss ch s
  | .resyncBulkCopyDone ch => Sys2Proof.Machine.execResyncBulkCopyDone ch s
  | .degtimeWarning => Sys2Proof.Machine.execDegtimeWarning s
  | .degtimeLimit => Sys2Proof.Machine.execDegtimeLimit s
  | .clearperm r => Sys2Proof.Machine.execClearperm r s
  | .injectionTest faults => Sys2Proof.Machine.execInjectionTest faults s
  | .frameReceive f => Sys2Proof.Machine.execFrameReceive f s
  | .telegramAccept => Sys2Proof.Machine.execTelegramAccept s
  | .subscribeTimeout j => Sys2Proof.Machine.execSubscribeTimeout j s
  | .directorySweep id => Sys2Proof.Machine.execDirectorySweep id s
  | .forceSet r => Sys2Proof.Machine.execForceSet r s
  | .forceClear r => Sys2Proof.Machine.execForceClear r s
  | .forceClearall r => Sys2Proof.Machine.execForceClearall r s
  | .stewardSignalWrite id value => Sys2Proof.Machine.execStewardSignalWrite id value s
  | .exchangeStage r => Sys2Proof.Machine.execExchangeStage r s
  | .exchangeArm r => Sys2Proof.Machine.execExchangeArm r s
  | .exchangeCancel r => Sys2Proof.Machine.execExchangeCancel r s
  | .exchangeFillDone => Sys2Proof.Machine.execExchangeFillDone s
  | .exchangePersist written => Sys2Proof.Machine.execExchangePersist written s
  | .powerInputValid offNs mv10 => Sys2Proof.Machine.execPowerInputValid offNs mv10 s
  | .restartBegin => Sys2Proof.Machine.execRestartBegin s
  | .slotCodeSample samples => Sys2Proof.Machine.execSlotCodeSample samples s
  | .plugRead first second => Sys2Proof.Machine.execPlugRead first second s
  | .plugReadRetry second => Sys2Proof.Machine.execPlugReadRetry second s
  | .imageCheck => Sys2Proof.Machine.execImageCheck s
  | .processorLoad step digest => Sys2Proof.Machine.execProcessorLoad step digest s
  | .tocsinConfigConfirmed => Sys2Proof.Machine.execTocsinConfigConfirmed s
  | .tocsinConfirmTimeout => Sys2Proof.Machine.execTocsinConfirmTimeout s
  | .configLayering => Sys2Proof.Machine.execConfigLayering s
  | .programLoad digest => Sys2Proof.Machine.execProgramLoad digest s
  | .storeCharged mv10 => Sys2Proof.Machine.execStoreCharged mv10 s
  | .startRoleDecision m66en => Sys2Proof.Machine.execStartRoleDecision m66en s
  | .heartbeatSend => Sys2Proof.Machine.execHeartbeatSend s
  | .heartbeatReceive hb => Sys2Proof.Machine.execHeartbeatReceive hb s
  | .heartbeatTimeout => Sys2Proof.Machine.execHeartbeatTimeout s
  | .pairActInAccept level firstNs => Sys2Proof.Machine.execPairActInAccept level firstNs s
  | .fencedPromotionTimer => Sys2Proof.Machine.execFencedPromotionTimer s
  | .geyserDataReceive n items => Sys2Proof.Machine.execGeyserDataReceive n items s
  | .geyserEndReceive n items bytes epoch slice digest => Sys2Proof.Machine.execGeyserEndReceive n items bytes epoch slice digest s
  | .geyserAckReceive n status => Sys2Proof.Machine.execGeyserAckReceive n status s
  | .ackMiss n => Sys2Proof.Machine.execAckMiss n s
  | .bulkReceive b copyfmt total mib items => Sys2Proof.Machine.execBulkReceive b copyfmt total mib items s
  | .bulkendReceive b => Sys2Proof.Machine.execBulkendReceive b s
  | .ctrlReceive h => Sys2Proof.Machine.execCtrlReceive h s
  | .geyserLaneLoss lane => Sys2Proof.Machine.execGeyserLaneLoss lane s
  | .switchover r => Sys2Proof.Machine.execSwitchover r s
  | .fence r => Sys2Proof.Machine.execFence r s
  | .unfence r => Sys2Proof.Machine.execUnfence r s
  | .inputLevelAccepted j mv => Sys2Proof.Machine.execInputLevelAccepted j mv s
  | .inputFaultDetected j code xtp => Sys2Proof.Machine.execInputFaultDetected j code xtp s
  | .inputFaultCleared j code => Sys2Proof.Machine.execInputFaultCleared j code s
  | .testPulseStart n => Sys2Proof.Machine.execTestPulseStart n s
  | .testPulseEnd n => Sys2Proof.Machine.execTestPulseEnd n s
  | .pairDiscrepancyFault k => Sys2Proof.Machine.execPairDiscrepancyFault k s
  | .outputTestPulseStart o => Sys2Proof.Machine.execOutputTestPulseStart o s
  | .outputTestPulseEnd o sensedOpen => Sys2Proof.Machine.execOutputTestPulseEnd o sensedOpen s
  | .outputFaultDetected o code => Sys2Proof.Machine.execOutputFaultDetected o code s
  | .overcurrentRelease o => Sys2Proof.Machine.execOvercurrentRelease o s
  | .outputFaultCleared o code => Sys2Proof.Machine.execOutputFaultCleared o code s
  | .clrflt r mask => Sys2Proof.Machine.execClrflt r mask s
  | .wheelSpeedEdge n phaseB x => Sys2Proof.Machine.execWheelSpeedEdge n phaseB x s
  | .sensorFault n code => Sys2Proof.Machine.execSensorFault n code s
  | .sensorGood n => Sys2Proof.Machine.execSensorGood n s
  | .speedNormalEntry => Sys2Proof.Machine.execSpeedNormalEntry s
  | .speedDiscrepancyTimeout => Sys2Proof.Machine.execSpeedDiscrepancyTimeout s
  | .singleSensorLimit => Sys2Proof.Machine.execSingleSensorLimit s
  | .ssusedWarning => Sys2Proof.Machine.execSsusedWarning s
  | .ssusedReset => Sys2Proof.Machine.execSsusedReset s
  | .pdTelegramLaunch => Sys2Proof.Machine.execPdTelegramLaunch s
  | .txDescriptorLaunch ring skew => Sys2Proof.Machine.execTxDescriptorLaunch ring skew s
  | .ringHeadWrite r ring v => Sys2Proof.Machine.execRingHeadWrite r ring v s
  | .ringTailWrite r ring v => Sys2Proof.Machine.execRingTailWrite r ring v s
  | .bridgeForward toX2 mac dst ptpEvent correction residence => Sys2Proof.Machine.execBridgeForward toX2 mac dst ptpEvent correction residence s
  | .prpSupervisionSend => Sys2Proof.Machine.execPrpSupervisionSend s
  | .prpLanLoss lanB mac => Sys2Proof.Machine.execPrpLanLoss lanB mac s
  | .linkChange x2 up => Sys2Proof.Machine.execLinkChange x2 up s
  | .inauguration etb op cst vehs tnid resolved => Sys2Proof.Machine.execInauguration etb op cst vehs tnid resolved s
  | .ttdbReadDone etb op cst vehs tnid resolved => Sys2Proof.Machine.execTtdbReadDone etb op cst vehs tnid resolved s
  | .arpProbeDone => Sys2Proof.Machine.execArpProbeDone s
  | .arpConflict => Sys2Proof.Machine.execArpConflict s
  | .arpReprobe => Sys2Proof.Machine.execArpReprobe s
  | .ptpOffsetMeasurement ns => Sys2Proof.Machine.execPtpOffsetMeasurement ns s
  | .announceReceiptTimeout => Sys2Proof.Machine.execAnnounceReceiptTimeout s
  | .announceReceive m => Sys2Proof.Machine.execAnnounceReceive m s
  | .incrWrite r hi => Sys2Proof.Machine.execIncrWrite r hi s
  | .timeStep r hi => Sys2Proof.Machine.execTimeStep r hi s
  | .timeForce r => Sys2Proof.Machine.execTimeForce r s
  | .solfataraTimeCopy => Sys2Proof.Machine.execSolfataraTimeCopy s
  | .nowsecLoRead r => Sys2Proof.Machine.execNowsecLoRead r s
  | .loRegisterRead r off => Sys2Proof.Machine.execLoRegisterRead r off s
  | .loRegisterWrite r off v => Sys2Proof.Machine.execLoRegisterWrite r off v s
  | .hiRegisterWrite r off v => Sys2Proof.Machine.execHiRegisterWrite r off v s
  | .registerWrite r off v => Sys2Proof.Machine.execRegisterWrite r off v s
  | .eventSourceAssert t num => Sys2Proof.Machine.execEventSourceAssert t num s
  | .eventSourceWithdraw t num => Sys2Proof.Machine.execEventSourceWithdraw t num s
  | .eventDelivery t => Sys2Proof.Machine.execEventDelivery t s
  | .eventClaim r t => Sys2Proof.Machine.execEventClaim r t s
  | .eventComplete r t num => Sys2Proof.Machine.execEventComplete r t num s
  | .holdset r mask => Sys2Proof.Machine.execHoldset r mask s
  | .holdclr r mask => Sys2Proof.Machine.execHoldclr r mask s
  | .pset r t mask => Sys2Proof.Machine.execPset r t mask s
  | .swset r j mask => Sys2Proof.Machine.execSwset r j mask s
  | .penset r t mask => Sys2Proof.Machine.execPenset r t mask s
  | .penclr r t mask => Sys2Proof.Machine.execPenclr r t mask s
  | .cpendWrite r j v => Sys2Proof.Machine.execCpendWrite r j v s
  | .cmaskWrite r j v => Sys2Proof.Machine.execCmaskWrite r j v s
  | .cvecRead r => Sys2Proof.Machine.execCvecRead r s
  | .cackWrite r v => Sys2Proof.Machine.execCackWrite r v s
  | .postedWriteComplete how reqs => Sys2Proof.Machine.execPostedWriteComplete how reqs s
  | .postedWriteDiscard => Sys2Proof.Machine.execPostedWriteDiscard s
  | .delayedReadComplete slot how reqs => Sys2Proof.Machine.execDelayedReadComplete slot how reqs s
  | .delayedReadDiscard slot => Sys2Proof.Machine.execDelayedReadDiscard slot s
  | .cpciInboundWrite card reqs addr phases => Sys2Proof.Machine.execCpciInboundWrite card reqs addr phases s
  | .inboundLock sender => Sys2Proof.Machine.execInboundLock sender s
  | .serrSensed => Sys2Proof.Machine.execSerrSensed s
  | .dutiesTakeAfterPromotion m66en => Sys2Proof.Machine.execDutiesTakeAfterPromotion m66en s
  | .cpciResetRelease => Sys2Proof.Machine.execCpciResetRelease s
  | .cardConfiguration found => Sys2Proof.Machine.execCardConfiguration found s
  | .configCycleRead r how reqs => Sys2Proof.Machine.execConfigCycleRead r how reqs s
  | .configCycleWrite r v reqs => Sys2Proof.Machine.execConfigCycleWrite r v reqs s
  | .cfgStage r => Sys2Proof.Machine.execCfgStage r s
  | .cfgActivate r => Sys2Proof.Machine.execCfgActivate r s
  | .cfgRevert r => Sys2Proof.Machine.execCfgRevert r s
  | .cfgDiscard r => Sys2Proof.Machine.execCfgDiscard r s
  | .cfgLock r => Sys2Proof.Machine.execCfgLock r s
  | .expchalRead r => Sys2Proof.Machine.execExpchalRead r s
  | .expkeyWrite r key => Sys2Proof.Machine.execExpkeyWrite r key s
  | .expertTimeout => Sys2Proof.Machine.execExpertTimeout s
  | .packageHeaderReceived h => Sys2Proof.Machine.execPackageHeaderReceived h s
  | .packageReceived m stream => Sys2Proof.Machine.execPackageReceived m stream s
  | .apply r => Sys2Proof.Machine.execApply r s
  | .applyDone => Sys2Proof.Machine.execApplyDone s
  | .updActivate r => Sys2Proof.Machine.execUpdActivate r s
  | .updCancel r => Sys2Proof.Machine.execUpdCancel r s
  | .verify r arg => Sys2Proof.Machine.execVerify r arg s
  | .owner r => Sys2Proof.Machine.execOwner r s
  | .ochalRead r => Sys2Proof.Machine.execOchalRead r s
  | .attestationRequest x3 nonce => Sys2Proof.Machine.execAttestationRequest x3 nonce s
  | .maintenanceSessionOpen root mldsa chains => Sys2Proof.Machine.execMaintenanceSessionOpen root mldsa chains s
  | .watchdogWindowClose missed => Sys2Proof.Machine.execWatchdogWindowClose missed s
  | .tocsinMonitorTrigger no value => Sys2Proof.Machine.execTocsinMonitorTrigger no value s
  | .tocsinWarning board value => Sys2Proof.Machine.execTocsinWarning board value s
  | .clockCheckWindow devA devB devC => Sys2Proof.Machine.execClockCheckWindow devA devB devC s
  | .tocsinOscDeviation => Sys2Proof.Machine.execTocsinOscDeviation s
  | .tocsinLivenessLost => Sys2Proof.Machine.execTocsinLivenessLost s
  | .solfataraStoreLow mv10 => Sys2Proof.Machine.execSolfataraStoreLow mv10 s
  | .externalRequest tsx => Sys2Proof.Machine.execExternalRequest tsx s
  | .safeStateTrigger code detail => Sys2Proof.Machine.execSafeStateTrigger code detail s
  | .retainBufferCutoff placed op1Us mv10 => Sys2Proof.Machine.execRetainBufferCutoff placed op1Us mv10 s
  | .powerFailure mv10 => Sys2Proof.Machine.execPowerFailure mv10 s
  | .powerDown => Sys2Proof.Machine.execPowerDown s
  | .powerRecovered mv10 => Sys2Proof.Machine.execPowerRecovered mv10 s
  | .holdupEnd => Sys2Proof.Machine.execHoldupEnd s
  | .stwRestart r => Sys2Proof.Machine.execStwRestart r s
  | .coldstart r => Sys2Proof.Machine.execColdstart r s
  | .stwSafe r => Sys2Proof.Machine.execStwSafe r s
  | .mfg r => Sys2Proof.Machine.execMfg r s
  | .release r => Sys2Proof.Machine.execRelease r s
  | .depot r => Sys2Proof.Machine.execDepot r s
  | .service r => Sys2Proof.Machine.execService r s
  | .returnC r => Sys2Proof.Machine.execReturn r s
  | .retire r confirm => Sys2Proof.Machine.execRetire r confirm s
  | .testStart r test => Sys2Proof.Machine.execTestStart r test s
  | .testStop r => Sys2Proof.Machine.execTestStop r s
  | .geyserTestPartnerTimeout => Sys2Proof.Machine.execGeyserTestPartnerTimeout s
  | .geyserLaneUp lane => Sys2Proof.Machine.execGeyserLaneUp lane s
  | .maintenanceSessionClose => Sys2Proof.Machine.execMaintenanceSessionClose s
  | .configImageReceived img => Sys2Proof.Machine.execConfigImageReceived img s
  | .ownerMessageReceived m => Sys2Proof.Machine.execOwnerMessageReceived m s
  | .factoryIdentityRecordWrite serial mac idPub idCert img => Sys2Proof.Machine.execFactoryIdentityRecordWrite serial mac idPub idCert img s

end Sys2Proof.Machine
end

