-- ==== Sys2Proof/Safety.lean ====
section
/-! DEFINITION. The terms the statements use: when an engine copy executes its next instruction, what a retired instruction and an
exception leave, which registers a command may change, and the canonical form of the state. -/

namespace Sys2Proof.Machine

/-! ## An engine copy that executes (R97, R98) -/

/-- Whether `n` bytes at `a` lie, 4-byte aligned, in the code range of the unit now running (R85, R96). -/
def inRunningUnit (p : Program) (x : Ctx) (a n : Nat) : Bool :=
  match unitOf p x.unit with
  | some u => unitHolds u a n
  | none => false

/-- Whether the `n` bytes of the next instruction may be fetched. -/
abbrev fetchOk (p : Program) (x : Ctx) (n : Nat) : Bool := inRunningUnit p x x.pc.toNat n

/-- Channel `ch` executes, its copy of engine `e` runs instance `i` of `task` of the version that its memory holds as `p`, waits for nothing, has budget left and may
fetch `n` bytes: its next instruction gets as far as its own checks (R98). -/
abbrev Runs (s : State) (ch : Ch) (e : Eng) (n task : Nat) (i : Inst) (p : Program) : Prop :=
  s.executing ch = true ∧ (s.ch ch).eng[e].run = some task ∧ (s.ch ch).eng[e].stall = none ∧
    tblFind (s.ch ch).insts task = some i ∧ s.bankIn (s.ch ch) i.bank = some p ∧ (s.ch ch).eng[e].bud ≠ 0 ∧
    fetchOk p (s.ch ch).eng[e].x n = true

/-- The registers of a channel's copy of engine `e`. -/
abbrev regsOf (s : State) (ch : Ch) (e : Eng) : Ctx := (s.ch ch).eng[e].x

/-- A state that differs from `s` at most in the channels and in the votes that wait; in each channel only in engine `e` and its
instances; a channel that does not execute not at all; and no vote that waited is lost. -/
def OnlyEngine (s t : State) (e : Eng) : Prop :=
  t = { s with chA := t.chA, chB := t.chB, chC := t.chC, vote := t.vote } ∧
    (∃ g, t.vote = { s.vote with groups := s.vote.groups ++ g }) ∧
    (∀ ch, s.executing ch = false → t.ch ch = s.ch ch) ∧
    ∀ ch, (t.ch ch).dir = (s.ch ch).dir ∧ (t.ch ch).slots = (s.ch ch).slots ∧ (t.ch ch).insig = (s.ch ch).insig ∧
      ∀ f : Eng, f ≠ e → (t.ch ch).eng[f] = (s.ch ch).eng[f]

/-- The copy after an instruction of `cyc` cycles that left the registers `x'`: one less budget, one more instruction in the open window
(R97, R103, R145). -/
def EngC.retired (k : EngC) (x' : Ctx) (cyc : Nat) : EngC :=
  { k with
    x := x', bud := k.bud - 1, cyc := k.cyc + cyc, win := k.win.map fun w => { w with ret := w.ret + 1 }
    peak := max k.peak k.cbuf.length }

/-- From `s` to `t`, channel `ch` retired an instruction of `cyc` cycles on engine `e` that changed its registers to `x'` and nothing else,
and nothing outside engine `e` changed. -/
def RegistersOnly (s t : State) (ch : Ch) (e : Eng) (task : Nat) (i : Inst) (x' : Ctx) (cyc : Nat) : Prop :=
  OnlyEngine s t e ∧
    t.ch ch = { s.ch ch with
      eng := (s.ch ch).eng.set e ((s.ch ch).eng[e].retired x' cyc)
      insts := tblPut (s.ch ch).insts task i }

/-- From `s` to `t`, an exception of `code` with `info` was raised on channel `ch`'s copy of engine `e` (R99 to R101): the copy halts, no
window is open, the instance is discarded with its held stores, a window closed as a commit point waits for its vote with the
exception record, and nothing outside engine `e` changed. -/
def Raised (s t : State) (ch : Ch) (e : Eng) (task code info : Nat) : Prop :=
  OnlyEngine s t e ∧
    (t.ch ch).eng[e].run = none ∧ (t.ch ch).eng[e].stall = none ∧ (t.ch ch).eng[e].win = none ∧
    (t.ch ch).eng[e].x = regsOf s ch e ∧
    (t.ch ch).eng[e].cbuf = (s.ch ch).eng[e].cbuf.filter (fun c => c.task != task) ∧
    (t.ch ch).insts = tblDel (s.ch ch).insts task ∧
    ∃ g ∈ t.vote.groups, ∃ c, g.of ch = some c ∧ c.reason = 2 ∧ c.task = task ∧
      c.exc = some ⟨code, (regsOf s ch e).cls, e.val, fieldOf (regsOf s ch e).st 20 8, (regsOf s ch e).pc, s.gong.frame, info⟩

/-- From `s` to `t`, channel `ch` retired an instruction of `cyc` cycles on engine `e` that left the registers `x'` and the instance `i'`, with the
held stores and everything outside engine `e` as they were. -/
def InstanceChanged (s t : State) (ch : Ch) (e : Eng) (task : Nat) (i' : Inst) (x' : Ctx) (cyc : Nat) : Prop :=
  OnlyEngine s t e ∧ (t.ch ch).insts = tblPut (s.ch ch).insts task i' ∧
    (t.ch ch).eng[e].x = x' ∧ (t.ch ch).eng[e].bud = (s.ch ch).eng[e].bud - 1 ∧ (t.ch ch).eng[e].cyc = (s.ch ch).eng[e].cyc + cyc ∧
    (t.ch ch).eng[e].run = (s.ch ch).eng[e].run ∧ (t.ch ch).eng[e].stall = none ∧
    (t.ch ch).eng[e].cbuf = (s.ch ch).eng[e].cbuf

/-! ## Encodings (R108) -/

/-- An Osrus instruction's engine, its length in bytes, and whether its encoding is legal (05): every reserved field zero and no encoding that a
group's rules declare illegal. -/
def osrusForm : Instr → Option (Eng × Nat × Bool)
  | .add e _ _ _ rsv => some (e, 4, rsv == 0)
  | .sub e _ _ _ rsv => some (e, 4, rsv == 0)
  | .mul e _ _ _ rsv => some (e, 4, rsv == 0)
  | .mulh e _ _ _ rsv => some (e, 4, rsv == 0)
  | .mulhu e _ _ _ rsv => some (e, 4, rsv == 0)
  | .div e _ _ _ rsv => some (e, 4, rsv == 0)
  | .divu e _ _ _ rsv => some (e, 4, rsv == 0)
  | .rem e _ _ _ rsv => some (e, 4, rsv == 0)
  | .remu e _ _ _ rsv => some (e, 4, rsv == 0)
  | .andR e _ _ _ rsv => some (e, 4, rsv == 0)
  | .orR e _ _ _ rsv => some (e, 4, rsv == 0)
  | .xorR e _ _ _ rsv => some (e, 4, rsv == 0)
  | .andn e _ _ _ rsv => some (e, 4, rsv == 0)
  | .sll e _ _ _ rsv => some (e, 4, rsv == 0)
  | .srl e _ _ _ rsv => some (e, 4, rsv == 0)
  | .sra e _ _ _ rsv => some (e, 4, rsv == 0)
  | .minR e _ _ _ rsv => some (e, 4, rsv == 0)
  | .maxR e _ _ _ rsv => some (e, 4, rsv == 0)
  | .minu e _ _ _ rsv => some (e, 4, rsv == 0)
  | .maxu e _ _ _ rsv => some (e, 4, rsv == 0)
  | .sext e _ _ gb sub => some (e, 4, sub.toNat < 3 && gb == 0)
  | .zext e _ _ gb sub => some (e, 4, sub.toNat < 3 && gb == 0)
  | .addi e _ _ _ => some (e, 4, true)
  | .andi e _ _ _ => some (e, 4, true)
  | .ori e _ _ _ => some (e, 4, true)
  | .xori e _ _ _ => some (e, 4, true)
  | .shi e _ _ imm => some (e, 4, imm.toNat < 192)
  | .ldil e _ rsv _ => some (e, 8, rsv == 0)
  | .ldih e _ rsv _ => some (e, 8, rsv == 0)
  | .ldb e _ _ _ => some (e, 4, true)
  | .ldbu e _ _ _ => some (e, 4, true)
  | .ldh e _ _ _ => some (e, 4, true)
  | .ldhu e _ _ _ => some (e, 4, true)
  | .ldw e _ _ _ => some (e, 4, true)
  | .ldwu e _ _ _ => some (e, 4, true)
  | .ldd e _ _ _ => some (e, 4, true)
  | .stb e _ _ _ => some (e, 4, true)
  | .sth e _ _ _ => some (e, 4, true)
  | .stw e _ _ _ => some (e, 4, true)
  | .std e _ _ _ => some (e, 4, true)
  | .cand e _ _ _ _ _ rsv => some (e, 4, rsv == 0)
  | .cor e _ _ _ _ _ rsv => some (e, 4, rsv == 0)
  | .cxor e _ _ _ _ _ rsv => some (e, 4, rsv == 0)
  | .cmv e _ _ _ rsv => some (e, 4, rsv == 0)
  | .cnz e _ _ rsv => some (e, 4, rsv == 0)
  | .mfc e _ _ _ rsv => some (e, 4, rsv == 0)
  | .tbit e _ _ _ rsv => some (e, 4, rsv == 0)
  | .cmp e _ _ _ _ rsv => some (e, 4, rsv == 0)
  | .cmpi e _ _ _ _ => some (e, 4, true)
  | .sel e _ _ _ _ _ rsv => some (e, 4, rsv == 0)
  | .bc e _ _ disp => some (e, 4, disp != 0)
  | .bsw e _ _ rsv => some (e, 4, rsv == 0)
  | .loop e _ back bound => some (e, 4, back != 0 && bound != 0)
  | .call e _ _ => some (e, 4, true)
  | .ret e rsv => some (e, 4, rsv == 0)
  | .lds e _ _ => some (e, 4, true)
  | .sts e _ _ => some (e, 4, true)
  | .ldsq e _ _ => some (e, 4, true)
  | .ldsc e _ rsv _ => some (e, 4, rsv == 0)
  | .stsc e _ _ rsv _ => some (e, 4, rsv == 0)
  | .ldsx e _ _ _ => some (e, 4, true)
  | .stsx e _ _ _ => some (e, 4, true)
  | .ldsb e _ _ _ rsv => some (e, 4, rsv == 0)
  | .stsb e _ _ _ rsv => some (e, 4, rsv == 0)
  | .ldsL e _ rsv rsv1 _ => some (e, 8, rsv == 0 && rsv1 == 0)
  | .stsL e _ rsv rsv1 _ => some (e, 8, rsv == 0 && rsv1 == 0)
  | .ldsqL e _ rsv rsv1 _ => some (e, 8, rsv == 0 && rsv1 == 0)
  | .ldscL e _ rsv rsv1 _ => some (e, 8, rsv == 0 && rsv1 == 0)
  | .stscL e _ _ rsv rsv1 _ => some (e, 8, rsv == 0 && rsv1 == 0)
  | .ton e _ _ _ rsv _ => some (e, 4, rsv == 0)
  | .tof e _ _ _ rsv _ => some (e, 4, rsv == 0)
  | .tp e _ _ _ rsv _ => some (e, 4, rsv == 0)
  | .redge e _ _ rsv _ => some (e, 4, rsv == 0)
  | .fedge e _ _ rsv _ => some (e, 4, rsv == 0)
  | .ctu e _ _ _ _ _ => some (e, 4, true)
  | .ctd e _ _ _ _ _ => some (e, 4, true)
  | .sld e _ _ rsv _ => some (e, 4, rsv == 0)
  | .fadd e _ _ _ _ rsv => some (e, 4, rsv == 0)
  | .fsub e _ _ _ _ rsv => some (e, 4, rsv == 0)
  | .fmul e _ _ _ _ rsv => some (e, 4, rsv == 0)
  | .fdiv e _ _ _ _ rsv => some (e, 4, rsv == 0)
  | .fsqrt e _ _ _ rsv => some (e, 4, rsv == 0)
  | .fmin e _ _ _ _ rsv => some (e, 4, rsv == 0)
  | .fmax e _ _ _ _ rsv => some (e, 4, rsv == 0)
  | .fabs e _ _ _ rsv => some (e, 4, rsv == 0)
  | .fneg e _ _ _ rsv => some (e, 4, rsv == 0)
  | .fcmp e rel _ _ _ _ rsv => some (e, 4, rsv == 0 && rel.toNat < 8)
  | .fcvti e _ _ _ rsv => some (e, 4, rsv == 0)
  | .fcvtf e _ _ _ rsv => some (e, 4, rsv == 0)
  | .fcvts e _ _ _ rsv => some (e, 4, rsv == 0)
  | .frnd e _ _ _ rsv => some (e, 4, rsv == 0)
  | .nop e rsv => some (e, 4, rsv == 0)
  | .sync e rsv => some (e, 4, rsv == 0)
  | .yield e rsv => some (e, 4, rsv == 0)
  | .yieldE e rsv => some (e, 4, rsv == 0)
  | .faultI e _ rsv => some (e, 4, rsv == 0)
  | .evtC e _ rsv => some (e, 4, rsv == 0)
  | .evtD e _ rsv => some (e, 4, rsv == 0)
  | .mfs e _ sel rsv => some (e, 4, rsv == 0 && sel.toNat < 5)
  | .mts e _ sel rsv => some (e, 4, rsv == 0 && (sel == 0 || sel == 1 || sel == 3))
  | _ => none

/-! ## Signals as an instance sees them -/

/-- The value and quality a read of signal `id` gives an instance (R62, R64): its own latest write with VALID, and SAFE where a safety class
writes a safety signal, else its snapshot. -/
def seenSignal (i : Inst) (x : Ctx) (d : DirEnt) (id : Nat) : Snap :=
  match tblFind i.wset id with
  | some v => ⟨if d.sclass ≠ 0 ∧ x.safe = true then 17 else 1, v⟩
  | none => (tblFind i.snap id).getD ⟨0, []⟩

/-- Signal `id` is defined by entry `d` and readable (R121): in the read set of the class, and for a safety class not of HOME 4. -/
abbrev Readable (s : State) (ch : Ch) (p : Program) (x : Ctx) (id : Nat) (d : DirEnt) : Prop :=
  id ≠ 0 ∧ tblFind (s.ch ch).dir id = some d ∧ d.type ≠ 0 ∧ (p.reads.getD x.cls []).contains id = true ∧ ¬ (d.home = 4 ∧ x.safe = true)

/-- Signal `id` is defined by entry `d` and writable (R121): of HOME 0, owned by the class. -/
abbrev Writable (s : State) (ch : Ch) (x : Ctx) (id : Nat) (d : DirEnt) : Prop :=
  id ≠ 0 ∧ tblFind (s.ch ch).dir id = some d ∧ d.type ≠ 0 ∧ d.home = 0 ∧ d.owner = x.cls

/-- The value that a write of `v` as chunk 0 leaves in a signal of entry `d` that holds `old` (R122, R124). -/
def writtenValue (d : DirEnt) (old : List Byte) (v : Word) : List Byte :=
  if d.isBytes then putChunk old d.size 0 v else storedForm d.type v

/-! ## Instance slots as an instance sees them -/

/-- Slot `k` as the instance sees it (R93): its own latest change, or the channel's. -/
def seenSlot (s : State) (ch : Ch) (i : Inst) (k : Nat) : Option Slot :=
  match tblFind i.slots k with
  | some sl => some sl
  | none => tblFind (s.ch ch).slots k

/-- Input of the last evaluation: M, or the present input where the slot is marked for adoption (R181). -/
def Slot.before (sl : Slot) (input : Bool) : Bool := if sl.adopt then input else sl.m

/-- An instance operation of `cyc` cycles wrote slot `k`, with Q, RUN, the time or count `et`, LASTF and the preset given, M the input, everything
else of the slot as it was; Q went to c[cq] and PC by 4. -/
def SlotEvaluated (s : State) (c : Instr) (ch : Ch) (e : Eng) (task : Nat) (i : Inst) (k : Nat) (sl : Slot) (cq : CReg) (input q run : Bool)
    (et : Int) (lastf : Word) (preset : Word) (cyc : Nat) : Prop :=
  ∃ t sl', exec c s = .next t ∧
    InstanceChanged s t ch e task { i with slots := tblPut i.slots k sl' } (((regsOf s ch e).setC cq q).adv 4) cyc ∧
    sl'.q = q ∧ sl'.m = input ∧ sl'.run = run ∧ sl'.e = BitVec.ofInt 64 et ∧ sl'.l = lastf ∧ sl'.p = preset ∧
    sl'.kind = sl.kind ∧ sl'.owner = sl.owner ∧ sl'.ret = sl.ret ∧ sl'.wall = sl.wall ∧ sl'.inst = sl.inst ∧ sl'.adopt = false

/-! ## What commands do and leave unchanged -/

/-- The command answers a next state of which `post` holds. -/
def Answers (c : Instr) (s : State) (post : State → Prop) : Prop := ∃ t, exec c s = .next t ∧ post t

/-- While the module is powered the command answers a next state of which `post` holds; unpowered it is shut to commands (R383). -/
def Does (c : Instr) (s : State) (post : State → Prop) : Prop := s.sup.powered = true → Answers c s post

/-- Every register outside the offsets listed reads as before. -/
def RegsKept (s t : State) (offs : List Nat) : Prop := ∀ off, off ∉ offs → t.reg off = s.reg off

/-- The field lies in its 32-bit word. -/
def Fld.ok (f : Fld) : Bool := decide (f.lo + f.w ≤ 32)

/-- Two fields share no bit. -/
def Fld.apart (f g : Fld) : Bool := f.off != g.off || decide (g.lo + g.w ≤ f.lo) || decide (f.lo + f.w ≤ g.lo)

/-- The fields listed hold their values, and every field that shares no bit with one of them reads as before. -/
def FieldsSet (s t : State) (l : List (Fld × Nat)) : Prop :=
  (∀ p ∈ l, t.get p.1 = p.2 % 2 ^ p.1.w) ∧ ∀ f : Fld, (∀ p ∈ l, f.apart p.1 = true) → t.get f = s.get f

/-- Nothing but the fields listed changed, and they hold their values. -/
def OnlyFields (s t : State) (l : List (Fld × Nat)) : Prop := t = { s with regs := t.regs } ∧ FieldsSet s t l

/-- The command writes the fields listed and nothing else. -/
abbrev Sets (c : Instr) (s : State) (l : List (Fld × Nat)) : Prop := Does c s fun t => OnlyFields s t l

/-- The command changes nothing. -/
abbrev Ignored (c : Instr) (s : State) : Prop := exec c s = .next s

/-- A Fumarole record of this type, source, code and data was written with the next number (R362, R363). -/
def Recorded (s t : State) (type src code : Nat) (data : List Byte) : Prop :=
  ∃ r ∈ t.fum, r.seq = BitVec.ofNat 32 (1 + s.get R.SUP.FUMSEQ.SEQ) ∧
    r.body.take 4 = leBytes 1 type ++ leBytes 1 src ++ leBytes 2 code ∧ r.body.drop 16 = bytesAt data 0 12

/-- A write to a command register (R15, R22, R23): a program's or a closed maintenance port's is ignored; the reason field takes the outcome
`why`, and where that is 0 the register takes the value, the counter advances, and the command acts: `more` are the fields it writes, `rest` what
it changes besides. -/
def Judged (c : Instr) (s : State) (r : Req) (cmd cnt reason : Fld) (v why : Nat) (more : List (Fld × Nat)) (rest : State → State) : Prop :=
  (s.steward r = false → Ignored c s) ∧
  (s.steward r = true → why ≠ 0 → Sets c s [(reason, why)]) ∧
  (s.steward r = true → why = 0 → Does c s fun t =>
    t = { rest s with regs := t.regs } ∧ FieldsSet s t ([(reason, 0), (cmd, v), (cnt, s.get cnt + 1)] ++ more))

/-- The module entered SAFE for a trigger (R18, R353 to R357, R360): cause and count, outputs de-energised, role and duties given up, every engine
halted with its held stores, every instance dropped, Solfatara's operations latched. -/
def EntersSafe (s t : State) (code detail : Nat) : Prop :=
  t.mstate = .safe ∧ t.get R.SUP.CAUSE.CODE = code ∧ t.get R.SUP.CAUSE.DETAIL = detail ∧ t.get R.SUP.FLAG.SAFE = 1 ∧
    t.get R.SUP.SAFECNT.COUNT = (s.get R.SUP.SAFECNT.COUNT + 1) % 2 ^ 32 ∧ t.get R.SIO.OSTATE.DEM = 0 ∧ t.role = .none ∧
    t.get R.PAIR.ROLE.PACT = 0 ∧ t.get R.BRG.STATUS.HOLD = 0 ∧ t.sup.latch = true ∧ t.sup.lastSafe = code ∧
    ∀ ch, (t.ch ch).insts = [] ∧ ∀ e : Eng, (t.ch ch).eng[e].run = none ∧ (t.ch ch).eng[e].cbuf = []

/-- The module is in neither SAFE nor RECOVERY: a trigger takes effect. -/
abbrev Armed (s : State) : Prop := s.mstate ≠ .safe ∧ s.mstate ≠ .recovery

/-! ## Event sources -/

/-- From `s` to `t`, event source `k` entered or left PENDING as its level and enable in `t` demand (Table 12-3), and nothing else moved it. -/
def EvPolled (s t : State) (k : Nat) : Prop :=
  let on := t.evLevel k && t.evEnabled k
  tblFind t.evs k = match tblFind s.evs k with
    | none => if on then some ⟨.pending, BitVec.ofNat 64 s.nowNs, BitVec.ofNat 32 s.frameShown, false, none, none⟩ else none
    | some e => if e.ph = .pending ∧ on = false then none else some e

/-! ## The canonical form -/

/-- The register file and the steward's memory are in their canonical form: keys strictly rising, no zero listed; the sources that are not IDLE
are listed with keys strictly rising. -/
abbrev Canon (s : State) : Prop := fileWf s.regs = true ∧ memWf s.smem = true ∧ tblWf s.evs = true

end Sys2Proof.Machine
end

