-- ==== Sys2Proof/Certificates/Slice0/Obligations.lean ====
section
/-! DEFINITION. The statements for the provers. Each docstring names the rules of spec/ it formalises; where a statement rests on a choice of the
model it says so and names the log entry. -/

open Sys2Proof Sys2Proof.Machine

/-! ## Instructions of the engines -/

/-- R112, R113, Table 5-2: the register-register instructions write the result to gd (nothing to g0), advance PC by 4, use one of the budget and the cycles
of the table, and change nothing else; DIV, DIVU, REM and REMU raise 0x0F for a divisor of zero. The immediate instructions and the extensions do alike:
SEXT and ZEXT take the size from the low two bits of `sub` (0 byte, 1 half-word, 2 word); SHI takes the kind from imm[7:6] (0 SLL, 1 SRL, 2 SRA)
and the amount from imm[5:0]; LDIL and LDIH are 8 bytes. -/
def Obligations.IntegerInstructionsWriteTheirResult : Prop :=
  (∀ (s : State) (ch : Ch) (e : Eng) (task : Nat) (i : Inst) (p : Program) (gd ga gb : GReg), Runs s ch e 4 task i p →
    let x := regsOf s ch e
    let a := x.gr ga
    let b := x.gr gb
    let writes (c : Instr) (v : Word) (cyc : Nat) : Prop :=
      ∃ t, exec c s = .next t ∧ RegistersOnly s t ch e task i ((x.setG gd v).adv 4) cyc
    writes (.add e gd ga gb 0) (a + b) 1 ∧
    writes (.sub e gd ga gb 0) (a - b) 1 ∧
    writes (.mul e gd ga gb 0) (a * b) 3 ∧
    writes (.mulh e gd ga gb 0) (BitVec.ofInt 64 (a.toInt * b.toInt / 2 ^ 64)) 4 ∧
    writes (.mulhu e gd ga gb 0) (BitVec.ofNat 64 (a.toNat * b.toNat / 2 ^ 64)) 4 ∧
    writes (.andR e gd ga gb 0) (a &&& b) 1 ∧
    writes (.orR e gd ga gb 0) (a ||| b) 1 ∧
    writes (.xorR e gd ga gb 0) (a ^^^ b) 1 ∧
    writes (.andn e gd ga gb 0) (a &&& ~~~b) 1 ∧
    writes (.sll e gd ga gb 0) (a <<< (b.toNat % 64)) 1 ∧
    writes (.srl e gd ga gb 0) (a >>> (b.toNat % 64)) 1 ∧
    writes (.sra e gd ga gb 0) (a.sshiftRight (b.toNat % 64)) 1 ∧
    writes (.minR e gd ga gb 0) (if b.toInt < a.toInt then b else a) 1 ∧
    writes (.maxR e gd ga gb 0) (if a.toInt < b.toInt then b else a) 1 ∧
    writes (.minu e gd ga gb 0) (if b.toNat < a.toNat then b else a) 1 ∧
    writes (.maxu e gd ga gb 0) (if a.toNat < b.toNat then b else a) 1) ∧
  (∀ (s : State) (ch : Ch) (e : Eng) (task : Nat) (i : Inst) (p : Program) (gd ga gb : GReg), Runs s ch e 4 task i p →
    let x := regsOf s ch e
    let a := x.gr ga
    let b := x.gr gb
    let writes (c : Instr) (v : Word) : Prop :=
      ∃ t, exec c s = .next t ∧ RegistersOnly s t ch e task i ((x.setG gd v).adv 4) 20
    (b ≠ 0 →
      writes (.div e gd ga gb 0) (BitVec.ofInt 64 (a.toInt.tdiv b.toInt)) ∧
      writes (.divu e gd ga gb 0) (BitVec.ofNat 64 (a.toNat / b.toNat)) ∧
      writes (.rem e gd ga gb 0) (BitVec.ofInt 64 (a.toInt.tmod b.toInt)) ∧
      writes (.remu e gd ga gb 0) (BitVec.ofNat 64 (a.toNat % b.toNat))) ∧
    (b = 0 → ∀ c ∈ [Instr.div e gd ga gb 0, .divu e gd ga gb 0, .rem e gd ga gb 0, .remu e gd ga gb 0],
      ∃ t, exec c s = .next t ∧ Raised s t ch e task 0x0F 0)) ∧
  (∀ (s : State) (ch : Ch) (e : Eng) (task : Nat) (i : Inst) (p : Program) (gd ga : GReg) (imm : BitVec 16) (long : W32) (n : BitVec 6),
    let x := regsOf s ch e
    let a := x.gr ga
    let writes (c : Instr) (v : Word) (len : Nat) : Prop :=
      ∃ t, exec c s = .next t ∧ RegistersOnly s t ch e task i ((x.setG gd v).adv len) 1
    (Runs s ch e 4 task i p →
      writes (.addi e gd ga imm) (a + imm.signExtend 64) 4 ∧
      writes (.andi e gd ga imm) (a &&& imm.zeroExtend 64) 4 ∧
      writes (.ori e gd ga imm) (a ||| imm.zeroExtend 64) 4 ∧
      writes (.xori e gd ga imm) (a ^^^ imm.zeroExtend 64) 4 ∧
      writes (.sext e gd ga 0 0) ((a.truncate 8).signExtend 64) 4 ∧
      writes (.sext e gd ga 0 1) ((a.truncate 16).signExtend 64) 4 ∧
      writes (.sext e gd ga 0 2) ((a.truncate 32).signExtend 64) 4 ∧
      writes (.zext e gd ga 0 0) ((a.truncate 8).zeroExtend 64) 4 ∧
      writes (.zext e gd ga 0 1) ((a.truncate 16).zeroExtend 64) 4 ∧
      writes (.zext e gd ga 0 2) ((a.truncate 32).zeroExtend 64) 4 ∧
      writes (.shi e gd ga (n.zeroExtend 16)) (a <<< n.toNat) 4 ∧
      writes (.shi e gd ga (n.zeroExtend 16 + 64)) (a >>> n.toNat) 4 ∧
      writes (.shi e gd ga (n.zeroExtend 16 + 128)) (a.sshiftRight n.toNat) 4) ∧
    (Runs s ch e 8 task i p →
      writes (.ldil e gd 0 long) (long.signExtend 64) 8 ∧
      writes (.ldih e gd 0 long) (BitVec.ofNat 64 (long.toNat * 2 ^ 32 + (x.gr gd).toNat % 2 ^ 32)) 8))


/-- R79, R80: g0 reads as zero and c0 as 1, a write to either is discarded, and every other register holds what was written while the rest
keep their values. -/
def Obligations.RegisterZeroDiscardsWrites : Prop :=
  ∀ (x : Ctx) (r r' : GReg) (v : Word) (c c' : CReg) (b : Bool),
    x.gr 0 = 0 ∧ x.setG 0 v = x ∧ x.cr 0 = true ∧ x.setC 0 b = x ∧
    (r ≠ 0 → (x.setG r v).gr r = v) ∧ (r' ≠ r → (x.setG r v).gr r' = x.gr r') ∧ (x.setG r v).cr c = x.cr c ∧
    (c ≠ 0 → (x.setC c b).cr c = b) ∧ (c' ≠ c → (x.setC c b).cr c' = x.cr c') ∧ (x.setC c b).gr r = x.gr r

/-- R115, R116: the condition, compare and select instructions. -/
def Obligations.ConditionInstructionsWriteTheirResult : Prop :=
  ∀ (s : State) (ch : Ch) (e : Eng) (task : Nat) (i : Inst) (p : Program) (cd ca cb : CReg) (na nb : Bool) (gd ga gb : GReg)
    (bit : BitVec 6) (imm : BitVec 15), Runs s ch e 4 task i p →
    let x := regsOf s ch e
    let a := x.gr ga
    let cond (c : Instr) (v : Bool) : Prop :=
      ∃ t, exec c s = .next t ∧ RegistersOnly s t ch e task i ((x.setC cd v).adv 4) 1
    let reg (c : Instr) (v : Word) : Prop :=
      ∃ t, exec c s = .next t ∧ RegistersOnly s t ch e task i ((x.setG gd v).adv 4) 1
    let compares (rel : BitVec 3) (f : Word → Word → Prop) : Prop :=
      (∀ v, (v = true ↔ f a (x.gr gb)) → cond (.cmp e rel cd ga gb 0) v) ∧
      (∀ v, (v = true ↔ f a (imm.signExtend 64)) → cond (.cmpi e rel cd ga imm) v)
    cond (.cand e cd ca cb na nb 0) ((x.cr ca != na) && (x.cr cb != nb)) ∧
    cond (.cor e cd ca cb na nb 0) ((x.cr ca != na) || (x.cr cb != nb)) ∧
    cond (.cxor e cd ca cb na nb 0) ((x.cr ca != na) != (x.cr cb != nb)) ∧
    cond (.cmv e cd ca na 0) (x.cr ca != na) ∧
    cond (.cnz e cd ga 0) (a != 0) ∧
    cond (.tbit e cd ga bit 0) (a.getLsbD bit.toNat) ∧
    reg (.mfc e gd ca na 0) (if x.cr ca != na then 1 else 0) ∧
    reg (.sel e gd ca na ga gb 0) (if x.cr ca != na then a else x.gr gb) ∧
    compares 0 (fun u v => u = v) ∧ compares 1 (fun u v => u ≠ v) ∧
    compares 2 (fun u v => u.toInt < v.toInt) ∧ compares 3 (fun u v => u.toInt ≤ v.toInt) ∧
    compares 4 (fun u v => u.toInt > v.toInt) ∧ compares 5 (fun u v => u.toInt ≥ v.toInt) ∧
    compares 6 (fun u v => u.toNat < v.toNat) ∧ compares 7 (fun u v => u.toNat ≥ v.toNat)

/-- R100, R117 to R119: BC, BSW and LOOP. A taken branch goes to its target where the unit now running holds it and raises 0x06 where it does
not; LOOP counts its register down, falls through with 0 from 1 or less, and raises 0x07 above its bound. The model's own (log 33): the exception record of
0x06 holds the branch target, and a LOOP whose target lies below address 0 raises 0x06 with recorded address 0. -/
def Obligations.BranchesGoToTheirTargetOrRaise : Prop :=
  ∀ (s : State) (ch : Ch) (e : Eng) (task : Nat) (i : Inst) (p : Program), Runs s ch e 4 task i p →
    let x := regsOf s ch e
    let pc := x.pc.toNat
    let leaves (c : Instr) (x' : Ctx) (cyc : Nat) : Prop := ∃ t, exec c s = .next t ∧ RegistersOnly s t ch e task i x' cyc
    let raises (c : Instr) (code info : Nat) : Prop := ∃ t, exec c s = .next t ∧ Raised s t ch e task code info
    (∀ (cc : CReg) (n : Bool) (disp : BitVec 22), disp ≠ 0 →
      let target := pc + 4 * disp.toNat
      (x.cr cc = n → leaves (.bc e cc n disp) (x.adv 4) 2) ∧
      (x.cr cc ≠ n → inRunningUnit p x target 4 = true →
        leaves (.bc e cc n disp) { x with pc := BitVec.ofNat 32 target } 2) ∧
      (x.cr cc ≠ n → inRunningUnit p x target 4 = false → raises (.bc e cc n disp) 0x06 target)) ∧
    (∀ (ga : GReg) (n : BitVec 10),
      let target := pc + 4 * (1 + min (x.gr ga).toNat n.toNat)
      (inRunningUnit p x target 4 = true → leaves (.bsw e ga n 0) { x with pc := BitVec.ofNat 32 target } 3) ∧
      (inRunningUnit p x target 4 = false → raises (.bsw e ga n 0) 0x06 target)) ∧
    (∀ (ga : GReg) (back : BitVec 10) (bound : BitVec 11), back ≠ 0 → bound ≠ 0 →
      let v := (x.gr ga).toNat
      let target := pc - 4 * back.toNat
      (v ≤ 1 → leaves (.loop e ga back bound) ((x.setG ga 0).adv 4) 2) ∧
      (1 < v → v ≤ bound.toNat → 4 * back.toNat ≤ pc → inRunningUnit p x target 4 = true →
        leaves (.loop e ga back bound) { x.setG ga (BitVec.ofNat 64 (v - 1)) with pc := BitVec.ofNat 32 target } 2) ∧
      (1 < v → v ≤ bound.toNat → 4 * back.toNat ≤ pc → inRunningUnit p x target 4 = false →
        raises (.loop e ga back bound) 0x06 target) ∧
      (1 < v → v ≤ bound.toNat → pc < 4 * back.toNat → raises (.loop e ga back bound) 0x06 0) ∧
      (bound.toNat < v → raises (.loop e ga back bound) 0x07 0))

/-- R95, R102, R120: CALL pushes the address after it, SB and IB, adds k to IB and continues at the unit's entry; RET restores what the top
entry holds. A full stack and an empty one raise 0x04; an undefined unit, and from a safety class a unit without SAFE, raise 0x05. -/
def Obligations.CallAndReturnKeepTheStack : Prop :=
  ∀ (s : State) (ch : Ch) (e : Eng) (task : Nat) (i : Inst) (p : Program) (unit : BitVec 12) (k : BitVec 14),
    Runs s ch e 4 task i p →
    let x := regsOf s ch e
    let raises (c : Instr) (code : Nat) : Prop := ∃ t, exec c s = .next t ∧ Raised s t ch e task code 0
    (∀ u, x.stack.length < 16 → unitOf p unit.toNat = some u → (x.safe = true → u.safe = true) →
      ∃ t, exec (.call e unit k) s = .next t ∧ RegistersOnly s t ch e task i
        { x with
          stack := ⟨x.pc + 4, x.sb, x.ib, x.unit⟩ :: x.stack, ib := x.ib + k.zeroExtend 20
          pc := BitVec.ofNat 32 u.entry, unit := u.num } 4) ∧
    (16 ≤ x.stack.length → raises (.call e unit k) 0x04) ∧
    (x.stack.length < 16 → unitOf p unit.toNat = none → raises (.call e unit k) 0x05) ∧
    (∀ u, x.stack.length < 16 → unitOf p unit.toNat = some u → x.safe = true → u.safe = false → raises (.call e unit k) 0x05) ∧
    (∀ f fs, x.stack = f :: fs →
      ∃ t, exec (.ret e 0) s = .next t ∧ RegistersOnly s t ch e task i
        { x with stack := fs, pc := f.pc, sb := f.sb, ib := f.ib, unit := f.unit } 4) ∧
    (x.stack = [] → raises (.ret e 0) 0x04)

/-- R61, R62, R121 to R124: the reads and writes of a signal. Value forms give the loaded form of the type (Table 5-7), quality forms the 6 quality bits,
condition forms whether the loaded form is not zero, LDSB one chunk; by short ID SB + off, by indexed ID, by chunk ID and by absolute ID. Nothing else
changes; of a HOME 4 signal the value read is an item of the window besides (R144; that this instruction folds it is the model's choice, log 14).
The writes go into the instance's write set, not into the directory: the stored form of the register, 1 or 0 (1.0 or 0.0) of a condition, or one
chunk of a BYTES value, the rest of it as the instance saw it (0 where it saw none: log 14). -/
def Obligations.SignalReadsGiveWhatTheInstanceSees : Prop :=
  (∀ (s : State) (ch : Ch) (e : Eng) (task : Nat) (i : Inst) (p : Program) (gd ga gb : GReg) (cd : CReg) (off : BitVec 21)
    (imm : BitVec 16) (rid : BitVec 25) (id : Nat) (d : DirEnt),
    let x := regsOf s ch e
    let seen := seenSignal i x d id
    let v := loadedForm d.type seen.val
    Readable s ch p x id d →
    let after (t : State) (x' : Ctx) (cyc : Nat) : Prop :=
      if d.home = 4 then InstanceChanged s t ch e task i x' cyc else RegistersOnly s t ch e task i x' cyc
    let sets (c : Instr) (w : Word) (n cyc : Nat) : Prop := ∃ t, exec c s = .next t ∧ after t ((x.setG gd w).adv n) cyc
    let conds (c : Instr) (n : Nat) : Prop := ∃ t, exec c s = .next t ∧ after t ((x.setC cd (v != 0)).adv n) 4
    let quality (c : Instr) (n : Nat) : Prop :=
      ∃ t, exec c s = .next t ∧ RegistersOnly s t ch e task i ((x.setG gd (seen.q.zeroExtend 64)).adv n) 4
    (Runs s ch e 4 task i p →
      ((x.sb + off.zeroExtend 25).toNat = id →
        sets (.lds e gd off) v 4 4 ∧ quality (.ldsq e gd off) 4 ∧ conds (.ldsc e cd 0 off) 4) ∧
      ((x.gr ga + imm.signExtend 64).toNat % 2 ^ 25 = id → sets (.ldsx e gd ga imm) v 4 4) ∧
      ((x.gr ga).toNat % 2 ^ 25 = id →
        (d.isBytes = true →
          sets (.ldsb e gd ga gb 0) (getChunk seen.val (d.len + 1) (x.gr gb).toNat) 4 5) ∧
        (d.isBytes = false → sets (.ldsb e gd ga gb 0) (if x.gr gb = 0 then v else 0) 4 5))) ∧
    (Runs s ch e 8 task i p → rid.toNat = id →
      sets (.ldsL e gd 0 0 rid) v 8 4 ∧ quality (.ldsqL e gd 0 0 rid) 8 ∧ conds (.ldscL e cd 0 0 rid) 8)) ∧
  (∀ (s : State) (ch : Ch) (e : Eng) (task : Nat) (i : Inst) (p : Program) (gs ga gb : GReg) (ca : CReg) (inv : Bool) (off : BitVec 21)
    (imm : BitVec 16) (rid : BitVec 25) (id : Nat) (d : DirEnt),
    let x := regsOf s ch e
    let old := (seenSignal i x d id).val
    let v := x.gr gs
    let one : Word := if d.type = 0xA then 0x3F800000 else if d.type = 0xB then 0x3FF0000000000000 else 1
    let cv : Word := if x.cr ca = inv then 0 else one
    let j := (x.gr gb).toNat
    Writable s ch x id d →
    let writes (c : Instr) (val : List Byte) (n cyc : Nat) : Prop :=
      ∃ t, exec c s = .next t ∧
        InstanceChanged s t ch e task { i with wset := tblPut i.wset id val } (x.adv n) cyc
    (Runs s ch e 4 task i p →
      ((x.sb + off.zeroExtend 25).toNat = id →
        writes (.sts e gs off) (writtenValue d old v) 4 3 ∧ writes (.stsc e ca inv 0 off) (writtenValue d old cv) 4 3) ∧
      ((x.gr ga + imm.signExtend 64).toNat % 2 ^ 25 = id → writes (.stsx e gs ga imm) (writtenValue d old v) 4 3) ∧
      ((x.gr ga).toNat % 2 ^ 25 = id →
        (d.isBytes = true → 8 * j < d.size → writes (.stsb e gs ga gb 0) (putChunk old d.size j v) 4 4) ∧
        (d.isBytes = false → j = 0 → writes (.stsb e gs ga gb 0) (storedForm d.type v) 4 4) ∧
        ((d.isBytes = true ∧ d.size ≤ 8 * j) ∨ (d.isBytes = false ∧ j ≠ 0) →
          ∃ t, exec (.stsb e gs ga gb 0) s = .next t ∧ RegistersOnly s t ch e task i (x.adv 4) 4))) ∧
    (Runs s ch e 8 task i p → rid.toNat = id →
      writes (.stsL e gs 0 0 rid) (writtenValue d old v) 8 3 ∧ writes (.stscL e ca inv 0 0 rid) (writtenValue d old cv) 8 3))


/-- R61, R62, R121, Tables 3-4 and 5-6: in every form of signal ID an access to an undefined signal raises 0x08, a read of one outside the class's read set 0x09,
a read of HOME 4 by a safety class 0x0A, a write to one not of HOME 0 or not owned 0x0B; signal 0 reads 0 with quality 0 and drops writes. -/
def Obligations.SignalAccessChecks : Prop :=
  ∀ (s : State) (ch : Ch) (e : Eng) (task : Nat) (i : Inst) (p : Program) (g ga gb : GReg) (cd : CReg) (inv : Bool) (off : BitVec 21)
    (imm : BitVec 16) (rid : BitVec 25) (d : DirEnt),
    let x := regsOf s ch e
    let short := (x.sb + off.zeroExtend 25).toNat
    let indexed := (x.gr ga + imm.signExtend 64).toNat % 2 ^ 25
    let chunk := (x.gr ga).toNat % 2 ^ 25
    let long := rid.toNat
    let raises (c : Instr) (code id : Nat) : Prop := ∃ t, exec c s = .next t ∧ Raised s t ch e task code id
    let missing (id : Nat) : Prop := tblFind (s.ch ch).dir id = none ∨ (tblFind (s.ch ch).dir id = some d ∧ d.type = 0)
    -- command, its length, its signal, what signal 0 leaves in the registers, its cycles
    let reads := [(Instr.lds e g off, 4, short, x.setG g 0, 4), (.ldsq e g off, 4, short, x.setG g 0, 4), (.ldsc e cd 0 off, 4, short, x.setC cd false, 4),
      (.ldsx e g ga imm, 4, indexed, x.setG g 0, 4), (.ldsb e g ga gb 0, 4, chunk, x.setG g 0, 5), (.ldsL e g 0 0 rid, 8, long, x.setG g 0, 4),
      (.ldsqL e g 0 0 rid, 8, long, x.setG g 0, 4), (.ldscL e cd 0 0 rid, 8, long, x.setC cd false, 4)]
    let writes := [(Instr.sts e g off, 4, short, x, 3), (.stsc e cd inv 0 off, 4, short, x, 3), (.stsx e g ga imm, 4, indexed, x, 3),
      (.stsb e g ga gb 0, 4, chunk, x, 4), (.stsL e g 0 0 rid, 8, long, x, 3), (.stscL e cd inv 0 0 rid, 8, long, x, 3)]
    ∀ c n id x' cyc, Runs s ch e n task i p →
      ((c, n, id, x', cyc) ∈ reads →
        (id ≠ 0 → missing id → raises c 0x08 id) ∧
        (id ≠ 0 → tblFind (s.ch ch).dir id = some d → d.type ≠ 0 →
          ((p.reads.getD x.cls []).contains id = false → raises c 0x09 id) ∧
          ((p.reads.getD x.cls []).contains id = true → d.home = 4 → x.safe = true → raises c 0x0A id))) ∧
      ((c, n, id, x', cyc) ∈ writes →
        (id ≠ 0 → missing id → raises c 0x08 id) ∧
        (id ≠ 0 → tblFind (s.ch ch).dir id = some d → d.type ≠ 0 → d.home ≠ 0 ∨ d.owner ≠ x.cls → raises c 0x0B id)) ∧
      ((c, n, id, x', cyc) ∈ reads ++ writes → id = 0 → ∃ t, exec c s = .next t ∧ RegistersOnly s t ch e task i (x'.adv n) cyc)

/-- R89, R92, R125 to R131, R181: the instance operations. The preset of a timer is the register, not below 0; a timer that times advances by the frames
since LASTF, at most to its preset. TON: the input off clears it, a rising input starts it, reaching the preset sets Q. TOF: the input on sets Q and
clears the time, a falling input starts it, reaching the preset clears Q. TP: a rising input starts it with Q set, reaching the preset clears Q. REDGE and
FEDGE find edges; CTU counts rising inputs up unless reset, CTD down unless loaded, both saturating; SLD reads word 0, the preset, the time or
count, or LASTF, and changes nothing. An operation on a slot that does not exist, that another class owns or that is of another KIND raises 0x0E
with the slot index. -/
def Obligations.TimersFollowTheirRules : Prop :=
  (∀ (s : State) (ch : Ch) (e : Eng) (task : Nat) (i : Inst) (p : Program) (cq ci : CReg) (gp : GReg) (off : BitVec 12) (sl : Slot),
    Runs s ch e 4 task i p →
    let x := regsOf s ch e
    let k := (x.ib + off.zeroExtend 20).toNat
    let input := x.cr ci
    let m := sl.before input
    let pt : Int := max (x.gr gp).toInt 0
    let et : Int := min (sl.e.toInt + ((i.fr - sl.l.toNat) * s.pNs : Nat)) pt
    let now : Word := BitVec.ofNat 64 i.fr
    let ends (c : Instr) (q run : Bool) (time : Int) (lastf : Word) : Prop :=
      SlotEvaluated s c ch e task i k sl cq input q run time lastf (BitVec.ofInt 64 pt) 6
    seenSlot s ch i k = some sl → sl.owner = x.cls →
    (sl.kind = 1 →
      let c := Instr.ton e cq ci gp 0 off
      (input = false → ends c false false 0 sl.l) ∧
      (input = true → m = false → ends c (decide (pt = 0)) (decide (pt ≠ 0)) 0 now) ∧
      (input = true → m = true → sl.run = true → ends c (sl.q || decide (et = pt)) (decide (et ≠ pt)) et now) ∧
      (input = true → m = true → sl.run = false → ends c sl.q false sl.e.toInt sl.l)) ∧
    (sl.kind = 2 →
      let c := Instr.tof e cq ci gp 0 off
      (input = true → ends c true false 0 sl.l) ∧
      (input = false → m = true → ends c (sl.q && decide (pt ≠ 0)) (decide (pt ≠ 0)) 0 now) ∧
      (input = false → m = false → sl.run = true → ends c (sl.q && decide (et ≠ pt)) (decide (et ≠ pt)) et now) ∧
      (input = false → m = false → sl.run = false → ends c sl.q false sl.e.toInt sl.l)) ∧
    (sl.kind = 3 →
      let c := Instr.tp e cq ci gp 0 off
      (sl.run = true → ends c (sl.q && decide (et ≠ pt)) (decide (et ≠ pt)) et now) ∧
      (sl.run = false → input = true → m = false → ends c (decide (pt ≠ 0)) (decide (pt ≠ 0)) 0 now) ∧
      (sl.run = false → input = true → m = true → ends c sl.q false sl.e.toInt sl.l) ∧
      (sl.run = false → input = false → ends c sl.q false 0 sl.l))) ∧
  ((∀ (s : State) (ch : Ch) (e : Eng) (task : Nat) (i : Inst) (p : Program) (cq ci cr : CReg) (gd gp : GReg) (off : BitVec 12) (sl : Slot),
      Runs s ch e 4 task i p →
      let x := regsOf s ch e
      let k := (x.ib + off.zeroExtend 20).toNat
      let input := x.cr ci
      let rises := input && !sl.before input
      let falls := !input && sl.before input
      let pv := x.gr gp
      let ends (c : Instr) (q : Bool) (count : Int) (preset : Word) (cyc : Nat) : Prop :=
        SlotEvaluated s c ch e task i k sl cq input q sl.run count sl.l preset cyc
      let reads (sel : BitVec 2) (v : Word) : Prop :=
        ∃ t, exec (.sld e gd sel 0 off) s = .next t ∧ RegistersOnly s t ch e task i ((x.setG gd v).adv 4) 3
      seenSlot s ch i k = some sl → sl.owner = x.cls →
      (sl.kind = 4 → ends (.redge e cq ci 0 off) rises sl.e.toInt sl.p 4) ∧
      (sl.kind = 5 → ends (.fedge e cq ci 0 off) falls sl.e.toInt sl.p 4) ∧
      (sl.kind = 6 →
        let cv : Int := if x.cr cr then 0 else if rises then min (sl.e.toInt + 1) (2 ^ 63 - 1) else sl.e.toInt
        ends (.ctu e cq ci cr gp off) (decide (cv ≥ pv.toInt)) cv pv 5) ∧
      (sl.kind = 7 →
        let cv : Int := if x.cr cr then pv.toInt else if rises then max (sl.e.toInt - 1) (-2 ^ 63) else sl.e.toInt
        ends (.ctd e cq ci cr gp off) (decide (cv ≤ 0)) cv pv 5) ∧
      (1 ≤ sl.kind ∧ sl.kind ≤ 7 → reads 0 (sl.w0.zeroExtend 64) ∧ reads 1 sl.p ∧ reads 2 sl.e ∧ reads 3 sl.l)) ∧
  (∀ (s : State) (ch : Ch) (e : Eng) (task : Nat) (i : Inst) (p : Program) (cq ci cr : CReg) (gd gp : GReg) (off : BitVec 12) (sel : BitVec 2),
      Runs s ch e 4 task i p →
      let x := regsOf s ch e
      let k := (x.ib + off.zeroExtend 20).toNat
      let wrong (kind : Nat → Prop) : Prop := ∀ sl, seenSlot s ch i k = some sl → sl.owner = x.cls → ¬ kind sl.kind
      let raises (c : Instr) : Prop := ∃ t, exec c s = .next t ∧ Raised s t ch e task 0x0E k
      (wrong (· = 1) → raises (.ton e cq ci gp 0 off)) ∧ (wrong (· = 2) → raises (.tof e cq ci gp 0 off)) ∧
      (wrong (· = 3) → raises (.tp e cq ci gp 0 off)) ∧ (wrong (· = 4) → raises (.redge e cq ci 0 off)) ∧
      (wrong (· = 5) → raises (.fedge e cq ci 0 off)) ∧ (wrong (· = 6) → raises (.ctu e cq ci cr gp off)) ∧
      (wrong (· = 7) → raises (.ctd e cq ci cr gp off)) ∧
      (wrong (fun kind => 1 ≤ kind ∧ kind ≤ 7) → raises (.sld e gd sel 0 off))))

/-- R87, R114: loads of the program's code, of its scratch window and of unmapped addresses: the byte, half-word or word sign-extended or
zero-extended, the double-word as it is; an unmapped address reads 0. -/
def Obligations.LoadsGiveTheStoredBytes : Prop :=
  ∀ (s : State) (e : Eng) (task : Nat) (i : Inst) (p : Program) (gd ga : GReg) (imm : BitVec 16),
    let ch := s.leadCh
    let x := regsOf s ch e
    let a := (x.gr ga + imm.signExtend 64).toNat
    let raw (n : Nat) : Nat :=
      if regionOf a = .code then leNat (memBytes p.code a n) else if regionOf a = .work then leNat (memBytes i.scratch a n) else 0
    let open_ (n : Nat) : Prop :=
      regionOf a = .unmapped ∨ (a % n = 0 ∧ (regionOf a = .code ∨ (regionOf a = .work ∧ i.td.winLo ≤ a ∧ a + n ≤ i.td.winHi)))
    let sets (c : Instr) (v : Word) : Prop :=
      ∃ t, exec c s = .next t ∧ RegistersOnly s t ch e task i ((x.setG gd v).adv 4) 2
    Runs s ch e 4 task i p →
    (open_ 1 → sets (.ldb e gd ga imm) ((BitVec.ofNat 8 (raw 1)).signExtend 64) ∧
      sets (.ldbu e gd ga imm) ((BitVec.ofNat 8 (raw 1)).zeroExtend 64)) ∧
    (open_ 2 → sets (.ldh e gd ga imm) ((BitVec.ofNat 16 (raw 2)).signExtend 64) ∧
      sets (.ldhu e gd ga imm) ((BitVec.ofNat 16 (raw 2)).zeroExtend 64)) ∧
    (open_ 4 → sets (.ldw e gd ga imm) ((BitVec.ofNat 32 (raw 4)).signExtend 64) ∧
      sets (.ldwu e gd ga imm) ((BitVec.ofNat 32 (raw 4)).zeroExtend 64)) ∧
    (open_ 8 → sets (.ldd e gd ga imm) (BitVec.ofNat 64 (raw 8)))

/-- R85 to R88, R102, R151: accesses that raise, in the order of Table 4-8: a safety class's access to the backplane 0x0A, an address not aligned to the
access 0x0C (the peripheral registers and the compatibility window excepted), a range of Table 4-3 that a program may not read or write 0x0D; and the store that finds
the commit buffer full: the copy waits, and the instruction does not retire. That a byte, half-word, double-word or misaligned store to a peripheral register is held as
one of a word is, and that it raises 0x0D as that does, is the model's reading (log 14). -/
def Obligations.AccessesAreCheckedBeforeTheyAct : Prop :=
  (∀ (s : State) (e : Eng) (task : Nat) (i : Inst) (p : Program) (gd ga : GReg) (imm : BitVec 16),
      let ch := s.leadCh
      let x := regsOf s ch e
      let a := (x.gr ga + imm.signExtend 64).toNat
      let g := regionOf a
      Runs s ch e 4 task i p →
      ∀ c n, (c, n) ∈ [(Instr.ldb e gd ga imm, 1), (.ldbu e gd ga imm, 1), (.ldh e gd ga imm, 2), (.ldhu e gd ga imm, 2), (.ldw e gd ga imm, 4),
          (.ldwu e gd ga imm, 4), (.ldd e gd ga imm, 8)] →
        let raises (code : Nat) : Prop := ∃ t, exec c s = .next t ∧ Raised s t ch e task code a
        let backplane := (g = .exchange ∨ g = .outbound) ∧ x.safe = true
        let unaligned := g ≠ .unmapped ∧ g ≠ .periph ∧ g ≠ .window ∧ a % n ≠ 0
        (backplane → raises 0x0A) ∧
        (¬ backplane → unaligned → raises 0x0C) ∧
        (¬ unaligned → (g ∈ [Region.shadow, .coldSlot, .context, .value, .dir, .tile] ∨
            (g = .work ∧ ¬ (i.td.winLo ≤ a ∧ a + n ≤ i.td.winHi))) → raises 0x0D)) ∧
  (∀ (s : State) (ch : Ch) (e : Eng) (task : Nat) (i : Inst) (p : Program) (gs ga : GReg) (imm : BitVec 16),
      let x := regsOf s ch e
      let k := (s.ch ch).eng[e]
      let a := (x.gr ga + imm.signExtend 64).toNat
      let g := regionOf a
      Runs s ch e 4 task i p →
      ∀ c n, (c, n) ∈ [(Instr.stb e gs ga imm, 1), (.sth e gs ga imm, 2), (.stw e gs ga imm, 4), (.std e gs ga imm, 8)] →
        let raises (code : Nat) : Prop := ∃ t, exec c s = .next t ∧ Raised s t ch e task code a
        let backplane := (g = .exchange ∨ g = .outbound) ∧ x.safe = true
        let unaligned := g ≠ .unmapped ∧ g ≠ .periph ∧ g ≠ .window ∧ a % n ≠ 0
        (backplane → raises 0x0A) ∧
        (¬ backplane → unaligned → raises 0x0C) ∧
        (¬ backplane → ¬ unaligned → (g ∈ [Region.code, .shadow, .coldSlot, .context, .value, .dir, .tile, .exchange, .mram] ∨
            (g = .work ∧ ¬ (i.td.winLo ≤ a ∧ a + n ≤ i.td.winHi)) ∨ ((g = .periph ∨ g = .window) ∧ x.safe = true)) → raises 0x0D) ∧
        ((g = .outbound ∧ a % n = 0 ∨ g = .periph ∨ g = .window) → x.safe = false → 4096 ≤ k.cbuf.length →
          ∃ t, exec c s = .next t ∧ OnlyEngine s t e ∧
            t.ch ch = { s.ch ch with eng := (s.ch ch).eng.set e { k with stall := some .bufferFull } }))

/-- R1 to R3, R13, R142, R143, R299, R303: distributed reads. A load of the exchange area, MRAM, a peripheral register or the compatibility window is
read once, as the leading channel issues it: the capture stage holds the value, the delay registers pass it on with its parity, and every executing copy
that makes the access gets it as its own delay register delivers it, which is that one value where the register is sound (the leading channel has
none); the bits that a faulty register inverts are R165's. MRAM gives its bytes, a register its word, a _LO register the low half and a latched high half, an access
of less than a word or one not aligned to words 0, a double-word two registers, the low one first (these widths: log 14), CPEND and CMASK a bit a source. A load of the outbound window raises 0x10 where the duties are not held, else it takes the
first free delayed-read slot, behind every posted entry, or waits for one behind those that wait, and every copy whose own access is a distributed read
waits, with the address that it formed itself (R145). -/
def Obligations.DistributedReadIsTheSameInEveryChannel : Prop :=
  ∀ (s : State) (ch : Ch) (e : Eng) (task task' : Nat) (i i' : Inst) (p p' : Program) (gd ga : GReg) (imm : BitVec 16) (j : Fin 8),
    let x := regsOf s ch e
    let a := ((regsOf s s.leadCh e).gr ga + imm.signExtend 64).toNat
    let own := (x.gr ga + imm.signExtend 64).toNat
    let g := regionOf a
    let k := (s.ch ch).eng[e]
    let mem (n : Nat) : Word := BitVec.ofNat 64 (leNat (memBytes s.smem a n))
    let mram (n : Nat) : Word := BitVec.ofNat 64 (leNat ((List.range n).map fun b => s.mramByte (a - 0x200000000 + b)))
    -- command `c` loads `v`, which the bus read from `s` and left `u`; the copy gets `v'`
    let gets (u : State) (c : Instr) (v v' : Word) : Prop :=
      ∃ t, exec c s = .next t ∧ InstanceChanged (u.distribute v) t ch e task i ((x.setG gd v').adv 4) 2 ∧
        t.vote.capture = v ∧ t.vote.dregB.stages.length = u.stagesOf .b ∧ t.vote.dregC.stages.length = u.stagesOf .c ∧
        (s.vote.dregB.wrong = 0 → ∀ d ∈ t.vote.dregB.stages, d = (v, parityOf v)) ∧
        (s.vote.dregC.wrong = 0 → ∀ d ∈ t.vote.dregC.stages, d = (v, parityOf v))
    let got (v : Word) : Word := v ^^^ s.wrongBits ch
    let bytes (v : Word) : Prop :=
      gets s (.ldb e gd ga imm) v (((got v).truncate 8).signExtend 64) ∧ gets s (.ldbu e gd ga imm) v (((got v).truncate 8).zeroExtend 64)
    let halves (v : Word) : Prop :=
      gets s (.ldh e gd ga imm) v (((got v).truncate 16).signExtend 64) ∧ gets s (.ldhu e gd ga imm) v (((got v).truncate 16).zeroExtend 64)
    let words (u : State) (v : Word) : Prop :=
      gets u (.ldw e gd ga imm) v (((got v).truncate 32).signExtend 64) ∧ gets u (.ldwu e gd ga imm) v (((got v).truncate 32).zeroExtend 64)
    let all (read : Nat → Word) : Prop := bytes (read 1) ∧ (a % 2 = 0 → halves (read 2)) ∧ (a % 4 = 0 → words s (read 4)) ∧
      (a % 8 = 0 → gets s (.ldd e gd ga imm) (read 8) (got (read 8)))
    -- registers
    let off := a - 0x300000000
    let lo := s.readWord (.eng e) (some i'.td.id) off
    let hi := lo.2.readWord (.eng e) (some i'.td.id) (off + 4)
    let plain := [R.GONG.STATUS.PHASE, R.TASK.XSTAT.STATE, R.SIG.FLAG.all, R.VOTE.CHST.CH 0, R.EVC.HOLD.TGT, R.NET.RXACC.COUNT, R.SIO.OSTATE.DEM,
      R.SPD.STATUS.MODE, R.PAIR.ROLE.PACT, R.CFG.CURVER.CFGVER, R.UPD.STATE.TRIAL, R.SUP.STATE.MSTATE, R.BIST.LCS.STATE, R.ID.PART.NUM]
    let frame := if s.get R.GONG.STATUS.ALIGNED = 1 then s.gong.frame else 0
    let source (b : Nat) := winKey e.val ((off - 0x200000) / 4 % 8) b
    let pending (b : Nat) : Prop := ∃ y, tblFind s.evs (source b) = some y ∧ y.ph ≠ .claimed
    -- the outbound window
    let slot (w : Fin 8) := s.brg.slots[w]
    let loads := [(Instr.ldb e gd ga imm, 1, true), (.ldbu e gd ga imm, 1, false), (.ldh e gd ga imm, 2, true), (.ldhu e gd ga imm, 2, false),
      (.ldw e gd ga imm, 4, true), (.ldwu e gd ga imm, 4, false), (.ldd e gd ga imm, 8, false)]
    let waits (c : Instr) (b : BrgSt) (why : Stall) : Prop :=
      ∃ t, exec c s = .next t ∧ OnlyEngine { s with brg := b } t e ∧
        t.ch ch = { s.ch ch with eng := (s.ch ch).eng.set e { k with stall := some why } }
    Runs s s.leadCh e 4 task' i' p' → Runs s ch e 4 task i p →
    (ch = s.leadCh → s.wrongBits ch = 0) ∧
    (own = a → g = .exchange → (regsOf s s.leadCh e).safe = false → x.safe = false → all mem) ∧
    (own = a → g = .mram → all mram) ∧
    (own = a → g = .periph ∨ g = .window →
      bytes 0 ∧ halves 0 ∧ (a % 4 ≠ 0 → words s 0 ∧ gets s (.ldd e gd ga imm) 0 (got 0)) ∧
      (a % 4 = 0 → words lo.2 (lo.1.zeroExtend 64) ∧ gets hi.2 (.ldd e gd ga imm) (hi.1 ++ lo.1) (got (hi.1 ++ lo.1))) ∧
      (∀ f ∈ plain, off = f.off → lo = (s.reg f.off, s)) ∧
      (off = R.GONG.FRAME_LO.FRAME.off → lo.1 = BitVec.ofNat 32 frame ∧ hi.1 = BitVec.ofNat 32 (frame / 2 ^ 32)) ∧
      (off = 0x200040 → s.ringEmpty e.val = true → lo = (0x3FF, s)) ∧
      (0x200000 ≤ off → off < 0x200020 → off % 4 = 0 → lo.2 = s ∧ ∀ b, b < 32 → (lo.1.getLsbD b = true ↔ pending b)) ∧
      (0x200020 ≤ off → off < 0x200040 → off % 4 = 0 → lo.2 = s ∧ ∀ b, b < 32 → (lo.1.getLsbD b = true ↔
        s.get (if source b < 160 then ⟨(R.EVC.PEN.EN e.val).off, source b % 16, 1⟩ else R.EVC.SCFG.EN (source b - 160)) = 0))) ∧
    (g = .outbound → (regsOf s s.leadCh e).safe = false → ∀ c n signed, (c, n, signed) ∈ loads → a % n = 0 →
      (own % n = 0 ∧ (regionOf own = .mram ∨ (regionOf own = .exchange ∨ regionOf own = .outbound) ∧ x.safe = false)) ∨
        regionOf own = .periph ∨ regionOf own = .window →
      let w : DrWait := ⟨.eng e, BitVec.ofNat 32 (a - 0x400000000), n⟩
      (s.get R.BRG.STATUS.HOLD = 0 → ∃ t, exec c s = .next t ∧ Raised { s with regs := t.regs } t ch e task 0x10 own ∧
        FieldsSet s t [(R.BRG.FLAG.RDERR, 1), (R.BRG.RDERRCNT.COUNT, min (s.get R.BRG.RDERRCNT.COUNT + 1) (2 ^ R.BRG.RDERRCNT.COUNT.w - 1))]) ∧
      (s.get R.BRG.STATUS.HOLD = 1 → slot j = none → (∀ b, b < j → slot b ≠ none) →
        waits c { s.brg with slots := s.brg.slots.set j (some ⟨w.req, w.addr, w.size, s.brg.posted.length, false⟩) } (.read j.val gd own n signed)) ∧
      (s.get R.BRG.STATUS.HOLD = 1 → (∀ b, slot b ≠ none) → waits c { s.brg with waits := s.brg.waits ++ [w] } (.noSlot gd own n signed)))

/-- R86, R87, R114, R150: stores. In the scratch window the low bytes of the register are stored at once, little-endian, and every other byte keeps
its value; to a peripheral register, the compatibility window or the outbound window the store is held in the commit buffer, with address,
data, byte mask and window, and nothing outside the engine changes; to an unmapped address nothing happens. That a store of another width than a word, or one not
aligned, to a peripheral register is held too is the model's reading (log 14). -/
def Obligations.StoresStayInTheScratchWindowOrAreHeld : Prop :=
  ∀ (s : State) (ch : Ch) (e : Eng) (task : Nat) (i : Inst) (p : Program) (gs ga : GReg) (imm : BitVec 16),
    let x := regsOf s ch e
    let k := (s.ch ch).eng[e]
    let a := (x.gr ga + imm.signExtend 64).toNat
    let g := regionOf a
    let v := (x.gr gs).toNat
    Runs s ch e 4 task i p →
    ∀ c n, (c, n) ∈ [(Instr.stb e gs ga imm, 1), (.sth e gs ga imm, 2), (.stw e gs ga imm, 4), (.std e gs ga imm, 8)] →
      (g = .work → a % n = 0 → i.td.winLo ≤ a → a + n ≤ i.td.winHi →
        ∃ t scratch', exec c s = .next t ∧ InstanceChanged s t ch e task { i with scratch := scratch' } (x.adv 4) 1 ∧
          (∀ b, b < a ∨ a + n ≤ b → memGet scratch' b = memGet i.scratch b) ∧
          ∀ j, j < n → memGet scratch' (a + j) = BitVec.ofNat 8 (v / 256 ^ j)) ∧
      ((g = .outbound ∧ a % n = 0 ∨ g = .periph ∨ g = .window) → x.safe = false → k.cbuf.length < 4096 →
        ∃ t, exec c s = .next t ∧ OnlyEngine s t e ∧ (t.ch ch).insts = tblPut (s.ch ch).insts task i ∧
          (t.ch ch).eng[e].x = x.adv 4 ∧ (t.ch ch).eng[e].bud = k.bud - 1 ∧
          (t.ch ch).eng[e].cbuf = k.cbuf ++ [⟨a, BitVec.ofNat 64 (v % 2 ^ (8 * n)), BitVec.ofNat 8 (2 ^ n - 1),
            (k.window s.gong.frame e).seq, i.td.id, false, s.gong.frame, 0⟩]) ∧
      (g = .unmapped → ∃ t, exec c s = .next t ∧ RegistersOnly s t ch e task i (x.adv 4) 1)

/-- R132, R133, Table 5-10: the floating-point instructions write the result of their IEEE 754-2019 operation in the format that D selects (binary32
in the low half, the high half zero), rounded by ST.RM, and accumulate its flags in ST.FX; FloatOperationsRoundTheExactResult says what the operations give for finite operands, and this statement the
rest: a NaN operand comes back quiet, the first of two, invalid where one signals; an operation without a value gives the default NaN and invalid; infinities, zeros and
division by zero; minimumNumber and maximumNumber; and the relations of FCMP, unordered with a NaN. That FMIN and FMAX let a NaN give way to a number is the model's reading of Table 5-10 beside R132 (log 7). -/
def Obligations.FloatInstructionsWriteResultAndFlags : Prop :=
  (∀ (s : State) (ch : Ch) (e : Eng) (task : Nat) (i : Inst) (p : Program) (gd ga gb : GReg) (cd : CReg) (d : Bool) (rel : BitVec 4),
    Runs s ch e 4 task i p →
    let x := regsOf s ch e
    let f := if d then binary64 else binary32
    let g := if d then binary32 else binary64
    let a := (x.gr ga).toNat % 2 ^ (f.p + f.ew)
    let b := (x.gr gb).toNat % 2 ^ (f.p + f.ew)
    let rm := fieldOf x.st 16 2
    let flagged (fl : Nat) : Ctx := { x with st := withField x.st 11 5 (fieldOf x.st 11 5 ||| fl) }
    let sets (c : Instr) (r : Nat × Nat) (cyc : Nat) : Prop :=
      ∃ t, exec c s = .next t ∧ RegistersOnly s t ch e task i (((flagged r.2).setG gd (BitVec.ofNat 64 r.1)).adv 4) cyc
    sets (.fadd e gd ga gb d 0) (f.add rm false a b) 4 ∧ sets (.fsub e gd ga gb d 0) (f.add rm true a b) 4 ∧
    sets (.fmul e gd ga gb d 0) (f.mul rm a b) (if d then 5 else 4) ∧ sets (.fdiv e gd ga gb d 0) (f.div rm a b) (if d then 22 else 14) ∧
    sets (.fmin e gd ga gb d 0) (f.minMax false a b) 2 ∧ sets (.fmax e gd ga gb d 0) (f.minMax true a b) 2 ∧
    sets (.fsqrt e gd ga d 0) (f.sqrt rm a) (if d then 26 else 16) ∧ sets (.frnd e gd ga d 0) (f.integral rm a) 3 ∧
    sets (.fabs e gd ga d 0) (a % 2 ^ (f.p + f.ew - 1), 0) 1 ∧
    sets (.fneg e gd ga d 0) ((a + 2 ^ (f.p + f.ew - 1)) % 2 ^ (f.p + f.ew), 0) 1 ∧
    sets (.fcvtf e gd ga d 0) (f.ofInt rm (x.gr ga)) 3 ∧ sets (.fcvts e gd ga d 0) (f.convert g rm a) 2 ∧
    sets (.fcvti e gd ga d 0) ((f.toInt rm a).1.toNat, (f.toInt rm a).2) 3 ∧
    (rel.toNat < 8 → ∃ t, exec (.fcmp e rel cd ga gb d 0) s = .next t ∧
      RegistersOnly s t ch e task i (((flagged (f.cmp rel.toNat a b).2).setC cd (f.cmp rel.toNat a b).1).adv 4) 2)) ∧
  binary32.nan = 0x7FC00000 ∧ binary64.nan = 0x7FF8000000000000 ∧
  ∀ (d e sub isMax : Bool) (rm a b : Nat),
    let f := fmtOf d
    let g := fmtOf e
    let quiet (v : Nat) : Nat := v ||| 2 ^ (f.p - 2)
    let flag (b : Bool) : Nat := if b then 16 else 0
    -- the order of values, −0 equal to +0
    let val (v : FVal) : EReal := match v with
      | .nan _ _ _ => 0
      | .inf neg => if neg then ⊥ else ⊤
      | .fin neg m q => (((if neg then -1 else 1) * m * (2 : ℝ) ^ q : ℝ) : EReal)
    let va := f.decode a
    let vb := f.decode b
    let x := val va
    let y := val vb
    let ops : List (Nat × Nat) := [f.add rm sub a b, f.mul rm a b, f.div rm a b]
    (a < 2 ^ (f.p + f.ew) → va.isNan = true →
      (∀ r ∈ ops, r = (quiet a, flag (va.isSnan || vb.isSnan))) ∧ f.sqrt rm a = (quiet a, flag va.isSnan) ∧
      f.integral rm a = (quiet a, flag va.isSnan) ∧ f.toInt rm a = (0, 16) ∧ (g.decode (f.convert g rm a).1).isNan = true ∧
      (g.decode (f.convert g rm a).1).isSnan = false ∧ (f.convert g rm a).2 = flag va.isSnan) ∧
    (b < 2 ^ (f.p + f.ew) → va.isNan = false → vb.isNan = true → ∀ r ∈ ops, r = (quiet b, flag vb.isSnan)) ∧
    (∀ s t, va = .inf s → vb = .inf t → f.add rm sub a b = (if s = (t ^^ sub) then (f.inf s, 0) else (f.nan, 16)) ∧
      f.mul rm a b = (f.inf (s ^^ t), 0) ∧ f.div rm a b = (f.nan, 16)) ∧
    (∀ s t n r, va = .inf s → vb = .fin t n r → f.add rm sub a b = (f.inf s, 0) ∧ f.div rm a b = (f.inf (s ^^ t), 0) ∧
      f.mul rm a b = (if n = 0 then (f.nan, 16) else (f.inf (s ^^ t), 0))) ∧
    (∀ s m q t, va = .fin s m q → vb = .inf t → f.add rm sub a b = (f.inf (t ^^ sub), 0) ∧ f.div rm a b = (f.zero (s ^^ t), 0) ∧
      f.mul rm a b = (if m = 0 then (f.nan, 16) else (f.inf (s ^^ t), 0))) ∧
    (∀ s, va = .inf s → f.sqrt rm a = (if s then (f.nan, 16) else (f.inf false, 0)) ∧ f.integral rm a = (a, 0) ∧
      f.convert g rm a = (g.inf s, 0) ∧ f.toInt rm a = (if s then BitVec.intMin 64 else BitVec.intMax 64, 16)) ∧
    (∀ s m q, va = .fin s m q → (m = 0 → f.sqrt rm a = (f.zero s, 0) ∧ f.convert g rm a = (g.zero s, 0)) ∧
      (m ≠ 0 → s = true → f.sqrt rm a = (f.nan, 16))) ∧
    f.ofInt rm 0 = (0, 0) ∧
    (∀ s m q t n r, va = .fin s m q → vb = .fin t n r →
      (x = (if sub then y else -y) → f.add rm sub a b = (f.zero (if s = (t ^^ sub) then s else decide (rm = 3)), 0)) ∧
      (m = 0 ∨ n = 0 → f.mul rm a b = (f.zero (s ^^ t), 0)) ∧
      (n ≠ 0 → m = 0 → f.div rm a b = (f.zero (s ^^ t), 0)) ∧
      (n = 0 → f.div rm a b = (if m = 0 then (f.nan, 16) else (f.inf (s ^^ t), 8)))) ∧
    (va.isNan = false → vb.isNan = false →
      (f.minMax isMax a b).2 = 0 ∧ (x < y → (f.minMax isMax a b).1 = (if isMax then b else a)) ∧
      (y < x → (f.minMax isMax a b).1 = (if isMax then a else b)) ∧
      (x = y → va.neg = true → vb.neg = false → (f.minMax isMax a b).1 = (if isMax then b else a)) ∧
      (x = y → va.neg = false → vb.neg = true → (f.minMax isMax a b).1 = (if isMax then a else b))) ∧
    (va.isNan = false → vb.isNan = true → f.minMax isMax a b = (a, flag vb.isSnan)) ∧
    (va.isNan = true → vb.isNan = false → f.minMax isMax a b = (b, flag va.isSnan)) ∧
    (va.isNan = false → vb.isNan = false → (∀ k, k < 8 → (f.cmp k a b).2 = 0) ∧
      ((f.cmp 0 a b).1 = true ↔ x = y) ∧ ((f.cmp 1 a b).1 = true ↔ x ≠ y) ∧ ((f.cmp 2 a b).1 = true ↔ x < y) ∧ ((f.cmp 3 a b).1 = true ↔ x ≤ y) ∧
      ((f.cmp 4 a b).1 = true ↔ y < x) ∧ ((f.cmp 5 a b).1 = true ↔ y ≤ x) ∧ (f.cmp 6 a b).1 = false ∧ (f.cmp 7 a b).1 = true) ∧
    (va.isNan = true ∨ vb.isNan = true → ∀ k, k < 8 →
      f.cmp k a b = (decide (k = 1 ∨ k = 6), flag (decide (2 ≤ k ∧ k ≤ 5) || va.isSnan || vb.isSnan)))

/-- R132, R82, Table 5-10: the floating-point operations on finite operands give the exact result rounded as ST.RM says (0 to nearest, ties to even;
1 toward zero; 2 up; 3 down): of the values of the format the nearest, or the next on its side, subnormals in full. Beyond the largest finite value the result is the infinity or that value, with overflow and inexact; else inexact is set
where the result is not exact, with underflow where it is tiny too (tiny before or after rounding is a constant of Config, which IEEE 754-2019
leaves open). Conversions to an integer and FRND round alike; an FCVTI that rounding changes is inexact (log 7). -/
def Obligations.FloatOperationsRoundTheExactResult : Prop :=
  ∀ (d e : Bool) (rm : Nat), rm < 4 →
    let val (neg : Bool) (m : Nat) (q : Int) : ℝ := (if neg then -1 else 1) * m * (2 : ℝ) ^ q
    let finite (f : Fmt) (v : Nat) (x : ℝ) : Prop := v < 2 ^ (f.p + f.ew) ∧ ∃ neg m q, f.decode v = .fin neg m q ∧ x = val neg m q
    let away (x : ℝ) : Prop := (rm = 2 ∧ 0 < x) ∨ (rm = 3 ∧ x < 0)
    let rounded (f : Fmt) (x : ℝ) (neg : Bool) (r : Nat × Nat) : Prop :=
      let top : ℝ := (2 : ℝ) ^ ((f.emax : Int) + 1)
      let unit : ℝ := (2 : ℝ) ^ ((f.emax : Int) + 1 - f.p)
      let least : ℝ := (2 : ℝ) ^ (1 - (f.emax : Int))
      let below : ℝ := (2 : ℝ) ^ (1 - (f.emax : Int) - f.p)
      let beyond : Prop := (rm = 0 ∧ top - unit / 2 ≤ |x|) ∨ (away x ∧ top - unit < |x|) ∨ (rm ≠ 0 ∧ ¬ away x ∧ top ≤ |x|)
      let tiny : Prop := |x| < least ∧ (Config.tinyAfterRounding = true → (rm = 0 → |x| < least - below / 2) ∧ (away x → |x| ≤ least - below))
      (beyond → (rm = 0 ∨ away x → r = (f.inf neg, 5)) ∧ (rm ≠ 0 → ¬ away x → r = (f.maxFin neg, 5))) ∧
      (¬ beyond → ∃ y, finite f r.1 y ∧ (r.1 / f.signBit % 2 = 1 ↔ neg = true) ∧
        (rm = 0 → ∀ v z, finite f v z → |y - x| ≤ |z - x| ∧ (|z - x| = |y - x| → z = y ∨ r.1 % 2 = 0)) ∧
        (rm = 1 → |y| ≤ |x| ∧ ∀ v z, finite f v z → |z| ≤ |x| → |z| ≤ |y|) ∧
        (rm = 2 → x ≤ y ∧ ∀ v z, finite f v z → x ≤ z → y ≤ z) ∧
        (rm = 3 → y ≤ x ∧ ∀ v z, finite f v z → z ≤ x → z ≤ y) ∧
        (y = x → r.2 = 0) ∧ (y ≠ x → tiny → r.2 = 3) ∧ (y ≠ x → ¬ tiny → r.2 = 1))
    let whole (x : ℝ) (n : Int) : Prop :=
      (rm = 0 → ∀ k : Int, |(n : ℝ) - x| ≤ |(k : ℝ) - x| ∧ (|(k : ℝ) - x| = |(n : ℝ) - x| → k = n ∨ n % 2 = 0)) ∧
      (rm = 1 → |(n : ℝ)| ≤ |x| ∧ 0 ≤ n * x ∧ ∀ k : Int, |(k : ℝ)| ≤ |x| → |(k : ℝ)| ≤ |(n : ℝ)|) ∧
      (rm = 2 → n = ⌈x⌉) ∧ (rm = 3 → n = ⌊x⌋)
    let f := fmtOf d
    let g := fmtOf e
    (∀ v : Word, v ≠ 0 → rounded f v.toInt (decide (v.toInt < 0)) (f.ofInt rm v)) ∧
    ∀ a b : Nat, ∀ s m q t n r, f.decode a = .fin s m q → f.decode b = .fin t n r →
      let x := val s m q
      let y := val t n r
      (x + y ≠ 0 → rounded f (x + y) (decide (x + y < 0)) (f.add rm false a b)) ∧
      (x - y ≠ 0 → rounded f (x - y) (decide (x - y < 0)) (f.add rm true a b)) ∧
      (x * y ≠ 0 → rounded f (x * y) (s ^^ t) (f.mul rm a b)) ∧
      (x ≠ 0 → y ≠ 0 → rounded f (x / y) (s ^^ t) (f.div rm a b)) ∧
      (0 < x → rounded f (Real.sqrt x) false (f.sqrt rm a)) ∧
      (x ≠ 0 → rounded g x s (f.convert g rm a)) ∧
      (∃ k : Int, whole x k ∧
        (2 ^ 63 ≤ k → f.toInt rm a = (BitVec.intMax 64, 16)) ∧ (k < -2 ^ 63 → f.toInt rm a = (BitVec.intMin 64, 16)) ∧
        (-2 ^ 63 ≤ k → k < 2 ^ 63 → (f.toInt rm a).1.toInt = k ∧ ((k : ℝ) = x → (f.toInt rm a).2 = 0) ∧ ((k : ℝ) ≠ x → (f.toInt rm a).2 = 1))) ∧
      (a < 2 ^ (f.p + f.ew) → ∃ k : Int, whole x k ∧ finite f (f.integral rm a).1 k ∧ ((f.integral rm a).1 / f.signBit % 2 = 1 ↔ s = true) ∧
        ((k : ℝ) = x → (f.integral rm a).2 = 0) ∧ ((k : ℝ) ≠ x → (f.integral rm a).2 = 1))

/-- R134, R136, R137: NOP, MFS and MTS: MFS gives SB, IB, PC, ST or BUD zero-extended; MTS writes SB, IB, or RM and FX of ST and nothing else of it;
a selection from 5 up, and MTS to PC or BUD, are illegal. -/
def Obligations.SystemInstructionsMoveSpecialRegisters : Prop :=
  ∀ (s : State) (ch : Ch) (e : Eng) (task : Nat) (i : Inst) (p : Program) (gd ga : GReg), Runs s ch e 4 task i p →
    let x := regsOf s ch e
    let a := x.gr ga
    let leaves (c : Instr) (x' : Ctx) (cyc : Nat) : Prop := ∃ t, exec c s = .next t ∧ RegistersOnly s t ch e task i (x'.adv 4) cyc
    let raises (c : Instr) : Prop := ∃ t, exec c s = .next t ∧ Raised s t ch e task 0x03 0
    leaves (.nop e 0) x 1 ∧
    leaves (.mfs e gd 0 0) (x.setG gd (x.sb.zeroExtend 64)) 1 ∧ leaves (.mfs e gd 1 0) (x.setG gd (x.ib.zeroExtend 64)) 1 ∧
    leaves (.mfs e gd 2 0) (x.setG gd (x.pc.zeroExtend 64)) 1 ∧ leaves (.mfs e gd 3 0) (x.setG gd (x.st.zeroExtend 64)) 1 ∧
    leaves (.mfs e gd 4 0) (x.setG gd ((s.ch ch).eng[e].bud.zeroExtend 64)) 1 ∧
    leaves (.mts e ga 0 0) { x with sb := a.truncate 25 } 2 ∧ leaves (.mts e ga 1 0) { x with ib := a.truncate 20 } 2 ∧
    (∀ sel : BitVec 5, 5 ≤ sel.toNat → raises (.mfs e gd sel 0) ∧ raises (.mts e ga sel 0)) ∧ raises (.mts e ga 2 0) ∧ raises (.mts e ga 4 0) ∧
    ∃ st', leaves (.mts e ga 3 0) { x with st := st' } 2 ∧
      fieldOf st' 16 2 = a.toNat / 2 ^ 16 % 4 ∧ fieldOf st' 11 5 = a.toNat / 2 ^ 11 % 32 ∧
      fieldOf st' 0 11 = fieldOf x.st 0 11 ∧ fieldOf st' 18 14 = fieldOf x.st 18 14

/-- R99, R134, R135, R146: SYNC closes the open window as a commit point; YIELD ends the segment with the context saved, and in the last segment
the instance; YIELD.E ends the instance in any segment; FAULT raises 0x11 with its code. -/
def Obligations.SyncYieldAndFaultEndWhatTheyEnd : Prop :=
  ∀ (s : State) (ch : Ch) (e : Eng) (task : Nat) (i : Inst) (p : Program) (code : BitVec 10), Runs s ch e 4 task i p →
    let x := regsOf s ch e
    let k := (s.ch ch).eng[e]
    let closes (t : State) : Prop :=
      (t.ch ch).eng[e].win = none ∧ (t.ch ch).eng[e].x = x.adv 4 ∧ (t.ch ch).eng[e].bud = k.bud - 1 ∧ (t.ch ch).eng[e].cbuf = k.cbuf ∧
      (k.win.isSome = true → ∃ g ∈ t.vote.groups, ∃ c, g.of ch = some c ∧ c.reason = 2 ∧ c.task = task ∧ c.exc = none)
    let leaves (c : Instr) (i' : Inst) : Prop :=
      ∃ t, exec c s = .next t ∧ closes t ∧ (t.ch ch).eng[e].run = none ∧ (t.ch ch).insts = tblPut (s.ch ch).insts task i' ∧
        OnlyEngine s { t with regs := s.regs } e ∧ RegsKept s t [(R.TASK.ENGPEAK.NS e.val).off]
    (∃ t, exec (.sync e 0) s = .next t ∧ OnlyEngine s t e ∧ closes t ∧ (t.ch ch).eng[e].run = some task ∧
      (t.ch ch).insts = tblPut (s.ch ch).insts task i) ∧
    (lastSeg p task i.seg = false → leaves (.yield e 0) { i with ctx := some (x.adv 4), ended := false, fin := true }) ∧
    (lastSeg p task i.seg = true → leaves (.yield e 0) { i with ctx := none, ended := true, fin := true }) ∧
    leaves (.yieldE e 0) { i with ctx := none, ended := true, fin := true } ∧
    (∃ t, exec (.faultI e code 0) s = .next t ∧ Raised s t ch e task 0x11 code.toNat)

/-- R137, R288: EVT.C claims an event for the engine's target: 0x3FF from an empty ring, else the number of the record at the ring's tail, whose
source becomes CLAIMED, or 0x3FF with SPUR set where the source is withdrawn; EVT.D holds the completion for COMMIT, and raises 0x0D in a safety class. -/
def Obligations.EventInstructionsClaimAndComplete : Prop :=
  ∀ (s : State) (e : Eng) (task : Nat) (i : Inst) (p : Program) (g : GReg),
    let ch := s.leadCh
    let x := regsOf s ch e
    let k := (s.ch ch).eng[e]
    let n := s.ringWord e.val 0 % 1024
    let claims (v : Nat) (post : State → Prop) : Prop :=
      ∃ t, exec (.evtC e g 0) s = .next t ∧ (t.ch ch).eng[e].x = (x.setG g (BitVec.ofNat 64 v)).adv 4 ∧
        (t.ch ch).eng[e].bud = k.bud - 1 ∧ (t.ch ch).insts = tblPut (s.ch ch).insts task i ∧ post t
    Runs s ch e 4 task i p →
    (s.ringEmpty e.val = true → claims 0x3FF (fun t => t.evs = s.evs ∧ t.regs = s.regs)) ∧
    (∀ src, s.ringEmpty e.val = false → tblFind s.evs (evKey e.val n) = some src →
      (s.ringTake e.val).evLevel (evKey e.val n) = true → (s.ringTake e.val).evEnabled (evKey e.val n) = true →
      claims n (fun t => tblFind t.evs (evKey e.val n) = some { src with ph := .claimed, redo := false, task := some i.td.id, target := some e.val } ∧
        t.regs = (s.ringTake e.val).regs)) ∧
    (s.ringEmpty e.val = false →
      tblFind s.evs (evKey e.val n) = none ∨ (s.ringTake e.val).evLevel (evKey e.val n) = false ∨
        (s.ringTake e.val).evEnabled (evKey e.val n) = false →
      claims 0x3FF (fun t => t.get R.EVC.FLAG.SPUR = 1 ∧ tblFind t.evs (evKey e.val n) = none)) ∧
    (x.safe = false → k.cbuf.length < 4096 →
      ∃ t, exec (.evtD e g 0) s = .next t ∧ OnlyEngine s t e ∧ (t.ch ch).eng[e].x = x.adv 4 ∧
        (t.ch ch).eng[e].cbuf = k.cbuf ++ [⟨0x300050080 + 4 * e.val, BitVec.ofNat 64 ((x.gr g).toNat % 1024), 0x0F,
          (k.window s.gong.frame e).seq, i.td.id, false, s.gong.frame, 0⟩]) ∧
    (x.safe = true → ∃ t, exec (.evtD e g 0) s = .next t ∧ Raised s t ch e task 0x0D (0x300050080 + 4 * e.val))

/-- R84, R97, R98, R107, R108, R138, R147: the two top bits of a word give the length of the instruction it spells, and a word of a code that Tables 5-12 and
5-13 do not list spells an illegal one. Before an instruction's own checks, each executing copy that would run it raises 0x01 with BUD zero, else 0x02
where the fetch leaves the unit, else 0x03 where the encoding is illegal; every Osrus instruction, in the leading channel (that the exception
record of 0x02 holds address 0 is the model's choice, log 33). A copy that runs no instance or waits executes nothing: an Osrus instruction
leaves every channel in which the engine does not run, and every channel that does not execute, as it was. -/
def Obligations.BudgetFetchAndEncodingAreCheckedFirst : Prop :=
  (∀ (s : State) (e : Eng) (task : Nat) (i : Inst) (p : Program) (c : Instr) (n : Nat) (legal : Bool) (v w : W32),
    let ch := s.leadCh
    let k := (s.ch ch).eng[e]
    let op := v.toNat / 2 ^ 26
    let fn := v.toNat % 64
    let reserved : Prop := op = 0x00 ∨ op = 0x07 ∨ op = 0x0F ∨ 0x37 ≤ op ∨ (op = 0x01 ∧ 0x15 < fn) ∨ (op = 0x15 ∧ 0x06 < fn) ∨ (op = 0x2E ∧ 0x0D < fn) ∨ (op = 0x2F ∧ 0x08 < fn)
    let raises (code : Nat) : Prop := ∃ t, exec c s = .next t ∧ Raised s t ch e task code 0
    (∃ legal, osrusForm (decodeOsrus e v w) = some (e, if 3 ≤ v.toNat / 2 ^ 30 then 8 else 4, legal) ∧ (reserved → legal = false)) ∧
    (osrusForm c = some (e, n, legal) →
    s.executing ch = true → k.run = some task → k.stall = none → tblFind (s.ch ch).insts task = some i → s.bank i.bank = some p →
    (k.bud = 0 → raises 0x01) ∧
    (k.bud ≠ 0 → fetchOk p k.x n = false → raises 0x02) ∧
    (k.bud ≠ 0 → fetchOk p k.x n = true → legal = false → raises 0x03))) ∧
  (∀ (s t : State) (ch : Ch) (e : Eng) (c : Instr) (n : Nat) (legal : Bool), osrusForm c = some (e, n, legal) → exec c s = .next t →
    s.executing ch = false ∨ (s.ch ch).eng[e].run = none ∨ (s.ch ch).eng[e].stall.isSome = true → t.ch ch = s.ch ch)


/-- R139 to R143, R148: lockstep. Two executing channels in the same state whose delay registers invert the same bits (none, where both are
sound) are in the same state after every Osrus instruction. -/
def Obligations.ChannelsStayInLockstep : Prop :=
  ∀ (s t : State) (c d : Ch) (i : Instr) (f : Eng × Nat × Bool), osrusForm i = some f → exec i s = .next t →
    s.executing c = true → s.executing d = true → s.wrongBits c = s.wrongBits d → s.ch c = s.ch d → t.ch c = t.ch d

/-- A step takes the command at the front of the queue, first in first out, and its outcome is what the command makes of the state with the
queue's rest (the form of a block's step; log 1). -/
def Obligations.StepRunsTheFrontCommand : Prop :=
  ∀ (s : State) (c : Instr) (rest : List Instr), s.pending = c :: rest → step s = exec c { s with pending := rest }

/-- R8, R17, R18: the state right after reset: BOOT with nothing waiting, every field with a Cold value holds it, nothing is loaded, no engine
runs, start-hold asserted; and it has the canonical form that `StepsKeepTheCanonicalForm` keeps (R2, R12: an unlisted register or byte reads 0; the form
is the model's, log 4). -/
def Obligations.ResetIsTheBeginningOfAColdStart : Prop :=
  (let s := State.reset;
    s.pending = [] ∧ s.mstate = .boot ∧ s.role = .none ∧
    (∀ g ∈ regGroups, ∀ i, i < g.cnt → ∀ r ∈ g.rows, ∀ f ∈ r.2, ∀ v, f.cold = some v →
      fieldOf (s.reg (g.base + g.stride * i + r.1)) f.lo f.w = v) ∧
    s.gong.ticking = false ∧ s.bank0 = none ∧ s.bank1 = none ∧ s.forces = [] ∧ s.sup.startHold = true ∧ s.session = none ∧
    (∀ ch, (s.ch ch).insts = [] ∧ ∀ e : Eng, (s.ch ch).eng[e].run = none)) ∧
  Canon State.reset

/-- R2, R12: the register file, the steward's memory and the list of event sources stay in their canonical form (keys strictly rising, no zero listed in the first two) over
every step of every state that has it, so that equal contents are equal data (the form is the model's choice, log 4). -/
def Obligations.StepsKeepTheCanonicalForm : Prop :=
  ∀ s t : State, Canon s → step s = .next t → Canon t

/-- R23, R99, R354: no command stops the module: every command answers a next state, and the commands that wait behind it wait on in their order. -/
def Obligations.EveryCommandCompletesAndKeepsTheQueue : Prop :=
  ∀ (c : Instr) (s : State), ∃ t, exec c s = .next t ∧ t.pending = s.pending

/-- R28 to R31, R39: GONG_TICK. In BOOT the Gong does not tick. The first tick has the number of network time divided by the base period; a tick
adds one to the frame number; the next tick is due at its multiple of the period less the offset still to absorb, which shrinks by at most 2 µs a
frame (log 1 on the rate); the frame after a re-phase is long, and the tick that ends it takes the number of its own instant, sets REPHASE and
counts; where another re-phase follows, the frame it begins is long again (log 20). A frame whose COMMIT has not completed sets LATE and enters
SAFE with cause 6. -/
def Obligations.GongTicksNumberTheFrames : Prop :=
  ∀ s : State,
    let p := s.pNs
    let g := s.gong
    let left : Int := if g.adj < 0 then min 0 (g.adj + 2000) else max 0 (g.adj - 2000)
    let long := ((g.next : Int) + g.adj).toNat / p
    let ticks (f tick next : Nat) (adj : Int) (reph : Nat) : Prop := Does .gongTick s fun t =>
      t.gong = { g with frame := f, tick := tick, next := next, adj := adj, reph := reph, ticking := true } ∧ t.get R.GONG.STATUS.PHASE = 0
    (s.mstate = .boot → Ignored .gongTick s) ∧
    (s.mstate ≠ .boot → g.ticking = false → ticks (s.nowNs / p) (s.nowNs / p * p) ((s.nowNs / p + 1) * p) 0 0) ∧
    (s.mstate ≠ .boot → g.ticking = true → g.reph = 0 →
      ticks (g.frame + 1) g.next ((((g.frame + 2) * p : Nat) : Int) - left).toNat left 0) ∧
    (s.mstate ≠ .boot → g.ticking = true → g.reph = 1 → ticks (g.frame + 1) g.next ((g.next + 2 * p - 1) / p * p) 0 2) ∧
    (s.mstate ≠ .boot → g.ticking = true → g.reph = 2 → ticks long g.next ((((long + 1) * p : Nat) : Int) - left).toNat left 0) ∧
    (s.mstate ≠ .boot → g.ticking = true → g.reph = 3 → Does .gongTick s fun t =>
      t.gong = { g with frame := long, tick := g.next, next := (g.next + 2 * p - 1) / p * p, adj := 0, reph := 2, step := g.step2 }) ∧
    (s.mstate ≠ .boot → g.ticking = true → g.reph = 2 ∨ g.reph = 3 → Does .gongTick s fun t =>
      t.get R.GONG.FLAG.REPHASE = 1 ∧ t.get R.GONG.RPCNT.COUNT = (s.get R.GONG.RPCNT.COUNT + 1) % 2 ^ 32) ∧
    (s.mstate = .run → s.get R.GONG.STATUS.PHASE < 4 →
      Does .gongTick s fun t => t.mstate = .safe ∧ t.get R.GONG.FLAG.LATE = 1 ∧ t.get R.SUP.CAUSE.CODE = 6)

/-- R34, R45, R82 to R84: SEGMENT_START between IN and CUT on an engine that runs nothing: every executing copy that holds the instance begins it
with the budget of the schedule and the segment's number in ST: from the saved context, or at the entry of its task's unit with its bases, ST as Table 4-2 has it (SAFE, CLASS, ENGINE, FIRST
until a commit of this module, log 16, WARM; RM and FX 0), the window's end in g29 and everything else zero; its version stays that of its release.
Of an instance that has ended nothing runs. Other engines, and channels that do not execute, stay as they were. -/
def Obligations.SegmentStartLoadsTheCopies : Prop :=
  ∀ (s : State) (e : Eng) (g : SegEnt) (bank : Bool) (rest : List (SegEnt × Bool)) (p : Program),
    let n := s.seqr.taken[e]
    s.mstate = .run → s.leads = true → s.get R.GONG.STATUS.PHASE = 1 → s.busy e = false →
    (s.segs s.gong.frame e).drop n = (g, bank) :: rest → s.live g.task = true → s.bank bank = some p →
    Does (.segmentStart e) s fun t =>
      t = { s with chA := t.chA, chB := t.chB, chC := t.chC, seqr := { s.seqr with taken := s.seqr.taken.set e (n + 1) } } ∧
      ∀ ch, (s.executing ch = false → t.ch ch = s.ch ch) ∧ (∀ f : Eng, f ≠ e → (t.ch ch).eng[f] = (s.ch ch).eng[f]) ∧
        ∀ i, s.executing ch = true → tblFind (s.ch ch).insts g.task = some i →
          (i.ended = true → (t.ch ch).eng[e] = (s.ch ch).eng[e] ∧ tblFind (t.ch ch).insts g.task = some { i with seg := g.seg, fin := true }) ∧
          (i.ended = false →
            let k := (t.ch ch).eng[e]
            tblFind (t.ch ch).insts g.task = some { i with seg := g.seg } ∧ k.run = some g.task ∧ k.stall = none ∧
            k.bud = BitVec.ofNat 32 g.budget ∧ fieldOf k.x.st 20 8 = g.seg % 256 ∧
            (∀ x, i.ctx = some x → k.x = { x with st := k.x.st } ∧ fieldOf k.x.st 0 20 = fieldOf x.st 0 20 ∧ fieldOf k.x.st 28 4 = fieldOf x.st 28 4) ∧
            (i.ctx = none → fieldOf k.x.st 0 1 = s.get (R.TASK.PER.SAFE i.td.cls.val) ∧ fieldOf k.x.st 1 3 = i.td.cls.val ∧
              fieldOf k.x.st 4 4 = i.td.eng.val ∧ (fieldOf k.x.st 8 1 = 0 ↔ i.td.id ∈ s.seqr.done) ∧ fieldOf k.x.st 9 1 = b2n s.sup.warm ∧
              fieldOf k.x.st 10 10 = 0 ∧ fieldOf k.x.st 28 4 = 0 ∧ k.x.unit = i.td.unit ∧ k.x.sb = i.td.sb ∧ k.x.ib = i.td.ib ∧ k.x.gr 29 = BitVec.ofNat 64 i.td.winHi ∧ k.x.stack = [] ∧
              (∀ r : GReg, r ≠ 29 → k.x.gr r = 0) ∧ (∀ c : CReg, c ≠ 0 → k.x.cr c = false) ∧
              ∀ u, unitOf p i.td.unit = some u → k.x.pc = BitVec.ofNat 32 u.entry))

/-- R35, R47, R48: CUT ends the RUN phase: PHASE is CUT; where the module still runs and does the pair's work, every engine has stopped, and of the instances
scheduled in this frame only those stay whose segment finished or that ended. -/
def Obligations.CutStopsTheEngines : Prop :=
  ∀ s : State, s.mstate = .run → s.get R.GONG.STATUS.PHASE ≤ 1 →
    Does .cut s fun t =>
      t.get R.GONG.STATUS.PHASE = 2 ∧
      (s.works = true → t.mstate = .run →
        (∀ ch, ∀ e : Eng, (t.ch ch).eng[e].run = none ∧ (t.ch ch).eng[e].stall = none) ∧
        ∀ e, ∀ g ∈ s.segs s.gong.frame e, t.executing t.leadCh = true →
          ∀ i, tblFind (t.ch t.leadCh).insts g.1.task = some i → i.fin = true ∨ i.ended = true)

/-- R36, R152, R153, R194, R204, R207, R208, R222: COMMIT after CUT ends the frame (PHASE 4 from then on; a COMMIT with nothing to do shows it too, log 20). `v` is the module after steps 1 and 2, the votes. Where it still runs and does
the pair's work (a module just promoted begins at the first tick of its leadership), the instances that commit are gone with their held stores,
the retain record of this frame is due with the state as this COMMIT leaves it and the guard bits of the frame's tick, and an ACTIVE module awaits
the acknowledgement of the frame's copy. -/
def Obligations.CommitEndsTheFrame : Prop :=
  ∀ s : State, s.mstate = .run → s.get R.GONG.STATUS.PHASE = 2 →
    let v := s.commitVotes
    Does .commit s fun t =>
      t.get R.GONG.STATUS.PHASE = 4 ∧ t.gong = s.gong ∧
      (v.mstate = .run → v.works = true →
        (∃ r, t.ret.due = some r ∧ r.frame = s.gong.frame ∧ r.wallNs = s.gong.tick ∧ r.pver = t.reg R.TASK.PVER.fld.off ∧
          r.proven = (s.guardsAt s.gong.frame).proven ∧ r.guards = (s.guardsAt s.gong.frame).guards ∧
          (t.mstate = .run → r.body = retMap (t.ch t.leadCh))) ∧
        t.pair.lastF = s.gong.frame ∧ t.pair.touched = [] ∧
        (∀ ch, v.executing ch = true → ∀ task ∈ v.committing, tblFind (t.ch ch).insts task = none ∧
          ∀ e : Eng, ∀ x ∈ (t.ch ch).eng[e].cbuf, x.task ≠ task) ∧
        ((∀ p ∈ v.seqr.cycles, p.1 < 8) → v.role = .active → s.gong.frame ∈ t.pair.await))

/-- R191 to R194, R222, R357, R364: RETAIN_RECORD_WRITE seals the record that is due, as its frame's COMMIT left it, in buffer n mod 2 of every area, not in FENCED, and none is due after
it. RETAIN_BUFFER_CUTOFF with Solfatara's operations due, with or without power, seals a record wholly in the buffer and discards a partial one, and writes the
last words with the frame of the record then sealed last and the supply then. -/
def Obligations.RetainRecordsAndLastWordsAreWritten : Prop :=
  ∀ (s : State) (r : RetBuf) (w : LastWords) (placed : Bool) (op1 mv10 : BitVec 16),
    let n := BitVec.ofNat 32 (s.ret.seq + 1)
    let sealed (t : State) : Prop :=
      t.ret.seq = s.ret.seq + 1 ∧ t.ret.due = none ∧
      ∃ b : RetBuf, b = { r with seq := n } ∧
        (n.toNat % 2 = 0 → t.ret.a = { s.ret.a with b0 := some b } ∧ t.ret.b = { s.ret.b with b0 := some b } ∧ t.ret.c = { s.ret.c with b0 := some b }) ∧
        (n.toNat % 2 = 1 → t.ret.a = { s.ret.a with b1 := some b } ∧ t.ret.b = { s.ret.b with b1 := some b } ∧ t.ret.c = { s.ret.c with b1 := some b })
    let words (outcome last : Nat) (t : State) : Prop :=
      t.sup = { s.sup with words := none, supply := mv10.toNat } ∧ t.get R.SUP.SUPPLY.INPUT = mv10.toNat ∧ Recorded s t 0x0F 0xF0 w.code (leBytes 1 w.mstate ++ leBytes 1 w.role ++ leBytes 1 0xF ++
        leBytes 1 outcome ++ leBytes 4 last ++ leBytes 2 op1.toNat ++ leBytes 2 mv10.toNat)
    (s.ret.due = some r → s.mstate = .run → s.role ≠ .fenced → Does .retainRecordWrite s fun t =>
      sealed t ∧ t.getPair R.TASK.RETF_LO.FRAME R.TASK.RETF_HI.FRAME = r.frame % 2 ^ 64 ∧ t.get R.TASK.RETSTAT.VALID = 1 ∧ t = { s with regs := t.regs, ret := t.ret } ∧
      RegsKept s t [R.TASK.RETSTAT.VALID.off, R.TASK.RETF_LO.FRAME.off, R.TASK.RETF_HI.FRAME.off, R.TASK.RETPEAK.BYTES.off]) ∧
    (s.ret.due = none ∨ s.mstate ≠ .run ∨ s.role = .fenced → Ignored .retainRecordWrite s) ∧
    (s.sup.words = none → Ignored (.retainBufferCutoff placed op1 mv10) s) ∧
    (s.sup.words = some w → s.ret.due = none → Answers (.retainBufferCutoff placed op1 mv10) s (words 0 (s.get R.TASK.RETF_LO.FRAME))) ∧
    (s.sup.words = some w → s.ret.due = some r → w.role ≠ 4 →
      Answers (.retainBufferCutoff true op1 mv10) s (fun t => sealed t ∧ words 1 (r.frame % 2 ^ 32) t) ∧
      Answers (.retainBufferCutoff false op1 mv10) s fun t => words 2 (s.get R.TASK.RETF_LO.FRAME) t ∧ t.ret = { s.ret with due := none })

/-- R18, R31, R74, R76, R188 to R190, R197, R199, R339, R368, R393: the stages of a GONG_TICK after BOOT, and the first of them. The force commands accepted take effect: of
those on one signal the last decides, with the number of this frame, and FORCED follows. A life-cycle command takes effect, and with the first tick
after MANUFACTURE or DEPOT is left every force on a signal of SCLASS 1 to 4 is gone. INIT ends where load and restore are complete: RUN, ALIGNED,
the role decided (ALONE asserts PAIR_ACT unless its gates are held, and raises the epoch above every one heard), a trial ended, STAMP of signals
neither restored nor updated, timers moved by the outage but WALL timers of a locked clock, and guard proofs of the last 10 s. -/
def Obligations.TicksTakeCommandsAndBeginRun : Prop :=
  ∀ s : State,
    let e := s.tickEdge
    let b := s.tickBegun
    let f := e.gong.frame
    let ready : Prop := e.mstate = .init ∧ e.boot.program = true ∧ e.boot.role.isSome = true ∧ e.get R.SUP.STATE.STORE = 1 ∧
      e.get R.SUP.STATE.STOPC = 0 ∧ e.lcs ≠ 0 ∧ e.lcs ≠ 4 ∧ (e.get R.BRG.STATUS.HOLD = 0 ∨ e.get R.BRG.STATUS.CFGD = 1)
    (s.mstate ≠ .boot → Does .gongTick s fun t =>
      t = s.tickBegun.frameReset.unitsTick.dropPassed.showHeld.releaseAll.testCheck) ∧
    e = s.tickTriggers.gongAdvance.forceTick.lcTick.silTick ∧
    (∀ id : Nat,
      let t := s.forceTick
      let last := (s.fcmds.filter fun c => match c with
        | .set k _ => k == id
        | .clear k => k == id
        | .clearAll => true).getLast?
      t = { s with fcmds := [], forces := t.forces, chA := t.chA, chB := t.chB, chC := t.chC } ∧
      (last = none → t.forceOf id = s.forceOf id) ∧
      (∀ k v, last = some (.set k v) → t.forceOf id = some ⟨id, BitVec.ofNat 32 s.gong.frame, v⟩) ∧
      (∀ k, last = some (.clear k) ∨ last = some .clearAll → t.forceOf id = none) ∧
      ∀ ch x, s.follows ch = true → tblFind (s.ch ch).dir id = some x →
        ∃ w3, tblFind (t.ch ch).dir id = some { x with w3 := w3 } ∧ fieldOf w3 0 1 = fieldOf x.w3 0 1 ∧ fieldOf w3 2 30 = fieldOf x.w3 2 30 ∧
          (s.fcmds ≠ [] → (t.forceOf id).isSome = true → fieldOf w3 1 1 = 1) ∧
          (t.forceOf id = none → (s.forceOf id).isSome = true → fieldOf w3 1 1 = 0)) ∧
    (let t := s.lcTick.silTick
      let sil (id : Nat) : Prop := ∃ x, s.dirEnt id = some x ∧ 1 ≤ x.sclass ∧ x.sclass ≤ 4
      let left : Prop := s.bist.dropSil = true ∨ (s.bist.lcNew.isSome = true ∧ (s.lcs = 1 ∨ s.lcs = 3))
      (s.bist.lcNew = none → s.bist.dropSil = false → t = s) ∧
      (∀ n, s.bist.lcNew = some n → t.lcs = n % 2 ^ R.BIST.LCS.STATE.w ∧ t.get R.BIST.FLAG.LCCHG = 1 ∧ t.bist.lcNew = none ∧
        t.get R.CFG.EXPERT.UNLK = 0 ∧ t.upd.idKey = (if n = 4 then false else if s.lcs = 0 then true else s.upd.idKey) ∧
        (n = 4 → s.mstate = .init → t.get R.SUP.STATE.STOPC = 4)) ∧
      (left → t.bist.dropSil = false ∧ (∀ id, (sil id → t.forceOf id = none) ∧ (¬ sil id → t.forceOf id = s.forceOf id)) ∧
        ((∃ x ∈ s.forces, sil x.id) → t.get R.SIG.FLAG.FDROP = 1)) ∧
      (¬ left → t.forces = s.forces)) ∧
    (¬ ready → b = e) ∧
    (ready →
      b.mstate = .run ∧ b.get R.GONG.STATUS.ALIGNED = 1 ∧ b.gong = e.gong ∧ b.spd.runNs = e.gong.tick ∧
      (∀ c, e.boot.role = some (.alone, c) → b.role = .alone ∧ b.get R.PAIR.ROLE.PACT = b2n e.gates ∧
        b.get R.PAIR.EPOCH.fld = (max (e.get R.PAIR.EPOCH.fld) e.pair.epochIn + 1) % 2 ^ 32) ∧
      (∀ c, e.boot.role = some (.standby, c) → b.role = .standby ∧ b.get R.PAIR.ROLE.CUR = 0 ∧ b.pair.joining = true ∧
        b.get R.PAIR.ROLE.PACT = e.get R.PAIR.ROLE.PACT) ∧
      (∀ c, c < 4 → e.boot.role = some (.fenced, c) → b.role = .fenced ∧ b.get R.PAIR.ROLE.FCAUSE = c) ∧
      (e.get R.UPD.STATE.TRIAL ≠ 0 → e.boot.slot = some e.actSlot →
        b.get R.UPD.STATE.TRIAL = 0 ∧ b.get R.UPD.STATE.TRIALS = 0 ∧
        ∀ i, e.img e.actSlot = some i →
          (i.hdr.flags.toNat / 2 % 2 = 1 → b.get R.UPD.MINSVN.SVN = i.hdr.svn.toNat ∧ b.get R.UPD.FLAG.SVNUP = 1) ∧
          (i.hdr.flags.toNat / 2 % 2 = 0 → b.get R.UPD.MINSVN.SVN = e.get R.UPD.MINSVN.SVN)) ∧
      (∀ r c, e.boot.role = some (r, c) → r ≠ .standby → ∀ ch, e.follows ch = true →
        let rec? := e.restoredRec
        let wallOk (r : RetBuf) : Prop := r.tlock = true ∧ e.get R.TIME.STATUS.SYNC = 1 ∧ r.frame < f
        (∀ id x, tblFind (e.ch ch).dir id = some x →
          let new : Prop := fieldOf x.w3 5 1 = 1 ∧ ¬ (e.boot.fRec.isSome = true ∧ x.ret = true)
          (new → ∃ w3, tblFind (b.ch ch).dir id = some { x with w3 := w3 } ∧ fieldOf w3 8 24 = f % 2 ^ 24 ∧ fieldOf w3 0 6 = fieldOf x.w3 0 6) ∧
          (¬ new → tblFind (b.ch ch).dir id = some x)) ∧
        (∀ k v, tblFind (e.ch ch).slots k = some v →
          let timer : Prop := v.ret = true ∧ 1 ≤ v.kind ∧ v.kind ≤ 3
          (rec? = none ∨ ¬ timer → tblFind (b.ch ch).slots k = some v) ∧
          ∀ r, rec? = some r → timer →
            (v.wall = true → wallOk r → tblFind (b.ch ch).slots k = some v) ∧
            (v.wall = false ∨ ¬ wallOk r → r.frame ≤ f + v.l.toNat →
              tblFind (b.ch ch).slots k = some { v with l := BitVec.ofInt 64 ((f : Int) + v.l.toNat - r.frame) })) ∧
        ∀ i, i < 16 → (b.bit R.SIO.ISTATE.PROVEN i = true ↔ e.bit R.SIO.ISTATE.PROVEN i = true ∨
          ∃ r, rec? = some r ∧ r.tlock = true ∧ e.get R.TIME.STATUS.SYNC = 1 ∧ e.gong.tick < r.wallNs + 10000000000 ∧
            e.get (R.SIO.ICFG.GUARD i) = 1 ∧ e.get (R.SIO.ICFG.RGUARD i) = 1 ∧ r.proven.getLsbD i = true ∧ e.inFaults i = [])))

/-- R30, R40, R43, R44, R62, R69, R72, R75, R144, Table 3-6: what the tick of frame F does to tasks. Segments taken and discards count anew. An instance or cycle of which F
is no frame after its release frame is dropped, with its held stores (only a re-phase leads there; log 20). TASK.HELD shows the enabled classes with a network task
while the module is UNADDRESSED. In RUN, leading, every enabled class with (F − PHASE) mod 2^EXP = 0 releases its tasks that are not held back: a new cycle,
and in every executing channel a new instance with a snapshot of the read set: forced value, or value and quality after the freshness check (HOME 4 from
the exchange area). Tasks of a class that is not due stay as they are. -/
def Obligations.TicksReleaseTheClasses : Prop :=
  ∀ s : State,
    let f := s.gong.frame
    let within (fr k : Nat) : Prop := fr < f ∧ f < fr + 2 ^ s.get (R.TASK.PER.EXP k)
    let due (k : Nat) : Prop := s.get (R.TASK.PER.EN k) = 1 ∧ ((f : Int) - s.get (R.TASK.PER.PHASE k)) % 2 ^ s.get (R.TASK.PER.EXP k) = 0
    let goes (k : Nat) (td : TaskDesc) : Prop :=
      ∃ p, s.progOf k = some p ∧ td ∈ p.tasks ∧ td.cls.val = k ∧ ¬ (td.net = true ∧ s.get R.ID.ASTAT.ADDR = 0)
    (let t := s.frameReset;
      (∀ e : Eng, t.seqr.taken[e] = 0) ∧ t.seqr.discs = [] ∧ t.seqr.fault = [] ∧ t.brg.inBytes = 0 ∧ t.pair.home5 = 0 ∧
      ∀ ch, (∀ id i, tblFind (s.ch ch).insts id = some i → tblFind (t.ch ch).insts id = some { i with fin := false }) ∧
        ∀ e : Eng, (t.ch ch).eng[e] = { (s.ch ch).eng[e] with wseq := 0 }) ∧
    (let t := s.dropPassed;
      (∀ p, p ∈ t.seqr.cycles ↔ p ∈ s.seqr.cycles ∧ within p.2.fr p.1) ∧
      ∀ ch, (t.ch ch).dir = (s.ch ch).dir ∧ (t.ch ch).slots = (s.ch ch).slots ∧
        (∀ p, p ∈ (t.ch ch).insts ↔ p ∈ (s.ch ch).insts ∧ within p.2.fr p.2.td.cls.val) ∧
        ∀ (e : Eng) x, x ∈ (t.ch ch).eng[e].cbuf ↔
          x ∈ (s.ch ch).eng[e].cbuf ∧ ∀ p ∈ (s.ch ch).insts, p.1 = x.task → within p.2.fr p.2.td.cls.val) ∧
    (∀ k, k < 8 → (s.showHeld.bit R.TASK.HELD.CLASS k = true ↔
      s.get (R.TASK.PER.EN k) = 1 ∧ s.get R.ID.ASTAT.ADDR = 0 ∧ ∃ p, s.progOf k = some p ∧ ∃ td ∈ p.tasks, td.cls.val = k ∧ td.net = true)) ∧
    (s.mstate ≠ .run ∨ s.leads = false → s.releaseAll = s) ∧
    (s.mstate = .run → s.leads = true →
      let t := s.releaseAll
      t = { s with
        regs := t.regs, chA := t.chA, chB := t.chB, chC := t.chC, seqr := { s.seqr with cycles := t.seqr.cycles }
        vote := { s.vote with capture := t.vote.capture, dregB := t.vote.dregB, dregC := t.vote.dregC } } ∧
      RegsKept s t [R.SIG.STALECNT.COUNT.off, R.SIG.FLAG.STALE.off] ∧
      (∀ k, k < 8 →
        (¬ due k ∨ (∀ td, ¬ goes k td) → tblFind t.seqr.cycles k = tblFind s.seqr.cycles k) ∧
        (due k → (∃ td, goes k td) → ∃ c, tblFind t.seqr.cycles k = some c ∧ c.fr = f ∧ c.skipped = false ∧
          ∀ id, id ∈ c.left ↔ ∃ td, goes k td ∧ td.id = id)) ∧
      ∀ ch,
        (s.executing ch = false → (t.ch ch).insts = (s.ch ch).insts) ∧
        (∀ id, (∀ k td, k < 8 → due k → goes k td → td.id ≠ id) → tblFind (t.ch ch).insts id = tblFind (s.ch ch).insts id) ∧
        ∀ k td p, s.executing ch = true → k < 8 → due k → s.progOf k = some p → goes k td →
          (∀ k' td', k' < 8 → due k' → goes k' td' → td'.id = td.id → k' = k ∧ td' = td) →
          ∃ i, tblFind (t.ch ch).insts td.id = some i ∧ i.td = td ∧ i.bank = s.bankOf k ∧ i.fr = f ∧ i.seg = 0 ∧ i.wset = [] ∧ i.slots = [] ∧
            i.ctx = none ∧ i.scratch = [] ∧ i.ended = false ∧ i.fin = false ∧
            ∀ id ∈ p.reads.getD k [], ∀ x, tblFind (s.ch ch).dir id = some x →
              let age := (f + 2 ^ 24 - x.stamp) % 2 ^ 24 * s.pNs
              let old : Prop := x.type ≠ 0 ∧ x.fresh ≠ 0 ∧ min (x.fresh * x.funit) (2 ^ 20 * s.pNs) < age
              (∀ v, s.forceOf id = some v →
                tblFind i.snap id = some ⟨BitVec.ofNat 6 (if x.sclass = 0 then 3 else 19), leBytes x.size v.val.toNat⟩) ∧
              (s.forceOf id = none → ∃ y, tblFind i.snap id = some y ∧ (x.home ≠ 4 → y.val = x.val) ∧
                (x.home = 4 → s.wrongBits ch = 0 → y.val = memBytes s.smem (0x180000000 + x.w1.toNat) x.size) ∧
                (¬ old → y.q = x.qual) ∧
                (old → y.q.getLsbD 3 = true ∧ y.q.getLsbD 0 = false ∧ y.q.getLsbD 4 = false)))

/-- R33, R158, R159, R162, R175, R177, R219 to R221, R331, R332, Tables 9-3, 9-9: the units at a tick edge. A due change of address takes effect. An armed exchange is checked again and is
ARMED from this frame A, each class with its first release frame after A. A channel out of the vote begins its resync (or is excluded for good at
a fourth attempt in an hour), enters probation two ticks after its copy, holding the lead's committed state, and is readmitted a tick later. Levels
are shown, a guard that is sampled off without a fault is proven (one in MODE 0 is not, log 33), a pair off without a fault is released from its pair
fault, and every HOME 2 signal is updated with its item as each channel receives it. -/
def Obligations.TicksActInTheUnits : Prop :=
  ∀ s : State,
    let f := s.gong.frame
    (let t := s.addrTick;
      (s.net.addrNext = none → s.get R.ID.ASTAT.ADDR = 0 ∨ s.net.rebind = false → t = s) ∧
      (s.net.addrNext = some true → s.ucause ≠ 0 → t = s) ∧
      (s.net.addrNext = some true → s.ucause = 0 → t.get R.ID.ASTAT.ADDR = 1 ∧ t.get R.NET.STATUS.ADDR = 1 ∧ t.get R.ID.ASTAT.UCAUSE = 0 ∧
        t.net.addrNext = none) ∧
      (s.net.addrNext = some false → t.get R.ID.ASTAT.ADDR = 0 ∧ t.get R.NET.STATUS.ADDR = 0 ∧ t.get R.ID.UNITKEY.KEY = 0 ∧ t.net.addrNext = none ∧
        t.boot.probed = false)) ∧
    (let t := s.armTick;
      (s.xch.arm = false → t = s) ∧
      (s.xch.arm = true → t.xch.arm = false) ∧
      (s.xch.arm = true → s.xstate ≠ 2 → t = { s with xch := { s.xch with arm := false } }) ∧
      ∀ a b, s.xch.arm = true → s.xstate = 2 → s.prog = some a → s.shadow = some b →
        (firstReason s.armSteps ≠ 0 → t = { s with regs := t.regs, xch := { s.xch with arm := false } } ∧
          FieldsSet s t [(R.TASK.XREASON.CODE, firstReason s.armSteps)]) ∧
        (firstReason s.armSteps = 0 →
          t = { s with regs := t.regs, xch := t.xch } ∧ t.xstate = 4 ∧ t.get R.TASK.XSTAT.SWMASK = 0 ∧
          t.get R.TASK.XSEQ.SEQ = (s.get R.TASK.XSEQ.SEQ + 1) % 2 ^ 32 ∧ t.getPair R.TASK.XARMF_LO.FRAME R.TASK.XARMF_HI.FRAME = f % 2 ^ 64 ∧
          ∀ k : Fin 8,
            (t.bit R.TASK.XSTAT.XMASK k.val = true ↔ k.val ∈ exchClasses a b) ∧
            (k.val ∉ exchClasses a b → t.xch.swf[k] = 0) ∧
            (k.val ∈ exchClasses a b → f < t.xch.swf[k] ∧ t.xch.swf[k] ≤ f + 2 ^ perExp a k.val ∧
              ((t.xch.swf[k] : Int) - perPhase a k.val) % 2 ^ perExp a k.val = 0))) ∧
    (∀ ch : Ch,
      let t := s.resyncTick ch
      let now := s.nowNs
      let recent := (s.chRec ch).attempts.filter fun x => decide (now < x + 3600000000000)
      (s.chst ch = 0 ∨ s.chst ch = 4 → t = s) ∧
      (s.chst ch = 1 → 3 ≤ recent.length → t.chst ch = 4 ∧ t.get (R.VOTE.CAUSE.PERM (chNum ch)) = 1 ∧ t.get R.VOTE.FLAG.PERM = 1) ∧
      (s.chst ch = 1 → recent.length < 3 → t.chst ch = 2 ∧ t.ch ch = Chan.reset ∧ t.get R.VOTE.RSPROG.MIB = 0 ∧
        (t.chRec ch).attempts = now :: recent ∧ (t.chRec ch).bulkK = none) ∧
      ∀ k, (s.chRec ch).bulkK = some k →
        (s.chst ch = 2 → f < k + 2 → t = s) ∧
        (s.chst ch = 3 → f < k + 3 → t = s) ∧
        (s.chst ch = 2 → k + 2 ≤ f → t.chst ch = 3 ∧ t.get R.VOTE.MODE.PROBCH = chNum ch + 1 ∧
          (t.ch ch).dir = (s.ch s.leadCh).dir ∧ (t.ch ch).slots = (s.ch s.leadCh).slots ∧ (t.ch ch).insts = (s.ch s.leadCh).insts ∧
          ∀ e : Eng, (t.ch ch).eng[e] = Chan.reset.eng[e]) ∧
        (s.chst ch = 3 → k + 3 ≤ f → t.chst ch = 0 ∧ t.included ch = true ∧ t.get R.VOTE.MODE.VMODE = 0 ∧ t.get R.VOTE.MODE.PROBCH = 0 ∧
          t.get R.VOTE.FLAG.READMIT = 1 ∧ t.get R.VOTE.MODE.LEAD = chNum t.leadCh ∧ t.ch ch = s.ch ch)) ∧
    (let t := s.sioTick;
      let proven (i : Nat) : Bool := s.bit R.SIO.ISTATE.PROVEN i ||
        (s.get (R.SIO.ICFG.GUARD i) = 1 && s.inMode i != 0 && !s.inLevel i && !s.inFault i)
      let off (k : Nat) : Bool := !s.inFault (2 * k) && !s.inFault (2 * k + 1) && !s.inLevel (2 * k) &&
        (s.inLevel (2 * k + 1) == decide (s.pairMode k = 2))
      let pairFault (k : Nat) : Bool := s.bit R.SIO.IFAULT.PAIR k && !off k
      -- value and quality of the items of Table 9-3
      let input (i : Nat) : Bool × Bool :=
        if s.inMode i = 0 ∨ s.inFault i = true then (false, false)
        else (s.inLevel i && (s.get (R.SIO.ICFG.GUARD i) != 1 || proven i), true)
      let pair (k : Nat) : Bool × Bool :=
        if s.pairMode k = 0 ∨ pairFault k = true ∨ s.inFault (2 * k) = true ∨ s.inFault (2 * k + 1) = true then (false, false)
        else ((input (2 * k)).1 && ((input (2 * k + 1)).1 == decide (s.pairMode k = 1)), true)
      let item (h : Nat) : Option (Bool × Bool) :=
        if h < 0x10 then some (input h) else if h < 0x18 then some (pair (h - 0x10))
        else if 0x20 ≤ h ∧ h < 0x30 then some (proven (h - 0x20), true)
        else if 0x30 ≤ h ∧ h < 0x38 then some (s.bit R.SIO.OSTATE.ACT (h - 0x30), true)
        else if 0x38 ≤ h ∧ h < 0x40 then some (s.outFaulty (Fin.ofNat 8 (h - 0x38)), true) else none
      (∀ i, i < 16 → t.bit R.SIO.ISTATE.LEVEL i = s.inLevel i ∧ t.bit R.SIO.ISTATE.PROVEN i = proven i) ∧
      (∀ k, k < 8 → t.bit R.SIO.IFAULT.PAIR k = pairFault k) ∧
      ∀ id x, tblFind (s.ch s.leadCh).dir id = some x → (∀ p ∈ (s.ch s.leadCh).dir, p.1 = id → p.2 = x) → x.type ≠ 0 → x.home = 2 →
        ∀ ch y, s.follows ch = true → tblFind (s.ch ch).dir id = some y →
          (item x.href = none → tblFind (t.ch ch).dir id = some y) ∧
          ∀ v good, item x.href = some (v, good) →
            ∃ w3, tblFind (t.ch ch).dir id = some { y with w3 := w3, val := s.receivedBytes ch (leBytes x.size (b2n v)) } ∧
              fieldOf w3 8 24 = f % 2 ^ 24 ∧ fieldOf w3 0 1 = b2n good ∧ fieldOf w3 1 1 = fieldOf y.w3 1 1 ∧ fieldOf w3 2 1 = b2n (!good) ∧
              fieldOf w3 3 1 = 0 ∧ fieldOf w3 4 1 = b2n (good && y.sclass != 0) ∧ fieldOf w3 5 1 = 0)

/-- R234, R235, R237, Tables 9-8, 9-9: the speed function at a tick edge of the instant T. A sensor's bounds follow from its last two counted edges and the
time since (π is taken from above for upper and from below for lower bounds, and nothing bounds a speed from above at the instant of an edge: log 27).
While the speed is unknown VHI is all ones and VLO, DIR and STILL are 0. Standstill is proven when every sensor in use has been without an edge for STILLT and t_c;
VHI is then the largest v_ss. Else VHI is the largest upper bound rounded up, VLO the least lower bound rounded down, and DIR what the last 8 counted edges of every
sensor in use show. BELOW(k) is set below LIMIT − HYST and holds up to LIMIT. R236: the sensors are discrepant where v_lo of one lies above v_hi of the other by more than the
tolerances (unrounded: log 27). Every HOME 3 signal, of at most 4 bytes as Table 9-9 has them, is updated with its item as each channel receives it (R238). -/
def Obligations.TicksBoundTheSpeed : Prop :=
  ∀ s : State,
    let t := s.spdTick
    let now := s.gong.tick
    let a : Rat := s.amax
    let last (n : Fin 2) : Nat := (s.sen n).edges.head?.getD s.spd.runNs
    let te (n : Fin 2) : Nat := now - last n
    let slow (n : Fin 2) : Prop := 2 * s.pMax n ≤ secs (te n) * secs (te n) * a
    let ne (n : Fin 2) : Rat := if secs (te n) * secs (te n) * a < 2 * s.pMax n then s.pMax n / secs (te n) + a * secs (te n) / 2 else s.vss n
    let still : Prop := s.spdMode ≠ 3 ∧ ∀ n ∈ s.inUse, s.stillNs ≤ te n ∧ slow n
    let shows (b : Bool) : Prop := s.inUse ≠ [] ∧ ∀ n ∈ s.inUse, (s.sen n).dirs = List.replicate 8 b
    let plrel := s.get R.SPD.PLAUS.PLREL
    let beyond (lo hi : Rat) : Prop := hi * (1 + ((if plrel ≤ 50 then plrel else 10 : Nat) : Rat) / 100) + s.get R.SPD.PLAUS.PLABS < lo
    -- value and quality of the items of Table 9-9
    let known := decide (s.spdMode ≠ 3)
    let dir := t.get R.SPD.STATUS.DIR
    let item (h : Nat) : Option (Nat × Bool) :=
      if h = 0 then some (t.get R.SPD.VHI.MMS, known) else if h = 1 then some (t.get R.SPD.VLO.MMS, known)
      else if h = 2 then some (t.get R.SPD.STATUS.STILL, known) else if h = 3 then some (if dir = 3 then 255 else dir, known)
      else if h = 4 then some (b2n (!known), true) else if h = 5 then some (b2n (s.spdMode = 1 ∨ s.spdMode = 2), true)
      else if h = 6 then some (s.sslimSec - s.get R.SPD.SSUSED.SEC, true)
      else if 0x10 ≤ h ∧ h < 0x18 then some (b2n (t.spd.below.contains (h - 0x10)), known) else none
    (∀ n, 2 * a * s.pMax n ≤ (s.vss n : Rat) * s.vss n ∧ ∀ m : Nat, m < s.vss n → (m : Rat) * m < 2 * a * s.pMax n) ∧
    (∀ n, last n < now →
      ((s.sen n).edges.length < 2 → s.bounds n now = (some (ne n), 0)) ∧
      ∀ e1 e0 rest, (s.sen n).edges = e1 :: e0 :: rest → e0 < e1 →
        let slack : Rat := a * secs (e1 - e0 + te n)
        s.bounds n now = (some (min (ne n) (s.pMax n / secs (e1 - e0) + slack)), max 0 (s.pMin n / secs (e1 - e0) - slack))) ∧
    (t.get R.SPD.STATUS.STILL = 1 ↔ still) ∧ t.spdMode = s.spdMode ∧
    (s.spdMode = 3 → t.get R.SPD.VHI.MMS = 2 ^ 32 - 1 ∧ t.get R.SPD.VLO.MMS = 0 ∧ t.get R.SPD.STATUS.DIR = 0 ∧ t.spd.below = []) ∧
    (still → t.get R.SPD.VHI.MMS = ((s.inUse.map s.vss).foldl max 0) % 2 ^ 32 ∧ t.get R.SPD.VLO.MMS = 0 ∧ t.get R.SPD.STATUS.DIR = 0) ∧
    (∀ n, s.inUse = [n] → ¬ still → ∀ hi lo, s.bounds n now = (some hi, lo) →
      t.get R.SPD.VHI.MMS = min hi.ceil.toNat (2 ^ 32 - 1) ∧ t.get R.SPD.VLO.MMS = lo.floor.toNat % 2 ^ 32) ∧
    ((∃ n ∈ s.inUse, (s.bounds n now).1 = none) → ¬ still → t.get R.SPD.VHI.MMS = 2 ^ 32 - 1) ∧
    (s.spdMode ≠ 3 → ¬ still → (dir = 1 ↔ shows true) ∧ (dir = 3 ↔ shows false) ∧ (¬ shows true → ¬ shows false → dir = 0)) ∧
    (s.spdDiscrepant now = true ↔ (∃ hi, (s.bounds 1 now).1 = some hi ∧ beyond (s.bounds 0 now).2 hi) ∨
      ∃ hi, (s.bounds 0 now).1 = some hi ∧ beyond (s.bounds 1 now).2 hi) ∧
    (s.spdMode = 0 → ¬ still → ∀ hi0 lo0 hi1 lo1, s.bounds 0 now = (some hi0, lo0) → s.bounds 1 now = (some hi1, lo1) →
      t.get R.SPD.VHI.MMS = min (max hi0.ceil.toNat hi1.ceil.toNat) (2 ^ 32 - 1) ∧ t.get R.SPD.VLO.MMS = min lo0.floor.toNat lo1.floor.toNat % 2 ^ 32) ∧
    (∀ k, k < 8 → s.spdMode ≠ 3 →
      let limit := s.get (R.SPD.THR.LIMIT k)
      let hyst := s.get (R.SPD.THR.HYST k)
      let vhi := t.get R.SPD.VHI.MMS
      hyst ≤ limit → (k ∈ t.spd.below ↔ limit ≠ 0 ∧ vhi ≤ limit ∧ (vhi + hyst ≤ limit ∨ k ∈ s.spd.below))) ∧
    ∀ id x, tblFind (s.ch s.leadCh).dir id = some x → (∀ p ∈ (s.ch s.leadCh).dir, p.1 = id → p.2 = x) → x.type ≠ 0 → x.home = 3 → x.size ≤ 4 →
      ∀ ch y, s.follows ch = true → tblFind (s.ch ch).dir id = some y →
        (item x.href = none → tblFind (t.ch ch).dir id = some y) ∧
        ∀ v good, item x.href = some (v, good) →
          ∃ w3, tblFind (t.ch ch).dir id = some { y with w3 := w3, val := s.receivedBytes ch (leBytes x.size v) } ∧
            fieldOf w3 8 24 = s.gong.frame % 2 ^ 24 ∧ fieldOf w3 0 1 = b2n good ∧ fieldOf w3 1 1 = fieldOf y.w3 1 1 ∧ fieldOf w3 2 1 = b2n (!good) ∧
            fieldOf w3 3 1 = 0 ∧ fieldOf w3 4 1 = b2n (good && y.sclass != 0) ∧ fieldOf w3 5 1 = 0

/-- R36, R59, R64, R65, R149, R152, R153, R155, R225, R250, R252, Table 3-6: the stages of a COMMIT that works, and what they write. The windows that wait
are voted, then the digests and the trailers; VOTE.DIGEST shows the state digest. Held stores that were voted leave in their windows' order, CE0 first, those
of one window in program order, each window's from the lowest-lettered included channel that agreed and still holds it (log 21); then no held
store of a committed instance is left, nor any in a channel that is out. The write sets of the committing instances reach directory and slots of every channel that
follows, the last writer in R65 order deciding: value, STAMP of this frame, VALID, SAFE for a safety signal of a safety class, FORCED kept. An output's demand is
its signal's value where this is VALID and SAFE, and the telegrams due at the next tick are captured. -/
def Obligations.CommitsWriteAndRelease : Prop :=
  ∀ s : State,
    let f := s.gong.frame
    let next := s.gong.nextFrame s.pNs
    (s.mstate = .run → s.get R.GONG.STATUS.PHASE = 2 → s.commitVotes.mstate = .run → s.commitVotes.works = true →
      Does .commit s fun t => t = s.commitVotes.commitWork.set R.GONG.STATUS.PHASE 4) ∧
    (let ts := s.committing
      let insts := ts.filterMap fun k => tblFind (s.ch s.leadCh).insts k
      let s1 := (((s.releaseEntries ts).clearEntries ts).applyWrites ts).execDemands
      let s2 := (((s1.countSkips.endCycles ts).exchCommit next).capture next).retDue f s.gong.tick
      let s3 := if s2.role = .active then s2.sendCopy (s.ch s.leadCh) insts else s2
      let s4 := { s3 with pair := { s3.pair with lastF := f, touched := [] } }.returnClaims
      s.commitWork = s4.endTriggers (s4.limitHits s1.newSkips) s.seqr.fault) ∧
    (let u := s.voteAll s.vote.groups.length
      let w := u.captureView u.committing (u.gong.nextFrame u.pNs)
      let of (ch : Ch) : Option Close := if u.executing ch = true then some (w.commitSig (u.gong.nextFrame u.pNs) ch) else none
      let v := u.voteGroup ⟨9, of .a, of .b, of .c⟩
      (u.mstate ≠ .run → s.commitVotes = u) ∧ (u.mstate = .run → v.mstate ≠ .run → s.commitVotes = v) ∧
      (u.mstate = .run → v.mstate = .run → s.commitVotes = { v with regs := s.commitVotes.regs } ∧
        ∀ k, k < 8 → s.commitVotes.get (R.VOTE.DIGEST.WORD k) = (w.stateDigest (w.ch v.leadCh)).toNat / 2 ^ (32 * k) % 2 ^ 32)) ∧
    (∀ ts : List Nat,
      s.releaseEntries ts = (List.finRange 8).foldl (fun t e => (s.released e ts).foldl (fun t x => t.release e x) t) s ∧
      (∀ (e : Eng) x ch,
        let can (d : Ch) : Prop := s.included d = true ∧ x.agree / 2 ^ chNum d % 2 = 1 ∧
          ∃ y ∈ (s.ch d).eng[e].cbuf, y.voted = true ∧ y.task = x.task ∧ y.frame = x.frame ∧ y.win = x.win
        s.releaseCh e x = some ch ↔ can ch ∧ ∀ d, chNum d < chNum ch → ¬ can d) ∧
      (∀ e : Eng,
        let l := s.released e ts
        l.Pairwise (fun x y => x.frame < y.frame ∨ (x.frame = y.frame ∧ x.win ≤ y.win)) ∧
        (∀ x, x ∈ l ↔ x.voted = true ∧ x.task ∈ ts ∧ ∃ ch, s.releaseCh e x = some ch ∧ x ∈ (s.ch ch).eng[e].cbuf) ∧
        ∀ ch fr win, (∀ d, d ≠ ch → ∀ x ∈ (s.ch d).eng[e].cbuf, x.frame = fr → x.win = win → s.releaseCh e x ≠ some d) →
          (l.filter fun x => x.frame = fr && x.win = win) = (s.ch ch).eng[e].cbuf.filter fun x =>
            x.frame = fr && x.win = win && x.voted && ts.contains x.task && s.releaseCh e x = some ch) ∧
      (∀ ch (e : Eng) x, x ∈ ((s.clearEntries ts).ch ch).eng[e].cbuf ↔
        s.included ch = true ∧ x ∈ (s.ch ch).eng[e].cbuf ∧ x.task ∉ ts) ∧
      ∀ ch, s.follows ch = true →
        let u := (s.applyWrites ts).ch ch
        let src := if s.executing ch then (s.ch ch).insts else (s.ch s.leadCh).insts
        let found := ts.filterMap fun k => tblFind src k
        (∀ i ∈ found, (i.wset.map (·.1)).Nodup ∧ (i.slots.map (·.1)).Nodup) →
        (∀ id x, tblFind (s.ch ch).dir id = some x →
          let ws := found.filterMap fun i => (tblFind i.wset id).map fun v => (i, v)
          (ws = [] → tblFind u.dir id = some x) ∧
          ∀ i v, ws.getLast? = some (i, v) → ∃ w3, tblFind u.dir id = some { x with w3 := w3, val := v } ∧ fieldOf w3 8 24 = f % 2 ^ 24 ∧
            fieldOf w3 0 1 = 1 ∧ fieldOf w3 1 1 = fieldOf x.w3 1 1 ∧ fieldOf w3 2 2 = 0 ∧ fieldOf w3 5 1 = 0 ∧
            fieldOf w3 4 1 = b2n (s.get (R.TASK.PER.SAFE i.td.cls.val) = 1 && x.sclass != 0)) ∧
        (∀ k,
          let vs := found.filterMap fun i => tblFind i.slots k
          (vs = [] → tblFind u.slots k = tblFind (s.ch ch).slots k) ∧ ∀ v, vs.getLast? = some v → tblFind u.slots k = some v) ∧
        (s.executing ch = true → ∀ p, p ∈ u.insts ↔ p ∈ (s.ch ch).insts ∧ p.1 ∉ ts)) ∧
    (∀ o, o < 8 → ((s.execDemands).bit R.SIO.OSTATE.DEM o = true ↔
      let id := s.get (R.SIO.OSRC.SIGID o)
      id ≠ 0 ∧ s.mstate = .run ∧ s.works = true ∧ ∃ x, tblFind (s.ch s.leadCh).dir id = some x ∧ x.type ≠ 0 ∧
        leNat (seen s.forces id x).val % 2 = 1 ∧ (seen s.forces id x).q.getLsbD 0 = true ∧ (seen s.forces id x).q.getLsbD 4 = true)) ∧
    (let t := s.capture next;
      (s.leads = false ∨ s.mstate ≠ .run → t = s) ∧
      (s.leads = true → s.mstate = .run → (s.net.pub.map (·.1)).Nodup →
        let ps := s.net.pub.filter fun p => pubDue p.2 next
        ∃ l, t.net.caps = s.net.caps ++ l ∧ l.map (·.idx) = ps.map (·.1) ∧
          (∀ x ∈ l, x.frame = next ∧ x.due = none ∧ x.data = s.dataset x.idx) ∧
          ∀ p ∈ ps, (t.pubS p.1).ssc = (s.pubS p.1).ssc + (if entBit p.2 30 then 1 else 0)))

/-- R50 to R52, R99, R177 to R182, R185, R290: what a COMMIT counts and switches. Each class with a first discard in its cycle counts one skip, and
LASTSKIP takes the discard of the lowest class and there of the lowest engine; a cycle with nothing left to commit is complete: counted, and its run of skips zero,
unless it was skipped. While an exchange is ARMED or SWITCHING every class whose first frame the next tick reaches switches to the new
version: matched slots keep their contents, others begin cold, and absent ones are free; before the first switch the signals of the new version are entered or keep
their contents under its attributes; with every class switched at S_max the new version is the active one. Claims of tasks without an instance are returned. A
safety class at its skip limit is trigger 7, a FAULT of a safety class trigger 8, of the lowest class (log 21). -/
def Obligations.CommitsCountAndSwitch : Prop :=
  ∀ s : State,
    (let t := s.countSkips;
      let first (d : Discard) : Prop := ∃ c, tblFind s.seqr.cycles d.cls = some c ∧ c.skipped = false
      (∀ k, k < 8 →
        let new : Prop := ∃ d ∈ s.seqr.discs, d.cls = k ∧ first d
        (new → t.get (R.TASK.SKIPRUN.RUN k) = min (s.get (R.TASK.SKIPRUN.RUN k) + 1) 15 ∧
          t.get (R.TASK.SKIPTOT.COUNT k) = min (s.get (R.TASK.SKIPTOT.COUNT k) + 1) (2 ^ 32 - 1) ∧ t.bit R.TASK.SKIPFLG.CLASS k = true ∧
          ∃ c, tblFind t.seqr.cycles k = some c ∧ c.skipped = true) ∧
        (¬ new → t.get (R.TASK.SKIPRUN.RUN k) = s.get (R.TASK.SKIPRUN.RUN k) ∧ t.get (R.TASK.SKIPTOT.COUNT k) = s.get (R.TASK.SKIPTOT.COUNT k) ∧
          tblFind t.seqr.cycles k = tblFind s.seqr.cycles k)) ∧
      ((∃ d ∈ s.seqr.discs, first d) → ∃ d ∈ s.seqr.discs,
        (∀ x ∈ s.seqr.discs, d.cls < x.cls ∨ (d.cls = x.cls ∧ d.eng ≤ x.eng)) ∧ t.get R.TASK.LASTSKIP.CLASS = d.cls % 8 ∧
        t.get R.TASK.LASTSKIP.ENGINE = d.eng % 8 ∧ t.get R.TASK.LASTSKIP.CAUSE = d.cause % 4 ∧
        t.getPair R.TASK.LASTSKIPF_LO.FRAME R.TASK.LASTSKIPF_HI.FRAME = s.gong.frame % 2 ^ 64)) ∧
    (∀ ts : List Nat, (s.seqr.cycles.map (·.1)).Nodup → (∀ p ∈ s.seqr.cycles, p.1 < 8) →
      let t := s.endCycles ts
      (∀ k, k ∈ t.seqr.done ↔ k ∈ s.seqr.done ∨ k ∈ ts) ∧
      ∀ k c, tblFind s.seqr.cycles k = some c →
        let left := c.left.filter fun x => !ts.contains x
        (left ≠ [] → tblFind t.seqr.cycles k = some { c with left := left }) ∧
        (left = [] → tblFind t.seqr.cycles k = none) ∧
        (left = [] → c.skipped = false → t.get (R.TASK.SKIPRUN.RUN k) = 0 ∧ t.get (R.TASK.CYC.COUNT k) = (s.get (R.TASK.CYC.COUNT k) + 1) % 2 ^ 32) ∧
        (left ≠ [] ∨ c.skipped = true →
          t.get (R.TASK.SKIPRUN.RUN k) = s.get (R.TASK.SKIPRUN.RUN k) ∧ t.get (R.TASK.CYC.COUNT k) = s.get (R.TASK.CYC.COUNT k))) ∧
    (∀ next : Nat,
      let t := s.exchCommit next
      (s.xstate ≠ 4 → s.xstate ≠ 5 → t = s) ∧
      ∀ a b, s.prog = some a → s.shadow = some b → s.xstate = 4 ∨ s.xstate = 5 →
        let due (k : Nat) : Prop := s.xch.swf.toList.getD k 0 ≠ 0 ∧ s.bit R.TASK.XSTAT.SWMASK k = false ∧ s.xch.swf.toList.getD k 0 ≤ next
        let after (k : Nat) : Prop := s.bit R.TASK.XSTAT.SWMASK k = true ∨ due k
        let done : Prop := (∀ f ∈ s.xch.swf.toList, f ≤ s.gong.frame) ∧ ∀ k, k < 8 → (s.bit R.TASK.XSTAT.XMASK k = true ↔ after k)
        (∀ k, k < 8 → (t.bit R.TASK.XSTAT.SWMASK k = true ↔ after k)) ∧
        (done → t.xstate = 6 ∧ t.act = !s.act ∧ t.get R.TASK.PVER.fld = b.pver.toNat ∧ t.get R.TASK.XPVER.PVER = a.pver.toNat) ∧
        (¬ done → t.act = s.act ∧ ((∃ k, k < 8 ∧ due k) → t.xstate = 5) ∧ ((∀ k, k < 8 → ¬ due k) → t.xstate = s.xstate) ∧
          ∀ k, k < 8 → (after k → t.bankOf k = !s.act) ∧ (¬ after k → t.bankOf k = s.act)) ∧
        (¬ done → s.get R.TASK.XSTAT.SWMASK = 0 → s.sMin ≤ next → (b.sigs.map (·.id)).Nodup →
          ∀ ch, s.follows ch = true → (s.ch ch).rx (!s.act) = 0 → ∀ d ∈ b.sigs,
            (∀ x, tblFind (s.ch ch).dir d.id = some x → x.type ≠ 0 →
              tblFind (t.ch ch).dir d.id = some { x with w0 := d.w0, w1 := d.w1, w2 := d.w2 }) ∧
            ((∀ x, tblFind (s.ch ch).dir d.id = some x → x.type = 0) → ∃ x, tblFind (t.ch ch).dir d.id = some x ∧ x.w0 = d.w0 ∧ x.w1 = d.w1 ∧
              x.w2 = d.w2 ∧ x.stamp = s.gong.frame % 2 ^ 24 ∧ fieldOf x.w3 0 6 = 0x20 ∧ x.val = bytesAt d.init 0 x.size))) ∧
    (∀ a b k, s.prog = some a → s.shadow = some b → k < 8 →
      let t := s.switchClass a b k
      (∀ td, td ∈ a.tasks ∨ td ∈ b.tasks → td.cls.val = k → td.id ∉ t.seqr.done) ∧
      ∀ ch, s.follows ch = true → (s.ch ch).rx s.act = 0 → (s.ch ch).rx (!s.act) = 0 → (b.slots.map (·.idx)).Nodup →
        (∀ d ∈ b.slots, slotCls d = k →
          let matched (v : Slot) : Prop := v.kind ≠ 0 ∧ v.inst = d.inst ∧ v.owner = k ∧ v.kind = slotKind d
          let keyed : Prop := 4 ≤ slotKind d ∧ ∃ o ∈ a.slots, o.idx = d.idx ∧ o.inputKey ≠ d.inputKey
          (∀ v, tblFind (s.ch ch).slots d.idx = some v → matched v → ∃ y, tblFind (t.ch ch).slots d.idx = some y ∧
            y.inst = v.inst ∧ y.e = v.e ∧ y.l = v.l ∧ y.p = v.p ∧ y.q = v.q ∧ y.m = v.m ∧ y.run = v.run ∧ y.kind = v.kind ∧ y.owner = v.owner ∧
            fieldOf y.w0 26 2 = fieldOf d.w0 26 2 ∧ (y.adopt = true ↔ v.adopt = true ∨ keyed)) ∧
          ((∀ v, tblFind (s.ch ch).slots d.idx = some v → ¬ matched v) → ∃ y, tblFind (t.ch ch).slots d.idx = some y ∧
            y.inst = d.inst ∧ y.e = 0 ∧ y.l = 0 ∧ y.p = 0 ∧ y.q = false ∧ y.m = false ∧ y.run = false ∧ y.adopt = false ∧ y.kind = slotKind d ∧ y.owner = k)) ∧
        ∀ i v, tblFind (s.ch ch).slots i = some v → (∀ d ∈ b.slots, slotCls d = k → d.idx ≠ i) →
          (v.owner = k → v.kind ≠ 0 → ∃ y, tblFind (t.ch ch).slots i = some y ∧ y.kind = 0) ∧
          (v.owner ≠ k → tblFind (t.ch ch).slots i = some v)) ∧
    (∀ p ∈ s.returnClaims.evs, p.2.ph = .claimed → ∀ k, p.2.task = some k → ∃ i, tblFind (s.ch s.leadCh).insts k = some i) ∧
    (∀ l k, k ∈ s.limitHits l ↔ k < 8 ∧ (∃ d ∈ l, d.cls = k) ∧ s.get (R.TASK.PER.SAFE k) = 1 ∧
      s.get (R.TASK.PER.SKIPLIM k) ≤ s.get (R.TASK.SKIPRUN.RUN k)) ∧
    (∀ k hits, k < 8 → (∀ h ∈ hits, h < 8) → Armed s →
      EntersSafe s (s.endTriggers (k :: hits) []) 7 k ∧ ∀ h ∈ k :: hits, (s.endTriggers (k :: hits) []).bit R.TASK.LIMHIT.CLASS h = true) ∧
    (∀ k faults, k < 8 → Armed s → ∃ m ∈ k :: faults, (∀ x ∈ k :: faults, m ≤ x) ∧ EntersSafe s (s.endTriggers [] (k :: faults)) 8 m) ∧
    s.endTriggers [] [] = s

/-- R147 to R149, R157, R160, R166, R353: a vote over the oldest group that waits, with no channel in probation. Of three included channels: all alike
agree; one that differs from two alike, or is absent, is excluded, with its cause; a single copy that closes is excluded with cause 1 while the window of the
others stays open, counted nowhere; no two alike is trigger 1. Two included channels that differ, or of which one is absent, are trigger 2.
Voters that report different results, in outcome, minority or release channel, are trigger 3, and a voter's fault stays. The exception of a close that stands is recorded. With no group waiting nothing happens. -/
def Obligations.VotesDecideByMajority : Prop :=
  ∀ (s : State) (g : VGroup) (gs : List VGroup) (x y z : Ch) (p q r : Close) (v1 v2 : VoterSays),
    let vote := Instr.vote none none
    let stood (c : Close) (t : State) : Prop :=
      (g.path ≠ 8 → t.getPair R.VOTE.WINCNT_LO.COUNT R.VOTE.WINCNT_HI.COUNT = (s.getPair R.VOTE.WINCNT_LO.COUNT R.VOTE.WINCNT_HI.COUNT + 1) % 2 ^ 64) ∧
      ∀ e, c.exc = some e → Recorded s t 0x04 0x02 e.code
        (leBytes 1 e.cls ++ leBytes 1 e.eng ++ leBytes 1 e.seg ++ leBytes 4 e.pc.toNat ++ leBytes 5 e.info)
    (s.vote.groups = [] → Ignored vote s) ∧
    (s.vote.groups = g :: gs → (∀ ch, s.chst ch ≠ 3) → s.vote.v1 = none → s.vote.v2 = none →
      (s.incl = [.a, .b, .c] → g.of .a = some p → g.of .b = some q → g.of .c = some r → p.sig = q.sig → q.sig = r.sig →
        Does vote s fun t => stood p t ∧ t.incl = [.a, .b, .c] ∧ t.vote.groups = gs) ∧
      (s.incl = [.a, .b, .c] → x ≠ y → y ≠ z → x ≠ z → g.of x = some p → g.of y = some q → p.sig = q.sig →
        (∀ r, g.of z = some r → r.sig ≠ p.sig) →
        Does vote s fun t =>
          t.included x = true ∧ t.included y = true ∧ t.included z = false ∧ t.get R.VOTE.FLAG.EXCL = 1 ∧ (t.chst z = 1 ∨ t.chst z = 4) ∧
          t.get (R.VOTE.CAUSE.fld (chNum z)) = (if g.path = 8 then 3 else if g.path = 9 then 4 else if (g.of z).isNone then 2 else 1) ∧
          (∀ e : Eng, (t.ch z).eng[e].run = none ∧ (t.ch z).eng[e].cbuf = [])) ∧
      (s.incl = [.a, .b, .c] → x ≠ y → y ≠ z → x ≠ z → g.of x = none → g.of y = none → g.of z = some r → g.path < 8 →
        Does vote s fun t =>
          t.included x = true ∧ t.included y = true ∧ t.included z = false ∧ t.get R.VOTE.FLAG.EXCL = 1 ∧
          t.get (R.VOTE.CAUSE.fld (chNum z)) = 1 ∧ t.ch x = s.ch x ∧ t.ch y = s.ch y ∧ t.vote.groups = gs ∧
          (∀ e : Eng, (t.ch z).eng[e].run = none ∧ (t.ch z).eng[e].win = none ∧ (t.ch z).eng[e].cbuf = []) ∧
          t.getPair R.VOTE.WINCNT_LO.COUNT R.VOTE.WINCNT_HI.COUNT = s.getPair R.VOTE.WINCNT_LO.COUNT R.VOTE.WINCNT_HI.COUNT) ∧
      (s.incl = [.a, .b, .c] → g.of .a = some p → g.of .b = some q → g.of .c = some r → p.sig ≠ q.sig → p.sig ≠ r.sig → q.sig ≠ r.sig → Armed s →
        Does vote s fun t => EntersSafe s t 1 (g.path % 256)) ∧
      (s.incl = [x, y] → g.of x = some p → g.of y = some q → p.sig = q.sig →
        Does vote s fun t => stood p t ∧ t.incl = [x, y] ∧ t.vote.groups = gs) ∧
      (s.incl = [x, y] → g.of x = some p → g.of y = some q → p.sig ≠ q.sig → Armed s →
        Does vote s fun t => EntersSafe s t 2 (g.path % 256)) ∧
      (s.incl = [x, y] → (g.of x).isSome ≠ (g.of y).isSome → Armed s → Does vote s fun t => EntersSafe s t 2 (g.path % 256))) ∧
    (s.vote.groups = g :: gs → v1 ≠ v2 → Armed s →
      Does (.vote (some v1) (some v2)) s fun t =>
        EntersSafe s t 3 0 ∧ t.get R.VOTE.FLAG.XCHK = 1 ∧ t.vote.v1 = some v1 ∧ t.vote.v2 = some v2)

/-- R139, R143, R146, R158, R159, R163 to R165, R167, R168: the other events of the vote unit: WINDOW_TIMEOUT closes the open windows of an engine with reason 3;
a stage in use of a following channel's delay register excludes it with cause 5, fails a probation with cause 6 and no stage, or is trigger 2 where two are left; a capture register is trigger 4; REFLOSS; a bulk copy gives
the channel what its donor holds; DEGWARN at 90 % of the 2oo2 limit and trigger 9 at the limit; the injection test ends STARTTEST or is trigger 5. That a
parity fault in probation shows DREG 0 with its cause 6, and that a register that takes no part lets the injection pattern pass, are the model's reading (log 22). -/
def Obligations.VoteUnitEventsActAsTheirRules : Prop :=
  ∀ (s : State) (e : Eng) (ch : Ch) (stage : BitVec 4) (f : TestFaults) (r : Req),
    let used := stage.toNat < s.stagesOf ch
    let lim := s.get R.VOTE.DEGCFG.LIMH
    let limit := (if 1 ≤ lim ∧ lim ≤ 720 then lim else 72) * 3600
    let takes (d : Ch) : Prop := s.included d = true ∧ d ≠ s.leadCh
    let degrading : Prop := s.mstate = .run ∧ s.get R.VOTE.MODE.VMODE = 2
    (Does (.windowTimeout e) s fun t => OnlyEngine s t e ∧
      ∀ ch, s.executing ch = true →
        (t.ch ch).eng[e].win = none ∧ (t.ch ch).eng[e].x = regsOf s ch e ∧ (t.ch ch).eng[e].run = (s.ch ch).eng[e].run ∧
        (t.ch ch).eng[e].cbuf = (s.ch ch).eng[e].cbuf ∧ (t.ch ch).insts = (s.ch ch).insts ∧
        ((s.ch ch).eng[e].win.isSome = true → ∃ g ∈ t.vote.groups, g.path = e.val ∧ ∃ c, g.of ch = some c ∧ c.reason = 3 ∧ c.exc = none)) ∧
    (ch = s.leadCh ∨ s.executing ch = false ∨ ¬ used → Ignored (.delayParityError ch stage) s) ∧
    (used → ch ≠ s.leadCh → s.included ch = true → s.incl.length = 3 → Does (.delayParityError ch stage) s fun t =>
      t.included ch = false ∧ t.get R.VOTE.FLAG.DELAYPAR = 1 ∧ t.get R.VOTE.FLAG.EXCL = 1 ∧
      t.get (R.VOTE.CAUSE.fld (chNum ch)) = 5 ∧ t.get (R.VOTE.CAUSE.DREG (chNum ch)) = stage.toNat) ∧
    (used → ch ≠ s.leadCh → s.included ch = true → s.incl.length ≤ 2 → Armed s → Does (.delayParityError ch stage) s fun t =>
      EntersSafe s t 2 10 ∧ t.get R.VOTE.FLAG.DELAYPAR = 1) ∧
    (used → ch ≠ s.leadCh → s.included ch = false → s.chst ch = 3 → Does (.delayParityError ch stage) s fun t =>
      t.included ch = false ∧ t.get R.VOTE.FLAG.DELAYPAR = 1 ∧ t.get R.VOTE.FLAG.PROBFAIL = 1 ∧ t.get R.VOTE.MODE.PROBCH = 0 ∧
      t.get (R.VOTE.CAUSE.fld (chNum ch)) = 6 ∧ t.get (R.VOTE.CAUSE.DREG (chNum ch)) = 0) ∧
    (Armed s → Does .captureParityError s fun t => EntersSafe s t 4 0) ∧
    Sets (.referenceLoss ch) s [(R.VOTE.FLAG.REFLOSS, 1)] ∧
    (s.chst ch = 2 → (s.chRec ch).bulkK = none → Does (.resyncBulkCopyDone ch) s fun t =>
      (t.ch ch).dir = (s.ch s.leadCh).dir ∧ (t.ch ch).slots = (s.ch s.leadCh).slots ∧ (t.ch ch).insts = (s.ch s.leadCh).insts ∧
      (t.ch ch).eng = (s.ch ch).eng ∧ (∀ d, d ≠ ch → t.ch d = s.ch d) ∧ (t.chRec ch).bulkK = some s.gong.frame ∧
      FieldsSet s t [(R.VOTE.RSPROG.MIB, s.get R.VOTE.RSVOL.MIB)]) ∧
    (degrading → 9 * limit ≤ 10 * s.get R.VOTE.DEGTIME.SEC → Sets .degtimeWarning s [(R.VOTE.FLAG.DEGWARN, 1)]) ∧
    (degrading → limit ≤ s.get R.VOTE.DEGTIME.SEC → Does .degtimeLimit s fun t => EntersSafe s t 9 0) ∧
    (¬ degrading → Ignored .degtimeWarning s ∧ Ignored .degtimeLimit s) ∧
    (s.steward r = true → s.depot = true → s.mstate = .safe ∨ s.mstate = .recovery → Does (.clearperm r) s fun t =>
      t = { s with regs := t.regs, vote := { s.vote with clearPerm := true } } ∧
      FieldsSet s t [(R.VOTE.CMD.CODE, 1), (R.VOTE.CMDCNT.COUNT, s.get R.VOTE.CMDCNT.COUNT + 1)]) ∧
    (s.steward r = false ∨ s.depot = false ∨ (s.mstate ≠ .safe ∧ s.mstate ≠ .recovery) → Ignored (.clearperm r) s) ∧
    (s.mstate = .starttest → (∀ n, n < 11 → s.patternPasses f n = true) → Does (.injectionTest f) s fun t =>
      t.mstate = .init ∧ t.get R.VOTE.STTEST.DONE = 1 ∧ t.get R.VOTE.STTEST.PASS = 1 ∧ t.get R.VOTE.STTEST.PAT = 0x7FF) ∧
    (∀ n, s.mstate = .starttest → n < 11 → s.patternPasses f n = false → (∀ m, m < n → s.patternPasses f m = true) →
      Does (.injectionTest f) s fun t => EntersSafe s t 5 n ∧ t.get R.VOTE.STTEST.DONE = 1 ∧ t.get R.VOTE.STTEST.PASS = 0) ∧
    (s.vote.v1 = none → s.vote.v2 = none → (∀ d, takes d → s.wrongBits d = 0) →
      (∀ n, n < 11 → s.patternPasses ⟨[], [], []⟩ n = true) ∧
        (∀ d, d ≠ .a → s.patternPasses ⟨[d], [], []⟩ 0 = !decide (takes d)) ∧
        s.patternPasses ⟨[], [(16, ⟨0, 0, 0⟩)], []⟩ 1 = false) ∧
    (∀ d, s.vote.v1 = none → s.vote.v2 = none → takes d → s.wrongBits d ≠ 0 → s.patternPasses ⟨[], [], []⟩ 0 = false) ∧
    (s.mstate ≠ .starttest → Ignored (.injectionTest f) s)

/-- R18, R350, R353 to R359, R365: a trigger line of Table 16-2. The first decides SUP.CAUSE and enters SAFE; one that comes in SAFE or RECOVERY writes its
record and changes nothing else (of RECOVERY that is the model's reading, log 25). Under start-hold the triggers that Tocsin raises or reads, and that of its liveness
line, do not come (R349, Table 18-1); the watchdog and the store trip in RUN only, the external request where it is enabled, STW SAFE in STARTTEST, INIT and RUN. -/
def Obligations.TriggersEnterSafeOnce : Prop :=
  ∀ (s : State) (code : Fin 18) (detail : Byte),
    let c := Instr.safeStateTrigger code detail
    let recorded (t : State) : Prop := Recorded s t 0x03 0x0F code.val
      (leBytes 1 detail.toNat ++ leBytes 1 (s.get R.SUP.STATE.MSTATE) ++ leBytes 1 (s.get R.PAIR.ROLE.fld))
    let held : Prop := (s.sup.startHold = true ∧ code.val ∈ [10, 11, 12, 13, 15, 17]) ∨ (s.mstate ≠ .run ∧ code.val ∈ [10, 14]) ∨
      (s.get R.SUP.CFG.EXTEN = 0 ∧ code.val = 15) ∨ (s.mstate ∉ [.starttest, .init, .run] ∧ code.val = 16)
    (code.val ≠ 0 → ¬ held → Armed s → Does c s fun t => EntersSafe s t code.val detail.toNat ∧ recorded t) ∧
    (code.val ≠ 0 → ¬ held → ¬ Armed s → Does c s fun t =>
      t = { s with regs := t.regs, fum := t.fum, fumPos := t.fumPos } ∧ FieldsSet s t [(R.SUP.FUMSEQ.SEQ, s.get R.SUP.FUMSEQ.SEQ + 1)] ∧ recorded t) ∧
    (code.val = 0 ∨ held → Ignored c s)

/-- R349 to R352, R358, R359, Table 16-1: what Tocsin and Solfatara watch. With start-hold withdrawn a rail outside its band (in mV, the input in 10 mV;
log 25) is trigger 11 and a temperature above its limit (in 0.1 °C) trigger 12; a warning sets TEMPW; a value inside its band does nothing; CLKDEV shows the channel clocks and two of them off by more than 1,000 ppm are trigger 13, as Tocsin's own oscillator is; Tocsin's silence is 17. Until
then Tocsin trips nothing. A low store in RUN is 14; an external request, where enabled, 15. The watchdog's window in RUN: every included channel's token there
clears the miss counts; one of three missing sets WDMISS, LAST and the count; two of three missing, any of two, or the eighth miss in a row of one channel is
trigger 10 with the mask of those that missed. R355: what comes in SAFE sets its flag and its values and writes its record, and does not change SUP.CAUSE. -/
def Obligations.MonitorsTripTheSafeState : Prop :=
  (∀ (s : State) (no : Fin 12) (v : BitVec 16) (board : Bool) (da db dc : Nat) (tsx : BitVec 2),
      let on : Prop := s.sup.powered = true ∧ s.sup.startHold = false
      let mv := v.toNat
      let outside : Prop := match no.val with
        | 0 => 3000 < mv
        | 1 | 2 | 3 | 7 => mv < 760 ∨ 840 < mv
        | 4 | 5 | 6 => mv < 1000 ∨ 1100 < mv
        | 8 => mv < 1660 ∨ 1940 < mv
        | 9 => mv < 3040 ∨ 3560 < mv
        | 10 => 1250 < v.toInt
        | _ => 1000 < v.toInt
      let warm : Prop := (if board then 900 else 1100) < v.toInt
      let far (d : Nat) : Nat := if 1000 < d then 1 else 0
      -- in SAFE: flags and values, a record, and nothing else
      let later (c : Instr) (code detail : Nat) (l : List (Fld × Nat)) : Prop := s.mstate = .safe → Does c s fun t =>
        t = { s with regs := t.regs, fum := t.fum, fumPos := t.fumPos, sup := { s.sup with supply := t.sup.supply } } ∧
        FieldsSet s t (l ++ [(R.SUP.FUMSEQ.SEQ, s.get R.SUP.FUMSEQ.SEQ + 1)]) ∧
        Recorded s t 0x03 0x0F code (leBytes 1 detail ++ leBytes 1 (s.get R.SUP.STATE.MSTATE) ++ leBytes 1 (s.get R.PAIR.ROLE.fld))
      let shown := [(R.SUP.CLKDEV.CH 0, min 1023 (da / 10)), (R.SUP.CLKDEV.CH 1, min 1023 (db / 10)), (R.SUP.CLKDEV.CH 2, min 1023 (dc / 10))]
      (on → Armed s → outside → no.val < 10 → Does (.tocsinMonitorTrigger no v) s fun t =>
        EntersSafe s t 11 no.val ∧ t.get R.SUP.FLAG.RAIL = 1 ∧ (no = 0 → t.get R.SUP.SUPPLY.INPUT = v.toNat)) ∧
      (on → Armed s → outside → no = 10 → Does (.tocsinMonitorTrigger no v) s fun t => EntersSafe s t 12 10 ∧ t.get R.SUP.TEMP.DIE = v.toNat) ∧
      (on → Armed s → outside → no = 11 → Does (.tocsinMonitorTrigger no v) s fun t => EntersSafe s t 12 11 ∧ t.get R.SUP.TEMP.BOARD = v.toNat) ∧
      (¬ outside → Ignored (.tocsinMonitorTrigger no v) s) ∧
      (¬ warm → Ignored (.tocsinWarning board v) s) ∧
      (on → warm → Sets (.tocsinWarning board v) s [(if board then R.SUP.TEMP.BOARD else R.SUP.TEMP.DIE, v.toNat), (R.SUP.FLAG.TEMPW, 1)]) ∧
      (on → far da + far db + far dc = 0 → Sets (.clockCheckWindow da db dc) s shown) ∧
      (on → far da + far db + far dc = 1 → Sets (.clockCheckWindow da db dc) s (shown ++ [(R.SUP.FLAG.CLKDEV, 1)])) ∧
      (on → Armed s → 2 ≤ far da + far db + far dc → Does (.clockCheckWindow da db dc) s fun t =>
        EntersSafe s t 13 (far da + 2 * far db + 4 * far dc) ∧ t.get R.SUP.FLAG.CLKDEV = 1) ∧
      (on → outside → no.val < 10 → later (.tocsinMonitorTrigger no v) 11 no.val
        ((R.SUP.FLAG.RAIL, 1) :: if no = 0 then [(R.SUP.SUPPLY.INPUT, v.toNat)] else [])) ∧
      (on → outside → no = 10 → later (.tocsinMonitorTrigger no v) 12 10 [(R.SUP.TEMP.DIE, v.toNat)]) ∧
      (on → outside → no = 11 → later (.tocsinMonitorTrigger no v) 12 11 [(R.SUP.TEMP.BOARD, v.toNat)]) ∧
      (on → 2 ≤ far da + far db + far dc → later (.clockCheckWindow da db dc) 13 (far da + 2 * far db + 4 * far dc) (shown ++ [(R.SUP.FLAG.CLKDEV, 1)])) ∧
      (on → later .tocsinOscDeviation 13 8 []) ∧ (on → later .tocsinLivenessLost 17 0 []) ∧
      (s.get R.SUP.CFG.EXTEN = 1 → tsx ≠ 0 → on → later (.externalRequest tsx) 15 tsx.toNat [(R.SUP.FLAG.EXTREQ, 1)]) ∧
      (on → Armed s → Does .tocsinOscDeviation s fun t => EntersSafe s t 13 8) ∧
      (on → Armed s → Does .tocsinLivenessLost s fun t => EntersSafe s t 17 0) ∧
      (¬ on → Ignored (.tocsinMonitorTrigger no v) s ∧ Ignored (.tocsinWarning board v) s ∧ Ignored (.clockCheckWindow da db dc) s ∧
        Ignored .tocsinOscDeviation s ∧ Ignored .tocsinLivenessLost s ∧ Ignored (.externalRequest tsx) s) ∧
      (s.mstate = .run → Does (.solfataraStoreLow v) s fun t =>
        EntersSafe s t 14 0 ∧ t.get R.SUP.SUPPLY.STORE = v.toNat ∧ t.get R.SUP.FLAG.STORELOW = 1) ∧
      (s.mstate ≠ .run → Ignored (.solfataraStoreLow v) s) ∧
      (s.get R.SUP.CFG.EXTEN = 1 → tsx ≠ 0 → on → Armed s → Does (.externalRequest tsx) s fun t =>
        EntersSafe s t 15 tsx.toNat ∧ t.get R.SUP.FLAG.EXTREQ = 1) ∧
      (s.get R.SUP.CFG.EXTEN = 0 → Ignored (.externalRequest tsx) s)) ∧
  (∀ (s : State) (missed : BitVec 3) (ch x y : Ch),
      let c := Instr.watchdogWindowClose missed
      let m (ch : Ch) : Bool := missed.getLsbD (chNum ch) || decide (s.sup.tokens / 2 ^ chNum ch % 2 = 0)
      let only (ch : Ch) : Prop := ∀ d, m d = decide (d = ch)
      let before (ch : Ch) : Nat := s.sup.misses.toList.getD (chNum ch) 0
      (s.mstate ≠ .run → Ignored c s) ∧
      (s.mstate = .run → (∀ ch, s.included ch = true → m ch = false) → Does c s fun t =>
        t = { s with sup := { s.sup with misses := Vector.replicate 3 0, tokens := 0 } }) ∧
      (s.mstate = .run → s.incl = [.a, .b, .c] → only ch → before ch < 7 → Does c s fun t =>
        t = { s with regs := t.regs, sup := { s.sup with misses := t.sup.misses, tokens := 0 } } ∧
        t.sup.misses.toList.getD (chNum ch) 0 = before ch + 1 ∧ (∀ d, d ≠ ch → t.sup.misses.toList.getD (chNum d) 0 = 0) ∧
        FieldsSet s t [(R.SUP.WDOG.LAST, 2 ^ chNum ch), (R.SUP.WDOG.MISSES, min (s.get R.SUP.WDOG.MISSES + 1) 65535), (R.SUP.FLAG.WDMISS, 1)]) ∧
      (s.mstate = .run → s.incl = [.a, .b, .c] → only ch → 7 ≤ before ch → Does c s fun t => EntersSafe s t 10 (2 ^ chNum ch)) ∧
      (s.mstate = .run → s.incl = [.a, .b, .c] → x ≠ y → m x = true → m y = true → Does c s fun t =>
        EntersSafe s t 10 (b2n (m .a) + 2 * b2n (m .b) + 4 * b2n (m .c))) ∧
      (s.mstate = .run → s.incl = [x, y] → m x = true ∨ m y = true → Does c s fun t =>
        EntersSafe s t 10 (2 ^ chNum x * b2n (m x) + 2 ^ chNum y * b2n (m y))))

/-- R15, R22, R23, R72 to R74, Table 3-9: force commands are judged against the table as the commands accepted before will leave it, and an accepted one
waits for the next tick. SET: undefined signal 2, byte string 3, table full 4, safety class outside DEPOT and MANUFACTURE 5. CLEAR: not forced 6. All: neither INIT nor RUN 7.
R59, R69, R143, R144, R196, R260, R342, Table 3-2: the sweep makes a signal whose age exceeds its limit STALE, VALID and SAFE cleared, STAMP and value
kept, and counts it. The steward's write of a HOME 5 signal is an update: value (of a BOOL bit 0 only) as each channel receives it, STAMP of the
present frame, VALID, not STALE, INIT or SUBST; it counts against the rate of R196, above which it is not taken (log 33), and is kept for R342
where the signal is BATSIG. -/
def Obligations.ForcesSweepsAndStewardWritesAct : Prop :=
  (∀ (s : State) (r : Req),
      let id := s.get R.SIG.FSIG.SIGID
      let v := BitVec.ofNat 64 (s.get R.SIG.FVAL_LO.VAL + 2 ^ 32 * s.get R.SIG.FVAL_HI.VAL)
      let there := (s.dirEnt id).filter fun e => e.type != 0
      let t := s.forcesAfter
      let forced := t.any fun f => f.id = id
      let late := s.mstate != .init && s.mstate != .run
      let judged (c : Instr) (code why : Nat) (f : ForceCmd) : Prop :=
        Judged c s r R.SIG.FCMD.CODE R.SIG.FCMDCNT.COUNT R.SIG.FREASON.CODE code why [] fun s => { s with fcmds := s.fcmds ++ [f] }
      (judged (.forceClear r) 2 (firstReason [(6, !forced), (7, late)]) (.clear id)) ∧
      (judged (.forceClearall r) 3 (firstReason [(7, late)]) .clearAll) ∧
      (there = none → s.steward r = true → Sets (.forceSet r) s [(R.SIG.FREASON.CODE, 2)]) ∧
      ∀ e, there = some e → judged (.forceSet r) 1
        (firstReason [(3, e.isBytes), (4, !forced && decide (1024 ≤ t.length)), (5, 1 ≤ e.sclass && e.sclass ≤ 4 && !s.depot), (7, late)]) (.set id v)) ∧
  (∀ (s : State) (id : Nat) (e : DirEnt) (value : List Byte),
      let limit (e : DirEnt) := min (e.fresh * e.funit) (2 ^ 20 * s.pNs)
      let age (e : DirEnt) := (s.gong.frame + 2 ^ 24 - e.stamp) % 2 ^ 24 * s.pNs
      let old (e : DirEnt) : Prop := e.type ≠ 0 ∧ e.fresh ≠ 0 ∧ limit e < age e
      let stored : List Byte := if e.type = 1 then [BitVec.ofNat 8 (leNat (bytesAt value 0 1) % 2)] else bytesAt value 0 e.size
      let within : Prop := 1000 * (s.pair.home5 + e.size) ≤ 16384 * s.pUs
      let others (t : State) : Prop := ∀ ch, ∀ k, k ≠ id → tblFind (t.ch ch).dir k = tblFind (s.ch ch).dir k
      s.dirEnt id = some e →
      (s.get R.GONG.STATUS.ALIGNED = 1 → old e → Does (.directorySweep id) s fun t =>
        t = { s with regs := t.regs, chA := t.chA, chB := t.chB, chC := t.chC } ∧ others t ∧
        (fieldOf e.w3 3 1 = 0 → FieldsSet s t [(R.SIG.STALECNT.COUNT, min (s.get R.SIG.STALECNT.COUNT + 1) (2 ^ 32 - 1)), (R.SIG.FLAG.STALE, 1)]) ∧
        (fieldOf e.w3 3 1 = 1 → t.regs = s.regs) ∧
        ∀ ch x, s.follows ch = true → tblFind (s.ch ch).dir id = some x → old x →
          ∃ w3, tblFind (t.ch ch).dir id = some { x with w3 := w3 } ∧ fieldOf w3 8 24 = x.stamp ∧ fieldOf w3 3 1 = 1 ∧ fieldOf w3 0 1 = 0 ∧
            fieldOf w3 4 1 = 0 ∧ fieldOf w3 1 2 = fieldOf x.w3 1 2 ∧ fieldOf w3 5 1 = fieldOf x.w3 5 1) ∧
      (s.get R.GONG.STATUS.ALIGNED = 0 → Ignored (.directorySweep id) s) ∧
      (e.type ≠ 0 → e.home = 5 → within → Does (.stewardSignalWrite id value) s fun t =>
        t = { s with
          chA := t.chA, chB := t.chB, chC := t.chC, upd := { s.upd with bat := t.upd.bat }
          pair := { s.pair with touched := t.pair.touched, home5 := s.pair.home5 + e.size } } ∧ others t ∧ id ∈ t.pair.touched ∧
        (id ≠ 0 → s.get R.UPD.CFG.BATSIG = id → t.upd.bat = some (decide (leNat stored % 2 = 1), true)) ∧
        (s.get R.UPD.CFG.BATSIG ≠ id → t.upd.bat = s.upd.bat) ∧
        ∀ ch x, s.follows ch = true → tblFind (s.ch ch).dir id = some x →
          (s.wrongBits ch = 0 → s.receivedBytes ch stored = stored) ∧
          ∃ w3, tblFind (t.ch ch).dir id = some { x with w3 := w3, val := s.receivedBytes ch stored } ∧ fieldOf w3 8 24 = s.gong.frame % 2 ^ 24 ∧
            fieldOf w3 0 1 = 1 ∧ fieldOf w3 1 1 = fieldOf x.w3 1 1 ∧ fieldOf w3 2 4 = 0) ∧
      (e.type = 0 ∨ e.home ≠ 5 ∨ ¬ within → Ignored (.stewardSignalWrite id value) s))

/-- R170, R172 to R176, R185, R186: the exchange of a program version. STAGE from IDLE, FAILED or DONE with a READY package of KIND 2 begins the fill;
the fill ends with the version in the shadow bank, as each channel's loader received it, its items folded into the input signatures, in READY, or in FAILED with the
lowest code of Table 7-1 whose condition is broken: TASK.PER, SCHEDID, word 0 and HREF of a signal of both versions, a slot's place, a scratch window, the volume of the
changes, R171 (which windows, what counts as the volume, and that segments count as descriptors: logs 23 and 33). ARM, in READY and where the conditions of R175 hold on
standstill, SCLASS 4 forces and the partner's shadow, waits for the next tick; CANCEL discards the shadow bank. PERSIST, in RUN, ends
SWITCHED in DONE with a report, and where the slot record was written the slot is active. -/
def Obligations.ExchangeStepsFollowTheirStates : Prop :=
  ∀ (s : State) (r : Req) (written : Bool) (a b : Program),
    let x := s.get R.TASK.XSTAT.STATE
    let mib := match s.stagedProgram with
      | some p => p.sizeMiB
      | none => 0
    let fill := firstReason (compatSteps a b s.pUs)
    let arm := firstReason s.armSteps
    let cls (p : Program) (k : Nat) := p.tasks.filter fun t => t.cls.val = k
    let slots (p : Program) (k : Nat) := p.slots.filter fun d => fieldOf d.w0 23 3 = k
    let sched (p : Program) (k : Nat) := p.segs.filter fun g => (cls p k).any fun t => t.id = g.task
    let differs (k : Nat) : Prop := k < 8 ∧ (classCode a k ≠ classCode b k ∨ cls a k ≠ cls b k ∨ sched a k ≠ sched b k ∨
      a.reads.getD k [] ≠ b.reads.getD k [] ∨ a.writes.getD k [] ≠ b.writes.getD k [] ∨ slots a k ≠ slots b k)
    -- the conditions of R175, broken
    let moving : Prop := (∃ k, differs k ∧ s.get (R.TASK.PER.SAFE k) = 1) ∧ s.get R.SPD.STATUS.STILL = 0 ∧ s.get R.BIST.LCS.STATE ≠ 3
    let forced : Prop := s.get R.TASK.EXCH.FORCEOK = 0 ∧ ∃ f ∈ s.forces, ∃ e, s.dirEnt f.id = some e ∧ e.sclass = 4
    let apart : Prop := s.pair.hbLive = true ∧ ∃ h, s.pair.hb = some h ∧ h.role = .standby ∧
      (h.flags.toNat / 8 % 2 = 0 ∨ h.xpver.toNat ≠ s.get R.TASK.XPVER.PVER)
    -- conditions 3 to 9 of Table 7-1, broken
    let broken : Nat → Prop
      | 3 => ∃ k, k < 8 ∧ a.per.getD k 0 ≠ b.per.getD k 0
      | 4 => a.schedId ≠ b.schedId
      | 5 => ∃ d ∈ b.sigs, ∃ e, sigOf a d.id = some e ∧
          ((∃ i, i < 32 ∧ i ≠ 20 ∧ i ≠ 21 ∧ e.w0.getLsbD i ≠ d.w0.getLsbD i) ∨ fieldOf e.w2 18 14 ≠ fieldOf d.w2 18 14)
      | 6 => ∃ d ∈ b.slots, ∃ x ∈ a.slots, x.inst = d.inst ∧ fieldOf x.w0 23 3 = fieldOf d.w0 23 3 ∧ fieldOf x.w0 28 4 = fieldOf d.w0 28 4 ∧ x.idx ≠ d.idx
      | 7 => ∃ k, differs k ∧ ∃ t ∈ b.tasks, t.cls.val = k ∧ ∃ u ∈ a.tasks, u.cls.val ≠ k ∧ t.winLo < u.winHi ∧ u.winLo < t.winHi
      | 8 => 2097152 * s.pUs < (changeBytes a b + max a.copyOut b.copyOut) * 1000
      | 9 => programOk b s.pUs = false ∨ a.osrc ≠ b.osrc
      | _ => False
    let judged (c : Instr) (code why : Nat) (more : List (Fld × Nat)) (rest : State → State) : Prop :=
      Judged c s r R.TASK.XCMD.CODE R.TASK.XCMDCNT.COUNT R.TASK.XREASON.CODE code why more rest
    (judged (.exchangeStage r) 1 (firstReason [(2, s.mstate != .run), (3, x != 0 && x != 3 && x != 7),
        (4, s.get R.UPD.STATE.fld != 3 || s.get R.UPD.STATE.KIND != 2), (8, s.lcs != 1 && s.lcs != 2 && s.lcs != 3)])
      [(R.TASK.XSTAT.STATE, 1), (R.TASK.XSTAT.FCODE, 0), (R.TASK.XFILL.TOTAL, mib), (R.TASK.XFILL.DONE, 0), (R.TASK.XPVER.PVER, 0)] id) ∧
    (judged (.exchangeArm r) 2 (firstReason ([(2, s.mstate != .run), (3, x != 2)] ++ s.armSteps ++ [(8, !s.leads)])) []
      fun s => { s with xch := { s.xch with arm := true } }) ∧
    (judged (.exchangeCancel r) 3 (firstReason [(3, x != 1 && x != 2 && x != 3)])
      [(R.TASK.XSTAT.STATE, 0), (R.TASK.XSTAT.FCODE, 0), (R.TASK.XPVER.PVER, 0), (R.TASK.EXCH.FORCEOK, 0)]
      fun s => { s.setShadow none with xch := { s.xch with arm := false } }) ∧
    (x ≠ 1 → Ignored .exchangeFillDone s) ∧
    (x = 1 → s.stagedProgram = none → Sets .exchangeFillDone s [(R.TASK.XSTAT.STATE, 3), (R.TASK.XSTAT.FCODE, 2)]) ∧
    (x = 1 → s.prog = some a → s.stagedProgram = some b → Does .exchangeFillDone s fun t =>
      t = { s.setShadow (some b) with regs := t.regs, chA := t.chA, chB := t.chB, chC := t.chC } ∧ t.shadow = some b ∧ t.prog = some a ∧
      (∀ ch, t.ch ch = { s.ch ch with insig := (t.ch ch).insig, rx0 := (t.ch ch).rx0, rx1 := (t.ch ch).rx1 } ∧ (s.follows ch = false → t.ch ch = s.ch ch) ∧
        (s.follows ch = true → t.bankIn (t.ch ch) (!s.act) = some (versionAs (s.wrongBits ch) b) ∧ t.bankIn (t.ch ch) s.act = s.bankIn (s.ch ch) s.act)) ∧
      FieldsSet s t [(R.TASK.XSTAT.STATE, if fill = 0 then 2 else 3), (R.TASK.XSTAT.FCODE, if fill = 0 then 1 else fill),
        (R.TASK.XFILL.DONE, b.sizeMiB), (R.TASK.XPVER.PVER, b.pver.toNat)]) ∧
    (∀ n, (n = 0 ∨ 3 ≤ n ∧ n ≤ 9) → (fill = n ↔ (n ≠ 0 → broken n) ∧ ∀ m, (n = 0 ∨ m < n) → ¬ broken m)) ∧
    (s.prog = some a → s.shadow = some b →
      (moving → arm = 5) ∧ (¬ moving → forced → arm = 6) ∧ (¬ moving → ¬ forced → apart → arm = 7) ∧ (¬ moving → ¬ forced → ¬ apart → arm = 0)) ∧
    (x ≠ 6 ∨ s.mstate ≠ .run → Ignored (.exchangePersist written) s) ∧
    (x = 6 → s.mstate = .run → Does (.exchangePersist written) s fun t =>
      t.get R.TASK.XSTAT.STATE = 7 ∧ t.get R.TASK.EXCH.FORCEOK = 0 ∧ t.get R.UPD.STATE.fld = 0 ∧ t.get R.UPD.STATE.KIND = 0 ∧
      t.upd = { s.upd with hdr := none, man := none, stream := [], owner := none, rec0 := t.upd.rec0, rec1 := t.upd.rec1 } ∧
      (written = true → t.get R.UPD.STATE.ACT = s.idleSlot ∧ t.get R.UPD.STATE.TRIAL = 0 ∧
        ∃ rec, t.slotRec = some rec ∧ rec.act = s.idleSlot ∧ rec.trial = 0 ∧ ∀ old, s.slotRec = some old → rec.seq = old.seq + 1) ∧
      (written = false → t.slotRec = s.slotRec ∧ t.get R.UPD.STATE.ACT = s.get R.UPD.STATE.ACT ∧ t.get R.UPD.STATE.TRIAL = s.get R.UPD.STATE.TRIAL) ∧
      ∃ b, t.xch.reports = (b :: s.xch.reports).take 16 ∧ Recorded s t 0x0B 0x02 0 (bytesAt b 0 12))

/-- R3, R4, R8, R17, R18, R21, R269, R314, R365: a start begins in BOOT, at power-up or as an accepted restart begins: nothing is loaded, no force, latch,
held write or session survives, start-hold is asserted, flash, MRAM, NV store and retain areas stay, the start is counted, and network time is
Solfatara's; a life-cycle command still pending takes effect, as the Gong does not tick (log 24). It is warm only as R21 allows, never from a slot on
trial. A power-down and Solfatara's operations run to their end first (R357, R361). At power-up the steward's memory is empty (log 4) and an activation not yet made is forgotten (R324). -/
def Obligations.StartsBeginInBoot : Prop :=
  ∀ (s : State) (off : Nat) (mv10 : BitVec 16),
    let begun (sol : Nat) (t : State) : Prop :=
      t.mstate = .boot ∧ t.role = .none ∧ t.gong = GongSt.reset ∧ (∀ ch, t.ch ch = Chan.reset) ∧ t.bank0 = none ∧ t.bank1 = none ∧
      t.forces = [] ∧ t.fcmds = [] ∧ t.preq = [] ∧ t.latch = [] ∧ t.held = [] ∧ t.session = none ∧ t.evs = [] ∧ t.boot = BootSt.reset ∧
      t.sup.startHold = true ∧ t.sup.latch = false ∧ t.sup.restart = none ∧ t.sup.down = false ∧ t.sup.words = none ∧ (s.bist.lcNew = none → t.upd = { s.upd with bat := none } ∧ t.get R.BIST.LCS.STATE = s.get R.BIST.LCS.STATE) ∧
      (∀ n, s.bist.lcNew = some n → n ≤ 4 → t.get R.BIST.LCS.STATE = n ∧ t.bist.lcNew = none ∧ (n = 4 → t.upd.idKey = false)) ∧ t.ret.a = s.ret.a ∧ t.ret.b = s.ret.b ∧
      t.ret.c = s.ret.c ∧ t.xch.reports = s.xch.reports ∧ t.clk = 2 ^ 32 * sol ∧ t.solNs = sol ∧
      t.getPair R.ID.SERIAL_LO.SN R.ID.SERIAL_HI.SN = s.nv.serial.toNat ∧ t.get R.UPD.BOOTCNT.COUNT = (s.get R.UPD.BOOTCNT.COUNT + 1) % 2 ^ 32
    (s.sup.powered = false → s.sup.words = none → 1750 < mv10.toNat → Answers (.powerInputValid off mv10) s fun t =>
      t.sup.powered = true ∧ t.sup.supply = mv10.toNat ∧ begun (s.solNs + off) t ∧ t.nv = { s.nv with pend := 0 } ∧ (s.get R.BRG.STATUS.HOLD = 0 → t.smem = [])) ∧
    (s.sup.powered = true ∨ s.sup.words ≠ none ∨ mv10.toNat ≤ 1750 → Ignored (.powerInputValid off mv10) s) ∧
    (s.sup.restart.isSome = true → s.sup.down = false → s.sup.words = none → Does .restartBegin s fun t =>
      begun s.solNs t ∧ t.nv = s.nv ∧ (s.get R.BRG.STATUS.HOLD = 0 → t.smem = s.smem) ∧
      (s.sup.restart = some true ∨ s.nv.pend ≠ 0 ∨ s.get R.SUP.CFG.WARMEN = 0 ∨ s.sup.lastSafe = 2 ∨ s.sup.lastSafe = 3 ∨
        s.vote.clearPerm = true ∨ (∃ x, s.slotRec = some x ∧ x.trial = 1) → t.sup.warm = false)) ∧
    (s.sup.restart = none ∨ s.sup.powered = false ∨ s.sup.down = true ∨ s.sup.words ≠ none → Ignored .restartBegin s)

/-- R17, R27, R319, R324, R326, R327, R331, R338 to R340, R349, R380, Table 14-3: the steps of BOOT. Slot code, plug, image check (the active slot, else the
other, else RECOVERY, else a stop with STOPC 5; a trial counts its starts and ends with ROLLBACK, in the other slot, when they are used up or its
slot fails; where both fail the other slot is the active one of the slot record; a start that changes the slot or is one of a trial is written into the slot record, and what a report and the copy say of the slot is taken), the loading of the processors from it, Tocsin's
confirmation, which withdraws start-hold, and its timeout, STOPC 7. A step that is done changes nothing. Layering, which shows UCAUSE anew: the current user image is the valid one of the higher
ACTSEQ, else the other; with a valid factory image the base period takes effect. When the last step is done BOOT ends in INIT after a warm restart and in
STARTTEST after a cold start. UCAUSE shows the first condition of R331 that fails. CODE and SLOTP of an invalid slot code are those of the first sample
(log 24). -/
def Obligations.BootStepsActAsTheirRules : Prop :=
  (∀ (s : State) (v : BitVec 6) (samples : List (BitVec 6)) (b : List Byte) (step : Fin 4) (i : FlashImg) (dig : BitVec 256),
      let code := v.toNat % 32
      let odd := ((List.range 6).filter fun i => v.getLsbD i).length % 2 = 1
      let act := s.get R.UPD.STATE.ACT
      let other := 1 - act
      let n := s.get R.UPD.CFG.TRIALN
      let trialN := if 1 ≤ n ∧ n ≤ 5 then n else 3
      let regsAndBoot (t : State) (b : BootSt) : Prop := t = { s with regs := t.regs, boot := b }
      let starts (n : Nat) (fall back : Bool) : Prop := Does .imageCheck s fun t =>
        t = { s with
          regs := t.regs
          boot := { s.boot with imageOk := true, slot := some n, slotFb := fall, fwDig := t.boot.fwDig, prgDig := t.boot.prgDig, copyfmt := t.boot.copyfmt }
          upd := { s.upd with rec0 := t.upd.rec0, rec1 := t.upd.rec1 } } ∧
        (∀ x, s.img n = some x → t.boot.fwDig = sectsDigest x.man [1, 2, 3, 4, 5] ∧ t.boot.prgDig = some (sectsDigest x.man [6]) ∧
          t.boot.copyfmt = x.hdr.copyfmt.toNat) ∧
        t.get R.UPD.STATE.ACT = n ∧
        (n = act → s.get R.UPD.STATE.TRIAL = 0 → t.upd = s.upd) ∧
        (n ≠ act ∨ back = true ∨ s.get R.UPD.STATE.TRIAL = 1 → ∃ rec, t.slotRec = some rec ∧ rec.act = n ∧ rec.trial = t.get R.UPD.STATE.TRIAL ∧
          rec.trials = t.get R.UPD.STATE.TRIALS) ∧
        (fall = true → t.get R.UPD.FLAG.SLOTFALL = 1) ∧ (back = true → t.get R.UPD.FLAG.ROLLBACK = 1 ∧ t.get R.UPD.STATE.TRIAL = 0)
      let cause (slot plug : Bool) (rack code : Nat) : Nat := firstReason [(1, !slot), (2, !plug), (3, s.byTtdb && !s.boot.posRead),
        (4, s.byTtdb && s.boot.pos.isNone), (5, !Config.hostOk (32 * rack + code)), (6, s.net.conflict), (7, !s.boot.probed)]
      let slotOk : Bool := s.get R.ID.SLOT.VALID = 1
      let plugOk' : Bool := s.get R.ID.PLUG.VALID = 1
      let rack := s.get R.ID.PLUG.RACK
      s.mstate = .boot → s.get R.SUP.STATE.STOPC = 0 → s.get R.ID.ASTAT.ADDR = 0 → s.boot.layered = false →
      (s.boot.slotDone = false → samples = List.replicate 8 v → odd → 1 ≤ code ∧ code ≤ 30 → Does (.slotCodeSample samples) s fun t =>
        regsAndBoot t { s.boot with slotDone := true } ∧
        FieldsSet s t [(R.ID.SLOT.CODE, code), (R.ID.SLOT.SLOTP, v.toNat / 32), (R.ID.SLOT.VALID, 1), (R.ID.ASTAT.UCAUSE, cause true plugOk' rack code)]) ∧
      (s.boot.slotDone = false → samples.head? = some v → samples ≠ List.replicate 8 v ∨ ¬ odd ∨ code = 0 ∨ code = 31 →
        Does (.slotCodeSample samples) s fun t =>
          regsAndBoot t { s.boot with slotDone := true, role := some (.fenced, 3) } ∧
          FieldsSet s t [(R.ID.SLOT.CODE, code), (R.ID.SLOT.SLOTP, v.toNat / 32), (R.ID.SLOT.VALID, 0), (R.ID.FLAG.SLOTERR, 1),
            (R.ID.ASTAT.UCAUSE, 1)]) ∧
      (s.boot.plugDone = false → plugOk b = true → Does (.plugRead (some b) (some b)) s fun t =>
        regsAndBoot t { s.boot with plugDone := true } ∧
        FieldsSet s t ([(R.ID.PLUG.VALID, 1), (R.ID.PLUG.RACK, leNat (bytesAt b 5 1)), (R.ID.PLUG.VTYPE, leNat (bytesAt b 6 2)),
          (R.ID.ASTAT.UCAUSE, cause slotOk true (leNat (bytesAt b 5 1)) (s.get R.ID.SLOT.CODE))] ++
          (List.range 4).map fun w => (R.ID.VEHID.BYTES w, leNat (bytesAt b (8 + 4 * w) 4)))) ∧
      (s.boot.plugDone = false → Does (.plugRead (some b) none) s fun t =>
        regsAndBoot t { s.boot with plugDone := true } ∧ FieldsSet s t [(R.ID.ASTAT.UCAUSE, cause slotOk plugOk' rack (s.get R.ID.SLOT.CODE))]) ∧
      (s.boot.plugDone = false → s.boot.retry < 49 → s.boot.retry2 < 49 →
        (Does (.plugReadRetry false) s fun t => t = { s with boot := { s.boot with retry := s.boot.retry + 1 } }) ∧
        Does (.plugReadRetry true) s fun t => t = { s with boot := { s.boot with retry2 := s.boot.retry2 + 1 } }) ∧
      (s.boot.plugDone = false → s.boot.retry = 49 → Does (.plugReadRetry false) s fun t =>
        regsAndBoot t { s.boot with retry := 50, plugDone := true } ∧ FieldsSet s t [(R.ID.ASTAT.UCAUSE, cause slotOk plugOk' rack (s.get R.ID.SLOT.CODE))]) ∧
      (s.boot.plugDone = false → s.boot.retry2 = 49 → Does (.plugReadRetry true) s fun t => t.boot = { s.boot with retry2 := 50, plugDone := true }) ∧
      (s.boot.imageOk = false → act ≤ 1 → s.get R.UPD.STATE.TRIAL = 0 →
        (s.slotCheck act = 0 → starts act false false) ∧
        (s.slotCheck act ≠ 0 → s.slotCheck other = 0 → starts other true false) ∧
        (s.slotCheck act ≠ 0 → s.slotCheck other ≠ 0 → s.slotCheck 2 = 0 → Does .imageCheck s fun t =>
          t.mstate = .recovery ∧ t.get R.UPD.STATE.ACT = 2) ∧
        (s.slotCheck act ≠ 0 → s.slotCheck other ≠ 0 → s.slotCheck 2 ≠ 0 → Sets .imageCheck s [(R.SUP.STATE.STOPC, 5)])) ∧
      (s.boot.imageOk = false → act ≤ 1 → s.get R.UPD.STATE.TRIAL = 1 →
        (s.get R.UPD.STATE.TRIALS < trialN → s.slotCheck act = 0 → starts act false false ∧
          Does .imageCheck s fun t => t.get R.UPD.STATE.TRIAL = 1 ∧ t.get R.UPD.STATE.TRIALS = s.get R.UPD.STATE.TRIALS + 1) ∧
        (trialN ≤ s.get R.UPD.STATE.TRIALS ∨ s.slotCheck act ≠ 0 → s.slotCheck other = 0 → starts other (decide (s.slotCheck act ≠ 0)) true) ∧
        (trialN ≤ s.get R.UPD.STATE.TRIALS → s.slotCheck act = 0 → s.slotCheck other ≠ 0 → starts act true true) ∧
        (s.slotCheck act ≠ 0 → s.slotCheck other ≠ 0 → Does .imageCheck s fun t => t.get R.UPD.FLAG.ROLLBACK = 1 ∧
          (∃ rec, t.slotRec = some rec ∧ rec.act = other ∧ rec.trial = 0) ∧
          (s.slotCheck 2 = 0 → t.mstate = .recovery ∧ t.get R.UPD.STATE.ACT = 2) ∧ (s.slotCheck 2 ≠ 0 → t.get R.SUP.STATE.STOPC = 5))) ∧
      (s.boot.imageOk = true → s.boot.loaded.length = step.val → s.img (s.boot.slot.getD act) = some i →
        (dig = sectsDigest i.man [5 - step.val] → Does (.processorLoad step dig) s fun t =>
          t = { s with boot := { s.boot with loaded := s.boot.loaded ++ [step.val] } }) ∧
        (dig ≠ sectsDigest i.man [5 - step.val] → Sets (.processorLoad step dig) s [(R.UPD.FLAG.LOADERR, 1), (R.SUP.STATE.STOPC, 6)])) ∧
      (s.boot.tocsin = false → s.boot.loaded ≠ [] → Does .tocsinConfigConfirmed s fun t =>
        t = { s with boot := { s.boot with tocsin := true }, sup := { s.sup with startHold := false } }) ∧
      (s.boot.tocsin = false → Sets .tocsinConfirmTimeout s [(R.SUP.STATE.STOPC, 7)]) ∧
      (s.boot.slotDone = true → Ignored (.slotCodeSample samples) s) ∧
      (s.boot.plugDone = true → Ignored (.plugRead (some b) (some b)) s ∧ ∀ second, Ignored (.plugReadRetry second) s) ∧
      (s.boot.imageOk = true → Ignored .imageCheck s) ∧ (s.boot.tocsin = true → Ignored .tocsinConfigConfirmed s ∧ Ignored .tocsinConfirmTimeout s)) ∧
  (∀ (s : State) (n : Nat) (m : NvImage),
      let b := s.boot
      s.mstate = .boot → s.get R.SUP.STATE.STOPC = 0 → s.sup.powered = true →
      (b.layered = false → b.imageOk = false → s.nv.pend = 0 → Does .configLayering s fun t =>
        t.boot = { b with layered := true } ∧ t.mstate = .boot ∧ t.nv = s.nv ∧
        (s.currentImg = none → t.get R.CFG.STATUS.FACTONLY = 1 ∧ t.get R.CFG.CURVER.CFGVER = 0) ∧
        (s.currentImg = some n → s.userImg n = some m →
          t.get R.CFG.STATUS.FACTONLY = 0 ∧ t.get R.CFG.STATUS.CUR = n % 2 ∧ t.get R.CFG.CURVER.CFGVER = m.cfgver.toNat) ∧
        (s.get R.ID.ASTAT.ADDR = 0 → t.get R.ID.ASTAT.UCAUSE = t.ucause) ∧
        (s.factoryImage.isSome = true → t.get R.GONG.STATUS.APERIOD = t.get R.GONG.CTRL.PERIOD)) ∧
      (b.layered = true → Ignored .configLayering s) ∧
      (b.layered = true → b.imageOk = true → b.loaded.length = 4 → b.slotDone = true → b.plugDone = true → b.tocsin = false →
        Does .tocsinConfigConfirmed s fun t => t.mstate = (if s.sup.warm then .init else .starttest) ∧ t.sup.startHold = false))

/-- R19, R170, R171, R187, R195, R199, R295, R297, R328, R340, R358: INIT. After a cold start the retain areas are emptied. The program of the slot that this start
checked is loaded into bank 0 unless a stop code holds or the loaders' digest is not the manifest's, which is LOADERR and STOPC 6 (log 24): every included channel
holds it as its loader received it (log 15), every signal and slot of it at the initial value, with INIT; on a warm restart with a record that at least two areas hold, what
the record holds of them is restored, as the loader received it. STORE_CHARGED shows the store. The start role follows R199's four rules; ALONE takes the duties with RST# asserted and M66EN sensed, and a partner with the same slot code is SLOTDUP and
FENCED. -/
def Obligations.InitLoadsTheProgramAndDecidesTheRole : Prop :=
  ∀ (s : State) (p : Program) (mv : BitVec 16) (d : Role × Nat) (dig : BitVec 256) (m66 : Bool),
    let load := Instr.programLoad dig
    let wrong : Prop := ∃ i, s.img s.loadSlot = some i ∧ dig ≠ sectsDigest i.man [6]
    let cleared (t : State) : Prop :=
      (s.sup.warm = true → t.ret = s.ret) ∧
      (s.sup.warm = false → t.ret.a = ⟨none, none⟩ ∧ t.ret.b = ⟨none, none⟩ ∧ t.ret.c = ⟨none, none⟩ ∧ t.ret.seq = 0)
    let restored := if s.sup.warm = true then s.chosenRec p.pver (s.reg R.CFG.CURVER.CFGVER.off) else none
    let own := s.get R.ID.SLOT.CODE
    let pact := s.get R.PAIR.ROLE.PACTIN
    let decided (d : Role × Nat) : Prop := Does (.startRoleDecision m66) s fun t =>
      t.boot = { s.boot with role := some d } ∧
      (d.1 = .alone → t.get R.BRG.STATUS.HOLD = 1 ∧ t.brg.rst = true ∧ t.get R.BRG.STATUS.M66EN = b2n m66 ∧
        t.get R.BRG.STATUS.AFREQ = (if m66 then s.get R.BRG.CFG.FREQ else 0)) ∧
      (d.1 ≠ .alone → t = { s with regs := t.regs, boot := t.boot } ∧ FieldsSet s t (if d.2 = 3 then [(R.PAIR.FLAG.SLOTDUP, 1)] else []))
    (s.mstate = .init → s.boot.program = false → s.get R.SUP.STATE.STOPC = 0 →
      (s.stopCode ≠ 0 → Does load s fun t =>
        t = { s with regs := t.regs, ret := t.ret } ∧ cleared t ∧ t.get R.SUP.STATE.STOPC = s.stopCode ∧ RegsKept s t [R.SUP.STATE.STOPC.off, R.ID.FLAG.PLUGMIS.off]) ∧
      (s.stopCode = 0 → wrong → Does load s fun t =>
        t = { s with regs := t.regs, ret := t.ret } ∧ cleared t ∧ FieldsSet s t [(R.UPD.FLAG.LOADERR, 1), (R.SUP.STATE.STOPC, 6)]) ∧
      (s.stopCode = 0 → ¬ wrong → s.slotProgram s.loadSlot = some p → Does load s fun t =>
        cleared t ∧
        t.bank0 = some p ∧ t.bank1 = none ∧ t.prog = some p ∧ t.boot.program = true ∧ t.get R.TASK.PVER.fld = p.pver.toNat ∧
        t.boot.fRec = (match restored with | some b => some b.frame | none => s.boot.fRec) ∧
        ((p.sigs.map fun d => d.id).Nodup → (p.slots.map fun d => d.idx).Nodup → ∀ ch, s.included ch = true →
          let q := versionAs (s.wrongBits ch) p
          t.bankIn (t.ch ch) false = some q ∧ (s.wrongBits ch = 0 → q = p) ∧
          (∀ g ∈ q.sigs, (∀ b, restored = some b → ∀ w3 v, RetEnt.sig g.id w3 v ∉ b.body) → ∃ w3,
            tblFind (t.ch ch).dir g.id = some ⟨g.w0, g.w1, g.w2, w3, bytesAt g.init 0 (defEnt g).size⟩ ∧ fieldOf w3 0 6 = 0x20) ∧
          (∀ d ∈ q.slots, (∀ b, restored = some b → ∀ v, RetEnt.slot d.idx v ∉ b.body) → tblFind (t.ch ch).slots d.idx = some (slotCold d)) ∧
          ∀ b, restored = some b →
            (∀ g ∈ q.sigs, ∀ w3 v, RetEnt.sig g.id w3 v ∈ b.body → (∀ w3' v', RetEnt.sig g.id w3' v' ∈ b.body → w3' = w3 ∧ v' = v) →
              let r := receivedSig (s.receivedBytes ch) g.id w3 v
              tblFind (t.ch ch).dir g.id = some ⟨g.w0, g.w1, g.w2, withField r.1 1 1 0, r.2⟩ ∧ (s.wrongBits ch = 0 → r = (w3, v))) ∧
            (∀ d ∈ q.slots, ∀ v, RetEnt.slot d.idx v ∈ b.body → (∀ v', RetEnt.slot d.idx v' ∈ b.body → v' = v) →
              tblFind (t.ch ch).slots d.idx = some (bytesSlot (s.receivedBytes ch (slotBytes v)) v.adopt))))) ∧
    (s.mstate ≠ .init ∨ s.boot.program = true ∨ s.get R.SUP.STATE.STOPC ≠ 0 → Ignored load s) ∧
    (s.sup.powered = true → Sets (.storeCharged mv) s [(R.SUP.SUPPLY.STORE, mv.toNat), (R.SUP.STATE.STORE, 1)]) ∧
    (s.mstate = .init → s.boot.program = true → s.boot.role = none →
      (s.partner = none → pact = 0 → decided (.alone, 0)) ∧ (s.partner = none → pact = 1 → decided (.standby, 0)) ∧
      ∀ h, s.partner = some h →
        (h.slot.toNat = own → decided (.fenced, 3)) ∧
        (h.slot.toNat ≠ own → pact = 1 ∨ h.role = .alone ∨ h.role = .active → decided (.standby, 0)) ∧
        (pact = 0 → h.role = .none → h.mstate = .init → own < h.slot.toNat → decided (.alone, 0)) ∧
        (pact = 0 → h.role = .none → h.mstate = .init → h.slot.toNat < own → decided (.standby, 0)) ∧
        (h.slot.toNat ≠ own → pact = 0 → h.role ≠ .alone → h.role ≠ .active → h.role ≠ .none ∨ h.mstate ≠ .init → decided (.alone, 0))) ∧
    (s.boot.role = some d → Ignored (.startRoleDecision m66) s)

/-- R197, R200, R202, R206, R211, R325: heartbeats. HEARTBEAT_SEND reports the own state; one received is kept with its role and epoch; ALONE
becomes ACTIVE on a standby's, ACTIVE becomes ALONE without one, by its heartbeat or by the timeout, which sets HBLOSS. A current standby whose partner leaves RUN,
or falls silent, promotes with a higher epoch; one that is not current sets NOPROMO. After CTRL a heartbeat does not promote until the tick of h + 1. A standby
that joins with another configuration version fails. HBLOSS in every role, and CUR = 0 on becoming ACTIVE, are readings of log 18. -/
def Obligations.HeartbeatsDriveTheRoles : Prop :=
  ∀ (s : State) (h : Heartbeat),
    let c := Instr.heartbeatReceive h
    let heard (t : State) : Prop := t.pair.hb = some h ∧ t.pair.hbLive = true ∧ t.pair.epochIn = h.epoch.toNat ∧ t.get R.PAIR.ROLE.PROLE = roleCode h.role
    let promoted (epochIn : Nat) (t : State) : Prop :=
      t.role = .alone ∧ t.get R.PAIR.EPOCH.fld = (max (s.get R.PAIR.EPOCH.fld) epochIn + 1) % 2 ^ 32 ∧ t.get R.PAIR.FLAG.PROMO = 1 ∧
      t.get R.PAIR.RESF_LO.FRAME = s.get R.PAIR.ACKF_LO.FRAME ∧ t.get R.PAIR.RESF_HI.FRAME = s.get R.PAIR.ACKF_HI.FRAME ∧
      t.pair.resume = some s.ackf ∧ (s.sup.latch = false → s.sup.startHold = false → t.get R.PAIR.ROLE.PACT = 1)
    let gone : Prop := s.pair.handover = none ∧
      (h.mstate = .safe ∨ h.mstate = .recovery ∨ h.mstate = .boot ∨ h.role = .none ∨ h.role = .fenced)
    (s.sup.powered = true → Does .heartbeatSend s fun t => ∃ h, t = { s with out := .hb h :: s.out } ∧ h.role = s.role ∧ h.mstate = s.mstate ∧
      h.epoch = s.reg R.PAIR.EPOCH.fld.off ∧ h.ackf = s.ackf ∧ h.slot.toNat = s.get R.ID.SLOT.CODE ∧ h.pver = s.reg R.TASK.PVER.fld.off ∧
      h.cfgver = s.reg R.CFG.CURVER.CFGVER.off ∧ h.flags.toNat % 2 = s.get R.PAIR.ROLE.CUR) ∧
    (s.sup.powered = false → Ignored .heartbeatSend s) ∧
    Does c s heard ∧
    (s.role = .none ∨ (s.role = .alone ∧ h.role ≠ .standby) ∨ (s.role = .active ∧ h.role = .standby) → Does c s fun t => heard t ∧ t.role = s.role) ∧
    (s.role = .alone → h.role = .standby → Does c s fun t => heard t ∧ t.role = .active ∧ t.get R.PAIR.ROLE.CUR = 0) ∧
    (s.role = .active → h.role ≠ .standby → Does c s fun t => heard t ∧ t.role = .alone) ∧
    (s.role = .standby → gone → s.get R.PAIR.ROLE.CUR = 1 → Does c s fun t => heard t ∧ promoted h.epoch.toNat t) ∧
    (s.role = .standby → gone → s.get R.PAIR.ROLE.CUR = 0 → Does c s fun t => heard t ∧ t.role = .standby ∧ t.get R.PAIR.FLAG.NOPROMO = 1 ∧
      (s.get R.PAIR.CFG.COLDTAKE = 1 → t.sup.restart = some true)) ∧
    (s.role = .standby → ¬ gone → s.pair.joining = false ∨ h.cfgver = s.reg R.CFG.CURVER.CFGVER.off → Does c s fun t => heard t ∧ t.role = .standby ∧
      t.get R.PAIR.ROLE.CUR = s.get R.PAIR.ROLE.CUR) ∧
    (s.role = .standby → ¬ gone → s.pair.joining = true → h.role = .alone ∨ h.role = .active → h.cfgver ≠ s.reg R.CFG.CURVER.CFGVER.off →
      Does c s fun t => heard t ∧ ((t.role = .standby ∧ t.pair.joining = true ∧ t.get R.PAIR.ROLE.CUR = 0) ∨
        (t.role = .fenced ∧ t.get R.PAIR.ROLE.FCAUSE = 4 ∧ t.get R.PAIR.FLAG.JOINFAIL = 1 ∧ t.pair.joining = false))) ∧
    (s.role = .fenced → h.role = .alone ∨ h.role = .active → s.get R.PAIR.ROLE.FCAUSE = 1 ∨ s.get R.PAIR.ROLE.FCAUSE = 5 ∨
      (s.get R.PAIR.ROLE.FCAUSE = 2 ∧ s.pair.unfenced = true) → Does c s fun t => heard t ∧ t.role = .standby ∧ t.pair.joining = true) ∧
    (s.role = .fenced → s.get R.PAIR.ROLE.FCAUSE = 3 ∨ s.get R.PAIR.ROLE.FCAUSE = 4 → Does c s fun t => heard t ∧ t.role = .fenced) ∧
    (s.role = .active → Does .heartbeatTimeout s fun t => t.role = .alone ∧ t.pair.hbLive = false ∧ t.get R.PAIR.FLAG.HBLOSS = 1) ∧
    (s.role = .standby → s.get R.PAIR.ROLE.CUR = 1 → Does .heartbeatTimeout s fun t => promoted s.pair.epochIn t ∧ t.get R.PAIR.FLAG.HBLOSS = 1) ∧
    (s.role = .standby → s.get R.PAIR.ROLE.CUR = 0 → Does .heartbeatTimeout s fun t => t.role = .standby ∧ t.get R.PAIR.FLAG.NOPROMO = 1 ∧
      t.get R.PAIR.FLAG.HBLOSS = 1 ∧ (s.get R.PAIR.CFG.COLDTAKE = 1 → t.sup.restart = some true)) ∧
    (s.role = .alone ∨ s.role = .none ∨ s.role = .fenced → Does .heartbeatTimeout s fun t => t.role = s.role ∧ t.get R.PAIR.FLAG.HBLOSS = 1)

/-- R200 to R205, R297: PAIR_ACT_IN. A rise accepted 1 ms or more after the own PAIR_ACT marks a yield with cause 1; an earlier one does on the higher slot code, and
marks cause 5 where no heartbeat since has told the partner's; the fall after a promotion
gives BOTHNS; a yield that is due makes the module FENCED at the tick, its outputs off and PAIR_ACT released; FENCED with cause 5 promotes when its timer ends; after
the fall the promoted module, while no self-test runs, takes the duties without RST# (IDLE = 1 then: log 28). R15, R22, R23, R203, R211, Table 8-11: the PAIR commands. SWITCHOVER on
a current ACTIVE sends the handover frame, two frames after the tick that follows (log 16); FENCE marks a yield with cause 2 for the next tick, or at
once on a module that does not lead; UNFENCE ends cause 2. -/
def Obligations.PairActLinesFollowTheirRules : Prop :=
  (∀ (s : State) (ns cause : Nat) (m66 : Bool) (h : Heartbeat),
    let early : Prop := s.leads = true ∧ s.get R.PAIR.ROLE.PACT = 1 ∧ s.nowNs < s.pair.pactNs + 1000000 ∧ s.pair.yield = none
    let rises (y : Option Nat) : Prop := Does (.pairActInAccept true ns) s fun t =>
      t = { s with regs := t.regs, pair := { s.pair with yield := y } } ∧ FieldsSet s t [(R.PAIR.ROLE.PACTIN, 1)]
    let pact := s.get R.PAIR.ROLE.PACTIN
    (pact = 1 → Does (.pairActInAccept true ns) s fun t => OnlyFields s t [(R.PAIR.ROLE.PACTIN, 1)]) ∧
    (pact = 0 → s.leads = true → s.get R.PAIR.ROLE.PACT = 1 → s.pair.pactNs + 1000000 ≤ s.nowNs → s.pair.yield = none → rises (some 1)) ∧
    (pact = 0 → early → s.pair.hbSincePact = false → rises (some 5)) ∧
    (pact = 0 → early → s.pair.hbSincePact = true → s.pair.hb = some h →
      (h.slot.toNat < s.get R.ID.SLOT.CODE → rises (some 1)) ∧ (s.get R.ID.SLOT.CODE ≤ h.slot.toNat → rises none)) ∧
    (pact = 0 → s.leads = false ∨ s.get R.PAIR.ROLE.PACT = 0 → rises s.pair.yield) ∧
    (pact = 1 → s.pair.both = true → Does (.pairActInAccept false ns) s fun t =>
      t = { s with regs := t.regs, pair := { s.pair with both := false } } ∧
      FieldsSet s t [(R.PAIR.ROLE.PACTIN, 0), (R.PAIR.BOTHNS.NS, min (ns - s.pair.pactNs) (2 ^ 32 - 1))]) ∧
    (pact = 1 → s.pair.both = false → Sets (.pairActInAccept false ns) s [(R.PAIR.ROLE.PACTIN, 0)]) ∧
    (s.mstate = .run → s.gong.ticking = true → 4 ≤ s.get R.GONG.STATUS.PHASE → s.leads = true → s.pair.yield = some cause →
      Does .gongTick s fun t => t.mstate = .run →
        t.role = .fenced ∧ t.get R.PAIR.ROLE.FCAUSE = cause % 8 ∧ t.get R.PAIR.ROLE.PACT = 0 ∧ t.get R.SIO.OSTATE.DEM = 0 ∧ t.get R.BRG.STATUS.HOLD = 0) ∧
    (s.role = .fenced → s.get R.PAIR.ROLE.FCAUSE = 5 → s.pair.hbSinceYield = false → pact = 0 → Does .fencedPromotionTimer s fun t =>
      t.role = .alone ∧ t.pair.resume = some s.pair.lastF ∧ t.get R.PAIR.FLAG.PROMO = 1 ∧
      t.get R.PAIR.EPOCH.fld = (max (s.get R.PAIR.EPOCH.fld) s.pair.epochIn + 1) % 2 ^ 32) ∧
    (s.role ≠ .fenced ∨ s.get R.PAIR.ROLE.FCAUSE ≠ 5 ∨ s.pair.hbSinceYield = true ∨ pact = 1 → Ignored .fencedPromotionTimer s) ∧
    (s.mstate = .run → s.leads = true → pact = 0 → s.get R.BRG.STATUS.HOLD = 0 → s.get R.BIST.STATUS.RUN = 0 → Sets (.dutiesTakeAfterPromotion m66) s
      [(R.BRG.STATUS.HOLD, 1), (R.BRG.STATUS.CFGD, 1), (R.BRG.STATUS.M66EN, b2n m66), (R.BRG.STATUS.AFREQ, if m66 then s.get R.BRG.CFG.FREQ else 0),
       (R.BRG.STATUS.IDLE, 1)]) ∧
    (s.leads = false ∨ pact = 1 ∨ s.get R.BRG.STATUS.HOLD = 1 → Ignored (.dutiesTakeAfterPromotion m66) s)) ∧
  (∀ (s : State) (r : Req),
    let judged (c : Instr) (code why : Nat) (rest : State → State) : Prop :=
      Judged c s r R.PAIR.CMD.CODE R.PAIR.CMDCNT.COUNT R.PAIR.REASON.CODE code why [] rest
    let why := firstReason [(2, s.mstate != .run), (3, s.role = .fenced), (5, s.role = .alone && !s.depot)]
    (judged (.switchover r) 1 (firstReason [(2, s.mstate != .run), (3, s.role != .active), (4, s.get R.PAIR.ROLE.CUR = 0)])
      fun s => { s with out := .ctrl (s.gong.frame + 3) :: s.out, pair := { s.pair with handover := some (s.gong.frame + 3) } }) ∧
    (s.leads = true → judged (.fence r) 2 why fun s => { s with pair := { s.pair with yield := some 2 } }) ∧
    (s.leads = false →
      (s.steward r = false → Ignored (.fence r) s) ∧
      (s.steward r = true → why ≠ 0 → Sets (.fence r) s [(R.PAIR.REASON.CODE, why)]) ∧
      (s.steward r = true → why = 0 → Does (.fence r) s fun t =>
        t.role = .fenced ∧ t.get R.PAIR.ROLE.FCAUSE = 2 ∧ t.pair = { s.pair with joining := false, handover := none } ∧
        t.get R.PAIR.REASON.CODE = 0 ∧ t.get R.PAIR.CMDCNT.COUNT = (s.get R.PAIR.CMDCNT.COUNT + 1) % 2 ^ 32)) ∧
    (judged (.unfence r) 3 (firstReason [(2, s.mstate != .run), (3, s.role != .fenced), (5, s.get R.PAIR.ROLE.FCAUSE != 2)])
      fun s => { s with pair := { s.pair with unfenced := true } }))

/-- R194, R204, R207 to R211, R344: the copy on a standby and its acknowledgement. Items wait for the END of their frame, and in a join for BULKEND;
then, where all arrived, they are applied as each channel receives them, and the digest that most channels hold decides: alike it is acknowledged with status 0,
makes the standby current unless the copy is too old, takes the epoch and makes a retain record due; another digest is status 1 and DIGMIS, and a new join, or the join fails.
The active module counts an acknowledgement heard in time, or ACKMISS, and shows a mismatch whenever it hears of it. A standby that is not
acknowledged in time joins again. ITEMS and BYTES count the exchange state as the control items that it takes (log 17). Bulk data of another COPYFMT fails the join, the third failure within 3,600 s ends in FENCED with cause 4. Copies whose
END came before BULKEND are applied and judged in order at BULKEND, and a standby that waits for it ignores ACK_MISS (logs 16 and 17). -/
def Obligations.CopiesAreAppliedAndAcknowledged : Prop :=
  ∀ (s : State) (n items bytes id b total mib status h : Nat) (w3 : W32) (v : List Byte) (x : DirEnt) (epoch : W32) (slice : Nat) (dig : BitVec 256)
    (l : List CopyItem) (fmt : Nat) (lane : Fin 2),
    let fin := Instr.geyserEndReceive n items bytes epoch slice dig
    let mine := (s.pair.held.filter fun h => h.1 = n).flatMap (·.2)
    let others := s.pair.held.filter fun h => h.1 != n
    let got : Prop := itemsCount mine = items ∧ itemsSize mine = bytes
    let applied := { s with pair := { s.pair with held := others } }.applyItems n mine
    let waits : Prop := s.pair.joining = true ∧ s.pair.bulkEnd = false
    let recent := s.pair.joinFails.filter fun t => decide (s.nowNs < t + 3600000000000)
    let failed (t : State) : Prop :=
      (recent.length < 2 → t.role = .standby ∧ t.get R.PAIR.ROLE.CUR = 0 ∧ t.pair.joining = true ∧ t.pair.joinFails = s.nowNs :: recent) ∧
      (2 ≤ recent.length → t.role = .fenced ∧ t.get R.PAIR.ROLE.FCAUSE = 4 ∧ t.get R.PAIR.FLAG.JOINFAIL = 1 ∧ t.pair.joining = false)
    let heard : Prop := ∃ h, s.pair.hb = some h ∧ n ≤ h.ackf
    let unasked (begun : Option Nat) (t : State) : Prop := t.pair.await = s.pair.await.erase n ∧
      (∀ b, begun = some b → (b < n → t.pair.bulkB = none) ∧ (n ≤ b → t.pair.bulkB = s.pair.bulkB)) ∧ (begun = none → t.pair.bulkB = s.pair.bulkB) ∧
      t.pair.held = s.pair.held ∧ t.pair.joinFails = s.pair.joinFails
    (s.role ≠ .standby → Ignored (.geyserDataReceive n l) s ∧ Ignored fin s ∧ Ignored (.bulkReceive b fmt total mib l) s ∧ Ignored (.bulkendReceive b) s ∧
      Ignored (.ctrlReceive h) s) ∧
    (s.role = .standby → Does (.geyserDataReceive n l) s fun t => t = { s with pair := { s.pair with held := s.pair.held ++ [(n, l)] } }) ∧
    (s.role = .standby → waits → Does fin s fun t => t = { s with pair := { s.pair with ended := s.pair.ended ++ [⟨n, items, bytes, epoch, dig⟩] } }) ∧
    (s.role = .standby → ¬ waits → ¬ got → Does fin s fun t => t = { s with pair := { s.pair with held := others } }) ∧
    (s.role = .standby → ¬ waits → got → applied.agreedCopy = some dig → Does fin s fun t =>
      t.out = .ack n 0 :: applied.out ∧ t.getPair R.PAIR.ACKF_LO.FRAME R.PAIR.ACKF_HI.FRAME = n % 2 ^ 64 ∧
      (s.gong.frame ≤ n + 1 → t.get R.PAIR.ROLE.CUR = 1 ∧ t.pair.joining = false) ∧
      (n + 1 < s.gong.frame → t.get R.PAIR.ROLE.CUR = applied.get R.PAIR.ROLE.CUR ∧ t.pair.joining = s.pair.joining) ∧
      t.reg R.PAIR.EPOCH.fld.off = epoch ∧ (∃ r, t.ret.due = some r ∧ r.frame = n) ∧
      t.chA = applied.chA ∧ t.chB = applied.chB ∧ t.chC = applied.chC) ∧
    (s.role = .standby → s.pair.joining = false → got → applied.agreedCopy ≠ some dig → Does fin s fun t =>
      t.out = .ack n 1 :: applied.out ∧ t.get R.PAIR.FLAG.DIGMIS = 1 ∧ t.get R.PAIR.ROLE.CUR = 0 ∧ t.pair.joining = true) ∧
    (s.role = .standby → s.pair.joining = true → s.pair.bulkEnd = true → got → applied.agreedCopy ≠ some dig → Does fin s fun t =>
      t.out = .ack n 1 :: applied.out ∧ t.get R.PAIR.FLAG.DIGMIS = 1 ∧ t.get R.PAIR.ROLE.CUR = 0 ∧
      (t.pair.joining = true ∨ (t.pair.joining = false ∧ t.role = .fenced ∧ t.get R.PAIR.ROLE.FCAUSE = 4 ∧ t.get R.PAIR.FLAG.JOINFAIL = 1))) ∧
    (s.role = .standby → s.pair.joining = false → s.dirEnt id = some x → x.home ≠ 4 → mine = [.sig id w3 v] → items = 1 →
      bytes = 8 + (v.length + 7) / 8 * 8 → Does fin s fun t => ∀ ch e, s.follows ch = true → tblFind (s.ch ch).dir id = some e →
        let r := receivedSig (s.receivedBytes ch) id w3 v
        tblFind (t.ch ch).dir id = some { e with w3 := r.1, val := r.2 } ∧ (s.wrongBits ch = 0 → r = (w3, v))) ∧
    (s.role = .active → status = 1 → Does (.geyserAckReceive n status) s fun t =>
      unasked s.pair.bulkB t ∧ OnlyFields { s with pair := t.pair } t [(R.PAIR.FLAG.DIGMIS, 1), (R.PAIR.ROLE.CUR, 0)]) ∧
    (s.role = .active → status ≠ 1 → n ∈ s.pair.await → s.gong.frame < n + 2 → Does (.geyserAckReceive n status) s fun t =>
      t = { s with regs := t.regs, pair := { s.pair with await := s.pair.await.erase n } } ∧
      FieldsSet s t [(R.PAIR.ACKF_LO.FRAME, n), (R.PAIR.ACKF_HI.FRAME, n / 2 ^ 32), (R.PAIR.ROLE.CUR, 1)]) ∧
    (s.role ≠ .active ∨ (status ≠ 1 ∧ (n ∉ s.pair.await ∨ n + 2 ≤ s.gong.frame)) → Ignored (.geyserAckReceive n status) s) ∧
    (s.role = .active → n ∈ s.pair.await → n + 2 ≤ s.gong.frame → Does (.ackMiss n) s fun t =>
      unasked s.pair.bulkE t ∧ OnlyFields { s with pair := t.pair } t [(R.PAIR.FLAG.ACKMISS, 1), (R.PAIR.ROLE.CUR, 0)]) ∧
    (s.role = .standby → ¬ heard → n + 2 ≤ s.gong.frame → s.pair.joining = false → Does (.ackMiss n) s fun t =>
      t.pair.joining = true ∧ OnlyFields { s with pair := t.pair } t [(R.PAIR.ROLE.CUR, 0)]) ∧
    (s.role = .standby → ¬ heard → n + 2 ≤ s.gong.frame → s.pair.joining = true → s.pair.bulkEnd = true → Does (.ackMiss n) s failed) ∧
    (s.gong.frame < n + 2 ∨ (s.role = .active ∧ n ∉ s.pair.await) ∨ (s.role = .standby ∧ (heard ∨ waits)) ∨ (s.role ≠ .active ∧ s.role ≠ .standby) →
      Ignored (.ackMiss n) s) ∧
    (s.role = .standby → waits → fmt = s.copyfmt ∨ s.pair.bulkB ≠ none → Does (.bulkReceive b fmt total mib l) s fun t =>
      ∃ u : State, t = l.foldl (fun t i => t.applyBulk b i) u ∧ u = { s with regs := u.regs, pair := { s.pair with bulkB := some b } } ∧
        FieldsSet s u [(R.PAIR.JOIN.TOTAL, total), (R.PAIR.JOIN.DONE, mib)]) ∧
    (s.role = .standby → waits → fmt ≠ s.copyfmt → s.pair.bulkB = none → Does (.bulkReceive b fmt total mib l) s failed) ∧
    (s.pair.joining = false ∨ s.pair.bulkEnd = true → Ignored (.bulkReceive b fmt total mib l) s) ∧
    (s.role = .standby → s.pair.joining = true → s.pair.bulkB = some b → Does (.bulkendReceive b) s fun t =>
      t = (s.pair.ended.filter fun e => decide (b < e.n)).foldl State.endCopy
        { s with pair := { s.pair with bulkEnd := true, ended := [], held := s.pair.held.filter fun h => decide (b < h.1) } }) ∧
    (s.pair.joining = false ∨ s.pair.bulkB ≠ some b → Ignored (.bulkendReceive b) s) ∧
    (s.role = .standby → Does (.ctrlReceive h) s fun t => t = { s with pair := { s.pair with handover := some h } }) ∧
    (Sets (.geyserLaneUp 0) s [(R.PAIR.ROLE.LANES, s.get R.PAIR.ROLE.LANES / 2 * 2 + 1)]) ∧
    (Sets (.geyserLaneUp 1) s [(R.PAIR.ROLE.LANES, s.get R.PAIR.ROLE.LANES % 2 + 2)]) ∧
    (Sets (.geyserLaneLoss lane) s [(R.PAIR.ROLE.LANES, if lane = 0 then s.get R.PAIR.ROLE.LANES / 2 * 2 else s.get R.PAIR.ROLE.LANES % 2),
      (if lane = 0 then R.PAIR.FLAG.LANE0 else R.PAIR.FLAG.LANE1, 1)])

/-- R214 to R218, R220, R221, Tables 9-1, 9-2 and 16-6: inputs of the safety I/O. A sample is on, off or as the one before by the thresholds of its class;
samples in the pulse of the input's own source or within 100 µs after it are masked; the accepted level changes when unmasked samples at the
new level have accumulated for FILT, each for 10 µs, and the runs of samples in the band, above the overvoltage limit and below it are kept, of unmasked samples
(log 27). A fault that the state shows and that is not yet present is shown with the lowest
code, counted and recorded, XTP names the crossing source, and a guard's proof is lost; a fault is cleared after 100 ms outside the band or below the limit, of codes 2 and 3 after
two good pulses of the own source, and shows what remains; a pair that stays discrepant latches its fault. An input that is off, or a fault it does not show, changes
nothing. -/
def Obligations.InputsAndPairsFollowTheirRules : Prop :=
  ∀ (s : State) (i : Fin 16) (code : Fin 5) (xtp n k : Fin 8) (x : Nat) (xs : List Nat),
    let m := s.get (R.SIO.ICFG.MODE i.val)
    let vc := s.get (R.SIO.ICFG.VCLASS i.val)
    let on : Prop := (m = 1 ∧ vc < 5) ∨ (m = 2 ∧ vc = 0)
    let p := s.inp i
    let lowest (l : List Nat) (c : Nat) : Prop := (l = [] → c = 0) ∧ (l ≠ [] → c ∈ l ∧ ∀ d ∈ l, c ≤ d)
    let src (j : Fin 16) : Fin 8 := Fin.ofNat 8 j.val
    let band := ([(5000, 14000), (7200, 21000), (9600, 28000), (14400, 42000), (22000, 64000)] : List (Nat × Nat)).getD vc (22000, 64000)
    let raw := if band.2 ≤ x then true else if x ≤ band.1 then false else p.raw
    let masked : Prop := m = 2 ∧ (s.sio.tpOff[src i] = true ∨ s.nowNs < s.sio.maskNs[src i])
    let limit := ([33600, 50400, 67200, 100800, 154000] : List Nat).getD vc 154000
    let more (r : Run) (b : Bool) : Run := ⟨b, if r.on = b then r.n + 1 else 1⟩
    let q : InSt := { p with band := more p.band (decide (band.1 < x ∧ x < band.2)), high := more p.high (decide (limit < x)),
                             low := more p.low (decide (x < limit)) }
    let enough : Prop := s.get (R.SIO.ICFG.FILT i.val) * 100 ≤ (p.acc + 1) * 10
    let shows : Prop := on ∧ ((code.val = 1 ∧ p.band.on = true ∧ 10000 ≤ p.band.n) ∨ (code.val = 4 ∧ p.high.on = true ∧ 100 ≤ p.high.n) ∨
      (code.val = 2 ∧ m = 2 ∧ s.sio.tpOff[src i] = true ∧ p.raw = true) ∨
      (code.val = 3 ∧ m = 2 ∧ xtp ≠ src i ∧ s.sio.tpOff[xtp] = true ∧ p.before = true ∧ p.raw = false))
    let passed : Prop := (code.val = 1 → p.band.on = false ∧ 10000 ≤ p.band.n) ∧ (code.val = 2 → 2 ≤ p.passed) ∧ (code.val = 3 → 2 ≤ p.uncrossed) ∧
      (code.val = 4 → p.low.on = true ∧ 10000 ≤ p.low.n)
    let others (t : State) : Prop :=
      (∀ j, j ≠ i → t.inp j = s.inp j) ∧ t.sio.outs = s.sio.outs ∧ t.sio.tpOff = s.sio.tpOff ∧ t.sio.maskNs = s.sio.maskNs
    let shown (t : State) (q : InSt) (l : List Nat) : Prop :=
      t.inp i = { q with faults := l } ∧ others t ∧ t.bit R.SIO.IFAULT.INPUT i.val = (l != []) ∧
      (∀ j, j < 16 → j ≠ i.val → t.bit R.SIO.IFAULT.INPUT j = s.bit R.SIO.IFAULT.INPUT j)
    let proven := s.bit R.SIO.ISTATE.PROVEN i.val
    let discrepant : Prop :=
      (s.get (R.SIO.PCFG.MODE k.val) = 1 ∧ s.inLevel (2 * k.val) ≠ s.inLevel (2 * k.val + 1)) ∨
      (s.get (R.SIO.PCFG.MODE k.val) = 2 ∧ s.inLevel (2 * k.val) = s.inLevel (2 * k.val + 1))
    (on → Does (.inputLevelAccepted i [x]) s fun t => t = { s with sio := t.sio } ∧ others t ∧
      (masked → t.inp i = { p with raw := raw }) ∧
      (¬ masked → raw = p.level → t.inp i = { q with raw := raw, acc := 0 }) ∧
      (¬ masked → raw ≠ p.level → enough → t.inp i = { q with raw := raw, acc := 0, level := raw }) ∧
      (¬ masked → raw ≠ p.level → ¬ enough → t.inp i = { q with raw := raw, acc := p.acc + 1 }) ∧
      exec (.inputLevelAccepted i (x :: xs)) s = exec (.inputLevelAccepted i xs) t) ∧
    (¬ on → Ignored (.inputLevelAccepted i xs) s ∧ Ignored (.inputFaultDetected i code xtp) s) ∧
    (shows → code.val ∉ p.faults → (∀ f ∈ p.faults, f ≠ 0) → Does (.inputFaultDetected i code xtp) s fun t =>
      t = { s with regs := t.regs, fum := t.fum, fumPos := t.fumPos, sio := t.sio } ∧
      shown t { p with passed := if code.val = 2 then 0 else p.passed, uncrossed := if code.val = 3 then 0 else p.uncrossed } (code.val :: p.faults) ∧
      lowest (code.val :: p.faults) (t.get (R.SIO.IDIAG.FAULT i.val)) ∧
      t.get (R.SIO.IDIAG.FCOUNT i.val) = min (s.get (R.SIO.IDIAG.FCOUNT i.val) + 1) 65535 ∧ t.get R.SIO.FLAG.IFLT = 1 ∧
      t.get (R.SIO.IDIAG.XTP i.val) = (if code.val = 3 then xtp.val else s.get (R.SIO.IDIAG.XTP i.val)) ∧
      t.bit R.SIO.ISTATE.PROVEN i.val = false ∧ (proven = true → t.get R.SIO.FLAG.PROOFLOSS = 1) ∧
      (proven = false → t.get R.SIO.FLAG.PROOFLOSS = s.get R.SIO.FLAG.PROOFLOSS) ∧
      Recorded s t 0x08 0x08 code.val (leBytes 1 0 ++ leBytes 1 i.val)) ∧
    (¬ shows ∨ code.val ∈ p.faults → Ignored (.inputFaultDetected i code xtp) s) ∧
    (code.val ≠ 0 → ¬ passed → Ignored (.inputFaultCleared i code) s) ∧
    (code.val ≠ 0 → passed → (∀ f ∈ p.faults, 1 ≤ f ∧ f ≤ 4) → Does (.inputFaultCleared i code) s fun t =>
      t = { s with regs := t.regs, sio := t.sio } ∧ shown t p (p.faults.filter fun c => c != code.val) ∧
      lowest (p.faults.filter fun c => c != code.val) (t.get (R.SIO.IDIAG.FAULT i.val)) ∧
      RegsKept s t [(R.SIO.IDIAG.FAULT i.val).off, R.SIO.IFAULT.INPUT.off]) ∧
    (Does (.testPulseStart n) s fun t => t = { s with sio := { s.sio with tpOff := s.sio.tpOff.set n true, ins := t.sio.ins } } ∧
      ∀ j, t.inp j = if src j = n then s.inp j else { s.inp j with before := (s.inp j).raw }) ∧
    (Does (.testPulseEnd n) s fun t =>
      t = { s with sio := { s.sio with tpOff := s.sio.tpOff.set n false, maskNs := s.sio.maskNs.set n (s.nowNs + 100000), ins := t.sio.ins } } ∧
      ∀ j, let q := s.inp j
        (src j = n → q.raw = true → t.inp j = { q with passed := 0, uncrossed := 0 }) ∧
        (src j = n → q.raw = false → t.inp j = { q with passed := q.passed + 1, uncrossed := q.uncrossed + 1 }) ∧
        (src j ≠ n → q.before = true → q.raw = false → t.inp j = { q with uncrossed := 0 }) ∧
        (src j ≠ n → q.before = false ∨ q.raw = true → t.inp j = q)) ∧
    (discrepant → s.bit R.SIO.IFAULT.PAIR k.val = false → Does (.pairDiscrepancyFault k) s fun t =>
      t = { s with regs := t.regs, fum := t.fum, fumPos := t.fumPos } ∧ t.bit R.SIO.IFAULT.PAIR k.val = true ∧
      (∀ j, j < 8 → j ≠ k.val → t.bit R.SIO.IFAULT.PAIR j = s.bit R.SIO.IFAULT.PAIR j) ∧ t.get R.SIO.FLAG.PFLT = 1 ∧
      Recorded s t 0x08 0x08 1 (leBytes 1 1 ++ leBytes 1 k.val)) ∧
    (¬ discrepant ∨ s.bit R.SIO.IFAULT.PAIR k.val = true → Ignored (.pairDiscrepancyFault k) s)

/-- R227 to R230, Tables 9-5 and 9-14: outputs of the safety I/O. A pulse is given on an energised output, or postponed while a change is pending or less than 2 ms old; at its end
the switch sensed open counts it, sensed closed latches the output off; a fault counts where the output's demand and switches allow it: a stuck switch
while the output is off or in a pulse of that switch, one that fails to close not in a pulse of its own; faults 1, 2, 4 and 5 latch, overcurrent opens and its third trip in 60 s latches, an external voltage and an open load are shown; of several faults present the one detected last is
shown, and one that has gone no longer (log 27). CLRFLT releases the latched outputs of its mask in DEPOT or MANUFACTURE. -/
def Obligations.OutputsFollowTheirRules : Prop :=
  ∀ (s : State) (o : Fin 8) (code : Fin 8) (hs opened : Bool) (r : Req) (mask : Byte),
    let p := s.outp o
    let act := s.bit R.SIO.OSTATE.ACT o.val
    let dem := s.bit R.SIO.OSTATE.DEM o.val
    let rest (q : Fin 8) (gone : List Nat) := (s.outp q).faults.filter fun c => !gone.contains c
    let free : Prop := s.bit R.SIO.OSTATE.LATCH o.val = false ∧ p.oc = false ∧ s.sup.latch = false ∧ s.sup.startHold = false
    let stuck : Prop := act = false ∨ p.pulse = some (decide (code.val = 1))
    let pulsed : Prop := p.pulse = some (decide (code.val = 4))
    let start := Instr.outputTestPulseStart o
    let others (t : State) : Prop := (∀ q, q ≠ o → t.outp q = s.outp q) ∧ t.sio.ins = s.sio.ins ∧ t.sio.tpOff = s.sio.tpOff
    let young : Prop := p.pend.isSome = true ∨ s.nowNs < p.changeNs + 2000000
    let bits (t : State) (f : Fld) (b : Bool) : Prop := t.bit f o.val = b ∧ ∀ q, q < 8 → q ≠ o.val → t.bit f q = s.bit f q
    let latched (t : State) (code : Nat) : Prop :=
      bits t R.SIO.OSTATE.LATCH true ∧ bits t R.SIO.OSTATE.ACT false ∧ t.get (R.SIO.ODIAG.LATCHED o.val) = 1 ∧
      t.get (R.SIO.ODIAG.FAULT o.val) = code ∧ t.get R.SIO.FLAG.OFLT = 1 ∧ Recorded s t 0x08 0x08 code (leBytes 1 2 ++ leBytes 1 o.val)
    let recent := p.trips.filter fun t => decide (s.nowNs < t + 60000000000)
    let clr := Instr.clrflt r mask
    let why := firstReason [(2, s.mstate != .run && s.mstate != .safe), (3, !s.depot), (4, s.get R.SIO.OSTATE.LATCH &&& mask.toNat == 0)]
    (act = true → p.pulse = none → ¬ young → p.postponed = none → Does start s fun t =>
      t = { s with regs := t.regs, sio := t.sio } ∧ others t ∧ t.outp o = { p with pulse := some p.nextHs, met := false } ∧
      bits t R.SIO.OSTATE.PULSE true ∧ RegsKept s t [R.SIO.OSTATE.PULSE.off]) ∧
    (act = true → p.pulse = none → young → p.postponed = none → Does start s fun t =>
      t = { s with sio := t.sio } ∧ others t ∧ ∃ j, t.outp o = { p with postponed := some j }) ∧
    (act = false ∨ p.pulse.isSome = true → Does start s fun t => t = { s with sio := t.sio } ∧ others t ∧ t.outp o = { p with postponed := none }) ∧
    (p.pulse = none → Ignored (.outputTestPulseEnd o opened) s) ∧
    (p.pulse = some hs → Does (.outputTestPulseEnd o true) s fun t =>
      t = { s with regs := t.regs, sio := t.sio } ∧ others t ∧ t.outp o = { p with pulse := none, met := false, nextHs := !hs } ∧
      bits t R.SIO.OSTATE.PULSE false ∧ t.get (R.SIO.ODIAG.PCNT o.val) = (s.get (R.SIO.ODIAG.PCNT o.val) + 1) % 65536) ∧
    (p.pulse = some hs → Does (.outputTestPulseEnd o false) s fun t =>
      let c := if hs then 1 else 2
      others t ∧ t.outp o = { p with pulse := none, met := false, nextHs := !hs, faults := c :: rest o [c] } ∧ latched t c) ∧
    ((code.val ∈ [1, 2] ∧ stuck) ∨ (code.val ∈ [4, 5] ∧ dem = true ∧ free ∧ ¬ pulsed) → Does (.outputFaultDetected o code) s fun t =>
      t = { s with regs := t.regs, fum := t.fum, fumPos := t.fumPos, sio := t.sio } ∧ others t ∧
      t.outp o = { p with faults := code.val :: rest o [code.val] } ∧ latched t code.val) ∧
    (code.val = 0 ∨ (code.val ∈ [1, 2] ∧ ¬ stuck) ∨ (code.val ∈ [3, 4, 5] ∧ (dem = false ∨ ¬ free)) ∨
      (code.val ∈ [4, 5] ∧ pulsed) → Ignored (.outputFaultDetected o code) s) ∧
    (dem = true → free → Does (.outputFaultDetected o 3) s fun t =>
      others t ∧ t.outp o = { p with oc := true, trips := s.nowNs :: recent, faults := 3 :: rest o [3] } ∧ bits t R.SIO.OSTATE.ACT false ∧
      t.get (R.SIO.ODIAG.TRIPS o.val) = (recent.length + 1) % 16 ∧ t.get (R.SIO.ODIAG.FAULT o.val) = 3 ∧ t.get R.SIO.FLAG.OFLT = 1 ∧
      (2 ≤ recent.length → bits t R.SIO.OSTATE.LATCH true) ∧ (recent.length < 2 → t.get R.SIO.OSTATE.LATCH = s.get R.SIO.OSTATE.LATCH)) ∧
    (act = false → s.get (R.SIO.OCFG.PAIRW o.val) = 0 → Does (.outputFaultDetected o 6) s fun t =>
      others t ∧ t.outp o = { p with faults := 6 :: rest o [6] } ∧ t.get (R.SIO.ODIAG.FAULT o.val) = 6 ∧ t.get R.SIO.FLAG.OFLT = 1) ∧
    (act = true ∨ s.get (R.SIO.OCFG.PAIRW o.val) = 1 → Ignored (.outputFaultDetected o 6) s) ∧
    (act = true → s.get (R.SIO.OCFG.OPENLD o.val) = 1 → Sets (.outputFaultDetected o 7) s [(R.SIO.ODIAG.OPEN o.val, 1)]) ∧
    (act = false ∨ s.get (R.SIO.OCFG.OPENLD o.val) = 0 → Ignored (.outputFaultDetected o 7) s) ∧
    (dem = false → Does (.overcurrentRelease o) s fun t => t = { s with regs := t.regs, sio := t.sio } ∧ others t ∧
      (s.bit R.SIO.OSTATE.LATCH o.val = true → t.outp o = { p with oc := false } ∧ t.regs = s.regs) ∧
      (s.bit R.SIO.OSTATE.LATCH o.val = false → t.outp o = { p with oc := false, faults := rest o [3] } ∧
        FieldsSet s t [(R.SIO.ODIAG.FAULT o.val, (rest o [3]).headD 0)])) ∧
    (dem = true → Ignored (.overcurrentRelease o) s) ∧
    (Does (.outputFaultCleared o 6) s fun t => t = { s with regs := t.regs, sio := t.sio } ∧ others t ∧ t.outp o = { p with faults := rest o [6] } ∧
      FieldsSet s t [(R.SIO.ODIAG.FAULT o.val, (rest o [6]).headD 0)]) ∧
    (Sets (.outputFaultCleared o 7) s [(R.SIO.ODIAG.OPEN o.val, 0)]) ∧
    (s.steward r = false → Ignored clr s) ∧ (s.steward r = true → why ≠ 0 → Sets clr s [(R.SIO.REASON.CODE, why)]) ∧
    (s.steward r = true → why = 0 → Does clr s fun t =>
      t = { s with regs := t.regs, sio := t.sio } ∧ t.get R.SIO.REASON.CODE = 0 ∧ t.get R.SIO.CMDCNT.COUNT = (s.get R.SIO.CMDCNT.COUNT + 1) % 2 ^ 32 ∧
      ∀ q : Fin 8,
        (mask.getLsbD q.val = true → t.bit R.SIO.OSTATE.LATCH q.val = false ∧ t.get (R.SIO.ODIAG.LATCHED q.val) = 0 ∧
          (let l := rest q ([1, 2, 4, 5] ++ if (s.outp q).oc then [] else [3])
           t.get (R.SIO.ODIAG.TRIPS q.val) = 0 ∧ t.get (R.SIO.ODIAG.FAULT q.val) = l.headD 0 % 8 ∧
             t.outp q = { s.outp q with trips := [], faults := l }) ∧
          t.bit R.SIO.OSTATE.ACT q.val = (s.bit R.SIO.OSTATE.DEM q.val && !(s.outp q).oc && !s.sup.latch && !s.sup.startHold)) ∧
        (mask.getLsbD q.val = false → t.outp q = s.outp q ∧ t.bit R.SIO.OSTATE.LATCH q.val = s.bit R.SIO.OSTATE.LATCH q.val ∧
          t.bit R.SIO.OSTATE.ACT q.val = s.bit R.SIO.OSTATE.ACT q.val))

/-- R231 to R237, Tables 9-7 and 9-8: the wheel-speed sensors. A change of level of an enabled sensor's phase, by the bands of its mode, is an edge: counted and
timestamped to 25 ns with its direction unless within 2 µs of the previous one on the phase. Faults that the phases show no longer are gone. A fault of Table 9-7
that the sensor shows makes it lost: where it was in use the speed is single
on the other, if that is good and SSUSED below SSLIM, else unknown, and standstill is then not proven. A sensor is good again after 10 s of RUN without a fault, normal
mode begins with both good and plausible; discrepancy and the limit make the speed unknown; SSUSED warns and is reset in normal mode. That an
edge not counted still moves the phase's level and last edge, that DISCR is set at PLTIME, how long code 3 is present, and which of two faults is shown rest on
log 27. -/
def Obligations.WheelSensorsDriveTheSpeedMode : Prop :=
  ∀ (s : State) (n : Fin 2) (phaseB : Bool) (code : Fin 6) (x : Nat),
    let cfg := s.get (if n = 0 then R.SPD.SCFG.S0 else R.SPD.SCFG.S1)
    let on : Prop := cfg % 2 = 1
    let mode := s.get R.SPD.STATUS.MODE
    let used := s.get R.SPD.SSUSED.SEC
    let lim := s.get R.SPD.SSLIM.MIN
    let limit := (if 1 ≤ lim ∧ lim ≤ 240 then lim else 30) * 60
    let own := if n = 0 then 1 else 2
    let ok := okFld n
    let v := s.sen n
    let other := 3 - own
    let otherOk := s.get (if n = 0 then R.SPD.STATUS.S1OK else R.SPD.STATUS.S0OK)
    let now := s.nowNs
    let volt : Prop := cfg / 2 % 2 = 1
    let was := if phaseB then v.pb else v.pa
    let band := if volt then (3000, 7000) else (10500, 10500)
    let level := if x < band.1 then false else if band.2 < x then true else was.level
    let bad : Prop := if volt then 3000 ≤ x ∧ x ≤ 7000 else x < 5000 ∨ 17000 < x
    let soon : Prop := ∃ t, was.last = some t ∧ now < t + 2000
    let edge := Instr.wheelSpeedEdge n phaseB x
    let put (p : PhaseSt) : SenSt := if phaseB then { v with pb := p } else { v with pa := p }
    let q : PhaseSt := { was with
      level := level, last := if level = was.level then was.last else some now, zone := if bad then some (was.zone.getD now) else none }
    let fast : Option Nat := match was.counted with
      | [_, e] => if now < e + 50000 then some (was.fast.getD now) else none
      | _ => none
    let fwd : Bool := (if phaseB then v.pa.level == level else level != v.pb.level) ^^ decide (cfg / 4 % 2 = 1)
    let counted : SenSt := { put { q with counted := (now :: was.counted).take 2, fast := fast } with
      edges := (now / 25 * 25 :: v.edges).take 2, dirs := (fwd :: v.dirs).take 8, run := ⟨phaseB, if v.run.on = phaseB then v.run.n + 1 else 1⟩ }
    let standing (t : Option Nat) : Prop := ∃ z, t = some z ∧ z + 1000000 ≤ now
    let present (w : SenSt) (code : Nat) : Prop := match code with
      | 1 => standing w.pa.zone
      | 2 => standing w.pb.zone
      | 3 => ∃ a b, w.pa.last = some a ∧ w.pb.last = some b ∧ a ≤ b + 1000 ∧ b ≤ a + 1000 ∧ s.gong.tick ≤ max a b
      | 4 => 16 < w.run.n
      | 5 => ∃ p ∈ [w.pa, w.pb], standing p.fast ∧ ∃ u, p.counted.head? = some u ∧ now < u + 50000
      | _ => False
    let only (t : State) : Prop := t = { s with regs := t.regs, fum := t.fum, fumPos := t.fumPos, spd := t.spd } ∧ (∀ k, k ≠ n → t.sen k = s.sen k) ∧
      t.spd.runNs = s.spd.runNs ∧ t.spd.below = s.spd.below
    let settled (w : SenSt) (more : List (Fld × Nat)) (t : State) : Prop := only t ∧ t.fum = s.fum ∧ ∃ l, l.Sublist w.faults ∧
      (∀ c, c ∈ l ↔ c ∈ w.faults ∧ present w c) ∧ t.sen n = { w with faults := l, goodFrom := if w.faults ≠ [] ∧ l = [] then now else w.goodFrom } ∧
      FieldsSet s t ((R.SPD.SDIAG.FAULT n.val, l.headD 0) :: more)
    let quiet : Prop := s.mstate = .run ∧ v.faults = [] ∧ max s.spd.runNs v.goodFrom + 10000000000 ≤ now ∧
      ¬ (s.get R.BIST.STATUS.RUN = 1 ∧ s.get R.BIST.STATUS.TEST = 6)
    let unknown (cause : Nat) := [(R.SPD.STATUS.MODE, 3), (R.SPD.STATUS.UCAUSE, cause), (R.SPD.STATUS.STILL, 0), (R.SPD.FLAG.UNKNOWN, 1)]
    let faulty (more : List (Fld × Nat)) : Prop := Does (.sensorFault n code) s fun t =>
      only t ∧ t.sen n = { v with faults := code.val :: v.faults } ∧
      FieldsSet s t ([(R.SPD.SDIAG.FAULT n.val, code.val), (R.SPD.SDIAG.FCOUNT n.val, min (s.get (R.SPD.SDIAG.FCOUNT n.val) + 1) 65535), (ok, 0),
        (R.SUP.FUMSEQ.SEQ, s.get R.SUP.FUMSEQ.SEQ + 1)] ++ more) ∧ Recorded s t 0x08 0x09 code.val (leBytes 1 3 ++ leBytes 1 n.val)
    (on → level ≠ was.level → ¬ soon → Does edge s (settled counted [(R.SPD.EDGES.COUNT n.val, s.get (R.SPD.EDGES.COUNT n.val) + 1)])) ∧
    (on → level = was.level ∨ soon → Does edge s (settled (put q) [])) ∧
    (¬ on → Ignored edge s ∧ Ignored (.sensorFault n code) s ∧ Ignored (.sensorGood n) s) ∧
    (on → present v code.val → code.val ∉ v.faults →
      (mode = 0 ∨ mode = own → otherOk = 1 → used < limit → faulty [(R.SPD.STATUS.MODE, other), (R.SPD.FLAG.SINGLE, 1)]) ∧
      (mode = 0 ∨ mode = own → otherOk = 1 → limit ≤ used → faulty (unknown 2)) ∧
      (mode = 0 ∨ mode = own → otherOk = 0 → faulty (unknown 3)) ∧ (mode = 3 ∨ mode = other → faulty [])) ∧
    (¬ present v code.val ∨ code.val ∈ v.faults → Ignored (.sensorFault n code) s) ∧
    (on → quiet → Sets (.sensorGood n) s [(ok, 1)]) ∧ (¬ quiet → Ignored (.sensorGood n) s) ∧
    (s.get R.SPD.STATUS.S0OK = 1 → s.get R.SPD.STATUS.S1OK = 1 → s.mstate = .run → s.spdDiscrepant s.gong.tick = false →
      Sets .speedNormalEntry s [(R.SPD.STATUS.MODE, 0), (R.SPD.STATUS.UCAUSE, 0)]) ∧
    (s.get R.SPD.STATUS.S0OK = 0 ∨ s.get R.SPD.STATUS.S1OK = 0 ∨ s.mstate ≠ .run ∨ s.spdDiscrepant s.gong.tick = true → Ignored .speedNormalEntry s) ∧
    (mode = 0 → s.spdDiscrepant s.gong.tick = true → Sets .speedDiscrepancyTimeout s ((R.SPD.FLAG.DISCR, 1) :: unknown 1)) ∧
    (s.spdDiscrepant s.gong.tick = false → Ignored .speedDiscrepancyTimeout s) ∧ (mode = 0 → Sets .ssusedReset s [(R.SPD.SSUSED.SEC, 0)]) ∧
    (mode ≠ 0 → Ignored .speedDiscrepancyTimeout s ∧ Ignored .ssusedReset s) ∧
    (mode = 1 ∨ mode = 2 → limit ≤ used → Sets .singleSensorLimit s (unknown 2)) ∧
    (mode = 0 ∨ mode = 3 ∨ used < limit → Ignored .singleSensorLimit s) ∧
    (9 * limit ≤ 10 * used → Sets .ssusedWarning s [(R.SPD.FLAG.SSWARN, 1)]) ∧ (10 * used < 9 * limit → Ignored .ssusedWarning s)

/-- R242, R243, R245, R249, R262, R263, R278 to R281, R288: transmission. The telegram with the earliest launch instant, and there of the lowest entry,
leaves at that instant with the next sequence number, by the ports of the mode or where the bridge has learned its destination; it is counted,
with PDLATE where later than TOL, and none is dropped for lateness; where transmit is not permitted it is dropped. The descriptor at the tail of a
transmit ring is finished by the hardware: sent with status 0, or not sent with 1 late, 2 not permitted, 3 malformed, as a ONESTEP frame over UDP too short for a PTP event message is; it waits where it would
still be on the wire at a publish launch instant; its word 0 and timestamp are written back and TAIL advances. Ring indexes are the steward's where
software produces or consumes, modulo the ring's size; TAIL of an event ring is not. A timed descriptor leaves at its time; a later one is counted, and sent only where
the ring's policy is SEND (R281, Table 11-3). The bridge sends no frame back to the side of its destination or on from the module's own address. STAT 2 for a
port that is switched off, the time on the wire of 8 ns a byte with preamble, check sequence and trailer, and indexes modulo the size in force rest on log 29. -/
def Obligations.FramesAreSentAndRingsAdvance : Prop :=
  ∀ (s : State) (i : Nat) (skew due : Nat) (c : PdCap) (n : Fin 3) (r : Req) (ring : Fin 64) (v : BitVec 16) (toX2 ptp : Bool)
    (mac dst : BitVec 48) (corr res : BitVec 64) (x2 up lanB : Bool),
    let mode := s.get R.NET.STATUS.APMODE
    let txOpen : Prop := (s.mstate = .init ∨ s.mstate = .run) ∧ s.sup.latch = false ∧ ¬ (s.get R.BIST.STATUS.RUN = 1 ∧ s.get R.BIST.STATUS.TEST = 7)
    let txen : Prop := s.mstate = .run ∧ s.leads = true ∧ s.get R.ID.ASTAT.ADDR = 1 ∧ s.sup.latch = false
    let rct := s.net.rctSeq + (if mode = 0 then 1 else 0)
    let trl := if mode = 0 then some s.net.rctSeq else none
    let launch := Instr.pdTelegramLaunch
    let others := { s with net := { s.net with caps := s.net.caps.erase c } }
    let first : Prop := c ∈ s.net.caps ∧ c.due = some due ∧ ∀ x ∈ s.net.caps, x = c ∨ ∀ d, x.due = some d → due < d ∨ (due = d ∧ c.idx < x.idx)
    let q := 16 + n.val
    let a := s.ringAddr q (s.get (R.NET.TAIL.INDEX q))
    let w0 := s.ringWord q 0
    let len := w0 % 2 ^ 16
    let buf := (s.ringWord q 2 + 2 ^ 32 * s.ringWord q 3) % 2 ^ 40
    let at_ := s.ringWord q 4 + 2 ^ 32 * s.ringWord q 5
    let port := w0 / 2 ^ 28 % 4
    let frame := dmaBytes s.smem buf len
    let ports := if port = 0 then s.portsTo (BitVec.ofNat 48 (beNat (bytesAt frame 0 6))) else [port].filter fun p => s.ports.contains p
    let sound : Prop := port ≠ 3 ∧ 60 ≤ len ∧ len ≤ 1522 ∧ w0 / 2 ^ 26 % 2 = 0
    let timed : Prop := w0 / 2 ^ 30 % 2 = 1
    let finished (out : List Out) (rct : BitVec 16) (stat late : Nat) : Prop := Does (.txDescriptorLaunch n skew) s fun t =>
      t = { s with regs := t.regs, smem := t.smem, out := out, net := { s.net with rctSeq := rct, headNs := t.net.headNs } } ∧
      FieldsSet s t [(R.NET.TAIL.INDEX q, (s.get (R.NET.TAIL.INDEX q) + 1) % s.ringN q),
        (R.TIME.LATECNT.COUNT, min (s.get R.TIME.LATECNT.COUNT + late) (2 ^ 32 - 1))] ∧
      ((∀ b, a ≤ b → b < a + 32 → smemMapped b = true) →
        leNat (memBytes t.smem a 4) = 2 ^ 31 + 2 ^ 26 * (w0 / 2 ^ 26 % 2 ^ 5) + 2 ^ 24 * stat + w0 % 2 ^ 24) ∧
      (∀ b, (b < a ∨ a + 4 ≤ b) → (b < a + 24 ∨ a + 32 ≤ b) → memGet t.smem b = memGet s.smem b)
    let log := s.get (R.NET.RCFG.LOG2N ring.val)
    let size := 2 ^ (if ring.val = 10 ∨ log < 4 ∨ 14 < log then 4 else log)
    let known := s.net.fdb.filter fun e => decide (s.nowNs < e.2.2 + 300000000000) && e.1 != mac
    let same : Bool := decide (dst = s.portMac false) || (decide (dst = mac) && decide (known.length < 1024)) || known.any fun e => e.1 = dst && e.2.1 = !toX2
    let wire := 8 * (len + 12 + if mode = 0 then 6 else 0)
    let clear : Prop := ∀ d ∈ s.pubInstants ports, s.nowNs + wire ≤ d
    let sent (stat late : Nat) : Prop := finished ((ports.map fun p => Out.frame q p trl frame).reverse ++ s.out) rct stat late
    let drops : Prop := s.get R.TIME.LATECFG.POL / 2 ^ n.val % 2 = 1
    let link := if x2 then R.NET.STATUS.LINK2 else R.NET.STATUS.LINK1
    let lost : Prop := ∃ p ∈ s.net.heard, p.mac = mac ∧ ∃ x y, p.a = some x ∧ p.b = some y ∧ (if lanB then y < x else x < y)
    ((∀ c ∈ s.net.caps, c.due = none) → Ignored launch s) ∧
    (first → s.nowNs < due → Ignored launch s) ∧
    (first → due ≤ s.nowNs → txen → Does launch s fun t =>
      t.out = .pd c.idx (s.portsTo (destMac ((s.pubE c.idx).getD 2 0))) (s.portMac false) trl c.etb c.op (s.pubS c.idx).seq c.data :: s.out ∧
      t.net.caps = s.net.caps.erase c ∧ t.net.rctSeq = rct ∧
      t.pubS c.idx = { s.pubS c.idx with seq := (s.pubS c.idx).seq + 1, lastF := BitVec.ofNat 32 s.gong.frame } ∧
      FieldsSet s t ([(R.NET.TXPD.COUNT, s.get R.NET.TXPD.COUNT + 1)] ++
        if due + s.tolNs < s.nowNs then [(R.TIME.PDLATE.COUNT, min (s.get R.TIME.PDLATE.COUNT + 1) (2 ^ 32 - 1))] else [])) ∧
    (first → due ≤ s.nowNs → ¬ txen → Does launch s fun t => t = others) ∧
    (s.ringOn q = false ∨ s.ringEmpty q = true → Ignored (.txDescriptorLaunch n skew) s) ∧
    (s.ringOn q = true → s.ringEmpty q = false →
      (¬ txOpen → finished s.out s.net.rctSeq 2 0) ∧
      (txOpen → port = 3 ∨ len < 60 ∨ 1522 < len ∨ (w0 / 2 ^ 26 % 2 = 1 ∧ s.get R.TIME.CFG.TRANS = 0 ∧ len < 86) ∨ (timed ∧ s.net.headNs[n] + 1000000000 < at_) → finished s.out s.net.rctSeq 3 0) ∧
      (txOpen → sound → ¬ timed ∨ at_ ≤ s.net.headNs[n] + 1000000000 → ports = [] → finished s.out s.net.rctSeq 2 0) ∧
      (txOpen → sound → timed → at_ ≤ s.net.headNs[n] + 1000000000 → ports ≠ [] → s.nowNs < at_ → Ignored (.txDescriptorLaunch n skew) s) ∧
      ((∀ m, 16 ≤ m → m < q → s.ringOn m = false ∨ s.ringEmpty m = true) → txOpen → sound → ports ≠ [] →
        (¬ timed → clear → sent 0 0) ∧
        (¬ timed ∨ (at_ ≤ s.net.headNs[n] + 1000000000 ∧ (s.nowNs ≤ at_ + s.tolNs ∨ ¬ drops)) → ¬ clear → Ignored (.txDescriptorLaunch n skew) s) ∧
        (timed → at_ ≤ s.net.headNs[n] + 1000000000 →
          (at_ ≤ s.nowNs → s.nowNs ≤ at_ + s.tolNs → clear → sent 0 0) ∧
          (at_ + s.tolNs < s.nowNs → drops → finished s.out s.net.rctSeq 1 1) ∧
          (at_ + s.tolNs < s.nowNs → ¬ drops → clear → sent 1 1)))) ∧
    (s.steward r = true → s.get (R.NET.RCFG.DIR ring.val) = 1 ∨ 32 ≤ ring.val → Does (.ringHeadWrite r ring v) s fun t =>
      t = { s with regs := t.regs, net := { s.net with headNs := t.net.headNs } } ∧ FieldsSet s t [(R.NET.HEAD.INDEX ring.val, v.toNat % size)] ∧
      (ring.val < 16 ∨ 18 < ring.val ∨ s.ringEmpty ring.val = false → t.net = s.net)) ∧
    (s.steward r = false ∨ (s.get (R.NET.RCFG.DIR ring.val) = 0 ∧ ring.val < 32) → Ignored (.ringHeadWrite r ring v) s) ∧
    (s.steward r = true → s.get (R.NET.RCFG.DIR ring.val) = 0 → 10 ≤ ring.val →
      Sets (.ringTailWrite r ring v) s [(R.NET.TAIL.INDEX ring.val, v.toNat % size)]) ∧
    (s.steward r = false ∨ s.get (R.NET.RCFG.DIR ring.val) = 1 ∨ ring.val < 10 → Ignored (.ringTailWrite r ring v) s) ∧
    (mode = 1 → txOpen → same = false → Does (.bridgeForward toX2 mac dst ptp corr res) s fun t =>
      t = { s with net := { s.net with fdb := t.net.fdb }, out := t.out } ∧
      t.out = .forward toX2 mac dst (if ptp = true ∧ s.get R.NET.CFG.TCEN = 1 then corr + res else corr) :: s.out) ∧
    (mode = 1 → txOpen → same = true → Does (.bridgeForward toX2 mac dst ptp corr res) s fun t => t = { s with net := { s.net with fdb := t.net.fdb } }) ∧
    (mode ≠ 1 ∨ ¬ txOpen → Ignored (.bridgeForward toX2 mac dst ptp corr res) s) ∧
    (mode = 0 → txOpen → Does .prpSupervisionSend s fun t =>
      t = { s with out := .prpSup [1, 2] (s.portMac false) trl :: s.out, net := { s.net with rctSeq := s.net.rctSeq + 1 } }) ∧
    (mode ≠ 0 ∨ ¬ txOpen → Ignored .prpSupervisionSend s) ∧
    (mode = 0 → lost → Does (.prpLanLoss lanB mac) s fun t =>
      t = { s with regs := t.regs, net := { s.net with heard := t.net.heard } } ∧
      t.get (if lanB then R.NET.STATUS.LANB else R.NET.STATUS.LANA) = 1 ∧ t.get R.NET.FLAG.LANLOSS = 1) ∧
    (mode ≠ 0 ∨ ¬ lost → Ignored (.prpLanLoss lanB mac) s) ∧
    (s.get link ≠ b2n up → Sets (.linkChange x2 up) s [(link, b2n up), (R.NET.FLAG.LINKCHG, 1)]) ∧
    (s.get link = b2n up → Ignored (.linkChange x2 up) s)

/-- R241 to R243, R251, R255 to R258, R262, R264, R265: reception. In PMODE 0 a source heard on a LAN is noted and a later copy of its frame is counted
and dropped; in PMODE 1 the bridge learns the source. Frames, and telegrams that use an unlisted option, go to the ring of their class, or are
counted where it is full; a telegram's checks each count their drop, and one that passes waits. The one accepted updates every bound signal at
once with its values, VALID, and SAFE where the channels have checked it; one of an older epoch or a repeat is dropped. A timeout sets every bound
signal, held or zero, as a substitute, not VALID. The place of the SDTv2 counter in the trailer and the agreement of most channels rest on log 10,
reception in INIT and RUN only on log 29. -/
def Obligations.TelegramsAreCheckedAndAccepted : Prop :=
  ∀ (s : State) (f : RxFrame) (tel : PdTel) (i : Nat) (w : PdWait) (rest : List PdWait),
    let recv := Instr.frameReceive f
    let mode := s.get R.NET.STATUS.APMODE
    let open_ : Prop := (s.mstate = .init ∨ s.mstate = .run) ∧ ¬ (s.get R.BIST.STATUS.RUN = 1 ∧ s.get R.BIST.STATUS.TEST = 7) ∧
      (f.port = 1 ∨ (f.port = 2 ∧ mode ≠ 2))
    let class_ (ring : Nat) : Prop :=
      (f.body = .ptp ∧ ring = 24) ∨ (f.body = .messageData ∧ ring = 25) ∨ (f.body = .pdPull ∧ ring = 26) ∨ (f.body = .other ∧ ring = 27) ∨
      (f.body = .pd tel ∧ ring = 26 ∧ (f.unlisted = true ∨ (tel.headerOk = true ∧ s.boundTo tel = none)))
    let count (c : Fld) := (c, min (s.get c + 1) (2 ^ 32 - 1))
    let e := s.subE i
    let st := s.subS i
    let listed : Prop := f.body = .pd tel ∧ f.unlisted = false
    let bound : Prop := listed ∧ tel.headerOk = true ∧ s.boundTo tel = some i
    let len := fieldOf (e.getD 7 0) 0 16
    let topo (c : W32) (r : Fld) : Prop := c ≠ 0 ∧ c ≠ s.reg r.off
    let noted (t : State) (waiting : List PdWait) : Prop :=
      t.net = { s.net with heard := t.net.heard, seen := t.net.seen, fdb := t.net.fdb, waiting := waiting } ∧
      (mode ≠ 0 → t.net.heard = s.net.heard ∧ t.net.seen = s.net.seen) ∧ (mode ≠ 1 → t.net.fdb = s.net.fdb) ∧
      (mode = 1 → s.net.fdb = [] → t.net.fdb = [(f.mac, decide (f.port = 2), s.nowNs)]) ∧
      (mode = 0 → ∃ p ∈ t.net.heard, p.mac = f.mac ∧ (f.port = 1 → p.a = some s.nowNs) ∧ (f.port ≠ 1 → p.b = some s.nowNs))
    let only (l : List (Fld × Nat)) (waiting : List PdWait) : Prop := Does recv s fun t =>
      t = { s with regs := t.regs, net := t.net } ∧ noted t waiting ∧
      FieldsSet s t (l ++ if mode = 0 then [(R.NET.STATUS.LANA, b2n (t.net.heard.any (·.lostA))), (R.NET.STATUS.LANB, b2n (t.net.heard.any (·.lostB)))] else [])
    let updated (t : State) (k : Nat) (valid : Nat) (safe : Bool) (subst : Nat) (val : DirEnt → W32 × W32 → List Byte) : Prop :=
      let bs := bindsOf s.net.binds ((s.subE k).getD 4 0)
      (bs.map bindSig).Nodup → ∀ b ∈ bs, bindSig b ≠ 0 → ∀ x, s.dirEnt (bindSig b) = some x → x.type ≠ 0 →
        ∀ ch y, s.follows ch = true → tblFind (s.ch ch).dir (bindSig b) = some y →
          ∃ w3, tblFind (t.ch ch).dir (bindSig b) = some { y with w3 := w3, val := s.receivedBytes ch (val x b) } ∧ fieldOf w3 0 1 = valid ∧
            fieldOf w3 2 1 = subst ∧ fieldOf w3 3 1 = 0 ∧ fieldOf w3 4 1 = b2n (safe && y.sclass != 0) ∧ fieldOf w3 8 24 = s.gong.frame % 2 ^ 24 ∧
            (s.wrongBits ch = 0 → s.receivedBytes ch (val x b) = val x b)
    let ste := s.subS w.idx
    let older : Prop := ∃ p q, w.epoch = some p ∧ ste.epoch = some q ∧ serialGt q p = true
    let newer : Prop := ∃ p q, w.epoch = some p ∧ ste.epoch = some q ∧ serialGt p q = true
    let repeated : Prop := ¬ newer ∧ ∃ q, tblFind ste.seqs w.src.toNat = some q ∧ serialGt w.seq q = false
    (¬ open_ → Ignored recv s) ∧
    (open_ → s.prpCopy f = true → only [(R.NET.PRPDUP.COUNT, s.get R.NET.PRPDUP.COUNT + 1)] s.net.waiting) ∧
    (open_ → s.prpCopy f = false →
      (∀ ring, class_ ring →
        (s.ringOn ring = false → only [] s.net.waiting) ∧
        (s.ringOn ring = true → s.ringFull ring = true → only [count R.NET.RXFULL.COUNT, (R.NET.FLAG.RXFULL, 1)] s.net.waiting) ∧
        (s.ringOn ring = true → s.ringFull ring = false → Does recv s fun t =>
          let a := s.ringAddr ring (s.get (R.NET.HEAD.INDEX ring))
          let word (j : Nat) := leNat (dmaBytes s.smem (a + 4 * j) 4)
          let buf := (word 2 + 2 ^ 32 * word 3) % 2 ^ 40
          let n := min f.bytes.length (word 1 % 2 ^ 16)
          t = { s with regs := t.regs, smem := t.smem, net := t.net } ∧ noted t s.net.waiting ∧
          t.get (R.NET.HEAD.INDEX ring) = (s.get (R.NET.HEAD.INDEX ring) + 1) % s.ringN ring % 2 ^ (R.NET.HEAD.INDEX ring).w ∧
          ((∀ b, buf ≤ b → b < buf + n → smemMapped b = true) → (buf + n ≤ a ∨ a + 24 ≤ buf) → memBytes t.smem buf n = f.bytes.take n) ∧
          ((∀ b, a ≤ b → b < a + 24 → smemMapped b = true) → leNat (memBytes t.smem (a + 16) 8) = s.nowNs % 2 ^ 64) ∧
          ∀ b, (b < a ∨ a + 24 ≤ b) → (b < buf ∨ buf + n ≤ b) → memGet t.smem b = memGet s.smem b)) ∧
      (listed → tel.headerOk = false → only [count R.NET.DROPOTHER.COUNT] s.net.waiting) ∧
      (bound → tel.data.length ≠ len → only [count R.NET.DROPOTHER.COUNT] s.net.waiting) ∧
      (bound → tel.data.length = len → entBit e 28 = true → topo tel.etbTopo R.NET.ETBTOPO.CNT ∨ topo tel.opTopo R.NET.OPTOPO.CNT →
        only [count R.NET.DROPTOPO.COUNT, (R.NET.FLAG.TOPODROP, 1)] s.net.waiting) ∧
      (bound → tel.data.length = len → entBit e 28 = false → entBit e 30 = false → entBit e 29 = false → tblFind st.seqs tel.srcIp.toNat = none →
        only [] (s.net.waiting ++ [⟨i, tel.srcIp, tel.seq, none, tel.data⟩])) ∧
      (bound → tel.data.length = len → entBit e 28 = false → entBit e 30 = true → s.sdtAgreed e tel.data = false → Does recv s fun t =>
        t = { s with regs := t.regs, net := t.net, chA := t.chA, chB := t.chB, chC := t.chC } ∧ noted t s.net.waiting ∧
        t.get R.NET.DROPSDT.COUNT = min (s.get R.NET.DROPSDT.COUNT + 1) (2 ^ 32 - 1) ∧ t.get R.NET.FLAG.SDTERR = 1) ∧
      (bound → tel.data.length = len → entBit e 28 = false → entBit e 30 = true → entBit e 29 = false → s.sdtAgreed e tel.data = true →
        tblFind st.seqs tel.srcIp.toNat = none → Does recv s fun t =>
          t = { s with regs := t.regs, net := t.net, chA := t.chA, chB := t.chB, chC := t.chC } ∧
          noted t (s.net.waiting ++ [⟨i, tel.srcIp, BitVec.ofNat 32 (beNat (bytesAt (tel.data.drop (len - 16)) 8 4)), none, tel.data⟩]))) ∧
    (Does recv s fun t => t = { s with regs := t.regs, smem := t.smem, net := t.net, chA := t.chA, chB := t.chB, chC := t.chC }) ∧
    (s.net.waiting = [] → Ignored .telegramAccept s) ∧
    (s.net.waiting = w :: rest → ¬ older → ¬ repeated → Does .telegramAccept s fun t =>
      t.net.waiting = rest ∧ (t.subS w.idx).tout = false ∧ (t.subS w.idx).lastAcc = some s.nowNs ∧ tblFind (t.subS w.idx).seqs w.src.toNat = some w.seq ∧
      FieldsSet s t [(R.NET.RXACC.COUNT, s.get R.NET.RXACC.COUNT + 1)] ∧
      updated t w.idx 1 (entBit (s.subE w.idx) 30) 0 fun x b => telValue x w.data b) ∧
    (s.net.waiting = w :: rest → older → Does .telegramAccept s fun t =>
      t = { s with regs := t.regs, net := { s.net with waiting := rest } } ∧ FieldsSet s t [count R.NET.DROPEPO.COUNT, (R.NET.FLAG.EPODROP, 1)]) ∧
    (s.net.waiting = w :: rest → ¬ older → repeated → Does .telegramAccept s fun t =>
      t = { s with regs := t.regs, net := { s.net with waiting := rest } } ∧ FieldsSet s t [count R.NET.DROPOTHER.COUNT]) ∧
    (entBit e 31 = true → fieldOf (e.getD 0 0) 0 24 ≠ 0 → st.tout = false → st.lastAcc.isSome = true ∨ s.mstate = .run → Does (.subscribeTimeout i) s fun t =>
      t.subS i = { st with tout := true, epoch := none, seqs := [] } ∧ FieldsSet s t [count R.NET.TOCNT.COUNT, (R.NET.FLAG.TIMEOUT, 1)] ∧
      updated t i 0 false 1 fun x _ => if entBit e 27 then x.val else leBytes x.size 0) ∧
    (entBit e 31 = false ∨ fieldOf (e.getD 0 0) 0 24 = 0 ∨ st.tout = true ∨ (st.lastAcc = none ∧ s.mstate ≠ .run) → Ignored (.subscribeTimeout i) s)

/-- R247, R329 to R332: the module's addresses. With ADDRCFG.MODE 0 the first TTDB read gives position and topology counters; an inauguration with other counters takes them, holds telegrams of the
train off for the next tick, and sets ADDRCHG where the own position changed; a probe without reply lets the module become ADDRESSED at the next tick; a conflict makes it UNADDRESSED
at once, its entries unbound, until it is probed again. The own vehicle is the one whose identifier in the directory equals the plug's. While ECNLOOP runs nothing of
this comes (R370). A conflict that unaddresses at once, and INAUG = 1 after a one-step inauguration, rest on log 29. -/
def Obligations.AddressesFollowTheTrainDirectory : Prop :=
  ∀ (s : State) (etb op tn : W32) (cst : Nat) (vehs : List (Nat × List Byte)) (res : Tbl W32),
    let byTtdb : Prop := s.get R.CFG.ADDRCFG.MODE = 0
    let loop : Prop := s.get R.BIST.STATUS.RUN = 1 ∧ s.get R.BIST.STATUS.TEST = 7
    let alive : Prop := (s.mstate = .init ∨ s.mstate = .run) ∧ ¬ loop
    let plug := (List.range 4).flatMap fun w => leBytes 4 (s.get (R.ID.VEHID.BYTES w))
    let pos := (vehs.find? fun v => v.2 ++ List.replicate (16 - v.2.length) 0 = plug).map fun v => (cst, v.1)
    let read := Instr.ttdbReadDone etb op cst vehs tn res
    let inaug := Instr.inauguration etb op cst vehs tn res
    let changed : Prop := etb ≠ s.reg R.NET.ETBTOPO.CNT.off ∨ op ≠ s.reg R.NET.OPTOPO.CNT.off
    let counters (t : State) : Prop := t.reg R.NET.ETBTOPO.CNT.off = etb ∧ t.reg R.NET.OPTOPO.CNT.off = op
    let addressed := s.get R.ID.ASTAT.ADDR
    (byTtdb → alive → s.boot.posRead = false → Does read s fun t =>
      t.boot = { s.boot with posRead := true, pos := pos, trnId := tn } ∧ t.net = { s.net with resolved := res, rctSeq := t.net.rctSeq } ∧ counters t ∧
      t.get R.ID.HOSTID.ID = (s.get R.ID.PLUG.RACK * 32 + s.get R.ID.SLOT.CODE) % 2 ^ 13) ∧
    (¬ byTtdb ∨ ¬ alive ∨ s.boot.posRead = true → Ignored read s) ∧
    (byTtdb → alive → s.boot.posRead = true → changed → Does inaug s fun t =>
      counters t ∧ t.net.resolved = res ∧ t.get R.NET.STATUS.INAUG = 1 ∧ t.boot.pos = pos ∧ t.boot.trnId = tn ∧ t.get R.NET.FLAG.NEWINAUG = 1 ∧
      t.get R.NET.INAUGCNT.COUNT = (s.get R.NET.INAUGCNT.COUNT + 1) % 2 ^ 32 ∧
      (pos ≠ s.boot.pos → t.get R.ID.FLAG.ADDRCHG = 1 ∧ (addressed = 1 → t.net.addrNext = some false)) ∧
      (pos = s.boot.pos → t.get R.ID.FLAG.ADDRCHG = s.get R.ID.FLAG.ADDRCHG ∧ t.net.addrNext = s.net.addrNext)) ∧
    (¬ byTtdb ∨ ¬ alive ∨ s.boot.posRead = false ∨ ¬ changed → Ignored inaug s) ∧
    (s.ucause = 7 → alive → Does .arpProbeDone s fun t =>
      t = { s with boot := { s.boot with probed := true }, net := { s.net with addrNext := some true } }) ∧
    (s.ucause ≠ 7 ∨ ¬ alive → Ignored .arpProbeDone s) ∧
    (¬ loop → addressed = 1 ∨ s.ucause = 7 ∨ s.ucause = 0 → Does .arpConflict s fun t =>
      t.get R.ID.FLAG.IPDUP = 1 ∧ t.net.conflict = true ∧ t.get R.ID.ASTAT.ADDR = 0 ∧ t.get R.NET.STATUS.ADDR = 0 ∧ t.get R.ID.UNITKEY.KEY = 0 ∧
      t.net.waiting = [] ∧ (∀ p ∈ t.net.subSt, p.2.addrs = []) ∧ t.net.addrNext = none ∧ t.boot = { s.boot with probed := false }) ∧
    (loop ∨ (addressed = 0 ∧ s.ucause ≠ 7 ∧ s.ucause ≠ 0) → Ignored .arpConflict s) ∧
    (s.net.conflict = true → Does .arpReprobe s fun t =>
      t.net = { s.net with conflict := false, rctSeq := t.net.rctSeq } ∧ t.boot = s.boot ∧
      (addressed = 0 → t.get R.ID.ASTAT.UCAUSE = t.ucause)) ∧
    (s.net.conflict = false → Ignored .arpReprobe s)

/-- R266, R269 to R277, R29, R30: time. With nothing waiting one cycle of the 250 MHz oscillator passes: network time advances by INCR, Solfatara's clock by 4 ns, and only the
counters of whole seconds may change; unpowered, only Solfatara's clock runs (that an idle step is one cycle is the model's choice, log 1). A step within JUMPLIM, or in acquisition,
is applied and the Gong slews by it, or re-phases for a larger one in INIT; another waits in PEND, refused, and SYNC is JUMPHOLD until FORCE applies it and re-phases (one step while an
earlier re-phase waits or runs: log 20); launch instants that wait move with the clock. The servo, which follows a selected master, locks after 8
offsets within THR and loses lock after 4 above it, each counted from the entry of the state (log 29). An Announce of the own domain selects the
best master; with none left, or none better than itself, a master-capable module becomes master, and the loss of the selected master takes a locked unit to
HOLDOVER in every module state. While ECNLOOP runs no Sync or Announce comes (R370). INCR is clamped to ±500 ppm. -/
def Obligations.TimeStepsAndLocksAsItsRulesSay : Prop :=
  ∀ (s : State) (r : Req) (hi : W32) (ns : Int) (m old : Announce),
    let sync := s.get R.TIME.STATUS.SYNC
    let held (f : Fld) := (tblFind s.held (reqKey r f.off)).getD (s.reg f.off)
    let used (f : Fld) (t : State) : Prop := tblFind t.held (reqKey r f.off) = none
    let inForce (f : Fld) (a b d : Nat) := if a ≤ s.get f ∧ s.get f ≤ b then s.get f else d
    let up : Prop := s.mstate = .init ∨ s.mstate = .run
    let alive : Prop := up ∧ ¬ (s.get R.BIST.STATUS.RUN = 1 ∧ s.get R.BIST.STATUS.TEST = 7)
    -- a step by `d` in units of 2^-16 ns: the clock, and what the Gong makes of it
    let whole (d : Int) : Int := (d + 32768) / 65536
    let slewed (d : Int) := if s.gong.ticking then { s.gong with adj := s.gong.adj - whole d, next := (s.gong.next + whole d).toNat } else s.gong
    let rephased (d : Int) :=
      if s.gong.ticking = false then s.gong
      else if s.gong.reph ≤ 1 then { s.gong with reph := 1, step := BitVec.ofInt 64 d, adj := 0, next := (s.gong.next + whole d).toNat }
      else { s.gong with reph := 3, step2 := BitVec.ofInt 64 d, adj := s.gong.adj - whole d, next := (s.gong.next + whole d).toNat }
    let shifted (d : Int) := { s.net with caps := s.net.caps.map fun c => { c with due := c.due.map fun t => ((t : Int) + whole d).toNat } }
    let anew := { s.tim with within := 0, above := 0 }
    let applied (g : GongSt) : List (Fld × Nat) :=
      [(R.TIME.STEPCNT.COUNT, s.get R.TIME.STEPCNT.COUNT + 1), (R.TIME.STATUS.PENDV, 0), (R.TIME.REASON.CODE, 0),
        (R.TIME.CMDCNT.COUNT, s.get R.TIME.CMDCNT.COUNT + 1)] ++ if s.gong.ticking then [(R.GONG.STATUS.SLEW, b2n (g.adj != 0))] else []
    let lo := held R.TIME.STEP_LO.OFFS
    let d := (hi ++ lo : BitVec 64).toInt
    let small : Prop := d.natAbs ≤ 65536 * inForce R.TIME.JUMPLIM.NS 1000 10000000 200000
    let acquiring : Prop := sync = 0 ∧ (s.mstate = .boot ∨ s.mstate = .init)
    let stepBy (g : GongSt) : Prop := Does (.timeStep r hi) s fun t =>
      t = { s with regs := t.regs, clk := (s.clk + 65536 * d).toNat, gong := g, held := t.held, net := shifted d, tim := if sync = 3 then anew else s.tim } ∧
      used R.TIME.STEP_LO.OFFS t ∧
      FieldsSet s t (applied g ++ [(R.TIME.STEP_LO.OFFS, lo.toNat), (R.TIME.STEP_HI.OFFS, hi.toNat)] ++
        if sync = 3 then [(R.TIME.STATUS.SYNC, 2), (R.GONG.STATUS.FREERUN, 1)] else [])
    let pend := (s.reg R.TIME.PEND_HI.OFFS.off ++ s.reg R.TIME.PEND_LO.OFFS.off : BitVec 64).toInt
    let why := firstReason [(3, s.mstate != .init && s.mstate != .run), (4, s.get R.TIME.STATUS.PENDV = 0), (5, s.get R.CFG.EXPERT.UNLK = 0),
      (6, s.get R.SPD.STATUS.STILL = 0 && s.get R.BIST.LCS.STATE != 3)]
    let near : Prop := ns.natAbs ≤ inForce R.TIME.LOCKCFG.THR 50 10000 1000
    let unlock := [(R.TIME.STATUS.SYNC, 2), (R.GONG.STATUS.FREERUN, 1), (R.TIME.FLAG.LOCKLOSS, 1)]
    let offset := (R.TIME.OFFS.NS, (BitVec.ofInt 32 (max (-(2 ^ 31)) (min (2 ^ 31 - 1) ns))).toNat)
    let measured (tim : TimeSt) (l : List (Fld × Nat)) : Prop := Does (.ptpOffsetMeasurement ns) s fun t =>
      t = { s with regs := t.regs, tim := tim } ∧ FieldsSet s t (offset :: l)
    let following : Prop := s.tim.master.isSome = true
    let ours : Prop := m.domain.toNat = (if s.get R.TIME.CFG.DOMAIN ≤ 127 then s.get R.TIME.CFG.DOMAIN else 0)
    let better : Prop := s.get R.TIME.CFG.MASTEN = 1 ∧ Config.bmcBetter (s.ownClock s.clockIdent) m = true
    let drops (c : Instr) (lost : Prop) [Decidable lost] : Prop := Does c s fun t =>
      t = { s with regs := t.regs, tim := { (if lost then anew else s.tim) with master := none } } ∧
      FieldsSet s t ((if up ∧ s.get R.TIME.CFG.MASTEN = 1 ∧ s.get R.TIME.STATUS.MASTER = 0 then [(R.TIME.GMID_LO.ID, s.clockIdent.toNat),
        (R.TIME.GMID_HI.ID, s.clockIdent.toNat / 2 ^ 32), (R.TIME.STATUS.MASTER, 1), (R.TIME.FLAG.GMCHG, 1)] else []) ++
        if lost then unlock else [])
    let master := [(R.TIME.GMID_LO.ID, m.ident.toNat), (R.TIME.GMID_HI.ID, m.ident.toNat / 2 ^ 32), (R.TIME.UTCOFS.SEC, m.utcOfs.toNat),
      (R.TIME.STATUS.MASTER, 0)]
    let selects (l : List (Fld × Nat)) : Prop := Does (.announceReceive m) s fun t =>
      t = { s with regs := t.regs, tim := { s.tim with master := some m } } ∧ FieldsSet s t (master ++ l)
    let incr := (held R.TIME.INCR_LO.FRAC).toNat + 2 ^ 32 * (hi.toNat % 256)
    let clamped := max ((3998 * 2 ^ 32 + 999) / 1000) (min (4002 * 2 ^ 32 / 1000) incr)
    (s.pending = [] → s.sup.powered = true → ∃ t, step s = .next t ∧
      t = { s with
        regs := t.regs, secAcc := t.secAcc, clk := s.clk + s.get R.TIME.INCR_LO.FRAC + 2 ^ 32 * s.get R.TIME.INCR_HI.NS, solNs := s.solNs + 4 } ∧
      RegsKept s t [R.VOTE.DEGTIME.SEC.off, R.SPD.SSUSED.SEC.off, R.CFG.EXPERT.TLEFT.off]) ∧
    (s.pending = [] → s.sup.powered = false → ∃ t, step s = .next t ∧ t = { s with solNs := s.solNs + 4 }) ∧
    (s.steward r = false → Ignored (.timeStep r hi) s ∧ Ignored (.timeForce r) s ∧ Ignored (.incrWrite r hi) s) ∧
    (s.steward r = true → small ∨ (acquiring ∧ s.mstate = .boot) → stepBy (slewed d)) ∧
    (s.steward r = true → ¬ small → acquiring → s.mstate = .init → stepBy (rephased d)) ∧
    (s.steward r = true → ¬ small → ¬ acquiring → Does (.timeStep r hi) s fun t =>
      t = { s with regs := t.regs, held := t.held, tim := anew } ∧ used R.TIME.STEP_LO.OFFS t ∧
      FieldsSet s t ([(R.TIME.PEND_LO.OFFS, lo.toNat), (R.TIME.PEND_HI.OFFS, hi.toNat), (R.TIME.STATUS.PENDV, 1), (R.TIME.REASON.CODE, 1),
        (R.TIME.FLAG.JUMPREF, 1), (R.TIME.JREFCNT.COUNT, min (s.get R.TIME.JREFCNT.COUNT + 1) (2 ^ R.TIME.JREFCNT.COUNT.w - 1)),
        (R.TIME.STATUS.SYNC, 3), (R.GONG.STATUS.FREERUN, 1)] ++ if sync = 1 then [(R.TIME.FLAG.LOCKLOSS, 1)] else [])) ∧
    (s.steward r = true → why ≠ 0 → Sets (.timeForce r) s [(R.TIME.REASON.CODE, why)]) ∧
    (s.steward r = true → why = 0 → Does (.timeForce r) s fun t =>
      t = { s with
        regs := t.regs, clk := (s.clk + 65536 * pend).toNat, gong := rephased pend, fum := t.fum, fumPos := t.fumPos, net := shifted pend, tim := anew } ∧
      Recorded s t 0x09 0x07 1 (leBytes 4 (s.reg R.TIME.PEND_LO.OFFS.off).toNat ++ leBytes 4 (s.reg R.TIME.PEND_HI.OFFS.off).toNat) ∧
      FieldsSet s t (applied (rephased pend) ++ [(R.TIME.CMD.CODE, 1), (R.TIME.FLAG.FORCED, 1), (R.TIME.STATUS.SYNC, 2), (R.GONG.STATUS.FREERUN, 1),
        (R.SUP.FUMSEQ.SEQ, s.get R.SUP.FUMSEQ.SEQ + 1)] ++ if sync = 1 then [(R.TIME.FLAG.LOCKLOSS, 1)] else [])) ∧
    (alive → following → near → s.tim.within < 7 ∨ sync = 1 ∨ sync = 3 → measured { s.tim with within := s.tim.within + 1, above := 0 } []) ∧
    (alive → following → near → 7 ≤ s.tim.within → sync = 0 ∨ sync = 2 → measured anew [(R.TIME.STATUS.SYNC, 1), (R.GONG.STATUS.FREERUN, 0)]) ∧
    (alive → following → ¬ near → s.tim.above < 3 ∨ sync ≠ 1 → measured { s.tim with within := 0, above := s.tim.above + 1 } []) ∧
    (alive → following → ¬ near → 3 ≤ s.tim.above → sync = 1 → measured anew unlock) ∧
    (¬ alive ∨ ¬ following → Ignored (.ptpOffsetMeasurement ns) s) ∧
    (¬ alive → Ignored (.announceReceive m) s) ∧
    (drops .announceReceiptTimeout (sync = 1 ∧ s.tim.master.isSome = true)) ∧
    (¬ ours → Ignored (.announceReceive m) s) ∧
    (alive → ours → better → s.tim.master = none ∨ (s.tim.master = some old ∧ old.ident = m.ident) → drops (.announceReceive m) False) ∧
    (alive → ours → ¬ better →
      (s.tim.master = none → selects [(R.TIME.FLAG.GMCHG, 1)]) ∧
      (s.tim.master = some old → old.ident = m.ident → selects []) ∧
      (s.tim.master = some old → old.ident ≠ m.ident → Config.bmcBetter m old = true → selects [(R.TIME.FLAG.GMCHG, 1)]) ∧
      (s.tim.master = some old → old.ident ≠ m.ident → Config.bmcBetter m old = false → Ignored (.announceReceive m) s)) ∧
    (s.steward r = true → Does (.incrWrite r hi) s fun t =>
      t = { s with regs := t.regs, held := t.held } ∧ used R.TIME.INCR_LO.FRAC t ∧
      FieldsSet s t ([(R.TIME.INCR_LO.FRAC, clamped), (R.TIME.INCR_HI.NS, clamped / 2 ^ 32)] ++
        if clamped = incr then [] else [(R.TIME.FLAG.INCRLIM, 1)])) ∧
    (sync = 1 → Does .solfataraTimeCopy s fun t => t = { s with solNs := s.nowNs }) ∧
    (sync ≠ 1 → Ignored .solfataraTimeCopy s)

/-- R12, R262, R282 to R294, R312, R347: the event controller. A source whose level and enable are asserted becomes PENDING with its instant, one that loses either becomes IDLE; a record is written where the ring is
enabled, not held and not full, highest PRIO first, then lowest number; a claim takes the record at TAIL and finds the source asserted, CLAIMED, or withdrawn, 0x3FF and SPUR; on an empty ring it changes nothing (log 28); a completion by the target that
claimed the number, whatever SCFG names by now, clears its latch and re-arms it. HOLD, enables, doorbells, software latches and the compatibility window change what their rules name. -/
def Obligations.EventSourcesFollowTheirRules : Prop :=
  ∀ (s : State) (r : Req) (t : Fin 10) (num : Fin 256) (e : EvSrc) (code : BitVec 10) (ten : BitVec 10) (byte : Byte) (pen : BitVec 16) (v : W32)
    (sw : Fin 6) (j : Fin 8),
    let at_ (k : Nat) := tblFind s.evs k
    let k := evKey t.val num.val
    let line : Prop := 40 ≤ num.val ∧ num.val ≤ 43
    let own := (reqTarget r).val
    let shut : Prop := r = .maint ∧ s.session = none
    let regsEvs (u : State) : Prop := u = { s with regs := u.regs, evs := u.evs }
    let others (u : State) (k : Nat) : Prop := ∀ x, x ≠ k → tblFind u.evs x = at_ x
    let fresh (redo : Bool) : EvSrc := ⟨.pending, BitVec.ofNat 64 s.nowNs, BitVec.ofNat 32 s.frameShown, redo, none, none⟩
    let on (k : Nat) := s.evLevel k && s.evEnabled k
    let sensed := s.evs.filter fun p => p.2.ph != .pending || on p.1
    -- a claim for target `t` by command `c`
    let head (w : Nat) := s.ringWord t.val w
    let claimed := evKey t.val (head 0 % 1024)
    let answers (u : State) (n : Nat) : Prop := u.resp = if isEng r then s.resp else some (BitVec.ofNat 32 n)
    let clrec (u : State) (w : Nat → W32) : Prop := (∀ i, i < 4 → u.preqGet r (R.EVC.CLREC.WORD i).off = w i) ∧
      ∀ q off, (q ≠ r ∨ ∀ i, i < 4 → off ≠ (R.EVC.CLREC.WORD i).off) → u.preqGet q off = s.preqGet q off
    let takes := (R.NET.TAIL.INDEX t.val, (s.get (R.NET.TAIL.INDEX t.val) + 1) % s.ringN t.val)
    let claims (c : Instr) : Prop :=
      (shut → Does c s fun u => u = { s with resp := some 0 }) ∧
      (¬ shut → s.ringEmpty t.val = true → Does c s fun u => u = { s with resp := u.resp } ∧ answers u 0x3FF) ∧
      (¬ shut → s.ringEmpty t.val = false → at_ claimed = some e → on claimed = true → Does c s fun u =>
        u = { s with regs := u.regs, evs := tblPut s.evs claimed { e with ph := .claimed, redo := false, task := s.reqTask r, target := some t.val }, preq := u.preq, resp := u.resp } ∧
        FieldsSet s u [takes] ∧ answers u (head 0 % 1024) ∧ clrec u fun i => BitVec.ofNat 32 (head i)) ∧
      (¬ shut → s.ringEmpty t.val = false → at_ claimed = none ∨ on claimed = false → Does c s fun u =>
        u = { s with regs := u.regs, evs := u.evs, preq := u.preq, resp := u.resp } ∧ tblFind u.evs claimed = none ∧ others u claimed ∧
        FieldsSet s u [takes, (R.EVC.FLAG.SPUR, 1), (R.EVC.SPURCNT.COUNT, min (s.get R.EVC.SPURCNT.COUNT + 1) (2 ^ R.EVC.SPURCNT.COUNT.w - 1))] ∧
        answers u 0x3FF ∧ clrec u fun _ => 0)
    -- a completion of number `n` for target `t` by command `c`
    let completes (c : Instr) (n : Nat) : Prop :=
      let k := evKey t.val n
      let latch := (evLatch k).1
      let bit := (evLatch k).2
      (at_ k = some e → e.ph = .claimed → e.target = some t.val → n < 256 →
        (evLatched k = true → Does c s fun u => regsEvs u ∧ tblFind u.evs k = none ∧ others u k ∧
          FieldsSet s u [(latch, s.get latch - 2 ^ bit * b2n (s.bit latch bit))]) ∧
        (evLatched k = false → Does c s fun u => u = { s with evs := u.evs } ∧ tblFind u.evs k = (if on k then some (fresh false) else none) ∧ others u k)) ∧
      (at_ k = none ∨ (at_ k = some e ∧ (e.ph ≠ .claimed ∨ e.target ≠ some t.val)) ∨ 256 ≤ n → Ignored c s)
    let mask := if isEng r then ten.toNat &&& 2 ^ own else ten.toNat
    let enables (c : Instr) (v : Nat) : Prop :=
      let open_ : Prop := s.steward r = true ∧ (s.mstate = .init ∨ s.mstate = .run ∨ s.mstate = .safe)
      (¬ open_ → Ignored c s) ∧
      (open_ → Does c s fun u => regsEvs u ∧ FieldsSet s u [(R.EVC.PEN.EN t.val, v)] ∧ (∀ n, n < 16 → EvPolled s u (16 * t.val + n)) ∧
        ∀ x, x / 16 ≠ t.val → tblFind u.evs x = at_ x)
    let inWindow (x : Nat) : Prop := ∃ b, b < 32 ∧ x = winKey own j.val b
    -- levels and lines
    (Does (.eventSourceAssert t num) s fun u => regsEvs u ∧ EvPolled s u k ∧ others u k ∧
      FieldsSet s u (if 40 ≤ num.val ∧ num.val ≤ 43 ∧ s.get R.BRG.STATUS.HOLD = 1 then
        [(R.BRG.INTST.INT, s.get R.BRG.INTST.INT ||| 2 ^ (num.val - 40))] else [])) ∧
    (Does (.eventSourceWithdraw t num) s fun u => regsEvs u ∧ EvPolled s u k ∧ others u k ∧
      (line → FieldsSet s u [(R.BRG.INTST.INT, s.get R.BRG.INTST.INT - 2 ^ (num.val - 40) * b2n (s.bit R.BRG.INTST.INT (num.val - 40)))]) ∧
      (¬ line → u.regs = s.regs)) ∧
    -- delivery
    (s.bit R.EVC.HOLD.TGT t.val = true ∨ s.ringOn t.val = false ∨ (∀ p ∈ sensed, p.2.ph = .pending → s.evTarget p.1 ≠ t.val) →
      Does (.eventDelivery t) s fun u => u = { s with evs := sensed }) ∧
    (∀ k, s.bit R.EVC.HOLD.TGT t.val = false → s.ringOn t.val = true → at_ k = some e → e.ph = .pending → on k = true → s.evTarget k = t.val →
      (∀ p ∈ sensed, p.2.ph = .pending → s.evTarget p.1 = t.val → p.1 ≠ k →
        s.evPrio p.1 < s.evPrio k ∨ (s.evPrio p.1 = s.evPrio k ∧ evNum k < evNum p.1)) →
      (s.ringFull t.val = true → Does (.eventDelivery t) s fun u =>
        u = { s with regs := u.regs, evs := sensed } ∧ FieldsSet s u [(R.EVC.FLAG.RFULL, 1)]) ∧
      (s.ringFull t.val = false → Does (.eventDelivery t) s fun u =>
        let a := s.ringAddr t.val (s.get (R.NET.HEAD.INDEX t.val))
        let seq := s.evSeq[t] + 1
        u = { s with regs := u.regs, smem := u.smem, evSeq := s.evSeq.set t seq, evs := tblPut sensed k { e with ph := .delivered } } ∧
        ((∀ b, a ≤ b → b < a + 16 → smemMapped b = true) → memBytes u.smem a 16 = leBytes 4 (2 ^ 28 * s.evPrio k + 2 ^ 24 * t.val + 2 ^ 16 * seq.toNat + 2 ^ 11 * b2n e.redo + evNum k) ++
          leBytes 8 e.ts.toNat ++ leBytes 4 e.frame.toNat) ∧
        (∀ b, (b < a ∨ a + 16 ≤ b) → memGet u.smem b = memGet s.smem b) ∧
        FieldsSet s u [(R.NET.HEAD.INDEX t.val, (s.get (R.NET.HEAD.INDEX t.val) + 1) % s.ringN t.val),
          (R.EVC.DELIVCNT.COUNT, s.get R.EVC.DELIVCNT.COUNT + 1)])) ∧
    -- claims and completions
    claims (.eventClaim r t) ∧ (own = t.val → claims (.cvecRead r)) ∧
    (shut ∨ (isEng r = true ∧ own ≠ t.val) → Ignored (.eventComplete r t code) s) ∧ (shut → Ignored (.cackWrite r v) s) ∧
    (¬ shut → isEng r = false ∨ own = t.val → completes (.eventComplete r t code) code.toNat) ∧
    (¬ shut → own = t.val → completes (.cackWrite r v) (v.toNat % 1024)) ∧
    -- HOLD
    (shut → Ignored (.holdset r ten) s ∧ Ignored (.holdclr r ten) s) ∧
    (¬ shut → Sets (.holdset r ten) s [(R.EVC.HOLD.TGT, s.get R.EVC.HOLD.TGT ||| mask)]) ∧
    (¬ shut → tblWf s.evs = true → Does (.holdclr r ten) s fun u =>
      u = { s with regs := u.regs, smem := u.smem, evs := u.evs, evSeq := u.evSeq } ∧
      u.get R.EVC.HOLD.TGT = s.get R.EVC.HOLD.TGT - (s.get R.EVC.HOLD.TGT &&& mask) ∧
      (∀ i, i < 10 → mask.testBit i = true → s.ringOn i = true → u.ringFull i = true ∨ ∀ p ∈ u.evs, p.2.ph = .pending → u.evTarget p.1 ≠ i) ∧
      ∀ k e, at_ k = some e → tblFind u.evs k = some e ∨ (e.ph = .pending ∧ on k = false ∧ tblFind u.evs k = none) ∨
        (e.ph = .pending ∧ mask.testBit (s.evTarget k) = true ∧ tblFind u.evs k = some { e with ph := .delivered })) ∧
    -- latches and enables
    (shut → Ignored (.pset r t byte) s ∧ Ignored (.swset r sw v) s ∧ Ignored (.cpendWrite r j v) s ∧ Ignored (.cmaskWrite r j v) s) ∧
    (¬ shut → Sets (.pset r t byte) s [(R.EVC.PLAT.LAT t.val, s.get (R.EVC.PLAT.LAT t.val) ||| byte.toNat)]) ∧
    (¬ shut → Sets (.swset r sw v) s [(R.EVC.SWLAT.LAT sw.val, s.get (R.EVC.SWLAT.LAT sw.val) ||| v.toNat)]) ∧
    enables (.penset r t pen) (s.get (R.EVC.PEN.EN t.val) ||| pen.toNat) ∧
    enables (.penclr r t pen) (s.get (R.EVC.PEN.EN t.val) - (s.get (R.EVC.PEN.EN t.val) &&& pen.toNat)) ∧
    -- the compatibility window
    (¬ shut → Does (.cpendWrite r j v) s fun u =>
      u = { s with regs := u.regs, evs := s.evs.filter fun p => p.2.ph != .pending || (u.evLevel p.1 && u.evEnabled p.1) } ∧
      RegsKept s u [(R.EVC.PLAT.LAT own).off, R.EVC.SLAT.EXC.off, (R.EVC.SWLAT.LAT (j.val - 2)).off] ∧
      (∀ b, b < 32 → evLatched (winKey own j.val b) = true → u.evLevel (winKey own j.val b) = v.getLsbD b) ∧
      ∀ x, evLatched x = true → ¬ inWindow x → u.evLevel x = s.evLevel x) ∧
    (¬ shut → Does (.cmaskWrite r j v) s fun u => regsEvs u ∧ (∀ x, ¬ inWindow x → tblFind u.evs x = at_ x) ∧
      RegsKept s u ((R.EVC.PEN.EN own).off :: (List.range 32).map fun b => (R.EVC.SCFG.EN (32 * j.val + b)).off) ∧
      ∀ b, b < 32 →
        let n := 32 * j.val + b
        (n < 16 → u.bit (R.EVC.PEN.EN own) n = !v.getLsbD b ∧ EvPolled s u (winKey own j.val b)) ∧
        (16 ≤ n → isEng r = false ∨ s.get (R.EVC.SCFG.TARGET n) = own →
          u.get (R.EVC.SCFG.EN n) = b2n (!v.getLsbD b) ∧ EvPolled s u (winKey own j.val b)) ∧
        (16 ≤ n → isEng r = true → s.get (R.EVC.SCFG.TARGET n) ≠ own →
          u.get (R.EVC.SCFG.EN n) = s.get (R.EVC.SCFG.EN n) ∧ tblFind u.evs (winKey own j.val b) = at_ (winKey own j.val b)))

/-- R262, R295 to R311, R313: the CompactPCI bridge. The bus goes to the cards whose slots are enabled in turn, and to the bridge between them and
where none asks; an access to a card that is missing ends in master abort, one that is retried stays. The posted entry at the head ends on the bus or is
recorded with its cause, 4 where its timer expires, and the reads behind it come nearer; a read whose posted writes have gone ends with its data for
every copy or the core that waits, or with exception 0x10 or an error status, RDERR and its count; where the requester has gone it is dropped; the read
that has waited longest takes the slot. A card's write that the bus carries (log 33) inside the window is applied at once, or after IN, phase by phase up
to the 64-byte boundary, stamping the HOME 4 signals it touches. The model's own (log 28): the cards that ask are an operand; a card with a range the map
lays over the inbound window gets no address and counts as missing; a configuration read without the duties or the bus returns nothing. -/
def Obligations.BridgeFollowsItsRules : Prop :=
  ∀ (s : State) (how : BusEnd) (p : PwEnt) (rest : List PwEnt) (j : Fin 8) (d : DrSlot) (addr : W32) (phases : List InPhase) (found : Tbl W32)
    (r : Req) (v : W32) (card : Fin 7) (reqs : BitVec 7) (eng : Eng) (st1 : Bool) (w : DrWait) (ws : List DrWait),
    let hold := s.get R.BRG.STATUS.HOLD
    let count (c : Fld) := (c, min (s.get c + 1) (2 ^ c.w - 1))
    -- posted writes
    -- arbitration
    let asks : Prop := s.brg.posted ≠ [] ∨ ∃ (k : Fin 8) (x : DrSlot), s.brg.slots[k] = some x ∧ x.ahead = 0 ∧ x.gone = false
    let wants (reqs : BitVec 7) (k : Fin 7) : Prop := reqs.getLsbD k.val = true ∧ s.bit R.BRG.CFG.SLOTEN k.val = true
    let away (k : Fin 7) := (k.val + 13 - s.brg.rr.val) % 7
    let bridges : Prop := s.brg.rst = false ∧ ((s.brg.cardLast = true ∧ asks) ∨ ∀ k, ¬ wants reqs k)
    let cards_ : Prop := hold = 1 ∧ s.brg.rst = false ∧ ¬ (s.brg.cardLast = true ∧ asks) ∧ s.bit R.BRG.CFG.SLOTEN card.val = true ∧
      ∀ k, wants reqs k → away card ≤ away k
    let cycle : Prop := hold = 1 ∧ (s.brg.cardLast = true ∨ ∀ k, ¬ wants reqs k)
    let lost (a : W32) : Prop := ∃ pr c, s.prog = some pr ∧ c ∈ pr.cards ∧ c.slot ∈ s.brg.mis ∧ ∃ b ∈ c.bars, b.base ≤ a.toNat ∧ a.toNat < b.base + b.size
    let popped := { s.brg with posted := rest, slots := s.brg.slots.map fun d => d.map fun x => { x with ahead := x.ahead - 1 } }
    let ran (b : BrgSt) := { b with cardLast := false }
    let recorded (c : Instr) (b : BrgSt) (cause : Nat) : Prop :=
      (s.ringOn 10 = false → Does c s fun t => t = { s with brg := b }) ∧
      (s.ringOn 10 = true → s.ringFull 10 = true → Does c s fun t =>
        t = { s with brg := b, regs := t.regs } ∧ FieldsSet s t [count R.BRG.PWLOST.COUNT, (R.BRG.FLAG.PWLOSS, 1)]) ∧
      (s.ringOn 10 = true → s.ringFull 10 = false → Does c s fun t =>
        let a := s.ringAddr 10 (s.get (R.NET.HEAD.INDEX 10))
        t = { s with regs := t.regs, smem := t.smem, brg := { b with errSeq := s.brg.errSeq + 1 } } ∧
        FieldsSet s t [(R.NET.HEAD.INDEX 10, (s.get (R.NET.HEAD.INDEX 10) + 1) % 16)] ∧ (∀ b, (b < a ∨ a + 32 ≤ b) → memGet t.smem b = memGet s.smem b) ∧
        ((∀ b, a ≤ b → b < a + 32 → smemMapped b = true) → memBytes t.smem a 32 = leBytes 4 (2 ^ 28 * cause + 2 ^ 24 * p.src + 2 ^ 16 * ((s.brg.errSeq + 1) % 256) + p.be.toNat) ++ leBytes 4 p.addr.toNat ++
          leBytes 8 p.data.toNat ++ leBytes 4 (s.nowNs % 2 ^ 32) ++ leBytes 4 (s.nowNs / 2 ^ 32) ++ leBytes 4 p.frame.toNat ++ leBytes 4 0))
    let complete := Instr.postedWriteComplete how reqs
    -- delayed reads
    let slot := s.brg.slots[j]
    let freed := { s.brg with slots := s.brg.slots.set j none }
    let done := Instr.delayedReadComplete j how reqs
    let readError := [(R.BRG.FLAG.RDERR, 1), count R.BRG.RDERRCNT.COUNT]
    let waits (ch : Ch) (e : Eng) (task : Nat) (i : Inst) (pr : Program) (gd : GReg) (a n : Nat) (signed : Bool) : Prop :=
      s.executing ch = true ∧ (s.ch ch).eng[e].run = some task ∧ (s.ch ch).eng[e].stall = some (.read j.val gd a n signed) ∧
        tblFind (s.ch ch).insts task = some i ∧ s.bank i.bank = some pr ∧ (s.ch ch).eng[e].bud ≠ 0 ∧ fetchOk pr (s.ch ch).eng[e].x 4 = true
    let errs (c : Instr) (b : BrgSt) : Prop :=
      (d.req = .eng eng → s.brg.waits = [] → Does c s fun t =>
        t = { s with regs := t.regs, chA := t.chA, chB := t.chB, chC := t.chC, vote := t.vote, brg := b } ∧ FieldsSet s t readError ∧
        ∀ ch task i pr gd a n signed, waits ch eng task i pr gd a n signed →
          (t.ch ch).eng[eng].run = none ∧ (t.ch ch).eng[eng].stall = none ∧ (t.ch ch).insts = tblDel (s.ch ch).insts task ∧
          ∃ g ∈ t.vote.groups, ∃ c, g.of ch = some c ∧ c.task = task ∧
            c.exc = some ⟨0x10, (regsOf s ch eng).cls, eng.val, fieldOf (regsOf s ch eng).st 20 8, (regsOf s ch eng).pc, s.gong.frame, a⟩) ∧
      (d.req = .core st1 → s.brg.waits = [] → Does c s fun t => t = { s with regs := t.regs, resp := none, brg := b } ∧ FieldsSet s t readError) ∧
      (s.brg.waits = w :: ws → Does c s fun t => t.brg.waits = ws ∧ t.brg.slots[j] = some ⟨w.req, w.addr, w.size, s.brg.posted.length, false⟩)
    -- inbound writes
    let off := addr.toNat % 2 ^ 26 / 4 * 4
    let taken := phases.take ((64 - off % 64) / 4)
    let bad := (taken.filter fun q => !q.parityOk).length
    let here : Prop := addr.toNat / 2 ^ 26 = s.get R.BRG.CFG.IBASE
    let carried : Prop := s.gong.ticking = true → 1000 * (s.brg.inBytes + 4 * taken.length) ≤ 264 * (s.gong.next - s.gong.tick)
    let inside : Prop := cards_ ∧ here ∧ carried
    let write := Instr.cpciInboundWrite card reqs addr phases
    let granted := { s.brg with cardLast := true, rr := card }
    let counted := { granted with inBytes := s.brg.inBytes + 4 * taken.length }
    let parity := if bad = 0 then [] else [(R.BRG.FLAG.IPERR, 1), (R.BRG.IPERRCNT.COUNT, min (s.get R.BRG.IPERRCNT.COUNT + bad) (2 ^ 32 - 1))]
    let wrote (k b : Nat) : Prop := ∃ q, taken[k]? = some q ∧ q.parityOk = true ∧ b < 4 ∧ q.be.getLsbD b = true
    let inIn : Prop := s.mstate = .run ∧ s.get R.GONG.STATUS.PHASE = 0
    let cards := match s.prog with
      | some pr => pr.cards
      | none => []
    let found_ (c : CardDef) : Bool := decide (tblFind found c.slot = some c.ident) && c.bars.all fun b =>
      decide (b.base + b.size ≤ 2 ^ 26 * s.get R.BRG.CFG.IBASE) || decide (2 ^ 26 * (s.get R.BRG.CFG.IBASE + 1) ≤ b.base)
    let configures : Prop := s.mstate = .init ∧ hold = 1 ∧ s.brg.rst = false ∧ s.get R.BRG.STATUS.CFGD = 0
    (s.brg.posted = [] → Ignored complete s ∧ Ignored .postedWriteDiscard s) ∧ (hold = 0 ∨ ¬ bridges → Ignored complete s) ∧
    (hold = 1 → bridges → s.brg.posted = p :: rest →
      (∀ x, how = .ok x → ¬ lost p.addr → Does complete s fun t => t = { s with brg := ran popped, out := .pciWrite p.addr p.data p.be :: s.out }) ∧
      (how = .retry → ¬ lost p.addr → Does complete s fun t => t = { s with brg := ran s.brg }) ∧
      (how = .masterAbort ∨ lost p.addr → recorded complete (ran popped) 1) ∧ (how = .targetAbort → ¬ lost p.addr → recorded complete (ran popped) 2) ∧
      (how = .parity → ¬ lost p.addr → recorded complete (ran popped) 3)) ∧
    (s.brg.posted = p :: rest → recorded .postedWriteDiscard popped 4) ∧
    (slot = none → Ignored done s ∧ Ignored (.delayedReadDiscard j) s) ∧
    (slot = some d → hold = 0 ∨ ¬ bridges ∨ d.ahead ≠ 0 ∨ d.gone = true → Ignored done s) ∧
    (slot = some d → hold = 1 → bridges → d.ahead = 0 → d.gone = false →
      (∀ x, how = .ok x → ¬ lost d.addr → s.brg.inbuf = [] → s.brg.waits = [] →
        (d.req = .eng eng → Does done s fun t =>
          t = { s with chA := t.chA, chB := t.chB, chC := t.chC, vote := t.vote, brg := ran freed } ∧
          ∀ ch task i pr gd a n signed, waits ch eng task i pr gd a n signed →
            (t.ch ch).eng[eng].x =
              ((regsOf s ch eng).setG gd (loadExt (BitVec.ofNat 64 ((x ^^^ s.wrongBits ch).toNat % 2 ^ (8 * n))) n signed)).adv 4 ∧
            (t.ch ch).eng[eng].run = some task ∧ (t.ch ch).eng[eng].stall = none ∧ (t.ch ch).eng[eng].bud = (s.ch ch).eng[eng].bud - 1 ∧
            (t.ch ch).insts = tblPut (s.ch ch).insts task i) ∧
        (d.req = .core st1 → Does done s fun t => t = { s with brg := ran freed, resp := some (x.truncate 32) })) ∧
      (how = .retry → ¬ lost d.addr → Does done s fun t => t = { s with brg := ran s.brg }) ∧
      (how = .masterAbort ∨ how = .targetAbort ∨ how = .parity ∨ lost d.addr → errs done (ran freed))) ∧
    (slot = some d → d.gone = false → errs (.delayedReadDiscard j) freed) ∧
    (slot = some d → d.gone = true → s.brg.waits = [] → Does (.delayedReadDiscard j) s fun t =>
      t = { s with regs := t.regs, brg := freed } ∧ FieldsSet s t [(R.BRG.FLAG.RDDISC, 1), count R.BRG.DISCCNT.COUNT]) ∧
    (¬ cards_ ∨ (here ∧ ¬ carried) → Ignored write s) ∧
    (cards_ → ¬ here → Does write s fun t => t = { s with brg := granted }) ∧
    (inside → inIn → Does write s fun t =>
      ∃ w : InWrite, t = { s with regs := t.regs, brg := { counted with inbuf := s.brg.inbuf ++ [w] } } ∧ FieldsSet s t parity ∧
      ∀ o b, (o, b) ∈ w.bytes ↔ ∃ k i q, taken[k]? = some q ∧ q.parityOk = true ∧ i < 4 ∧ q.be.getLsbD i = true ∧ o = off + 4 * k + i ∧
        b = BitVec.ofNat 8 (q.data.toNat / 256 ^ i)) ∧
    (inside → ¬ inIn → Does write s fun t =>
      t = { s with
        regs := t.regs, smem := t.smem, chA := t.chA, chB := t.chB, chC := t.chC, pair := { s.pair with touched := t.pair.touched }
        brg := counted, upd := { s.upd with bat := t.upd.bat } } ∧
      FieldsSet s t parity ∧
      (∀ k i q, taken[k]? = some q → q.parityOk = true → i < 4 → q.be.getLsbD i = true →
        memGet t.smem (0x180000000 + off + 4 * k + i) = BitVec.ofNat 8 (q.data.toNat / 256 ^ i)) ∧
      (∀ a, (∀ k i, wrote k i → a ≠ 0x180000000 + off + 4 * k + i) → memGet t.smem a = memGet s.smem a) ∧
      (∀ id x, s.dirEnt id = some x → x.type ≠ 0 → x.home = 4 →
        (∃ k i, wrote k i ∧ x.w1.toNat ≤ off + 4 * k + i ∧ off + 4 * k + i < x.w1.toNat + x.size) →
        ∀ ch y, s.follows ch = true → tblFind (s.ch ch).dir id = some y →
          ∃ z, tblFind (t.ch ch).dir id = some z ∧ fieldOf z.w3 8 24 = s.gong.frame % 2 ^ 24 ∧ fieldOf z.w3 0 1 = 1 ∧ fieldOf z.w3 2 4 = 0) ∧
      ∀ id, (∀ q ∈ (s.ch s.leadCh).dir, q.1 = id → q.2.home ≠ 4) → ∀ ch, tblFind (t.ch ch).dir id = tblFind (s.ch ch).dir id) ∧
    (cards_ → Does (.inboundLock (.card card reqs)) s fun t => t = { s with regs := t.regs, brg := granted } ∧ FieldsSet s t [(R.BRG.FLAG.LOCKAB, 1)]) ∧
    (¬ cards_ → Ignored (.inboundLock (.card card reqs)) s) ∧
    (Does (.inboundLock .st0) s fun t => t = { s with resp := none }) ∧ (Does (.inboundLock .st1) s fun t => t = { s with resp := none }) ∧
    Sets .serrSensed s [(R.BRG.FLAG.SERR, 1)] ∧
    (s.brg.rst = true → Does .cpciResetRelease s fun t => t = { s with brg := { s.brg with rst := false } }) ∧
    (s.brg.rst = false → Ignored .cpciResetRelease s) ∧
    (configures → Does (.cardConfiguration found) s fun t =>
      t = { s with
        regs := t.regs, brg := { s.brg with mis := (cards.filter fun c => !found_ c).map CardDef.slot }
        out := ((cards.filter found_).flatMap fun c => c.bars.map fun b =>
          Out.cfgWrite (BitVec.ofNat 32 (2 ^ 11 * (c.slot - 1) + 2 ^ 8 * b.fn.val + 16 + 4 * b.reg.val)) (BitVec.ofNat 32 b.base)).reverse ++ s.out } ∧
      FieldsSet s t ((R.BRG.STATUS.CFGD, 1) :: if cards.all found_ then [] else [(R.BRG.FLAG.CARDMIS, 1)])) ∧
    (¬ configures → Ignored (.cardConfiguration found) s) ∧
    (isEng r = true → Ignored (.configCycleRead r how reqs) s) ∧
    (r = .maint → s.session = none → Does (.configCycleRead r how reqs) s fun t => t = { s with resp := some 0 }) ∧
    (s.steward r = true →
      (¬ cycle → Does (.configCycleRead r how reqs) s fun t => t = { s with resp := none }) ∧
      (∀ x, cycle → how = .ok x → Does (.configCycleRead r how reqs) s fun t => t = { s with resp := some (x.truncate 32), brg := ran s.brg }) ∧
      (cycle → how = .masterAbort → Does (.configCycleRead r how reqs) s fun t => t = { s with resp := some 0xFFFFFFFF, brg := ran s.brg }) ∧
      (cycle → how = .retry → Does (.configCycleRead r how reqs) s fun t => t = { s with resp := none, brg := ran s.brg }) ∧
      (cycle → how = .targetAbort ∨ how = .parity → Does (.configCycleRead r how reqs) s fun t =>
        ∃ x, t = { s with resp := some x, free := s.free + 1, brg := ran s.brg }) ∧
      (cycle → Does (.configCycleWrite r v reqs) s fun t =>
        t = { s with out := .cfgWrite (s.reg R.BRG.CFGADR.DEV.off) v :: s.out, brg := ran s.brg })) ∧
    (s.steward r = false ∨ ¬ cycle → Ignored (.configCycleWrite r v reqs) s)

/-- R22, R23, R314, R317, R320 to R324: configuration commands. STAGE holds the staged version: no valid image 2, CFGVER 0 or the current one 3, an entry that names another field or bits outside its mask 4, an expert
change while locked 5, the last two with the first entry in STGERR (free where no entry names the field). ACTIVATE and REVERT mark what the cold start that follows makes current: 2, or 7, and 6 where the module carries the rack's
work. The challenge a requester read last unlocks for EXPCFG.TO minutes, and is used up either way; LOCK and the timeout lock. REASON 2 of DISCARD with a version pending and 8 of LOCK are
the model's (log 12). -/
def Obligations.ConfigurationCommandsAreJudged : Prop :=
  ∀ (s : State) (r : Req) (m : NvImage) (key : W32) (k : Nat) (e : NvEntry),
    let judged (c : Instr) (code why : Nat) (more : List (Fld × Nat)) (rest : State → State) : Prop :=
      Judged c s r R.CFG.CMD.CODE R.CFG.CMDCNT.COUNT R.CFG.REASON.CODE code why more rest
    let locked := s.get R.CFG.EXPERT.UNLK = 0
    let idle : Bool := s.mstate = .safe || s.mstate = .recovery || s.mstate = .init || (s.mstate = .run && (s.role = .standby || s.role = .fenced)) ||
      s.get R.BIST.LCS.STATE = 3 || s.get R.BIST.LCS.STATE = 1
    let why := firstReason [(2, !nvFrame m 0x7A310C01), (3, m.cfgver = 0 || m.cfgver = s.reg R.CFG.CURVER.CFGVER.off), (4, !m.entries.all entryFits),
      (5, locked && s.expertDiff m != [])]
    let names (e : NvEntry) := (s.expertDiff m).any fun f => coversFld e f
    let stage := Instr.cfgStage r
    let chal := R.CFG.EXPCHAL.CHAL.off
    let right : Prop := s.preqGet r (chal + 1) ≠ 0 ∧ key = s.preqGet r chal ^^^ 0x7E5A1C3B
    let mins := if 1 ≤ s.get R.CFG.EXPCFG.TO ∧ s.get R.CFG.EXPCFG.TO ≤ 120 then s.get R.CFG.EXPCFG.TO else 15
    let answered (l : List (Fld × Nat)) : Prop := Does (.expkeyWrite r key) s fun t =>
      t = { s with regs := t.regs, preq := t.preq } ∧ FieldsSet s t l ∧ t.preqGet r (chal + 1) = 0 ∧
      ∀ q off, (q ≠ r ∨ off ≠ chal + 1) → t.preqGet q off = s.preqGet q off
    (s.steward r = false → Ignored stage s ∧ Ignored (.expkeyWrite r key) s) ∧
    (s.steward r = true → s.nv.staged = none → Sets stage s [(R.CFG.REASON.CODE, 2)]) ∧
    (s.steward r = true → s.nv.staged = some m →
      (why = 0 → Sets stage s [(R.CFG.REASON.CODE, 0), (R.CFG.CMD.CODE, 1), (R.CFG.CMDCNT.COUNT, s.get R.CFG.CMDCNT.COUNT + 1), (R.CFG.STATUS.STGV, 1),
        (R.CFG.STGVER.CFGVER, m.cfgver.toNat)]) ∧
      (why = 2 ∨ why = 3 → Sets stage s [(R.CFG.REASON.CODE, why)]) ∧
      (why = 4 → m.entries[k]? = some e → entryFits e = false → (∀ i x, i < k → m.entries[i]? = some x → entryFits x = true) →
        Sets stage s [(R.CFG.REASON.CODE, 4), (R.CFG.STGERR.INDEX, k)]) ∧
      (why = 5 → m.entries[k]? = some e → names e = true → (∀ i x, i < k → m.entries[i]? = some x → names x = false) →
        Sets stage s [(R.CFG.REASON.CODE, 5), (R.CFG.STGERR.INDEX, k)]) ∧
      (why = 5 → m.entries.any names = false → Does stage s fun t => ∃ v, t = { s with regs := t.regs, free := s.free + 1 } ∧
        FieldsSet s t [(R.CFG.REASON.CODE, 5), (R.CFG.STGERR.INDEX, v)])) ∧
    judged (.cfgActivate r) 2 (firstReason [(2, s.get R.CFG.STATUS.STGV = 0), (6, !idle)]) [(R.CFG.STATUS.PEND, 1)]
      (fun s => { s with nv := { s.nv with pend := 1 }, sup := { s.sup with restart := some true } }) ∧
    judged (.cfgRevert r) 3 (firstReason [(6, !idle), (7, s.get R.CFG.STATUS.PREVV = 0)]) [(R.CFG.STATUS.PEND, 2)]
      (fun s => { s with nv := { s.nv with pend := 2 }, sup := { s.sup with restart := some true } }) ∧
    judged (.cfgDiscard r) 4 (firstReason [(2, s.get R.CFG.STATUS.STGV = 0 || s.get R.CFG.STATUS.PEND != 0)])
      [(R.CFG.STATUS.STGV, 0), (R.CFG.STGVER.CFGVER, 0)] (fun s => { s with nv := { s.nv with staged := none } }) ∧
    judged (.cfgLock r) 5 (firstReason [(8, locked)]) [(R.CFG.EXPERT.UNLK, 0), (R.CFG.EXPERT.TLEFT, 0)] id ∧
    (r = .maint → s.session = none → Does (.expchalRead r) s fun t => t = { s with resp := some 0 }) ∧
    (r ≠ .maint ∨ s.session ≠ none → Does (.expchalRead r) s fun t =>
      ∃ c, t = { s with free := s.free + 1, preq := t.preq, resp := if isEng r then s.resp else some c } ∧
        t.preqGet r chal = c ∧ t.preqGet r (chal + 1) = 1 ∧
        ∀ q off, (q ≠ r ∨ (off ≠ chal ∧ off ≠ chal + 1)) → t.preqGet q off = s.preqGet q off) ∧
    (s.steward r = true → right → answered [(R.CFG.REASON.CODE, 0), (R.CFG.CMDCNT.COUNT, s.get R.CFG.CMDCNT.COUNT + 1), (R.CFG.EXPERT.UNLK, 1),
      (R.CFG.EXPERT.TLEFT, 60 * mins)]) ∧
    (s.steward r = true → ¬ right → answered [(R.CFG.REASON.CODE, 8)]) ∧
    (s.get R.CFG.EXPERT.TLEFT = 0 → Sets .expertTimeout s [(R.CFG.EXPERT.UNLK, 0), (R.CFG.EXPERT.TLEFT, 0)]) ∧
    (s.get R.CFG.EXPERT.TLEFT ≠ 0 → Ignored .expertTimeout s)

/-- R22, R23, R333 to R343: packages. A header received while staging is free passes steps 1 to 6 of Table 15-2, the first that fails deciding CHECK and FAILED with a record; the rest passes step 7. A package is not whole before DATALEN
bytes of its stream have come; what follows them is no part of it. APPLY marks the inactive slot not valid; a package of an earlier start must pass step 7 there; every record must produce the next block with its digest, for KIND 2 the firmware blocks as they were (8), and the
signature must fit (9) before READY. ACTIVATE makes the inactive slot active on trial, in a slot record of the next sequence number over the copy that did not hold, with a cold start; CANCEL empties staging, of an owner message too; VERIFY shows the check of a slot.
The model's choices of log 19: a header is taken in IDLE and FAILED, a shorter or longer stream as said, and VERIFY of a slot above 2 has REASON 1. -/
def Obligations.PackagesAreCheckedInOrder : Prop :=
  ∀ (s : State) (r : Req) (h : PkgHeader) (m : Manifest) (stream : List Byte) (arg : BitVec 4),
    let state := s.get R.UPD.STATE.fld
    let kind := s.get R.UPD.STATE.KIND
    let act := s.get R.UPD.STATE.ACT
    let depot : Bool := s.get R.BIST.LCS.STATE = 3 || s.get R.BIST.LCS.STATE = 1
    let exch : Bool := [1, 2, 4, 5, 6].contains (s.get R.TASK.XSTAT.STATE)
    let lock : Bool := s.get R.UPD.OWNER.LOCKED = 1
    let idle : Bool := s.mstate = .safe || s.mstate = .recovery || s.mstate = .init || (s.mstate = .run && (s.role = .standby || s.role = .fenced)) || depot
    let stgid (d : BitVec 256) := (List.range 8).map fun w => (R.UPD.STGID.WORD w, d.toNat / 2 ^ (32 * w))
    let seq := (R.SUP.FUMSEQ.SEQ, s.get R.SUP.FUMSEQ.SEQ + 1)
    let fails (c : Instr) (code : Nat) (h : PkgHeader) (upd : UpdSt) (more : List (Fld × Nat)) : Prop := Does c s fun t =>
      t = { s with regs := t.regs, fum := t.fum, fumPos := t.fumPos, upd := upd } ∧
      Recorded s t 0x0A 0x0E code (leBytes 1 0x0E ++ leBytes 3 0 ++ leBytes 4 h.pver.toNat) ∧
      FieldsSet s t ([(R.UPD.STATUS.CHECK, code), (R.UPD.STATE.fld, 4), (R.UPD.FLAG.CHKFAIL, 1), seq] ++ more)
    -- the header
    let hwrev := s.get R.ID.REV.HWREV
    let check := firstReason [
      (1, h.magic != 0x7A311501 || h.format != 1 || !(if depot then [1, 2, 3, 4] else [1, 2]).contains h.kind.toNat),
      (2, h.part != s.reg R.ID.PART.NUM.off || decide (hwrev < h.hwmin.toNat) || decide (h.hwmax.toNat < hwrev)),
      (3, !keyFor h.keyid.toNat h.kind.toNat || match s.key h.keyid.toNat with
        | some k => algOf h.siglen.toNat != some k.big
        | none => true),
      (4, !s.signed h.keyid.toNat h.siglen.toNat (hdrBytes h) h.hsig), (5, decide (h.svn.toNat < s.get R.UPD.MINSVN.SVN)),
      (6, h.flags.toNat % 2 = 1 && h.baseid != s.actDigest)]
    let arrives := Instr.packageHeaderReceived h
    let shown := (R.UPD.STATE.KIND, h.kind.toNat) :: stgid h.mandig
    -- the blocks
    let base := match s.img act with
      | some i => i.blocks
      | none => []
    -- the records of the stream: each begins where the one before it ends, and the last ends with the stream
    let holds (l : List DeltaRec) : Prop := ∃ at_ : List (List Byte), at_.length = l.length + 1 ∧ at_.head? = some s.upd.stream ∧ at_.getLast? = some [] ∧
      ∀ i x, l[i]? = some x → ∃ a b, at_[i]? = some a ∧ at_[i + 1]? = some b ∧ takeRec a = some (x, b)
    let good (bs : List (List Byte)) : Prop := bs.length = m.digests.length ∧ ∃ l, holds l ∧ l.length = bs.length ∧
      ∀ i x, l[i]? = some x → ∃ b, bs[i]? = some b ∧ deltaBlock base (h.flags.toNat % 2 = 1) x = some b ∧ x.target = i ∧ b.length = 65536 ∧
        sha3 b = m.digests.getD i 0 ∧ (h.kind = 2 → i ∈ fwBlocks m → base.getD i [] = b)
    let sealed := s.signed h.keyid.toNat m.siglen.toNat (leBytes 32 h.mandig.toNat) m.msig
    let becomes (bs : List (List Byte)) (upd : UpdSt → Prop) : Prop := Does .applyDone s fun t =>
      t = { s with regs := t.regs, upd := t.upd } ∧ upd t.upd ∧ FieldsSet s t [(R.UPD.PROG.DONE, bs.length), (R.UPD.STATE.fld, 3), (R.UPD.FLAG.READY, 1)]
    let inactive (v : Option FlashImg) : UpdSt := if act = 0 then { s.upd with slotB := v } else { s.upd with slotA := v }
    let judged (c : Instr) (v why : Nat) (more : List (Fld × Nat)) (rest : State → State) : Prop :=
      Judged c s r R.UPD.CMD.all R.UPD.CMDCNT.COUNT R.UPD.STATUS.REASON v why more rest
    let other := if act = 0 then 1 else 0
    let why := firstReason [(2, state != 3 || (kind != 1 && kind != 2)), (3, lock), (4, s.get R.SPD.STATUS.STILL = 0 && !depot), (5, s.batteryLow),
      (6, !idle), (7, exch)]
    let next := (if act = 0 then s.upd.slotB else s.upd.slotA)
    (s.session = none ∨ (state ≠ 0 ∧ state ≠ 4) → Ignored arrives s) ∧
    (s.session ≠ none → state = 0 ∨ state = 4 →
      (check = 0 → Does arrives s fun t => t = { s with regs := t.regs, upd := { s.upd with hdr := some h, man := none, stream := [] } } ∧
        FieldsSet s t ([(R.UPD.STATUS.CHECK, 0), (R.UPD.STATE.fld, 0)] ++ shown)) ∧
      (check ≠ 0 → fails arrives check h { s.upd with hdr := none, man := none, stream := [] } shown)) ∧
    (s.upd.hdr = none ∨ s.session = none ∨ state ≠ 0 → Ignored (.packageReceived m stream) s) ∧
    (s.upd.hdr = some h → stream.length < h.datalen.toNat ∨ kind ≠ h.kind.toNat → Ignored (.packageReceived m stream) s) ∧
    (s.upd.hdr = some h → s.session ≠ none → state = 0 → kind = h.kind.toNat → h.datalen.toNat ≤ stream.length →
      (badManifest h m = false → Does (.packageReceived m stream) s fun t =>
        t = { s with regs := t.regs, upd := { s.upd with man := some m, stream := stream.take h.datalen.toNat } } ∧ FieldsSet s t [(R.UPD.STATE.fld, 1)]) ∧
      (badManifest h m = true → fails (.packageReceived m stream) 7 h { s.upd with man := some m, stream := stream.take h.datalen.toNat } [])) ∧
    judged (.apply r) 1 (firstReason [(2, state != 1), (3, lock), (7, exch), (8, (kind = 3 || kind = 4) && !depot)])
      [(R.UPD.STATE.fld, 2), (R.UPD.PROG.DONE, 0), (R.UPD.PROG.TOTAL, match s.upd.man with
        | some m => m.digests.length
        | none => 0)]
      (fun s => if kind = 1 ∨ kind = 2 then { s with upd := inactive (next.map fun i => { i with valid := false }) } else s) ∧
    (s.upd.hdr = none ∨ s.upd.man = none ∨ state ≠ 2 → Ignored .applyDone s) ∧
    (s.upd.hdr = some h → s.upd.man = some m → state = 2 → badManifest h m = true → fails .applyDone 7 h s.upd []) ∧
    (s.upd.hdr = some h → s.upd.man = some m → state = 2 → badManifest h m = false →
      ((∀ bs, ¬ good bs) → ∃ n, fails .applyDone 8 h s.upd [(R.UPD.PROG.DONE, n)]) ∧
      ∀ bs, good bs →
        (sealed = false → fails .applyDone 9 h s.upd [(R.UPD.PROG.DONE, bs.length)]) ∧
        (sealed = true → h.kind = 1 → becomes bs fun u => u = inactive (some ⟨h, m, none, bs, true⟩)) ∧
        (sealed = true → h.kind = 2 → becomes bs fun u => u = inactive (some ⟨h, m, (s.img act).map fun i => (i.hdr, i.man), bs, true⟩)) ∧
        (sealed = true → h.kind = 3 → becomes bs fun u => u = { s.upd with rcv := some ⟨h, m, none, bs, true⟩ }) ∧
        (sealed = true → h.kind = 4 → becomes bs fun u => u = { s.upd with keys := u.keys } ∧
          ∀ id, (∀ c ∈ Config.keyChanges (bs.flatMap fun b => b), c.1 = id → s.keyChangeOk h.keyid.toNat c = false) →
            u.keys.filter (fun k => k.id = id) = s.upd.keys.filter fun k => k.id = id)) ∧
    (s.steward r = false → Ignored (.updActivate r) s) ∧
    (s.steward r = true → why ≠ 0 → Sets (.updActivate r) s [(R.UPD.STATUS.REASON, why)]) ∧
    (s.steward r = true → why = 0 → Does (.updActivate r) s fun t =>
      t = { s with regs := t.regs, sup := { s.sup with restart := some true }, upd := { s.upd with rec0 := t.upd.rec0, rec1 := t.upd.rec1 } } ∧
      (∃ x, t.slotRec = some x ∧ x.act = other ∧ x.trial = 1 ∧ x.trials = 0 ∧ ∀ old, s.slotRec = some old → x.seq = old.seq + 1 ∧ (t.upd.rec0 = some old ∨ t.upd.rec1 = some old)) ∧
      FieldsSet s t ([(R.UPD.STATUS.REASON, 0), (R.UPD.CMD.all, 2), (R.UPD.CMDCNT.COUNT, s.get R.UPD.CMDCNT.COUNT + 1), (R.UPD.STATE.ACT, other),
          (R.UPD.STATE.TRIAL, 1), (R.UPD.STATE.TRIALS, 0)] ++
        (List.range 8).map fun w => (R.UPD.ACTID.WORD w, (match next with
          | some i => i.hdr.mandig.toNat
          | none => 0) / 2 ^ (32 * w)))) ∧
    judged (.updCancel r) 3 (firstReason [(2, state != 1 && state != 3 && state != 4), (7, exch)])
      ([(R.UPD.STATE.fld, 0), (R.UPD.STATE.KIND, 0)] ++ stgid 0) (fun s => { s with upd := { s.upd with hdr := none, man := none, stream := [], owner := none } }) ∧
    judged (.verify r arg) (256 * arg.toNat + 4) (firstReason [(1, decide (2 < arg.toNat)), (2, state = 2)]) [(R.UPD.STATUS.CHECK, s.slotCheck arg.toNat)] id

/-- R14, R23, R323, R345 to R348: the owner lock and the maintenance port. A challenge is new at every read and used up by the OWNER whose message names it; a message that names this module and the challenge and that the owner key signed (or the
first key, unsigned, in MANUFACTURE) locks, unlocks or installs the key, any other is refused with REASON 9. A session opens for a certificate that chains to
the owner key or to a Hafahild key of the store, not revoked; images and messages come only through it; the factory record is
written only in MANUFACTURE; a report carries the nonce and the digest of the firmware that this start loaded, is signed over its first 256 bytes and is counted. What a message once taken leaves in staging is the model's (log 19). -/
def Obligations.OwnerAndMaintenanceFollowTheirRules : Prop :=
  ∀ (s : State) (r : Req) (m : OwnerMsg) (root : Nat) (mldsa chains : Bool) (img : NvImage) (serial : BitVec 64) (mac : BitVec 48)
    (idPub idCert : List Byte) (fact : Option NvImage) (nonce : BitVec 256) (x3 : Bool),
    let lo := R.UPD.OCHAL_LO.all.off
    let hi := R.UPD.OCHAL_HI.all.off
    let chalIs (c : Nat) : Prop := s.preqGet r (lo + 1) = 1 ∧ (s.preqGet r lo).toNat + 2 ^ 32 * (s.preqGet r hi).toNat = c
    let valid : Prop := m.magic = 0x7A3115A0 ∧ (m.action = 1 ∨ m.action = 2 ∨ m.action = 3) ∧
      m.serial.toNat = s.get R.ID.SERIAL_LO.SN + 2 ^ 32 * s.get R.ID.SERIAL_HI.SN ∧ chalIs m.chal.toNat ∧ m.keyid = 0x20 ∧
      ((m.action = 3 ∧ s.get R.BIST.LCS.STATE = 1 ∧ s.get R.UPD.OWNER.OWNKEY = 0) ∨ s.signed 0x20 m.siglen.toNat (ownerBytes m) m.sig = true)
    -- an ML-DSA certificate that chains to a key which is in the key store and not revoked, while no session is open
    let opens : Bool := mldsa && chains && s.session.isNone && s.upd.keys.any fun k => k.id = root && !k.revoked
    let usedUp (t : State) : Prop := t.preqGet r (lo + 1) = 0 ∧ ∀ q off, (q ≠ r ∨ off ≠ lo + 1) → t.preqGet q off = s.preqGet q off
    let refused (used : Prop) : Prop := Does (.owner r) s fun t => t = { s with regs := t.regs, preq := t.preq } ∧ (used → usedUp t) ∧ (¬ used → t.preq = s.preq) ∧
      FieldsSet s t [(R.UPD.STATUS.REASON, 9)]
    let taken (keys : List KeyEnt) (f : Fld × Nat) : Prop := Does (.owner r) s fun t =>
      t = { s with regs := t.regs, preq := t.preq, upd := { s.upd with owner := none, keys := keys } } ∧ usedUp t ∧
      FieldsSet s t [(R.UPD.STATUS.REASON, 0), (R.UPD.CMD.all, 5), (R.UPD.CMDCNT.COUNT, s.get R.UPD.CMDCNT.COUNT + 1), f]
    (s.steward r = false → Ignored (.owner r) s) ∧
    (s.steward r = true → s.upd.owner = none → refused False) ∧
    (s.steward r = true → s.upd.owner = some m →
      (¬ valid → refused (chalIs m.chal.toNat)) ∧
      (valid → m.action = 1 → taken s.upd.keys (R.UPD.OWNER.LOCKED, 1)) ∧
      (valid → m.action = 2 → taken s.upd.keys (R.UPD.OWNER.LOCKED, 0)) ∧
      (valid → m.action = 3 →
        taken (s.upd.keys.filter (fun k => k.id != 0x20) ++ [⟨0x20, m.newKey.length = 1952, false, m.newKey⟩]) (R.UPD.OWNER.OWNKEY, 1))) ∧
    (r = .maint → s.session = none → Does (.ochalRead r) s fun t => t = { s with resp := some 0 }) ∧
    (r ≠ .maint ∨ s.session ≠ none → Does (.ochalRead r) s fun t =>
      ∃ c : BitVec 64, t = { s with
          free := s.free + 1, preq := t.preq, latch := t.latch, resp := if isEng r then s.resp else some (c.truncate 32) } ∧
        t.preqGet r lo = c.truncate 32 ∧ t.preqGet r hi = (c >>> 32).truncate 32 ∧ t.preqGet r (lo + 1) = 1 ∧
        ∀ q off, (q ≠ r ∨ (off ≠ lo ∧ off ≠ hi ∧ off ≠ lo + 1)) → t.preqGet q off = s.preqGet q off) ∧
    (opens = true → root = 0x20 → Does (.maintenanceSessionOpen root mldsa chains) s fun t => t = { s with session := some .owner }) ∧
    (opens = true → 1 ≤ root → root ≤ 0xF → Does (.maintenanceSessionOpen root mldsa chains) s fun t => t = { s with session := some .hafahild }) ∧
    (opens = false ∨ (root ≠ 0x20 ∧ ¬ (1 ≤ root ∧ root ≤ 0xF)) → Ignored (.maintenanceSessionOpen root mldsa chains) s) ∧
    (Does .maintenanceSessionClose s fun t => t = { s with session := none }) ∧
    (s.session ≠ none → s.get R.CFG.STATUS.PEND = 0 → Does (.configImageReceived img) s fun t =>
      t = { s with regs := t.regs, nv := { s.nv with staged := some img } } ∧ FieldsSet s t [(R.CFG.STATUS.STGV, 0), (R.CFG.STGVER.CFGVER, 0)]) ∧
    (s.session = none ∨ s.get R.CFG.STATUS.PEND ≠ 0 → Ignored (.configImageReceived img) s) ∧
    (s.session ≠ none → Does (.ownerMessageReceived m) s fun t => t = { s with upd := { s.upd with owner := some m } }) ∧
    (s.session = none → Ignored (.ownerMessageReceived m) s) ∧
    (s.get R.BIST.LCS.STATE = 1 → Does (.factoryIdentityRecordWrite serial mac idPub idCert fact) s fun t =>
      t = { s with nv := { s.nv with
        ident := true, serial := serial, mac := mac, idPub := idPub, idCert := idCert, factory := if fact = none then s.nv.factory else fact } }) ∧
    (s.get R.BIST.LCS.STATE ≠ 1 → Ignored (.factoryIdentityRecordWrite serial mac idPub idCert fact) s) ∧
    (s.upd.idKey = true → (x3 = true ∨ s.txOpen = true) → Does (.attestationRequest x3 nonce) s fun t =>
      ∃ b : List Byte, t = { s with regs := t.regs, out := .report (s.portMac x3) (b ++ leBytes 2 2420 ++ bytesAt (Config.sign b) 0 2420) :: s.out } ∧
        FieldsSet s t [(R.UPD.ATTCNT.COUNT, s.get R.UPD.ATTCNT.COUNT + 1)] ∧ b.length = 256 ∧ bytesAt b 0 4 = leBytes 4 0x7A3115C0 ∧
        bytesAt b 4 4 = leBytes 4 (s.reg R.ID.PART.NUM.off).toNat ∧ bytesAt b 0x11 1 = leBytes 1 (s.get R.BIST.LCS.STATE) ∧
        bytesAt b 0x12 1 = leBytes 1 (s.get R.SUP.STATE.MSTATE) ∧ bytesAt b 0x18 4 = leBytes 4 (s.get R.TASK.PVER.fld) ∧
        bytesAt b 0x1C 4 = leBytes 4 (s.get R.CFG.CURVER.CFGVER) ∧ bytesAt b 0x28 32 = leBytes 32 s.actDigest.toNat ∧
        bytesAt b 0x48 32 = leBytes 32 s.boot.fwDig.toNat ∧ (∀ d, s.boot.prgDig = some d → bytesAt b 0x68 32 = leBytes 32 d.toNat) ∧ bytesAt b 0xA8 32 = leBytes 32 nonce.toNat ∧ bytesAt b 0xC8 8 = leBytes 8 s.nowNs ∧ bytesAt b 0xD0 48 = leBytes 48 0) ∧
    (s.upd.idKey = false ∨ (x3 = false ∧ s.txOpen = false) → Ignored (.attestationRequest x3 nonce) s)

/-- R17, R18, R21 to R23, R355, R356, R360, R361, R365 to R367, R369 to R375, R383: power, restarts, self-test and life cycle. A power failure is recorded
while RUN goes on; power-down de-energises and ends in SAFE with SUP.FLAG.SAFE set, no trigger; a recovery before it loses nothing. Restarts are refused in
BOOT and where the module carries the rack's work; SAFE is trigger 16. A test starts only where it is reachable, a manual one ending an automatic one with
cause 5; a slice runs once in a frame, in RUN after COMMIT, and the channels that execute then issue their tokens; each slice counts, the last one decides
PASS or FAIL; a test that is no longer reachable ends with cause 2; GEYSER waits for the partner's test and ends with that, cause 4; SIOLOOP closes and opens
every switch, SO0 to SO4 in the first 1,248 units of work and SO0 HS in the first four, and gives every input three levels (the order is log 30's); STOP and a partner that does not come end it INCOMPLETE; after WSLOOP both sensors count
as good from its end on. A life-cycle command needs its state, its session and its conditions and waits for the tick. The model's own: RUN is 1 from the accepted
START on, and slices run at any phase in STARTTEST, INIT, SAFE and RECOVERY (log 30); lastSafe keeps 0x20 for a power-down, and `supply` the input measured last
(log 25). -/
def Obligations.PowerTestsAndLifeCycleFollowTheirRules : Prop :=
  ∀ (s : State) (r : Req) (mv : BitVec 16) (test : Fin 8) (matched : Bool) (failed item : Nat) (confirm : BitVec 16),
    let up : Prop := s.sup.powered = true ∧ s.sup.supplyOk = true
    let lcs := s.get R.BIST.LCS.STATE
    let depot : Bool := lcs = 3 || lcs = 1
    let down : Prop := s.mstate = .safe ∨ s.mstate = .recovery
    let off (t : State) : Prop := t.sup.down = true ∧ t.get R.SIO.OSTATE.DEM = 0 ∧ t.sup.latch = true ∧ t.get R.SUP.CAUSE.CODE = s.get R.SUP.CAUSE.CODE ∧
      t.get R.SUP.SAFECNT.COUNT = s.get R.SUP.SAFECNT.COUNT
    -- steward commands
    let judged (c : Instr) (code why : Nat) (rest : State → State) : Prop := Judged c s r R.STW.CMD.CODE R.STW.CMDCNT.COUNT R.STW.REASON.CODE code why [] rest
    let idle : Bool := s.mstate = .safe || s.mstate = .recovery || s.mstate = .init || (s.mstate = .run && (s.role = .standby || s.role = .fenced)) || depot
    let why := firstReason [(2, s.mstate = .boot), (3, !idle)]
    -- tests
    let n := test.val
    let partner := if s.pair.hbLive then s.pair.hb else none
    let heard : Prop := ∃ h, partner = some h ∧ h.flags.toNat / 64 % 2 = 1
    let quiet : Bool := s.role = .standby || s.role = .fenced || s.mstate = .safe
    let kind (n : Nat) : Bool := depot || (lcs = 2 && decide (n ≤ 2))
    let pre (n : Nat) : Bool := match n with
      | 3 => s.role = .fenced || s.mstate = .safe
      | 4 => s.get R.BRG.STATUS.HOLD = 0 && (match partner with
        | some h => h.role != .alone && h.role != .active && h.flags.toNat / 32 % 2 = 0
        | none => true)
      | 5 | 6 => quiet
      | 7 => !s.txen
      | _ => true
    let running := s.get R.BIST.STATUS.RUN
    let m := s.get R.BIST.STATUS.TEST
    let units := s.pUs / 250
    let slices := (([2400, 400, 160, 800, 4000, 2000, 600, 200] : List Nat).getD n 0 + units - 1) / units
    let start := Instr.testStart r test
    let startWhy := firstReason [(2, s.mstate = .boot || s.mstate = .recovery), (3, !kind n), (4, !pre n), (5, running = 1 && s.get R.BIST.STATUS.MANUAL = 1)]
    let results (cause : Nat) : List (Fld × Nat) := [(R.BIST.RES.RESULT m, 4), (R.BIST.RES.PARTBAD m, b2n s.bist.bad), (R.BIST.RES.ABCAUSE m, cause),
      (R.BIST.RES.SLICES m, s.get R.BIST.PROG.DONE), (R.BIST.DET.FAILCNT m, min s.bist.failed 0xFFFF), (R.BIST.DET.ITEM m, s.bist.item)]
    let ended : List (Fld × Nat) := [(R.BIST.FLAG.DONE, 1), (R.BIST.FLAG.INCOMPLETE, 1)]
    let stopped (cause : Nat) := [(R.BIST.STATUS.RUN, 0), (R.BIST.STATUS.MANUAL, 0)] ++ results cause ++ ended
    let lost : List (Fld × Nat) := if n = 6 then [(R.SPD.STATUS.S0OK, 0), (R.SPD.STATUS.S1OK, 0)] ++
        (if s.get R.SPD.STATUS.MODE = 3 then [] else [(R.SPD.STATUS.MODE, 3), (R.SPD.STATUS.UCAUSE, 3), (R.SPD.STATUS.STILL, 0), (R.SPD.FLAG.UNKNOWN, 1)]) else []
    let anew : SpdSt := if running = 1 ∧ m = 6 then { s.spd with s0 := { s.spd.s0 with goodFrom := s.nowNs }, s1 := { s.spd.s1 with goodFrom := s.nowNs } } else s.spd
    let begins (more : List (Fld × Nat)) : Prop := Does start s fun t =>
      t = { s with regs := t.regs, spd := anew, bist := { s.bist with start := some n, bad := false, failed := 0, item := 0, drove := [], geyser := t.bist.geyser } } ∧
      (t.bist.geyser = true ↔ heard) ∧
      FieldsSet s t ([(R.BIST.REASON.CODE, 0), (R.BIST.CMD.all, 256 * n + 1), (R.BIST.CMDCNT.COUNT, s.get R.BIST.CMDCNT.COUNT + 1), (R.BIST.STATUS.RUN, 1),
        (R.BIST.STATUS.MANUAL, 1), (R.BIST.STATUS.TEST, n), (R.BIST.PROG.TOTAL, slices), (R.BIST.PROG.DONE, 0), (R.BIST.RES.all n, 2 ^ 28),
        (R.BIST.DET.all n, 0)] ++ lost ++ more)
    let slice := Instr.selfTestSlice matched failed item
    let count := s.get R.BIST.PROG.DONE + 1
    let bad := s.bist.bad || !matched || failed != 0
    let first := if s.bist.failed = 0 ∧ failed ≠ 0 then item else s.bist.item
    let phase := s.get R.GONG.STATUS.PHASE
    let opens : Bool := if s.mstate = .run then phase = 4
      else if s.mstate ≠ .boot then s.gong.ticking && phase != 6 else false
    -- in RUN every channel that executes then issues its frame-complete token
    let issue := [Ch.a, .b, .c].filter s.executing
    let tokens : List Out := if s.mstate = .run then (issue.map Out.token).reverse else []
    let sup' := if s.mstate = .run then { s.sup with tokens := (issue.map fun ch => 2 ^ chNum ch).sum } else s.sup
    let driven : List SioDrive := if m = 5 then (List.range units).map fun i => sioDrive (s.get R.BIST.PROG.DONE * units + i) else []
    let runs (seen : Bool) (spd : SpdSt) (more : List (Fld × Nat)) : Prop := Does slice s fun t =>
      t = { s with
        regs := t.regs, out := tokens ++ s.out, sup := sup', spd := spd
        bist := { s.bist with start := none, bad := bad, failed := s.bist.failed + failed, item := first, drove := driven, geyser := seen } } ∧
      FieldsSet s t ([(R.BIST.PROG.DONE, count), (R.GONG.STATUS.PHASE, 6)] ++ more)
    let late : Prop := running = 1 ∧ m = 3 ∧ s.bist.geyser = false ∧ ¬ heard
    -- life-cycle commands
    let life (c : Instr) (v : Nat) (from' : List Nat) (to' : Nat) (strong : Bool) (more : List (Nat × Bool)) : Prop :=
      let weak : Bool := s.session.isNone || (strong && s.session = some .owner)
      let why := firstReason ([(8, s.bist.lcNew.isSome), (2, !from'.contains lcs), (3, weak)] ++ more)
      (s.steward r = false → Ignored c s) ∧ (s.steward r = true → why ≠ 0 → Sets c s [(R.BIST.LCREASON.CODE, why)]) ∧
      (s.steward r = true → why = 0 → s.gong.ticking = true → Does c s fun t =>
        t = { s with regs := t.regs, bist := { s.bist with lcNew := some to' } } ∧
        FieldsSet s t [(R.BIST.LCREASON.CODE, 0), (R.BIST.LCCMD.all, v), (R.BIST.LCCNT.COUNT, s.get R.BIST.LCCNT.COUNT + 1)]) ∧
      (s.steward r = true → why = 0 → s.gong.ticking = false → Does c s fun t =>
        t.get R.BIST.LCS.STATE = to' ∧ t.get R.BIST.FLAG.LCCHG = 1 ∧ t.get R.CFG.EXPERT.UNLK = 0 ∧ t.bist.lcNew = none ∧
        (to' = 4 → t.upd.idKey = false) ∧ (to' ≠ 4 → lcs ≠ 0 → t.upd.idKey = s.upd.idKey))
    let notDown : Bool := s.mstate != .safe && s.mstate != .recovery
    (up → mv.toNat < 1680 → Does (.powerFailure mv) s fun t =>
      t = { s with regs := t.regs, fum := t.fum, fumPos := t.fumPos, sup := { s.sup with supplyOk := false, supply := mv.toNat } } ∧
      Recorded s t 0x02 0x0F 0x100 (leBytes 1 (s.get R.SUP.STATE.MSTATE) ++ leBytes 1 0 ++ leBytes 2 mv.toNat) ∧
      FieldsSet s t [(R.SUP.SUPPLY.INPUT, mv.toNat), (R.SUP.STATE.PDOWN, 1), (R.SUP.FLAG.PFAIL, 1), (R.SUP.PFCNT.COUNT, s.get R.SUP.PFCNT.COUNT + 1),
        (R.SUP.FUMSEQ.SEQ, s.get R.SUP.FUMSEQ.SEQ + 1)]) ∧
    (¬ up ∨ 1680 ≤ mv.toNat → Ignored (.powerFailure mv) s) ∧
    (s.sup.powered = false ∨ s.sup.supplyOk = true ∨ s.sup.down = true → Ignored .powerDown s ∧ Ignored (.powerRecovered mv) s) ∧
    (s.sup.powered = true → s.sup.supplyOk = false → s.sup.down = false →
      (s.mstate = .run → s.get R.GONG.STATUS.PHASE ≠ 2) → ¬ down → Does .powerDown s fun t => t.mstate = .safe ∧ off t ∧ t.role = .none ∧
        t.get R.PAIR.ROLE.PACT = 0 ∧ t.get R.BRG.STATUS.HOLD = 0 ∧ t.sup.lastSafe = 0x20 ∧ t.get R.SUP.FLAG.SAFE = 1 ∧ ∀ ch, (t.ch ch).insts = []) ∧
    (s.sup.powered = true → s.sup.supplyOk = false → s.sup.down = false → down → Does .powerDown s fun t => t.mstate = s.mstate ∧ off t) ∧
    (s.sup.powered = true → s.sup.supplyOk = false → s.sup.down = false → 1750 < mv.toNat → Does (.powerRecovered mv) s fun t =>
      t = { s with regs := t.regs, sup := { s.sup with supplyOk := true, supply := mv.toNat } } ∧ FieldsSet s t [(R.SUP.SUPPLY.INPUT, mv.toNat), (R.SUP.STATE.PDOWN, 0)]) ∧
    (mv.toNat ≤ 1750 → Ignored (.powerRecovered mv) s) ∧
    (s.sup.down = true → Does .holdupEnd s fun t => t = { s with sup := { s.sup with powered := false } }) ∧
    (s.sup.down = false → Ignored .holdupEnd s) ∧
    judged (.stwRestart r) 1 why (fun s => { s with sup := { s.sup with restart := some (s.sup.restart.getD false) } }) ∧
    judged (.coldstart r) 2 why (fun s => { s with sup := { s.sup with restart := some true } }) ∧
    (s.steward r = false → Ignored (.stwSafe r) s) ∧
    (s.steward r = true → down ∨ s.mstate = .boot → Sets (.stwSafe r) s [(R.STW.REASON.CODE, 2)]) ∧
    (s.steward r = true → ¬ down → s.mstate ≠ .boot → Does (.stwSafe r) s fun t => EntersSafe s t 16 0 ∧ t.get R.STW.REASON.CODE = 0 ∧
      t.get R.STW.CMD.CODE = 3 ∧ t.get R.STW.CMDCNT.COUNT = (s.get R.STW.CMDCNT.COUNT + 1) % 2 ^ 32) ∧
    (s.steward r = false → Ignored start s ∧ Ignored (.testStop r) s) ∧
    (s.steward r = true →
      (startWhy ≠ 0 → Sets start s [(R.BIST.REASON.CODE, startWhy)]) ∧
      (startWhy = 0 → running = 0 → begins []) ∧
      (startWhy = 0 → running = 1 → m ≠ n → begins (results 5 ++ ended)) ∧
      (startWhy = 0 → running = 1 → m = n → begins ended) ∧
      (running = 0 → Sets (.testStop r) s [(R.BIST.REASON.CODE, 6)]) ∧
      (running = 1 → Does (.testStop r) s fun t => t = { s with regs := t.regs, spd := anew, bist := { s.bist with start := none, drove := [] } } ∧
        FieldsSet s t (stopped 1 ++ [(R.BIST.REASON.CODE, 0), (R.BIST.CMD.all, 2), (R.BIST.CMDCNT.COUNT, s.get R.BIST.CMDCNT.COUNT + 1)]))) ∧
    (late → Does .geyserTestPartnerTimeout s fun t => t = { s with regs := t.regs, bist := { s.bist with start := none, drove := [] } } ∧ FieldsSet s t (stopped 4)) ∧
    (¬ late → Ignored .geyserTestPartnerTimeout s) ∧
    (opens = false → Ignored slice s) ∧
    (opens = true →
      (running = 0 → s.get R.BIST.AUTO.MASK = 0 → Does slice s fun t =>
        t = { s with regs := t.regs, out := tokens ++ s.out, sup := sup', bist := { s.bist with drove := [] } } ∧
        FieldsSet s t [(R.GONG.STATUS.PHASE, 6)]) ∧
      (running = 1 → m ≠ 3 → m ≠ 4 → kind m = false ∨ pre m = false → s.get R.BIST.AUTO.MASK = 0 → Does slice s fun t =>
        t = { s with regs := t.regs, out := tokens ++ s.out, sup := sup', spd := anew, bist := { s.bist with start := none, drove := [] } } ∧
        FieldsSet s t (stopped 2 ++ [(R.GONG.STATUS.PHASE, 6)])) ∧
      -- GEYSER waits for the partner, and ends where it has heard the partner's test and hears it no longer
      (running = 1 → m = 3 → kind 3 = true → pre 3 = true → ¬ heard → s.bist.geyser = false → Does slice s fun t =>
        t = { s with regs := t.regs, out := tokens ++ s.out, sup := sup', bist := { s.bist with start := none } } ∧ FieldsSet s t [(R.GONG.STATUS.PHASE, 6)]) ∧
      (running = 1 → m = 3 → kind 3 = true → pre 3 = true → ¬ heard → s.bist.geyser = true → s.get R.BIST.AUTO.MASK = 0 → Does slice s fun t =>
        t = { s with regs := t.regs, out := tokens ++ s.out, sup := sup', bist := { s.bist with start := none, drove := [] } } ∧
        FieldsSet s t (stopped 4 ++ [(R.GONG.STATUS.PHASE, 6)])) ∧
      (running = 1 → (m = 3 ∧ heard) ∨ (m ≠ 3 ∧ m ≠ 4) → kind m = true → pre m = true →
        (count < s.get R.BIST.PROG.TOTAL → runs (s.bist.geyser || m = 3) s.spd []) ∧
        (s.get R.BIST.PROG.TOTAL ≤ count → runs (s.bist.geyser || m = 3) anew ([(R.BIST.STATUS.RUN, 0), (R.BIST.STATUS.MANUAL, 0), (R.BIST.RES.RESULT m, if bad then 3 else 2),
          (R.BIST.RES.PARTBAD m, 0), (R.BIST.RES.ABCAUSE m, 0), (R.BIST.RES.SLICES m, count), (R.BIST.DET.FAILCNT m, min (s.bist.failed + failed) 0xFFFF),
          (R.BIST.DET.ITEM m, first), (R.BIST.FLAG.DONE, 1)] ++ if bad then [(R.BIST.FLAG.FAIL, 1)] else [])))) ∧
    -- SIOLOOP (Table 17-6)
    ((∀ u, u < 4 → ∃ close, sioDrive u = .switch 0 false close) ∧ (∀ u, u < 1248 → ∃ o ls close, sioDrive u = .switch o ls close ∧ o.val < 5) ∧
      (∀ u, 1248 ≤ u → u < 2000 → ∀ o ls close, sioDrive u = .switch o ls close → 5 ≤ o.val) ∧
      (∀ o ls close, ∃ u, u < 2000 ∧ sioDrive u = .switch o ls close) ∧ ∀ i level, ∃ u, u < 2000 ∧ sioDrive u = .source i level) ∧
    life (.mfg r) 1 [0] 1 true [] ∧ life (.release r) 2 [1] 2 true [(7, !s.nv.ident)] ∧
    life (.depot r) 3 [2] 3 false [(4, s.get R.SPD.STATUS.STILL = 0)] ∧ life (.service r) 4 [3] 2 false [] ∧
    life (.returnC r) 5 [2, 3] 1 true [(5, notDown)] ∧
    life (.retire r confirm) (65536 * confirm.toNat + 6) [1, 2, 3] 4 false [(5, notDown), (6, confirm != 0x5E7D)] ∧
    -- unpowered, the module takes no command but the supply's return and Solfatara's own
    (s.sup.powered = false → ∀ c, osrusForm c = none → (∀ a b, c ≠ .powerInputValid a b) → (∀ a b d, c ≠ .retainBufferCutoff a b d) → Ignored c s)

/-- R1 to R5, R15, R22, R23, R262, R268, R299, R303, R318, R320, R347: registers. A read of a _LO register latches its _HI register for that requester,
NOWSEC_LO the other three time registers; _HI then reads the latched value, else the live one. A _LO write is held until the same requester writes _HI, which
changes both halves. A W1C flag is cleared by a 1, which withdraws a source that waits for it; read-only registers keep their values; configuration takes a
write in BOOT and INIT, PER in INIT, FORCEOK while unlocked; a command register acts as its command, an undefined code only shows REASON 1. A program's
write reaches only the registers a program may write; the maintenance port without a session reads 0 outside the ID block and writes nothing; a
misaligned offset is unmapped. A steward core's load of the outbound window takes a delayed-read slot or waits for one; an earlier one of the core has gone. The
model's own (log 26): a _LO write is held whatever the state, and a _HI write outside its window uses it up; PER takes a write in INIT only; the times
in which configuration registers take one; what follows a write of ADDRCFG (log 29); an engine's COMPLETE reaches its own target only. -/
def Obligations.RegistersAreReadAndWrittenByTheirRules : Prop :=
  ∀ (s : State) (r : Req) (off : Nat) (v w : W32) (ring : Fin 64) (e : Eng) (j : Fin 8),
    let shut : Prop := r = .maint ∧ s.session = none
    let open_ : Prop := r ≠ .maint ∨ s.session ≠ none
    let word (n : Nat) : W32 := BitVec.ofNat 32 n
    let latched (t : State) (f : Fld) (x : W32) : Prop := tblFind t.latch (reqKey r f.off) = some x
    let others (t : State) (l : List Fld) : Prop := ∀ q off, (q ≠ r ∨ off ∉ l.map (·.off)) → tblFind t.latch (reqKey q off) = tblFind s.latch (reqKey q off)
    let frame := if s.get R.GONG.STATUS.ALIGNED = 1 then s.gong.frame else 0
    let reads (off : Nat) := Instr.loRegisterRead r off
    let frameLo := reads R.GONG.FRAME_LO.FRAME.off
    let frameHi := reads R.GONG.FRAME_HI.FRAME.off
    -- a steward core's load of the outbound window
    let out_ : Prop := off % 4 = 0 ∧ 0x100000000 ≤ off ∧ off < 0x200000000 ∧ (r = .st0 ∨ r = .st1)
    let core := DrReq.core (r = .st1)
    let slots := s.brg.slots.map fun d => d.map fun x => if x.req = core then { x with gone := true } else x
    let slot (k : Fin 8) := slots[k]
    let left := { s.brg with slots := slots, waits := s.brg.waits.filter fun x => x.req ≠ core }
    let asks (b : BrgSt) : Prop := Does (reads off) s fun t => t = { s with resp := none, brg := b }
    -- pairs that take writes
    let base := 0x60800 + 32 * ring.val
    let pair : Prop := off = R.SIG.FVAL_LO.VAL.off ∨ off = R.TIME.INCR_LO.FRAC.off ∨ off = R.TIME.STEP_LO.OFFS.off ∨ off = base
    let lo (off : Nat) := (tblFind s.held (reqKey r off)).getD (s.reg off)
    let early : Prop := s.mstate = .boot ∨ s.mstate = .init
    let both (off : Nat) (hi : W32) : Prop := Does (.hiRegisterWrite r (off + 4) v) s fun t =>
      t = { s with regs := t.regs, held := t.held } ∧ tblFind t.held (reqKey r off) = none ∧ t.reg off = lo off ∧ t.reg (off + 4) = hi ∧
      RegsKept s t [off, off + 4]
    let write := Instr.registerWrite r off v
    let sameAs (f : Fld) (code : Nat) (c : Instr) : Prop := off = f.off → v.toNat % 16 = code → exec write s = exec c s
    let flags := [R.GONG.FLAG.all, R.SIG.FLAG.all, R.VOTE.FLAG.all, R.EVC.FLAG.all, R.NET.FLAG.all, R.TIME.FLAG.all, R.SIO.FLAG.all, R.SPD.FLAG.all,
      R.BRG.FLAG.all, R.PAIR.FLAG.all, R.CFG.FLAG.all, R.UPD.FLAG.all, R.SUP.FLAG.all, R.BIST.FLAG.all, R.ID.FLAG.all]
    let config := [R.NET.CFG.PMODE, R.TIME.CFG.DOMAIN, R.BRG.CFG.IBASE, R.SUP.CFG.EXTEN, R.UPD.CFG.TRIALN, R.CFG.EXPCFG.TO,
      R.PAIR.CFG.COLDTAKE, R.BIST.AUTO.MASK]
    let readOnly := [R.SUP.STATE.MSTATE, R.PAIR.ROLE.PACT, R.TASK.XSTAT.STATE, R.VOTE.CHST.CH 0, R.NET.RXACC.COUNT, R.CFG.CURVER.CFGVER, R.BIST.LCS.STATE]
    let sensed (t : State) := s.evs.filter fun p => p.2.ph != .pending || (t.evLevel p.1 && t.evEnabled p.1)
    let program (c : Instr) : Prop := exec (.registerWrite (.eng e) off v) s = exec c s
    let reached := [R.SIG.QID.SIGID.off, R.NET.TSEL.INDEX.off, R.EVC.HOLDSET.TGT.off, R.EVC.HOLDCLR.TGT.off, 0x50080 + 4 * e.val, 0x200044]
    -- reads
    (shut → (∀ o, 0x10000 ≤ o → Does (reads o) s fun t => t = { s with resp := some 0 }) ∧
      Does (.nowsecLoRead r) s fun t => t = { s with resp := some 0 }) ∧
    (open_ → Does (.nowsecLoRead r) s fun t => t = { s with latch := t.latch, resp := if isEng r then s.resp else some (word (s.nowNs / 1000000000)) } ∧
      latched t R.TIME.NOWSEC_HI.SEC (word (s.nowNs / 1000000000 / 2 ^ 32)) ∧ latched t R.TIME.NOWNS.NSEC (word (s.nowNs % 1000000000)) ∧
      latched t R.TIME.NOWFRAC.FRAC (word (s.clk % 2 ^ 32 / 2 ^ 16)) ∧ others t [R.TIME.NOWSEC_HI.SEC, R.TIME.NOWNS.NSEC, R.TIME.NOWFRAC.FRAC]) ∧
    (open_ → Does frameLo s fun t => t = { s with latch := t.latch, resp := if isEng r then s.resp else some (word frame) } ∧
      latched t R.GONG.FRAME_HI.FRAME (word (frame / 2 ^ 32)) ∧ others t [R.GONG.FRAME_HI.FRAME]) ∧
    (open_ → tblFind s.latch (reqKey r R.GONG.FRAME_HI.FRAME.off) = some w → Does frameHi s fun t =>
      t = { s with resp := if isEng r then s.resp else some w }) ∧
    (open_ → tblFind s.latch (reqKey r R.GONG.FRAME_HI.FRAME.off) = none → Does frameHi s fun t =>
      t = { s with resp := if isEng r then s.resp else some (word (frame / 2 ^ 32)) }) ∧
    (∀ f ∈ readOnly, open_ → Does (reads f.off) s fun t => t = { s with resp := if isEng r then s.resp else some (s.reg f.off) }) ∧
    (out_ → s.get R.BRG.STATUS.HOLD = 0 → Does (reads off) s fun t => t = { s with regs := t.regs, resp := none, brg := left } ∧
      FieldsSet s t [(R.BRG.FLAG.RDERR, 1), (R.BRG.RDERRCNT.COUNT, min (s.get R.BRG.RDERRCNT.COUNT + 1) (2 ^ R.BRG.RDERRCNT.COUNT.w - 1))]) ∧
    (out_ → s.get R.BRG.STATUS.HOLD = 1 → slot j = none → (∀ k, k < j → slot k ≠ none) →
      asks { left with slots := slots.set j (some ⟨core, BitVec.ofNat 32 off, 4, s.brg.posted.length, false⟩) }) ∧
    (out_ → s.get R.BRG.STATUS.HOLD = 1 → (∀ k, slot k ≠ none) → asks { left with waits := left.waits ++ [⟨core, BitVec.ofNat 32 off, 4⟩] }) ∧
    -- pairs
    (s.steward r = true → pair → Does (.loRegisterWrite r off v) s fun t => t = { s with held := tblPut s.held (reqKey r off) v }) ∧
    (s.steward r = false ∨ isPairLo off = false → Ignored (.loRegisterWrite r off v) s) ∧
    (s.steward r = false ∨ off < 4 ∨ isPairLo (off - 4) = false → Ignored (.hiRegisterWrite r off v) s) ∧
    (s.steward r = true → both R.SIG.FVAL_LO.VAL.off v ∧ (early → both base (v &&& 0xFF)) ∧
      (¬ early → Does (.hiRegisterWrite r (base + 4) v) s fun t => t = { s with held := t.held } ∧ tblFind t.held (reqKey r base) = none) ∧
      exec (.hiRegisterWrite r R.TIME.INCR_HI.NS.off v) s = exec (.incrWrite r v) s ∧
      exec (.hiRegisterWrite r R.TIME.STEP_HI.OFFS.off v) s = exec (.timeStep r v) s) ∧
    -- writes of single registers
    (off % 4 ≠ 0 ∨ shut → Ignored write s) ∧
    (s.steward r = true →
      sameAs R.STW.CMD.CODE 1 (.stwRestart r) ∧ sameAs R.STW.CMD.CODE 3 (.stwSafe r) ∧ sameAs R.PAIR.CMD.CODE 1 (.switchover r) ∧
      sameAs R.SIG.FCMD.CODE 1 (.forceSet r) ∧ sameAs R.TASK.XCMD.CODE 2 (.exchangeArm r) ∧ sameAs R.TIME.CMD.CODE 1 (.timeForce r) ∧
      sameAs R.VOTE.CMD.CODE 1 (.clearperm r) ∧ sameAs R.CFG.CMD.CODE 1 (.cfgStage r) ∧
      (off = R.STW.CMD.CODE.off → v.toNat % 16 = 0 ∨ 3 < v.toNat % 16 → Sets write s [(R.STW.REASON.CODE, 1)]) ∧
      (off = R.CFG.CMD.CODE.off → v.toNat % 16 = 0 ∨ 5 < v.toNat % 16 → Sets write s [(R.CFG.REASON.CODE, 1)]) ∧
      (∀ f ∈ flags, off = f.off → Does write s fun t => t = { s with regs := t.regs, evs := sensed t } ∧ RegsKept s t [off] ∧
        ∀ fs, regFields off = some fs → ∀ b, b < 32 → (t.reg off).getLsbD b =
          ((s.reg off).getLsbD b && !(v.getLsbD b && fs.any fun x => x.acc = .w1c && decide (x.lo ≤ b) && decide (b < x.lo + x.w)))) ∧
      (∀ f ∈ readOnly, off = f.off → Does write s fun t => t = { s with regs := t.regs, evs := sensed t } ∧ RegsKept s t []) ∧
      (∀ n, 16 ≤ n → n < 256 → off = (R.EVC.SCFG.EN n).off →
        (early → Does write s fun t => t = { s with regs := t.regs, evs := t.evs } ∧ t.reg off = v &&& 0x80000F0F ∧ EvPolled s t (n + 160) ∧
          RegsKept s t [off, R.EVC.FLAG.CFGERR.off] ∧ ∀ x, x ≠ n + 160 → tblFind t.evs x = tblFind s.evs x) ∧
        (s.mstate = .run ∨ s.mstate = .safe → Does write s fun t => t = { s with regs := t.regs, evs := t.evs } ∧ EvPolled s t (n + 160) ∧
          FieldsSet s t [(R.EVC.SCFG.EN n, v.toNat / 2 ^ 31)] ∧ ∀ x, x ≠ n + 160 → tblFind t.evs x = tblFind s.evs x)) ∧
      (∀ f ∈ config, off = f.off → ¬ early → Ignored write s) ∧
      (∀ f ∈ config, off = f.off → early → Does write s fun t => t = { s with regs := t.regs } ∧
        RegsKept s t [off, R.NET.FLAG.CFGERR.off, R.TIME.FLAG.CFGERR.off] ∧
        ∀ fs, regFields off = some fs → ∀ b, b < 32 → (t.reg off).getLsbD b =
          if fs.any fun x => x.acc = .rw && x.nv && decide (x.lo ≤ b) && decide (b < x.lo + x.w) then v.getLsbD b else (s.reg off).getLsbD b) ∧
      -- ADDRCFG: UCAUSE follows, and in INIT the addresses (log 29)
      (off = R.CFG.ADDRCFG.MODE.off → ¬ early → Ignored write s) ∧
      (off = R.CFG.ADDRCFG.MODE.off → early → Does write s fun t =>
        t = { s with regs := t.regs, boot := t.boot, net := t.net, out := t.out } ∧ t.get R.CFG.ADDRCFG.MODE = v.toNat / 2 ^ 31 % 2 ∧ t.get R.CFG.ADDRCFG.ESUB = v.toNat % 64 ∧
        (t.reg off ≠ s.reg off → s.get R.ID.ASTAT.ADDR = 0 → t.get R.ID.ASTAT.UCAUSE = t.ucause) ∧
        (t.reg off ≠ s.reg off → s.mstate = .init → s.get R.ID.ASTAT.ADDR = 1 → t.net.addrNext = some false) ∧
        (t.reg off = s.reg off ∨ s.mstate = .boot → t.boot = s.boot ∧ t.net = s.net ∧ t.out = s.out)) ∧
      (off = R.TASK.EXCH.FORCEOK.off →
        (s.get R.CFG.EXPERT.UNLK = 1 → Sets write s [(R.TASK.EXCH.FORCEOK, v.toNat % 2)]) ∧ (s.get R.CFG.EXPERT.UNLK = 0 → Ignored write s)) ∧
      (off = (R.TASK.PER.EXP 0).off → s.mstate ≠ .init → Ignored write s)) ∧
    -- a program's writes
    (off = R.EVC.HOLDSET.TGT.off → program (.holdset (.eng e) (v.truncate 10))) ∧
    (off = R.EVC.HOLDCLR.TGT.off → program (.holdclr (.eng e) (v.truncate 10))) ∧
    (off = 0x50080 + 4 * e.val → program (.eventComplete (.eng e) ⟨e.val, by omega⟩ (v.truncate 10))) ∧
    (off = 0x200044 → program (.cackWrite (.eng e) v)) ∧
    (off = R.SIG.QID.SIGID.off → Does (.registerWrite (.eng e) off v) s fun t =>
      t = { s with preq := t.preq } ∧ t.preqGet (.eng e) off = word (v.toNat % 2 ^ 25)) ∧
    (off ∉ reached → ¬ (0x50200 ≤ off ∧ off < 0x50228) → ¬ (0x50260 ≤ off ∧ off < 0x50278) → ¬ (0x200000 ≤ off ∧ off < 0x200040) →
      Ignored (.registerWrite (.eng e) off v) s)
end

