-- ==== Sys2Proof/Laws/State.lean ====
section
/-! SUPPORT. What each update of State leaves as it was, field by field, so that no proof unfolds a record update. -/

namespace Sys2Proof.Machine

/-! ## setReg -/

@[simp] theorem State.setReg_pending (s : State) (o : Nat) (v : W32) : (s.setReg o v).pending = s.pending := rfl
@[simp] theorem State.setReg_preq (s : State) (o : Nat) (v : W32) : (s.setReg o v).preq = s.preq := rfl
@[simp] theorem State.setReg_latch (s : State) (o : Nat) (v : W32) : (s.setReg o v).latch = s.latch := rfl
@[simp] theorem State.setReg_held (s : State) (o : Nat) (v : W32) : (s.setReg o v).held = s.held := rfl
@[simp] theorem State.setReg_resp (s : State) (o : Nat) (v : W32) : (s.setReg o v).resp = s.resp := rfl
@[simp] theorem State.setReg_free (s : State) (o : Nat) (v : W32) : (s.setReg o v).free = s.free := rfl
@[simp] theorem State.setReg_clk (s : State) (o : Nat) (v : W32) : (s.setReg o v).clk = s.clk := rfl
@[simp] theorem State.setReg_solNs (s : State) (o : Nat) (v : W32) : (s.setReg o v).solNs = s.solNs := rfl
@[simp] theorem State.setReg_secAcc (s : State) (o : Nat) (v : W32) : (s.setReg o v).secAcc = s.secAcc := rfl
@[simp] theorem State.setReg_gong (s : State) (o : Nat) (v : W32) : (s.setReg o v).gong = s.gong := rfl
@[simp] theorem State.setReg_seqr (s : State) (o : Nat) (v : W32) : (s.setReg o v).seqr = s.seqr := rfl
@[simp] theorem State.setReg_chA (s : State) (o : Nat) (v : W32) : (s.setReg o v).chA = s.chA := rfl
@[simp] theorem State.setReg_chB (s : State) (o : Nat) (v : W32) : (s.setReg o v).chB = s.chB := rfl
@[simp] theorem State.setReg_chC (s : State) (o : Nat) (v : W32) : (s.setReg o v).chC = s.chC := rfl
@[simp] theorem State.setReg_vote (s : State) (o : Nat) (v : W32) : (s.setReg o v).vote = s.vote := rfl
@[simp] theorem State.setReg_bank0 (s : State) (o : Nat) (v : W32) : (s.setReg o v).bank0 = s.bank0 := rfl
@[simp] theorem State.setReg_bank1 (s : State) (o : Nat) (v : W32) : (s.setReg o v).bank1 = s.bank1 := rfl
@[simp] theorem State.setReg_act (s : State) (o : Nat) (v : W32) : (s.setReg o v).act = s.act := rfl
@[simp] theorem State.setReg_forces (s : State) (o : Nat) (v : W32) : (s.setReg o v).forces = s.forces := rfl
@[simp] theorem State.setReg_fcmds (s : State) (o : Nat) (v : W32) : (s.setReg o v).fcmds = s.fcmds := rfl
@[simp] theorem State.setReg_evs (s : State) (o : Nat) (v : W32) : (s.setReg o v).evs = s.evs := rfl
@[simp] theorem State.setReg_fum (s : State) (o : Nat) (v : W32) : (s.setReg o v).fum = s.fum := rfl
@[simp] theorem State.setReg_fumPos (s : State) (o : Nat) (v : W32) : (s.setReg o v).fumPos = s.fumPos := rfl
@[simp] theorem State.setReg_smem (s : State) (o : Nat) (v : W32) : (s.setReg o v).smem = s.smem := rfl
@[simp] theorem State.setReg_pair (s : State) (o : Nat) (v : W32) : (s.setReg o v).pair = s.pair := rfl
@[simp] theorem State.setReg_sio (s : State) (o : Nat) (v : W32) : (s.setReg o v).sio = s.sio := rfl
@[simp] theorem State.setReg_spd (s : State) (o : Nat) (v : W32) : (s.setReg o v).spd = s.spd := rfl
@[simp] theorem State.setReg_evSeq (s : State) (o : Nat) (v : W32) : (s.setReg o v).evSeq = s.evSeq := rfl
@[simp] theorem State.setReg_net (s : State) (o : Nat) (v : W32) : (s.setReg o v).net = s.net := rfl
@[simp] theorem State.setReg_tim (s : State) (o : Nat) (v : W32) : (s.setReg o v).tim = s.tim := rfl
@[simp] theorem State.setReg_brg (s : State) (o : Nat) (v : W32) : (s.setReg o v).brg = s.brg := rfl
@[simp] theorem State.setReg_out (s : State) (o : Nat) (v : W32) : (s.setReg o v).out = s.out := rfl
@[simp] theorem State.setReg_ret (s : State) (o : Nat) (v : W32) : (s.setReg o v).ret = s.ret := rfl
@[simp] theorem State.setReg_xch (s : State) (o : Nat) (v : W32) : (s.setReg o v).xch = s.xch := rfl
@[simp] theorem State.setReg_nv (s : State) (o : Nat) (v : W32) : (s.setReg o v).nv = s.nv := rfl
@[simp] theorem State.setReg_boot (s : State) (o : Nat) (v : W32) : (s.setReg o v).boot = s.boot := rfl
@[simp] theorem State.setReg_upd (s : State) (o : Nat) (v : W32) : (s.setReg o v).upd = s.upd := rfl
@[simp] theorem State.setReg_bist (s : State) (o : Nat) (v : W32) : (s.setReg o v).bist = s.bist := rfl
@[simp] theorem State.setReg_session (s : State) (o : Nat) (v : W32) : (s.setReg o v).session = s.session := rfl
@[simp] theorem State.setReg_sup (s : State) (o : Nat) (v : W32) : (s.setReg o v).sup = s.sup := rfl

/-! ## set -/

@[simp] theorem State.set_pending (s : State) (f : Fld) (n : Nat) : (s.set f n).pending = s.pending := rfl
@[simp] theorem State.set_preq (s : State) (f : Fld) (n : Nat) : (s.set f n).preq = s.preq := rfl
@[simp] theorem State.set_latch (s : State) (f : Fld) (n : Nat) : (s.set f n).latch = s.latch := rfl
@[simp] theorem State.set_held (s : State) (f : Fld) (n : Nat) : (s.set f n).held = s.held := rfl
@[simp] theorem State.set_resp (s : State) (f : Fld) (n : Nat) : (s.set f n).resp = s.resp := rfl
@[simp] theorem State.set_free (s : State) (f : Fld) (n : Nat) : (s.set f n).free = s.free := rfl
@[simp] theorem State.set_clk (s : State) (f : Fld) (n : Nat) : (s.set f n).clk = s.clk := rfl
@[simp] theorem State.set_solNs (s : State) (f : Fld) (n : Nat) : (s.set f n).solNs = s.solNs := rfl
@[simp] theorem State.set_secAcc (s : State) (f : Fld) (n : Nat) : (s.set f n).secAcc = s.secAcc := rfl
@[simp] theorem State.set_gong (s : State) (f : Fld) (n : Nat) : (s.set f n).gong = s.gong := rfl
@[simp] theorem State.set_seqr (s : State) (f : Fld) (n : Nat) : (s.set f n).seqr = s.seqr := rfl
@[simp] theorem State.set_chA (s : State) (f : Fld) (n : Nat) : (s.set f n).chA = s.chA := rfl
@[simp] theorem State.set_chB (s : State) (f : Fld) (n : Nat) : (s.set f n).chB = s.chB := rfl
@[simp] theorem State.set_chC (s : State) (f : Fld) (n : Nat) : (s.set f n).chC = s.chC := rfl
@[simp] theorem State.set_vote (s : State) (f : Fld) (n : Nat) : (s.set f n).vote = s.vote := rfl
@[simp] theorem State.set_bank0 (s : State) (f : Fld) (n : Nat) : (s.set f n).bank0 = s.bank0 := rfl
@[simp] theorem State.set_bank1 (s : State) (f : Fld) (n : Nat) : (s.set f n).bank1 = s.bank1 := rfl
@[simp] theorem State.set_act (s : State) (f : Fld) (n : Nat) : (s.set f n).act = s.act := rfl
@[simp] theorem State.set_forces (s : State) (f : Fld) (n : Nat) : (s.set f n).forces = s.forces := rfl
@[simp] theorem State.set_fcmds (s : State) (f : Fld) (n : Nat) : (s.set f n).fcmds = s.fcmds := rfl
@[simp] theorem State.set_evs (s : State) (f : Fld) (n : Nat) : (s.set f n).evs = s.evs := rfl
@[simp] theorem State.set_fum (s : State) (f : Fld) (n : Nat) : (s.set f n).fum = s.fum := rfl
@[simp] theorem State.set_fumPos (s : State) (f : Fld) (n : Nat) : (s.set f n).fumPos = s.fumPos := rfl
@[simp] theorem State.set_smem (s : State) (f : Fld) (n : Nat) : (s.set f n).smem = s.smem := rfl
@[simp] theorem State.set_pair (s : State) (f : Fld) (n : Nat) : (s.set f n).pair = s.pair := rfl
@[simp] theorem State.set_sio (s : State) (f : Fld) (n : Nat) : (s.set f n).sio = s.sio := rfl
@[simp] theorem State.set_spd (s : State) (f : Fld) (n : Nat) : (s.set f n).spd = s.spd := rfl
@[simp] theorem State.set_evSeq (s : State) (f : Fld) (n : Nat) : (s.set f n).evSeq = s.evSeq := rfl
@[simp] theorem State.set_net (s : State) (f : Fld) (n : Nat) : (s.set f n).net = s.net := rfl
@[simp] theorem State.set_tim (s : State) (f : Fld) (n : Nat) : (s.set f n).tim = s.tim := rfl
@[simp] theorem State.set_brg (s : State) (f : Fld) (n : Nat) : (s.set f n).brg = s.brg := rfl
@[simp] theorem State.set_out (s : State) (f : Fld) (n : Nat) : (s.set f n).out = s.out := rfl
@[simp] theorem State.set_ret (s : State) (f : Fld) (n : Nat) : (s.set f n).ret = s.ret := rfl
@[simp] theorem State.set_xch (s : State) (f : Fld) (n : Nat) : (s.set f n).xch = s.xch := rfl
@[simp] theorem State.set_nv (s : State) (f : Fld) (n : Nat) : (s.set f n).nv = s.nv := rfl
@[simp] theorem State.set_boot (s : State) (f : Fld) (n : Nat) : (s.set f n).boot = s.boot := rfl
@[simp] theorem State.set_upd (s : State) (f : Fld) (n : Nat) : (s.set f n).upd = s.upd := rfl
@[simp] theorem State.set_bist (s : State) (f : Fld) (n : Nat) : (s.set f n).bist = s.bist := rfl
@[simp] theorem State.set_session (s : State) (f : Fld) (n : Nat) : (s.set f n).session = s.session := rfl
@[simp] theorem State.set_sup (s : State) (f : Fld) (n : Nat) : (s.set f n).sup = s.sup := rfl

/-! ## preqSet -/

@[simp] theorem State.preqSet_pending (s : State) (r : Req) (o : Nat) (v : W32) : (s.preqSet r o v).pending = s.pending := rfl
@[simp] theorem State.preqSet_regs (s : State) (r : Req) (o : Nat) (v : W32) : (s.preqSet r o v).regs = s.regs := rfl
@[simp] theorem State.preqSet_latch (s : State) (r : Req) (o : Nat) (v : W32) : (s.preqSet r o v).latch = s.latch := rfl
@[simp] theorem State.preqSet_held (s : State) (r : Req) (o : Nat) (v : W32) : (s.preqSet r o v).held = s.held := rfl
@[simp] theorem State.preqSet_resp (s : State) (r : Req) (o : Nat) (v : W32) : (s.preqSet r o v).resp = s.resp := rfl
@[simp] theorem State.preqSet_free (s : State) (r : Req) (o : Nat) (v : W32) : (s.preqSet r o v).free = s.free := rfl
@[simp] theorem State.preqSet_clk (s : State) (r : Req) (o : Nat) (v : W32) : (s.preqSet r o v).clk = s.clk := rfl
@[simp] theorem State.preqSet_solNs (s : State) (r : Req) (o : Nat) (v : W32) : (s.preqSet r o v).solNs = s.solNs := rfl
@[simp] theorem State.preqSet_secAcc (s : State) (r : Req) (o : Nat) (v : W32) : (s.preqSet r o v).secAcc = s.secAcc := rfl
@[simp] theorem State.preqSet_gong (s : State) (r : Req) (o : Nat) (v : W32) : (s.preqSet r o v).gong = s.gong := rfl
@[simp] theorem State.preqSet_seqr (s : State) (r : Req) (o : Nat) (v : W32) : (s.preqSet r o v).seqr = s.seqr := rfl
@[simp] theorem State.preqSet_chA (s : State) (r : Req) (o : Nat) (v : W32) : (s.preqSet r o v).chA = s.chA := rfl
@[simp] theorem State.preqSet_chB (s : State) (r : Req) (o : Nat) (v : W32) : (s.preqSet r o v).chB = s.chB := rfl
@[simp] theorem State.preqSet_chC (s : State) (r : Req) (o : Nat) (v : W32) : (s.preqSet r o v).chC = s.chC := rfl
@[simp] theorem State.preqSet_vote (s : State) (r : Req) (o : Nat) (v : W32) : (s.preqSet r o v).vote = s.vote := rfl
@[simp] theorem State.preqSet_bank0 (s : State) (r : Req) (o : Nat) (v : W32) : (s.preqSet r o v).bank0 = s.bank0 := rfl
@[simp] theorem State.preqSet_bank1 (s : State) (r : Req) (o : Nat) (v : W32) : (s.preqSet r o v).bank1 = s.bank1 := rfl
@[simp] theorem State.preqSet_act (s : State) (r : Req) (o : Nat) (v : W32) : (s.preqSet r o v).act = s.act := rfl
@[simp] theorem State.preqSet_forces (s : State) (r : Req) (o : Nat) (v : W32) : (s.preqSet r o v).forces = s.forces := rfl
@[simp] theorem State.preqSet_fcmds (s : State) (r : Req) (o : Nat) (v : W32) : (s.preqSet r o v).fcmds = s.fcmds := rfl
@[simp] theorem State.preqSet_evs (s : State) (r : Req) (o : Nat) (v : W32) : (s.preqSet r o v).evs = s.evs := rfl
@[simp] theorem State.preqSet_fum (s : State) (r : Req) (o : Nat) (v : W32) : (s.preqSet r o v).fum = s.fum := rfl
@[simp] theorem State.preqSet_fumPos (s : State) (r : Req) (o : Nat) (v : W32) : (s.preqSet r o v).fumPos = s.fumPos := rfl
@[simp] theorem State.preqSet_smem (s : State) (r : Req) (o : Nat) (v : W32) : (s.preqSet r o v).smem = s.smem := rfl
@[simp] theorem State.preqSet_pair (s : State) (r : Req) (o : Nat) (v : W32) : (s.preqSet r o v).pair = s.pair := rfl
@[simp] theorem State.preqSet_sio (s : State) (r : Req) (o : Nat) (v : W32) : (s.preqSet r o v).sio = s.sio := rfl
@[simp] theorem State.preqSet_spd (s : State) (r : Req) (o : Nat) (v : W32) : (s.preqSet r o v).spd = s.spd := rfl
@[simp] theorem State.preqSet_evSeq (s : State) (r : Req) (o : Nat) (v : W32) : (s.preqSet r o v).evSeq = s.evSeq := rfl
@[simp] theorem State.preqSet_net (s : State) (r : Req) (o : Nat) (v : W32) : (s.preqSet r o v).net = s.net := rfl
@[simp] theorem State.preqSet_tim (s : State) (r : Req) (o : Nat) (v : W32) : (s.preqSet r o v).tim = s.tim := rfl
@[simp] theorem State.preqSet_brg (s : State) (r : Req) (o : Nat) (v : W32) : (s.preqSet r o v).brg = s.brg := rfl
@[simp] theorem State.preqSet_out (s : State) (r : Req) (o : Nat) (v : W32) : (s.preqSet r o v).out = s.out := rfl
@[simp] theorem State.preqSet_ret (s : State) (r : Req) (o : Nat) (v : W32) : (s.preqSet r o v).ret = s.ret := rfl
@[simp] theorem State.preqSet_xch (s : State) (r : Req) (o : Nat) (v : W32) : (s.preqSet r o v).xch = s.xch := rfl
@[simp] theorem State.preqSet_nv (s : State) (r : Req) (o : Nat) (v : W32) : (s.preqSet r o v).nv = s.nv := rfl
@[simp] theorem State.preqSet_boot (s : State) (r : Req) (o : Nat) (v : W32) : (s.preqSet r o v).boot = s.boot := rfl
@[simp] theorem State.preqSet_upd (s : State) (r : Req) (o : Nat) (v : W32) : (s.preqSet r o v).upd = s.upd := rfl
@[simp] theorem State.preqSet_bist (s : State) (r : Req) (o : Nat) (v : W32) : (s.preqSet r o v).bist = s.bist := rfl
@[simp] theorem State.preqSet_session (s : State) (r : Req) (o : Nat) (v : W32) : (s.preqSet r o v).session = s.session := rfl
@[simp] theorem State.preqSet_sup (s : State) (r : Req) (o : Nat) (v : W32) : (s.preqSet r o v).sup = s.sup := rfl

/-! ## setCh -/

@[simp] theorem State.setCh_pending (s : State) (ch : Ch) (v : Chan) : (s.setCh ch v).pending = s.pending := by cases ch <;> rfl
@[simp] theorem State.setCh_regs (s : State) (ch : Ch) (v : Chan) : (s.setCh ch v).regs = s.regs := by cases ch <;> rfl
@[simp] theorem State.setCh_preq (s : State) (ch : Ch) (v : Chan) : (s.setCh ch v).preq = s.preq := by cases ch <;> rfl
@[simp] theorem State.setCh_latch (s : State) (ch : Ch) (v : Chan) : (s.setCh ch v).latch = s.latch := by cases ch <;> rfl
@[simp] theorem State.setCh_held (s : State) (ch : Ch) (v : Chan) : (s.setCh ch v).held = s.held := by cases ch <;> rfl
@[simp] theorem State.setCh_resp (s : State) (ch : Ch) (v : Chan) : (s.setCh ch v).resp = s.resp := by cases ch <;> rfl
@[simp] theorem State.setCh_free (s : State) (ch : Ch) (v : Chan) : (s.setCh ch v).free = s.free := by cases ch <;> rfl
@[simp] theorem State.setCh_clk (s : State) (ch : Ch) (v : Chan) : (s.setCh ch v).clk = s.clk := by cases ch <;> rfl
@[simp] theorem State.setCh_solNs (s : State) (ch : Ch) (v : Chan) : (s.setCh ch v).solNs = s.solNs := by cases ch <;> rfl
@[simp] theorem State.setCh_secAcc (s : State) (ch : Ch) (v : Chan) : (s.setCh ch v).secAcc = s.secAcc := by cases ch <;> rfl
@[simp] theorem State.setCh_gong (s : State) (ch : Ch) (v : Chan) : (s.setCh ch v).gong = s.gong := by cases ch <;> rfl
@[simp] theorem State.setCh_seqr (s : State) (ch : Ch) (v : Chan) : (s.setCh ch v).seqr = s.seqr := by cases ch <;> rfl
@[simp] theorem State.setCh_vote (s : State) (ch : Ch) (v : Chan) : (s.setCh ch v).vote = s.vote := by cases ch <;> rfl
@[simp] theorem State.setCh_bank0 (s : State) (ch : Ch) (v : Chan) : (s.setCh ch v).bank0 = s.bank0 := by cases ch <;> rfl
@[simp] theorem State.setCh_bank1 (s : State) (ch : Ch) (v : Chan) : (s.setCh ch v).bank1 = s.bank1 := by cases ch <;> rfl
@[simp] theorem State.setCh_act (s : State) (ch : Ch) (v : Chan) : (s.setCh ch v).act = s.act := by cases ch <;> rfl
@[simp] theorem State.setCh_forces (s : State) (ch : Ch) (v : Chan) : (s.setCh ch v).forces = s.forces := by cases ch <;> rfl
@[simp] theorem State.setCh_fcmds (s : State) (ch : Ch) (v : Chan) : (s.setCh ch v).fcmds = s.fcmds := by cases ch <;> rfl
@[simp] theorem State.setCh_evs (s : State) (ch : Ch) (v : Chan) : (s.setCh ch v).evs = s.evs := by cases ch <;> rfl
@[simp] theorem State.setCh_fum (s : State) (ch : Ch) (v : Chan) : (s.setCh ch v).fum = s.fum := by cases ch <;> rfl
@[simp] theorem State.setCh_fumPos (s : State) (ch : Ch) (v : Chan) : (s.setCh ch v).fumPos = s.fumPos := by cases ch <;> rfl
@[simp] theorem State.setCh_smem (s : State) (ch : Ch) (v : Chan) : (s.setCh ch v).smem = s.smem := by cases ch <;> rfl
@[simp] theorem State.setCh_pair (s : State) (ch : Ch) (v : Chan) : (s.setCh ch v).pair = s.pair := by cases ch <;> rfl
@[simp] theorem State.setCh_sio (s : State) (ch : Ch) (v : Chan) : (s.setCh ch v).sio = s.sio := by cases ch <;> rfl
@[simp] theorem State.setCh_spd (s : State) (ch : Ch) (v : Chan) : (s.setCh ch v).spd = s.spd := by cases ch <;> rfl
@[simp] theorem State.setCh_evSeq (s : State) (ch : Ch) (v : Chan) : (s.setCh ch v).evSeq = s.evSeq := by cases ch <;> rfl
@[simp] theorem State.setCh_net (s : State) (ch : Ch) (v : Chan) : (s.setCh ch v).net = s.net := by cases ch <;> rfl
@[simp] theorem State.setCh_tim (s : State) (ch : Ch) (v : Chan) : (s.setCh ch v).tim = s.tim := by cases ch <;> rfl
@[simp] theorem State.setCh_brg (s : State) (ch : Ch) (v : Chan) : (s.setCh ch v).brg = s.brg := by cases ch <;> rfl
@[simp] theorem State.setCh_out (s : State) (ch : Ch) (v : Chan) : (s.setCh ch v).out = s.out := by cases ch <;> rfl
@[simp] theorem State.setCh_ret (s : State) (ch : Ch) (v : Chan) : (s.setCh ch v).ret = s.ret := by cases ch <;> rfl
@[simp] theorem State.setCh_xch (s : State) (ch : Ch) (v : Chan) : (s.setCh ch v).xch = s.xch := by cases ch <;> rfl
@[simp] theorem State.setCh_nv (s : State) (ch : Ch) (v : Chan) : (s.setCh ch v).nv = s.nv := by cases ch <;> rfl
@[simp] theorem State.setCh_boot (s : State) (ch : Ch) (v : Chan) : (s.setCh ch v).boot = s.boot := by cases ch <;> rfl
@[simp] theorem State.setCh_upd (s : State) (ch : Ch) (v : Chan) : (s.setCh ch v).upd = s.upd := by cases ch <;> rfl
@[simp] theorem State.setCh_bist (s : State) (ch : Ch) (v : Chan) : (s.setCh ch v).bist = s.bist := by cases ch <;> rfl
@[simp] theorem State.setCh_session (s : State) (ch : Ch) (v : Chan) : (s.setCh ch v).session = s.session := by cases ch <;> rfl
@[simp] theorem State.setCh_sup (s : State) (ch : Ch) (v : Chan) : (s.setCh ch v).sup = s.sup := by cases ch <;> rfl

/-! ## setChRec -/

@[simp] theorem State.setChRec_pending (s : State) (ch : Ch) (v : ChRec) : (s.setChRec ch v).pending = s.pending := by cases ch <;> rfl
@[simp] theorem State.setChRec_regs (s : State) (ch : Ch) (v : ChRec) : (s.setChRec ch v).regs = s.regs := by cases ch <;> rfl
@[simp] theorem State.setChRec_preq (s : State) (ch : Ch) (v : ChRec) : (s.setChRec ch v).preq = s.preq := by cases ch <;> rfl
@[simp] theorem State.setChRec_latch (s : State) (ch : Ch) (v : ChRec) : (s.setChRec ch v).latch = s.latch := by cases ch <;> rfl
@[simp] theorem State.setChRec_held (s : State) (ch : Ch) (v : ChRec) : (s.setChRec ch v).held = s.held := by cases ch <;> rfl
@[simp] theorem State.setChRec_resp (s : State) (ch : Ch) (v : ChRec) : (s.setChRec ch v).resp = s.resp := by cases ch <;> rfl
@[simp] theorem State.setChRec_free (s : State) (ch : Ch) (v : ChRec) : (s.setChRec ch v).free = s.free := by cases ch <;> rfl
@[simp] theorem State.setChRec_clk (s : State) (ch : Ch) (v : ChRec) : (s.setChRec ch v).clk = s.clk := by cases ch <;> rfl
@[simp] theorem State.setChRec_solNs (s : State) (ch : Ch) (v : ChRec) : (s.setChRec ch v).solNs = s.solNs := by cases ch <;> rfl
@[simp] theorem State.setChRec_secAcc (s : State) (ch : Ch) (v : ChRec) : (s.setChRec ch v).secAcc = s.secAcc := by cases ch <;> rfl
@[simp] theorem State.setChRec_gong (s : State) (ch : Ch) (v : ChRec) : (s.setChRec ch v).gong = s.gong := by cases ch <;> rfl
@[simp] theorem State.setChRec_seqr (s : State) (ch : Ch) (v : ChRec) : (s.setChRec ch v).seqr = s.seqr := by cases ch <;> rfl
@[simp] theorem State.setChRec_chA (s : State) (ch : Ch) (v : ChRec) : (s.setChRec ch v).chA = s.chA := by cases ch <;> rfl
@[simp] theorem State.setChRec_chB (s : State) (ch : Ch) (v : ChRec) : (s.setChRec ch v).chB = s.chB := by cases ch <;> rfl
@[simp] theorem State.setChRec_chC (s : State) (ch : Ch) (v : ChRec) : (s.setChRec ch v).chC = s.chC := by cases ch <;> rfl
@[simp] theorem State.setChRec_bank0 (s : State) (ch : Ch) (v : ChRec) : (s.setChRec ch v).bank0 = s.bank0 := by cases ch <;> rfl
@[simp] theorem State.setChRec_bank1 (s : State) (ch : Ch) (v : ChRec) : (s.setChRec ch v).bank1 = s.bank1 := by cases ch <;> rfl
@[simp] theorem State.setChRec_act (s : State) (ch : Ch) (v : ChRec) : (s.setChRec ch v).act = s.act := by cases ch <;> rfl
@[simp] theorem State.setChRec_forces (s : State) (ch : Ch) (v : ChRec) : (s.setChRec ch v).forces = s.forces := by cases ch <;> rfl
@[simp] theorem State.setChRec_fcmds (s : State) (ch : Ch) (v : ChRec) : (s.setChRec ch v).fcmds = s.fcmds := by cases ch <;> rfl
@[simp] theorem State.setChRec_evs (s : State) (ch : Ch) (v : ChRec) : (s.setChRec ch v).evs = s.evs := by cases ch <;> rfl
@[simp] theorem State.setChRec_fum (s : State) (ch : Ch) (v : ChRec) : (s.setChRec ch v).fum = s.fum := by cases ch <;> rfl
@[simp] theorem State.setChRec_fumPos (s : State) (ch : Ch) (v : ChRec) : (s.setChRec ch v).fumPos = s.fumPos := by cases ch <;> rfl
@[simp] theorem State.setChRec_smem (s : State) (ch : Ch) (v : ChRec) : (s.setChRec ch v).smem = s.smem := by cases ch <;> rfl
@[simp] theorem State.setChRec_pair (s : State) (ch : Ch) (v : ChRec) : (s.setChRec ch v).pair = s.pair := by cases ch <;> rfl
@[simp] theorem State.setChRec_sio (s : State) (ch : Ch) (v : ChRec) : (s.setChRec ch v).sio = s.sio := by cases ch <;> rfl
@[simp] theorem State.setChRec_spd (s : State) (ch : Ch) (v : ChRec) : (s.setChRec ch v).spd = s.spd := by cases ch <;> rfl
@[simp] theorem State.setChRec_evSeq (s : State) (ch : Ch) (v : ChRec) : (s.setChRec ch v).evSeq = s.evSeq := by cases ch <;> rfl
@[simp] theorem State.setChRec_net (s : State) (ch : Ch) (v : ChRec) : (s.setChRec ch v).net = s.net := by cases ch <;> rfl
@[simp] theorem State.setChRec_tim (s : State) (ch : Ch) (v : ChRec) : (s.setChRec ch v).tim = s.tim := by cases ch <;> rfl
@[simp] theorem State.setChRec_brg (s : State) (ch : Ch) (v : ChRec) : (s.setChRec ch v).brg = s.brg := by cases ch <;> rfl
@[simp] theorem State.setChRec_out (s : State) (ch : Ch) (v : ChRec) : (s.setChRec ch v).out = s.out := by cases ch <;> rfl
@[simp] theorem State.setChRec_ret (s : State) (ch : Ch) (v : ChRec) : (s.setChRec ch v).ret = s.ret := by cases ch <;> rfl
@[simp] theorem State.setChRec_xch (s : State) (ch : Ch) (v : ChRec) : (s.setChRec ch v).xch = s.xch := by cases ch <;> rfl
@[simp] theorem State.setChRec_nv (s : State) (ch : Ch) (v : ChRec) : (s.setChRec ch v).nv = s.nv := by cases ch <;> rfl
@[simp] theorem State.setChRec_boot (s : State) (ch : Ch) (v : ChRec) : (s.setChRec ch v).boot = s.boot := by cases ch <;> rfl
@[simp] theorem State.setChRec_upd (s : State) (ch : Ch) (v : ChRec) : (s.setChRec ch v).upd = s.upd := by cases ch <;> rfl
@[simp] theorem State.setChRec_bist (s : State) (ch : Ch) (v : ChRec) : (s.setChRec ch v).bist = s.bist := by cases ch <;> rfl
@[simp] theorem State.setChRec_session (s : State) (ch : Ch) (v : ChRec) : (s.setChRec ch v).session = s.session := by cases ch <;> rfl
@[simp] theorem State.setChRec_sup (s : State) (ch : Ch) (v : ChRec) : (s.setChRec ch v).sup = s.sup := by cases ch <;> rfl

/-! ## fumarole -/

@[simp] theorem State.fumarole_pending (s : State) (t c n : Nat) (d : List Byte) : (s.fumarole t c n d).pending = s.pending := rfl
@[simp] theorem State.fumarole_preq (s : State) (t c n : Nat) (d : List Byte) : (s.fumarole t c n d).preq = s.preq := rfl
@[simp] theorem State.fumarole_latch (s : State) (t c n : Nat) (d : List Byte) : (s.fumarole t c n d).latch = s.latch := rfl
@[simp] theorem State.fumarole_held (s : State) (t c n : Nat) (d : List Byte) : (s.fumarole t c n d).held = s.held := rfl
@[simp] theorem State.fumarole_resp (s : State) (t c n : Nat) (d : List Byte) : (s.fumarole t c n d).resp = s.resp := rfl
@[simp] theorem State.fumarole_free (s : State) (t c n : Nat) (d : List Byte) : (s.fumarole t c n d).free = s.free := rfl
@[simp] theorem State.fumarole_clk (s : State) (t c n : Nat) (d : List Byte) : (s.fumarole t c n d).clk = s.clk := rfl
@[simp] theorem State.fumarole_solNs (s : State) (t c n : Nat) (d : List Byte) : (s.fumarole t c n d).solNs = s.solNs := rfl
@[simp] theorem State.fumarole_secAcc (s : State) (t c n : Nat) (d : List Byte) : (s.fumarole t c n d).secAcc = s.secAcc := rfl
@[simp] theorem State.fumarole_gong (s : State) (t c n : Nat) (d : List Byte) : (s.fumarole t c n d).gong = s.gong := rfl
@[simp] theorem State.fumarole_seqr (s : State) (t c n : Nat) (d : List Byte) : (s.fumarole t c n d).seqr = s.seqr := rfl
@[simp] theorem State.fumarole_chA (s : State) (t c n : Nat) (d : List Byte) : (s.fumarole t c n d).chA = s.chA := rfl
@[simp] theorem State.fumarole_chB (s : State) (t c n : Nat) (d : List Byte) : (s.fumarole t c n d).chB = s.chB := rfl
@[simp] theorem State.fumarole_chC (s : State) (t c n : Nat) (d : List Byte) : (s.fumarole t c n d).chC = s.chC := rfl
@[simp] theorem State.fumarole_vote (s : State) (t c n : Nat) (d : List Byte) : (s.fumarole t c n d).vote = s.vote := rfl
@[simp] theorem State.fumarole_bank0 (s : State) (t c n : Nat) (d : List Byte) : (s.fumarole t c n d).bank0 = s.bank0 := rfl
@[simp] theorem State.fumarole_bank1 (s : State) (t c n : Nat) (d : List Byte) : (s.fumarole t c n d).bank1 = s.bank1 := rfl
@[simp] theorem State.fumarole_act (s : State) (t c n : Nat) (d : List Byte) : (s.fumarole t c n d).act = s.act := rfl
@[simp] theorem State.fumarole_forces (s : State) (t c n : Nat) (d : List Byte) : (s.fumarole t c n d).forces = s.forces := rfl
@[simp] theorem State.fumarole_fcmds (s : State) (t c n : Nat) (d : List Byte) : (s.fumarole t c n d).fcmds = s.fcmds := rfl
@[simp] theorem State.fumarole_evs (s : State) (t c n : Nat) (d : List Byte) : (s.fumarole t c n d).evs = s.evs := rfl
@[simp] theorem State.fumarole_smem (s : State) (t c n : Nat) (d : List Byte) : (s.fumarole t c n d).smem = s.smem := rfl
@[simp] theorem State.fumarole_pair (s : State) (t c n : Nat) (d : List Byte) : (s.fumarole t c n d).pair = s.pair := rfl
@[simp] theorem State.fumarole_sio (s : State) (t c n : Nat) (d : List Byte) : (s.fumarole t c n d).sio = s.sio := rfl
@[simp] theorem State.fumarole_spd (s : State) (t c n : Nat) (d : List Byte) : (s.fumarole t c n d).spd = s.spd := rfl
@[simp] theorem State.fumarole_evSeq (s : State) (t c n : Nat) (d : List Byte) : (s.fumarole t c n d).evSeq = s.evSeq := rfl
@[simp] theorem State.fumarole_net (s : State) (t c n : Nat) (d : List Byte) : (s.fumarole t c n d).net = s.net := rfl
@[simp] theorem State.fumarole_tim (s : State) (t c n : Nat) (d : List Byte) : (s.fumarole t c n d).tim = s.tim := rfl
@[simp] theorem State.fumarole_brg (s : State) (t c n : Nat) (d : List Byte) : (s.fumarole t c n d).brg = s.brg := rfl
@[simp] theorem State.fumarole_out (s : State) (t c n : Nat) (d : List Byte) : (s.fumarole t c n d).out = s.out := rfl
@[simp] theorem State.fumarole_ret (s : State) (t c n : Nat) (d : List Byte) : (s.fumarole t c n d).ret = s.ret := rfl
@[simp] theorem State.fumarole_xch (s : State) (t c n : Nat) (d : List Byte) : (s.fumarole t c n d).xch = s.xch := rfl
@[simp] theorem State.fumarole_nv (s : State) (t c n : Nat) (d : List Byte) : (s.fumarole t c n d).nv = s.nv := rfl
@[simp] theorem State.fumarole_boot (s : State) (t c n : Nat) (d : List Byte) : (s.fumarole t c n d).boot = s.boot := rfl
@[simp] theorem State.fumarole_upd (s : State) (t c n : Nat) (d : List Byte) : (s.fumarole t c n d).upd = s.upd := rfl
@[simp] theorem State.fumarole_bist (s : State) (t c n : Nat) (d : List Byte) : (s.fumarole t c n d).bist = s.bist := rfl
@[simp] theorem State.fumarole_session (s : State) (t c n : Nat) (d : List Byte) : (s.fumarole t c n d).session = s.session := rfl
@[simp] theorem State.fumarole_sup (s : State) (t c n : Nat) (d : List Byte) : (s.fumarole t c n d).sup = s.sup := rfl

/-! ## Names for a write of a field -/

theorem State.flag_eq (s : State) (f : Fld) : s.flag f = s.set f 1 := rfl
theorem State.inc_eq (s : State) (f : Fld) : s.inc f = s.set f (1 + s.get f) := rfl
theorem State.incSat_eq (s : State) (f : Fld) (n : Nat) : s.incSat f n = s.set f (min (s.get f + n) (2 ^ f.w - 1)) := rfl
theorem State.orBits_eq (s : State) (f : Fld) (m : Nat) : s.orBits f m = s.set f (s.get f ||| m) := rfl
theorem State.setPair_eq (s : State) (lo hi : Fld) (n : Nat) : s.setPair lo hi n = (s.set lo n).set hi (n / 2 ^ 32) := rfl

end Sys2Proof.Machine
end

