-- ==== Sys2Proof/Laws/Tables.lean ====
section
/-! SUPPORT. What the operations on sparse tables, files and memory do: what is found after a change, and that every one keeps the
canonical form. -/

namespace Sys2Proof.Machine

variable {α : Type}

/-! ## What is found -/

@[simp] theorem tblFind_nil (k : Nat) : tblFind ([] : Tbl α) k = none := rfl

theorem tblFind_put (t : Tbl α) (k k' : Nat) (v : α) :
    tblFind (tblPut t k v) k' = if k' = k then some v else tblFind t k' := by
  induction t with
  | nil => simp only [tblPut, tblFind, eq_comm]
  | cons p t ih =>
    obtain ⟨k1, v1⟩ := p
    rw [tblPut]
    by_cases h1 : k < k1
    · simp only [if_pos h1, tblFind, eq_comm]
    · by_cases h2 : k1 = k
      · subst h2
        simp only [if_neg h1, if_pos]
        by_cases h : k1 = k'
        · simp [tblFind, h]
        · simp [tblFind, h, Ne.symm h]
      · simp only [if_neg h1, if_neg h2, tblFind, ih]
        by_cases h3 : k1 = k'
        · have h4 : ¬ k' = k := fun h => h2 (h3.trans h)
          simp [h3, h4]
        · simp [h3]

theorem tblFind_del (t : Tbl α) (k k' : Nat) :
    tblFind (tblDel t k) k' = if k' = k then none else tblFind t k' := by
  induction t with
  | nil => simp [tblDel]
  | cons p t ih =>
    obtain ⟨k1, v1⟩ := p
    rw [tblDel]
    by_cases h1 : k1 = k
    · rw [if_pos h1, ih]
      by_cases h2 : k' = k
      · simp [h2]
      · have h3 : ¬ k1 = k' := fun h => h2 (h.symm.trans h1)
        simp [h2, tblFind, h3]
    · rw [if_neg h1, tblFind, tblFind, ih]
      by_cases h3 : k1 = k'
      · have h2 : ¬ k' = k := fun h => h1 (h3.trans h)
        simp [h3, h2]
      · simp [h3]

theorem tblFind_mod_ne (t : Tbl α) {k k' : Nat} (f : α → α) (h : k' ≠ k) : tblFind (tblMod t k f) k' = tblFind t k' := by
  unfold tblMod
  split
  · rw [tblFind_put, if_neg h]
  · rfl

theorem tblFind_mod_same (t : Tbl α) (k : Nat) (f : α → α) : tblFind (tblMod t k f) k = (tblFind t k).map f := by
  unfold tblMod
  split <;> rename_i h
  · rw [tblFind_put, if_pos rfl, h]; rfl
  · rw [h]; rfl

variable {w : Nat}

theorem fileGet_put (t : Tbl (BitVec w)) (k k' : Nat) (v : BitVec w) :
    fileGet (filePut t k v) k' = if k' = k then v else fileGet t k' := by
  unfold fileGet filePut
  split_ifs with h1 h2 h2
  · rw [tblFind_del, if_pos h2, h1]; rfl
  · rw [tblFind_del, if_neg h2]
  · rw [tblFind_put, if_pos h2]; rfl
  · rw [tblFind_put, if_neg h2]

/-- A read after a store at the same address gives the byte stored; every other address is unchanged. -/
theorem memGet_put (m : Tbl Byte) (a a' : Nat) (b : Byte) :
    memGet (memPut m a b) a' = if a' = a then b else memGet m a' := fileGet_put m a a' b

/-- A store of bytes leaves every address outside them unchanged. -/
theorem memGet_putBytes (l : List Byte) (m : Tbl Byte) (a a' : Nat) (h : a' < a ∨ a + l.length ≤ a') :
    memGet (memPutBytes m a l) a' = memGet m a' := by
  induction l generalizing m a with
  | nil => rfl
  | cons b bs ih =>
    simp only [List.length_cons] at h
    rw [memPutBytes, ih _ _ (by omega), memGet_put, if_neg (by omega)]

/-- A byte of a store reads back. -/
theorem memGet_putBytes_same (l : List Byte) (m : Tbl Byte) (a i : Nat) (h : i < l.length) :
    memGet (memPutBytes m a l) (a + i) = l[i] := by
  induction l generalizing m a i with
  | nil => simp at h
  | cons b bs ih =>
    rw [memPutBytes]
    cases i with
    | zero => rw [memGet_putBytes _ _ _ _ (by omega), memGet_put]; simp
    | succ i =>
      have := ih (memPut m a b) (a + 1) i (by simpa using h)
      rw [show a + (i + 1) = a + 1 + i by omega, this]; simp

/-! ## The canonical form -/

/-- A bound that lies below another one. -/
def below : Option Nat → Nat → Prop
  | none, _ => True
  | some b, k => b < k

theorem tblAbove_cons (b : Option Nat) (k : Nat) (v : α) (t : Tbl α) :
    tblAbove b ((k, v) :: t) = true ↔ below b k ∧ tblAbove (some k) t = true := by
  cases b <;> simp [tblAbove, below]

theorem tblAbove_mono {b : Option Nat} {k : Nat} (h : below b k) : ∀ {t : Tbl α}, tblAbove (some k) t = true → tblAbove b t = true
  | [], _ => by cases b <;> rfl
  | (k1, v1) :: t, ht => by
    rw [tblAbove_cons] at ht ⊢
    refine ⟨?_, ht.2⟩
    have h1 : k < k1 := ht.1
    cases b with
    | none => trivial
    | some b => exact Nat.lt_trans h h1

theorem tblAbove_put {b : Option Nat} {k : Nat} (v : α) (hb : below b k) :
    ∀ {t : Tbl α}, tblAbove b t = true → tblAbove b (tblPut t k v) = true := by
  intro t
  induction t generalizing b with
  | nil => intro _; rw [tblPut, tblAbove_cons]; exact ⟨hb, rfl⟩
  | cons p t ih =>
    obtain ⟨k1, v1⟩ := p
    intro h
    rw [tblAbove_cons] at h
    unfold tblPut
    split_ifs with h1 h2
    · rw [tblAbove_cons, tblAbove_cons]; exact ⟨hb, h1, h.2⟩
    · subst h2; rw [tblAbove_cons]; exact h
    · rw [tblAbove_cons]
      exact ⟨h.1, ih (show k1 < k by omega) h.2⟩

theorem tblAbove_del {b : Option Nat} (k : Nat) : ∀ {t : Tbl α}, tblAbove b t = true → tblAbove b (tblDel t k) = true := by
  intro t
  induction t generalizing b with
  | nil => intro h; exact h
  | cons p t ih =>
    obtain ⟨k1, v1⟩ := p
    intro h
    rw [tblAbove_cons] at h
    unfold tblDel
    split_ifs with h1
    · exact ih (tblAbove_mono h.1 h.2)
    · rw [tblAbove_cons]; exact ⟨h.1, ih h.2⟩

@[simp] theorem tblWf_nil : tblWf ([] : Tbl α) = true := rfl

theorem tblWf_put {t : Tbl α} (k : Nat) (v : α) (h : tblWf t = true) : tblWf (tblPut t k v) = true := tblAbove_put (b := none) v trivial h

theorem tblWf_del {t : Tbl α} (k : Nat) (h : tblWf t = true) : tblWf (tblDel t k) = true := tblAbove_del k h

theorem tblWf_mod {t : Tbl α} (k : Nat) (f : α → α) (h : tblWf t = true) : tblWf (tblMod t k f) = true := by
  unfold tblMod
  split
  · exact tblWf_put k _ h
  · exact h

theorem all_put {p : Nat × α → Bool} {t : Tbl α} {k : Nat} {v : α} (hv : p (k, v) = true) (h : t.all p = true) :
    (tblPut t k v).all p = true := by
  induction t with
  | nil => simp [tblPut, hv]
  | cons q t ih =>
    obtain ⟨k1, v1⟩ := q
    simp only [List.all_cons, Bool.and_eq_true] at h
    unfold tblPut
    split_ifs <;> simp [hv, h.1, h.2, ih h.2]

theorem all_del {p : Nat × α → Bool} {t : Tbl α} {k : Nat} (h : t.all p = true) : (tblDel t k).all p = true := by
  induction t with
  | nil => rfl
  | cons q t ih =>
    obtain ⟨k1, v1⟩ := q
    simp only [List.all_cons, Bool.and_eq_true] at h
    unfold tblDel
    split_ifs
    · exact ih h.2
    · simp [h.1, ih h.2]

@[simp] theorem fileWf_nil : fileWf ([] : Tbl (BitVec w)) = true := rfl

theorem fileWf_put {t : Tbl (BitVec w)} (k : Nat) (v : BitVec w) (h : fileWf t = true) : fileWf (filePut t k v) = true := by
  unfold fileWf at h ⊢
  simp only [Bool.and_eq_true] at h ⊢
  unfold filePut
  split_ifs with h1
  · exact ⟨tblWf_del k h.1, all_del h.2⟩
  · exact ⟨tblWf_put k v h.1, all_put (by simpa using h1) h.2⟩

/-- Every store keeps the canonical form of memory. -/
theorem memWf_put {m : Tbl Byte} (a : Nat) (b : Byte) (h : memWf m = true) : memWf (memPut m a b) = true := fileWf_put a b h

/-- Every store of bytes keeps the canonical form of memory. -/
theorem memWf_putBytes (l : List Byte) {m : Tbl Byte} (a : Nat) (h : memWf m = true) : memWf (memPutBytes m a l) = true := by
  induction l generalizing m a with
  | nil => exact h
  | cons b bs ih => exact ih _ (memWf_put a b h)

/-- A write of a DMA engine keeps the canonical form. -/
theorem memWf_dmaPut (l : List Byte) {m : Tbl Byte} (a : Nat) (h : memWf m = true) : memWf (dmaPut m a l) = true := by
  induction l generalizing m a with
  | nil => exact h
  | cons b bs ih =>
    refine ih _ ?_
    split
    · exact memWf_put a b h
    · exact h

end Sys2Proof.Machine
end

