-- ==== Sys2Proof/Laws/Engine.lean ====
section
/-! SUPPORT. What one instruction does on an engine: to the state as a whole, on a copy whose checks pass, and on one whose check fails. -/

namespace Sys2Proof.Machine

@[simp] theorem EngC.close_x (k : EngC) (r n t : Nat) (x : Option ExcRec) : (k.close r n t x).1.x = k.x := by
  unfold EngC.close; split <;> rfl

@[simp] theorem EngC.close_cbuf (k : EngC) (r n t : Nat) (x : Option ExcRec) : (k.close r n t x).1.cbuf = k.cbuf := by
  unfold EngC.close; split <;> rfl

@[simp] theorem EngC.close_win (k : EngC) (r n t : Nat) (x : Option ExcRec) : (k.close r n t x).1.win = none := by
  unfold EngC.close; split <;> rename_i h <;> simp [h]

@[simp] theorem EngC.fold_x (k : EngC) (f : Nat) (e : Eng) (t : Nat) (i : BitVec 128) : (k.fold f e t i).1.x = k.x := by
  unfold EngC.fold; dsimp only; split <;> simp

@[simp] theorem EngC.fold_cbuf (k : EngC) (f : Nat) (e : Eng) (t : Nat) (i : BitVec 128) : (k.fold f e t i).1.cbuf = k.cbuf := by
  unfold EngC.fold; dsimp only; split <;> simp

/-- What an instruction on engine `e` does to a channel. -/
theorem State.onEngine_ch (s : State) (e : Eng) (f : Ch → Chan → Chan × List Close) (ch : Ch) :
    (s.onEngine e f).ch ch = if s.executing ch then (f ch (s.ch ch)).1 else s.ch ch := by
  cases ch <;> simp only [State.onEngine, State.ch] <;> split <;> rfl

/-- What an instruction on engine `e` does to the rest of the state: the votes that wait may grow. -/
theorem State.onEngine_frame (s : State) (e : Eng) (f : Ch → Chan → Chan × List Close) :
    ∃ g, s.onEngine e f =
      { s with
        chA := (s.onEngine e f).chA, chB := (s.onEngine e f).chB, chC := (s.onEngine e f).chC
        vote := { s.vote with groups := s.vote.groups ++ g } } := ⟨_, rfl⟩

/-- A step of a channel changes at most engine `e` and the instances. -/
theorem Chan.retire_frame (c : Chan) (e : Eng) (fr cyc task : Nat) (w : Work) :
    ∃ k is, (c.retire e fr cyc task w).1 = { c with eng := c.eng.set e k, insts := is } := ⟨_, _, rfl⟩

theorem Chan.except_frame (c : Chan) (e : Eng) (fr task code info : Nat) :
    ∃ k is, (c.except e fr task code info).1 = { c with eng := c.eng.set e k, insts := is } := ⟨_, _, rfl⟩

theorem Chan.step_frame (c : Chan) (s : State) (e : Eng) (legal : Bool) (n cyc : Nat) (sh : Word) (op : Op) :
    ∃ k is, (c.step s e legal n cyc sh op).1 = { c with eng := c.eng.set e k, insts := is } := by
  have hid : ∃ k is, c = { c with eng := c.eng.set e k, insts := is } := ⟨c.eng[e], c.insts, by simp⟩
  unfold Chan.step
  dsimp only
  split
  · exact hid
  split
  · exact hid
  split
  · exact hid
  split
  · exact hid
  split
  · exact Chan.except_frame ..
  split
  · exact Chan.except_frame ..
  split
  · exact Chan.except_frame ..
  split
  · exact Chan.except_frame ..
  split
  · exact ⟨_, _, rfl⟩
  · exact Chan.retire_frame ..

/-- Every Osrus instruction that goes through the engine alone changes nothing outside it. -/
theorem osrus_only (s : State) (e : Eng) (legal : Bool) (n cyc : Nat) (op : Op) (sh : Word) :
    OnlyEngine s (s.osrus e legal n cyc op sh) e := by
  refine ⟨rfl, ⟨_, rfl⟩, fun ch h => ?_, fun ch => ?_⟩
  · unfold State.osrus; rw [State.onEngine_ch, h]; rfl
  · unfold State.osrus; rw [State.onEngine_ch]
    split
    · obtain ⟨k, is, h⟩ := Chan.step_frame (s.ch ch) s e legal n cyc (s.received ch sh) op
      rw [h]
      refine ⟨rfl, rfl, rfl, fun f hf => ?_⟩
      have : e.val ≠ f.val := fun hv => hf (Fin.ext hv.symm)
      simp [Vector.getElem_set_ne, this]
    · exact ⟨rfl, rfl, rfl, fun _ _ => rfl⟩

/-- What an instruction sees on a copy that executes it; `sh` is the distributed value as this copy received it. -/
def envOf (s : State) (ch : Ch) (e : Eng) (task : Nat) (i : Inst) (p : Program) (sh : Word) : Env :=
  ⟨e, s.pNs, p, lastSeg p task i.seg, s.ch ch, sh⟩

theorem inUnit_fetchOk (v : Env) (x : Ctx) (n : Nat) : v.inUnit x x.pc.toNat n = fetchOk v.prog x n := rfl

/-- A legal instruction on a copy that executes it: what its operation gives decides. -/
theorem osrus_runs {s : State} {ch : Ch} {e : Eng} {n task : Nat} {i : Inst} {p : Program} (h : Runs s ch e n task i p)
    (cyc : Nat) (op : Op) (sh : Word) :
    (s.osrus e true n cyc op sh).ch ch =
      match op (envOf s ch e task i p (s.received ch sh)) ⟨regsOf s ch e, i, [], [], false, false, false⟩ with
      | .error (code, info) => ((s.ch ch).except e s.gong.frame task code info).1
      | .ok w =>
        if w.held ≠ [] ∧ 4096 ≤ (s.ch ch).eng[e].cbuf.length then
          { s.ch ch with eng := (s.ch ch).eng.set e { (s.ch ch).eng[e] with stall := some .bufferFull } }
        else ((s.ch ch).retire e s.gong.frame cyc task w).1 := by
  obtain ⟨h1, h2, h3, h4, h5, h6, h7⟩ := h
  have h7' : (envOf s ch e task i p (s.received ch sh)).inUnit (regsOf s ch e) (regsOf s ch e).pc.toNat n = true := h7
  unfold State.osrus
  rw [State.onEngine_ch, if_pos h1]
  unfold Chan.step
  simp only [h2, h3, h4, h5, h6, Option.isSome_none, Bool.false_eq_true, if_false]
  simp only [envOf, regsOf] at h7' ⊢
  rw [h7']
  simp only [Bool.not_true, Bool.false_eq_true, if_false]
  generalize op _ _ = r
  cases r with
  | error x => rfl
  | ok w => dsimp only; split <;> rfl

/-- An instruction that only changes registers, on a copy that executes it. -/
theorem osrus_regOp {s : State} {ch : Ch} {e : Eng} {n task : Nat} {i : Inst} {p : Program} (h : Runs s ch e n task i p)
    (m cyc : Nat) (f : Ctx → Ctx) (sh : Word) :
    RegistersOnly s (s.osrus e true n cyc (regOp m f) sh) ch e task i ((f (regsOf s ch e)).adv m) cyc := by
  refine ⟨osrus_only .., ?_⟩
  rw [osrus_runs h]
  simp [regOp, Chan.retire, EngC.foldAll, EngC.count, EngC.retired]

/-- An operation that retires with changed registers only, on a copy that executes it. -/
theorem osrus_ok {s : State} {ch : Ch} {e : Eng} {n task : Nat} {i : Inst} {p : Program} (h : Runs s ch e n task i p)
    (cyc : Nat) (op : Op) (sh : Word) (x' : Ctx)
    (hop : op (envOf s ch e task i p (s.received ch sh)) ⟨regsOf s ch e, i, [], [], false, false, false⟩ =
      .ok ⟨x', i, [], [], false, false, false⟩) :
    RegistersOnly s (s.osrus e true n cyc op sh) ch e task i x' cyc := by
  refine ⟨osrus_only .., ?_⟩
  rw [osrus_runs h, hop]
  simp [Chan.retire, EngC.foldAll, EngC.count, EngC.retired]

@[simp] theorem EngC.close_run (k : EngC) (r n t : Nat) (x : Option ExcRec) : (k.close r n t x).1.run = k.run := by
  unfold EngC.close; split <;> rfl

@[simp] theorem EngC.close_stall (k : EngC) (r n t : Nat) (x : Option ExcRec) : (k.close r n t x).1.stall = k.stall := by
  unfold EngC.close; split <;> rfl

@[simp] theorem EngC.close_bud (k : EngC) (r n t : Nat) (x : Option ExcRec) : (k.close r n t x).1.bud = k.bud := by
  unfold EngC.close; split <;> rfl

@[simp] theorem EngC.close_cyc (k : EngC) (r n t : Nat) (x : Option ExcRec) : (k.close r n t x).1.cyc = k.cyc := by
  unfold EngC.close; split <;> rfl

/-- Folding items changes the open window and the number of the next one, and nothing else of the copy. -/
theorem EngC.foldAll_eq (k : EngC) (f : Nat) (e : Eng) (t : Nat) (l : List (BitVec 128)) :
    ∃ w n, (k.foldAll f e t l).1 = { k with win := w, wseq := n } := by
  induction l generalizing k with
  | nil => exact ⟨k.win, k.wseq, rfl⟩
  | cons i is ih =>
    have h1 : ∃ w n, (k.fold f e t i).1 = { k with win := w, wseq := n } := by
      unfold EngC.fold; dsimp only; split
      · unfold EngC.close; dsimp only; exact ⟨_, _, rfl⟩
      · exact ⟨_, _, rfl⟩
    obtain ⟨w1, n1, h1⟩ := h1
    obtain ⟨w2, n2, h2⟩ := ih (k.fold f e t i).1
    refine ⟨w2, n2, ?_⟩
    simp only [EngC.foldAll]
    rw [h2, h1]

/-- An operation that retires with changed registers and a changed instance and holds no store, on a copy that executes it. -/
theorem osrus_inst {s : State} {ch : Ch} {e : Eng} {n task : Nat} {i : Inst} {p : Program} (h : Runs s ch e n task i p)
    (cyc : Nat) (op : Op) (sh : Word) (x' : Ctx) (i' : Inst) (items : List (BitVec 128))
    (hop : op (envOf s ch e task i p (s.received ch sh)) ⟨regsOf s ch e, i, [], [], false, false, false⟩ =
      .ok ⟨x', i', items, [], false, false, false⟩) :
    InstanceChanged s (s.osrus e true n cyc op sh) ch e task i' x' cyc := by
  obtain ⟨w, m, hf⟩ := EngC.foldAll_eq (s.ch ch).eng[e] s.gong.frame e task items
  have hs : (s.ch ch).eng[e].stall = none := h.2.2.1
  have hc : (s.osrus e true n cyc op sh).ch ch = ((s.ch ch).retire e s.gong.frame cyc task ⟨x', i', items, [], false, false, false⟩).1 := by
    rw [osrus_runs h, hop]; simp
  refine ⟨osrus_only .., ?_⟩
  rw [hc]
  simp only [Fin.getElem_fin] at hf hs
  simp [Chan.retire, EngC.count, hf, hs]

/-- A copy that executes its next instruction is one that reaches a load. -/
theorem reaches_runs {s : State} {ch : Ch} {e : Eng} {n task : Nat} {i : Inst} {p : Program} (h : Runs s ch e n task i p) :
    (s.ch ch).reaches s e n = some (regsOf s ch e, i) := by
  obtain ⟨h1, h2, h3, h4, h5, h6, h7⟩ := h
  have h7' : Env.inUnit ⟨e, s.pNs, p, lastSeg p task i.seg, s.ch ch, 0⟩ (s.ch ch).eng[e].x (s.ch ch).eng[e].x.pc.toNat n = true := h7
  have hb : ((s.ch ch).eng[e].stall.isSome || decide ((s.ch ch).eng[e].bud = 0) ||
      !Env.inUnit ⟨e, s.pNs, p, lastSeg p task i.seg, s.ch ch, 0⟩ (s.ch ch).eng[e].x (s.ch ch).eng[e].x.pc.toNat n) = false := by
    rw [h7', h3, decide_eq_false h6]; rfl
  unfold Chan.reaches
  simp only [h2, h4, h5, hb]
  rfl

/-! ## Exceptions -/

theorem counted_itemExc (code : Nat) (pc : W32) : counted (itemExc code pc) = false := by
  have h1 : pc.toNat < 2 ^ 32 := pc.isLt
  have h2 : code % 256 < 256 := Nat.mod_lt _ (by decide)
  have h3 : (itemExc code pc).toNat / 2 ^ 124 = 5 := by
    unfold itemExc item
    rw [BitVec.toNat_ofNat]
    omega
  unfold counted
  rw [h3]; rfl

/-- An exception folds its item, closes the window as a commit point with its record, and discards the instance. -/
theorem Chan.except_eq (c : Chan) (e : Eng) (fr task code info : Nat) :
    ∃ sig n seq,
      c.except e fr task code info =
        ({ c with
            eng := c.eng.set e
              { c.eng[e] with
                run := none, stall := none, win := none, wseq := n, cbuf := c.eng[e].cbuf.filter fun h => h.task != task }
            insts := tblDel c.insts task },
          [⟨seq, sig, 2, task, some ⟨code, c.eng[e].x.cls, e.val, fieldOf c.eng[e].x.st 20 8, c.eng[e].x.pc, fr, info⟩⟩]) := by
  unfold Chan.except EngC.fold
  simp only [counted_itemExc, Bool.false_eq_true, and_false, if_false, EngC.close, Option.toList, List.nil_append, EngC.drop]
  exact ⟨_, _, _, rfl⟩

/-- The votes a list of closes asks for hold every close of every channel. -/
theorem groupsOf_mem (path : Nat) (a b c : List Close) (ch : Ch) (x : Close)
    (h : (match ch with | .a => a | .b => b | .c => c) = [x]) : ∃ g ∈ groupsOf path a b c, g.of ch = some x := by
  refine ⟨⟨path, a.head?, b.head?, c.head?⟩, ?_, ?_⟩
  · unfold groupsOf
    rw [List.mem_map]
    refine ⟨0, ?_, by simp⟩
    rw [List.mem_range]
    cases ch <;> simp only at h <;> subst h <;> simp
  · cases ch <;> simp only at h <;> subst h <;> rfl

/-- The votes that wait after an instruction hold what a channel's copy closed. -/
theorem onEngine_closed (s : State) (e : Eng) (f : Ch → Chan → Chan × List Close) (ch : Ch) (x : Close)
    (hx : s.executing ch = true) (h : (f ch (s.ch ch)).2 = [x]) :
    ∃ g ∈ (s.onEngine e f).vote.groups, g.of ch = some x := by
  obtain ⟨g, hg, hof⟩ := groupsOf_mem e.val (if s.executing .a then f .a (s.ch .a) else (s.ch .a, [])).2
    (if s.executing .b then f .b (s.ch .b) else (s.ch .b, [])).2
    (if s.executing .c then f .c (s.ch .c) else (s.ch .c, [])).2 ch x (by cases ch <;> simp only [hx, if_true, h])
  exact ⟨g, List.mem_append_right _ hg, hof⟩

/-- A check of R98 that fails on a copy that would execute the instruction raises its exception. -/
theorem raised_of_step {s : State} {ch : Ch} {e : Eng} {legal : Bool} {n cyc task code info : Nat} {sh : Word} {op : Op}
    (hx : s.executing ch = true)
    (h : (s.ch ch).step s e legal n cyc (s.received ch sh) op = (s.ch ch).except e s.gong.frame task code info) :
    Raised s (s.osrus e legal n cyc op sh) ch e task code info := by
  obtain ⟨sig, k, seq, he⟩ := Chan.except_eq (s.ch ch) e s.gong.frame task code info
  have hc : (s.osrus e legal n cyc op sh).ch ch = ((s.ch ch).except e s.gong.frame task code info).1 := by
    unfold State.osrus; rw [State.onEngine_ch, if_pos hx, h]
  rw [he] at hc
  have h2 := (congrArg Prod.snd h).trans (congrArg Prod.snd he)
  obtain ⟨g, hg, hof⟩ := onEngine_closed s e (fun ch c => c.step s e legal n cyc (s.received ch sh) op) ch _ hx h2
  refine ⟨osrus_only .., ?_, ?_, ?_, ?_, ?_, ?_, g, hg, _, hof, rfl, rfl, rfl⟩ <;> rw [hc] <;> simp [regsOf]

/-- An operation that raises an exception, on a copy that executes it. -/
theorem osrus_raise {s : State} {ch : Ch} {e : Eng} {n task : Nat} {i : Inst} {p : Program} (h : Runs s ch e n task i p)
    (cyc : Nat) (op : Op) (sh : Word) (code info : Nat)
    (hop : op (envOf s ch e task i p (s.received ch sh)) ⟨regsOf s ch e, i, [], [], false, false, false⟩ = .error (code, info)) :
    Raised s (s.osrus e true n cyc op sh) ch e task code info := by
  obtain ⟨h1, h2, h3, h4, h5, h6, h7⟩ := h
  refine raised_of_step h1 ?_
  have h7' : (envOf s ch e task i p (s.received ch sh)).inUnit (regsOf s ch e) (regsOf s ch e).pc.toNat n = true := h7
  unfold Chan.step
  simp only [h2, h3, h4, h5, h6, Option.isSome_none, Bool.false_eq_true, if_false]
  simp only [envOf, regsOf] at h7' hop ⊢
  rw [h7']
  simp only [Bool.not_true, Bool.false_eq_true, if_false, hop]

/-- An illegal encoding, on a copy that would execute it, raises 0x03. -/
theorem osrus_illegal {s : State} {ch : Ch} {e : Eng} {n task : Nat} {i : Inst} {p : Program} (h : Runs s ch e n task i p)
    (cyc : Nat) (op : Op) (sh : Word) : Raised s (s.osrus e false n cyc op sh) ch e task 0x03 0 := by
  obtain ⟨h1, h2, h3, h4, h5, h6, h7⟩ := h
  refine raised_of_step h1 ?_
  have h7' : (envOf s ch e task i p (s.received ch sh)).inUnit (regsOf s ch e) (regsOf s ch e).pc.toNat n = true := h7
  unfold Chan.step
  simp only [h2, h3, h4, h5, h6, Option.isSome_none, Bool.false_eq_true, if_false]
  simp only [envOf, regsOf] at h7' ⊢
  rw [h7']
  simp only [Bool.not_true, Bool.false_eq_true, if_false, Bool.not_false, if_true]

end Sys2Proof.Machine
end

