-- ==== Sys2Proof/Laws/Fields.lean ====
section
/-! SUPPORT. Bit fields of a word: a field written reads back, every other field is unchanged. -/

namespace Sys2Proof.Machine

theorem fieldOf_lt (v : W32) (lo w : Nat) : fieldOf v lo w < 2 ^ w := Nat.mod_lt _ (Nat.two_pow_pos w)

/-- A field as bits. -/
theorem fieldOf_testBit (v : W32) (lo w i : Nat) : (fieldOf v lo w).testBit i = (decide (i < w) && v.toNat.testBit (lo + i)) := by
  rw [fieldOf, Nat.testBit_mod_two_pow, Nat.testBit_div_two_pow, Nat.add_comm]

/-- The bits of a word with a field replaced. -/
theorem withField_testBit (v : W32) {lo w : Nat} (n i : Nat) (h : lo + w ≤ 32) :
    (withField v lo w n).toNat.testBit i =
      if lo ≤ i ∧ i < lo + w then n.testBit (i - lo) else v.toNat.testBit i := by
  have h32 : ∀ i, 32 ≤ i → v.toNat.testBit i = false := fun i hi =>
    Nat.testBit_lt_two_pow (Nat.lt_of_lt_of_le v.isLt (Nat.pow_le_pow_right (by decide) hi))
  have e : 2 ^ (lo + w) * (v.toNat / 2 ^ (lo + w)) + 2 ^ lo * (n % 2 ^ w) + v.toNat % 2 ^ lo =
      2 ^ lo * (2 ^ w * (v.toNat / 2 ^ (lo + w)) + n % 2 ^ w) + v.toNat % 2 ^ lo := by
    rw [Nat.pow_add]; ring
  have hw : n % 2 ^ w < 2 ^ w := Nat.mod_lt _ (Nat.two_pow_pos w)
  have hl : v.toNat % 2 ^ lo < 2 ^ lo := Nat.mod_lt _ (Nat.two_pow_pos lo)
  have key : (2 ^ lo * (2 ^ w * (v.toNat / 2 ^ (lo + w)) + n % 2 ^ w) + v.toNat % 2 ^ lo).testBit i =
      if lo ≤ i ∧ i < lo + w then n.testBit (i - lo) else v.toNat.testBit i := by
    rw [Nat.testBit_two_pow_mul_add _ hl]
    by_cases h1 : i < lo
    · have : ¬ (lo ≤ i ∧ i < lo + w) := by omega
      rw [if_pos h1, if_neg this, Nat.testBit_mod_two_pow]; simp [h1]
    · rw [if_neg h1, Nat.testBit_two_pow_mul_add _ hw]
      by_cases h2 : i - lo < w
      · have : lo ≤ i ∧ i < lo + w := by omega
        rw [if_pos h2, if_pos this, Nat.testBit_mod_two_pow]; simp [h2]
      · have : ¬ (lo ≤ i ∧ i < lo + w) := by omega
        rw [if_neg h2, if_neg this, Nat.testBit_div_two_pow]
        congr 1; omega
  rw [withField, BitVec.toNat_ofNat, Nat.testBit_mod_two_pow, e, key]
  by_cases hi : i < 32
  · simp [hi]
  · have : ¬ (lo ≤ i ∧ i < lo + w) := by omega
    rw [if_neg this, h32 i (by omega)]; simp

/-- A field written reads back. -/
theorem fieldOf_withField_same (v : W32) {lo w : Nat} (n : Nat) (h : lo + w ≤ 32) : fieldOf (withField v lo w n) lo w = n % 2 ^ w := by
  apply Nat.eq_of_testBit_eq
  intro i
  rw [fieldOf_testBit, withField_testBit v n _ h, Nat.testBit_mod_two_pow]
  by_cases hi : i < w
  · have : lo ≤ lo + i ∧ lo + i < lo + w := by omega
    rw [if_pos this]; simp
  · simp [hi]

/-- A field that lies beside the field written keeps its value. -/
theorem fieldOf_withField_ne (v : W32) {lo w lo' w' : Nat} (n : Nat) (h : lo + w ≤ 32) (hd : lo' + w' ≤ lo ∨ lo + w ≤ lo') :
    fieldOf (withField v lo w n) lo' w' = fieldOf v lo' w' := by
  apply Nat.eq_of_testBit_eq
  intro i
  rw [fieldOf_testBit, fieldOf_testBit, withField_testBit v n _ h]
  by_cases hi : i < w'
  · have : ¬ (lo ≤ lo' + i ∧ lo' + i < lo + w) := by omega
    rw [if_neg this]
  · simp [hi]

/-- Part of a field written reads back. -/
theorem fieldOf_withField_part (v : W32) {lo w lo' w' : Nat} (n : Nat) (h : lo + w ≤ 32) (hd : lo ≤ lo') (he : lo' + w' ≤ lo + w) :
    fieldOf (withField v lo w n) lo' w' = n / 2 ^ (lo' - lo) % 2 ^ w' := by
  apply Nat.eq_of_testBit_eq
  intro i
  rw [fieldOf_testBit, withField_testBit v n _ h, Nat.testBit_mod_two_pow, Nat.testBit_div_two_pow]
  by_cases hi : i < w'
  · have : lo ≤ lo' + i ∧ lo' + i < lo + w := by omega
    rw [if_pos this, show lo' + i - lo = i + (lo' - lo) by omega]
  · simp [hi]

end Sys2Proof.Machine
end

