-- ==== Sys2Proof/Laws/Regs.lean ====
section
/-! SUPPORT. Registers: a register or field written reads back, every other one is unchanged. The side conditions on concrete
registers and fields are closed by `decide`. -/

namespace Sys2Proof.Machine

theorem reg_setReg (s : State) (o o' : Nat) (v : W32) : (s.setReg o v).reg o' = if o' = o then v else s.reg o' :=
  fileGet_put s.regs o o' v

@[simp] theorem reg_setReg_same (s : State) (o : Nat) (v : W32) : (s.setReg o v).reg o = v := by rw [reg_setReg, if_pos rfl]

theorem reg_setReg_ne (s : State) {o o' : Nat} (v : W32) (h : o' ≠ o) : (s.setReg o v).reg o' = s.reg o' := by
  rw [reg_setReg, if_neg h]

theorem reg_set_ne (s : State) (f : Fld) (n : Nat) {o : Nat} (h : o ≠ f.off) : (s.set f n).reg o = s.reg o := reg_setReg_ne s _ h

theorem get_lt (s : State) (f : Fld) : s.get f < 2 ^ f.w := fieldOf_lt _ _ _

theorem get_set_same (s : State) {f : Fld} (n : Nat) (h : f.ok = true) : (s.set f n).get f = n % 2 ^ f.w := by
  unfold State.get State.set
  rw [reg_setReg_same]
  exact fieldOf_withField_same _ _ (by simpa [Fld.ok] using h)

theorem get_set_apart (s : State) {f g : Fld} (n : Nat) (h : f.ok = true) (hd : f.apart g = true) : (s.set f n).get g = s.get g := by
  unfold State.get State.set
  by_cases ho : g.off = f.off
  · rw [ho, reg_setReg_same]
    refine fieldOf_withField_ne _ _ (by simpa [Fld.ok] using h) ?_
    simpa [Fld.apart, ho] using hd
  · rw [reg_setReg_ne _ _ ho]

theorem get_setReg_ne (s : State) {o : Nat} {g : Fld} (v : W32) (h : g.off ≠ o) : (s.setReg o v).get g = s.get g := by
  unfold State.get
  rw [reg_setReg_ne _ _ h]

/-- Every register write keeps the canonical form of the register file. -/
theorem fileWf_setReg {s : State} (o : Nat) (v : W32) (h : fileWf s.regs = true) : fileWf (s.setReg o v).regs = true :=
  fileWf_put o v h

/-- Every field write keeps the canonical form of the register file. -/
theorem fileWf_set {s : State} (f : Fld) (n : Nat) (h : fileWf s.regs = true) : fileWf (s.set f n).regs = true := fileWf_setReg _ _ h

end Sys2Proof.Machine
end

