-- ==== Sys2Proof/Laws/Layer.lean ====
section
/-! SUPPORT. Layering (R318): what a register that no profile sets holds after it. -/

namespace Sys2Proof.Machine

theorem reg_foldl_set (l : List (Fld × Nat)) (off : Nat) (h : ∀ p ∈ l, p.1.off ≠ off) :
    ∀ s : State, (l.foldl (fun t p => t.set p.1 p.2) s).reg off = s.reg off := by
  induction l with
  | nil => intro s; rfl
  | cons p l ih =>
    intro s
    rw [List.foldl_cons, ih fun q hq => h q (List.mem_cons_of_mem _ hq), reg_set_ne s p.1 p.2 (Ne.symm (h p List.mem_cons_self))]

theorem reg_foldl_skip {α : Type} (l : List (Nat × α)) (g : Nat × α → W32 → W32) (off : Nat) (h : ∀ r ∈ l, r.1 ≠ off) :
    ∀ s : State, (l.foldl (fun t r => t.setReg r.1 (g r (t.reg r.1))) s).reg off = s.reg off := by
  induction l with
  | nil => intro s; rfl
  | cons p l ih =>
    intro s
    rw [List.foldl_cons, ih fun q hq => h q (List.mem_cons_of_mem _ hq), reg_setReg_ne _ _ (Ne.symm (h p List.mem_cons_self))]

theorem reg_foldl_once {α : Type} (l : List (Nat × α)) (g : Nat × α → W32 → W32) (r : Nat × α)
    (h : l.filter (fun x => x.1 == r.1) = [r]) (s : State) :
    (l.foldl (fun t r => t.setReg r.1 (g r (t.reg r.1))) s).reg r.1 = g r (s.reg r.1) := by
  induction l generalizing s with
  | nil => simp at h
  | cons p l ih =>
    rw [List.foldl_cons]
    by_cases hp : p.1 = r.1
    · rw [List.filter_cons_of_pos (by simpa using hp)] at h
      injection h with h1 h2
      subst h1
      rw [reg_foldl_skip l g p.1 (fun x hx hxp => by
        have : x ∈ l.filter (fun x => x.1 == p.1) := List.mem_filter.2 ⟨hx, by simpa using hxp⟩
        rw [h2] at this; simp at this), reg_setReg_same]
    · rw [List.filter_cons_of_neg (by simpa using hp)] at h
      rw [ih h, reg_setReg_ne _ _ (Ne.symm hp)]

/-- A register that no profile sets holds its layered word. -/
theorem reg_layered (s : State) (fact user : Option NvImage) (off : Nat) (fs : List RegFld)
    (h : nvRegs.filter (fun x => x.1 == off) = [(off, fs)]) (hp : ∀ t : State, ∀ p ∈ t.profileSets, p.1.off ≠ off) :
    (s.layered fact user).reg off = layerWord fact user off fs (s.reg off) := by
  unfold State.layered
  rw [reg_foldl_set _ _ (hp _)]
  exact reg_foldl_once nvRegs (fun r w => layerWord fact user r.1 r.2 w) (off, fs) h s

/-- No profile sets TIME.LATECFG. -/
theorem profileSets_latecfg (t : State) : ∀ p ∈ t.profileSets, p.1.off ≠ R.TIME.LATECFG.TOL.off := by
  have sio (n : Nat) : ∀ p ∈ sioSets n, p.1.off ≠ R.TIME.LATECFG.TOL.off := by unfold sioSets; split <;> decide +kernel
  have spd (n : Nat) : ∀ p ∈ spdSets n, p.1.off ≠ R.TIME.LATECFG.TOL.off := by
    unfold spdSets
    by_cases h : n = 0 <;> by_cases h' : n = 2 <;> simp [h, h'] <;> decide
  have net (n : Nat) : ∀ p ∈ netSets n, p.1.off ≠ R.TIME.LATECFG.TOL.off := by unfold netSets; (split <;> simp); decide
  have time (n : Nat) : ∀ p ∈ timeSets n, p.1.off ≠ R.TIME.LATECFG.TOL.off := by
    unfold timeSets; split
    · simp
    · split <;> simp <;> decide
  have evc (n : Nat) : ∀ p ∈ evcSets n, p.1.off ≠ R.TIME.LATECFG.TOL.off := by unfold evcSets; split <;> decide +kernel
  have brg (n : Nat) : ∀ p ∈ brgSets n, p.1.off ≠ R.TIME.LATECFG.TOL.off := by unfold brgSets; (split <;> simp); decide
  have cfg (n : Nat) : ∀ p ∈ cfgSets n, p.1.off ≠ R.TIME.LATECFG.TOL.off := by unfold cfgSets; split <;> decide
  intro p hp
  unfold State.profileSets at hp
  simp only [List.mem_append] at hp
  rcases hp with (((((((((h | h) | h) | h) | h) | h) | h) | h) | h) | h)
  · exact sio _ p h
  · exact spd _ p h
  · exact net _ p h
  · exact time _ p h
  · exact evc _ p h
  · exact brg _ p h
  · exact cfg _ p h
  all_goals
    split at h
    · revert p; decide
    · simp at h

end Sys2Proof.Machine
end

