-- ==== Sys2Proof/Laws/Pair.lean ====
section
/-! SUPPORT. The copy on a standby: the items of a copy leave the pair function's own state alone, a change of role writes PAIR.ROLE
and what the check of the running self-test writes. -/

namespace Sys2Proof.Machine

theorem setCh_pair (s : State) (ch : Ch) (c : Chan) : (s.setCh ch c).pair = s.pair := by cases ch <;> rfl

theorem foldl_pair {α : Type} (l : List α) (f : State → α → State) (h : ∀ s a, (f s a).pair = s.pair) :
    ∀ s : State, (l.foldl f s).pair = s.pair := by
  induction l with
  | nil => intro s; rfl
  | cons a l ih => intro s; rw [List.foldl_cons, ih, h]

theorem eachCh_pair (s : State) (p : Ch → Bool) (f : Ch → Chan → Chan) : (s.eachCh p f).pair = s.pair :=
  foldl_pair _ _ (fun t ch => by split; exacts [setCh_pair .., rfl]) s

theorem mapCh_pair (s : State) (p : Ch → Bool) (f : Chan → Chan) : (s.mapCh p f).pair = s.pair :=
  foldl_pair _ _ (fun t ch => by split; exacts [setCh_pair .., rfl]) s

theorem setForces_pair (s : State) (t : List ForceEnt) : (s.setForces t).pair = s.pair := mapCh_pair ..

theorem dropForces_pair (s : State) (ids : List Nat) : (s.dropForces ids).pair = s.pair := by
  unfold State.dropForces
  dsimp only
  split
  · rfl
  · exact (foldl_pair _ (fun t id => t.fumarole 12 3 0 (leBytes 4 id)) (fun t a => rfl) _).trans (setForces_pair ..)

theorem enterSignals_pair (s : State) (p : Program) : (s.enterSignals p).pair = s.pair := by
  unfold State.enterSignals
  refine (mapCh_pair ..).trans ((foldl_pair _ _ (fun t d => ?_) _).trans (foldl_pair _ _ (fun t d => ?_) s))
  · split <;> rfl
  · split
    · split <;> rfl
    · rfl

theorem deleteSignals_pair (s : State) (p : Program) : (s.deleteSignals p).pair = s.pair := by
  unfold State.deleteSignals
  exact (foldl_pair _ (fun t id => t.listed 1 id 0) (fun t a => rfl) _).trans ((dropForces_pair ..).trans (mapCh_pair ..))

theorem loadTables_pair (s : State) (p : Program) : (s.loadTables p).pair = s.pair := by
  unfold State.loadTables; simp only [State.set_pair]

theorem showUse_pair (s : State) (p : Program) : (s.showUse p).pair = s.pair := by
  unfold State.showUse; simp only [State.set_pair]

theorem showProgram_pair (s : State) : s.showProgram.pair = s.pair := rfl

theorem foldVersion_pair (s : State) (b : Bool) (p : Program) : (s.foldVersion b p).pair = s.pair := by
  unfold State.foldVersion
  exact eachCh_pair ..

theorem foldItem_pair (s : State) (i : CopyItem) : (s.foldItem i).pair = s.pair := by
  unfold State.foldItem
  split
  · split
    exacts [rfl, foldVersion_pair ..]
  · exact eachCh_pair ..

theorem showShadow_pair (s : State) : s.showShadow.pair = s.pair := rfl

theorem takeRep_pair (s : State) (q : W32) (r : ExchRep) : (s.takeRep q r).pair = s.pair := by
  unfold State.takeRep
  dsimp only
  split <;> rfl

/-- The exchange registers of a copy are no part of the pair function's own state. -/
theorem takeExch_pair (s : State) (x : W32) (armf : Nat) (swf : List Nat) : (s.takeExch x armf swf).pair = s.pair := by
  unfold State.takeExch
  split
  · rfl
  · dsimp only
    split <;> rfl

theorem applyExch_pair (s : State) (n : Nat) (x : W32) (armf : Nat) (swf : List Nat) : (s.applyExch n x armf swf).pair = s.pair := by
  have h := takeExch_pair s x armf swf
  unfold State.applyExch
  dsimp only
  generalize s.takeExch x armf swf = u at h ⊢
  cases hb : u.shadow with
  | none => exact h
  | some b =>
    dsimp only
    have h3 : (if s.get R.TASK.XSTAT.SWMASK = 0 ∧ u.get R.TASK.XSTAT.SWMASK ≠ 0 then
        { (State.enterSignals { u with gong := { u.gong with frame := n } } b) with gong := u.gong } else u).pair = s.pair := by
      split
      · exact (enterSignals_pair ..).trans h
      · exact h
    generalize (if s.get R.TASK.XSTAT.SWMASK = 0 ∧ u.get R.TASK.XSTAT.SWMASK ≠ 0 then
        { (State.enterSignals { u with gong := { u.gong with frame := n } } b) with gong := u.gong } else u) = v at h3 ⊢
    split
    · have h4 := (showUse_pair ((v.deleteSignals b).loadTables b) b).trans ((loadTables_pair ..).trans ((deleteSignals_pair ..).trans h3))
      generalize ((v.deleteSignals b).loadTables b).showUse b = w at h4 ⊢
      rw [showShadow_pair, State.set_pair, showProgram_pair]
      exact h4
    · exact h3

theorem takeVersion_pair (s : State) (p : Program) : (s.takeVersion p).pair = s.pair := by
  have h : ((s.setActive (some p)).loadTables p).pair = s.pair := (loadTables_pair ..).trans (by unfold State.setActive; split <;> rfl)
  have h1 := (mapCh_pair (((s.setActive (some p)).loadTables p).showUse p) s.follows (·.forImage p)).trans ((showUse_pair ..).trans h)
  unfold State.takeVersion
  dsimp only
  rw [State.set_pair]
  split
  · exact (showProgram_pair _).trans h1
  · exact h1

theorem putHome4_pair (s : State) (e : DirEnt) (v : List Byte) : (s.putHome4 e v).pair = s.pair := by
  unfold State.putHome4
  split <;> rfl

/-- What an item of a copy changes is no part of the pair function's own state. -/
theorem takeItem_pair (s : State) (n : Nat) (i : CopyItem) : (s.takeItem n i).pair = s.pair := by
  cases i <;> unfold State.takeItem <;> dsimp only
  case sig =>
    split
    · exact (putHome4_pair ..).trans (eachCh_pair ..)
    · exact eachCh_pair ..
  case slot => exact eachCh_pair ..
  case force => exact setForces_pair ..
  case forceCount => exact setForces_pair ..
  case skipRun => rfl
  case limHit => rfl
  case exch => exact applyExch_pair ..
  case exchRep => exact takeRep_pair ..
  case ssc => rfl
  case epoch => rfl
  case image =>
    split
    · exact takeVersion_pair ..
    · split
      · rfl
      · rw [showShadow_pair]; unfold State.setShadow; split <;> rfl
  case dirent => exact (putHome4_pair ..).trans (eachCh_pair ..)

/-- Applying an item of a copy leaves the pair function's own state as it was. -/
theorem applyItem_pair (s : State) (n : Nat) (i : CopyItem) : (s.applyItem n i).pair = s.pair := (takeItem_pair ..).trans (foldItem_pair ..)

theorem applyItems_pair (s : State) (n : Nat) (l : List CopyItem) : (s.applyItems n l).pair = s.pair :=
  foldl_pair _ _ (fun t i => applyItem_pair t n i) s

/-- With no self-test running the check of the running one changes nothing. -/
theorem testCheck_idle (s : State) (h : s.get R.BIST.STATUS.RUN = 0) : s.testCheck = s := by
  simp [State.testCheck, State.testRun, h]

/-- From `s` to `t` nothing changed but the self-test's own state, the state of the wheel sensors it stimulates, and registers of the BIST block, which
begins at 0x100000. -/
def OnlyBist (s t : State) : Prop := t = { s with regs := t.regs, bist := t.bist, spd := t.spd } ∧ ∀ f : Fld, f.off < 0x100000 → t.get f = s.get f

theorem OnlyBist.refl (s : State) : OnlyBist s s := ⟨rfl, fun _ _ => rfl⟩

theorem OnlyBist.set {s t : State} (h : OnlyBist s t) (f : Fld) (n : Nat) (hf : 0x100000 ≤ f.off) : OnlyBist s (t.set f n) := by
  refine ⟨by rw [h.1]; rfl, fun g hg => (get_setReg_ne t _ (by omega)).trans (h.2 g hg)⟩

theorem OnlyBist.bist {s t : State} (h : OnlyBist s t) (b : BistSt) : OnlyBist s { t with bist := b } :=
  ⟨congrArg (fun u : State => { u with bist := b }) h.1, h.2⟩

theorem OnlyBist.sensorsAnew {s t : State} (h : OnlyBist s t) (n : Nat) : OnlyBist s (t.sensorsAnew n) := by
  unfold State.sensorsAnew
  split
  · exact ⟨congrArg (fun u : State => { u with spd := t.spd.anew t.nowNs }) h.1, h.2⟩
  · exact h

theorem testRecord_onlyBist (s : State) (n c : Nat) : OnlyBist s (s.testRecord n c) := by
  have res (k : Nat) : 0x100000 ≤ 0x100040 + k + 4 * n := by omega
  have h5 := fun (v : Nat) => ((((((((((OnlyBist.refl s).set R.BIST.STATUS.RUN 0 (by decide)).set R.BIST.STATUS.MANUAL 0 (by decide)).set
    (R.BIST.RES.RESULT n) v (res 0)).set (R.BIST.RES.PARTBAD n) (b2n (c != 0 && s.bist.bad)) (res 0)).set (R.BIST.RES.ABCAUSE n) c (res 0)).set
    (R.BIST.RES.SLICES n) (s.get R.BIST.PROG.DONE) (res 0)).set (R.BIST.DET.FAILCNT n) (min s.bist.failed 0xFFFF) (res 32)).set
    (R.BIST.DET.ITEM n) s.bist.item (res 32)).set R.BIST.FLAG.DONE 1 (by decide))
  unfold State.testRecord
  dsimp only
  split
  · exact (h5 _).set _ 1 (by decide)
  · split
    exacts [(h5 _).set _ 1 (by decide), h5 _]

/-- The end of a self-test. -/
theorem testEnd_onlyBist (s : State) (c : Nat) : OnlyBist s (s.testEnd c) := by
  unfold State.testEnd
  split
  · exact .refl s
  · next n _ =>
    have h := testRecord_onlyBist s n c
    generalize s.testRecord n c = t at h ⊢
    exact (h.bist _).sensorsAnew n

/-- The check of the running self-test. -/
theorem testCheck_onlyBist (s : State) : OnlyBist s s.testCheck := by
  unfold State.testCheck
  split
  · exact .refl s
  · split
    · unfold State.noteGeyser
      split
      exacts [(OnlyBist.refl s).bist _, .refl s]
    · exact testEnd_onlyBist ..

/-- A change of role shows the role, and writes what the check of the running self-test writes. -/
theorem toRole_onlyBist (s : State) (r : Role) (c : Nat) :
    OnlyBist (s.showRole r c) (s.toRole r c) := testCheck_onlyBist _

/-- A Fumarole record writes no field but its own number. -/
theorem get_fumarole (s : State) (t c n : Nat) (d : List Byte) (f : Fld) (h : R.SUP.FUMSEQ.SEQ.apart f = true) :
    (s.fumarole t c n d).get f = s.get f := get_set_apart s (1 + s.get R.SUP.FUMSEQ.SEQ) rfl h

end Sys2Proof.Machine
end

