-- ==== Sys2Proof/Laws/Slots.lean ====
section
/-! SUPPORT. What a change of Q, M and RUN leaves of an instance slot. -/

namespace Sys2Proof.Machine

@[simp] theorem Slot.setQMR_q (s : Slot) (q m r : Bool) : (s.setQMR q m r).q = q := by
  unfold Slot.q Slot.setQMR
  rw [fieldOf_withField_part _ _ (by decide) (by decide) (by decide)]
  cases q <;> cases m <;> cases r <;> rfl

@[simp] theorem Slot.setQMR_m (s : Slot) (q m r : Bool) : (s.setQMR q m r).m = m := by
  unfold Slot.m Slot.setQMR
  rw [fieldOf_withField_part _ _ (by decide) (by decide) (by decide)]
  cases q <;> cases m <;> cases r <;> rfl

@[simp] theorem Slot.setQMR_run (s : Slot) (q m r : Bool) : (s.setQMR q m r).run = r := by
  unfold Slot.run Slot.setQMR
  rw [fieldOf_withField_part _ _ (by decide) (by decide) (by decide)]
  cases q <;> cases m <;> cases r <;> rfl

@[simp] theorem Slot.setQMR_kind (s : Slot) (q m r : Bool) : (s.setQMR q m r).kind = s.kind :=
  fieldOf_withField_ne _ _ (by decide) (by decide)

@[simp] theorem Slot.setQMR_owner (s : Slot) (q m r : Bool) : (s.setQMR q m r).owner = s.owner :=
  fieldOf_withField_ne _ _ (by decide) (by decide)

@[simp] theorem Slot.setQMR_ret (s : Slot) (q m r : Bool) : (s.setQMR q m r).ret = s.ret := by
  unfold Slot.ret Slot.setQMR
  rw [fieldOf_withField_ne _ _ (by decide) (by decide)]

@[simp] theorem Slot.setQMR_wall (s : Slot) (q m r : Bool) : (s.setQMR q m r).wall = s.wall := by
  unfold Slot.wall Slot.setQMR
  rw [fieldOf_withField_ne _ _ (by decide) (by decide)]

@[simp] theorem Slot.setQMR_inst (s : Slot) (q m r : Bool) : (s.setQMR q m r).inst = s.inst := rfl
@[simp] theorem Slot.setQMR_p (s : Slot) (q m r : Bool) : (s.setQMR q m r).p = s.p := rfl
@[simp] theorem Slot.setQMR_e (s : Slot) (q m r : Bool) : (s.setQMR q m r).e = s.e := rfl
@[simp] theorem Slot.setQMR_l (s : Slot) (q m r : Bool) : (s.setQMR q m r).l = s.l := rfl
@[simp] theorem Slot.setQMR_adopt (s : Slot) (q m r : Bool) : (s.setQMR q m r).adopt = s.adopt := rfl

end Sys2Proof.Machine
end

