-- ==== Sys2Proof/WellFormed.lean ====
section
/-! DEFINITION. Which commands are well formed: the ranges of operands that their types do not already give. An Osrus instruction is well
formed whatever its reserved bits are: an illegal encoding is an instruction that raises 0x03 (R98, R108). -/

namespace Sys2Proof

/-- A signal ID: 25 bits, 0 standing for no signal (03, Table 3-5). -/
def sigIdOk (id : Nat) : Bool := decide (id < 2 ^ 25)

/-- An offset from 0x03_0000_0000, 4-byte aligned: a register of the 17 blocks (R1), a word of the compatibility window (R291), or one of the outbound
window, which begins 4 GiB above the peripherals (R299, Table 1-4). -/
def regOffOk (off : Nat) : Bool :=
  (decide (off < 0x110000) || (decide (0x200000 ≤ off) && decide (off < 0x200048)) ||
    (decide (0x100000000 ≤ off) && decide (off < 0x200000000))) && off % 4 == 0

/-- A 32-bit operand carried as a number. -/
def word32Ok (n : Nat) : Bool := decide (n < 2 ^ 32)

/-- A frame number: 64 bits (R28). -/
def frameOk (n : Nat) : Bool := decide (n < 2 ^ 64)

/-- What a faulty voter reports: an outcome of Table 6-6 and a mask of three channels. -/
def voterOk : Option VoterSays → Bool
  | none => true
  | some v => decide (v.outcome < 3) && decide (v.minority < 8) && decide (v.release < 3)

/-- A channel copy's item names a signal, a slot (2^20 of them), a force entry (1,024), a class mask, 8 switch frames or a
publish entry (4,096). -/
def copyItemOk : CopyItem → Bool
  | .sig id _ _ => sigIdOk id
  | .slot idx _ _ => decide (idx < 2 ^ 20)
  | .force idx _ => decide (idx < 1024)
  | .forceCount n => decide (n ≤ 1024)
  | .skipRun _ n => decide (n < 16)
  | .limHit m => decide (m < 256)
  | .exch _ _ swf => swf.length == 8
  | .ssc entry _ => decide (entry < 4096)
  | .epoch _ | .exchRep _ _ | .image _ _ | .context _ _ _ _ => true
  | .dirent id _ _ _ _ _ => sigIdOk id

/-- A received frame: from X1 or X2. -/
def rxFrameOk (f : RxFrame) : Bool := f.port == 1 || f.port == 2

/-- A heartbeat: frame numbers of 64 bits, vote mode and life-cycle state as coded. -/
def heartbeatOk (h : Heartbeat) : Bool := frameOk h.frame && frameOk h.ackf && decide (h.vmode < 3) && decide (h.lcs < 5)

/-- Whether a command is well formed. -/
def wellFormed : Instr → Bool
  | .selfTestSlice _ failed item => decide (failed < 65536) && decide (item < 65536)
  | .vote v1 v2 => voterOk v1 && voterOk v2
  | .injectionTest f => (f.v1 ++ f.v2).all fun p => voterOk (some p.2)
  | .frameReceive f => rxFrameOk f
  | .subscribeTimeout i => decide (i < 8192)
  | .directorySweep id => sigIdOk id
  | .stewardSignalWrite id _ => sigIdOk id
  | .slotCodeSample samples => samples.length == 8
  | .plugRead a b => (a.all fun x => x.length == 256) && (b.all fun x => x.length == 256)
  | .heartbeatReceive h => heartbeatOk h
  | .geyserDataReceive n items => frameOk n && items.all copyItemOk
  | .geyserEndReceive n items bytes _ _ _ => frameOk n && word32Ok items && word32Ok bytes
  | .geyserAckReceive n status => frameOk n && decide (status < 2)
  | .ackMiss n => frameOk n
  | .bulkReceive b _ total mib items => frameOk b && word32Ok total && word32Ok mib && items.all copyItemOk
  | .bulkendReceive b => frameOk b
  | .ctrlReceive h => frameOk h
  | .inauguration _ _ cst vehs _ _ => decide (cst < 64) && vehs.all fun v => decide (v.1 < 256)
  | .ttdbReadDone _ _ cst vehs _ _ => decide (cst < 64) && vehs.all fun v => decide (v.1 < 256)
  | .loRegisterRead _ off => regOffOk off
  | .loRegisterWrite _ off _ => regOffOk off
  | .hiRegisterWrite _ off _ => regOffOk off
  | .registerWrite _ off _ => regOffOk off
  | .cpciInboundWrite _ _ addr phases => addr.toNat % 4 == 0 && !phases.isEmpty
  | .packageHeaderReceived h => h.hsig.length == h.siglen.toNat
  | .packageReceived m _ => decide (m.sections.length ≤ 8) && decide (m.digests.length ≤ 8176) && m.msig.length == m.siglen.toNat
  | .ownerMessageReceived m => m.sig.length == m.siglen.toNat
  | _ => true

end Sys2Proof
end

