-- ==== Sys2Proof/Tests/Slice0.lean ====
section
/-! SUPPORT. Tests: ill-formed terms that WellFormed refuses, and for every statement with premises a state and operands that meet them,
clause by clause. Expected values are worked out from the spec. -/

open Sys2Proof Sys2Proof.Machine

namespace Sys2Proof.Tests

set_option Elab.async false

/-! ## Signatures that verify: z, t1 and the hint are 0, so that A·z − c·t1·2^13 is -/
/-- Every coefficient is 0. -/
def AllZero (l : List Nat) : Prop := ∀ x ∈ l, x = 0

theorem zip_zero (f : Nat → Nat → Nat) (a b : List Nat) (h : ∀ x ∈ a, ∀ y ∈ b, f x y = 0) : AllZero (List.zipWith f a b) := by
  induction a generalizing b with
  | nil => intro x hx; simp at hx
  | cons u us ih =>
    cases b with
    | nil => intro x hx; simp at hx
    | cons v vs =>
      intro x hx
      rw [List.zipWith_cons_cons, List.mem_cons] at hx
      rcases hx with rfl | hx
      · exact h u (by simp) v (by simp)
      · exact ih vs (fun x hx y hy => h x (by simp [hx]) y (by simp [hy])) x hx

theorem polyAdd_zero {a b : List Nat} (ha : AllZero a) (hb : AllZero b) : AllZero (polyAdd a b) :=
  zip_zero _ a b fun x hx y hy => by rw [ha x hx, hb y hy]; rfl
theorem polySub_zero {a b : List Nat} (ha : AllZero a) (hb : AllZero b) : AllZero (polySub a b) :=
  zip_zero _ a b fun x hx y hy => by rw [ha x hx, hb y hy]; rfl
theorem polyMul_zero (a : List Nat) {b : List Nat} (hb : AllZero b) : AllZero (polyMul a b) :=
  zip_zero _ a b fun x _ y hy => by rw [hb y hy]; simp
theorem scale_zero (c : Nat) {a : List Nat} (ha : AllZero a) : AllZero (a.map fun x => c * x % mlQ) := by
  intro x hx
  obtain ⟨y, hy, rfl⟩ := List.mem_map.mp hx
  rw [ha y hy]; simp
theorem take_zero {a : List Nat} (n : Nat) (h : AllZero a) : AllZero (a.take n) := fun x hx => h x (List.mem_of_mem_take hx)
theorem drop_zero {a : List Nat} (n : Nat) (h : AllZero a) : AllZero (a.drop n) := fun x hx => h x (List.mem_of_mem_drop hx)
theorem append_zero {a b : List Nat} (ha : AllZero a) (hb : AllZero b) : AllZero (a ++ b) := by
  intro x hx
  rcases List.mem_append.mp hx with h | h
  exacts [ha x h, hb x h]

theorem nttFrom_zero (n m : Nat) (w : List Nat) (h : AllZero w) : AllZero (nttFrom n m w) := by
  induction n generalizing m w with
  | zero => exact h
  | succ n ih =>
    have t := scale_zero (mlZeta m) (drop_zero (2 ^ n) h)
    exact append_zero (ih _ _ (polyAdd_zero (take_zero _ h) t)) (ih _ _ (polySub_zero (take_zero _ h) t))

theorem invFrom_zero (n m : Nat) (w : List Nat) (h : AllZero w) : AllZero (invFrom n m w) := by
  induction n generalizing m w with
  | zero => exact h
  | succ n ih =>
    have a := ih (2 * m) _ (take_zero (2 ^ n) h)
    have b := ih (2 * m + 1) _ (drop_zero (2 ^ n) h)
    exact append_zero (polyAdd_zero a b) (scale_zero _ (polySub_zero a b))

theorem mlRow_zero (p : MlDsa) (rho : List Byte) (zh : List (List Nat)) (ch t1 : List Nat) (r : Nat) (hz : ∀ z ∈ zh, AllZero z) (ht : AllZero t1) :
    AllZero (mlRow p rho zh ch t1 r) := by
  have hs (s : Nat) : AllZero (zh.getD s []) := by
    rcases lt_or_ge s zh.length with h | h
    · rw [List.getD_eq_getElem _ _ h]; exact hz _ (List.getElem_mem h)
    · rw [List.getD_eq_default _ _ h]; intro x hx; simp at hx
  have ha (l : List Nat) (a : List Nat) (h0 : AllZero a) :
      AllZero (l.foldl (fun a s => polyAdd a (polyMul (matEntry rho r s) (zh.getD s []))) a) := by
    induction l generalizing a with
    | nil => exact h0
    | cons s ss ih => exact ih _ (polyAdd_zero h0 (polyMul_zero _ (hs s)))
  have hc : AllZero (t1.map (8192 * ·)) := by
    intro x hx
    obtain ⟨y, hy, rfl⟩ := List.mem_map.mp hx
    rw [ht y hy]
  exact scale_zero _ (invFrom_zero _ _ _ (polySub_zero (ha _ _ (fun x hx => List.eq_of_mem_replicate hx)) (polyMul_zero _ (nttFrom_zero _ _ _ hc))))

/-- A public key of ML-DSA-44 with seed and t1 all 0. -/
def tKey : List Byte := List.replicate 1312 0

/-- What follows the commitment hash in a signature whose z and hint are 0. -/
def tTail : List Byte := leBytes 2304 (packBits 18 (List.replicate 1024 (2 ^ 17))) ++ List.replicate 84 0

/-- The commitment hash that goes with z = 0, t1 = 0 and no hint: w1 is 0. -/
def tHash (msg : List Byte) : List Byte :=
  shake256 (shake256 (shake256 tKey 64 ++ [0, BitVec.ofNat 8 ([] : List Byte).length] ++ [] ++ msg) 64 ++ List.replicate 768 0) 32

/-- A signature over `msg` that `tKey` verifies. -/
def tSign (msg : List Byte) : List Byte := tHash msg ++ tTail

theorem leBytes_len (n v : Nat) : (leBytes n v).length = n := by
  induction n generalizing v with
  | zero => rfl
  | succ n ih => rw [leBytes, List.length_cons, ih]

/-- `tKey` verifies what `tSign` gives: A·z − c·t1·2^13 is 0, so that w1 is, and the commitment hash is the one expected. -/
theorem tSign_ok (msg : List Byte) : mlVerify false tKey msg [] (tSign msg) = true := by
  have hl : (tHash msg).length = 32 := leBytes_len _ _
  have hd (k : Nat) : (tSign msg).drop (32 + k) = tTail.drop k := by
    rw [tSign, List.drop_append, hl, List.drop_eq_nil_of_le (by omega)]; simp
  have ht : (tSign msg).take 32 = tHash msg := by rw [tSign, List.take_append_of_le_length (by omega), List.take_of_length_le (by omega)]
  have hlen : (tSign msg).length = 2420 := by
    rw [tSign, List.length_append, hl]; decide +kernel
  have hw (p : MlDsa) (rho : List Byte) (zh : List (List Nat)) (ch t1 : List Nat) (r j : Nat) (hz : ∀ z ∈ zh, AllZero z) (h : AllZero t1) :
      (mlRow p rho zh ch t1 r).getD j 0 = 0 := by
    have H := mlRow_zero p rho zh ch t1 r hz h
    rcases lt_or_ge j (mlRow p rho zh ch t1 r).length with h | h
    · rw [List.getD_eq_getElem _ _ h]; exact H _ (List.getElem_mem h)
    · rw [List.getD_eq_default _ _ h]
  have hzs : ((List.range 4).map fun i => unpackBits 18 (((tSign msg).drop (32 + 32 * 18 * i)).take (32 * 18))) =
      List.replicate 4 (List.replicate 256 (2 ^ 17)) := by
    simp only [hd]; decide +kernel
  have hy : ((tSign msg).drop (32 + 32 * 18 * 4)).map BitVec.toNat = List.replicate 84 0 := by
    rw [hd]; decide +kernel
  have hzz : ∀ z ∈ (List.replicate 4 (List.replicate 256 (2 ^ 17))).map (fun z => ntt (z.map fun v => (2 ^ 17 + mlQ - v) % mlQ)), AllZero z := by
    intro z hz
    obtain ⟨y, hy, rfl⟩ := List.mem_map.mp hz
    rw [List.eq_of_mem_replicate hy]
    refine nttFrom_zero _ _ _ fun x hx => ?_
    obtain ⟨v, hv, rfl⟩ := List.mem_map.mp hx
    rw [List.eq_of_mem_replicate hv]; decide
  have hk (r : Nat) : AllZero (unpackBits 10 ((tKey.drop (32 + 320 * r)).take 320)) := by
    intro x hx
    have e : leNat ((tKey.drop (32 + 320 * r)).take 320) = 0 := by
      rw [tKey, List.drop_replicate, List.take_replicate]
      generalize min 320 (1312 - (32 + 320 * r)) = n
      induction n with
      | zero => rfl
      | succ n ih => rw [List.replicate_succ, leNat, ih]; rfl
    simp only [unpackBits, e, List.mem_map] at hx
    obtain ⟨i, _, rfl⟩ := hx
    simp
  have hh : hintRows 80 ((List.replicate 84 0).take 80) 0 ((List.replicate 84 0).drop 80) = some (List.replicate 4 []) := by decide +kernel
  have hf : ((List.range 4).map fun r => leBytes (32 * 6) (packBits 6 ((List.range 256).map fun j =>
      useHint ((mlQ - 1) / 88) (((List.replicate 4 ([] : List Nat)).getD r []).contains j) 0))).flatten = List.replicate 768 0 := by decide +kernel
  have ha : (List.replicate 4 (List.replicate 256 (2 ^ 17))).all (fun z => z.all fun v => decide (78 < v) && decide (v + 78 < 2 * 2 ^ 17)) = true := by
    decide +kernel
  have hkey : tKey.length = 32 + 320 * 4 := List.length_replicate
  unfold mlVerify
  simp only [mlSet, Bool.false_eq_true, if_false, ht, hzs, hy, hlen, hh, hkey, ha, hw _ _ _ _ _ _ _ hzz (hk _), hf]
  rw [Bool.and_eq_true]
  exact ⟨rfl, decide_eq_true rfl⟩

/-! ## Images in flash that every check finds good -/

/-- A manifest whose only section is an empty program. -/
def tMan : Manifest := { sections := [⟨6, 0x100000, 0⟩], digests := [], siglen := 2420, msig := tSign (leBytes 32 (sha3 (manBytes ⟨[⟨6, 0x100000, 0⟩], [], 2420, []⟩)).toNat) }

/-- Its digest. -/
def tDig : BitVec 256 := sha3 (manBytes tMan)

/-- A header that goes with `tMan`, not signed. -/
def tHdr0 (kind : Byte) (id : BitVec 16) : PkgHeader :=
  { magic := 0x7A311501, format := 1, kind := kind, flags := 0, part := 0, hwmin := 0, hwmax := 0, fwrel := 0, svn := 0, pver := 7, keyid := id
    copyfmt := 0, manlen := 260, datalen := 0, baseid := 0, mandig := tDig, siglen := 2420, hsig := [] }

/-- A header that goes with `tMan`. -/
def tHdr (kind : Byte) (id : BitVec 16) : PkgHeader := { tHdr0 kind id with hsig := tSign (hdrBytes (tHdr0 kind id)) }

/-- An image that every check finds good. -/
def tFlash (kind : Byte) (id : BitVec 16 := 1) : FlashImg :=
  { hdr := tHdr kind id, man := tMan, base := some (tHdr 1 1, tMan), blocks := [], valid := true }

/-- The key store's keys for `tFlash`. -/
def tKeys : List KeyEnt := [⟨1, false, false, tKey⟩, ⟨0x10, false, false, tKey⟩]

theorem tHdr_bad (kind : Byte) (id : BitVec 16) : badManifest (tHdr kind id) tMan = false := by
  have e : badManifest (tHdr kind id) tMan = ((manBytes tMan).length != 260 || decide (520192 < 260) || decide (8176 < 0) || sha3 (manBytes tMan) != tDig) := rfl
  rw [e]; decide +kernel

theorem tHdr_fields (kind : Byte) (id : BitVec 16) :
    (tHdr kind id).magic = 0x7A311501 ∧ (tHdr kind id).format = 1 ∧ (tHdr kind id).kind = kind ∧ (tHdr kind id).part = 0 ∧ (tHdr kind id).hwmin = 0 ∧
    (tHdr kind id).hwmax = 0 ∧ (tHdr kind id).svn = 0 ∧ (tHdr kind id).keyid = id ∧ (tHdr kind id).siglen = 2420 ∧ tMan.siglen = 2420 :=
  ⟨rfl, rfl, rfl, rfl, rfl, rfl, rfl, rfl, rfl, rfl⟩

/-- A key of `tKeys` verifies what `tSign` gives. -/
theorem tSigned (s : State) (hs : s.upd.keys = tKeys) (id : BitVec 16) (hi : id = 1 ∨ id = 0x10) (msg : List Byte) :
    s.signed id.toNat 2420 msg (tSign msg) = true ∧ ∃ k, s.key id.toNat = some k ∧ k.big = false := by
  have h : s.key id.toNat = some ⟨id.toNat, false, false, tKey⟩ := by
    unfold State.key
    rw [hs]
    rcases hi with rfl | rfl <;> rfl
  refine ⟨?_, _, h, rfl⟩
  unfold State.signed
  rw [h]
  exact (Bool.and_eq_true _ _).mpr ⟨rfl, tSign_ok msg⟩

theorem tHead_ok (s : State) (hs : s.upd.keys = tKeys)
    (hp : s.reg R.ID.PART.NUM.off = 0) (hr : s.get R.ID.REV.HWREV = 0) (hm : s.get R.UPD.MINSVN.SVN = 0) (kind : Byte) (id : BitVec 16) (kinds : List Nat)
    (hk : (kinds.contains kind.toNat) = true) (hi : (id = 1 ∨ id = 0x10) ∧ keyFor id.toNat kind.toNat = true) :
    (s.sealSteps (tHdr kind id) tMan kinds).all (fun p => !p.2) = true := by
  obtain ⟨f1, f2, f3, f4, f5, f6, f7, f8, f9, f10⟩ := tHdr_fields kind id
  have h1 : s.signed id.toNat 2420 (hdrBytes (tHdr kind id)) (tHdr kind id).hsig = true := (tSigned s hs id hi.1 _).1
  have h2 : s.signed id.toNat 2420 (leBytes 32 (tHdr kind id).mandig.toNat) tMan.msig = true := (tSigned s hs id hi.1 _).1
  obtain ⟨k, hkey, hbig⟩ := (tSigned s hs id hi.1 []).2
  have a : algOf 2420 = some false := rfl
  simp [State.sealSteps, State.headSteps, State.badMsig, tHdr_bad, f1, f2, f3, f4, f5, f6, f7, f8, f9, f10, hp, hr, hm, hkey, hbig, a, hi.2] at hk h1 h2 ⊢
  exact ⟨hk, h1, h2⟩

theorem firstReason_none : ∀ l : List (Nat × Bool), l.all (fun p => !p.2) = true → firstReason l = 0
  | [], _ => rfl
  | p :: t, h => by
    simp only [List.all_cons, Bool.and_eq_true, Bool.not_eq_true'] at h
    unfold firstReason
    simp only [h.1, Bool.false_eq_true, if_false]
    exact firstReason_none t h.2

theorem tFlash_good (s : State) (hs : s.upd.keys = tKeys) (hp : s.reg R.ID.PART.NUM.off = 0)
    (hr : s.get R.ID.REV.HWREV = 0) (hm : s.get R.UPD.MINSVN.SVN = 0) (n : Nat) (kind : Byte) (id : BitVec 16)
    (hi : s.img n = some (tFlash kind id)) (hk : n ≠ 2 ∧ kind = 1 ∧ id = 1 ∨ n ≠ 2 ∧ kind = 2 ∧ id = 0x10 ∨ n = 2 ∧ kind = 3 ∧ id = 1) :
    s.slotCheck n = 0 := by
  have H := tHead_ok s hs hp hr hm
  unfold State.slotCheck
  rw [hi]
  refine firstReason_none _ ?_
  rcases hk with ⟨hn, rfl, rfl⟩ | ⟨hn, rfl, rfl⟩ | ⟨rfl, rfl, rfl⟩
  · have h := H 1 1 [1, 2] (by decide) (by decide)
    simp only [tFlash, hn, if_false, List.all_append, List.all_cons, h]; rfl
  · have h := H 2 0x10 [1, 2] (by decide) (by decide)
    have h' := H 1 1 [1, 2] (by decide) (by decide)
    have e : ((tHdr 2 0x10).kind.toNat = 2) = True := by decide
    simp only [tFlash, hn, if_false, List.all_append, List.all_cons, h, h', e, if_true]; decide
  · have h := H 3 1 [3] (by decide) (by decide)
    simp only [tFlash, if_true, List.all_append, List.all_cons, h]; rfl

/-! ## Small states -/

/-- A module in which every register reads 0, but for the fields listed. -/
def tS (l : List (Fld × Nat) := []) : State := l.foldl (fun s p => s.set p.1 p.2) { State.reset with regs := [] }

/-- A version: unit 1 (0x1000 to 0x1100), unit 2 (safety), unit 3 (not safety); task 5 of class 1 on engine 0, its scratch window 16 bytes;
segment 0 of 1 in every frame. -/
def tP : Program :=
  { pver := 7, schedId := 9, hyper := 1, maxSeg := 1, per := [1, 1, 1, 1, 1, 1, 1, 1]
    units := [⟨1, 0x1000, 0x1000, 0x1100, true, 16⟩, ⟨2, 0x2000, 0x2000, 0x2100, true, 0⟩, ⟨3, 0x3000, 0x3000, 0x3100, false, 0⟩]
    tasks := [⟨5, 1, 0, 1, 0, 0, false, 0x60000000, 0x60000010, 0x80000000⟩], segs := [⟨0, 20000, 0, 5, 0, true, 100⟩]
    reads := [[], [3, 4, 6], [], [], [], [], [], []], writes := [], sigs := [], slots := [], code := [(0x1000, 0x5A)], pubs := [], subs := []
    binds := [], osrc := [], cards := [], vtype := 0, rack := 0, sizeMiB := 1, tileLo := 0, tileHi := 0, names := [], heldStores := 0, outStores := 0
    retChange := 0, copyOut := 0 }

/-- Registers at 0x1010 of unit 1, class 1, g1 to g3 and c1 as given. -/
def tX (g1 : Word := 0) (g2 : Word := 0) (g3 : Word := 0) (c1 : Bool := false) (safe : Bool := false) : Ctx :=
  { Ctx.reset with
    g := (((Vector.replicate 32 0).set 1 g1).set 2 g2).set 3 g3, c := (Vector.replicate 8 false).set 1 c1
    pc := 0x1010, unit := 1, st := if safe then 3 else 2 }

/-- The instance of task 5. -/
def tI : Inst :=
  { td := ⟨5, 1, 0, 1, 0, 0, false, 0x60000000, 0x60000010, 0x80000000⟩, bank := false, fr := 4, seg := 0, snap := [], wset := [], slots := [], ctx := none
    scratch := [], ended := false, fin := false }

/-- Engine 0 running task 5 with registers `x`. -/
def tK (x : Ctx) : EngC := { EngC.reset with x := x, bud := 9, run := some 5 }

/-- A channel whose engine 0 is `k`, with a directory and instance slots. -/
def tC (k : EngC) (i : Inst := tI) (dir : Tbl DirEnt := []) (slots : Tbl Slot := []) : Chan :=
  { Chan.reset with eng := (Vector.replicate 8 EngC.reset).set 0 k, insts := [(5, i)], dir := dir, slots := slots }

/-- Three included channels alike, in RUN. -/
def tE (c : Chan) (l : List (Fld × Nat) := []) : State :=
  { tS ([(R.VOTE.MODE.INCL, 7), (R.SUP.STATE.MSTATE, 3)] ++ l) with chA := c, chB := c, chC := c, bank0 := some tP }

/-- In RUN and ALONE, phase `ph`. -/
def tRun (ph : Nat) (l : List (Fld × Nat) := []) : State :=
  tS ([(R.VOTE.MODE.INCL, 7), (R.SUP.STATE.MSTATE, 3), (R.PAIR.ROLE.fld, 1), (R.GONG.STATUS.PHASE, ph)] ++ l)

/-! ## The premises of the statements are met: engines -/

theorem witness_IntegerInstructionsWriteTheirResult : Runs (tE (tC (tK (tX 5 7)))) .b 0 4 5 tI tP := by decide

theorem witness_IntegerInstructionsWriteTheirResult_division :
    let x := tX 5 7
    Runs (tE (tC (tK x))) .a 0 4 5 tI tP ∧ x.gr 2 ≠ 0 ∧ x.gr 3 = 0 := by decide

theorem witness_IntegerInstructionsWriteTheirResult_immediate :
    let s := tE (tC (tK (tX 5 7)))
    Runs s .a 0 4 5 tI tP ∧ Runs s .a 0 8 5 tI tP := by decide

theorem witness_RegisterZeroDiscardsWrites : (31 : GReg) ≠ 0 ∧ (1 : GReg) ≠ 31 ∧ (7 : CReg) ≠ 0 ∧ (1 : CReg) ≠ 7 := by decide

theorem witness_ConditionInstructionsWriteTheirResult : Runs (tE (tC (tK (tX 5 7)))) .c 0 4 5 tI tP := by decide

/-- BC to 0x10FC and to 0x1100, one past the unit's end; BSW likewise; LOOP from 1, from its bound, beyond it. -/
theorem witness_BranchesGoToTheirTargetOrRaise :
    let x := tX 59 60 1
    Runs (tE (tC (tK x))) .a 0 4 5 tI tP ∧ x.cr 1 = false ∧ x.cr 1 ≠ true ∧
    inRunningUnit tP x (0x1010 + 4 * 59) 4 = true ∧ inRunningUnit tP x (0x1010 + 4 * 60) 4 = false ∧
    inRunningUnit tP x (0x1010 + 4 * (1 + min (x.gr 1).toNat 58)) 4 = true ∧
    inRunningUnit tP x (0x1010 + 4 * (1 + min (x.gr 1).toNat 59)) 4 = false ∧
    (x.gr 3).toNat ≤ 1 ∧ 1 < (x.gr 1).toNat ∧ (x.gr 1).toNat ≤ 59 ∧ 4 * 4 ≤ x.pc.toNat ∧
    inRunningUnit tP x (0x1010 - 4 * 4) 4 = true ∧ inRunningUnit tP x (0x1010 - 4 * 5) 4 = false ∧ 58 < (x.gr 1).toNat := by decide

/-- A unit at address 0: LOOP back beyond it. -/
theorem witness_BranchesGoToTheirTargetOrRaise_below :
    let p := { tP with units := [⟨1, 0, 0, 0x100, true, 0⟩] }
    let x := { tX 2 with pc := 4 }
    Runs { tE (tC (tK x)) with bank0 := some p } .a 0 4 5 tI p ∧ 1 < (x.gr 1).toNat ∧ x.pc.toNat < 4 * 2 := by decide

theorem witness_CallAndReturnKeepTheStack :
    let full := { tX with stack := List.replicate 16 ⟨0x1004, 0, 0, 1⟩ }
    let safe := tX 0 0 0 false true
    Runs (tE (tC (tK full))) .a 0 4 5 tI tP ∧ full.stack.length = 16 ∧ full.stack.head? = some ⟨0x1004, 0, 0, 1⟩ ∧
    Runs (tE (tC (tK safe))) .a 0 4 5 tI tP ∧ safe.safe = true ∧ safe.stack = [] ∧
    unitOf tP 2 = some ⟨2, 0x2000, 0x2000, 0x2100, true, 0⟩ ∧ unitOf tP 3 = some ⟨3, 0x3000, 0x3000, 0x3100, false, 0⟩ ∧
    unitOf tP 4 = none := by decide

/-- A directory: 2 not defined, 3 of HOME 4, 4 a 32-bit value and 6 of 16 bytes, both of HOME 0 and class 1, 7 of class 2. -/
def tD : Tbl DirEnt :=
  [(2, ⟨0, 0, 0, 0, []⟩), (3, ⟨0x21000004, 0, 0, 0, [0, 0, 0, 0]⟩), (4, ⟨0x20000004, 0, 0, 0, [1, 2, 3, 4]⟩),
    (6, ⟨0x200001ED, 0, 0, 0, List.replicate 16 0⟩), (7, ⟨0x40000004, 0, 0, 0, [0, 0, 0, 0]⟩)]

theorem witness_SignalReadsGiveWhatTheInstanceSees :
    let x := tX 3 6 4
    let s := tE (tC (tK x) tI tD)
    let v : DirEnt := ⟨0x20000004, 0, 0, 0, [1, 2, 3, 4]⟩
    let b : DirEnt := ⟨0x200001ED, 0, 0, 0, List.replicate 16 0⟩
    Runs s .a 0 4 5 tI tP ∧ Runs s .a 0 8 5 tI tP ∧ Readable s .a tP x 4 v ∧ Readable s .a tP x 6 b ∧
    (x.sb + (4 : BitVec 21).zeroExtend 25).toNat = 4 ∧ (x.gr 1 + (1 : BitVec 16).signExtend 64).toNat % 2 ^ 25 = 4 ∧
    (x.gr 2).toNat % 2 ^ 25 = 6 ∧ b.isBytes = true ∧ (x.gr 3).toNat % 2 ^ 25 = 4 ∧ v.isBytes = false ∧ (4 : BitVec 25).toNat = 4 ∧
    Readable s .a tP x 3 ⟨0x21000004, 0, 0, 0, [0, 0, 0, 0]⟩ ∧ (⟨0x21000004, 0, 0, 0, [0, 0, 0, 0]⟩ : DirEnt).home = 4 ∧ v.home ≠ 4 := by decide

theorem witness_SignalReadsGiveWhatTheInstanceSees_writes :
    let x := tX 1 6 2
    let s := tE (tC (tK x) tI tD)
    let v : DirEnt := ⟨0x20000004, 0, 0, 0, [1, 2, 3, 4]⟩
    let b : DirEnt := ⟨0x200001ED, 0, 0, 0, List.replicate 16 0⟩
    Runs s .a 0 4 5 tI tP ∧ Runs s .a 0 8 5 tI tP ∧ Writable s .a x 4 v ∧ Writable s .a x 6 b ∧
    (x.sb + (4 : BitVec 21).zeroExtend 25).toNat = 4 ∧ (x.gr 1 + (3 : BitVec 16).signExtend 64).toNat % 2 ^ 25 = 4 ∧
    (x.gr 2).toNat % 2 ^ 25 = 6 ∧ b.isBytes = true ∧ 8 * (x.gr 1).toNat < b.size ∧ b.size ≤ 8 * (x.gr 3).toNat ∧
    v.isBytes = false ∧ (x.gr 0).toNat = 0 ∧ (x.gr 1).toNat ≠ 0 ∧ (4 : BitVec 25).toNat = 4 := by decide

/-- Undefined 99 and 2, defined 7 outside the read set and owned by another class, 3 of HOME 4 for a safety class, signal 0. -/
theorem witness_SignalAccessChecks :
    let x := tX 0 0 0 false true
    let s := tE (tC (tK x) tI tD)
    Runs s .a 0 8 5 tI tP ∧ tblFind tD 99 = none ∧ tblFind tD 2 = some ⟨0, 0, 0, 0, []⟩ ∧
    tblFind tD 7 = some ⟨0x40000004, 0, 0, 0, [0, 0, 0, 0]⟩ ∧ (tP.reads.getD x.cls []).contains 7 = false ∧
    (⟨0x40000004, 0, 0, 0, [0, 0, 0, 0]⟩ : DirEnt).owner ≠ x.cls ∧
    tblFind tD 3 = some ⟨0x21000004, 0, 0, 0, [0, 0, 0, 0]⟩ ∧ (tP.reads.getD x.cls []).contains 3 = true ∧
    (⟨0x21000004, 0, 0, 0, [0, 0, 0, 0]⟩ : DirEnt).home = 4 ∧ x.safe = true ∧ (0 : BitVec 25).toNat = 0 ∧ Runs s .a 0 4 5 tI tP ∧
    ∀ id ∈ [0, 2, 3, 7, 99], (x.sb + (BitVec.ofNat 21 id).zeroExtend 25).toNat = id ∧
      (x.gr 1 + (BitVec.ofNat 16 id).signExtend 64).toNat % 2 ^ 25 = id ∧ ((tX id).gr 1).toNat % 2 ^ 25 = id ∧ (BitVec.ofNat 25 id).toNat = id := by decide

/-- A slot of kind `kind` and class 1 with Q, M and RUN as in bits 21 to 19, mark of adoption as given. -/
def tSl (kind qmr : Nat) (adopt : Bool := false) : Slot := ⟨BitVec.ofNat 32 (2 ^ 28 * kind + 2 ^ 23 + 2 ^ 19 * qmr), 0, 5, 1, 2, adopt⟩

/-- For each kind of timer: input off and on (c0), M off and on, RUN off and on. -/
theorem witness_TimersFollowTheirRules :
    (∀ kind ∈ [1, 2, 3], ∀ qmr ∈ [0, 1, 2, 3],
      let s := tE (tC (tK (tX 5)) tI [] [(8, tSl kind qmr)])
      Runs s .a 0 4 5 tI tP ∧ seenSlot s .a tI 8 = some (tSl kind qmr) ∧ (tSl kind qmr).owner = (tX 5).cls ∧ (tSl kind qmr).kind = kind ∧
      ((tX 5).ib + (8 : BitVec 12).zeroExtend 20).toNat = 8 ∧ (tX 5).cr 0 = true ∧ (tX 5).cr 1 = false ∧
      ((tSl kind qmr).before false = true ↔ 2 ≤ qmr) ∧ ((tSl kind qmr).run = true ↔ qmr % 2 = 1)) := by decide

theorem witness_TimersFollowTheirRules_edges :
    (∀ kind ∈ [1, 4, 5, 6, 7],
      let s := tE (tC (tK (tX 5)) tI [] [(8, tSl kind 0)])
      Runs s .a 0 4 5 tI tP ∧ seenSlot s .a tI 8 = some (tSl kind 0) ∧ (tSl kind 0).owner = (tX 5).cls ∧ (tSl kind 0).kind = kind) ∧
    seenSlot (tE (tC (tK (tX 5)) tI [] [(8, tSl 7 0)])) .a tI 9 = none := by decide

/-- Code, the scratch window's last double-word, an unmapped address. -/
theorem witness_LoadsGiveTheStoredBytes :
    let x := tX 0x1000 0x60000008 0x500000000
    let s := tE (tC (tK x))
    s.leadCh = .a ∧ Runs s .a 0 4 5 tI tP ∧ regionOf (x.gr 1).toNat = .code ∧ (x.gr 1).toNat % 8 = 0 ∧
    regionOf (x.gr 2).toNat = .work ∧ (x.gr 2).toNat % 8 = 0 ∧ tI.td.winLo ≤ (x.gr 2).toNat ∧ (x.gr 2).toNat + 8 ≤ tI.td.winHi ∧
    regionOf (x.gr 3).toNat = .unmapped := by decide

/-- The exchange area from a safety class; code and a held store's target not aligned; the ranges a program may not touch; beyond the scratch window. -/
theorem witness_AccessesAreCheckedBeforeTheyAct :
    let x := tX 0x180000000 0x1001 0x60000009
    let y := tX 0x180000000 0x300000000 0 false true
    let s := tE (tC (tK x))
    let u := tE (tC (tK y))
    s.leadCh = .a ∧ u.leadCh = .a ∧ Runs s .a 0 4 5 tI tP ∧ Runs u .a 0 4 5 tI tP ∧ y.safe = true ∧ x.safe = false ∧
    regionOf (y.gr 1).toNat = .exchange ∧ regionOf (y.gr 2).toNat = .periph ∧
    regionOf (x.gr 2).toNat = .code ∧ (x.gr 2).toNat % 2 ≠ 0 ∧ regionOf (x.gr 3).toNat = .work ∧ ¬ (x.gr 3).toNat + 8 ≤ tI.td.winHi ∧
    (x.gr 3).toNat % 1 = 0 ∧
    ([0x20000000, 0x40000000, 0x80000000, 0xA0000000, 0xE0000000, 0x100000000, 0x200000000].map regionOf =
      [.shadow, .coldSlot, .context, .value, .dir, .tile, .mram]) := by decide

/-- A full commit buffer, a register as the address. -/
theorem witness_AccessesAreCheckedBeforeTheyAct_full :
    let k := { tK (tX 0x300000000) with cbuf := List.replicate 4096 ⟨0, 0, 0, 0, 5, false, 0, 7⟩ }
    k.x.safe = false ∧ regionOf (k.x.gr 1).toNat = .periph ∧ 4096 ≤ k.cbuf.length := by
  refine ⟨by decide, by decide, ?_⟩
  exact Nat.le_of_eq List.length_replicate.symm

/-- The exchange area, MRAM, GONG.FRAME_LO and the outbound window; CPEND(0), CVEC with an empty ring and CMASK(7); a slot free behind one in use, and none. -/
theorem witness_DistributedReadIsTheSameInEveryChannel :
    let x := tX 0x180000008 0x200000010 0x400000008
    let s := tE (tC (tK x)) [(R.BRG.STATUS.HOLD, 1)]
    let d : DrSlot := ⟨.core false, 0, 4, 0, false⟩
    let one := (s.brg.slots).set 0 (some d)
    let full : Vector (Option DrSlot) 8 := Vector.replicate 8 (some d)
    Runs s s.leadCh 0 4 5 tI tP ∧ Runs s .c 0 4 5 tI tP ∧ regionOf (x.gr 1).toNat = .exchange ∧ x.safe = false ∧
    (x.gr 1).toNat % 8 = 0 ∧ s.wrongBits .c = 0 ∧ s.vote.dregB.wrong = 0 ∧ regionOf (x.gr 2).toNat = .mram ∧ (x.gr 2).toNat % 8 = 0 ∧
    regionOf (x.gr 3).toNat = .outbound ∧ (x.gr 3).toNat % 8 = 0 ∧ s.get R.BRG.STATUS.HOLD = 1 ∧ (tE (tC (tK x))).get R.BRG.STATUS.HOLD = 0 ∧
    one[(1 : Fin 8)] = none ∧ (∀ b : Fin 8, b < 1 → one[b] ≠ none) ∧ (∀ b : Fin 8, full[b] ≠ none) := by decide

/-- The leading copy reads the outbound window, a copy whose registers differ MRAM, the exchange area, a register, the window: each waits with its own address. -/
theorem witness_DistributedReadIsTheSameInEveryChannel_own :
    let s (own : Word) := { tE (tC (tK (tX 0x400000008))) [(R.BRG.STATUS.HOLD, 1)] with chC := tC (tK (tX own)) }
    (∀ own ∈ [(0x200000010 : Word), 0x180000008, 0x300000000, 0x300200000],
      Runs (s own) (s own).leadCh 0 4 5 tI tP ∧ Runs (s own) .c 0 4 5 tI tP ∧ (regsOf (s own) .c 0).gr 1 = own ∧ (regsOf (s own) .c 0).safe = false) ∧
    regionOf ((regsOf (s 0) (s 0).leadCh 0).gr 1).toNat = .outbound ∧
    ([0x200000010, 0x180000008, 0x300000000, 0x300200000].map regionOf = [.mram, .exchange, .periph, .window]) := by
  refine ⟨?_, by decide, by decide⟩
  intro own h
  simp only [List.mem_cons, List.not_mem_nil, or_false] at h
  rcases h with rfl | rfl | rfl | rfl <;> decide

theorem witness_DistributedReadIsTheSameInEveryChannel_registers :
    (∀ a ∈ [R.GONG.FRAME_LO.FRAME.off, R.SUP.STATE.MSTATE.off], regionOf (0x300000000 + a) = .periph ∧ a % 4 = 0) ∧
    (∀ a ∈ [0x200000, 0x200040, 0x20003C], regionOf (0x300000000 + a) = .window) ∧ regionOf 0x300000002 = .periph ∧
    (tE (tC (tK (tX 0x300200040)))).ringEmpty 0 = true ∧ Runs (tE (tC (tK (tX 0x300200040)))) .a 0 4 5 tI tP := by decide

theorem witness_StoresStayInTheScratchWindowOrAreHeld :
    let x := tX 0x60000008 0x4FFFFFFF8 0x500000000
    let s := tE (tC (tK x))
    Runs s .a 0 4 5 tI tP ∧ regionOf (x.gr 1).toNat = .work ∧ (x.gr 1).toNat % 8 = 0 ∧ (x.gr 1).toNat + 8 ≤ tI.td.winHi ∧
    regionOf (x.gr 2).toNat = .outbound ∧ (x.gr 2).toNat % 8 = 0 ∧ x.safe = false ∧ (tK x).cbuf.length < 4096 ∧
    regionOf (x.gr 3).toNat = .unmapped ∧ regionOf 0x300050080 = .periph ∧ regionOf 0x30020FFFF = .window := by decide

theorem witness_FloatInstructionsWriteResultAndFlags :
    Runs (tE (tC (tK (tX 0x3F800000)))) .a 0 4 5 tI tP ∧ (7 : BitVec 4).toNat < 8 := by decide

/-- In binary32: quiet and signalling NaN, infinities, zeros, 1, the largest finite value; an order of infinities, and equal zeros of either sign. -/
theorem witness_FloatInstructionsWriteResultAndFlags_values :
    let v := binary32.decode
    ((v 0x7FC00000).isNan = true ∧ (v 0x7FC00000).isSnan = false ∧ (v 0x7F800001).isSnan = true ∧ (v 0x3F800000).isNan = false) ∧
    v 0x7F800000 = .inf false ∧ v 0xFF800000 = .inf true ∧ v 0 = .fin false 0 (-149) ∧ v 0x80000000 = .fin true 0 (-149) ∧
    v 0x3F800000 = .fin false (2 ^ 23) (-23) ∧ v 0xBF800000 = .fin true (2 ^ 23) (-23) ∧ (v 0x80000000).neg = true ∧ (v 0).neg = false ∧
    (⊥ : EReal) < ⊤ ∧ (((1 * (0 : ℕ) * (2 : ℝ) ^ (-149 : Int) : ℝ) : EReal) = ((-1 * (0 : ℕ) * (2 : ℝ) ^ (-149 : Int) : ℝ) : EReal)) := by
  refine ⟨by decide +kernel, by decide +kernel, by decide +kernel, by decide +kernel, by decide +kernel, by decide +kernel, by decide +kernel,
    by decide +kernel, by decide +kernel, bot_lt_top, by simp⟩

/-- Finite operands whose sum overflows (the largest value twice), whose product is tiny (the least subnormal twice), and that convert to an integer out of range. -/
theorem witness_FloatOperationsRoundTheExactResult :
    binary32.decode 0x7F7FFFFF = .fin false (2 ^ 24 - 1) 104 ∧ binary32.decode 1 = .fin false 1 (-149) ∧ binary32.decode 0x3F800000 = .fin false (2 ^ 23) (-23) ∧
    (binary32.emax : Int) = 127 ∧ binary32.p = 24 ∧
    (let m : ℝ := ((2 ^ 24 - 1 : ℕ) : ℝ) * (2 : ℝ) ^ (104 : Int)
     (2 : ℝ) ^ (128 : Int) ≤ |m + m| ∧ ¬ (2 : ℝ) ^ (128 : Int) - (2 : ℝ) ^ (104 : Int) < |m| ∧ (2 : ℝ) ^ 63 ≤ m) ∧
    (let x : ℝ := (2 : ℝ) ^ (-149 : Int) * (2 : ℝ) ^ (-149 : Int)
     0 < x ∧ x < (2 : ℝ) ^ (-126 : Int) - (2 : ℝ) ^ (-150 : Int) / 2 ∧ x ≤ (2 : ℝ) ^ (-126 : Int) - (2 : ℝ) ^ (-150 : Int)) := by
  refine ⟨by decide +kernel, by decide +kernel, by decide +kernel, by decide +kernel, rfl, ?_, ?_⟩
  · norm_num [abs_of_nonneg]
  · norm_num

theorem witness_SystemInstructionsMoveSpecialRegisters : Runs (tE (tC (tK (tX 5)))) .a 0 4 5 tI tP := by decide

/-- With a window open; segment 0 is the last of task 5, segment 1 is not in the schedule. -/
theorem witness_SyncYieldAndFaultEndWhatTheyEnd :
    let k := { tK (tX 5) with win := some ⟨0, 0, 1, 1⟩ }
    Runs (tE (tC k)) .a 0 4 5 tI tP ∧ k.win.isSome = true ∧ lastSeg tP 5 tI.seg = true ∧
    Runs (tE (tC k { tI with seg := 1 })) .a 0 4 5 { tI with seg := 1 } tP ∧ lastSeg tP 5 1 = false := by decide

/-- An empty ring; a record whose source is asserted, and one whose source is withdrawn. -/
theorem witness_EventInstructionsClaimAndComplete :
    let c := tC (tK (tX 5))
    let s := tE c
    let u := { tE c [(R.NET.HEAD.INDEX 0, 1), (R.EVC.PLAT.LAT 0, 1), (R.EVC.PEN.EN 0, 1)] with evs := [(0, ⟨.delivered, 0, 0, false, none, none⟩)] }
    let w := tE c [(R.NET.HEAD.INDEX 0, 1)]
    s.leadCh = .a ∧ Runs s .a 0 4 5 tI tP ∧ s.ringEmpty 0 = true ∧ (tX 5).safe = false ∧ (tK (tX 5)).cbuf.length < 4096 ∧
    Runs u .a 0 4 5 tI tP ∧ u.ringEmpty 0 = false ∧ u.ringWord 0 0 % 1024 = 0 ∧
    tblFind u.evs (evKey 0 0) = some ⟨.delivered, 0, 0, false, none, none⟩ ∧ (u.ringTake 0).evLevel (evKey 0 0) = true ∧
    (u.ringTake 0).evEnabled (evKey 0 0) = true ∧ Runs w .a 0 4 5 tI tP ∧ w.ringEmpty 0 = false ∧ tblFind w.evs (evKey 0 0) = none ∧
    Runs (tE (tC (tK (tX 5 0 0 false true)))) .a 0 4 5 tI tP ∧ (tX 5 0 0 false true).safe = true := by decide

/-- No budget; PC beyond the unit; a reserved bit set. -/
theorem witness_BudgetFetchAndEncodingAreCheckedFirst :
    let k := tK (tX 5)
    let s := tE (tC k)
    osrusForm (.add 0 1 2 3 1) = some (0, 4, false) ∧ s.leadCh = .a ∧ s.executing .a = true ∧ k.run = some 5 ∧ k.stall = none ∧
    tblFind (s.ch .a).insts 5 = some tI ∧ s.bank tI.bank = some tP ∧ { k with bud := 0 }.bud = 0 ∧ k.bud ≠ 0 ∧
    fetchOk tP { k.x with pc := 0x1100 } 4 = false ∧ fetchOk tP k.x 4 = true := by decide

theorem witness_BudgetFetchAndEncodingAreCheckedFirst_halted :
    let s := tE (tC { tK (tX 5) with run := none })
    osrusForm (.nop 0 0) = some (0, 4, true) ∧ (s.ch .a).eng[(0 : Eng)].run = none ∧ (tS).executing .a = false ∧
    ({ tK (tX 5) with stall := some .bufferFull }).stall.isSome = true := by decide

theorem witness_ChannelsStayInLockstep :
    let s := tE (tC (tK (tX 5)))
    osrusForm (.nop 0 0) = some (0, 4, true) ∧ s.executing .a = true ∧ s.executing .b = true ∧ s.ch .a = s.ch .b := by decide

theorem witness_StepRunsTheFrontCommand : { tS with pending := [.cut, .commit] }.pending = .cut :: [.commit] := by decide

theorem witness_StepsKeepTheCanonicalForm : Canon (tS [(R.VOTE.MODE.INCL, 7), (R.SUP.STATE.MSTATE, 3)]) := by decide

/-! ## Frames and votes -/

theorem witness_GongTicksNumberTheFrames :
    let s := tRun 4
    (tS).mstate = .boot ∧ s.mstate ≠ .boot ∧ s.gong.ticking = false ∧
    (∀ r ∈ [0, 1, 2, 3], { s with gong := { s.gong with ticking := true, reph := r } }.gong.reph = r) ∧
    (tRun 3).mstate = .run ∧ (tRun 3).get R.GONG.STATUS.PHASE < 4 := by decide +kernel

/-- The instance of task 5 waits on every channel: not ended with and without a saved context, and ended. -/
theorem witness_SegmentStartLoadsTheCopies :
    ∀ i ∈ [tI, { tI with ctx := some (tX 5) }, { tI with ended := true }],
      let s := { tRun 1 with chA := tC EngC.reset i, chB := tC EngC.reset i, chC := tC EngC.reset i, bank0 := some tP }
      s.mstate = .run ∧ s.leads = true ∧ s.get R.GONG.STATUS.PHASE = 1 ∧ s.busy 0 = false ∧
      (s.segs s.gong.frame 0).drop s.seqr.taken[(0 : Eng)] = [(⟨0, 20000, 0, 5, 0, true, 100⟩, false)] ∧ s.live 5 = true ∧ s.bank false = some tP ∧
      s.executing .b = true ∧ tblFind (s.ch .b).insts 5 = some i ∧ unitOf tP i.td.unit = some ⟨1, 0x1000, 0x1000, 0x1100, true, 16⟩ := by
  decide +kernel

/-- CUT with the instance finished on the leading channel and the engine still running elsewhere. -/
theorem witness_CutStopsTheEngines :
    let s := { tE (tC (tK (tX 5)) { tI with fin := true }) [(R.PAIR.ROLE.fld, 1), (R.GONG.STATUS.PHASE, 1)] with bank0 := some tP }
    s.mstate = .run ∧ s.get R.GONG.STATUS.PHASE ≤ 1 ∧ s.works = true ∧ s.segs s.gong.frame 0 = [(⟨0, 20000, 0, 5, 0, true, 100⟩, false)] := by
  decide +kernel

/-- A digest vote of two channels that are alike agrees. -/
theorem tVote (s : State) (c : Close) (he : c.exc = none) (hi : s.incl = [.a, .b]) (h1 : s.vote.v1 = none) (h2 : s.vote.v2 = none)
    (hp : ∀ ch, s.chst ch ≠ 3) : s.voteGroup ⟨9, some c, some c, none⟩ = s.countWindow 9 := by
  have hq (t : State) (ht : t.chst = s.chst) (g : VGroup) (x : Option Close) : t.checkProbation g x = t := by
    unfold State.checkProbation
    rw [List.find?_eq_none.mpr (by intro ch _; rw [ht]; simpa using hp ch)]
  have hc : (s.countWindow 9).chst = s.chst := by
    funext ch
    cases ch <;> simp [State.countWindow, State.setPair, State.chst] <;> rw [get_set_apart _ _ rfl rfl, get_set_apart _ _ rfl rfl]
  unfold State.voteGroup
  simp [decide3, VGroup.of, hi, voterResult, h1, h2, Verdict.mask, Verdict.releaseNum, he, State.markVoted, hq _ hc]

/-- The words of the digest, and nothing else, are written. -/
theorem tDigest (t : State) (d : Nat) (f : Fld) (h : f.off < 0x40080 ∨ 0x400A0 ≤ f.off) :
    (forN 8 t fun t w => t.set (R.VOTE.DIGEST.WORD w) (d / 2 ^ (32 * w))).get f = t.get f := by
  have far (t : State) (w v : Nat) (hw : w < 8) : (t.set (R.VOTE.DIGEST.WORD w) v).get f = t.get f :=
    get_setReg_ne _ _ (by simp only [R.VOTE.DIGEST.WORD]; omega)
  unfold forN
  rw [show List.range 8 = [0, 1, 2, 3, 4, 5, 6, 7] from rfl]
  simp only [List.foldl, far _ _ _ (by decide : 0 < 8), far _ _ _ (by decide : 1 < 8), far _ _ _ (by decide : 2 < 8), far _ _ _ (by decide : 3 < 8),
    far _ _ _ (by decide : 4 < 8), far _ _ _ (by decide : 5 < 8), far _ _ _ (by decide : 6 < 8), far _ _ _ (by decide : 7 < 8)]

theorem tRest (s : State) (d q : Nat) :
    let v := (forN 8 (s.countWindow 9) fun t w => t.set (R.VOTE.DIGEST.WORD w) (d / 2 ^ (32 * w))).set R.VOTE.SCRUB.FRAMES q
    v.pair = s.pair ∧ v.seqr = s.seqr := by
  unfold forN
  rw [show List.range 8 = [0, 1, 2, 3, 4, 5, 6, 7] from rfl]
  simp only [List.foldl, State.set_pair, State.set_seqr, State.countWindow, State.setPair, Nat.reduceEqDiff, if_false, and_self]

/-- Two channels included, in phase CUT as ACTIVE, task 5 at its last segment with no write set. -/
def tCommit : State :=
  let s := tE (tC EngC.reset { tI with ended := true, fin := true }) [(R.VOTE.MODE.INCL, 3), (R.PAIR.ROLE.fld, 2), (R.GONG.STATUS.PHASE, 2)]
  { s with bank0 := some tP }

theorem witness_CommitEndsTheFrame :
    let s := tCommit
    let v := s.commitVotes
    s.mstate = .run ∧ s.get R.GONG.STATUS.PHASE = 2 ∧ v.mstate = .run ∧ v.works = true ∧ v.role = .active ∧ v.executing .a = true ∧
    (∀ p ∈ v.seqr.cycles, p.1 < 8) := by
  intro s v
  have ht : s.voteAll s.vote.groups.length = s := rfl
  have hm : s.mstate = .run := by decide +kernel
  have hn : ¬ (s.countWindow 9).mstate ≠ .run := by decide +kernel
  have hv : ∃ d q, v = (forN 8 (s.countWindow 9) fun t w => t.set (R.VOTE.DIGEST.WORD w) (d / 2 ^ (32 * w))).set R.VOTE.SCRUB.FRAMES q := by
    have ha : s.executing .a = true := by decide +kernel
    have hb : s.executing .b = true := by decide +kernel
    have hc : s.executing .c = false := by decide +kernel
    have hs := fun c he => tVote s c he (by decide +kernel) rfl rfl (by intro ch; cases ch <;> decide +kernel)
    have hch : (s.captureView s.committing (s.gong.nextFrame s.pNs)).ch .b = (s.captureView s.committing (s.gong.nextFrame s.pNs)).ch .a := by
      decide +kernel
    have hsig : (s.captureView s.committing (s.gong.nextFrame s.pNs)).commitSig (s.gong.nextFrame s.pNs) .b =
        (s.captureView s.committing (s.gong.nextFrame s.pNs)).commitSig (s.gong.nextFrame s.pNs) .a := by
      have hp : (s.captureView s.committing (s.gong.nextFrame s.pNs)).net.pub = [] := by decide +kernel
      unfold State.commitSig
      rw [hch]
      simp only [State.trailerSig, hp, List.filter_nil, List.foldl_nil]
    simp only [v, State.commitVotes, ht, hm, ne_eq, not_true_eq_false, if_false, ha, hb, hc, if_true, Bool.false_eq_true]
    rw [hsig, hs _ rfl, if_neg hn]
    exact ⟨_, _, rfl⟩
  obtain ⟨d, q, hv⟩ := hv
  have hg (f : Fld) (h : f.off ≠ 0x40050 ∧ f.off ≠ 0x40054 ∧ f.off ≠ 0x40034) (h8 : f.off < 0x40080 ∨ 0x400A0 ≤ f.off) : v.get f = s.get f := by
    rw [hv]
    refine (get_setReg_ne _ _ h.2.2).trans ((tDigest _ d f h8).trans ?_)
    exact (get_setReg_ne _ _ h.2.1).trans (get_setReg_ne _ _ h.1)
  have hx : v.pair = s.pair ∧ v.seqr = s.seqr := by rw [hv]; exact tRest s d q
  have hr : v.role = s.role := by unfold State.role; rw [hg _ (by decide) (by decide)]
  have hst : v.mstate = s.mstate := by unfold State.mstate; rw [hg _ (by decide) (by decide)]
  have hi (ch : Ch) : v.included ch = s.included ch := by unfold State.included State.bit; rw [hg _ (by decide) (by decide)]
  have hc (ch : Ch) : v.chst ch = s.chst ch := by cases ch <;> exact hg _ (by decide) (by decide)
  refine ⟨hm, by decide +kernel, hst.trans hm, ?_, hr.trans (by decide +kernel), ?_, ?_⟩
  · unfold State.works State.leads
    rw [hr, hx.1]; decide +kernel
  · unfold State.executing
    rw [hi, hc]; decide +kernel
  · rw [hx.2]; decide +kernel

theorem witness_RetainRecordsAndLastWordsAreWritten :
    let s := tRun 4
    let r : RetBuf := ⟨0, 4, 7, 0, 1000000, false, false, 0, 0, []⟩
    let u := { s with ret := { s.ret with due := some r }, sup := { s.sup with words := some ⟨1, 3, 1⟩ } }
    u.ret.due = some r ∧ u.mstate = .run ∧ u.role ≠ .fenced ∧ s.ret.due = none ∧ s.sup.words = none ∧ u.sup.words = some ⟨1, 3, 1⟩ ∧
    { s with sup := { s.sup with words := some ⟨1, 3, 1⟩ } }.ret.due = none ∧ (⟨1, 3, 1⟩ : LastWords).role ≠ 4 := by decide +kernel

/-- A close with signature `n`. -/
def tCl (n : Nat) : Close := ⟨0, BitVec.ofNat 640 n, 2, 5, none⟩

/-- A vote that waits, on a module with the channels `incl`. -/
def tV (incl a b c : Nat) : State :=
  let s := tRun 1 [(R.VOTE.MODE.INCL, incl)]
  { s with vote := { s.vote with groups := [⟨0, some (tCl a), some (tCl b), some (tCl c)⟩] } }

theorem witness_VotesDecideByMajority :
    (tRun 1).vote.groups = [] ∧ (∀ ch ∈ [Ch.a, .b, .c], (tV 7 1 1 1).chst ch ≠ 3) ∧ (tV 7 1 1 1).incl = [.a, .b, .c] ∧ (tV 6 1 1 1).incl = [.b, .c] ∧
    (⟨0, some (tCl 1), some (tCl 2), some (tCl 3)⟩ : VGroup).of .b = some (tCl 2) ∧
    (tCl 1).sig = (tCl 1).sig ∧ (tCl 1).sig ≠ (tCl 2).sig ∧ (tCl 1).sig ≠ (tCl 3).sig ∧ (tCl 2).sig ≠ (tCl 3).sig ∧ Armed (tV 7 1 2 3) ∧
    Armed (tV 6 1 1 2) ∧ (⟨0, some (tCl 1), some (tCl 1), none⟩ : VGroup).of .c = none ∧
    (⟨7, none, none, some (tCl 1)⟩ : VGroup).of .a = none ∧ (⟨7, none, none, some (tCl 1)⟩ : VGroup).of .b = none ∧
    (⟨7, none, none, some (tCl 1)⟩ : VGroup).of .c = some (tCl 1) ∧ ((⟨0, none, some (tCl 1), none⟩ : VGroup).of .b).isSome ≠ ((⟨0, none, some (tCl 1), none⟩ : VGroup).of .c).isSome ∧
    (tV 7 1 1 1).vote.v1 = none ∧ (tV 7 1 1 1).vote.v2 = none ∧ (⟨0, 0, 0⟩ : VoterSays) ≠ ⟨0, 0, 1⟩ := by decide +kernel

theorem witness_VoteUnitEventsActAsTheirRules :
    let s := tRun 1 [(R.VOTE.DELAY.DB, 2), (R.VOTE.DELAY.DC, 4)]
    let two := tRun 1 [(R.VOTE.MODE.INCL, 6), (R.VOTE.DELAY.DC, 2)]
    let safe := tRun 1 [(R.SUP.STATE.MSTATE, 4), (R.BIST.LCS.STATE, 3)]
    let deg := tRun 1 [(R.VOTE.MODE.VMODE, 2), (R.VOTE.DEGCFG.LIMH, 1), (R.VOTE.DEGTIME.SEC, 3240)]
    let after := tRun 1 [(R.VOTE.MODE.VMODE, 2), (R.VOTE.DEGCFG.LIMH, 720), (R.VOTE.DEGTIME.SEC, 2592000)]
    let test := tRun 1 [(R.SUP.STATE.MSTATE, 1)]
    let prob := tRun 1 [(R.VOTE.MODE.INCL, 3), (R.VOTE.CHST.CH 2, 3), (R.VOTE.DELAY.DC, 4)]
    let wrong := { test with vote := { test.vote with dregC := { test.vote.dregC with wrong := 1 } } }
    ((tK (tX 5)).win = none ∧ s.executing .a = true) ∧ s.leadCh = .a ∧ two.leadCh = .b ∧ two.executing .a = false ∧
    Ch.b ≠ s.leadCh ∧ s.included .b = true ∧ s.incl.length = 3 ∧ Ch.c ≠ two.leadCh ∧ two.included .c = true ∧ two.incl.length ≤ 2 ∧ Armed two ∧
    (tRun 1 [(R.VOTE.CHST.CH 2, 2)]).chst .c = 2 ∧ (s.chRec .c).bulkK = none ∧
    deg.mstate = .run ∧ deg.get R.VOTE.MODE.VMODE = 2 ∧ 9 * 3600 ≤ 10 * deg.get R.VOTE.DEGTIME.SEC ∧
    after.get R.VOTE.MODE.VMODE = 2 ∧ 720 * 3600 ≤ after.get R.VOTE.DEGTIME.SEC ∧ s.get R.VOTE.MODE.VMODE ≠ 2 ∧
    s.steward .st0 = true ∧ s.steward (.eng 0) = false ∧ safe.depot = true ∧ safe.mstate = .safe ∧ s.depot = false ∧
    test.mstate = .starttest ∧ (1 : BitVec 4).toNat < s.stagesOf .b ∧ (1 : BitVec 4).toNat < two.stagesOf .c ∧ ¬ (4 : BitVec 4).toNat < s.stagesOf .b ∧
    (3 : BitVec 4).toNat < prob.stagesOf .c ∧ Ch.c ≠ prob.leadCh ∧ prob.included .c = false ∧ prob.chst .c = 3 ∧
    wrong.included .c = true ∧ Ch.c ≠ wrong.leadCh ∧ wrong.wrongBits .c ≠ 0 ∧
    test.vote.v1 = none ∧ test.vote.v2 = none ∧ test.vote.dregB.wrong = 0 ∧ test.vote.dregC.wrong = 0 := by decide +kernel

/-- Table 6-5: sound voters and delay registers pass every pattern; a channel with bad parity fails pattern 0; V1 with NONE in place of a minority on
path 0 fails pattern 1, the first, and V2 pattern 10. -/
theorem witness_VoteUnitEventsActAsTheirRules_patterns :
    let s := tRun 1 [(R.SUP.STATE.MSTATE, 1)]
    (∀ n, n < 11 → s.patternPasses ⟨[], [], []⟩ n = true) ∧ s.patternPasses ⟨[.b], [], []⟩ 0 = false ∧
    s.patternPasses ⟨[], [(16, ⟨0, 0, 0⟩)], []⟩ 1 = false ∧ s.patternPasses ⟨[], [(16, ⟨0, 0, 0⟩)], []⟩ 0 = true ∧
    s.patternPasses ⟨[], [], [(169, ⟨0, 0, 0⟩)]⟩ 10 = false ∧ (∀ m, m < 10 → s.patternPasses ⟨[], [], [(169, ⟨0, 0, 0⟩)]⟩ m = true) := by decide +kernel

/-! ## Safe state, process image, exchange -/

theorem witness_TriggersEnterSafeOnce :
    (17 : Fin 18).val ≠ 0 ∧ Armed (tRun 1) ∧ ¬ Armed (tRun 1 [(R.SUP.STATE.MSTATE, 4)]) ∧ ¬ Armed (tRun 1 [(R.SUP.STATE.MSTATE, 5)]) ∧
    (0 : Fin 18).val = 0 ∧ (tRun 1).sup.startHold = true ∧ (13 : Fin 18).val ∈ [10, 11, 12, 13, 15, 17] ∧ (9 : Fin 18).val ∉ [10, 11, 12, 13, 15, 17] := by decide +kernel

/-- The lines that do not come: store and watchdog in SAFE, the external request not enabled, STW SAFE in BOOT; and where they come. -/
theorem witness_TriggersEnterSafeOnce_held :
    let held (s : State) (code : Nat) : Bool := decide ((s.sup.startHold = true ∧ code ∈ [10, 11, 12, 13, 15, 17]) ∨ (s.mstate ≠ .run ∧ code ∈ [10, 14]) ∨
      (s.get R.SUP.CFG.EXTEN = 0 ∧ code = 15) ∨ (s.mstate ∉ [MState.starttest, .init, .run] ∧ code = 16))
    let s (m ext : Nat) : State :=
      let s := tRun 1 [(R.SUP.STATE.MSTATE, m), (R.SUP.CFG.EXTEN, ext)]; { s with sup := { s.sup with startHold := false } }
    held (s 4 0) 10 = true ∧ held (s 4 0) 14 = true ∧ held (s 3 0) 10 = false ∧ held (s 3 0) 14 = false ∧ held (s 3 0) 15 = true ∧ held (s 3 1) 15 = false ∧ held (s 4 1) 15 = false ∧
    held (s 0 0) 16 = true ∧ held (s 1 0) 16 = false ∧ held (s 4 0) 11 = false ∧ ¬ Armed (s 4 0) ∧ Armed (s 1 0) := by decide +kernel

/-- A module that Tocsin watches, in RUN. -/
def tOn (l : List (Fld × Nat) := []) : State := let s := tRun 1 l; { s with sup := { s.sup with startHold := false, tokens := 7 } }

/-- A channel missed: the operand says so, or it issued no token. -/
def missedBy (s : State) (missed : BitVec 3) (ch : Ch) : Bool := missed.getLsbD (chNum ch) || decide (s.sup.tokens / 2 ^ chNum ch % 2 = 0)

theorem witness_MonitorsTripTheSafeState :
    let s := tOn
    let u := tOn [(R.SUP.CFG.EXTEN, 1)]
    let w := { tOn with sup := { (tOn).sup with misses := ⟨#[7, 0, 0], rfl⟩ } }
    (s.sup.powered = true ∧ s.sup.startHold = false) ∧ Armed s ∧ outsideBand 0 3001 = true ∧ outsideBand 0 3000 = false ∧
    outsideBand 1 759 = true ∧ outsideBand 1 760 = false ∧ outsideBand 7 840 = false ∧ outsideBand 7 841 = true ∧ outsideBand 4 999 = true ∧ outsideBand 6 1100 = false ∧
    outsideBand 8 1941 = true ∧ outsideBand 9 3039 = true ∧ outsideBand 10 1250 = false ∧ outsideBand 10 1251 = true ∧ outsideBand 11 1001 = true ∧
    outsideBand 11 (-400) = false ∧ (900 < (901 : BitVec 16).toInt ∧ ¬ 900 < (900 : BitVec 16).toInt ∧ ¬ 1100 < (1100 : BitVec 16).toInt) ∧
    (tRun 1).sup.startHold = true ∧ s.mstate = .run ∧ (tS).mstate ≠ .run ∧ u.get R.SUP.CFG.EXTEN = 1 ∧ (2 : BitVec 2) ≠ 0 ∧ Armed u ∧
    s.get R.SUP.CFG.EXTEN = 0 ∧ s.incl = [.a, .b, .c] ∧ (∀ d ∈ [Ch.a, .b, .c], missedBy s 4 d = decide (d = .c)) ∧ s.sup.misses.toList.getD (chNum .c) 0 < 7 ∧
    (∀ d ∈ [Ch.a, .b, .c], missedBy w 1 d = decide (d = .a)) ∧ 7 ≤ w.sup.misses.toList.getD (chNum .a) 0 ∧ w.incl = [.a, .b, .c] ∧
    missedBy s 6 .b = true ∧ missedBy { s with sup := { s.sup with tokens := 3 } } 0 .c = true ∧ (∀ d ∈ [Ch.a, .b, .c], missedBy s 0 d = false) ∧ (tOn [(R.VOTE.MODE.INCL, 5)]).incl = [.a, .c] := by
  decide +kernel

/-- In SAFE with start-hold withdrawn, a value outside each kind of band; the external request enabled. -/
theorem witness_MonitorsTripTheSafeState_later :
    let s := tOn [(R.SUP.STATE.MSTATE, 4), (R.SUP.CFG.EXTEN, 1)]
    s.mstate = .safe ∧ s.sup.powered = true ∧ s.sup.startHold = false ∧ s.get R.SUP.CFG.EXTEN = 1 ∧ (1 : BitVec 2) ≠ 0 ∧ outsideBand 0 3001 = true ∧
    outsideBand 9 3561 = true ∧ outsideBand 10 1251 = true ∧ outsideBand 11 1001 = true := by decide +kernel

/-- A channel with a directory and nothing running. -/
def tDir (d : Tbl DirEnt) : Chan := { Chan.reset with dir := d }

/-- A module with the directory `d` in every channel. -/
def tSig (d : Tbl DirEnt) (l : List (Fld × Nat) := []) : State := { tRun 1 l with chA := tDir d, chB := tDir d, chC := tDir d }

/-- Every reason of the force commands and none; FRESH 1 of 0.1 ms at 250 µs frames: older than its limit in frame 1, STALE before or not; a HOME 5 signal. -/
theorem witness_ForcesSweepsAndStewardWritesAct :
    let e : DirEnt := ⟨0x4, 0, 1, 0, [0, 0, 0, 0]⟩
    let b : DirEnt := ⟨0xD, 0, 0, 0, [0]⟩
    let f : DirEnt := ⟨0x08000004, 0, 1, 8, [0, 0, 0, 0]⟩
    let h : DirEnt := ⟨0x01400004, 0, 0, 0, [0, 0, 0, 0]⟩
    let s := tSig [(4, e), (5, b), (6, f), (7, h)] [(R.SIG.FSIG.SIGID, 4), (R.GONG.STATUS.ALIGNED, 1)]
    let u := { s with gong := { s.gong with frame := 1 } }
    s.steward .st0 = true ∧ s.steward (.eng 3) = false ∧ (s.dirEnt 4).filter (fun e => e.type != 0) = some e ∧
    (s.set R.SIG.FSIG.SIGID 9).dirEnt 9 = none ∧ b.isBytes = true ∧ f.sclass = 4 ∧ s.depot = false ∧ s.mstate = .run ∧
    firstReason [(6, true), (7, false)] = 6 ∧ firstReason [(6, false), (7, false)] = 0 ∧ firstReason [(6, false), (7, true)] = 7 ∧
    u.dirEnt 4 = some e ∧ u.get R.GONG.STATUS.ALIGNED = 1 ∧ e.type ≠ 0 ∧ e.fresh ≠ 0 ∧
    min (e.fresh * e.funit) (2 ^ 20 * u.pNs) < (u.gong.frame + 2 ^ 24 - e.stamp) % 2 ^ 24 * u.pNs ∧ fieldOf e.w3 3 1 = 0 ∧ fieldOf f.w3 3 1 = 1 ∧
    u.follows .a = true ∧ (u.set R.GONG.STATUS.ALIGNED 0).get R.GONG.STATUS.ALIGNED = 0 ∧ h.type ≠ 0 ∧ h.home = 5 ∧ e.home ≠ 5 ∧
    s.pUs = 250 ∧ 1000 * (4092 + h.size) ≤ 16384 * s.pUs ∧ ¬ 1000 * (4093 + h.size) ≤ 16384 * s.pUs ∧ s.wrongBits .a = 0 ∧
    (s.set R.UPD.CFG.BATSIG 7).get R.UPD.CFG.BATSIG = 7 ∧ s.get R.UPD.CFG.BATSIG ≠ 7 := by decide +kernel

/-- A READY package of KIND 2 in slot B, the exchange in state `x`. -/
def tXch (x : Nat) (l : List (Fld × Nat) := []) : State :=
  let s := tRun 1 ([(R.TASK.XSTAT.STATE, x), (R.UPD.STATE.fld, 3), (R.UPD.STATE.KIND, 2), (R.BIST.LCS.STATE, 2)] ++ l)
  { s with bank0 := some tP, upd := { s.upd with slotB := some (tFlash 2 0x10), keys := tKeys } }

theorem witness_ExchangeStepsFollowTheirStates :
    let s := tXch 0
    let why (s : State) : Nat := firstReason [(2, s.mstate != .run), (3, s.get R.TASK.XSTAT.STATE != 0), (4, s.get R.UPD.STATE.fld != 3 || s.get R.UPD.STATE.KIND != 2),
      (8, s.lcs != 1 && s.lcs != 2 && s.lcs != 3)]
    s.steward .st1 = true ∧ why s = 0 ∧ why (tXch 1) = 3 ∧ why (tXch 0 [(R.UPD.STATE.KIND, 1)]) = 4 ∧ why (tXch 0 [(R.BIST.LCS.STATE, 4)]) = 8 ∧
    firstReason ([(2, (tXch 2).mstate != .run), (3, (tXch 2).get R.TASK.XSTAT.STATE != 2)] ++ (tXch 2).armSteps ++ [(8, !(tXch 2).leads)]) = 0 ∧
    (tXch 1).get R.TASK.XSTAT.STATE = 1 ∧ (tXch 1).prog = some tP ∧ (tXch 1).idleSlot = 1 ∧ (tXch 6).get R.TASK.XSTAT.STATE = 6 ∧
    (tXch 1).get R.TASK.XSTAT.STATE ≠ 6 := by decide +kernel

/-- The fill finds a version where the program section holds one; against the one that runs it ends without a failure, or with step 9 where its units
are none. -/
theorem witness_ExchangeStepsFollowTheirStates_fill (h : Config.programOf [] = some tP) :
    (tXch 1).stagedProgram = some tP ∧ (tS).stagedProgram = none ∧ firstReason (compatSteps tP tP (tXch 1).pUs) = 0 ∧
      firstReason (compatSteps tP { tP with units := [] } (tXch 1).pUs) = 9 := by
  have e : (tXch 1).stagedProgram = Config.programOf [] := rfl
  exact ⟨e.trans h, by decide +kernel, by decide +kernel, by decide +kernel⟩

/-- Versions against `tP`, each of which breaks one condition of Table 7-1: TASK.PER, SCHEDID, word 0 of a signal, a slot's place, a scratch window, the volume,
the output sources; and two that break conditions 4 and 9. -/
theorem witness_ExchangeStepsFollowTheirStates_broken :
    let a : Program := { tP with sigs := [⟨4, 4, 0, 0, []⟩], slots := [⟨8, 0x10800000, 7, 5, 1, false, 0⟩], tasks := tP.tasks ++ [⟨6, 2, 0, 1, 0, 0, false, 0x60000010, 0x60000020, 0⟩] }
    let fill (b : Program) : Nat := firstReason (compatSteps a b 250)
    firstReason (compatSteps tP tP 250) = 0 ∧ firstReason (compatSteps tP { tP with osrc := [1] } 250) = 9 ∧
    fill { a with per := [0, 1, 1, 1, 1, 1, 1, 1] } = 3 ∧ fill { a with schedId := 8 } = 4 ∧ fill { a with sigs := [⟨4, 5, 0, 0, []⟩] } = 5 ∧
    fill { a with slots := [⟨9, 0x10800000, 7, 5, 1, false, 0⟩] } = 6 ∧
    fill { a with tasks := [⟨5, 1, 0, 1, 0, 0, false, 0x60000000, 0x60000018, 0x80000000⟩, ⟨6, 2, 0, 1, 0, 0, false, 0x60000010, 0x60000020, 0⟩] } = 7 ∧
    fill { a with copyOut := 524289 } = 8 ∧ fill { a with schedId := 8, osrc := [1] } = 4 := by decide +kernel

/-- The conditions of R175: class 1, a safety class, changes while the vehicle moves; a signal of SCLASS 4 is forced; the standby's shadow is not ready; none. -/
theorem witness_ExchangeStepsFollowTheirStates_armed :
    let s (still force hb : Nat) : State :=
      let s := tSig [(4, ⟨0x08000004, 0, 0, 0, [0, 0, 0, 0]⟩)] [(R.TASK.XSTAT.STATE, 2), (R.SPD.STATUS.STILL, still), (R.TASK.PER.SAFE 1, 1), (R.BIST.LCS.STATE, 2)]
      { s with
        bank0 := some tP, bank1 := some { tP with segs := [] }, forces := if force = 1 then [⟨4, 0, 0⟩] else []
        pair := { s.pair with hbLive := true, hb := some ⟨0, .standby, .run, 2, if hb = 1 then 0 else 8, 3, 0, 7, 0, 0, 0, 2⟩ } }
    ([s 0 1 1, s 1 1 1, s 1 0 1, s 1 0 0].map fun s => firstReason s.armSteps) = [5, 6, 7, 0] ∧ (s 0 0 0).prog = some tP ∧
    (s 0 0 0).shadow = some { tP with segs := [] } := by decide +kernel

/-! ## Starts -/

/-- In BOOT with the progress `b`. -/
def tBoot (b : BootSt) (l : List (Fld × Nat) := []) : State := { tS l with boot := b }

/-- A valid slot record: slot B on trial. -/
def tRec : SlotRec := ⟨1, 1, 1, 0, crc32 [1, 0, 0, 0, 1, 1, 0]⟩

theorem witness_StartsBeginInBoot :
    let s := tRun 1
    let off := { s with sup := { s.sup with powered := false } }
    let re := { s with sup := { s.sup with restart := some true } }
    off.sup.powered = false ∧ { s with sup := { s.sup with down := true } }.sup.down = true ∧ s.sup.powered = true ∧ s.sup.down = false ∧
    re.sup.restart.isSome = true ∧ re.sup.powered = true ∧ s.sup.restart = none ∧ re.sup.restart = some true ∧ s.get R.SUP.CFG.WARMEN = 0 ∧
    off.sup.words = none ∧ { off with sup := { off.sup with words := some ⟨1, 3, 1⟩ } }.sup.words ≠ none ∧ 1750 < (1751 : BitVec 16).toNat ∧
    (1750 : BitVec 16).toNat ≤ 1750 ∧ s.sup.words = none ∧ s.bist.lcNew = none ∧ { s with bist := { s.bist with lcNew := some 4 } }.bist.lcNew = some 4 ∧
    { s with vote := { s.vote with clearPerm := true } }.vote.clearPerm = true ∧ { s with upd := { s.upd with rec0 := some tRec } }.slotRec = some tRec ∧ tRec.trial = 1 ∧
    { s with sup := { s.sup with lastSafe := 2 } }.sup.lastSafe = 2 ∧ { s with nv := { s.nv with pend := 1 } }.nv.pend ≠ 0 ∧
    s.get R.BRG.STATUS.HOLD = 0 := by decide +kernel

/-- Plug bytes with MAGIC, FORMAT 1, RACK 1, VTYPE 2 and their CRC. -/
def tPlug : List Byte := (leBytes 4 0x7A1D0001 ++ [1, 1, 2, 0] ++ List.replicate 244 0) ++ leBytes 4 3044184218

/-- The CRC of the plug bytes, in steps of 61 bytes. -/
theorem tPlug_crc : crc32 (leBytes 4 0x7A1D0001 ++ [1, 1, 2, 0] ++ List.replicate 244 0) = 3044184218 := by
  have z (a b : W32) (h : (List.replicate 61 (0 : Byte)).foldl crcByte a = b) (l : List Byte) :
      (List.replicate 61 (0 : Byte) ++ l).foldl crcByte a = l.foldl crcByte b := by rw [List.foldl_append, h]
  have e : (leBytes 4 0x7A1D0001 ++ [1, 1, 2, 0] ++ List.replicate 244 0 : List Byte) =
      (leBytes 4 0x7A1D0001 ++ [1, 1, 2, 0]) ++ (List.replicate 61 0 ++ (List.replicate 61 0 ++ (List.replicate 61 0 ++ (List.replicate 61 0 ++ [])))) := by
    decide +kernel
  have h0 : (leBytes 4 0x7A1D0001 ++ [1, 1, 2, 0] : List Byte).foldl crcByte 0xFFFFFFFF = 3507857139 := by decide +kernel
  unfold crc32
  rw [e, List.foldl_append, h0, z _ 2443414920 (by decide +kernel), z _ 3090183054 (by decide +kernel), z _ 183748323 (by decide +kernel),
    z _ 1250783077 (by decide +kernel)]
  decide

/-- Slot code 1 has odd parity and is valid, 3 has even parity, 31 is no slot; a valid plug, its retries; loading steps. -/
theorem witness_BootStepsActAsTheirRules :
    let s := tBoot BootSt.reset
    let u := tBoot { BootSt.reset with imageOk := true, slotDone := true, plugDone := true, tocsin := true, loaded := [0] }
    s.mstate = .boot ∧ s.get R.SUP.STATE.STOPC = 0 ∧ s.sup.powered = true ∧ s.boot.layered = false ∧ s.boot.slotDone = false ∧
    ((List.range 6).filter fun i => (1 : BitVec 6).getLsbD i).length % 2 = 1 ∧ ((List.range 6).filter fun i => (30 : BitVec 6).getLsbD i).length % 2 ≠ 1 ∧
    ((List.range 6).filter fun i => (62 : BitVec 6).getLsbD i).length % 2 = 1 ∧ (62 : BitVec 6).toNat % 32 = 30 ∧ (31 : BitVec 6).toNat % 32 = 31 ∧
    s.boot.plugDone = false ∧ s.boot.retry < 49 ∧ (tBoot { BootSt.reset with retry := 49 }).boot.retry = 49 ∧ s.boot.retry2 < 49 ∧
    (tBoot { BootSt.reset with retry2 := 49 }).boot.retry2 = 49 ∧ s.get R.ID.ASTAT.ADDR = 0 ∧ ([1, 1, 0] : List (BitVec 6)).head? = some 1 ∧
    ([1, 1, 0] : List (BitVec 6)) ≠ List.replicate 8 1 ∧
    s.boot.imageOk = false ∧ s.get R.UPD.STATE.ACT ≤ 1 ∧ s.get R.UPD.STATE.TRIAL = 0 ∧ s.slotCheck 0 ≠ 0 ∧ s.slotCheck 1 ≠ 0 ∧ s.slotCheck 2 ≠ 0 ∧
    u.boot.imageOk = true ∧ u.boot.loaded.length = (1 : Fin 4).val ∧ u.boot.loaded ≠ [] ∧ s.boot.tocsin = false ∧ u.boot.slotDone = true ∧
    u.boot.plugDone = true ∧ u.boot.tocsin = true ∧
    u.get R.UPD.STATE.ACT = 0 := by decide +kernel

theorem witness_BootStepsActAsTheirRules_plug : plugOk tPlug = true := by
  have e : tPlug.take 252 = leBytes 4 0x7A1D0001 ++ [1, 1, 2, 0] ++ List.replicate 244 0 := by decide +kernel
  unfold plugOk
  rw [e, tPlug_crc]; decide +kernel

/-- Images: slot A, B or the recovery image good; a trial with starts left, and with none. -/
theorem witness_BootStepsActAsTheirRules_images :
    let with' (a b r : Option FlashImg) (l : List (Fld × Nat)) : State :=
      let s := tBoot BootSt.reset l; { s with upd := { s.upd with slotA := a, slotB := b, rcv := r, keys := tKeys } }
    (with' (some (tFlash 1)) none none []).slotCheck 0 = 0 ∧
    (with' none (some (tFlash 1)) none []).slotCheck 0 ≠ 0 ∧ (with' none (some (tFlash 1)) none []).slotCheck 1 = 0 ∧
    (with' none none (some (tFlash 3)) []).slotCheck 0 ≠ 0 ∧ (with' none none (some (tFlash 3)) []).slotCheck 1 ≠ 0 ∧
    (with' none none (some (tFlash 3)) []).slotCheck 2 = 0 ∧
    (with' (some (tFlash 1)) none none [(R.UPD.STATE.TRIAL, 1), (R.UPD.STATE.TRIALS, 2)]).slotCheck 0 = 0 ∧
    (with' (some (tFlash 1)) none none [(R.UPD.STATE.TRIAL, 1), (R.UPD.STATE.TRIALS, 2)]).get R.UPD.STATE.TRIALS < 3 ∧
    (with' none (some (tFlash 1)) none [(R.UPD.STATE.TRIAL, 1), (R.UPD.STATE.TRIALS, 3)]).slotCheck 1 = 0 ∧
    3 ≤ (with' none (some (tFlash 1)) none [(R.UPD.STATE.TRIAL, 1), (R.UPD.STATE.TRIALS, 3)]).get R.UPD.STATE.TRIALS := by
  have good (s : State) (n : Nat) (kind : Byte) (hs : s.upd.keys = tKeys) (hp : s.reg R.ID.PART.NUM.off = 0) (hr : s.get R.ID.REV.HWREV = 0)
      (hm : s.get R.UPD.MINSVN.SVN = 0) (hi : s.img n = some (tFlash kind 1)) (hk : n ≠ 2 ∧ kind = 1 ∨ n = 2 ∧ kind = 3) : s.slotCheck n = 0 :=
    tFlash_good s hs hp hr hm n kind 1 hi (by rcases hk with ⟨a, b⟩ | ⟨a, b⟩ <;> simp [a, b])
  refine ⟨?_, by decide +kernel, ?_, by decide +kernel, by decide +kernel, ?_, ?_, by decide +kernel, ?_, by decide +kernel⟩
  · exact good _ 0 1 rfl (by decide +kernel) (by decide +kernel) (by decide +kernel) rfl (.inl (by decide))
  · exact good _ 1 1 rfl (by decide +kernel) (by decide +kernel) (by decide +kernel) rfl (.inl (by decide))
  · exact good _ 2 3 rfl (by decide +kernel) (by decide +kernel) (by decide +kernel) rfl (.inr (by decide))
  · exact good _ 0 1 rfl (by decide +kernel) (by decide +kernel) (by decide +kernel) rfl (.inl (by decide))
  · exact good _ 1 1 rfl (by decide +kernel) (by decide +kernel) (by decide +kernel) rfl (.inl (by decide))

/-- Trials that end where both slots fail, with a recovery image and with none; and used up, in the one slot that is good. -/
theorem witness_BootStepsActAsTheirRules_trials :
    let with' (a b r : Option FlashImg) (l : List (Fld × Nat)) : State :=
      let s := tBoot BootSt.reset l; { s with upd := { s.upd with slotA := a, slotB := b, rcv := r, keys := tKeys } }
    let bad := with' none none (some (tFlash 3)) [(R.UPD.STATE.TRIAL, 1)]
    let used := with' (some (tFlash 1)) none none [(R.UPD.STATE.TRIAL, 1), (R.UPD.STATE.TRIALS, 3)]
    bad.slotCheck 0 ≠ 0 ∧ bad.slotCheck 1 ≠ 0 ∧ bad.slotCheck 2 = 0 ∧ (with' none none none [(R.UPD.STATE.TRIAL, 1)]).slotCheck 2 ≠ 0 ∧
    used.slotCheck 0 = 0 ∧ used.slotCheck 1 ≠ 0 ∧ 3 ≤ used.get R.UPD.STATE.TRIALS := by
  refine ⟨by decide +kernel, by decide +kernel, ?_, by decide +kernel, ?_, by decide +kernel, by decide +kernel⟩
  · exact tFlash_good _ rfl (by decide +kernel) (by decide +kernel) (by decide +kernel) 2 3 1 rfl (by decide)
  · exact tFlash_good _ rfl (by decide +kernel) (by decide +kernel) (by decide +kernel) 0 1 1 rfl (by decide)

/-- An NV image with no entries and the given HCRC. -/
def tNv (magic cfgver actseq hcrc : W32) : NvImage :=
  { magic := magic, format := 1, cfgver := cfgver, actseq := actseq, bodyCrc := 0, created := 0, prevver := 0, hcrc := hcrc, entries := [] }

/-- A valid factory image. -/
def tFactory : NvImage := tNv 0x7A310CF0 0 0 1256977102

/-- A valid user image of version 3. -/
def tUser : NvImage := tNv 0x7A310C01 3 1 2670274035

/-- In BOOT with a factory image and a user image B. -/
def tNvS : State := let s := tBoot BootSt.reset; { s with nv := { s.nv with factory := some tFactory, userB := some tUser } }

theorem witness_BootStepsActAsTheirRules_layering :
    (tBoot BootSt.reset).nv.pend = 0 ∧ (tBoot BootSt.reset).currentImg = none ∧ tNvS.boot.layered = false ∧ tNvS.nv.pend = 0 ∧
    { BootSt.reset with loaded := [0, 1, 2, 3] }.loaded.length = 4 := by decide +kernel

theorem witness_BootStepsActAsTheirRules_images_nv : tNvS.currentImg = some 1 ∧ tNvS.userImg 1 = some tUser := by
  exact ⟨by decide +kernel, rfl⟩

theorem witness_BootStepsActAsTheirRules_factory : tNvS.factoryImage.isSome = true := by decide +kernel

/-- In INIT. -/
def tInit (b : BootSt) (l : List (Fld × Nat) := []) : State := tBoot b ([(R.SUP.STATE.MSTATE, 2), (R.VOTE.MODE.INCL, 7), (R.ID.SLOT.CODE, 4)] ++ l)

/-- A heartbeat of role `role` in state `m` of slot `slot`. -/
def tHb (role : Role) (m : MState) (slot : BitVec 5 := 2) : Heartbeat :=
  { frame := 0, role := role, mstate := m, slot := slot, flags := 0, epoch := 3, ackf := 0, pver := 7, xpver := 0, cfgver := 0, vmode := 0, lcs := 2 }

theorem witness_InitLoadsTheProgramAndDecidesTheRole :
    let s := tInit BootSt.reset
    let u := tInit { BootSt.reset with program := true }
    let heard (h : Heartbeat) : State := { u with pair := { u.pair with hb := some h, hbLive := true } }
    s.mstate = .init ∧ s.boot.program = false ∧ s.get R.SUP.STATE.STOPC = 0 ∧ s.stopCode ≠ 0 ∧ s.sup.warm = false ∧ s.included .a = true ∧
    (tP.sigs.map fun d => d.id).Nodup ∧ u.boot.program = true ∧ (tRun 1).mstate ≠ .init ∧ s.sup.powered = true ∧ u.boot.role = none ∧
    u.partner = none ∧ u.get R.PAIR.ROLE.PACTIN = 0 ∧ (u.set R.PAIR.ROLE.PACTIN 1).partner = none ∧ (u.set R.PAIR.ROLE.PACTIN 1).get R.PAIR.ROLE.PACTIN = 1 ∧
    (heard (tHb .alone .run)).partner = some (tHb .alone .run) ∧ (tHb .none .init 4).slot.toNat = u.get R.ID.SLOT.CODE ∧
    (tHb .none .init 3).slot.toNat < u.get R.ID.SLOT.CODE ∧ u.get R.ID.SLOT.CODE < (tHb .none .init 5).slot.toNat ∧
    (tInit { BootSt.reset with role := some (.alone, 0) }).boot.role = some (.alone, 0) := by decide +kernel

/-- A module whose program section is there, with a factory image, a plug and a life-cycle state. -/
def tLoad : State :=
  let s := tInit BootSt.reset [(R.BIST.LCS.STATE, 2), (R.ID.PLUG.VALID, 1)]
  { s with upd := { s.upd with slotA := some (tFlash 1) }, nv := { s.nv with factory := some tFactory } }

/-- Where the program section holds a version (log 9) nothing stops the load. -/
theorem witness_InitLoadsTheProgramAndDecidesTheRole_load (h : Config.programOf [] = some tP) :
    tLoad.stopCode = 0 ∧ tLoad.slotProgram tLoad.loadSlot = some tP ∧ tLoad.img tLoad.loadSlot = some (tFlash 1) ∧
      (0 : BitVec 256) ≠ sectsDigest tMan [6] ∧ (tS).img (tS).loadSlot = none := by
  have e : tLoad.slotProgram tLoad.loadSlot = Config.programOf [] := rfl
  have e' := e.trans h
  refine ⟨?_, e', rfl, by decide +kernel, rfl⟩
  unfold State.stopCode
  rw [e']; decide +kernel

/-- A module that starts warm with a version of a signal and a slot, and a record of both in two areas. -/
theorem witness_InitLoadsTheProgramAndDecidesTheRole_restore :
    let p : Program := { tP with sigs := [⟨4, 0x00200004, 0, 0, []⟩, ⟨6, 4, 0, 0, []⟩], slots := [⟨8, 0x18800000, 7, 5, 1, false, 0⟩, ⟨9, 0x10800000, 7, 5, 1, false, 0⟩] }
    let v : Slot := ⟨0x18800000, 7, 0, 0, 5, false⟩
    let b : RetBuf := ⟨0, 3, 7, 0, 0, false, true, 1, 0, [.sig 4 1 [1, 2, 3, 4], .slot 8 v]⟩
    let s := tInit BootSt.reset
    let w := { s with sup := { s.sup with warm := true }, ret := { s.ret with a := ⟨some b, none⟩, c := ⟨some b, none⟩ } }
    w.sup.warm = true ∧ w.chosenRec p.pver (w.reg R.CFG.CURVER.CFGVER.off) = some b ∧ w.included .b = true ∧ w.wrongBits .b = 0 ∧
    (p.sigs.map fun d => d.id).Nodup ∧ (p.slots.map fun d => d.idx).Nodup ∧ (versionAs 0 p).sigs = p.sigs ∧ (versionAs 0 p).slots = p.slots ∧
    RetEnt.sig 4 1 [1, 2, 3, 4] ∈ b.body ∧ RetEnt.slot 8 v ∈ b.body ∧
    (b.body.all fun e => match e with
      | .sig id _ _ => id == 4
      | .slot k _ => k == 8) = true := by decide +kernel

/-- Rule 4 of R199: a partner of another slot that is no leading one, and not in INIT with the role NONE; PAIR_ACT_IN in each level. -/
theorem witness_InitLoadsTheProgramAndDecidesTheRole_partner :
    let u := tInit { BootSt.reset with program := true }
    let heard (h : Heartbeat) (pact : Nat) : State := { u.set R.PAIR.ROLE.PACTIN pact with pair := { u.pair with hb := some h, hbLive := true } }
    (∀ h ∈ [tHb .none .boot, tHb .none .starttest, tHb .none .safe, tHb .none .recovery, tHb .standby .run, tHb .fenced .run],
      (heard h 0).partner = some h ∧ (heard h 0).get R.PAIR.ROLE.PACTIN = 0 ∧ h.slot.toNat ≠ u.get R.ID.SLOT.CODE ∧ h.role ≠ .alone ∧ h.role ≠ .active ∧
      (h.role ≠ .none ∨ h.mstate ≠ .init)) ∧
    (heard (tHb .standby .run) 1).get R.PAIR.ROLE.PACTIN = 1 ∧ (heard (tHb .standby .run) 1).partner = some (tHb .standby .run) := by decide +kernel

/-- The processors load from the slot that the start checked, here B, with slot A active. -/
theorem witness_BootStepsActAsTheirRules_slot :
    let s := tBoot { BootSt.reset with imageOk := true, slot := some 1, loaded := [0] }
    let u := { s with upd := { s.upd with slotB := some (tFlash 1) } }
    u.boot.slot.getD (u.get R.UPD.STATE.ACT) = 1 ∧ u.get R.UPD.STATE.ACT = 0 ∧ u.img (u.boot.slot.getD (u.get R.UPD.STATE.ACT)) = some (tFlash 1) ∧
    u.boot.loaded.length = (1 : Fin 4).val := ⟨by decide +kernel, by decide +kernel, rfl, by decide +kernel⟩

/-! ## The pair -/

/-- In RUN with pair role code `role`. -/
def tRole (role : Nat) (l : List (Fld × Nat) := []) : State := tRun 4 ((R.PAIR.ROLE.fld, role) :: l)

theorem witness_HeartbeatsDriveTheRoles :
    (∀ r ∈ [0, 1, 2, 3, 4], (tRole r).sup.powered = true) ∧
    { tS with sup := { (tS).sup with powered := false } }.sup.powered = false ∧
    (tRole 0).role = .none ∧ (tRole 1).role = .alone ∧ (tRole 2).role = .active ∧ (tRole 3).role = .standby ∧ (tRole 4).role = .fenced ∧
    (tHb .alone .run).role ≠ .standby ∧ (tHb .standby .run).role = .standby ∧ (tHb .standby .safe).mstate = .safe ∧
    (tHb .fenced .run).role = .fenced ∧ (tRole 3).pair.handover = none ∧ { tRole 3 with pair := { (tRole 3).pair with joining := true } }.pair.joining = true ∧
    (tHb .alone .run).cfgver ≠ (tRole 3 [(R.CFG.CURVER.CFGVER, 5)]).reg R.CFG.CURVER.CFGVER.off ∧
    (tRole 3 [(R.PAIR.ROLE.CUR, 1)]).get R.PAIR.ROLE.CUR = 1 ∧ (tRole 3).get R.PAIR.ROLE.CUR = 0 ∧
    (tRole 3 [(R.PAIR.CFG.COLDTAKE, 1)]).get R.PAIR.CFG.COLDTAKE = 1 ∧ (tRole 3).sup.latch = false ∧ (tOn).sup.startHold = false ∧
    (∀ f ∈ [1, 2, 3, 4, 5], (tRole 4 [(R.PAIR.ROLE.FCAUSE, f)]).get R.PAIR.ROLE.FCAUSE = f) ∧
    { tRole 4 with pair := { (tRole 4).pair with unfenced := true } }.pair.unfenced = true := by decide +kernel

theorem witness_PairActLinesFollowTheirRules :
    let s := tRole 1 [(R.PAIR.ROLE.PACT, 1)]
    let u := { s with clk := 2 ^ 32 * 1000000, pair := { s.pair with yield := some 1, both := true }, gong := { s.gong with ticking := true } }
    let w := { s with clk := 2 ^ 32 * 1000000 }
    s.get R.BIST.STATUS.RUN = 0 ∧ (tRole 1 [(R.PAIR.ROLE.PACTIN, 1)]).get R.PAIR.ROLE.PACTIN = 1 ∧ s.get R.PAIR.ROLE.PACTIN = 0 ∧ s.leads = true ∧
    s.get R.PAIR.ROLE.PACT = 1 ∧ w.pair.pactNs + 1000000 ≤ w.nowNs ∧ w.pair.yield = none ∧ u.pair.both = true ∧ s.pair.both = false ∧ s.mstate = .run ∧
    u.gong.ticking = true ∧ 4 ≤ u.get R.GONG.STATUS.PHASE ∧ u.pair.yield = some 1 ∧
    (tRole 4 [(R.PAIR.ROLE.FCAUSE, 5)]).role = .fenced ∧ (tRole 4 [(R.PAIR.ROLE.FCAUSE, 5)]).get R.PAIR.ROLE.FCAUSE = 5 ∧
    s.nowNs < s.pair.pactNs + 1000000 ∧ s.pair.yield = none ∧ s.pair.hbSincePact = false ∧
    { s with pair := { s.pair with hbSincePact := true, hb := some (tHb .alone .run) } }.pair.hb = some (tHb .alone .run) ∧
    (tHb .alone .run).slot.toNat < (tRole 1 [(R.ID.SLOT.CODE, 4)]).get R.ID.SLOT.CODE ∧ (tRole 1).get R.ID.SLOT.CODE ≤ (tHb .alone .run).slot.toNat ∧
    (tRole 4).pair.hbSinceYield = false ∧ (tRole 4).get R.PAIR.ROLE.FCAUSE ≠ 5 ∧ s.get R.BRG.STATUS.HOLD = 0 ∧ (tRole 3).leads = false ∧
    (tRole 1 [(R.BRG.STATUS.HOLD, 1)]).get R.BRG.STATUS.HOLD = 1 := by decide +kernel

/-- A standby with a signal 4, its item waiting for the END of frame 7; joining, before BULKEND and after; an active module that awaits 3 and 4. -/
theorem witness_CopiesAreAppliedAndAcknowledged :
    let e : DirEnt := ⟨0x4, 0, 0, 0, [0, 0, 0, 0]⟩
    let i : CopyItem := .sig 4 0x501 [1, 2, 3, 4]
    let d := tDir [(4, e)]
    let s := { tRole 3 with chA := d, chB := d, chC := d, pair := { (tRole 3).pair with held := [(7, [i]), (8, [])] }, gong := { (tRole 3).gong with frame := 9 } }
    let j := { s with pair := { s.pair with joining := true, bulkB := some 2 } }
    let k := { j with pair := { j.pair with bulkEnd := true } }
    let a := { tRole 2 with pair := { (tRole 2).pair with await := [3, 4] }, gong := { (tRole 2).gong with frame := 5 } }
    let mine (s : State) := (s.pair.held.filter fun h => h.1 = 7).flatMap (·.2)
    (tRole 1).role ≠ .standby ∧ s.role = .standby ∧ (j.pair.joining = true ∧ j.pair.bulkEnd = false) ∧ s.pair.joining = false ∧ s.dirEnt 4 = some e ∧
    e.home ≠ 4 ∧ s.follows .b = true ∧ tblFind (s.ch .b).dir 4 = some e ∧ mine s = [i] ∧ (itemsCount (mine s) = 1 ∧ itemsSize (mine s) = 16) ∧
    ¬ (itemsCount (mine s) = 2) ∧ 16 = 8 + (4 + 7) / 8 * 8 ∧ s.wrongBits .b = 0 ∧ k.pair.bulkEnd = true ∧ mine k = [i] ∧
    a.role = .active ∧ 4 ∈ a.pair.await ∧ a.gong.frame < 4 + 2 ∧ 3 ∈ a.pair.await ∧ 3 + 2 ≤ a.gong.frame ∧ 5 ∉ a.pair.await ∧
    s.pair.hb = none ∧ 7 + 2 ≤ s.gong.frame ∧ k.role = .standby ∧ k.pair.hb = none ∧ { s with pair := { s.pair with hb := some (tHb .active .run) } }.pair.hb =
      some (tHb .active .run) ∧ 0 ≤ (tHb .active .run).ackf ∧ 0 = s.copyfmt ∧ 1 ≠ s.copyfmt ∧
    { j with pair := { j.pair with bulkB := none } }.pair.bulkB = none ∧ j.pair.bulkB ≠ none ∧ j.pair.bulkB = some 2 ∧ s.pair.bulkB ≠ some 2 ∧
    (s.pair.joinFails.filter fun t => decide (s.nowNs < t + 3600000000000)).length < 2 ∧
    2 ≤ ([(0 : Nat), 1].filter fun t => decide (0 < t + 3600000000000)).length := by decide +kernel

/-- Three included channels alike agree on a copy digest, and on no other. -/
theorem tAgreed (s : State) (hi : s.incl = [.a, .b, .c]) (hb : s.ch .b = s.ch .a) (hc : s.ch .c = s.ch .a) :
    ∃ d, s.agreedCopy = some d ∧ s.agreedCopy ≠ some (d + 1) := by
  have h : s.agreedCopy = some (s.copyDigest (s.ch .a)) := by
    unfold State.agreedCopy
    simp [hi, hb, hc]
  refine ⟨_, h, ?_⟩
  rw [h]
  generalize s.copyDigest (s.ch .a) = d
  intro e
  have := Option.some.inj e
  bv_omega

theorem witness_CopiesAreAppliedAndAcknowledged_digest :
    let d := tDir [(4, ⟨0x4, 0, 0, 0, [0, 0, 0, 0]⟩)]
    ∃ dig, (State.applyItems { tRole 3 with chA := d, chB := d, chC := d } 7 [.sig 4 0x501 [1, 2, 3, 4]]).agreedCopy = some dig ∧
      (State.applyItems { tRole 3 with chA := d, chB := d, chC := d } 7 [.sig 4 0x501 [1, 2, 3, 4]]).agreedCopy ≠ some (dig + 1) :=
  tAgreed _ (by decide +kernel) (by decide +kernel) (by decide +kernel)

theorem witness_PairActLinesFollowTheirRules_commands :
    let why (s : State) : Nat := firstReason [(2, s.mstate != .run), (3, s.role = .fenced), (5, s.role = .alone && !s.depot)]
    (tRole 2).steward .st0 = true ∧ (tRole 2).steward .maint = false ∧
    firstReason [(2, (tRole 2).mstate != .run), (3, (tRole 2).role != .active), (4, (tRole 2 [(R.PAIR.ROLE.CUR, 1)]).get R.PAIR.ROLE.CUR = 0)] = 0 ∧
    firstReason [(2, (tRole 1).mstate != .run), (3, (tRole 1).role != .active), (4, (tRole 1).get R.PAIR.ROLE.CUR = 0)] = 3 ∧
    why (tRole 1) = 5 ∧ why (tRole 4) = 3 ∧ why (tRole 3) = 0 ∧ why (tS) = 2 ∧ (tRole 2).leads = true ∧ (tRole 3).leads = false ∧
    firstReason [(2, (tRole 4).mstate != .run), (3, (tRole 4).role != .fenced), (5, (tRole 4).get R.PAIR.ROLE.FCAUSE != 2)] = 5 := by decide +kernel

/-! ## Safety inputs and outputs, speed -/

/-- Input 0 static of class 4, in the band for 100 ms, above the limit for 1 ms in `v`; input 15 pulsed, on while its source 7 is off, and in `v` off with
source 0 off; input 1 off; pairs of both modes. -/
theorem witness_InputsAndPairsFollowTheirRules :
    let s := tRun 1 [(R.SIO.ICFG.MODE 0, 1), (R.SIO.ICFG.VCLASS 0, 4), (R.SIO.ICFG.FILT 0, 1), (R.SIO.ICFG.MODE 15, 2), (R.SIO.PCFG.MODE 0, 1), (R.SIO.PCFG.MODE 7, 2)]
    let no : Run := ⟨false, 10000⟩
    let u := { s with sio := { s.sio with
      ins := ((s.sio.ins.set 1 ⟨true, [], true, 0, false, 0, 0, no, no, no⟩).set 15 ⟨false, [4], true, 9, true, 2, 1, no, no, ⟨true, 10000⟩⟩).set 0 ⟨false, [], false, 9, false, 0, 0, ⟨true, 10000⟩, no, no⟩
      tpOff := s.sio.tpOff.set 7 true } }
    let v := { s with sio := { s.sio with
      ins := (s.sio.ins.set 15 ⟨false, [2, 3], false, 9, true, 2, 2, no, no, no⟩).set 0 ⟨false, [], false, 9, false, 0, 0, ⟨true, 9999⟩, ⟨true, 100⟩, no⟩
      tpOff := s.sio.tpOff.set 0 true } }
    (s.get (R.SIO.ICFG.MODE 0) = 1 ∧ s.get (R.SIO.ICFG.VCLASS 0) < 5) ∧ (s.get (R.SIO.ICFG.MODE 15) = 2 ∧ s.get (R.SIO.ICFG.VCLASS 15) = 0) ∧
    s.get (R.SIO.ICFG.MODE 1) = 0 ∧ u.sio.tpOff[7] = true ∧ (u.sio.tpOff[0] = false ∧ ¬ u.nowNs < u.sio.maskNs[0]) ∧
    (u.inp 0).level = false ∧ (u.inp 0).raw = false ∧ u.get (R.SIO.ICFG.FILT 0) * 100 ≤ ((u.inp 0).acc + 1) * 10 ∧
    ¬ s.get (R.SIO.ICFG.FILT 0) * 100 ≤ ((s.inp 0).acc + 1) * 10 ∧ (u.inp 15).raw = true ∧
    ((u.inp 0).band.on = true ∧ 10000 ≤ (u.inp 0).band.n) ∧ ((v.inp 0).high.on = true ∧ 100 ≤ (v.inp 0).high.n) ∧ ¬ 10000 ≤ (v.inp 0).band.n ∧
    ((7 : Fin 8) ≠ 0 ∧ v.sio.tpOff[0] = true ∧ (v.inp 15).before = true ∧ (v.inp 15).raw = false) ∧
    (4 : Fin 5).val ∈ (u.inp 15).faults ∧ (2 : Fin 5).val ∉ (u.inp 15).faults ∧ (∀ f ∈ (u.inp 15).faults, f ≠ 0) ∧
    2 ≤ (v.inp 15).passed ∧ ¬ 2 ≤ (u.inp 15).uncrossed ∧ 2 ≤ (v.inp 15).uncrossed ∧ ((u.inp 15).low.on = true ∧ 10000 ≤ (u.inp 15).low.n) ∧
    ((u.inp 15).band.on = false ∧ 10000 ≤ (u.inp 15).band.n) ∧ (∀ f ∈ (v.inp 15).faults, 1 ≤ f ∧ f ≤ 4) ∧
    (u.get (R.SIO.PCFG.MODE 0) = 1 ∧ u.inLevel (2 * 0) ≠ u.inLevel (2 * 0 + 1)) ∧ (s.get (R.SIO.PCFG.MODE 7) = 2 ∧ s.inLevel (2 * 7) = s.inLevel (2 * 7 + 1)) ∧
    u.bit R.SIO.IFAULT.PAIR 0 = false ∧ ¬ (s.get (R.SIO.PCFG.MODE 0) = 1 ∧ s.inLevel (2 * 0) ≠ s.inLevel (2 * 0 + 1)) ∧
    (s.set R.SIO.IFAULT.PAIR 1).bit R.SIO.IFAULT.PAIR 0 = true := by decide +kernel

/-- Table 9-1, class 4: on from 64 V, off up to 22 V, between them as before (samples in mV). -/
theorem test_inputLevel_holdsBetweenTheThresholds :
    let s := tRun 1 [(R.SIO.ICFG.MODE 0, 1), (R.SIO.ICFG.VCLASS 0, 4), (R.SIO.ICFG.FILT 0, 1)]
    let raws (xs : List Nat) : List Bool := xs.map fun x => match execInputLevelAccepted 0 [64000, x] s with
      | .next t => (t.inp 0).raw
      | _ => false
    raws [64000, 63999, 22001, 22000, 0] = [true, true, true, false, false] := by decide +kernel

theorem witness_OutputsFollowTheirRules :
    let s := { tRun 1 [(R.SIO.OSTATE.ACT, 0x81), (R.SIO.OSTATE.DEM, 0x80), (R.SIO.OCFG.OPENLD 0, 1), (R.SIO.OCFG.PAIRW 1, 1)] with clk := 2 ^ 32 * 2000000 }
    let u := { s with sio := { s.sio with outs := s.sio.outs.set 0 ⟨none, some false, false, true, none, 0, [1, 2], false, [6]⟩ } }
    let c := tRun 1 [(R.SIO.OSTATE.LATCH, 0x80), (R.BIST.LCS.STATE, 3)]
    let w := { s with sup := { s.sup with startHold := false } }
    s.bit R.SIO.OSTATE.ACT 0 = true ∧ s.bit R.SIO.OSTATE.ACT 1 = false ∧ (s.outp 0).pulse = none ∧ (s.outp 0).postponed = none ∧
    ¬ ((s.outp 0).pend.isSome = true ∨ s.nowNs < (s.outp 0).changeNs + 2000000) ∧ (tRun 1).nowNs < ((tRun 1).outp 0).changeNs + 2000000 ∧
    (u.outp 0).pulse = some (decide ((2 : Fin 8).val = 1)) ∧ ¬ (u.outp 0).pulse = some (decide ((1 : Fin 8).val = 1)) ∧
    (u.outp 0).pulse = some (decide ((5 : Fin 8).val = 4)) ∧ ¬ (u.outp 0).pulse = some (decide ((4 : Fin 8).val = 4)) ∧
    (u.outp 0).pulse = some false ∧ (5 : Fin 8).val ∈ [4, 5] ∧ 2 ≤ ((u.outp 0).trips.filter fun t => decide (u.nowNs < t + 60000000000)).length ∧
    ((s.outp 0).trips.filter fun t => decide (s.nowNs < t + 60000000000)).length < 2 ∧
    (w.bit R.SIO.OSTATE.LATCH 7 = false ∧ (w.outp 7).oc = false ∧ w.sup.latch = false ∧ w.sup.startHold = false) ∧ w.bit R.SIO.OSTATE.DEM 7 = true ∧
    s.sup.startHold = true ∧ c.bit R.SIO.OSTATE.LATCH 7 = true ∧ (u.outp 0).pulse.isSome = true ∧ ¬ (s.bit R.SIO.OSTATE.ACT 0 = false) ∧
    s.get (R.SIO.OCFG.PAIRW 2) = 0 ∧ s.bit R.SIO.OSTATE.ACT 2 = false ∧ s.get (R.SIO.OCFG.PAIRW 1) = 1 ∧ s.get (R.SIO.OCFG.OPENLD 0) = 1 ∧
    s.bit R.SIO.OSTATE.DEM 7 = true ∧ s.bit R.SIO.OSTATE.DEM 0 = false ∧ c.steward .st0 = true ∧ c.steward (.eng 0) = false ∧
    firstReason [(2, c.mstate != .run && c.mstate != .safe), (3, !c.depot), (4, c.get R.SIO.OSTATE.LATCH &&& (0x80 : Byte).toNat == 0)] = 0 ∧
    firstReason [(2, c.mstate != .run && c.mstate != .safe), (3, !c.depot), (4, c.get R.SIO.OSTATE.LATCH &&& (0x7F : Byte).toNat == 0)] = 4 ∧
    (0x80 : Byte).getLsbD 7 = true ∧ (0x80 : Byte).getLsbD 0 = false := by decide +kernel

/-- Sensor 0 alone, at 11 s of RUN; a phase that stands in the band for 1 ms, and edges of which each code of Table 9-7 is made. -/
theorem witness_WheelSensorsDriveTheSpeedMode :
    let s := { tRun 1 [(R.SPD.SCFG.S0, 1), (R.SPD.SSLIM.MIN, 1)] with clk := 2 ^ 32 * 11000000000 }
    let m (mode used : Nat) : State := tRun 1 [(R.SPD.SCFG.S0, 1), (R.SPD.SCFG.S1, 1), (R.SPD.SSLIM.MIN, 1), (R.SPD.STATUS.MODE, mode), (R.SPD.SSUSED.SEC, used)]
    let p : PhaseSt := ⟨false, some 10999999000, [10999999000], some 10999000000, some 10999000000⟩
    let v : SenSt := { SenSt.reset with pa := p, pb := p, run := ⟨true, 17⟩, faults := [5] }
    let e := { s with spd := { s.spd with s0 := v } }
    s.get R.SPD.SCFG.S0 % 2 = 1 ∧ ¬ s.get R.SPD.SCFG.S1 % 2 = 1 ∧ s.get R.SPD.SCFG.S0 / 2 % 2 = 0 ∧ (tRun 1 [(R.SPD.SCFG.S0, 3)]).get R.SPD.SCFG.S0 / 2 % 2 = 1 ∧
    (m 0 59).get R.SPD.STATUS.MODE = 0 ∧ (s.sen 0).pa.level = false ∧ 10500 < 10501 ∧ (s.sen 0).pa.last = none ∧
    (e.sen 0).pa.last = some 10999999000 ∧ e.nowNs < 10999999000 + 2000 ∧ (e.sen 0).pa.zone = some 10999000000 ∧ 10999000000 + 1000000 ≤ e.nowNs ∧
    e.gong.tick ≤ 10999999000 ∧ 16 < (e.sen 0).run.n ∧ (e.sen 0).pb.counted.head? = some 10999999000 ∧ (5 : Fin 6).val ∈ (e.sen 0).faults ∧
    (4 : Fin 6).val ∉ (e.sen 0).faults ∧ (m 0 0).get R.SPD.STATUS.S1OK = 0 ∧ (tRun 1 [(R.SPD.STATUS.S1OK, 1)]).get R.SPD.STATUS.S1OK = 1 ∧
    (m 0 59).get R.SPD.SSUSED.SEC < 1 * 60 ∧ 1 * 60 ≤ (m 0 60).get R.SPD.SSUSED.SEC ∧ (m 1 0).get R.SPD.STATUS.MODE = 1 ∧ (m 2 60).get R.SPD.STATUS.MODE = 2 ∧
    (m 3 0).get R.SPD.STATUS.MODE = 3 ∧ s.mstate = .run ∧ (s.sen 0).faults = [] ∧ max s.spd.runNs (s.sen 0).goodFrom + 10000000000 ≤ s.nowNs ∧
    ¬ (s.get R.BIST.STATUS.RUN = 1 ∧ s.get R.BIST.STATUS.TEST = 6) ∧
    (tRun 1 [(R.SPD.STATUS.S0OK, 1), (R.SPD.STATUS.S1OK, 1)]).get R.SPD.STATUS.S1OK = 1 ∧ s.get R.SPD.STATUS.S0OK = 0 ∧
    9 * 60 ≤ 10 * (m 0 54).get R.SPD.SSUSED.SEC ∧ 10 * (m 0 53).get R.SPD.SSUSED.SEC < 9 * 60 := by decide +kernel

/-- Two sensors of which none has an edge agree; one with edges 1 ms apart at the tick and one without an edge for 10 s do not. -/
theorem witness_WheelSensorsDriveTheSpeedMode_discrepant :
    let s := tRun 1
    let u := { s with
      gong := { s.gong with tick := 10000000000 }, spd := { s.spd with s0 := { s.spd.s0 with edges := [10000000000, 9999000000] } } }
    s.spdDiscrepant s.gong.tick = false ∧ u.spdDiscrepant u.gong.tick = true := by decide +kernel

/-! ## The train network -/

/-- Ring 16 enabled with one descriptor of word 0 `b3`·2^24 + `len`. -/
def tTx (b3 : Byte) (len : Nat) (l : List (Fld × Nat) := []) : State :=
  { tRun 1 ([(R.NET.RCFG.EN 16, 1), (R.NET.RCFG.DIR 16, 1), (R.NET.RCFG.ESZ 16, 5), (R.NET.HEAD.INDEX 16, 1)] ++ l) with
    smem := [(0, BitVec.ofNat 8 len), (1, BitVec.ofNat 8 (len / 256)), (3, b3)] }

theorem witness_FramesAreSentAndRingsAdvance :
    let c : PdCap := ⟨3, 4, some 5000, [], 0, 0⟩
    let d : PdCap := ⟨4, 4, some 5000, [], 0, 0⟩
    let s := tRun 1 [(R.ID.ASTAT.ADDR, 1)]
    let u := { s with net := { s.net with caps := [d, c, ⟨1, 5, none, [], 0, 0⟩] } }
    let at_ (s : State) (ns : Nat) : State := { s with clk := 2 ^ 32 * ns }
    let b := tRun 1 [(R.NET.STATUS.APMODE, 1)]
    let x := tTx 0 60
    let y := { x with net := { x.net with caps := [c] } }.set R.ID.ASTAT.ADDR 1
    let q := tTx 0x40 60 [(R.TIME.LATECFG.POL, 1)]
    let learned (ns : Nat) : State := at_ { b with net := { b.net with fdb := [(5, false, 0)] } } ns
    (∀ c ∈ s.net.caps, c.due = none) ∧
    (c ∈ u.net.caps ∧ c.due = some 5000 ∧ ∀ x ∈ u.net.caps, x = c ∨ ∀ e, x.due = some e → 5000 < e ∨ (5000 = e ∧ c.idx < x.idx)) ∧ u.nowNs < 5000 ∧
    5000 ≤ (at_ u 5000).nowNs ∧ 5000 + u.tolNs < (at_ u 15001).nowNs ∧
    (u.mstate = .run ∧ u.leads = true ∧ u.get R.ID.ASTAT.ADDR = 1 ∧ u.sup.latch = false) ∧ b.get R.ID.ASTAT.ADDR ≠ 1 ∧
    s.ringOn 16 = false ∧ x.ringOn 16 = true ∧ x.ringEmpty 16 = false ∧
    ((s.mstate = .init ∨ s.mstate = .run) ∧ s.sup.latch = false ∧ ¬ (s.get R.BIST.STATUS.RUN = 1 ∧ s.get R.BIST.STATUS.TEST = 7)) ∧
    (tTx 0 60 [(R.BIST.STATUS.RUN, 1), (R.BIST.STATUS.TEST, 7)]).get R.BIST.STATUS.RUN = 1 ∧
    (tTx 0x30 60).ringWord 16 0 / 2 ^ 28 % 4 = 3 ∧ (tTx 0 59).ringWord 16 0 % 2 ^ 16 = 59 ∧ (tTx 0 1523).ringWord 16 0 % 2 ^ 16 = 1523 ∧
    (tTx 0 1522).ringWord 16 0 % 2 ^ 16 = 1522 ∧ x.ringWord 16 0 / 2 ^ 30 % 2 = 0 ∧ x.ringWord 16 0 / 2 ^ 26 % 2 = 0 ∧ x.portsTo 0 ≠ [] ∧
    q.ringWord 16 0 / 2 ^ 30 % 2 = 1 ∧ q.ringWord 16 4 + 2 ^ 32 * q.ringWord 16 5 ≤ q.net.headNs[0] + 1000000000 ∧
    ({ q with smem := q.smem ++ [(19, 0x80)] }).net.headNs[0] + 1000000000 < ({ q with smem := q.smem ++ [(19, 0x80)] }).ringWord 16 4 ∧
    q.ringWord 16 4 + 2 ^ 32 * q.ringWord 16 5 + q.tolNs < (at_ q 10001).nowNs ∧
    (at_ { q with smem := q.smem ++ [(16, 9)] } 8).nowNs < ({ q with smem := q.smem ++ [(16, 9)] }).ringWord 16 4 ∧
    q.get R.TIME.LATECFG.POL / 2 ^ 0 % 2 = 1 ∧ (∀ m, 16 ≤ m → m < 16 → x.ringOn m = false ∨ x.ringEmpty m = true) ∧ x.ringOn 17 = false ∧
    (∀ e ∈ x.pubInstants (x.portsTo 0), x.nowNs + 8 * (60 + 12 + 6) ≤ e) ∧ (∃ e ∈ (at_ y 4500).pubInstants [1, 2], e < (at_ y 4500).nowNs + 8 * (60 + 12 + 6)) ∧
    q.ringWord 16 4 + 2 ^ 32 * q.ringWord 16 5 ≤ q.nowNs ∧ q.nowNs ≤ q.ringWord 16 4 + 2 ^ 32 * q.ringWord 16 5 + q.tolNs ∧
    (∀ e ∈ q.pubInstants (q.portsTo 0), q.nowNs + 8 * (60 + 12 + 6) ≤ e) ∧ q.get R.TIME.LATECFG.POL / 2 ^ 1 % 2 ≠ 1 ∧
    b.net.fdb.length < 1024 ∧
    (tTx 0 60 [(R.NET.STATUS.APMODE, 2)]).ports = [1] ∧ (tTx 0x20 60).ringWord 16 0 / 2 ^ 28 % 4 = 2 ∧
    s.steward .st0 = true ∧ s.steward (.eng 1) = false ∧ x.get (R.NET.RCFG.DIR 16) = 1 ∧ s.get (R.NET.RCFG.DIR 24) = 0 ∧
    s.get (R.NET.RCFG.DIR 10) = 0 ∧ b.get R.NET.STATUS.APMODE = 1 ∧ s.get R.NET.STATUS.APMODE = 0 ∧
    (((learned 299999999999).net.fdb.filter fun e => decide ((learned 299999999999).nowNs < e.2.2 + 300000000000) && e.1 != 6).any
      fun e => e.1 = 5 && e.2.1 = !true) = true ∧
    (((learned 300000000000).net.fdb.filter fun e => decide ((learned 300000000000).nowNs < e.2.2 + 300000000000) && e.1 != 6).any
      fun e => e.1 = 5 && e.2.1 = !true) = false ∧
    (∃ p ∈ [(⟨5, some 1, some 0, false, false⟩ : PrpSrc)], p.mac = 5 ∧ ∃ x y, p.a = some x ∧ p.b = some y ∧ (if true then y < x else x < y)) ∧
    s.net.heard = [] ∧ s.get R.NET.STATUS.LINK1 = b2n false ∧ s.get R.NET.STATUS.LINK2 ≠ b2n true := by
  refine ⟨by decide +kernel, ⟨by decide +kernel, by decide +kernel, ?_⟩, ?_⟩
  · intro x hx
    have hx : x = ⟨4, 4, some 5000, [], 0, 0⟩ ∨ x = ⟨3, 4, some 5000, [], 0, 0⟩ ∨ x = ⟨1, 5, none, [], 0, 0⟩ := by simpa using hx
    rcases hx with rfl | rfl | rfl
    · right; intro e he; obtain rfl : 5000 = e := by simpa using he
      right; exact ⟨rfl, by decide⟩
    · left; rfl
    · right; intro e he; simp at he
  · have lost : ∃ p ∈ [(⟨5, some 1, some 0, false, false⟩ : PrpSrc)], p.mac = 5 ∧ ∃ x y, p.a = some x ∧ p.b = some y ∧ (if true then y < x else x < y) :=
      ⟨_, List.mem_singleton.2 rfl, rfl, 1, 0, rfl, rfl, by decide⟩
    repeat' apply And.intro
    all_goals first | exact lost | omega | decide +kernel

/-- A ONESTEP frame over UDP one byte too short for a PTP event message, and one that is long enough. -/
theorem witness_FramesAreSentAndRingsAdvance_onestep :
    (tTx 4 85).ringWord 16 0 / 2 ^ 26 % 2 = 1 ∧ (tTx 4 85).get R.TIME.CFG.TRANS = 0 ∧ (tTx 4 85).ringWord 16 0 % 2 ^ 16 < 86 ∧
    ¬ (tTx 4 86).ringWord 16 0 % 2 ^ 16 < 86 ∧ 60 ≤ (tTx 4 85).ringWord 16 0 % 2 ^ 16 := by decide +kernel

/-- Entry 3: in use, TRN or not, TIMEOUT 9, ComId 100, element 0, LEN 4, bound to address 1; signal 4 of HOME 1. -/
def tRx (w0 : W32) (st : SubSt) (l : List (Fld × Nat) := []) : State :=
  let e : DirEnt := ⟨0x00400004, 0, 3 <<< 18, 0, [0, 0, 0, 0]⟩
  let s := tSig [(4, e)] ((R.NET.STATUS.APMODE, 1) :: l)
  { s with net := { s.net with sub := [(3, [w0, 100, 0, 0, 1, 0, 0, 4])], binds := [(4, 0)], subSt := [(3, st)], waiting := [⟨3, 1, 9, none, [1, 2, 3, 4]⟩] } }

theorem witness_TelegramsAreCheckedAndAccepted :
    let st : SubSt := ⟨[1], false, none, [], some 0⟩
    let s := tRx 0x80000009 st
    let tr := tRx 0x90000009 st
    let tel : PdTel := ⟨true, 1, 100, 2, 0, 9, [1, 2, 3, 4]⟩
    let bad : PdTel := ⟨true, 1, 100, 2, 0, 9, [1]⟩
    let off : RxFrame := ⟨2, 0, none, false, .other, []⟩
    let x : DirEnt := ⟨0x00400004, 0, 3 <<< 18, 0, [0, 0, 0, 0]⟩
    let w : PdWait := ⟨3, 1, 9, none, [1, 2, 3, 4]⟩
    let r := tRun 1 [(R.NET.RCFG.EN 27, 1), (R.NET.STATUS.APMODE, 1)]
    (s.mstate = .init ∨ s.mstate = .run) ∧ s.get R.BIST.STATUS.RUN ≠ 1 ∧ s.get R.NET.STATUS.APMODE ≠ 0 ∧ (tRun 1 [(R.NET.STATUS.APMODE, 2)]).get R.NET.STATUS.APMODE = 2 ∧
    off.port = 2 ∧ (tS).mstate = .boot ∧ s.ringOn 27 = false ∧ r.ringOn 27 = true ∧ r.net.fdb = [] ∧
    (tRun 1 [(R.NET.RCFG.EN 27, 1), (R.NET.HEAD.INDEX 27, 15)]).ringFull 27 = true ∧ r.ringFull 27 = false ∧
    s.boundTo tel = some 3 ∧ s.boundTo bad = some 3 ∧ tr.boundTo tel = some 3 ∧ s.boundTo { tel with srcIp := 2 } = none ∧
    ({ tel with headerOk := false }).headerOk = false ∧ tel.headerOk = true ∧
    bad.data.length ≠ fieldOf ((s.subE 3).getD 7 0) 0 16 ∧ tel.data.length = fieldOf ((s.subE 3).getD 7 0) 0 16 ∧ entBit (tr.subE 3) 28 = true ∧
    (tel.etbTopo ≠ 0 ∧ tel.etbTopo ≠ tr.reg R.NET.ETBTOPO.CNT.off) ∧ entBit (s.subE 3) 28 = false ∧ entBit (s.subE 3) 30 = false ∧ entBit (s.subE 3) 29 = false ∧
    tblFind (s.subS 3).seqs tel.srcIp.toNat = none ∧ (tRun 1).net.waiting = [] ∧ s.net.waiting = [w] ∧ tblFind (s.subS w.idx).seqs w.src.toNat = none ∧
    tblFind ((tRx 0x80000009 ⟨[1], false, none, [(1, 9)], some 0⟩).subS 3).seqs 1 = some 9 ∧ serialGt w.seq 9 = false ∧
    serialGt (5 : W32) 4 = true ∧ w.epoch = none ∧
    (bindsOf s.net.binds ((s.subE 3).getD 4 0)) = [(4, 0)] ∧ bindSig (4, 0) = 4 ∧ s.dirEnt 4 = some x ∧ x.type ≠ 0 ∧ s.follows .a = true ∧ s.wrongBits .a = 0 ∧
    entBit (s.subE 3) 31 = true ∧ fieldOf ((s.subE 3).getD 0 0) 0 24 ≠ 0 ∧ (s.subS 3).tout = false ∧ (s.subS 3).lastAcc.isSome = true ∧
    (tRx 0x80000000 st).subE 3 = [0x80000000, 100, 0, 0, 1, 0, 0, 4] ∧ ((tRx 0x80000009 ⟨[1], true, none, [], none⟩).subS 3).tout = true ∧
    (tRx 0x80000009 ⟨[1], false, none, [], none⟩ [(R.SUP.STATE.MSTATE, 2)]).mstate ≠ .run ∧
    smemMapped 0 = true ∧ smemMapped 0x7FFFFFFF = true := by decide +kernel

/-- An SDT entry whose dataset is refused at once for its length; whether one with a full trailer is agreed rests on the safety code (log 9), and each case
is met by the same telegram. -/
theorem witness_TelegramsAreCheckedAndAccepted_sdt :
    let s := tRx 0xC0000009 ⟨[1], false, none, [], some 0⟩
    let tel : PdTel := ⟨true, 1, 100, 2, 0, 9, [1, 2, 3, 4]⟩
    s.boundTo tel = some 3 ∧ tel.data.length = fieldOf ((s.subE 3).getD 7 0) 0 16 ∧ entBit (s.subE 3) 28 = false ∧ entBit (s.subE 3) 30 = true ∧
    (s.sdtAgreed (s.subE 3) tel.data = false ∨ s.sdtAgreed (s.subE 3) tel.data = true) := by
  refine ⟨by decide +kernel, by decide +kernel, by decide +kernel, by decide +kernel, ?_⟩
  cases State.sdtAgreed _ _ _ <;> simp

/-- A later copy of a frame of which one came at the same instant. -/
theorem witness_TelegramsAreCheckedAndAccepted_copy :
    { tRun 1 with net := { (tRun 1).net with seen := [(5, 6, 0)] } }.prpCopy ⟨1, 5, some 6, false, .other, []⟩ = true := by decide +kernel

theorem witness_AddressesFollowTheTrainDirectory :
    let s := tRun 1
    let u := tRun 1 [(R.ID.ASTAT.ADDR, 1)]
    let r := { u with boot := { u.boot with posRead := true } }
    s.get R.CFG.ADDRCFG.MODE = 0 ∧ (s.mstate = .init ∨ s.mstate = .run) ∧ s.boot.posRead = false ∧ (tS).mstate = .boot ∧ r.boot.posRead = true ∧
    (1 : W32) ≠ r.reg R.NET.ETBTOPO.CNT.off ∧ (0 : W32) = r.reg R.NET.ETBTOPO.CNT.off ∧ (0 : W32) = r.reg R.NET.OPTOPO.CNT.off ∧
    some (1, 1) ≠ r.boot.pos ∧ none = r.boot.pos ∧ r.get R.ID.ASTAT.ADDR = 1 ∧ s.ucause = 1 ∧ s.get R.ID.ASTAT.ADDR = 0 ∧
    { s with net := { s.net with conflict := true } }.net.conflict = true ∧ s.net.conflict = false ∧ s.get R.BIST.STATUS.RUN ≠ 1 ∧
    ((tRun 1 [(R.BIST.STATUS.RUN, 1), (R.BIST.STATUS.TEST, 7)]).get R.BIST.STATUS.RUN = 1 ∧
      (tRun 1 [(R.BIST.STATUS.RUN, 1), (R.BIST.STATUS.TEST, 7)]).get R.BIST.STATUS.TEST = 7) ∧
    (([(3, [0x41])] : List (Nat × List Byte)).find? fun v => v.2 ++ List.replicate (16 - v.2.length) 0 =
      (List.range 4).flatMap fun w => leBytes 4 ((tRun 1 [(R.ID.VEHID.BYTES 0, 0x41)]).get (R.ID.VEHID.BYTES w))) = some (3, [0x41]) := by decide +kernel

/-- Slot and plug are valid, the position is read. -/
def tAdr (probed : Bool) : State :=
  let s := tRun 1 [(R.ID.SLOT.VALID, 1), (R.ID.PLUG.VALID, 1)]
  { s with boot := { s.boot with posRead := true, pos := some (1, 1), probed := probed } }

/-- Only the probe is outstanding, or nothing is, where the host lies in the range of its standard (log 9). -/
theorem witness_AddressesFollowTheTrainDirectory_probe (h : ∀ n, Config.hostOk n = true) : (tAdr false).ucause = 7 ∧ (tAdr true).ucause = 0 := by
  unfold State.ucause
  rw [h, h]; decide +kernel

/-! ## Time and events -/

/-- In RUN with time state SYNC, a step of `ns` whole ns in STEP. -/
def tTime (sync : Nat) (l : List (Fld × Nat) := []) : State := tRun 1 ((R.TIME.STATUS.SYNC, sync) :: l)

theorem witness_TimeStepsAndLocksAsItsRulesSay :
    let s := tTime 1
    let far : BitVec 64 := (1000 : W32) ++ (0 : W32)
    let close : BitVec 64 := (3 : W32) ++ (0x0D400000 : W32)
    let init := tTime 0 [(R.SUP.STATE.MSTATE, 2)]
    let boot := tTime 0 [(R.SUP.STATE.MSTATE, 0)]
    let force := tTime 3 [(R.TIME.STATUS.PENDV, 1), (R.CFG.EXPERT.UNLK, 1), (R.SPD.STATUS.STILL, 1)]
    let why (s : State) : Nat := firstReason [(3, s.mstate != .init && s.mstate != .run), (4, s.get R.TIME.STATUS.PENDV = 0), (5, s.get R.CFG.EXPERT.UNLK = 0),
      (6, s.get R.SPD.STATUS.STILL = 0 && s.get R.BIST.LCS.STATE != 3)]
    let a : Announce := ⟨0, 1, 6, 0, 0, 1, 77, 0, 37⟩
    let w (n ab : Nat) : State := { tTime 2 with tim := ⟨n, ab, some a⟩ }
    (a.domain.toNat = (if s.get R.TIME.CFG.DOMAIN ≤ 127 then s.get R.TIME.CFG.DOMAIN else 0)) ∧ ({ a with domain := 5 } : Announce).domain.toNat ≠ s.get R.TIME.CFG.DOMAIN ∧
    s.pending = [] ∧ s.sup.powered = true ∧ { s with sup := { s.sup with powered := false } }.sup.powered = false ∧ s.steward (.eng 2) = false ∧
    s.steward .st0 = true ∧ close.toInt.natAbs ≤ 65536 * 200000 ∧ ¬ far.toInt.natAbs ≤ 65536 * 10000000 ∧
    (init.get R.TIME.STATUS.SYNC = 0 ∧ init.mstate = .init) ∧ (boot.get R.TIME.STATUS.SYNC = 0 ∧ boot.mstate = .boot) ∧ s.get R.TIME.STATUS.SYNC = 1 ∧
    why force = 0 ∧ why s = 4 ∧ why boot = 3 ∧ why (tTime 3 [(R.TIME.STATUS.PENDV, 1)]) = 5 ∧ why (tTime 3 [(R.TIME.STATUS.PENDV, 1), (R.CFG.EXPERT.UNLK, 1)]) = 6 ∧
    (s.mstate = .init ∨ s.mstate = .run) ∧ (1000 : Int).natAbs ≤ 1000 ∧ ¬ (-1001 : Int).natAbs ≤ 1000 ∧ 7 ≤ (w 7 0).tim.within ∧ 3 ≤ (w 0 3).tim.above ∧
    s.tim.master = none ∧ (w 0 0).tim.master = some a ∧ s.get R.TIME.CFG.MASTEN = 0 ∧ a.ident = a.ident ∧ a.ident ≠ ({ a with ident := 78 } : Announce).ident ∧
    (tTime 2).get R.TIME.STATUS.SYNC ≠ 1 ∧ (tTime 2).get R.TIME.CFG.MASTEN ≠ 1 ∧ s.get R.BIST.STATUS.RUN ≠ 1 ∧
    ((tTime 1 [(R.BIST.STATUS.RUN, 1), (R.BIST.STATUS.TEST, 7)]).get R.BIST.STATUS.RUN = 1 ∧
      (tTime 1 [(R.BIST.STATUS.RUN, 1), (R.BIST.STATUS.TEST, 7)]).get R.BIST.STATUS.TEST = 7) ∧
    ({ s with tim := ⟨0, 0, some a⟩ }.get R.TIME.STATUS.SYNC = 1 ∧ { s with tim := ⟨0, 0, some a⟩ }.tim.master.isSome = true) := by decide +kernel

/-- A master-capable module: its own clock is the better one, or it is not; the comparison is the standard's (log 9). -/
theorem witness_TimeStepsAndLocksAsItsRulesSay_best (m : Announce) (i : BitVec 64) :
    let s := tTime 2 [(R.TIME.CFG.MASTEN, 1)]
    s.get R.TIME.CFG.MASTEN = 1 ∧ (Config.bmcBetter (s.ownClock i) m = true ∨ Config.bmcBetter (s.ownClock i) m = false) := by
  refine ⟨by decide +kernel, ?_⟩
  cases Config.bmcBetter _ m <;> simp

/-- A module with one shared source, 40, pending for target 0, whose ring has room; or delivered or claimed. -/
def tEv (ph : EvPh) (l : List (Fld × Nat) := []) : State :=
  let s := tRun 1 ([(R.EVC.SCFG.EN 40, 1), (R.BRG.INTST.INT, 1), (R.NET.RCFG.EN 0, 1), (R.NET.RCFG.ESZ 0, 4)] ++ l)
  { s with evs := [(200, ⟨ph, 0, 0, false, none, if ph = .claimed then some 0 else none⟩)] }

theorem witness_EventSourcesFollowTheirRules :
    let s := tEv .pending
    let f := tEv .pending [(R.NET.HEAD.INDEX 0, 15)]
    let d := { tEv .delivered [(R.NET.HEAD.INDEX 0, 1)] with smem := [(0, 40)] }
    let gone := { tEv .delivered [(R.NET.HEAD.INDEX 0, 1), (R.BRG.INTST.INT, 0)] with smem := [(0, 40)] }
    let c := tEv .claimed
    let l := { tRun 1 with evs := [(3, ⟨.claimed, 0, 0, false, none, some 0⟩)] }
    let held := tEv .pending [(R.EVC.HOLD.TGT, 1)]
    (Req.maint = .maint ∧ s.session = none) ∧ ¬ (Req.eng 0 = .maint) ∧ evKey 0 40 = 200 ∧ 40 ≤ (40 : Fin 256).val ∧ (40 : Fin 256).val ≤ 43 ∧
    held.bit R.EVC.HOLD.TGT 0 = true ∧ s.bit R.EVC.HOLD.TGT 0 = false ∧ s.ringOn 0 = true ∧ s.ringOn 1 = false ∧ s.evTarget 200 = 0 ∧
    tblFind s.evs 200 = some ⟨.pending, 0, 0, false, none, none⟩ ∧ (∀ p ∈ s.evs, p.2.ph = .pending → s.evTarget p.1 = 0 → p.1 = 200) ∧
    f.ringFull 0 = true ∧ s.ringFull 0 = false ∧ s.ringEmpty 0 = true ∧ d.ringEmpty 0 = false ∧ evKey 0 (d.ringWord 0 0 % 1024) = 200 ∧
    tblFind d.evs 200 = some ⟨.delivered, 0, 0, false, none, none⟩ ∧ (d.evLevel 200 && d.evEnabled 200) = true ∧ (gone.evLevel 200 && gone.evEnabled 200) = false ∧
    (reqTarget (.eng 0)).val = 0 ∧ tblFind c.evs 200 = some ⟨.claimed, 0, 0, false, none, some 0⟩ ∧ (40 : BitVec 10).toNat < 256 ∧ 256 ≤ (256 : BitVec 10).toNat ∧
    evLatched 200 = false ∧ tblFind l.evs 3 = some ⟨.claimed, 0, 0, false, none, some 0⟩ ∧ l.evTarget 3 = 0 ∧ evLatched 3 = true ∧ tblFind l.evs 4 = none ∧
    tblWf held.evs = true ∧ (isEng (.eng 0) = true ∧ (reqTarget (.eng 0)).val ≠ (1 : Fin 10).val) ∧ s.steward .st1 = true ∧ s.mstate = .run ∧
    (tS).mstate = .boot ∧ s.get (R.EVC.SCFG.TARGET 40) = 0 ∧ (reqTarget (.eng 1)).val ≠ s.get (R.EVC.SCFG.TARGET 40) ∧
    (tRun 1 [(R.BRG.STATUS.HOLD, 1)]).get R.BRG.STATUS.HOLD = 1 ∧ (⟨.claimed, 0, 0, false, none, some 0⟩ : EvSrc).target ≠ some 1 ∧
    (tEv .claimed [(R.EVC.SCFG.TARGET 40, 3)]).get (R.EVC.SCFG.TARGET 40) ≠ 0 ∧ evLatched (winKey 0 0 3) = true := by
  decide +kernel

/-! ## The bridge, configuration, updates -/

/-- The bridge with the duties held as `hold` says, one posted entry and slot 0 waiting. -/
def tBrg (hold : Nat) (d : Option DrSlot) (l : List (Fld × Nat) := []) : State :=
  let s := tRun 1 ((R.BRG.STATUS.HOLD, hold) :: l)
  { s with brg := { s.brg with posted := [⟨4, 5, 0xF, 1, 0⟩], slots := s.brg.slots.set 0 d } }

theorem witness_BridgeFollowsItsRules :
    let s := tBrg 1 none
    let d : DrSlot := ⟨.eng 0, 4, 4, 0, false⟩
    let card : InPhase := ⟨0xF, 7, true⟩
    let x : DirEnt := ⟨0x01000004, 0, 0, 0, [0, 0, 0, 0]⟩
    let en := tBrg 1 none [(R.BRG.CFG.SLOTEN, 0x7F)]
    let tick (n : Nat) := { en with brg := { en.brg with inBytes := n }, gong := { en.gong with ticking := true, tick := 250000, next := 500000 } }
    let both := { en with brg := { en.brg with cardLast := true } }
    let full : BrgSt := { s.brg with slots := s.brg.slots.set 0 (some d), waits := [⟨.core true, 8, 4⟩] }
    let cfg := tBrg 1 none [(R.SUP.STATE.MSTATE, 2)]
    let miss := { s with bank0 := some { tP with cards := [⟨2, 9, [⟨0, 0, 0, 8⟩], false⟩] }, brg := { s.brg with mis := [2] } }
    (tRun 1).brg.posted = [] ∧ (tBrg 0 none).get R.BRG.STATUS.HOLD = 0 ∧ s.get R.BRG.STATUS.HOLD = 1 ∧ s.brg.posted = [⟨4, 5, 0xF, 1, 0⟩] ∧
    (s.brg.rst = false ∧ ∀ k : Fin 7, ¬ ((0x7F : BitVec 7).getLsbD k.val = true ∧ s.bit R.BRG.CFG.SLOTEN k.val = true)) ∧
    (both.brg.cardLast = true ∧ both.brg.posted ≠ [] ∧ both.get R.BRG.STATUS.HOLD = 1) ∧
    ¬ (en.brg.cardLast = true ∨ ∀ k : Fin 7, ¬ ((0x7F : BitVec 7).getLsbD k.val = true ∧ en.bit R.BRG.CFG.SLOTEN k.val = true)) ∧ en.brg.cardLast = false ∧ en.bit R.BRG.CFG.SLOTEN 2 = true ∧
    (∀ k : Fin 7, ((0x44 : BitVec 7).getLsbD k.val = true ∧ en.bit R.BRG.CFG.SLOTEN k.val = true) → (2 + 13 - en.brg.rr.val) % 7 ≤ (k.val + 13 - en.brg.rr.val) % 7) ∧
    (1000 * ((tick 65992).brg.inBytes + 4 * [card, card].length) ≤ 264 * ((tick 65992).gong.next - (tick 65992).gong.tick) ∧ en.gong.ticking = false) ∧
    (∃ pr c, miss.prog = some pr ∧ c ∈ pr.cards ∧ c.slot ∈ miss.brg.mis ∧ ∃ b ∈ c.bars, b.base ≤ 4 ∧ 4 < b.base + b.size) ∧
    ((tick 65993).gong.ticking = true ∧ ¬ 1000 * ((tick 65993).brg.inBytes + 4 * [card, card].length) ≤ 264 * ((tick 65993).gong.next - (tick 65993).gong.tick)) ∧
    tblFind ([(2, 9)] : Tbl W32) 2 = some 9 ∧ (0 + 8 ≤ 2 ^ 26 * 1 ∧ ¬ (0 + 8 ≤ 2 ^ 26 * 0 ∨ 2 ^ 26 * (0 + 1) ≤ 0)) ∧
    s.ringOn 10 = false ∧ (tBrg 1 none [(R.NET.RCFG.EN 10, 1)]).ringOn 10 = true ∧ (tBrg 1 none [(R.NET.RCFG.EN 10, 1)]).ringFull 10 = false ∧
    (tBrg 1 none [(R.NET.RCFG.EN 10, 1), (R.NET.HEAD.INDEX 10, 15)]).ringFull 10 = true ∧ s.brg.slots[(0 : Fin 8)] = none ∧ s.brg.waits = [] ∧
    full.waits = [⟨.core true, 8, 4⟩] ∧ full.slots[(0 : Fin 8)] = some d ∧ ({ d with req := .core true } : DrSlot).req = .core true ∧
    (tBrg 1 (some d)).brg.slots[(0 : Fin 8)] = some d ∧ d.ahead = 0 ∧ d.gone = false ∧ ({ d with ahead := 1 } : DrSlot).ahead ≠ 0 ∧
    ({ d with gone := true } : DrSlot).gone = true ∧ s.brg.inbuf = [] ∧ (0x04000000 : W32).toNat / 2 ^ 26 ≠ s.get R.BRG.CFG.IBASE ∧
    (0x03FFFFFC : W32).toNat / 2 ^ 26 = s.get R.BRG.CFG.IBASE ∧ ([card, card].take ((64 - 0x03FFFFFC % 64) / 4)).length = 1 ∧
    (s.mstate = .run ∧ (tBrg 1 none [(R.GONG.STATUS.PHASE, 0)]).get R.GONG.STATUS.PHASE = 0) ∧ s.get R.GONG.STATUS.PHASE ≠ 0 ∧
    (tSig [(4, x)]).dirEnt 4 = some x ∧ x.type ≠ 0 ∧ x.home = 4 ∧ (x.w1.toNat ≤ 3 ∧ 3 < x.w1.toNat + x.size) ∧
    { s with brg := { s.brg with rst := true } }.brg.rst = true ∧ isEng (.eng 7) = true ∧ s.session = none ∧ s.steward .st0 = true ∧ s.steward .maint = false ∧
    (cfg.mstate = .init ∧ cfg.get R.BRG.STATUS.HOLD = 1 ∧ cfg.brg.rst = false ∧ cfg.get R.BRG.STATUS.CFGD = 0) := by
  iterate 11 refine And.intro (by decide +kernel) ?_
  refine And.intro ⟨_, _, rfl, List.mem_singleton.2 rfl, List.mem_singleton.2 rfl, _, List.mem_singleton.2 rfl, by decide, by decide⟩ ?_
  decide +kernel

/-- A copy that waits for slot 0. -/
theorem witness_BridgeFollowsItsRules_waits :
    let k := { tK (tX 0x400000004) with stall := some (.read 0 2 0x400000004 4 false) }
    let s := tE (tC k)
    s.executing .a = true ∧ (s.ch .a).eng[(0 : Eng)].run = some 5 ∧ (s.ch .a).eng[(0 : Eng)].stall = some (.read 0 2 0x400000004 4 false) ∧
    tblFind (s.ch .a).insts 5 = some tI ∧ s.bank tI.bank = some tP ∧ k.bud ≠ 0 ∧ fetchOk tP k.x 4 = true := by decide +kernel

/-- An entry with a reserved bit, and one that sets TIME.LATECFG.TOL to 5. -/
def tBadEnt : NvEntry := ⟨0x01000000, 1, 0⟩
def tExpEnt : NvEntry := ⟨0x70048, 0x03FF0000, 0x00050000⟩

/-- User images that hold them. -/
def tBadImg : NvImage := { tUser with entries := [tBadEnt], bodyCrc := 0xA004D2B2, hcrc := 0x222FEC5F }
def tExpImg : NvImage := { tUser with entries := [tExpEnt], bodyCrc := 1903507777, hcrc := 1631613937 }

/-- The reason of STAGE for a staged image, as the statement has it. -/
def tWhy (s : State) (m : NvImage) : Nat :=
  firstReason [(2, !nvFrame m 0x7A310C01), (3, m.cfgver = 0 || m.cfgver = s.reg R.CFG.CURVER.CFGVER.off), (4, !m.entries.all entryFits),
    (5, s.get R.CFG.EXPERT.UNLK = 0 && s.expertDiff m != [])]

theorem witness_ConfigurationCommandsAreJudged_stage2 : tWhy (tRun 1) tFactory = 2 := by decide +kernel
theorem witness_ConfigurationCommandsAreJudged_stage3 : tWhy (tRun 1) (tNv 0x7A310C01 0 0 416140600) = 3 := by decide +kernel
theorem witness_ConfigurationCommandsAreJudged_stage4 : tWhy (tRun 1) tBadImg = 4 ∧ entryFits tBadEnt = false := by decide +kernel
theorem witness_ConfigurationCommandsAreJudged_stage0 : tWhy (tRun 1 [(R.CFG.EXPERT.UNLK, 1)]) tExpImg = 0 := by decide +kernel

/-- The fields of TIME.LATECFG. -/
def tLate : List RegFld := (regFields R.TIME.LATECFG.TOL.off).getD []

/-- In a module whose registers read 0 an image that sets TOL, or leaves it at its default, differs from the current version there. -/
theorem tExp_differs (m : NvImage) (h : fieldOf (layerWord none (some m) R.TIME.LATECFG.TOL.off tLate 0) 16 10 ≠ 0) :
    R.TIME.LATECFG.TOL ∈ (tRun 1).expertDiff m := by
  have f : (tRun 1).factoryImage = none := rfl
  have z : (tRun 1).reg R.TIME.LATECFG.TOL.off = 0 := by decide +kernel
  have e : ((tRun 1).layered none (some m)).reg R.TIME.LATECFG.TOL.off = layerWord none (some m) R.TIME.LATECFG.TOL.off tLate 0 :=
    (reg_layered (tRun 1) none (some m) R.TIME.LATECFG.TOL.off tLate (by decide +kernel) profileSets_latecfg).trans (by rw [z])
  unfold State.expertDiff
  rw [f]
  refine List.mem_filter.2 ⟨by decide +kernel, ?_⟩
  unfold State.get
  rw [e, z]
  exact bne_iff_ne.2 h

theorem witness_ConfigurationCommandsAreJudged_stage5 : tWhy (tRun 1) tExpImg = 5 ∧ tWhy (tRun 1) tUser = 5 ∧
    ((tRun 1).expertDiff tExpImg).any (fun f => coversFld tExpEnt f) = true ∧
    tUser.entries.any (fun e => ((tRun 1).expertDiff tUser).any fun f => coversFld e f) = false := by
  have a := tExp_differs tExpImg (by decide +kernel)
  have b := tExp_differs tUser (by decide +kernel)
  have why (m : NvImage) (h : firstReason [(2, !nvFrame m 0x7A310C01), (3, m.cfgver = 0 || m.cfgver = (tRun 1).reg R.CFG.CURVER.CFGVER.off),
      (4, !m.entries.all entryFits), (5, true)] = 5) (hd : R.TIME.LATECFG.TOL ∈ (tRun 1).expertDiff m) : tWhy (tRun 1) m = 5 := by
    have u : decide ((tRun 1).get R.CFG.EXPERT.UNLK = 0) = true := by decide +kernel
    have d : ((tRun 1).expertDiff m != []) = true := by
      rw [bne_iff_ne]; intro e; rw [e] at hd; simp at hd
    unfold tWhy
    rw [u, d]; exact h
  exact ⟨why tExpImg (by decide +kernel) a, why tUser (by decide +kernel) b, List.any_eq_true.2 ⟨_, a, by decide +kernel⟩, rfl⟩

theorem witness_ConfigurationCommandsAreJudged :
    let s := tRun 1
    let idle (s : State) : Bool := s.mstate = .safe || s.mstate = .recovery || s.mstate = .init || (s.mstate = .run && (s.role = .standby || s.role = .fenced)) ||
      s.get R.BIST.LCS.STATE = 3 || s.get R.BIST.LCS.STATE = 1
    let u := tRole 3 [(R.CFG.STATUS.STGV, 1), (R.CFG.STATUS.PREVV, 1), (R.CFG.EXPERT.UNLK, 1)]
    let key := { s with preq := [(reqKey .st0 R.CFG.EXPCHAL.CHAL.off, 1), (reqKey .st0 (R.CFG.EXPCHAL.CHAL.off + 1), 1)] }
    s.steward (.eng 0) = false ∧ s.steward .st0 = true ∧ s.nv.staged = none ∧ { s with nv := { s.nv with staged := some tUser } }.nv.staged = some tUser ∧
    firstReason [(2, u.get R.CFG.STATUS.STGV = 0), (6, !idle u)] = 0 ∧ firstReason [(2, s.get R.CFG.STATUS.STGV = 0), (6, !idle s)] = 2 ∧
    firstReason [(6, !idle u), (7, u.get R.CFG.STATUS.PREVV = 0)] = 0 ∧ firstReason [(6, !idle s), (7, s.get R.CFG.STATUS.PREVV = 0)] = 6 ∧
    firstReason [(2, u.get R.CFG.STATUS.STGV = 0 || u.get R.CFG.STATUS.PEND != 0)] = 0 ∧ firstReason [(8, u.get R.CFG.EXPERT.UNLK = 0)] = 0 ∧
    firstReason [(8, s.get R.CFG.EXPERT.UNLK = 0)] = 8 ∧ s.session = none ∧ Req.st1 ≠ .maint ∧
    (key.preqGet .st0 (R.CFG.EXPCHAL.CHAL.off + 1) ≠ 0 ∧ (0x7E5A1C3A : W32) = key.preqGet .st0 R.CFG.EXPCHAL.CHAL.off ^^^ 0x7E5A1C3B) ∧
    s.preqGet .st0 (R.CFG.EXPCHAL.CHAL.off + 1) = 0 ∧ s.get R.CFG.EXPERT.TLEFT = 0 ∧ (tRun 1 [(R.CFG.EXPERT.TLEFT, 1)]).get R.CFG.EXPERT.TLEFT ≠ 0 := by
  decide +kernel

/-- Staging in state `x` with a header and a manifest, a maintenance session open. -/
def tStg (x : Nat) (l : List (Fld × Nat) := []) : State :=
  let s := tRun 1 ([(R.UPD.STATE.fld, x), (R.UPD.STATE.KIND, 1), (R.SPD.STATUS.STILL, 1), (R.SUP.SUPPLY.INPUT, 2400), (R.BIST.LCS.STATE, 3)] ++ l)
  { s with session := some .owner, upd := { s.upd with hdr := some (tHdr 1 1), man := some tMan } }

theorem witness_PackagesAreCheckedInOrder :
    let s := tRun 1
    let exch (s : State) : Bool := [1, 2, 4, 5, 6].contains (s.get R.TASK.XSTAT.STATE)
    let idle (s : State) : Bool := s.mstate = .safe || s.mstate = .recovery || s.mstate = .init || (s.mstate = .run && (s.role = .standby || s.role = .fenced)) || s.depot
    let apply (s : State) : Nat := firstReason [(2, s.get R.UPD.STATE.fld != 1), (3, s.get R.UPD.OWNER.LOCKED = 1), (7, exch s), (8, (s.get R.UPD.STATE.KIND = 3 || s.get R.UPD.STATE.KIND = 4) && !s.depot)]
    let act (s : State) : Nat := firstReason [(2, s.get R.UPD.STATE.fld != 3 || (s.get R.UPD.STATE.KIND != 1 && s.get R.UPD.STATE.KIND != 2)),
      (3, s.get R.UPD.OWNER.LOCKED = 1), (4, s.get R.SPD.STATUS.STILL = 0 && !s.depot), (5, s.batteryLow), (6, !idle s), (7, exch s)]
    s.session = none ∧ (tStg 1).session ≠ none ∧ (tStg 0).get R.UPD.STATE.fld = 0 ∧ (tStg 4).get R.UPD.STATE.fld = 4 ∧
    (tStg 1).get R.UPD.STATE.fld ≠ 0 ∧ (tStg 1).get R.UPD.STATE.fld ≠ 4 ∧ s.upd.hdr = none ∧ (tStg 0).upd.hdr.isSome = true ∧
    apply (tStg 1) = 0 ∧ apply (tStg 2) = 2 ∧ apply (tStg 1 [(R.UPD.OWNER.LOCKED, 1)]) = 3 ∧ apply (tStg 1 [(R.TASK.XSTAT.STATE, 6)]) = 7 ∧
    apply (tStg 1 [(R.UPD.STATE.KIND, 3), (R.BIST.LCS.STATE, 2)]) = 8 ∧ (tStg 2).get R.UPD.STATE.fld = 2 ∧ s.upd.man = none ∧
    act (tStg 3) = 0 ∧ act (tStg 1) = 2 ∧ act (tStg 3 [(R.SPD.STATUS.STILL, 0), (R.BIST.LCS.STATE, 2)]) = 4 ∧ act (tStg 3 [(R.SUP.SUPPLY.INPUT, 2039)]) = 5 ∧
    act (tStg 3 [(R.BIST.LCS.STATE, 2)]) = 6 ∧ act (tStg 3 [(R.TASK.XSTAT.STATE, 2)]) = 7 ∧
    (2 : BitVec 4).toNat ≤ 2 ∧ firstReason [(1, decide (2 < (3 : BitVec 4).toNat)), (2, false)] = 1 := by decide +kernel

/-- A header fails step 1, 2 or 3, or none; a manifest that its header names. -/
theorem witness_PackagesAreCheckedInOrder_header :
    let s := { tStg 0 with upd := { (tStg 0).upd with keys := tKeys } }
    s.headCheck (tHdr 1 1) = 0 ∧ s.headCheck { tHdr 1 1 with magic := 0 } = 1 ∧ s.headCheck { tHdr 1 1 with part := 1 } = 2 ∧
    s.headCheck { tHdr 1 1 with keyid := 2 } = 3 ∧ badManifest (tHdr 1 1) tMan = false := by
  intro s
  refine ⟨?_, by decide +kernel, by decide +kernel, by decide +kernel, tHdr_bad 1 1⟩
  have h := tHead_ok s rfl (by decide +kernel) (by decide +kernel) (by decide +kernel) 1 1 [1, 2, 3, 4] (by decide) (by decide)
  unfold State.headCheck
  apply firstReason_none
  have k : s.kinds = [1, 2, 3, 4] := by decide +kernel
  rw [k, List.all_append]
  unfold State.sealSteps at h
  rw [List.all_append, Bool.and_eq_true] at h
  rw [h.1]; rfl

/-- A package whose manifest is signed, while its blocks are applied. -/
theorem witness_PackagesAreCheckedInOrder_sealed :
    let s := { tStg 2 with upd := { (tStg 2).upd with keys := tKeys } }
    s.signed (tHdr 1 1).keyid.toNat tMan.siglen.toNat (leBytes 32 (tHdr 1 1).mandig.toNat) tMan.msig = true ∧ s.get R.UPD.STATE.fld = 2 :=
  ⟨(tSigned _ rfl 1 (.inl rfl) _).1, by decide +kernel⟩

/-- The record that the bytes of an empty stream, or of four zero words of record and length, hold (R335). -/
theorem test_takeRec : takeRec [] = none ∧ takeRec [5, 0, 0, 0x40, 0, 0, 0, 0, 9] = some (⟨4, 5, 0, []⟩, [9]) := by decide

/-- The records of a stream where none is due; a stream in which there is none where one is due. -/
theorem witness_PackagesAreCheckedInOrder_blocks :
    (∃ at_ : List (List Byte), at_.length = ([] : List DeltaRec).length + 1 ∧ at_.head? = some [] ∧ at_.getLast? = some [] ∧
      ∀ i x, ([] : List DeltaRec)[i]? = some x → ∃ a b, at_[i]? = some a ∧ at_[i + 1]? = some b ∧ takeRec a = some (x, b)) ∧
    ([] : List (List Byte)).length = tMan.digests.length ∧ (tStg 2).upd.stream = [] ∧
    (∀ (l : List DeltaRec) (at_ : List (List Byte)), l.length = 1 → at_.length = l.length + 1 → at_.head? = some [] →
      ¬ ∀ i x, l[i]? = some x → ∃ a b, at_[i]? = some a ∧ at_[i + 1]? = some b ∧ takeRec a = some (x, b)) ∧
    (tStg 2).signed 1 3309 [] [] = false ∧ badManifest { tHdr 1 1 with manlen := 261 } tMan = true ∧
    ([] : List Byte).length < ({ tHdr 1 1 with datalen := 1 } : PkgHeader).datalen.toNat ∧ (tHdr 1 1).datalen.toNat ≤ ([] : List Byte).length := by
  refine ⟨⟨[[]], rfl, rfl, rfl, fun i x h => by simp at h⟩, by decide, rfl, ?_, by decide +kernel, by decide +kernel, by decide, by decide⟩
  intro l at_ hl ha hh h
  obtain ⟨x, rfl⟩ := List.length_eq_one_iff.1 hl
  obtain ⟨a, b, h0, -, ht⟩ := h 0 x rfl
  rw [List.head?_eq_getElem?, h0] at hh
  obtain rfl : a = [] := by simpa using hh
  simp [test_takeRec.1] at ht

/-! ## Owner, power, tests, life cycle, registers -/

/-- An owner message for the module of serial number 0 and the challenge 0x100000002. -/
def tOwn (action : Byte) : OwnerMsg :=
  let m : OwnerMsg := { magic := 0x7A3115A0, action := action, serial := 0, chal := 0x100000002, keyid := 0x20, newKey := [], siglen := 2420, sig := [] }
  { m with sig := tSign (ownerBytes m) }

/-- A module in MANUFACTURE to which ST0 read that challenge, with an owner message staged. -/
def tOwner (action : Byte) (keys : List KeyEnt := []) : State :=
  let s := tRun 1 [(R.BIST.LCS.STATE, 1)]
  { s with
    preq := [(reqKey .st0 R.UPD.OCHAL_LO.all.off, 2), (reqKey .st0 (R.UPD.OCHAL_LO.all.off + 1), 1), (reqKey .st0 R.UPD.OCHAL_HI.all.off, 1)]
    upd := { s.upd with owner := some (tOwn action), keys := keys } }

theorem witness_OwnerAndMaintenanceFollowTheirRules :
    let s := tOwner 3
    s.steward (.eng 0) = false ∧ s.steward .st0 = true ∧ (tRun 1).upd.owner = none ∧ s.upd.owner = some (tOwn 3) ∧ (tOwn 3).magic = 0x7A3115A0 ∧
    (tOwn 3).action = 3 ∧ (tOwn 3).serial.toNat = s.get R.ID.SERIAL_LO.SN + 2 ^ 32 * s.get R.ID.SERIAL_HI.SN ∧
    (s.preqGet .st0 (R.UPD.OCHAL_LO.all.off + 1) = 1 ∧
      (s.preqGet .st0 R.UPD.OCHAL_LO.all.off).toNat + 2 ^ 32 * (s.preqGet .st0 R.UPD.OCHAL_HI.all.off).toNat = (tOwn 3).chal.toNat) ∧ (tOwn 3).keyid = 0x20 ∧
    s.get R.BIST.LCS.STATE = 1 ∧ s.get R.UPD.OWNER.OWNKEY = 0 ∧ s.preqGet .st1 (R.UPD.OCHAL_LO.all.off + 1) ≠ 1 ∧ s.session = none ∧
    { s with session := some .owner }.session ≠ none ∧ s.get R.CFG.STATUS.PEND = 0 ∧ (tRun 1 [(R.CFG.STATUS.PEND, 1)]).get R.CFG.STATUS.PEND ≠ 0 ∧
    (tRun 1).get R.BIST.LCS.STATE ≠ 1 ∧ { s with upd := { s.upd with idKey := true } }.upd.idKey = true ∧ s.txOpen = true ∧ (tS).txOpen = false ∧ s.upd.idKey = false ∧
    ¬ (s.preqGet .st1 (R.UPD.OCHAL_LO.all.off + 1) = 1) := by decide +kernel

/-- Actions 1 and 2 need the owner's signature. -/
theorem witness_OwnerAndMaintenanceFollowTheirRules_signed :
    ∀ a ∈ [(1 : Byte), 2], (tOwner a [⟨0x20, false, false, tKey⟩]).signed 0x20 (tOwn a).siglen.toNat (ownerBytes (tOwn a)) (tOwn a).sig = true := by
  intro a _
  have e : (tOwner a [⟨0x20, false, false, tKey⟩]).signed 0x20 (tOwn a).siglen.toNat (ownerBytes (tOwn a)) (tOwn a).sig =
      (true && mlVerify false tKey (ownerBytes (tOwn a)) [] (tSign (ownerBytes (tOwn a)))) := rfl
  rw [e, tSign_ok]; rfl

/-- Sessions of the owner and of a Hafahild key of the store, and one whose key is revoked. -/
theorem witness_OwnerAndMaintenanceFollowTheirRules_session :
    let opens (keys : List KeyEnt) (root : Nat) (mldsa chains : Bool) : Bool :=
      mldsa && chains && (tOwner 3 keys).session.isNone && (tOwner 3 keys).upd.keys.any fun k => k.id = root && !k.revoked
    opens [⟨0x20, false, false, []⟩] 0x20 true true = true ∧ opens [⟨5, false, false, []⟩] 5 true true = true ∧
    opens [⟨5, false, true, []⟩] 5 true true = false ∧ opens [⟨5, false, false, []⟩] 5 true false = false ∧ opens [⟨0x30, true, false, []⟩] 0x30 true true = true := by
  decide +kernel

theorem witness_PowerTestsAndLifeCycleFollowTheirRules :
    let s := tRun 1 [(R.BIST.LCS.STATE, 2)]
    let fail := { s with sup := { s.sup with supplyOk := false } }
    let down := { tRun 1 [(R.SUP.STATE.MSTATE, 4)] with sup := { (tRun 1).sup with supplyOk := false } }
    let st (m ph ticking : Nat) : State := { tRun ph [(R.SUP.STATE.MSTATE, m)] with gong := { (tRun 1).gong with ticking := ticking = 1 } }
    let opens (s : State) : Bool := if s.mstate = .run then s.get R.GONG.STATUS.PHASE = 4
      else if s.mstate ≠ .boot then s.gong.ticking && s.get R.GONG.STATUS.PHASE != 6 else false
    let dead := { s with sup := { s.sup with powered := false } }
    let begun := { s with sup := { s.sup with down := true } }
    let test (ph run n : Nat) (l : List (Fld × Nat)) : State :=
      tRun ph ([(R.BIST.LCS.STATE, 3), (R.BIST.STATUS.RUN, run), (R.BIST.STATUS.TEST, n), (R.BIST.PROG.TOTAL, 5)] ++ l)
    osrusForm .powerDown = none ∧ (test 4 1 6 []).get R.BIST.STATUS.TEST = 6 ∧
    (s.sup.powered = true ∧ s.sup.supplyOk = true) ∧ ¬ (fail.sup.supplyOk = true) ∧ dead.sup.powered = false ∧ fail.sup.powered = true ∧
    (fail.mstate = .run → fail.get R.GONG.STATUS.PHASE ≠ 2) ∧ fail.mstate ≠ .safe ∧ fail.mstate ≠ .recovery ∧ down.mstate = .safe ∧ fail.sup.down = false ∧ down.sup.down = false ∧
    begun.sup.down = true ∧ s.steward .st0 = true ∧ s.steward (.eng 0) = false ∧ (tS).mstate = .boot ∧
    (test 4 0 0 []).get R.BIST.STATUS.RUN = 0 ∧ (test 4 1 1 []).get R.BIST.STATUS.RUN = 1 ∧ (test 4 1 1 []).get R.BIST.STATUS.TEST ≠ 0 ∧
    (test 4 1 0 []).get R.BIST.STATUS.TEST = 0 ∧ (test 4 1 0 [(R.BIST.STATUS.MANUAL, 1)]).get R.BIST.STATUS.MANUAL = 1 ∧
    ((test 4 1 3 []).get R.BIST.STATUS.RUN = 1 ∧ (test 4 1 3 []).get R.BIST.STATUS.TEST = 3 ∧ (test 4 1 3 []).get R.BIST.PROG.DONE = 0) ∧ s.pair.hbLive = false ∧
    opens s = false ∧ opens (st 2 0 1) = true ∧ opens (st 4 0 1) = true ∧ opens (st 5 0 1) = true ∧ (st 5 0 1).mstate = .recovery ∧ opens (st 2 6 1) = false ∧ opens (st 2 0 0) = false ∧ opens (tS) = false ∧
    opens (test 4 0 0 []) = true ∧ s.get R.GONG.STATUS.PHASE ≠ 4 ∧ (test 4 0 0 []).get R.GONG.STATUS.PHASE = 4 ∧ (test 4 0 0 []).get R.BIST.AUTO.MASK = 0 ∧
    1 + (test 4 1 0 []).get R.BIST.PROG.DONE < (test 4 1 0 []).get R.BIST.PROG.TOTAL ∧
    (test 4 1 0 [(R.BIST.PROG.DONE, 4)]).get R.BIST.PROG.TOTAL ≤ (test 4 1 0 [(R.BIST.PROG.DONE, 4)]).get R.BIST.PROG.DONE + 1 := by decide +kernel

/-- The reasons of the steward's restarts, of START and of a life-cycle command: each, and none. -/
theorem witness_PowerTestsAndLifeCycleFollowTheirRules_reasons :
    let idle (s : State) : Bool := s.mstate = .safe || s.mstate = .recovery || s.mstate = .init || (s.mstate = .run && (s.role = .standby || s.role = .fenced)) || s.depot
    let why (s : State) : Nat := firstReason [(2, s.mstate = .boot), (3, !idle s)]
    let start (s : State) (n : Nat) (pre : Bool) : Nat := firstReason [(2, s.mstate = .boot || s.mstate = .recovery), (3, !(s.depot || (s.lcs = 2 && decide (n ≤ 2)))),
      (4, !pre), (5, s.get R.BIST.STATUS.RUN = 1 && s.get R.BIST.STATUS.MANUAL = 1)]
    let u := { tRun 1 [(R.BIST.LCS.STATE, 3)] with session := some .owner }
    let life (s : State) (l : List Nat) : Nat := firstReason [(8, s.bist.lcNew.isSome), (2, !l.contains s.lcs), (3, s.session.isNone)]
    why (tRun 1) = 3 ∧ why (tS) = 2 ∧ why (tRole 3) = 0 ∧ start (tS) 0 true = 2 ∧ start (tRun 1) 0 true = 3 ∧ start u 3 false = 4 ∧ start u 0 true = 0 ∧
    start (tRun 1 [(R.BIST.LCS.STATE, 2), (R.BIST.STATUS.RUN, 1), (R.BIST.STATUS.MANUAL, 1)]) 2 true = 5 ∧
    life u [3] = 0 ∧ life u [2] = 2 ∧ life (tRun 1 [(R.BIST.LCS.STATE, 3)]) [3] = 3 ∧ life { u with bist := { u.bist with lcNew := some 2 } } [3] = 8 ∧
    u.gong.ticking = false ∧ { u with gong := { u.gong with ticking := true } }.gong.ticking = true := by decide +kernel

theorem witness_RegistersAreReadAndWrittenByTheirRules :
    let s := tRun 1
    let m := { s with session := some .owner }
    let early := tRun 1 [(R.SUP.STATE.MSTATE, 2)]
    let l := { s with latch := [(reqKey .st0 R.GONG.FRAME_HI.FRAME.off, 9)] }
    let hold (d : Option DrSlot) : State := { tRun 1 [(R.BRG.STATUS.HOLD, 1)] with brg := { s.brg with slots := Vector.replicate 8 d } }
    let d : DrSlot := ⟨.eng 0, 4, 4, 0, false⟩
    (0x100000000 % 4 = 0 ∧ 0x100000000 < 0x200000000) ∧ s.get R.BRG.STATUS.HOLD = 0 ∧ (hold none).get R.BRG.STATUS.HOLD = 1 ∧
    ((hold none).brg.slots.map fun d => d.map fun x => if x.req = .core false then { x with gone := true } else x)[(0 : Fin 8)] = none ∧
    (∀ k : Fin 8, ((hold (some d)).brg.slots.map fun d => d.map fun x => if x.req = .core false then { x with gone := true } else x)[k] ≠ none) ∧
    (Req.maint = .maint ∧ s.session = none) ∧ (Req.st0 ≠ .maint ∨ s.session ≠ none) ∧ m.session ≠ none ∧ 0x10000 ≤ R.GONG.FRAME_LO.FRAME.off ∧
    tblFind l.latch (reqKey .st0 R.GONG.FRAME_HI.FRAME.off) = some 9 ∧ tblFind l.latch (reqKey .st1 R.GONG.FRAME_HI.FRAME.off) = none ∧
    s.steward .st0 = true ∧ s.steward (.eng 1) = false ∧ isPairLo 4 = false ∧ isPairLo R.SIG.FVAL_LO.VAL.off = true ∧ isPairLo (0x60800 + 32 * 63) = true ∧
    (early.mstate = .boot ∨ early.mstate = .init) ∧ s.mstate ≠ .boot ∧ s.mstate ≠ .init ∧ 3 % 4 ≠ 0 ∧
    (1 : W32).toNat % 16 = 1 ∧ (4 : W32).toNat % 16 = 4 ∧ 3 < (4 : W32).toNat % 16 ∧ (6 : W32).toNat % 16 = 6 ∧
    (regFields R.GONG.FLAG.all.off).isSome = true ∧ (regFields R.NET.CFG.PMODE.off).isSome = true ∧
    (tRun 1 [(R.CFG.EXPERT.UNLK, 1)]).get R.CFG.EXPERT.UNLK = 1 ∧ s.get R.CFG.EXPERT.UNLK = 0 ∧
    (s.mstate = .run ∨ s.mstate = .safe) ∧ (R.EVC.SCFG.EN 40).off = 0x50400 + 4 * 40 ∧
    (R.STW.CMD.CODE.off ∉ [R.SIG.QID.SIGID.off, R.NET.TSEL.INDEX.off, R.EVC.HOLDSET.TGT.off, R.EVC.HOLDCLR.TGT.off, 0x50080 + 4 * 0, 0x200044]) := by
  decide +kernel

/-- GEYSER in a FENCED module at its slice: the partner's test reported, not reported, heard before and no longer; on the way and at the last slice. -/
theorem witness_PowerTestsAndLifeCycleFollowTheirRules_geyser :
    let s (fl : BitVec 8) (before : Bool) (done : Nat) : State :=
      let s := tRun 4 [(R.BIST.LCS.STATE, 3), (R.PAIR.ROLE.fld, 4), (R.BIST.STATUS.RUN, 1), (R.BIST.STATUS.TEST, 3), (R.BIST.PROG.TOTAL, 5), (R.BIST.PROG.DONE, done)]
      { s with bist := { s.bist with geyser := before }, pair := { s.pair with hbLive := true, hb := some ⟨0, .standby, .run, 2, fl, 3, 0, 7, 0, 0, 0, 2⟩ } }
    let heard (s : State) : Bool := match s.pair.hb with
      | some h => s.pair.hbLive && h.flags.toNat / 64 % 2 == 1
      | none => false
    (s 64 false 0).role = .fenced ∧ (s 64 false 0).get R.BIST.STATUS.RUN = 1 ∧ (s 64 false 0).get R.BIST.STATUS.TEST = 3 ∧ (s 64 false 0).depot = true ∧
    heard (s 64 false 0) = true ∧ heard (s 0 false 0) = false ∧ (s 0 false 0).bist.geyser = false ∧ (s 0 true 0).bist.geyser = true ∧
    heard (s 0 true 0) = false ∧ (s 0 true 0).get R.BIST.AUTO.MASK = 0 ∧ (s 64 true 3).get R.BIST.PROG.DONE + 1 < (s 64 true 3).get R.BIST.PROG.TOTAL ∧
    (s 64 true 4).get R.BIST.PROG.TOTAL ≤ (s 64 true 4).get R.BIST.PROG.DONE + 1 ∧ (s 64 false 0).mstate = .run ∧
    (s 64 false 0).get R.GONG.STATUS.PHASE = 4 := by decide +kernel

/-- ADDRCFG.MODE written as it stands and changed, in BOOT, in INIT while ADDRESSED, and in RUN. -/
theorem witness_RegistersAreReadAndWrittenByTheirRules_address :
    let s (m : Nat) : State := tRun 1 [(R.SUP.STATE.MSTATE, m), (R.ID.ASTAT.ADDR, b2n (m = 2))]
    let off := R.CFG.ADDRCFG.MODE.off
    off % 4 = 0 ∧ (s 0).mstate = .boot ∧ (s 2).mstate = .init ∧ (s 3).mstate = .run ∧ (s 2).get R.ID.ASTAT.ADDR = 1 ∧ (s 0).get R.ID.ASTAT.ADDR = 0 ∧
    (s 2).reg off = 0 ∧ ((s 2).set R.CFG.ADDRCFG.MODE 1).reg off ≠ (s 2).reg off ∧ ((s 2).set R.CFG.ADDRCFG.MODE 0).reg off = (s 2).reg off := by decide +kernel

/-- A report of a start that loaded a program, and of one that did not. -/
theorem witness_OwnerAndMaintenanceFollowTheirRules_report :
    let s := { tRun 1 with upd := { (tRun 1).upd with idKey := true } }
    let u := { s with boot := { s.boot with prgDig := some 7 } }
    s.upd.idKey = true ∧ s.txOpen = true ∧ s.boot.prgDig = none ∧ u.boot.prgDig = some 7 ∧ u.upd.idKey = true := by decide +kernel

/-! ## WellFormed refuses what is ill formed: one term for each check -/

theorem test_wf_slice : wellFormed (.selfTestSlice true 65536 0) = false ∧ wellFormed (.selfTestSlice true 0 65536) = false := by decide
theorem test_wf_vote : wellFormed (.vote (some ⟨3, 0, 0⟩) none) = false ∧ wellFormed (.vote none (some ⟨0, 8, 0⟩)) = false ∧ wellFormed (.vote none (some ⟨0, 0, 3⟩)) = false := by decide
theorem test_wf_injection : wellFormed (.injectionTest ⟨[], [(0, ⟨3, 0, 0⟩)], []⟩) = false := by decide
theorem test_wf_frame : wellFormed (.frameReceive ⟨0, 0, none, false, .other, []⟩) = false ∧ wellFormed (.frameReceive ⟨3, 0, none, false, .other, []⟩) = false := by decide
theorem test_wf_subscribe : wellFormed (.subscribeTimeout 8192) = false := by decide
theorem test_wf_sweep : wellFormed (.directorySweep (2 ^ 25)) = false ∧ wellFormed (.stewardSignalWrite (2 ^ 25) []) = false := by decide
theorem test_wf_slotcode : wellFormed (.slotCodeSample [1]) = false := by decide
theorem test_wf_plug : wellFormed (.plugRead (some []) none) = false ∧ wellFormed (.plugRead none (some [1])) = false := by decide
theorem test_wf_heartbeat :
    wellFormed (.heartbeatReceive { tHb .alone .run with frame := 2 ^ 64 }) = false ∧ wellFormed (.heartbeatReceive { tHb .alone .run with vmode := 3 }) = false ∧
    wellFormed (.heartbeatReceive { tHb .alone .run with lcs := 5 }) = false ∧ wellFormed (.heartbeatReceive { tHb .alone .run with ackf := 2 ^ 64 }) = false := by decide
theorem test_wf_copy :
    wellFormed (.geyserDataReceive (2 ^ 64) []) = false ∧
    (∀ i ∈ [CopyItem.sig (2 ^ 25) 0 [], .slot (2 ^ 20) [] false, .force 1024 [], .forceCount 1025, .skipRun 0 16, .limHit 256, .exch 0 0 [], .ssc 4096 0, .dirent (2 ^ 25) 0 0 0 0 []],
      wellFormed (.geyserDataReceive 0 [i]) = false) ∧
    wellFormed (.geyserEndReceive 0 (2 ^ 32) 0 0 0 0) = false ∧ wellFormed (.geyserAckReceive 0 2) = false ∧ wellFormed (.ackMiss (2 ^ 64)) = false ∧
    wellFormed (.bulkReceive (2 ^ 64) 0 0 0 []) = false ∧ wellFormed (.bulkReceive 0 0 (2 ^ 32) 0 []) = false ∧ wellFormed (.bulkReceive 0 0 0 0 [.limHit 256]) = false ∧
    wellFormed (.bulkendReceive (2 ^ 64)) = false ∧ wellFormed (.ctrlReceive (2 ^ 64)) = false := by decide
theorem test_wf_position :
    wellFormed (.inauguration 0 0 64 [] 0 []) = false ∧ wellFormed (.inauguration 0 0 0 [(256, [])] 0 []) = false ∧
    wellFormed (.ttdbReadDone 0 0 64 [] 0 []) = false ∧ wellFormed (.ttdbReadDone 0 0 0 [(256, [])] 0 []) = false := by decide
theorem test_wf_register :
    wellFormed (.loRegisterRead .st0 0x110000) = false ∧ wellFormed (.loRegisterWrite .st0 2 0) = false ∧ wellFormed (.hiRegisterWrite .st0 0x110000 0) = false ∧ wellFormed (.loRegisterRead .st0 0x200000000) = false ∧
    wellFormed (.registerWrite .st0 1 0) = false := by decide
theorem test_wf_inbound : wellFormed (.cpciInboundWrite 0 0 2 [⟨0, 0, true⟩]) = false ∧ wellFormed (.cpciInboundWrite 0 0 4 []) = false := by decide
theorem test_wf_package :
    wellFormed (.packageHeaderReceived (tHdr0 1 1)) = false ∧ wellFormed (.packageReceived { sections := [], digests := [], siglen := 1, msig := [] } []) = false ∧
    wellFormed (.packageReceived { digests := [], msig := [], siglen := 0, sections := List.replicate 9 ⟨6, 0, 0⟩ } []) = false := by decide
theorem test_wf_owner : wellFormed (.ownerMessageReceived { magic := 0, action := 0, serial := 0, chal := 0, keyid := 0, newKey := [], siglen := 1, sig := [] }) = false := by decide
theorem test_wf_accepts : wellFormed (.add 0 1 2 3 1) = true ∧ wellFormed (.registerWrite .maint 0x10FFFC 0) = true ∧ wellFormed (.loRegisterRead .st1 0x1FFFFFFFC) = true ∧ wellFormed (.subscribeTimeout 8191) = true := by decide

/-! ## What commands do: values worked out from the spec -/

/-- The state after a command. -/
def tDo (c : Instr) (s : State) : State :=
  match exec c s with
  | .next t => t
  | _ => s

/-- Register r of channel B's engine 0. -/
def tG (s : State) (r : GReg) : Word := (regsOf s .b 0).gr r

/-- Rows of the table have no bits (README of the row's table). -/
theorem test_decode_none : decodeTableWord 32 0 = none := rfl

/-- The words of the example unit (Table 5-15), read by the opcode map and the formats. -/
theorem test_decode_table_5_15 :
    decodeOsrus 0 0x7D400010 0 = .ldsq 0 10 0x10 ∧ decodeOsrus 0 0x81000010 0 = .ldsc 0 2 0 0x10 ∧ decodeOsrus 0 0x552A0000 0 = .cand 0 2 2 5 false false 0 ∧
    decodeOsrus 0 0xC1200000 0x1DCD6500 = .ldil 0 9 0 0x1DCD6500 ∧ decodeOsrus 0 0x99A09000 0 = .ton 0 3 2 9 0 0 ∧
    decodeOsrus 0 0x0980000C 0 = .addi 0 12 0 12 ∧ decodeOsrus 0 0x8D6D0000 0 = .stsx 0 11 13 0 ∧ decodeOsrus 0 0x6980100C 0 = .loop 0 12 2 12 ∧
    decodeOsrus 0 0xBC000003 0 = .yieldE 0 0 := by decide +kernel

/-- Opcodes and function codes that Tables 5-12 and 5-13 do not list, of one word and of two (R107, R138). -/
theorem test_decode_reserved :
    decodeOsrus 0 0 0 = reservedShort 0 ∧ decodeOsrus 0 0x1C000000 0 = reservedShort 0 ∧ decodeOsrus 0 0x04000016 0 = reservedShort 0 ∧
    decodeOsrus 0 0xDC000000 0 = reservedLong 0 ∧ wordLength 0xDC000000 = 8 ∧ wordLength 0xBC000003 = 4 := by decide +kernel

/-- A reserved code, of either length, raises 0x03 (R138). -/
theorem test_reserved_raises : ∀ c ∈ [reservedShort 0, reservedLong 0],
    ((tDo c (tE (tC (tK (tX))))).vote.groups.map fun g => (g.b.bind (·.exc)).map (·.code)) = [some 0x03] := by decide +kernel

/-- DEFLATE of "a" as one block of fixed codes (RFC 1951): the literal's code 10010001 after the header bits 1 and 01, then the end of block. -/
theorem test_inflate : inflate [0x4B, 0x04, 0x00] = some [0x61] := by decide +kernel

/-- The small states are powered, so that they take commands (R383). -/
theorem test_powered : (tS).sup.powered = true ∧ (tRun 1).sup.powered = true := by decide +kernel

theorem test_idle_cycle : (match step { tRun 1 [(R.TIME.INCR_HI.NS, 4)] with pending := [] } with
    | .next t => (t.clk, t.solNs)
    | _ => (0, 0)) = (4 * 2 ^ 32, 4) := by decide +kernel
theorem test_add_wraps : tG (tDo (.add 0 3 1 2 0) (tE (tC (tK (tX 0xFFFFFFFFFFFFFFFF 2))))) 3 = 1 := by decide +kernel
theorem test_mulh_signed : tG (tDo (.mulh 0 3 1 2 0) (tE (tC (tK (tX 0xFFFFFFFFFFFFFFFF 2))))) 3 = 0xFFFFFFFFFFFFFFFF := by decide +kernel
theorem test_mulhu : tG (tDo (.mulhu 0 3 1 2 0) (tE (tC (tK (tX 0xFFFFFFFFFFFFFFFF 2))))) 3 = 1 := by decide +kernel
theorem test_div_toward_zero : tG (tDo (.div 0 3 1 2 0) (tE (tC (tK (tX 0xFFFFFFFFFFFFFFF9 2))))) 3 = 0xFFFFFFFFFFFFFFFD := by decide +kernel
theorem test_div_most_negative : tG (tDo (.div 0 3 1 2 0) (tE (tC (tK (tX 0x8000000000000000 0xFFFFFFFFFFFFFFFF))))) 3 = 0x8000000000000000 := by decide +kernel
theorem test_rem_sign : tG (tDo (.rem 0 3 1 2 0) (tE (tC (tK (tX 0xFFFFFFFFFFFFFFF9 2))))) 3 = 0xFFFFFFFFFFFFFFFF := by decide +kernel
theorem test_sext_byte : tG (tDo (.sext 0 3 1 0 0) (tE (tC (tK (tX 0x80))))) 3 = 0xFFFFFFFFFFFFFF80 := by decide +kernel
theorem test_shi_sra : tG (tDo (.shi 0 3 1 (128 + 63)) (tE (tC (tK (tX 0x8000000000000000))))) 3 = 0xFFFFFFFFFFFFFFFF := by decide +kernel
theorem test_shi_reserved_kind : (tDo (.shi 0 3 1 192) (tE (tC (tK (tX 5))))).vote.groups.length = 1 := by decide +kernel
theorem test_ldih : tG (tDo (.ldih 0 1 0 0x12345678) (tE (tC (tK (tX 0xAAAAAAAABBBBBBBB))))) 1 = 0x12345678BBBBBBBB := by decide +kernel
theorem test_bc_taken : (regsOf (tDo (.bc 0 0 false 2) (tE (tC (tK (tX 5))))) .b 0).pc = 0x1018 := by decide +kernel
theorem test_loop_falls_through : (regsOf (tDo (.loop 0 1 1 5) (tE (tC (tK (tX 1))))) .b 0).pc = 0x1014 := by decide +kernel
theorem test_loop_bound : ((tDo (.loop 0 1 1 5) (tE (tC (tK (tX 6))))).ch .b).insts = [] := by decide +kernel
theorem test_ldb_code : tG (tDo (.ldb 0 3 1 0) (tE (tC (tK (tX 0x1000))))) 3 = 0x5A := by decide +kernel
theorem test_stw_little_endian :
    (tblFind ((tDo (.stw 0 2 1 0) (tE (tC (tK (tX 0x60000004 0x1122334455667788))))).ch .b).insts 5).map (·.scratch) =
      some [(0x60000004, 0x88), (0x60000005, 0x77), (0x60000006, 0x66), (0x60000007, 0x55)] := by decide +kernel

/-- The instance of task 5 with a snapshot of signal 4. -/
def tSnap : Inst := { tI with snap := [(4, ⟨1, [0xFE, 0xFF, 0xFF, 0xFF]⟩)] }

theorem test_lds_signed : tG (tDo (.lds 0 3 4) (tE (tC (tK (tX 0)) tSnap tD))) 3 = 0xFFFFFFFFFFFFFFFE := by decide +kernel
theorem test_fadd : tG (tDo (.fadd 0 3 1 2 false 0) (tE (tC (tK (tX 0x3F800000 0x40000000))))) 3 = 0x40400000 := by decide +kernel
theorem test_fdiv_by_zero : fieldOf (regsOf (tDo (.fdiv 0 3 1 2 true 0) (tE (tC (tK (tX 0x3FF0000000000000 0))))) .b 0).st 11 5 ≠ 0 := by decide +kernel
theorem test_gong_first_tick :
    ((tDo .gongTick { tRun 4 with clk := 2 ^ 32 * 600000 }).gong.frame, (tDo .gongTick { tRun 4 with clk := 2 ^ 32 * 600000 }).gong.next) = (2, 750000) := by
  decide +kernel
theorem test_vote_excludes : (tDo (.vote none none) (tV 7 1 1 2)).incl = [.a, .b] := by decide +kernel
theorem test_vote_two_differ : (tDo (.vote none none) (tV 6 1 1 2)).get R.SUP.CAUSE.CODE = 2 := by decide +kernel
theorem test_force_undefined : (tDo (.forceSet .st0) (tSig [] [(R.SIG.FSIG.SIGID, 4)])).get R.SIG.FREASON.CODE = 2 := by decide +kernel
theorem test_write_one_to_clear : (tDo (.registerWrite .st0 R.GONG.FLAG.LATE.off 0xFFFFFFFF) (tRun 1 [(R.GONG.FLAG.LATE, 1)])).get R.GONG.FLAG.LATE = 0 := by
  decide +kernel
theorem test_lo_hi_pair :
    (tDo (.hiRegisterWrite .st0 R.SIG.FVAL_HI.VAL.off 7) (tDo (.loRegisterWrite .st0 R.SIG.FVAL_LO.VAL.off 9) (tRun 1))).getPair R.SIG.FVAL_LO.VAL R.SIG.FVAL_HI.VAL =
      7 * 2 ^ 32 + 9 := by decide +kernel

/-- CRC-32 (IEEE 802.3) of "123456789" is CBF43926, its published check value. -/
theorem test_crc32 : crc32 [0x31, 0x32, 0x33, 0x34, 0x35, 0x36, 0x37, 0x38, 0x39] = 0xCBF43926 := by decide +kernel
/-- SHA3-256 of no bytes (FIPS 202's published value a7ffc6f8…8434a), the first byte lowest. -/
theorem test_sha3 : (sha3 []).toNat % 2 ^ 32 = 0xF8C6FFA7 := by decide +kernel

/-! ## What a tick and a commit do -/

/-- Forces: the last command on signal 4 sets it, that on 5 clears it, none is on 6; CLEARALL takes the force of 5. -/
theorem witness_TicksTakeCommandsAndBeginRun :
    let x : DirEnt := ⟨0x4, 0, 0, 0, [0, 0, 0, 0]⟩
    let s := { tSig [(4, x), (5, x)] with fcmds := [.clear 4, .set 4 7, .clear 5], forces := [⟨5, 0, 1⟩] }
    let u := { s with fcmds := [.set 4 7, .clearAll] }
    let last (s : State) (id : Nat) : Option ForceCmd := (s.fcmds.filter fun c => match c with
      | .set k _ => k == id
      | .clear k => k == id
      | .clearAll => true).getLast?
    s.mstate ≠ .boot ∧ last s 4 = some (.set 4 7) ∧ last s 5 = some (.clear 5) ∧ last s 6 = none ∧ last u 4 = some .clearAll ∧ s.follows .a = true ∧
    tblFind (s.ch .a).dir 4 = some x ∧ s.fcmds ≠ [] ∧ (s.forceTick.forceOf 4).isSome = true ∧ s.forceTick.forceOf 5 = none ∧ (s.forceOf 5).isSome = true := by
  decide +kernel

/-- Life-cycle commands: none, RETIRED in INIT, SERVICE from MANUFACTURE and from DEPOT, and DEPOT left before; a force on a signal of SCLASS 1. -/
theorem witness_TicksTakeCommandsAndBeginRun_lifecycle :
    let x : DirEnt := ⟨0x02000004, 0, 0, 0, [0, 0, 0, 0]⟩
    let s (ms lcs : Nat) (n : Option Nat) (left : Bool) : State :=
      let s := tSig [(4, x), (5, { x with w0 := 4 })] [(R.SUP.STATE.MSTATE, ms), (R.BIST.LCS.STATE, lcs)]
      { s with bist := { s.bist with lcNew := n, dropSil := left }, forces := [⟨4, 0, 1⟩] }
    (s 3 2 none false).bist.lcNew = none ∧ (s 3 2 none false).bist.dropSil = false ∧ (s 2 2 (some 4) false).bist.lcNew = some 4 ∧
    (s 2 2 (some 4) false).mstate = .init ∧ (s 3 1 (some 2) false).bist.lcNew.isSome = true ∧ (s 3 1 (some 2) false).lcs = 1 ∧
    (s 3 3 (some 2) false).lcs = 3 ∧ (s 3 2 none true).bist.dropSil = true ∧ (s 3 2 none true).dirEnt 4 = some x ∧ 1 ≤ x.sclass ∧ x.sclass ≤ 4 ∧
    (s 3 2 none true).dirEnt 5 = some { x with w0 := 4 } ∧ ({ x with w0 := 4 } : DirEnt).sclass = 0 ∧ (∃ f ∈ (s 3 2 none true).forces, f.id = 4) := by
  decide +kernel

/-- A channel with a signal the start has not updated, one that has been, a retained one, and timers that do and do not count wall time. -/
def tOld : Chan :=
  { Chan.reset with
    dir := [(4, ⟨0x4, 0, 0, 0x20, [0, 0, 0, 0]⟩), (5, ⟨0x4, 0, 0, 1, [0, 0, 0, 0]⟩), (6, ⟨0x00200004, 0, 0, 0x20, [0, 0, 0, 0]⟩)]
    slots := [(1, ⟨0x1C000000, 0, 0, 0, 1, false⟩), (2, ⟨0x18000000, 0, 0, 0, 1, false⟩), (3, ⟨0x10000000, 0, 0, 0, 1, false⟩)] }

/-- INIT at its end, before frame 10, with the role `d`, a slot on trial if `trial`, and what a warm restart restored of frame 3 if `warm`. -/
def tReady (d : Role × Nat) (trial warm : Bool) (flags : Byte := 0) : State :=
  let b := { BootSt.reset with program := true, role := some d, slot := some 0, fRec := if warm then some 3 else none }
  let s := tInit b [(R.SUP.STATE.STORE, 1), (R.BIST.LCS.STATE, 2), (R.TIME.STATUS.SYNC, 1), (R.UPD.STATE.TRIAL, b2n trial)]
  let r : RetBuf := ⟨0, 3, 0, 0, 0, false, true, 1, 0, []⟩
  let i : FlashImg := { tFlash 1 with hdr := { tHdr0 1 1 with flags := flags } }
  { s with
    chA := tOld, chB := tOld, chC := tOld, gong := { s.gong with frame := 9, tick := 2250000, next := 2500000, ticking := true }
    ret := { s.ret with a := ⟨some r, none⟩, b := ⟨some r, none⟩ }, upd := { s.upd with slotA := some i } }

theorem witness_TicksTakeCommandsAndBeginRun_begin :
    (∀ d ∈ [(Role.alone, 0), (.standby, 0), (.fenced, 3)],
      let e := (tReady d false false).tickEdge
      e.mstate = .init ∧ e.boot.program = true ∧ e.boot.role = some d ∧ e.get R.SUP.STATE.STORE = 1 ∧ e.get R.SUP.STATE.STOPC = 0 ∧ e.lcs ≠ 0 ∧
      e.lcs ≠ 4 ∧ e.get R.BRG.STATUS.HOLD = 0) ∧
    (∀ fl ∈ [(0 : Byte), 2],
      let e := (tReady (.alone, 0) true false fl).tickEdge
      e.get R.UPD.STATE.TRIAL ≠ 0 ∧ e.boot.slot = some e.actSlot ∧ ∃ i, e.img e.actSlot = some i ∧ i.hdr.flags = fl) := by
  refine ⟨by decide +kernel, ?_⟩
  intro fl h
  rcases List.mem_cons.mp h with rfl | h
  · exact ⟨by decide +kernel, by decide +kernel, _, rfl, rfl⟩
  · obtain rfl := List.mem_singleton.mp h
    exact ⟨by decide +kernel, by decide +kernel, _, rfl, rfl⟩

/-- What a record of frame 3, locked to network time, restored at frame 10; and with nothing restored. -/
theorem witness_TicksTakeCommandsAndBeginRun_restored :
    let e := (tReady (.alone, 0) false true).tickEdge
    let r : RetBuf := ⟨0, 3, 0, 0, 0, false, true, 1, 0, []⟩
    e.restoredRec = some r ∧ (tReady (.alone, 0) false false).tickEdge.restoredRec = none ∧ e.follows .a = true ∧ e.gong.frame = 10 ∧
    r.tlock = true ∧ e.get R.TIME.STATUS.SYNC = 1 ∧ r.frame < 10 ∧ e.gong.tick < r.wallNs + 10000000000 ∧ r.proven.getLsbD 0 = true ∧ e.inFaults 0 = [] ∧
    (e.ch .a).dir = tOld.dir ∧ (e.ch .a).slots = tOld.slots ∧ e.boot.fRec.isSome = true ∧
    (∀ p ∈ tOld.slots, p.2.ret = decide (p.1 ≠ 3) ∧ p.2.wall = decide (p.1 = 1) ∧ p.2.kind = 1) := by
  decide +kernel

/-- Class 1 due in frame 10 with task 5; a task of it held back; an instance and a cycle of frame 9 of class 0 (2 frames) go on, those of class 1 (1 frame) do not. -/
def tDue (l : List (Fld × Nat) := []) : State :=
  let s := tRun 0 ([(R.TASK.PER.EN 1, 1), (R.TASK.PER.EXP 0, 1), (R.PAIR.ROLE.fld, 1)] ++ l)
  let c : Chan :=
    { Chan.reset with
      dir := [(3, ⟨0x01000004, 0, 0, 1, [0, 0, 0, 0]⟩), (4, ⟨0x4, 0, 1, 0x801, [1, 2, 3, 4]⟩), (6, ⟨0x4, 0, 1, 1, [1, 2, 3, 4]⟩)]
      insts := [(5, { tI with fr := 9 }), (7, { tI with td := { tI.td with id := 7, cls := 0 }, fr := 9 })]
      eng := Chan.reset.eng.set 0 { EngC.reset with cbuf := [⟨0, 0, 0, 0, 5, false, 9, 0⟩, ⟨0, 0, 0, 0, 7, false, 9, 0⟩] } }
  { s with
    chA := c, chB := c, chC := c, gong := { s.gong with frame := 10 }, bank0 := some { tP with tasks := tP.tasks ++ [⟨8, 1, 0, 1, 0, 0, true, 0, 0, 0⟩] }
    forces := [⟨4, 0, 9⟩], seqr := { s.seqr with cycles := [(0, ⟨9, [7], false⟩), (1, ⟨9, [5], false⟩)] } }

theorem witness_TicksReleaseTheClasses :
    let s := tDue
    let p : Program := { tP with tasks := tP.tasks ++ [⟨8, 1, 0, 1, 0, 0, true, 0, 0, 0⟩] }
    s.mstate = .run ∧ s.leads = true ∧ (tRun 0 [(R.PAIR.ROLE.fld, 3)]).leads = false ∧ (tRun 0 [(R.SUP.STATE.MSTATE, 2)]).mstate ≠ .run ∧
    tblFind (s.ch .a).insts 5 = some { tI with fr := 9 } ∧ s.executing .a = true ∧ (s.set R.VOTE.MODE.INCL 6).executing .a = false ∧
    (s.get (R.TASK.PER.EN 1) = 1 ∧ ((s.gong.frame : Int) - s.get (R.TASK.PER.PHASE 1)) % 2 ^ s.get (R.TASK.PER.EXP 1) = 0) ∧ s.get (R.TASK.PER.EN 0) ≠ 1 ∧
    s.progOf 1 = some p ∧ tI.td ∈ p.tasks ∧ tI.td.cls.val = 1 ∧ ¬ (tI.td.net = true ∧ s.get R.ID.ASTAT.ADDR = 0) ∧
    (⟨8, 1, 0, 1, 0, 0, true, 0, 0, 0⟩ : TaskDesc) ∈ p.tasks ∧ s.get R.ID.ASTAT.ADDR = 0 ∧ p.reads.getD 1 [] = [3, 4, 6] ∧
    s.forceOf 4 = some ⟨4, 0, 9⟩ ∧ s.forceOf 6 = none ∧ s.forceOf 3 = none ∧ s.wrongBits .a = 0 ∧
    (∀ x ∈ (s.ch .a).dir, x.2.type ≠ 0) ∧ ((s.ch .a).dir.map fun x => x.2.home) = [4, 0, 0] ∧
    (let x : DirEnt := ⟨0x4, 0, 1, 1, [1, 2, 3, 4]⟩
     tblFind (s.ch .a).dir 6 = some x ∧ x.fresh ≠ 0 ∧ min (x.fresh * x.funit) (2 ^ 20 * s.pNs) < (s.gong.frame + 2 ^ 24 - x.stamp) % 2 ^ 24 * s.pNs) := by
  decide +kernel

/-- Which instances, cycles and held stores go on, and the engines that one re-phase back leads to the frame of release itself. -/
theorem witness_TicksReleaseTheClasses_passed :
    let s := tDue
    let within (fr k : Nat) : Prop := fr < s.gong.frame ∧ s.gong.frame < fr + 2 ^ s.get (R.TASK.PER.EXP k)
    within 9 0 ∧ ¬ within 9 1 ∧ ¬ within 10 0 ∧ (s.ch .a).eng[(0 : Eng)].cbuf.map (fun x => x.task) = [5, 7] ∧ s.seqr.cycles.map (fun p => p.1) = [0, 1] := by
  decide +kernel

/-- The address changes that are due and not due. -/
theorem witness_TicksActInTheUnits :
    let s (n : Option Bool) : State := let s := tRun 0; { s with net := { s.net with addrNext := n } }
    (s none).net.addrNext = none ∧ (s none).get R.ID.ASTAT.ADDR = 0 ∧ (s (some true)).net.addrNext = some true ∧ (s (some true)).ucause ≠ 0 ∧
    (s (some false)).net.addrNext = some false := by
  decide +kernel

/-- Slot code and plug valid and the probes done: no cause keeps the module unaddressed, if its host number is in order (log 35). -/
theorem witness_TicksActInTheUnits_address (h : Config.hostOk 0 = true) :
    let s := tRun 0 [(R.ID.SLOT.VALID, 1), (R.ID.PLUG.VALID, 1)]
    { s with net := { s.net with addrNext := some true }, boot := { s.boot with probed := true, posRead := true, pos := some (1, 1) } }.ucause = 0 := by
  intro s
  have e : { s with net := { s.net with addrNext := some true }, boot := { s.boot with probed := true, posRead := true, pos := some (1, 1) } }.hostId = 0 := by decide +kernel
  unfold State.ucause
  rw [e, h]; decide +kernel

/-- The arm at its tick: against the version that runs, which no condition turns away, or with a signal of SCLASS 4 forced; not armed, or in another state. -/
theorem witness_TicksActInTheUnits_arm :
    let s (x fc : Nat) (arm : Bool) : State :=
      let s := tSig [(4, ⟨0x08000004, 0, 0, 0, [0, 0, 0, 0]⟩)] [(R.TASK.XSTAT.STATE, x), (R.SPD.STATUS.STILL, 1)]
      { s with forces := if fc = 1 then [⟨4, 0, 0⟩] else [], bank0 := some tP, bank1 := some { tP with segs := [] }, xch := { s.xch with arm := arm } }
    (s 2 0 false).xch.arm = false ∧ (s 2 0 true).xch.arm = true ∧ (s 1 0 true).xstate ≠ 2 ∧ (s 2 0 true).xstate = 2 ∧ (s 2 0 true).prog = some tP ∧
    (s 2 0 true).shadow = some { tP with segs := [] } ∧
    firstReason (s 2 0 true).armSteps = 0 ∧ firstReason (s 2 1 true).armSteps ≠ 0 := by
  decide +kernel

/-- A channel in each state, before and at the ticks of its resync. -/
theorem witness_TicksActInTheUnits_resync :
    let s (st : Nat) (k : Option Nat) (old : List Nat) (f : Nat) : State :=
      let s := tRun 0 [(R.VOTE.MODE.INCL, 3), (R.VOTE.CHST.CH 2, st)]
      { s.setChRec .c ⟨old, none, none, k⟩ with clk := 2 ^ 32 * 3600000000000, gong := { s.gong with frame := f } }
    let recent (s : State) : List Nat := (s.chRec .c).attempts.filter fun x => decide (s.nowNs < x + 3600000000000)
    ((s 0 none [] 1).chst .c = 0 ∧ (s 4 none [] 1).chst .c = 4 ∧ (s 1 none [] 1).chst .c = 1) ∧
    recent (s 1 none [0, 1, 2, 3] 1) = [1, 2, 3] ∧ (recent (s 1 none [0, 1, 2] 1)).length < 3 ∧
    (s 2 (some 7) [] 8).chst .c = 2 ∧ ((s 2 (some 7) [] 8).chRec .c).bulkK = some 7 ∧ (s 2 (some 7) [] 8).gong.frame < 7 + 2 ∧
    7 + 2 ≤ (s 2 (some 7) [] 9).gong.frame ∧ (s 3 (some 7) [] 9).chst .c = 3 ∧ (s 3 (some 7) [] 9).gong.frame < 7 + 3 ∧
    7 + 3 ≤ (s 3 (some 7) [] 10).gong.frame := by
  decide +kernel

/-- A HOME 2 signal of each kind of item: input 0, pair 0, proof 0, active 0, faulty 0, and no item. -/
theorem witness_TicksActInTheUnits_items :
    (∀ h ∈ [0, 0x10, 0x20, 0x30, 0x38, 0x18],
      let x : DirEnt := ⟨0x00800001, 0, BitVec.ofNat 32 (h * 2 ^ 18), 0, [0]⟩
      let s := tSig [(4, x)]
      tblFind (s.ch s.leadCh).dir 4 = some x ∧ (∀ p ∈ (s.ch s.leadCh).dir, p.1 = 4 → p.2 = x) ∧ x.type ≠ 0 ∧ x.home = 2 ∧ x.href = h ∧
      s.follows .b = true ∧ tblFind (s.ch .b).dir 4 = some x) := by decide +kernel

/-- No edge yet, one edge, two edges; one sensor in use, both, none. -/
theorem witness_TicksBoundTheSpeed :
    let s (mode : Nat) (e : List Nat) : State :=
      let s := tRun 0 [(R.SPD.STATUS.MODE, mode), (R.SPD.THR.LIMIT 0, 100), (R.SPD.THR.HYST 0, 100)]
      { s with gong := { s.gong with tick := 5000000 }, spd := { s.spd with runNs := 1, s0 := { SenSt.reset with edges := e }, s1 := { SenSt.reset with edges := e } } }
    ((s 1 []).sen 0).edges.head?.getD (s 1 []).spd.runNs < (s 1 []).gong.tick ∧ ((s 1 [3]).sen 0).edges.length < 2 ∧
    ((s 1 [9, 3]).sen 0).edges = [9, 3] ∧ (3 : Nat) < 9 ∧ (s 3 []).spdMode = 3 ∧ (s 0 []).spdMode = 0 ∧ (s 1 [9, 3]).inUse.length = 1 ∧
    (s 0 [9, 3]).inUse = [0, 1] ∧ ((s 1 [5000000, 5000000]).bounds 0 5000000).1 = none ∧ (0 : Fin 2) ∈ (s 1 []).inUse ∧ (s 1 [9, 3]).spdMode ≠ 3 ∧ (s 1 []).get (R.SPD.THR.HYST 0) ≤ (s 1 []).get (R.SPD.THR.LIMIT 0) := by
  decide +kernel

/-- The last 8 edges of the one sensor in use forward, reverse, and neither; a HOME 3 signal of each item, and of none. -/
theorem witness_TicksBoundTheSpeed_items :
    let s (d : List Bool) : State :=
      let s := tRun 0 [(R.SPD.STATUS.MODE, 1)]; { s with spd := { s.spd with s0 := { SenSt.reset with dirs := d } } }
    (s (List.replicate 8 true)).inUse = [0] ∧ ((s (List.replicate 8 true)).sen 0).dirs = List.replicate 8 true ∧
    ((s (List.replicate 8 false)).sen 0).dirs = List.replicate 8 false ∧ ((s [true]).sen 0).dirs ≠ List.replicate 8 true ∧
    (∀ h ∈ [0, 1, 2, 3, 4, 5, 6, 0x10, 0x17, 7],
      let x : DirEnt := ⟨0x00C00004, 0, BitVec.ofNat 32 (h * 2 ^ 18), 0, [0, 0, 0, 0]⟩
      let u := tSig [(4, x)]
      tblFind (u.ch u.leadCh).dir 4 = some x ∧ (∀ p ∈ (u.ch u.leadCh).dir, p.1 = 4 → p.2 = x) ∧ x.type ≠ 0 ∧ x.home = 3 ∧ x.size ≤ 4 ∧ x.href = h ∧
      u.follows .b = true) := by decide +kernel

theorem witness_CommitsWriteAndRelease :
    let s := tCommit
    s.mstate = .run ∧ s.get R.GONG.STATUS.PHASE = 2 ∧ s.commitVotes.mstate = .run ∧ s.commitVotes.works = true ∧
    (tRun 2 [(R.PAIR.ROLE.fld, 3)]).leads = false ∧ (tRun 2).leads = true ∧ ((tRun 2).net.pub.map (·.1)).Nodup := by
  have h := witness_CommitEndsTheFrame
  exact ⟨h.1, h.2.1, h.2.2.1, h.2.2.2.1, by decide +kernel, by decide +kernel, by decide +kernel⟩

/-- Two instances that commit, both writing signal 4; 6 written by one; 9 by none. A held store of A alone, agreed by A and B. -/
theorem witness_CommitsWriteAndRelease_writes :
    let i : Inst := { tI with wset := [(4, [1, 0, 0, 0]), (6, [2, 0, 0, 0])], slots := [(8, tSl 1 0)] }
    let j : Inst := { tI with wset := [(4, [3, 0, 0, 0])] }
    let x : CbEntry := ⟨0, 0, 1, 0, 5, true, 4, 3⟩
    let c : Chan :=
      { tDir [(4, ⟨0x4, 0, 0, 0, [0, 0, 0, 0]⟩), (6, ⟨0x4, 0, 0, 0, [0, 0, 0, 0]⟩), (9, ⟨0x4, 0, 0, 0, [0, 0, 0, 0]⟩)] with
        insts := [(5, i), (6, j)], eng := Chan.reset.eng.set 0 { EngC.reset with cbuf := [x] } }
    let s := { tRun 2 with chA := c, chB := c, chC := c }
    s.follows .a = true ∧ s.executing .a = true ∧ ([5, 6].filterMap fun k => tblFind (s.ch .a).insts k) = [i, j] ∧
    (∀ k ∈ [i, j], (k.wset.map (·.1)).Nodup ∧ (k.slots.map (·.1)).Nodup) ∧
    (([i, j].filterMap fun k => (tblFind k.wset 4).map fun v => (k, v)).getLast? = some (j, [3, 0, 0, 0])) ∧
    ([i, j].filterMap fun k => (tblFind k.wset 9).map fun v => (k, v)) = [] ∧
    (([i, j].filterMap fun k => tblFind k.slots 8).getLast? = some (tSl 1 0)) ∧ ([i, j].filterMap fun k => tblFind k.slots 7) = [] ∧
    s.releaseCh 0 x = some .a ∧
    (∀ d ∈ [Ch.b, .c], ∀ y ∈ (s.ch d).eng[(0 : Eng)].cbuf, y.frame = 4 → y.win = 0 → s.releaseCh 0 y ≠ some d) := by
  decide +kernel

/-- Discards of two classes, the lower last, and of a cycle that was skipped before; cycles with something and nothing left. -/
theorem witness_CommitsCountAndSwitch :
    let s := { tRun 2 with seqr := { (tRun 2).seqr with
      cycles := [(1, ⟨9, [5], false⟩), (2, ⟨9, [6, 7], false⟩), (3, ⟨9, [8], true⟩)], discs := [⟨2, 1, 1⟩, ⟨1, 0, 2⟩, ⟨3, 0, 1⟩] } }
    (∃ d ∈ s.seqr.discs, d.cls = 1 ∧ ∃ c, tblFind s.seqr.cycles d.cls = some c ∧ c.skipped = false) ∧
    (∀ d ∈ s.seqr.discs, d.cls = 3 → ∀ c, tblFind s.seqr.cycles d.cls = some c → c.skipped = true) ∧
    (s.seqr.cycles.map (·.1)).Nodup ∧ (∀ p ∈ s.seqr.cycles, p.1 < 8) ∧ tblFind s.seqr.cycles 1 = some ⟨9, [5], false⟩ ∧
    ([5].filter fun x => !([5, 6, 8] : List Nat).contains x) = [] ∧ ([6, 7].filter fun x => !([5, 6, 8] : List Nat).contains x) ≠ [] ∧
    tblFind s.seqr.cycles 3 = some ⟨9, [8], true⟩ ∧ Armed s ∧ (7 : Nat) < 8 := by
  decide +kernel

/-- An exchange ARMED whose class 1 switches at frame 11 and class 2 at 12: before, at the first, between, and after both. -/
theorem witness_CommitsCountAndSwitch_exchange :
    let b : Program := { tP with sigs := [⟨4, 4, 0, 0, []⟩, ⟨6, 4, 0, 0, [1]⟩], slots := [⟨8, 0x10800000, 0, 5, 1, false, 0⟩, ⟨9, 0x40800000, 7, 5, 1, false, 0⟩] }
    let s (x sw f : Nat) : State :=
      let s := tSig [(4, ⟨4, 0, 0, 1, [9, 0, 0, 0]⟩)] [(R.TASK.XSTAT.STATE, x), (R.TASK.XSTAT.XMASK, 6), (R.TASK.XSTAT.SWMASK, sw)]
      { s with bank0 := some tP, bank1 := some b, xch := { s.xch with swf := ((Vector.replicate 8 0).set 1 11).set 2 12 }, gong := { s.gong with frame := f } }
    let due (s : State) (next k : Nat) : Prop := s.xch.swf.toList.getD k 0 ≠ 0 ∧ s.bit R.TASK.XSTAT.SWMASK k = false ∧ s.xch.swf.toList.getD k 0 ≤ next
    (s 0 0 9).xstate ≠ 4 ∧ (s 0 0 9).xstate ≠ 5 ∧ (s 4 0 9).prog = some tP ∧ (s 4 0 9).shadow = some b ∧ (s 4 0 9).xstate = 4 ∧
    ¬ due (s 4 0 9) 10 1 ∧ due (s 4 0 10) 11 1 ∧ ¬ due (s 4 0 10) 11 2 ∧ due (s 5 2 11) 12 2 ∧ (s 5 6 12).bit R.TASK.XSTAT.SWMASK 1 = true ∧
    (∀ f ∈ (s 5 6 12).xch.swf.toList, f ≤ (s 5 6 12).gong.frame) ∧
    (∀ k, k < 8 → ((s 5 6 12).bit R.TASK.XSTAT.XMASK k = true ↔ (s 5 6 12).bit R.TASK.XSTAT.SWMASK k = true)) ∧
    ¬ (∀ f ∈ (s 4 0 10).xch.swf.toList, f ≤ (s 4 0 10).gong.frame) ∧ (s 4 0 10).get R.TASK.XSTAT.SWMASK = 0 ∧ (s 4 0 10).sMin ≤ 11 ∧
    (b.sigs.map (·.id)).Nodup ∧ (b.slots.map (·.idx)).Nodup ∧ (s 4 0 10).follows .a = true ∧ ((s 4 0 10).ch .a).rx true = 0 ∧ ((s 4 0 10).ch .a).rx false = 0 ∧
    tblFind ((s 4 0 10).ch .a).dir 4 = some ⟨4, 0, 0, 1, [9, 0, 0, 0]⟩ ∧ tblFind ((s 4 0 10).ch .a).dir 6 = none := by
  decide +kernel

/-- Slots at the switch of class 1: matched with the key of the input changed (edge kind), not matched, gone with the class, of another class. -/
theorem witness_CommitsCountAndSwitch_slots :
    let d : SlotDef := ⟨8, 0x40800000, 7, 5, 1, false, 0⟩
    let a : Program := { tP with slots := [{ d with inputKey := 2 }] }
    let b : Program := { tP with slots := [d, { d with idx := 9 }] }
    let v : Slot := ⟨0x40800000, 7, 0, 0, 0, false⟩
    let c : Chan := { Chan.reset with slots := [(8, v), (9, { v with inst := 1 }), (10, v), (11, { v with w0 := 0x41000000 })] }
    let s := { tRun 2 with chA := c, bank0 := some a, bank1 := some b }
    s.prog = some a ∧ s.shadow = some b ∧ slotCls d = 1 ∧ s.follows .a = true ∧ (s.ch .a).rx s.act = 0 ∧ (s.ch .a).rx (!s.act) = 0 ∧
    (b.slots.map (·.idx)).Nodup ∧ tblFind (s.ch .a).slots 8 = some v ∧ (v.kind ≠ 0 ∧ v.inst = d.inst ∧ v.owner = 1 ∧ v.kind = slotKind d) ∧
    4 ≤ slotKind d ∧ tblFind (s.ch .a).slots 9 = some { v with inst := 1 } ∧ ({ v with inst := 1 } : Slot).inst ≠ d.inst ∧
    tblFind (s.ch .a).slots 10 = some v ∧ (∀ e ∈ b.slots, e.idx ≠ 10) ∧ ({ v with w0 := 0x41000000 } : Slot).owner ≠ 1 ∧
    (∀ td ∈ a.tasks, td.cls.val = 1) := by
  decide +kernel

end Sys2Proof.Tests
end

section
/-! PROOF. The canonical form (R2, R12, log 4): every operation of the model keeps it, and so does every step. The lemma about an operation bears
its name, and its proof is the chain of operations that its definition is built of. -/

namespace Sys2Proof.Machine

/-! ### Tables with keys strictly rising -/

theorem tblAbove_iff {α : Type} (b : Option Nat) (t : Tbl α) :
    tblAbove b t = true ↔ (∀ p ∈ t, below b p.1) ∧ t.Pairwise fun p q => p.1 < q.1 := by
  induction t generalizing b with
  | nil => simp [tblAbove]
  | cons p t ih =>
    obtain ⟨k, v⟩ := p
    rw [tblAbove_cons, ih, List.forall_mem_cons, List.pairwise_cons]
    have trans : below b k → (∀ p ∈ t, k < p.1) → ∀ p ∈ t, below b p.1 := fun hb h p hp => by
      cases b with
      | none => trivial
      | some b => exact Nat.lt_trans hb (h p hp)
    constructor
    · exact fun ⟨hb, h, hp⟩ => ⟨⟨hb, trans hb h⟩, h, hp⟩
    · exact fun ⟨⟨hb, _⟩, h, hp⟩ => ⟨hb, h, hp⟩

theorem tblWf_iff {α : Type} (t : Tbl α) : tblWf t = true ↔ t.Pairwise fun p q => p.1 < q.1 := by
  rw [tblWf, tblAbove_iff]
  exact and_iff_right fun _ _ => trivial

theorem tblWf_filter {α : Type} {t : Tbl α} (f : Nat × α → Bool) (h : tblWf t = true) : tblWf (t.filter f) = true :=
  (tblWf_iff _).2 (((tblWf_iff t).1 h).filter f)

theorem memWf_foldl_put {α : Type} (l : List α) (a : α → Nat) (b : α → Byte) {m : Tbl Byte} (h : memWf m = true) :
    memWf (l.foldl (fun m x => memPut m (a x) (b x)) m) = true := by
  induction l generalizing m with
  | nil => exact h
  | cons x l ih => exact ih (memWf_put _ _ h)

/-! ### The register file after a start (R8) -/

/-- The registers in the order in which `startRegs` lists them: offset and fields. -/
def regRows : List (Nat × List RegFld) :=
  regGroups.flatMap fun g => (List.range g.cnt).flatMap fun i => g.rows.map fun r => (g.base + g.stride * i + r.1, r.2)

theorem startRegs_eq (warm : Bool) (old : Nat → W32) :
    startRegs warm old =
      regRows.filterMap fun r => if startWord warm (old r.1) r.2 = 0 then none else some (r.1, startWord warm (old r.1) r.2) := by
  simp only [startRegs, regRows, List.filterMap_flatMap, List.filterMap_map]
  rfl

theorem regRows_rising : regRows.Pairwise fun a b => a.1 < b.1 := by
  rw [← List.pairwise_map (R := (· < ·)) (f := Prod.fst), ← List.isChain_iff_pairwise]
  decide +kernel

/-- An entry of the register file after a start is the word of a register, and not zero. -/
theorem startRegs_entry {warm : Bool} {old : Nat → W32} {r : Nat × List RegFld} {p : Nat × W32}
    (h : (if startWord warm (old r.1) r.2 = 0 then none else some (r.1, startWord warm (old r.1) r.2)) = some p) : p.1 = r.1 ∧ p.2 ≠ 0 := by
  split at h
  · cases h
  · next hz =>
    cases h
    exact ⟨rfl, hz⟩

theorem fileWf_startRegs (warm : Bool) (old : Nat → W32) : fileWf (startRegs warm old) = true := by
  rw [fileWf, Bool.and_eq_true, tblWf_iff, startRegs_eq]
  constructor
  · refine regRows_rising.filterMap _ fun r r' hr p hp p' hp' => ?_
    rw [(startRegs_entry hp).1, (startRegs_entry hp').1]
    exact hr
  · rw [List.all_eq_true]
    intro p hp
    obtain ⟨r, -, hr⟩ := List.mem_filterMap.1 hp
    exact bne_iff_ne.2 (startRegs_entry hr).2

/-! ### The canonical form as a predicate with its own lemmas -/

/-- The canonical form of a state, part by part. -/
structure Canonical (s : State) : Prop where
  regs : fileWf s.regs = true
  smem : memWf s.smem = true
  evs : tblWf s.evs = true

theorem canonical_iff (s : State) : Canonical s ↔ Canon s := ⟨fun h => ⟨h.regs, h.smem, h.evs⟩, fun h => ⟨h.1, h.2.1, h.2.2⟩⟩

/-- The next state of an outcome, where there is one, has the canonical form. -/
structure Outcome.Canonical (o : Host.Outcome State Fault Refusal) : Prop where
  state : ∀ t, o = .next t → Machine.Canonical t

variable {s : State}

/-- A change of anything but registers, steward memory and event sources. -/
theorem Canonical.rest {pending preq latch held resp free clk solNs secAcc gong seqr chA chB chC vote bank0 bank1 act forces fcmds
    fum fumPos pair sio spd evSeq net tim brg out ret xch nv boot upd bist session sup} (h : Canonical s) :
    Canonical ⟨pending, s.regs, preq, latch, held, resp, free, clk, solNs, secAcc, gong, seqr, chA, chB, chC, vote, bank0, bank1, act,
      forces, fcmds, s.evs, fum, fumPos, s.smem, pair, sio, spd, evSeq, net, tim, brg, out, ret, xch, nv, boot, upd, bist, session, sup⟩ :=
  ⟨h.regs, h.smem, h.evs⟩

theorem Canonical.withSmem (h : Canonical s) {m : Tbl Byte} (hm : memWf m = true) : Canonical { s with smem := m } := ⟨h.regs, hm, h.evs⟩

theorem Canonical.withEvs (h : Canonical s) {t : Tbl EvSrc} (ht : tblWf t = true) : Canonical { s with evs := t } := ⟨h.regs, h.smem, ht⟩

theorem Canonical.ite {c : Prop} [Decidable c] {a b : State} (ha : Canonical a) (hb : Canonical b) : Canonical (if c then a else b) := by
  split
  exacts [ha, hb]

/-- A branch that goes on from the other one, `b`. -/
theorem Canonical.also {c : Prop} [Decidable c] {a b : State} (hb : Canonical b) (ha : Canonical b → Canonical a) :
    Canonical (if c then a else b) := .ite (ha hb) hb

/-- As `also`, from the first branch. -/
theorem Canonical.unless {c : Prop} [Decidable c] {a b : State} (ha : Canonical a) (hb : Canonical a → Canonical b) :
    Canonical (if c then a else b) := .ite ha (hb ha)

/-- The state of a pair that was taken apart. -/
theorem Canonical.of_pair {α : Type} {p : α × State} {a : α} {t : State} (h : Canonical p.2) (e : p = (a, t)) : Canonical t := by
  subst e
  exact h

theorem Canonical.foldl {α : Type} {f : State → α → State} (l : List α) (h : Canonical s)
    (hf : ∀ t a, Canonical t → Canonical (f t a)) : Canonical (l.foldl f s) := by
  induction l generalizing s with
  | nil => exact h
  | cons a l ih => exact ih (hf s a h)

theorem Canonical.forN (n : Nat) {f : State → Nat → State} (h : Canonical s) (hf : ∀ t i, Canonical t → Canonical (f t i)) :
    Canonical (forN n s f) := .foldl _ h hf

theorem Outcome.Canonical.next {t : State} (h : Machine.Canonical t) : Outcome.Canonical (.next t) := by
  constructor
  rintro _ ⟨⟩
  exact h

theorem Outcome.Canonical.ite {c : Prop} [Decidable c] {a b : Host.Outcome State Fault Refusal} (ha : Outcome.Canonical a)
    (hb : Outcome.Canonical b) : Outcome.Canonical (if c then a else b) := by
  split
  exacts [ha, hb]

theorem Outcome.Canonical.whilePowered {t : State} (h : Machine.Canonical s) (ht : Machine.Canonical t) :
    Outcome.Canonical (s.whilePowered t) := .next (.ite ht h)

/-- What holds of both branches, of the value of the first and of every value of the second, holds of every value of a conditional. -/
theorem forall_mem_ite_some {α : Type} {P : α → Prop} {c : Prop} [Decidable c] {a : α} {o : Option α} (ha : P a) (ho : ∀ x ∈ o, P x) :
    ∀ x ∈ (if c then some a else o), P x := by
  split
  · rintro _ ⟨⟩
    exact ha
  · exact ho

/-! ### Registers -/

theorem Canonical.setReg (h : Canonical s) (o : Nat) (v : W32) : Canonical (s.setReg o v) := ⟨fileWf_setReg _ _ h.regs, h.smem, h.evs⟩

/-! ### Named operations -/

theorem Canonical.set (h : Canonical s) (f : Fld) (n : Nat) : Canonical (s.set f n) := h.setReg ..

theorem Canonical.flag (h : Canonical s) (f : Fld) : Canonical (s.flag f) := h.set ..

theorem Canonical.inc (h : Canonical s) (f : Fld) : Canonical (s.inc f) := h.set ..

theorem Canonical.incSat (h : Canonical s) (f : Fld) (n : Nat) : Canonical (s.incSat f n) := h.set ..

theorem Canonical.setPair (h : Canonical s) (lo hi : Fld) (n : Nat) : Canonical (s.setPair lo hi n) :=
  (h.set ..).set ..

theorem Canonical.orBits (h : Canonical s) (f : Fld) (m : Nat) : Canonical (s.orBits f m) := h.set ..

theorem Canonical.preqSet (h : Canonical s) (r : Req) (off : Nat) (v : W32) : Canonical (s.preqSet r off v) :=
  h.rest

theorem Canonical.fresh (h : Canonical s) (w : Nat) : Canonical (s.fresh w).2 := h.rest

theorem Canonical.setCh (h : Canonical s) (ch : Ch) (v : Chan) : Canonical (s.setCh ch v) := by
  unfold State.setCh
  split
  exacts [h.rest, h.rest, h.rest]

theorem Canonical.setChRec (h : Canonical s) (ch : Ch) (v : ChRec) : Canonical (s.setChRec ch v) := by
  unfold State.setChRec
  split
  exacts [h.rest, h.rest, h.rest]

theorem Canonical.eachCh (h : Canonical s) (p : Ch → Bool) (f : Ch → Chan → Chan) : Canonical (s.eachCh p f) :=
  .foldl _ h fun _ _ h1 => .ite (h1.setCh ..) h1

theorem Canonical.mapCh (h : Canonical s) (p : Ch → Bool) (f : Chan → Chan) : Canonical (s.mapCh p f) :=
  .foldl _ h fun _ _ h1 => .ite (h1.setCh ..) h1

theorem Canonical.fumPut (h : Canonical s) (body : List Byte) : Canonical (s.fumPut body) := (h.inc ..).rest

theorem Canonical.fumarole (h : Canonical s) (type src code : Nat) (data : List Byte) : Canonical (s.fumarole type src code data) :=
  h.fumPut ..

theorem Canonical.fumCont (h : Canonical s) (src idx : Nat) (data : List Byte) : Canonical (s.fumCont src idx data) :=
  h.fumPut ..

/-! ### Command registers -/

theorem Canonical.command (h : Canonical s) (r : Req) (cmd cnt reason : Fld) (v why : Nat) {act : State → State}
    (hact : ∀ t, Canonical t → Canonical (act t)) : Canonical (s.command r cmd cnt reason v why act) :=
  .ite h (.ite (hact _ (((h.set ..).set ..).inc ..)) (h.set ..))

theorem Canonical.commandNoReason (h : Canonical s) (r : Req) (cmd cnt : Fld) (v : Nat) (ok : Bool) {act : State → State}
    (hact : ∀ t, Canonical t → Canonical (act t)) : Canonical (s.commandNoReason r cmd cnt v ok act) :=
  .ite h (.ite (hact _ ((h.set ..).inc ..)) h)

/-! ### Engine copies -/

theorem Canonical.distribute (h : Canonical s) (v : Word) : Canonical (s.distribute v) := h.rest

theorem Canonical.resetDreg (h : Canonical s) (x : Ch) : Canonical (s.resetDreg x) := by
  unfold State.resetDreg
  split
  exacts [h, h.rest, h.rest]

theorem Canonical.onEngine (h : Canonical s) (e : Eng) (f : Ch → Chan → Chan × List Close) : Canonical (s.onEngine e f) :=
  h.rest.rest

theorem Canonical.osrus (h : Canonical s) (e : Eng) (legal : Bool) (n cyc : Nat) (op : Op) (shared : Word) :
    Canonical (s.osrus e legal n cyc op shared) :=
  h.onEngine ..

/-! ### Versions and images -/

theorem Canonical.noteBattery (h : Canonical s) (id : Nat) (val : List Byte) (src : Src) : Canonical (s.noteBattery id val src) :=
  .ite h.rest h

theorem Canonical.input (h : Canonical s) (id : Nat) (val : List Byte) (src : Src) : Canonical (s.input id val src) := by
  unfold State.input
  split
  exacts [.also ((h.noteBattery ..).eachCh ..) (·.rest), (h.noteBattery ..).eachCh ..]

theorem Canonical.inputItem (h : Canonical s) (home href v : Nat) (src : Src) : Canonical (s.inputItem home href v src) :=
  .foldl _ h fun _ _ h1 => .ite (h1.input ..) h1

theorem Canonical.freshCheck (h : Canonical s) (id : Nat) : Canonical (s.freshCheck id) :=
  .also (h.mapCh ..) fun h1 => (h1.incSat ..).flag ..

theorem Canonical.readHome4 (h : Canonical s) (p : Program) (k : Nat) : Canonical (s.readHome4 p k) := by
  refine .foldl _ h fun _ _ h1 => ?_
  split
  exacts [.ite (.foldl _ h1 fun _ _ h2 => h2.distribute ..) h1, h1]

/-! ### Signals -/

theorem Canonical.setForces (h : Canonical s) (t : List ForceEnt) : Canonical (s.setForces t) :=
  (h.mapCh ..).rest

theorem Canonical.forceTick (h : Canonical s) : Canonical s.forceTick := .ite h (h.setForces ..).rest

theorem Canonical.dropForces (h : Canonical s) (ids : List Nat) : Canonical (s.dropForces ids) :=
  .ite h (.foldl _ ((h.setForces ..).flag ..) fun _ _ h1 => h1.fumarole ..)

theorem Canonical.force (h : Canonical s) (r : Req) (code why : Nat) (c : ForceCmd) : Canonical (s.force r code why c) :=
  .command h _ _ _ _ _ _ (fun _ h1 => h1.rest)

theorem execForceSet_canonical (h : Canonical s) (r : Req) : Outcome.Canonical (execForceSet r s) :=
  .whilePowered h (h.force ..)

theorem execForceClear_canonical (h : Canonical s) (r : Req) : Outcome.Canonical (execForceClear r s) :=
  .whilePowered h (h.force ..)

theorem execForceClearall_canonical (h : Canonical s) (r : Req) : Outcome.Canonical (execForceClearall r s) :=
  .whilePowered h (h.force ..)

theorem Canonical.countHome5 (h : Canonical s) (n : Nat) : Canonical (s.countHome5 n) := h.rest

theorem execStewardSignalWrite_canonical (h : Canonical s) (id : Nat) (value : List Byte) : Outcome.Canonical (execStewardSignalWrite id
    value s) :=
  .whilePowered h (by split; exacts [.ite ((h.countHome5 ..).input ..) h, h])

/-! ### Safety inputs and outputs -/

theorem Canonical.setInp (h : Canonical s) (i : Fin 16) (v : InSt) : Canonical (s.setInp i v) := h.rest

theorem Canonical.setOutp (h : Canonical s) (o : Fin 8) (v : OutSt) : Canonical (s.setOutp o v) := h.rest

theorem Canonical.setBit (h : Canonical s) (f : Fld) (n : Nat) (b : Bool) : Canonical (s.setBit f n b) :=
  h.set ..

theorem Canonical.ioRecord (h : Canonical s) (kind code n : Nat) : Canonical (s.ioRecord kind code n) :=
  h.fumarole ..

theorem Canonical.showFaults (h : Canonical s) (i : Fin 16) : Canonical (s.showFaults i) :=
  (h.set ..).setBit ..

theorem execInputFaultDetected_canonical (h : Canonical s) (i : Fin 16) (code : Fin 5) (xtp : Fin 8) : Outcome.Canonical
    (execInputFaultDetected i code xtp s) :=
  .whilePowered h (.ite h (.ioRecord (.also (.also ((((h.setInp ..).showFaults ..).incSat ..).flag ..) (·.set ..)) fun h1 => (h1.setBit
   ..).flag ..) ..))

theorem Canonical.sioTick (h : Canonical s) : Canonical s.sioTick :=
  .forN _ (.forN _ (.forN _ (.forN _ (.forN _ (.forN _ (.forN _ (.forN _ h fun _ _ h1 => h1.set ..) fun _ _ h1 => .also (h1.setBit ..)
    (·.setBit ..)) fun _ _ h1 => .ite (h1.setBit ..) h1) fun _ _ h1 => h1.inputItem ..) fun _ _ h1 => h1.inputItem ..) fun _ _ h1 =>
    h1.inputItem ..) fun _ _ h1 => h1.inputItem ..) fun _ _ h1 => h1.inputItem ..

theorem Canonical.setAct (h : Canonical s) (o : Fin 8) (b : Bool) : Canonical (s.setAct o b) := h.setBit ..

theorem Canonical.setOutFaults (h : Canonical s) (o : Fin 8) (l : List Nat) : Canonical (s.setOutFaults o l) :=
  (h.setOutp ..).set ..

theorem Canonical.outFault (h : Canonical s) (o : Fin 8) (code : Nat) : Canonical (s.outFault o code) :=
  ((h.setOutFaults ..).flag ..).ioRecord ..

theorem Canonical.faultGone (h : Canonical s) (o : Fin 8) (codes : List Nat) : Canonical (s.faultGone o codes) :=
  h.setOutFaults ..

theorem Canonical.latchOut (h : Canonical s) (o : Fin 8) (code : Nat) : Canonical (s.latchOut o code) :=
  (((h.setBit ..).set ..).setAct ..).outFault ..

theorem Canonical.judgePulse (h : Canonical s) (o : Fin 8) (opened : Bool) : Canonical (s.judgePulse o opened) := by
  unfold State.judgePulse
  dsimp only
  split
  exacts [h, .ite (((h.setOutp ..).setBit ..).inc ..) (((h.setOutp ..).setBit ..).latchOut ..)]

theorem Canonical.execDemand (h : Canonical s) (o : Fin 8) (d : Bool) : Canonical (s.execDemand o d) := by
  refine .ite (.also (h.setOutp ..) (·.setAct ..)) (.setAct (.setBit (.setOutp (.also (h.setOutp ..) fun h1 => ?_) ..) ..) ..)
  split
  next e2 =>
  exact ((h1.fresh ..).of_pair e2).judgePulse ..

theorem Canonical.outputsOff (h : Canonical s) : Canonical s.outputsOff :=
  .forN _ h fun _ _ h1 => h1.execDemand ..

theorem execOutputTestPulseStart_canonical (h : Canonical s) (o : Fin 8) : Outcome.Canonical (execOutputTestPulseStart o s) :=
  .whilePowered h (.ite (h.setOutp ..) (.ite (.setOutp (.ite (h.flag ..) h) ..) (.setBit (.setOutp (.ite (h.flag ..) h) ..) ..)))

theorem execOutputFaultDetected_canonical (h : Canonical s) (o code : Fin 8) : Outcome.Canonical (execOutputFaultDetected o code s) := by
  refine .whilePowered h (.ite h ?_)
  split
  · exact h.latchOut ..
  · exact h.latchOut ..
  · exact h.latchOut ..
  · exact h.latchOut ..
  · exact .outFault (.also (((h.setOutp ..).setAct ..).set ..) fun h1 => (h1.setBit ..).set ..) ..
  · exact h.outFault ..
  · exact h.set ..
  · exact h

theorem execOutputFaultCleared_canonical (h : Canonical s) (o code : Fin 8) : Outcome.Canonical (execOutputFaultCleared o code s) :=
  .whilePowered h (by split; exacts [h.faultGone .., h.set .., h])

theorem Canonical.unlatch (h : Canonical s) (o : Fin 8) : Canonical (s.unlatch o) :=
  (((((h.setBit ..).set ..).set ..).setOutp ..).faultGone ..).setAct ..

theorem execClrflt_canonical (h : Canonical s) (r : Req) (mask : Byte) : Outcome.Canonical (execClrflt r mask s) :=
  .whilePowered h (.command h _ _ _ _ _ _ (fun _ h1 => .forN _ h1 fun _ _ h2 => .ite (h2.unlatch ..) h2))

/-! ### Speed -/

theorem Canonical.setSen (h : Canonical s) (n : Fin 2) (v : SenSt) : Canonical (s.setSen n v) :=
  .ite h.rest h.rest

theorem Canonical.showSen (h : Canonical s) (n : Fin 2) (v : SenSt) : Canonical (s.showSen n v) :=
  (h.setSen ..).set ..

theorem Canonical.spdUnknown (h : Canonical s) (cause : Nat) : Canonical (s.spdUnknown cause) :=
  (((h.set ..).set ..).set ..).flag ..

theorem Canonical.senLost (h : Canonical s) (n : Fin 2) : Canonical (s.senLost n) :=
  .unless (h.set ..) fun h1 => .ite (h1.spdUnknown ..) (.ite ((h1.set ..).flag ..) (h1.spdUnknown ..))

theorem Canonical.spdTick (h : Canonical s) : Canonical s.spdTick :=
  .forN _ (.inputItem (.inputItem (.inputItem (.inputItem (.inputItem (.inputItem (.inputItem (.rest (.set (.set (.set (.set (.set (.set
    (.also ((h.showSen ..).showSen ..) (·.flag ..)) ..) ..) ..) ..) ..) ..)) ..) ..) ..) ..) ..) ..) ..) fun _ _ h1 => h1.inputItem ..

/-! ### Rings and the event controller -/

theorem Canonical.ringPut (h : Canonical s) (r : Nat) (words : List Nat) : Canonical (s.ringPut r words) :=
  (h.withSmem (memWf_dmaPut _ _ h.smem)).set ..

theorem Canonical.ringTake (h : Canonical s) (r : Nat) : Canonical (s.ringTake r) := h.set ..

theorem Canonical.putBit (h : Canonical s) (f : Fld) (n : Nat) (b : Bool) : Canonical (s.putBit f n b) :=
  h.set ..

theorem Canonical.evSetPrivate (h : Canonical s) (t n : Nat) : Canonical (s.evSetPrivate t n) := h.putBit ..

theorem Canonical.evPoll (h : Canonical s) (k : Nat) (redo : Bool) : Canonical (s.evPoll k redo) := by
  unfold State.evPoll
  dsimp only
  split
  · exact .ite (h.withEvs (tblWf_put _ _ h.evs)) h
  · exact .ite (h.withEvs (tblWf_del _ h.evs)) h

theorem Canonical.evSense (h : Canonical s) : Canonical s.evSense := h.withEvs (tblWf_filter _ h.evs)

theorem Canonical.evPollAll (h : Canonical s) (ks : List Nat) : Canonical (s.evPollAll ks) :=
  .foldl _ h fun _ _ h1 => h1.evPoll ..

theorem Canonical.evFinish (h : Canonical s) (k : Nat) (redo : Bool) : Canonical (s.evFinish k redo) :=
  (h.withEvs (tblWf_del _ h.evs)).evPoll ..

theorem Canonical.evDeliver (h : Canonical s) (t : Fin 10) (k : Nat) : Canonical (s.evDeliver t k) := by
  unfold State.evDeliver
  split
  · exact h
  · have hr := h.ringPut
    refine .inc ?_ ..
    exact ⟨(hr ..).regs, (hr ..).smem, tblWf_put _ _ (hr ..).evs⟩

theorem Canonical.evDeliverFirst (h : Canonical s) (t : Fin 10) : Canonical (s.evDeliverFirst t) :=
  .ite h.evSense (by split; exacts [h.evSense, .ite (h.evSense.flag ..) (h.evSense.evDeliver ..)])

theorem Canonical.evDeliverAll (h : Canonical s) (t : Fin 10) (n : Nat) : Canonical (s.evDeliverAll t n) := by
  induction n generalizing s with
  | zero => exact h
  | succ n ih => exact ih (h.evDeliverFirst t)

theorem Canonical.setClrec (h : Canonical s) (r : Req) (ws : List Nat) : Canonical (s.setClrec r ws) :=
  .foldl _ h fun _ _ h1 => h1.preqSet ..

theorem Canonical.evClaim (h : Canonical s) (r : Req) (t : Nat) (task : Option Nat) : Canonical (s.evClaim r t task).2 := by
  have hr := h.ringTake t
  unfold State.evClaim
  dsimp only
  split
  · exact h
  · split
    · split
      · exact (hr.withEvs (tblWf_put _ _ hr.evs)).setClrec ..
      · exact (((hr.withEvs (tblWf_del _ hr.evs)).flag ..).incSat ..).setClrec ..
    · exact ((hr.flag ..).incSat ..).setClrec ..

theorem Canonical.evComplete (h : Canonical s) (t n : Nat) : Canonical (s.evComplete t n) := by
  unfold State.evComplete
  dsimp only
  split
  exacts [.ite (.evFinish (.ite (h.putBit ..) h) ..) h, h]

theorem Canonical.evReturn (h : Canonical s) (tasks : List Nat) : Canonical (s.evReturn tasks) :=
  .foldl _ h fun _ _ h1 => (by split; exacts [.ite (h1.evFinish ..) h1, h1])

theorem Canonical.setPen (h : Canonical s) (t v : Nat) : Canonical (s.setPen t v) := (h.set ..).evPollAll ..

theorem Canonical.writeCpend (h : Canonical s) (r : Req) (j : Nat) (v : W32) : Canonical (s.writeCpend r j v) :=
  .evSense (.foldl _ h fun _ _ h1 => .ite (h1.putBit ..) h1)

theorem Canonical.writeCmask (h : Canonical s) (r : Req) (j : Nat) (v : W32) : Canonical (s.writeCmask r j v) :=
  .foldl _ h fun _ _ h1 => .ite ((h1.putBit ..).evPoll ..) (.ite h1 ((h1.set ..).evPoll ..))

theorem Canonical.holdSet (h : Canonical s) (r : Req) (mask : Nat) : Canonical (s.holdSet r mask) := h.set ..

theorem Canonical.holdClr (h : Canonical s) (r : Req) (mask : Nat) : Canonical (s.holdClr r mask) :=
  .foldl _ (h.set ..) fun _ _ h1 => .ite (h1.evDeliverAll ..) h1

theorem Canonical.claimFor (h : Canonical s) (r : Req) (t : Fin 10) : Canonical (s.claimFor r t) := by
  unfold State.claimFor
  split
  next e1 =>
  exact ((h.evClaim ..).of_pair e1).rest

/-! ### Shared ranges -/

theorem Canonical.latchReg (h : Canonical s) (r : Req) (off : Nat) : Canonical (s.latchReg r off) := h.rest

theorem Canonical.readExpchal (h : Canonical s) (r : Req) : Canonical (s.readExpchal r).2 := ((h.fresh 32).preqSet ..).preqSet ..

theorem Canonical.readOchal (h : Canonical s) (r : Req) : Canonical (s.readOchal r).2 :=
  ((((h.fresh 32).preqSet ..).preqSet ..).preqSet ..).latchReg ..

theorem Canonical.readNow (h : Canonical s) (r : Req) : Canonical (s.readNow r).2 := ((h.latchReg ..).latchReg ..).latchReg ..

theorem Canonical.readWord (h : Canonical s) (r : Req) (task : Option Nat) (off : Nat) : Canonical (s.readWord r task off).2 := by
  unfold State.readWord
  split_ifs
  · exact h.evClaim ..
  · exact h.evClaim ..
  · exact h
  · exact h
  · exact h.readNow ..
  · exact h.readExpchal ..
  · exact h.readOchal ..
  · exact h.latchReg ..
  · exact h
  · exact h

theorem Canonical.busRead (h : Canonical s) (e : Eng) (task : Option Nat) (a size : Nat) : Canonical (s.busRead e task a size).2 := by
  unfold State.busRead
  split
  case h_1 | h_2 =>
    extract_lets off
    clear_value off
    split
    · exact h
    · split
      next s1 e1 =>
      have h1 := (h.readWord ..).of_pair e1
      split
      · exact h1
      · split
        next e2 => exact (h1.readWord ..).of_pair e2
  all_goals exact h

theorem Canonical.progWrite (h : Canonical s) (e : Eng) (off : Nat) (v : W32) : Canonical (s.progWrite e off v) :=
  .ite (h.preqSet ..) (.ite (h.preqSet ..) (.ite (h.holdSet ..) (.ite (h.holdClr ..) (.unless (h.evComplete ..) fun h1 => .ite (h.orBits ..)
    (.ite (h.orBits ..) (.ite (h.writeCpend ..) (.ite (h.writeCmask ..) (.ite h1 h))))))))

theorem Canonical.pwRecord (h : Canonical s) (cause : Nat) (p : PwEnt) : Canonical (s.pwRecord cause p) :=
  .ite h (.ite ((h.incSat ..).flag ..) (h.rest.ringPut ..))

theorem Canonical.postWrite (h : Canonical s) (src a : Nat) (d : Word) (be : Byte) : Canonical (s.postWrite src a d be) :=
  .ite (h.pwRecord ..) (.ite (h.pwRecord ..) h.rest)

theorem Canonical.release (h : Canonical s) (e : Eng) (c : CbEntry) : Canonical (s.release e c) := by
  unfold State.release
  split
  · exact .ite h (.unless (h.progWrite ..) fun h1 => .ite (h1.progWrite ..) h)
  · exact .ite h (.unless (h.progWrite ..) fun h1 => .ite (h1.progWrite ..) h)
  · exact h.postWrite ..
  · exact h

/-! ### Loads -/

theorem Canonical.stallRead (h : Canonical s) (e : Eng) (ga : GReg) (imm : BitVec 16) (n : Nat) (op : Op) (why : Nat → Stall) : Canonical
    (s.stallRead e ga imm n op why) :=
  h.onEngine ..

theorem Canonical.enterSlot (h : Canonical s) (j : Fin 8) (w : DrWait) : Canonical (s.enterSlot j w) := h.rest

theorem Canonical.queueRead (h : Canonical s) (w : DrWait) : Canonical (s.queueRead w) := h.rest

theorem Canonical.readError (h : Canonical s) : Canonical s.readError := (h.flag ..).incSat ..

theorem Canonical.load (h : Canonical s) (e : Eng) (gd ga : GReg) (imm : BitVec 16) (n : Nat) (signed : Bool) :
    Canonical (s.load e gd ga imm n signed) := by
  unfold State.load
  split
  · exact h.osrus ..
  · refine .unless (h.osrus ..) fun h1 => .ite (.ite (h.readError.osrus ..) ?_) (.ite ?_ h1)
    · split
      exacts [(h.queueRead ..).stallRead .., (h.enterSlot ..).stallRead ..]
    · split
      next e2 =>
      exact (((h.busRead ..).of_pair e2).distribute ..).osrus ..

theorem execEvtC_canonical (h : Canonical s) (e : Eng) (gd : GReg) (rsv : BitVec 15) : Outcome.Canonical (execEvtC e gd rsv s) := by
  refine .next ?_
  split
  · refine .ite ?_ (h.osrus ..)
    split
    next e1 =>
    exact (((h.evClaim ..).of_pair e1).distribute ..).osrus ..
  · exact h.osrus ..

/-! ### The bridge -/

theorem Canonical.send (h : Canonical s) (o : Out) : Canonical (s.send o) := h.rest

theorem Canonical.postedPop (h : Canonical s) : Canonical s.postedPop := h.rest

theorem Canonical.bridgeRan (h : Canonical s) : Canonical s.bridgeRan := h.rest

theorem Canonical.cardRan (h : Canonical s) (k : Fin 7) : Canonical (s.cardRan k) := h.rest

theorem execPostedWriteComplete_canonical (h : Canonical s) (how : BusEnd) (reqs : BitVec 7) : Outcome.Canonical (execPostedWriteComplete
    how reqs s) := by
  refine .whilePowered h (.ite h ?_)
  split
  · exact h
  · split
    · exact h.postedPop.bridgeRan.send ..
    · exact h.postedPop.bridgeRan.pwRecord ..
    · exact h.postedPop.bridgeRan.pwRecord ..
    · exact h.postedPop.bridgeRan.pwRecord ..
    · exact h.bridgeRan

theorem execPostedWriteDiscard_canonical (h : Canonical s) : Outcome.Canonical (execPostedWriteDiscard s) :=
  .whilePowered h (by split; exacts [h, h.postedPop.pwRecord ..])

theorem Canonical.answerTo (h : Canonical s) (req : DrReq) (j : Option Nat) (data : Option Word) : Canonical (s.answerTo req j data) := by
  have h1 (c : Prop) [Decidable c] : Canonical (if c then s.readError else s) := .ite h.readError h
  unfold State.answerTo
  dsimp only
  split
  · exact .onEngine (by split; exacts [(h1 _).distribute .., h1 _]) ..
  · exact (h1 _).rest

theorem Canonical.freeDr (h : Canonical s) (j : Fin 8) : Canonical (s.freeDr j) := by
  unfold State.freeDr
  split
  · exact h.rest
  · split
    exacts [h.rest.rest.enterSlot .., (h.rest.rest.enterSlot ..).mapCh ..]

theorem Canonical.answerRead (h : Canonical s) (j : Fin 8) (d : DrSlot) (data : Option Word) : Canonical (s.answerRead j d data) :=
  (h.answerTo ..).freeDr ..

theorem Canonical.dropRead (h : Canonical s) (j : Fin 8) : Canonical (s.dropRead j) :=
  ((h.flag ..).incSat ..).freeDr ..

theorem Canonical.applyInbound (h : Canonical s) (w : InWrite) : Canonical (s.applyInbound w) :=
  .foldl _ (h.withSmem (memWf_foldl_put _ _ _ h.smem)) fun _ _ h1 => h1.input ..

theorem Canonical.flushInbound (h : Canonical s) : Canonical s.flushInbound :=
  .foldl _ h.rest fun _ _ h1 => h1.applyInbound ..

theorem execDelayedReadComplete_canonical (h : Canonical s) (slot : Fin 8) (how : BusEnd) (reqs : BitVec 7) :
    Outcome.Canonical (execDelayedReadComplete slot how reqs s) := by
  refine .whilePowered h ?_
  split
  · exact h
  · refine .ite h ?_
    generalize s.busEnd _ how = ending
    cases ending with
    | ok x => exact h.flushInbound.bridgeRan.answerRead ..
    | retry => exact h.bridgeRan
    | masterAbort | targetAbort | parity => exact h.bridgeRan.answerRead ..

theorem execDelayedReadDiscard_canonical (h : Canonical s) (slot : Fin 8) : Outcome.Canonical (execDelayedReadDiscard slot s) :=
  .whilePowered h (by split; exacts [h, .ite (h.dropRead ..) (h.answerRead ..)])

theorem Canonical.leaveReads (h : Canonical s) (p : DrReq → Bool) : Canonical (s.leaveReads p) := h.rest

theorem Canonical.goneReads (h : Canonical s) : Canonical s.goneReads := h.leaveReads ..

theorem Canonical.stewardLoad (h : Canonical s) (st1 : Bool) (a : W32) : Canonical (s.stewardLoad st1 a) := by
  refine .ite (h.leaveReads ..).rest.readError ?_
  split
  exacts [(h.leaveReads ..).rest.queueRead .., (h.leaveReads ..).rest.enterSlot ..]

theorem execCpciInboundWrite_canonical (h : Canonical s) (card : Fin 7) (reqs : BitVec 7) (addr : W32) (phases : List InPhase) :
    Outcome.Canonical (execCpciInboundWrite card reqs addr phases s) :=
  .whilePowered h (.ite h (.unless (h.cardRan ..) fun h1 => .ite h (.ite (.rest (.ite h1.rest ((h1.rest.flag ..).incSat ..))) (.applyInbound
    (.ite h1.rest ((h1.rest.flag ..).incSat ..)) ..))))

theorem execInboundLock_canonical (h : Canonical s) (sender : LockBy) : Outcome.Canonical (execInboundLock sender s) :=
  .whilePowered h (by split; exacts [.ite ((h.flag ..).cardRan ..) h, h.rest])

theorem Canonical.setBus (h : Canonical s) (m66en : Bool) : Canonical (s.setBus m66en) :=
  ((h.set ..).set ..).set ..

theorem Canonical.takeDuties (h : Canonical s) (m66en : Bool) : Canonical (s.takeDuties m66en) :=
  ((h.set ..).setBus ..).rest

theorem Canonical.endTransfers (h : Canonical s) : Canonical s.endTransfers := by
  refine .foldl _ (.foldl _ (.foldl _ h.rest fun _ _ h1 => h1.pwRecord ..) fun _ _ h1 => h1.answerTo ..) fun _ _ h1 => ?_
  split
  exacts [h1, .ite (h1.dropRead ..) (h1.answerRead ..)]

theorem Canonical.giveUpDuties (h : Canonical s) : Canonical s.giveUpDuties :=
  .ite h ((((h.flushInbound.endTransfers.set ..).set ..).set ..).set ..)

theorem Canonical.assignBase (h : Canonical s) (c : CardDef) : Canonical (s.assignBase c) :=
  .foldl _ h fun _ _ h1 => h1.send ..

theorem execCardConfiguration_canonical (h : Canonical s) (found : Tbl W32) : Outcome.Canonical (execCardConfiguration found s) :=
  .whilePowered h (.ite h (.set (.rest (.unless (.foldl _ h fun _ _ h1 => h1.assignBase ..) (·.flag ..))) ..))

theorem execConfigCycleRead_canonical (h : Canonical s) (r : Req) (how : BusEnd) (reqs : BitVec 7) : Outcome.Canonical (execConfigCycleRead
    r how reqs s) := by
  refine .whilePowered h (.ite h (.ite h.rest (.ite h.rest ?_)))
  split
  · exact h.bridgeRan.rest
  · exact h.bridgeRan.rest
  · exact h.bridgeRan.rest
  · split
    next e1 =>
    exact ((h.bridgeRan.fresh ..).of_pair e1).rest
  · split
    next e1 =>
    exact ((h.bridgeRan.fresh ..).of_pair e1).rest

theorem execConfigCycleWrite_canonical (h : Canonical s) (r : Req) (v : W32) (reqs : BitVec 7) : Outcome.Canonical (execConfigCycleWrite r v
    reqs s) :=
  .whilePowered h (.ite h (h.send ..).bridgeRan)

/-! ### Module state, roles and triggers -/

theorem Canonical.setSupply (h : Canonical s) (mv10 : Nat) : Canonical (s.setSupply mv10) := (h.set ..).rest

theorem Canonical.enterState (h : Canonical s) (m : MState) (old : Nat) : Canonical (s.enterState m old) :=
  (h.set ..).fumarole ..

theorem Canonical.toState (h : Canonical s) (m : MState) : Canonical (s.toState m) := h.enterState ..

theorem Canonical.dropWork (h : Canonical s) : Canonical s.dropWork := (h.mapCh ..).rest

theorem Canonical.leaveRole (h : Canonical s) : Canonical s.leaveRole := (((h.set ..).set ..).set ..).rest

theorem Canonical.solfatara (h : Canonical s) (code : Nat) : Canonical (s.solfatara code) := h.outputsOff.rest

theorem Canonical.enterSafe (h : Canonical s) (code : Nat) : Canonical (s.enterSafe code) :=
  ((h.solfatara ..).dropWork.giveUpDuties.leaveRole.toState ..).rest

theorem Canonical.trigger (h : Canonical s) (code detail : Nat) : Canonical (s.trigger code detail) :=
  .unless (h.fumarole ..) fun h1 => ((((h1.set ..).set ..).flag ..).inc ..).rest.enterSafe ..

/-! ### Update -/

theorem Canonical.setImg (h : Canonical s) (n : Nat) (v : Option FlashImg) : Canonical (s.setImg n v) :=
  .ite h.rest (.ite h.rest h.rest)

theorem Canonical.setStgid (h : Canonical s) (d : BitVec 256) : Canonical (s.setStgid d) :=
  .foldl _ h fun _ _ h1 => h1.set ..

theorem Canonical.setActid (h : Canonical s) : Canonical s.setActid := .foldl _ h fun _ _ h1 => h1.set ..

theorem Canonical.checkFail (h : Canonical s) (code : Nat) (pver : W32) : Canonical (s.checkFail code pver) :=
  (((h.set ..).set ..).flag ..).fumarole ..

theorem Canonical.dropPackage (h : Canonical s) : Canonical s.dropPackage := (h.rest.set ..).setStgid ..

theorem Canonical.emptyStaging (h : Canonical s) : Canonical s.emptyStaging := h.rest.dropPackage

theorem execPackageHeaderReceived_canonical (h : Canonical s) (x : PkgHeader) : Outcome.Canonical (execPackageHeaderReceived x s) :=
  .whilePowered h (.ite h (.ite ((((h.dropPackage.set ..).setStgid ..).set ..).rest.set ..) ((((h.dropPackage.set ..).setStgid ..).set
   ..).checkFail ..)))

theorem execPackageReceived_canonical (h : Canonical s) (m : Manifest) (stream : List Byte) : Outcome.Canonical (execPackageReceived m
    stream s) :=
  .whilePowered h (by split; exacts [h, .ite h (.ite (h.rest.checkFail ..) (h.rest.set ..))])

theorem Canonical.updCommand (h : Canonical s) (r : Req) (v why : Nat) {act : State → State} (hact : ∀ t, Canonical t → Canonical (act t)) :
    Canonical (s.updCommand r v why act) :=
  .command h _ _ _ _ _ _ (hact)

theorem execApply_canonical (h : Canonical s) (r : Req) : Outcome.Canonical (execApply r s) :=
  .whilePowered h (.updCommand h _ _ _ (fun _ h1 => .also (((h1.set ..).set ..).set ..) (·.setImg ..)))

theorem Canonical.changeKey (h : Canonical s) (c : Nat × Bool × Bool × List Byte) : Canonical (s.changeKey c) :=
  h.rest

theorem execApplyDone_canonical (h : Canonical s) : Outcome.Canonical (execApplyDone s) := by
  refine .whilePowered h ?_
  split
  · refine .ite h ?_
    extract_lets base
    split
    refine .ite (h.checkFail ..) (.ite ((h.set ..).checkFail ..) (.ite ((h.set ..).checkFail ..) ?_))
    have ready (n : Nat) := ((h.set R.UPD.PROG.DONE n).set R.UPD.STATE.fld 3).flag R.UPD.FLAG.READY
    split
    · exact (ready _).setImg ..
    · exact (ready _).setImg ..
    · exact (ready _).setImg ..
    · exact .foldl _ (ready _) fun _ _ h1 => h1.changeKey ..
  · exact h

theorem Canonical.writeSlotRec (h : Canonical s) : Canonical s.writeSlotRec := .ite h.rest h.rest

theorem Canonical.readSlotRec (h : Canonical s) : Canonical s.readSlotRec := by
  unfold State.readSlotRec
  split
  exacts [((h.set ..).set ..).set .., h]

theorem Canonical.makeActive (h : Canonical s) (n : Nat) (trial : Bool) : Canonical (s.makeActive n trial) :=
  (((h.set ..).set ..).set ..).setActid.writeSlotRec

theorem Canonical.acceptRestart (h : Canonical s) (cold : Bool) : Canonical (s.acceptRestart cold) := h.rest

theorem execUpdActivate_canonical (h : Canonical s) (r : Req) : Outcome.Canonical (execUpdActivate r s) :=
  .whilePowered h (.updCommand h _ _ _ (fun _ h1 => (h1.makeActive ..).acceptRestart ..))

theorem execUpdCancel_canonical (h : Canonical s) (r : Req) : Outcome.Canonical (execUpdCancel r s) :=
  .whilePowered h (.updCommand h _ _ _ (fun _ h1 => h1.emptyStaging.set ..))

theorem execVerify_canonical (h : Canonical s) (r : Req) (arg : BitVec 4) : Outcome.Canonical (execVerify r arg s) :=
  .whilePowered h (.updCommand h _ _ _ (fun _ h1 => h1.set ..))

theorem Canonical.ownerAct (h : Canonical s) : Canonical s.ownerAct := by
  unfold State.ownerAct
  split
  · exact h
  · split
    exacts [h.rest.set .., h.rest.set .., (h.rest.changeKey ..).set ..]

theorem execOwner_canonical (h : Canonical s) (r : Req) : Outcome.Canonical (execOwner r s) :=
  .whilePowered h (.ite h (.also (.updCommand h _ _ _ (fun _ h1 => h1.ownerAct)) (·.preqSet ..)))

/-! ### Self-test and life cycle -/

theorem Canonical.lockExpert (h : Canonical s) : Canonical s.lockExpert := (h.set ..).set ..

theorem Canonical.testStimulus (h : Canonical s) (n : Nat) : Canonical (s.testStimulus n) :=
  .ite (.unless ((h.set ..).set ..) (·.spdUnknown ..)) h

theorem Canonical.sensorsAnew (h : Canonical s) (n : Nat) : Canonical (s.sensorsAnew n) := .ite h.rest h

theorem Canonical.testBegin (h : Canonical s) (n : Nat) (manual : Bool) : Canonical (s.testBegin n manual) :=
  ((((((((h.set ..).set ..).set ..).set ..).set ..).set ..).set ..).set ..).rest.testStimulus ..

theorem Canonical.testRecord (h : Canonical s) (n cause : Nat) : Canonical (s.testRecord n cause) :=
  .ite ((((((((((h.set ..).set ..).set ..).set ..).set ..).set ..).set ..).set ..).flag ..).flag ..) (.also (((((((((h.set ..).set ..).set
   ..).set ..).set ..).set ..).set ..).set ..).flag ..) (·.flag ..))

theorem Canonical.testEnd (h : Canonical s) (cause : Nat) : Canonical (s.testEnd cause) := by
  unfold State.testEnd
  split
  exacts [h, (h.testRecord ..).rest.sensorsAnew ..]

theorem Canonical.noteGeyser (h : Canonical s) : Canonical s.noteGeyser := .ite h.rest h

theorem Canonical.testCheck (h : Canonical s) : Canonical s.testCheck := by
  unfold State.testCheck
  split
  exacts [h, .ite h.noteGeyser (h.testEnd ..)]

theorem Canonical.bistCommand (h : Canonical s) (r : Req) (v why : Nat) {act : State → State} (hact : ∀ t, Canonical t → Canonical (act t))
    : Canonical (s.bistCommand r v why act) :=
  .command h _ _ _ _ _ _ (hact)

theorem execTestStart_canonical (h : Canonical s) (r : Req) (test : Fin 8) : Outcome.Canonical (execTestStart r test s) :=
  .whilePowered h (.bistCommand h _ _ _ (fun _ h1 => (h1.testEnd ..).testBegin ..))

theorem execTestStop_canonical (h : Canonical s) (r : Req) : Outcome.Canonical (execTestStop r s) :=
  .whilePowered h (.bistCommand h _ _ _ (fun _ h1 => h1.testEnd ..))

theorem Canonical.startAuto (h : Canonical s) : Canonical s.startAuto :=
  .ite h (by split; exacts [.ite (h.testBegin ..).rest h, h])

theorem Canonical.sliceRan (h : Canonical s) : Canonical s.sliceRan := .also (h.set ..) (·.testEnd ..)

theorem Canonical.runSlice (h : Canonical s) (matched : Bool) (failed item : Nat) : Canonical (s.runSlice matched failed item) := by
  unfold State.runSlice
  split
  exacts [h.rest, .ite h.rest h.rest.sliceRan.rest]

theorem Canonical.issueTokens (h : Canonical s) : Canonical s.issueTokens :=
  .ite (.rest (.foldl _ h fun _ _ h1 => h1.send ..)) h

theorem Canonical.dropSil (h : Canonical s) : Canonical s.dropSil := h.dropForces ..

theorem Canonical.silTick (h : Canonical s) : Canonical s.silTick := .ite h.dropSil.rest h

theorem Canonical.lcTick (h : Canonical s) : Canonical s.lcTick := by
  unfold State.lcTick
  split
  · exact h
  · exact .fumarole (.testCheck (.lockExpert (.also (.ite (.rest (.also ((h.rest.set ..).flag ..) (·.silTick))) (.also (.also ((h.rest.set
      ..).flag ..) (·.silTick)) (·.rest))) (·.set ..)))) ..

theorem Canonical.lcCommand (h : Canonical s) (r : Req) (v : Nat) (from' : List Nat) (to' : Nat) (strong : Bool) (more : List (Nat × Bool))
    : Canonical (s.lcCommand r v from' to' strong more) :=
  .command h _ _ _ _ _ _ (fun _ h1 => .ite h1.rest h1.rest.lcTick)

theorem execMfg_canonical (h : Canonical s) (r : Req) : Outcome.Canonical (execMfg r s) :=
  .whilePowered h (h.lcCommand ..)

theorem execRelease_canonical (h : Canonical s) (r : Req) : Outcome.Canonical (execRelease r s) :=
  .whilePowered h (h.lcCommand ..)

theorem execDepot_canonical (h : Canonical s) (r : Req) : Outcome.Canonical (execDepot r s) :=
  .whilePowered h (h.lcCommand ..)

theorem execService_canonical (h : Canonical s) (r : Req) : Outcome.Canonical (execService r s) :=
  .whilePowered h (h.lcCommand ..)

theorem execReturn_canonical (h : Canonical s) (r : Req) : Outcome.Canonical (execReturn r s) :=
  .whilePowered h (h.lcCommand ..)

theorem execRetire_canonical (h : Canonical s) (r : Req) (confirm : BitVec 16) : Outcome.Canonical (execRetire r confirm s) :=
  .whilePowered h (h.lcCommand ..)

/-! ### Configuration store -/

theorem Canonical.setUserImg (h : Canonical s) (n : Nat) (v : Option NvImage) : Canonical (s.setUserImg n v) :=
  .ite h.rest h.rest

theorem Canonical.layered (h : Canonical s) (fact user : Option NvImage) : Canonical (s.layered fact user) :=
  .foldl _ (.foldl _ h fun _ _ h1 => h1.setReg ..) fun _ _ h1 => h1.set ..

theorem Canonical.checkRanges (h : Canonical s) : Canonical s.checkRanges := by
  refine .also (.also (.also (.also (.also (.foldl _ h fun _ _ h1 => ?_) (·.flag ..)) (·.flag ..)) (·.flag ..)) (·.flag ..)) (·.flag ..)
  split
  exacts [.ite (h1.flag ..) h1, h1]

/-! ### Configuration commands -/

theorem Canonical.cfgCommand (h : Canonical s) (r : Req) (code why : Nat) {act : State → State} (hact : ∀ t, Canonical t → Canonical (act
    t)) : Canonical (s.cfgCommand r code why act) :=
  .command h _ _ _ _ _ _ (hact)

theorem Canonical.showStgerr (h : Canonical s) (why : Nat) : Canonical (s.showStgerr why) := by
  unfold State.showStgerr
  split
  · exact h
  · refine .ite ?_ h
    split
    · exact h.set ..
    · split
      next e1 =>
      exact ((h.fresh ..).of_pair e1).set ..

theorem execCfgStage_canonical (h : Canonical s) (r : Req) : Outcome.Canonical (execCfgStage r s) :=
  .whilePowered h (.cfgCommand (.ite (h.showStgerr ..) h) _ _ _ (fun _ h1 => (h1.set ..).set ..))

theorem execCfgActivate_canonical (h : Canonical s) (r : Req) : Outcome.Canonical (execCfgActivate r s) :=
  .whilePowered h (.cfgCommand h _ _ _ (fun _ h1 => (h1.set ..).rest.acceptRestart ..))

theorem execCfgRevert_canonical (h : Canonical s) (r : Req) : Outcome.Canonical (execCfgRevert r s) :=
  .whilePowered h (.cfgCommand h _ _ _ (fun _ h1 => (h1.set ..).rest.acceptRestart ..))

theorem execCfgDiscard_canonical (h : Canonical s) (r : Req) : Outcome.Canonical (execCfgDiscard r s) :=
  .whilePowered h (.cfgCommand h _ _ _ (fun _ h1 => (h1.rest.set ..).set ..))

theorem execCfgLock_canonical (h : Canonical s) (r : Req) : Outcome.Canonical (execCfgLock r s) :=
  .whilePowered h (.cfgCommand h _ _ _ (fun _ h1 => h1.lockExpert))

theorem execExpchalRead_canonical (h : Canonical s) (r : Req) : Outcome.Canonical (execExpchalRead r s) := by
  refine .whilePowered h (.ite h.rest ?_)
  split
  next e1 =>
  exact .ite ((h.readExpchal ..).of_pair e1) ((h.readExpchal ..).of_pair e1).rest

theorem execExpkeyWrite_canonical (h : Canonical s) (r : Req) (key : W32) : Outcome.Canonical (execExpkeyWrite r key s) :=
  .whilePowered h (.ite h (.ite (((((h.preqSet ..).set ..).inc ..).set ..).set ..) ((h.preqSet ..).set ..)))

/-! ### Addresses bound to telegrams -/

theorem Canonical.setSub (h : Canonical s) (i : Nat) (v : SubSt) : Canonical (s.setSub i v) := h.rest

theorem Canonical.bindAll (h : Canonical s) : Canonical s.bindAll :=
  .foldl _ h fun _ _ h1 => .ite (h1.setSub ..) h1

theorem Canonical.unbindAll (h : Canonical s) : Canonical s.unbindAll := h.rest

theorem Canonical.loadTables (h : Canonical s) (p : Program) : Canonical (s.loadTables p) :=
  (h.rest.set ..).set ..

/-! ### Program exchange -/

theorem Canonical.xCommand (h : Canonical s) (r : Req) (code why : Nat) {act : State → State} (hact : ∀ t, Canonical t → Canonical (act t))
    : Canonical (s.xCommand r code why act) :=
  .command h _ _ _ _ _ _ (hact)

theorem execExchangeStage_canonical (h : Canonical s) (r : Req) : Outcome.Canonical (execExchangeStage r s) :=
  .whilePowered h (.xCommand h _ _ _ (fun _ h1 => ((((h1.set ..).set ..).set ..).set ..).set ..))

theorem Canonical.setShadow (h : Canonical s) (p : Option Program) : Canonical (s.setShadow p) :=
  .ite h.rest h.rest

theorem Canonical.setActive (h : Canonical s) (p : Option Program) : Canonical (s.setActive p) :=
  .ite h.rest h.rest

theorem Canonical.foldVersion (h : Canonical s) (b : Bool) (p : Program) : Canonical (s.foldVersion b p) :=
  h.eachCh ..

theorem execExchangeFillDone_canonical (h : Canonical s) : Outcome.Canonical (execExchangeFillDone s) := by
  refine .whilePowered h (.ite h ?_)
  split
  exacts [(((((h.setShadow ..).foldVersion ..).set ..).set ..).set ..).set .., (h.set ..).set ..]

theorem execExchangeArm_canonical (h : Canonical s) (r : Req) : Outcome.Canonical (execExchangeArm r s) :=
  .whilePowered h (.xCommand h _ _ _ (fun _ h1 => h1.rest))

theorem execExchangeCancel_canonical (h : Canonical s) (r : Req) : Outcome.Canonical (execExchangeCancel r s) :=
  .whilePowered h (.xCommand h _ _ _ (fun _ h1 => ((((h1.setShadow ..).rest.set ..).set ..).set ..).set ..))

theorem Canonical.armTick (h : Canonical s) : Canonical s.armTick := by
  refine .ite h (.ite h.rest (.ite (h.rest.set ..) ?_))
  split
  exacts [((((h.rest.set ..).set ..).set ..).inc ..).rest.setPair .., h.rest]

theorem Canonical.moveHome4 (h : Canonical s) (p : Program) : Canonical (s.moveHome4 p) :=
  .foldl _ h fun _ _ h1 => by split; exacts [.ite (h1.withSmem (memWf_putBytes _ _ h1.smem)) h1, h1]

theorem Canonical.initHome4 (h : Canonical s) (ds : List SigDef) : Canonical (s.initHome4 ds) :=
  .foldl _ h fun _ _ h1 => .ite (h1.withSmem (memWf_putBytes _ _ h1.smem)) h1

theorem Canonical.setRep (h : Canonical s) (r : ExchRep) : Canonical (s.setRep r) := h.rest

theorem Canonical.enterSignals (h : Canonical s) (p : Program) : Canonical (s.enterSignals p) :=
  (((h.moveHome4 ..).initHome4 ..).mapCh ..).setRep ..

theorem Canonical.listed (h : Canonical s) (kind id : Nat) (inst : W32) : Canonical (s.listed kind id inst) :=
  h.setRep ..

theorem Canonical.showUse (h : Canonical s) (p : Program) : Canonical (s.showUse p) :=
  ((h.set ..).set ..).set ..

theorem Canonical.deleteSignals (h : Canonical s) (p : Program) : Canonical (s.deleteSignals p) :=
  .setRep (.foldl _ ((h.mapCh ..).dropForces ..) fun _ _ h1 => h1.listed ..) ..

theorem Canonical.countSwitch (h : Canonical s) (a b : Program) (k : Nat) : Canonical (s.countSwitch a b k) :=
  .foldl _ (.foldl _ (h.setRep ..) fun _ _ h1 => h1.listed ..) fun _ _ h1 => h1.listed ..

theorem Canonical.switchClass (h : Canonical s) (a b : Program) (k : Nat) : Canonical (s.switchClass a b k) :=
  .set (.orBits (.rest (.mapCh (.countSwitch (.foldl _ h fun _ _ h1 => h1.evSetPrivate ..) ..) ..)) ..) ..

theorem Canonical.showShadow (h : Canonical s) : Canonical s.showShadow := h.set ..

theorem Canonical.showProgram (h : Canonical s) : Canonical s.showProgram := h.rest

theorem Canonical.exchCommit (h : Canonical s) (next : Nat) : Canonical (s.exchCommit next) := by
  unfold State.exchCommit
  split
  · exact .ite (.also (.foldl _ (.ite (h.enterSignals ..) h) fun _ _ h1 => .ite (h1.switchClass ..) h1) fun h1 => (((((h1.deleteSignals
      ..).loadTables ..).showUse ..).set ..).rest.showProgram.set ..).showShadow) h
  · exact h

theorem Canonical.writeReport (h : Canonical s) (outcome : Nat) : Canonical (s.writeReport outcome) :=
  (((h.rest.fumarole ..).fumCont ..).fumCont ..).fumCont ..

theorem execExchangePersist_canonical (h : Canonical s) (written : Bool) : Outcome.Canonical (execExchangePersist written s) :=
  .whilePowered h (.ite h (.set (.emptyStaging (.writeReport (.set (.set (.ite (h.makeActive ..) h) ..) ..) ..)) ..))

/-! ### Train network -/

theorem Canonical.trailer (h : Canonical s) : Canonical s.trailer.2 := by
  unfold State.trailer
  split
  exacts [h.rest, h]

theorem Canonical.learn (h : Canonical s) (mac : BitVec 48) (x2 : Bool) : Canonical (s.learn mac x2) := h.rest

theorem Canonical.setPub (h : Canonical s) (i : Nat) (v : PubSt) : Canonical (s.setPub i v) := h.rest

theorem Canonical.capture (h : Canonical s) (f : Nat) : Canonical (s.capture f) :=
  .ite h (.foldl _ h fun _ _ h1 => .ite (h1.rest.setPub ..) h1)

theorem Canonical.netTick (h : Canonical s) : Canonical s.netTick := h.rest.set ..

theorem execPdTelegramLaunch_canonical (h : Canonical s) : Outcome.Canonical (execPdTelegramLaunch s) := by
  refine .whilePowered h ?_
  split
  · exact h
  · refine .ite h (.ite h.rest ?_)
    exact .also (.inc (.send (.trailer (.setPub h.rest ..)) ..) ..) (·.incSat ..)

theorem Canonical.atHead (h : Canonical s) (ring : Nat) : Canonical (s.atHead ring) := .ite h.rest h

theorem Canonical.txDone (h : Canonical s) (ring stat ts : Nat) : Canonical (s.txDone ring stat ts) :=
  ((h.withSmem (memWf_dmaPut _ _ (memWf_dmaPut _ _ h.smem))).ringTake ..).atHead ..

theorem Canonical.txSend (h : Canonical s) (ring : Nat) (x : TxHead) (frame : List Byte) (ports : List Nat) (skew : Nat) : Canonical
    (s.txSend ring x frame ports skew) := by
  unfold State.txSend
  split
  next e1 =>
  exact .foldl _ ((h.trailer).of_pair e1) fun _ _ h2 => h2.send ..

theorem execTxDescriptorLaunch_canonical (h : Canonical s) (n : Fin 3) (skew : Nat) : Outcome.Canonical (execTxDescriptorLaunch n skew s) :=
  .whilePowered h (.ite h (.unless (h.txDone ..) fun h1 => .ite (h.txDone ..) (.ite h1 (.ite h (.ite (.txDone (.ite (h.incSat ..) h) ..)
    (.ite h (.txDone (.txSend (.ite (h.incSat ..) h) ..) ..)))))))

theorem execRingHeadWrite_canonical (h : Canonical s) (r : Req) (ring : Fin 64) (v : BitVec 16) : Outcome.Canonical (execRingHeadWrite r
    ring v s) :=
  .whilePowered h (.ite (.also (h.set ..) (·.atHead ..)) h)

theorem execRingTailWrite_canonical (h : Canonical s) (r : Req) (ring : Fin 64) (v : BitVec 16) : Outcome.Canonical (execRingTailWrite r
    ring v s) :=
  .whilePowered h (.ite (h.set ..) h)

theorem Canonical.showLans (h : Canonical s) : Canonical s.showLans := (h.set ..).set ..

theorem Canonical.rxRing (h : Canonical s) (ring : Nat) (f : RxFrame) : Canonical (s.rxRing ring f) :=
  .ite h (.ite ((h.incSat ..).flag ..) 
    ((h.withSmem (memWf_dmaPut _ _ (memWf_dmaPut _ _ (memWf_dmaPut _ _ h.smem)))).set ..))

theorem Canonical.pdDrop (h : Canonical s) (epoch : Bool) : Canonical (s.pdDrop epoch) :=
  .ite ((h.incSat ..).flag ..) (h.incSat ..)

theorem Canonical.sdtFold (h : Canonical s) (i : Nat) (e : List W32) (data : List Byte) : Canonical (s.sdtFold i e data) :=
  h.eachCh ..

theorem Canonical.pdCheck (h : Canonical s) (f : RxFrame) (t : PdTel) : Canonical (s.pdCheck f t) := by
  refine .ite (h.incSat ..) ?_
  split
  · exact h.rxRing ..
  · refine .ite (h.incSat ..) (.ite ((h.incSat ..).flag ..) (.ite (((h.sdtFold ..).incSat ..).flag ..) ?_))
    dsimp only
    split
    · exact .pdDrop (.ite (h.sdtFold ..) h) ..
    · exact .rest (.ite (h.sdtFold ..) h)

theorem Canonical.hear (h : Canonical s) (f : RxFrame) : Canonical (s.hear f) := h.rest.showLans

theorem Canonical.prpKeep (h : Canonical s) (f : RxFrame) : Canonical (s.prpKeep f) := by
  unfold State.prpKeep
  split
  exacts [.ite h.rest h, h]

theorem execFrameReceive_canonical (h : Canonical s) (f : RxFrame) : Outcome.Canonical (execFrameReceive f s) := by
  have heard : Canonical (if s.pmode = 0 then s.hear f else if s.pmode = 1 then s.learn f.mac (f.port = 2) else s) :=
    .ite (h.hear ..) (.ite (h.learn ..) h)
  refine .whilePowered h (.ite h (.ite (heard.inc ..) ?_))
  dsimp only
  split
  · exact .ite ((heard.prpKeep ..).rxRing ..) ((heard.prpKeep ..).pdCheck ..)
  · exact (heard.prpKeep ..).rxRing ..

theorem Canonical.telUpdate (h : Canonical s) (i : Nat) (src : Src) (val : DirEnt → W32 × W32 → List Byte) :
    Canonical (s.telUpdate i src val) :=
  .foldl _ h fun _ _ h1 => (by split; exacts [.ite h1 (h1.input ..), h1])

theorem execTelegramAccept_canonical (h : Canonical s) : Outcome.Canonical (execTelegramAccept s) := by
  refine .whilePowered h ?_
  split
  · exact h
  · dsimp only
    split
    · exact h.rest.pdDrop ..
    · exact .telUpdate (.inc (.setSub h.rest ..) ..) ..

theorem Canonical.showUcause (h : Canonical s) : Canonical s.showUcause := .ite h (h.set ..)

theorem Canonical.probe (h : Canonical s) (addr : W32) : Canonical (s.probe addr) := h.trailer.send ..

theorem Canonical.derive (h : Canonical s) : Canonical s.derive :=
  .ite (.also ((((h.set ..).set ..).set ..).showUcause.probe ..) (·.probe ..)) (((h.set ..).set ..).set ..).showUcause

theorem Canonical.becomeAddressed (h : Canonical s) : Canonical s.becomeAddressed :=
  ((((h.set ..).set ..).set ..).set ..).bindAll

theorem Canonical.becomeUnaddressed (h : Canonical s) : Canonical s.becomeUnaddressed :=
  (((h.set ..).set ..).set ..).rest.unbindAll.derive

theorem Canonical.addrTick (h : Canonical s) : Canonical s.addrTick := by
  unfold State.addrTick
  split
  exacts [.ite h.rest.becomeAddressed h, h.becomeUnaddressed, .ite h.rest.bindAll h]

theorem execInauguration_canonical (h : Canonical s) (etb op : W32) (cst : Nat) (vehs : List (Nat × List Byte)) (tnid : W32) (resolved : Tbl
    W32) : Outcome.Canonical (execInauguration etb op cst vehs tnid resolved s) :=
  .whilePowered h (.ite h (.also (.rest (.inc (.set (.set (.ite ((h.flag ..).set ..).rest.bindAll ((h.flag ..).set ..).rest) ..) ..) ..))
    fun h1 => .ite (h1.flag ..).rest (h1.flag ..).rest.derive))

/-! ### Copy records -/

theorem Canonical.noteGuards (h : Canonical s) : Canonical s.noteGuards := h.rest

/-! ### The module pair -/

theorem Canonical.showRole (h : Canonical s) (r : Role) (fcause : Nat) : Canonical (s.showRole r fcause) :=
  .also (((h.set ..).set ..).set ..) (·.rest)

theorem Canonical.toRole (h : Canonical s) (r : Role) (fcause : Nat) : Canonical (s.toRole r fcause) :=
  (h.showRole ..).testCheck

theorem Canonical.pairRecord (h : Canonical s) (code : Nat) : Canonical (s.pairRecord code) := h.fumarole ..

theorem Canonical.raiseEpoch (h : Canonical s) : Canonical s.raiseEpoch := h.set ..

theorem Canonical.assertPact (h : Canonical s) : Canonical s.assertPact := (h.set ..).rest

theorem Canonical.promote (h : Canonical s) (a : Nat) : Canonical (s.promote a) :=
  (((((h.assertPact.raiseEpoch.toRole ..).flag ..).incSat ..).setPair ..).set ..).rest.pairRecord ..

theorem Canonical.wouldPromote (h : Canonical s) : Canonical s.wouldPromote :=
  .ite (h.promote ..) (.also (h.flag ..) (·.acceptRestart ..))

theorem Canonical.joinBegin (h : Canonical s) : Canonical s.joinBegin := (h.set ..).rest

theorem Canonical.joinFail (h : Canonical s) : Canonical s.joinFail :=
  .ite (((h.rest.pairRecord ..).flag ..).toRole ..).rest (h.rest.pairRecord ..).joinBegin

theorem Canonical.discardImage (h : Canonical s) : Canonical s.discardImage := by
  unfold State.discardImage
  split
  exacts [h.mapCh .., h]

theorem Canonical.hbRole (h : Canonical s) (x : Heartbeat) : Canonical (s.hbRole x) := by
  unfold State.hbRole
  split
  · exact .ite (h.toRole ..).rest h
  · exact .ite h (h.toRole ..)
  · exact .ite h.wouldPromote (.ite h.joinFail h)
  · exact .ite (h.toRole ..).rest.joinBegin h
  · exact h

theorem execHeartbeatTimeout_canonical (h : Canonical s) : Outcome.Canonical (execHeartbeatTimeout s) := by
  refine .whilePowered h (.testCheck ?_)
  split
  exacts [(h.rest.flag ..).toRole .., (h.rest.flag ..).wouldPromote, h.rest.flag ..]

theorem execStartRoleDecision_canonical (h : Canonical s) (m66en : Bool) : Outcome.Canonical (execStartRoleDecision m66en s) :=
  .whilePowered h (.ite h (.also (.ite (h.rest.flag ..) h.rest) fun h1 => (h1.takeDuties ..).testCheck))

theorem Canonical.takeStartRole (h : Canonical s) : Canonical s.takeStartRole := by
  unfold State.takeStartRole
  split
  · exact h
  · exact h.assertPact.raiseEpoch.toRole ..
  · exact (h.discardImage.toRole ..).joinBegin
  · exact (h.toRole ..).pairRecord ..

theorem Canonical.yieldNow (h : Canonical s) (cause : Nat) : Canonical (s.yieldNow cause) :=
  .ite (((h.dropWork.outputsOff.giveUpDuties.set ..).toRole ..).rest.pairRecord ..) (((((h.dropWork.outputsOff.giveUpDuties.set ..).toRole
   ..).rest.flag ..).incSat ..).pairRecord ..)

theorem Canonical.resumeExch (h : Canonical s) (f : Nat) : Canonical (s.resumeExch f) :=
  (h.rest.exchCommit ..).rest

theorem Canonical.resumeTick (h : Canonical s) : Canonical s.resumeTick := by
  unfold State.resumeTick
  split
  · exact h
  · next a _ =>
    extract_lets f _ s1 s2 n
    have h2 : Canonical s2 := .foldl _ (h.rest.resumeExch f) fun _ _ h1 => by split; exacts [h1.incSat .., h1]
    split
    · exact h2.set ..
    · exact (h2.fresh 8).set ..

theorem Canonical.pairTick (h : Canonical s) : Canonical s.pairTick := by
  unfold State.pairTick
  dsimp only
  split
  · split
    exacts [h.yieldNow .., .ite (h.yieldNow ..) h.resumeTick, h.resumeTick]
  · split
    exacts [h.yieldNow .., .ite (h.yieldNow ..) h.resumeTick, h.resumeTick]
  · split
    · exact .unless (.ite h.joinBegin h) fun h1 => .ite (h1.promote ..).resumeTick h1.rest
    · exact .ite h.joinBegin h
  · exact h

theorem Canonical.firstAgain (h : Canonical s) (mask : Nat) : Canonical (s.firstAgain mask) := h.rest

theorem Canonical.takeExch (h : Canonical s) (x : W32) (armf : Nat) (swf : List Nat) : Canonical (s.takeExch x armf swf) :=
  .ite h (.ite ((((h.firstAgain ..).setReg ..).setPair ..).rest.set ..) (((h.firstAgain ..).setReg ..).setPair ..).rest)

theorem Canonical.takeRep (h : Canonical s) (q : W32) (r : ExchRep) : Canonical (s.takeRep q r) :=
  .setRep (.set (.ite h (h.set ..)) ..) ..

theorem Canonical.applyExch (h : Canonical s) (n : Nat) (x : W32) (armf : Nat) (swf : List Nat) : Canonical (s.applyExch n x armf swf) := by
  unfold State.applyExch
  dsimp only
  split
  · exact .also (.also (h.takeExch ..) fun h1 => (h1.rest.enterSignals ..).rest) fun h1 => ((((h1.deleteSignals ..).loadTables ..).showUse
      ..).rest.showProgram.set ..).showShadow
  · exact h.takeExch ..

theorem Canonical.foldItem (h : Canonical s) (i : CopyItem) : Canonical (s.foldItem i) := by
  unfold State.foldItem
  split
  exacts [.ite h (h.foldVersion ..), h.eachCh ..]

theorem Canonical.putHome4 (h : Canonical s) (e : DirEnt) (v : List Byte) : Canonical (s.putHome4 e v) :=
  .ite (h.withSmem (memWf_putBytes _ _ h.smem)) h

theorem Canonical.takeVersion (h : Canonical s) (p : Program) : Canonical (s.takeVersion p) :=
  .set (.also ((((h.setActive ..).loadTables ..).showUse ..).mapCh ..) (·.showProgram)) ..

theorem Canonical.takeItem (h : Canonical s) (n : Nat) (x : CopyItem) : Canonical (s.takeItem n x) := by
  unfold State.takeItem
  split
  · split
    exacts [(h.eachCh ..).putHome4 .., h.eachCh ..]
  · exact h.eachCh ..
  · exact h.setForces ..
  · exact h.setForces ..
  · exact h.set ..
  · exact h.set ..
  · exact h.applyExch ..
  · exact h.takeRep ..
  · exact h.setPub ..
  · exact h.set ..
  · exact .ite (h.takeVersion ..) (.ite h (h.setShadow ..).showShadow)
  · exact (h.eachCh ..).putHome4 ..
  · exact h

theorem Canonical.applyItem (h : Canonical s) (n : Nat) (i : CopyItem) : Canonical (s.applyItem n i) :=
  (h.foldItem ..).takeItem ..

theorem Canonical.applyBulk (h : Canonical s) (b : Nat) (i : CopyItem) : Canonical (s.applyBulk b i) := by
  unfold State.applyBulk
  split
  exacts [(h.foldItem ..).takeExch .., h.applyItem ..]

theorem Canonical.applyItems (h : Canonical s) (n : Nat) (l : List CopyItem) : Canonical (s.applyItems n l) :=
  .foldl _ h fun _ _ h1 => h1.applyItem ..

theorem Canonical.dropHeld (h : Canonical s) (n : Nat) : Canonical (s.dropHeld n) := h.rest

theorem Canonical.retDue (h : Canonical s) (n ns : Nat) : Canonical (s.retDue n ns) :=
  .rest (.also (.ite (h.incSat ..) h) (·.set ..))

theorem Canonical.judgeCopy (h : Canonical s) (e : CopyEnd) : Canonical (s.judgeCopy e) :=
  .ite (.retDue (.also (((h.send ..).setPair ..).set ..) fun h1 => (h1.set ..).rest) ..) (.ite ((h.send ..).flag ..).joinFail ((h.send
   ..).flag ..).joinBegin)

theorem Canonical.endCopy (h : Canonical s) (e : CopyEnd) : Canonical (s.endCopy e) :=
  .ite h (.ite h.rest (.also (h.dropHeld ..) fun h1 => (h1.applyItems ..).judgeCopy ..))

theorem Canonical.noAwait (h : Canonical s) (n : Nat) : Canonical (s.noAwait n) := h.rest

theorem Canonical.bulkAgain (h : Canonical s) (n : Nat) : Canonical (s.bulkAgain n) := by
  unfold State.bulkAgain
  split
  exacts [.ite h.rest h, h]

theorem Canonical.bulkWrong (h : Canonical s) (n : Nat) : Canonical (s.bulkWrong n) := by
  unfold State.bulkWrong
  split
  exacts [.ite h.rest h, h]

theorem execGeyserAckReceive_canonical (h : Canonical s) (n status : Nat) : Outcome.Canonical (execGeyserAckReceive n status s) :=
  .whilePowered h (.ite h (.ite ((((h.noAwait ..).bulkWrong ..).flag ..).set ..) (.ite h (((h.noAwait ..).setPair ..).set ..))))

theorem execAckMiss_canonical (h : Canonical s) (n : Nat) : Outcome.Canonical (execAckMiss n s) := by
  refine .whilePowered h (.ite h ?_)
  split
  · exact .ite ((((h.noAwait ..).bulkAgain ..).flag ..).set ..) h
  · exact .ite h (.ite (.ite h.joinFail h) h.joinBegin)
  · exact h

theorem execBulkReceive_canonical (h : Canonical s) (b copyfmt total mib : Nat) (items : List CopyItem) : Outcome.Canonical (execBulkReceive
    b copyfmt total mib items s) :=
  .whilePowered h (.ite h (.ite h.joinFail (.foldl _ ((h.set ..).set ..).rest fun _ _ h1 => h1.applyBulk ..)))

theorem Canonical.pairCommand (h : Canonical s) (r : Req) (code why : Nat) {act : State → State} (hact : ∀ t, Canonical t → Canonical (act
    t)) : Canonical (s.pairCommand r code why act) :=
  .command h _ _ _ _ _ _ (hact)

theorem execSwitchover_canonical (h : Canonical s) (r : Req) : Outcome.Canonical (execSwitchover r s) :=
  .whilePowered h (.pairCommand h _ _ _ (fun _ h1 => (h1.send ..).rest))

theorem execFence_canonical (h : Canonical s) (r : Req) : Outcome.Canonical (execFence r s) :=
  .whilePowered h (.pairCommand h _ _ _ (fun _ h1 => .ite h1.rest ((h1.toRole ..).rest.pairRecord ..)))

theorem execUnfence_canonical (h : Canonical s) (r : Req) : Outcome.Canonical (execUnfence r s) :=
  .whilePowered h (.pairCommand h _ _ _ (fun _ h1 => h1.rest))

/-! ### Retain areas -/

theorem Canonical.sealRec (h : Canonical s) (r : RetBuf) : Canonical (s.sealRec r) :=
  ((((h.rest.set ..).set ..).set ..).setPair ..).set ..

theorem execRetainRecordWrite_canonical (h : Canonical s) : Outcome.Canonical (execRetainRecordWrite s) :=
  .whilePowered h (by split; exacts [.ite (h.sealRec ..) h, h])

theorem execRetainBufferCutoff_canonical (h : Canonical s) (placed : Bool) (op1Us mv10 : BitVec 16) :
    Outcome.Canonical (execRetainBufferCutoff placed op1Us mv10 s) := by
  refine .next ?_
  split
  · exact h
  · split
    next w _ outcome s1 e =>
    have h1 : Canonical s1 := by
      split at e
      · cases e
        exact h
      · split at e
        · cases e
          exact h
        · split at e
          · cases e
            exact h.sealRec ..
          · cases e
            exact h.rest
    exact .rest ((h1.fumarole ..).setSupply ..)

theorem Canonical.restoreTimers (h : Canonical s) (b : RetBuf) : Canonical (s.restoreTimers b) :=
  (h.mapCh ..).rest

theorem Canonical.restoreGuards (h : Canonical s) (b : RetBuf) : Canonical (s.restoreGuards b) :=
  .ite (.forN _ h fun _ _ h1 => .ite (h1.putBit ..) h1) h

/-! ### The vote unit -/

theorem Canonical.discard (h : Canonical s) (task cls eng cause : Nat) : Canonical (s.discard task cls eng cause) :=
  h.rest.evSetPrivate ..

theorem Canonical.raiseVoted (h : Canonical s) (task : Nat) (r : ExcRec) : Canonical (s.raiseVoted task r) :=
  .also ((((h.fumarole ..).putBit ..).evSetPrivate ..).discard ..) (·.rest)

theorem Canonical.setLead (h : Canonical s) : Canonical s.setLead := by
  unfold State.setLead
  split
  exacts [((h.set ..).set ..).set .., ((h.set ..).set ..).set .., ((h.set ..).set ..).set ..]

theorem Canonical.voteRecord (h : Canonical s) (code : Nat) (ch : Ch) (d : Devn) : Canonical (s.voteRecord code ch d) :=
  h.fumarole ..

theorem Canonical.excludePerm (h : Canonical s) (ch : Ch) (d : Devn) (reason : Nat) : Canonical (s.excludePerm ch d reason) :=
  ((((h.set ..).set ..).set ..).flag ..).rest.voteRecord ..

theorem Canonical.exclude (h : Canonical s) (ch : Ch) (cause : Nat) (d : Devn) : Canonical (s.exclude ch cause d) :=
  .also (((((((((((h.setCh ..).putBit ..).set ..).set ..).set ..).set ..).set ..).flag ..).incSat ..).setLead.setChRec ..).voteRecord ..)
    (·.excludePerm ..)

theorem Canonical.failProbation (h : Canonical s) (ch : Ch) (d : Devn) : Canonical (s.failProbation ch d) :=
  ((h.exclude ..).flag ..).set ..

theorem Canonical.markVoted (h : Canonical s) (path seq agree : Nat) : Canonical (s.markVoted path seq agree) :=
  .ite h (h.mapCh ..)

theorem Canonical.countWindow (h : Canonical s) (path : Nat) : Canonical (s.countWindow path) :=
  .ite h (h.setPair ..)

theorem Canonical.checkProbation (h : Canonical s) (g : VGroup) (stands : Option Close) : Canonical (s.checkProbation g stands) := by
  unfold State.checkProbation
  split
  exacts [h, .ite h (h.failProbation ..)]

theorem Canonical.voteGroup (h : Canonical s) (g : VGroup) : Canonical (s.voteGroup g) := by
  refine .ite ((h.flag ..).trigger ..) (.ite (h.trigger ..) (.also (.checkProbation ?_ ..) fun h1 => ?_))
  · split
    · split
      exacts [((h.markVoted ..).countWindow ..).raiseVoted .., (h.markVoted ..).countWindow ..]
    · exact h
  · split
    exacts [.ite (h1.exclude ..) h1, h1]

theorem Canonical.voteFront (h : Canonical s) : Canonical s.voteFront := by
  unfold State.voteFront
  split
  exacts [h, h.rest.voteGroup ..]

theorem Canonical.voteAll (h : Canonical s) (n : Nat) : Canonical (s.voteAll n) := by
  induction n generalizing s with
  | zero => exact h
  | succ n ih => exact ih h.voteFront

theorem Canonical.voterFaults (h : Canonical s) (v1 v2 : Option VoterSays) : Canonical (s.voterFaults v1 v2) :=
  h.rest

theorem execDelayParityError_canonical (h : Canonical s) (ch : Ch) (stage : BitVec 4) : Outcome.Canonical (execDelayParityError ch stage s)
    :=
  .whilePowered h (.ite h (.ite ((h.flag ..).failProbation ..) (.ite ((h.flag ..).trigger ..) ((h.flag ..).exclude ..))))

theorem Canonical.showAttempts (h : Canonical s) : Canonical s.showAttempts :=
  .foldl _ h fun _ _ h1 => h1.set ..

theorem execClearperm_canonical (h : Canonical s) (r : Req) : Outcome.Canonical (execClearperm r s) :=
  .whilePowered h (.commandNoReason h _ _ _ _ _ (fun _ h1 => h1.rest))

/-! ### Network time -/

theorem Canonical.toSync (h : Canonical s) (n : Nat) : Canonical (s.toSync n) :=
  .set (.set (.rest (.ite (h.flag ..) h)) ..) ..

theorem Canonical.addTime (h : Canonical s) (d : Int) : Canonical (s.addTime d) := h.rest

theorem Canonical.showSlew (h : Canonical s) : Canonical s.showSlew := h.set ..

theorem Canonical.slewBy (h : Canonical s) (d : Int) : Canonical (s.slewBy d) := .ite h h.rest.showSlew

theorem Canonical.rephase (h : Canonical s) (d : Int) : Canonical (s.rephase d) := .ite h h.rest.showSlew

theorem Canonical.applyStep (h : Canonical s) (d : Int) (reph : Bool) : Canonical (s.applyStep d reph) :=
  .also (.set (.inc (.ite ((h.addTime ..).rephase ..) ((h.addTime ..).slewBy ..)) ..) ..) (·.toSync ..)

theorem Canonical.writeStep (h : Canonical s) (lo hi : W32) : Canonical (s.writeStep lo hi) :=
  .ite ((((h.setPair ..).set ..).applyStep ..).inc ..) ((((((h.setPair ..).set ..).set ..).flag ..).incSat ..).toSync ..)

theorem Canonical.takeHeld (h : Canonical s) (r : Req) (lo : Nat) : Canonical (s.takeHeld r lo).2 := by
  unfold State.takeHeld
  split
  exacts [h.rest, h]

theorem execTimeStep_canonical (h : Canonical s) (r : Req) (hi : W32) : Outcome.Canonical (execTimeStep r hi s) :=
  .whilePowered h (.ite h (by split; next e1 => exact ((h.takeHeld ..).of_pair e1).writeStep ..))

theorem Canonical.forcePend (h : Canonical s) : Canonical s.forcePend :=
  (((h.applyStep ..).flag ..).toSync ..).fumarole ..

theorem execTimeForce_canonical (h : Canonical s) (r : Req) : Outcome.Canonical (execTimeForce r s) :=
  .whilePowered h (.command h _ _ _ _ _ _ (fun _ h1 => h1.forcePend))

theorem execPtpOffsetMeasurement_canonical (h : Canonical s) (ns : Int) : Outcome.Canonical (execPtpOffsetMeasurement ns s) :=
  .whilePowered h (.ite h (.ite ((h.set ..).rest.toSync ..) (.ite ((h.set ..).rest.toSync ..) (h.set ..).rest)))

theorem Canonical.selectMaster (h : Canonical s) (m : Announce) : Canonical (s.selectMaster m) :=
  ((h.rest.setPair ..).set ..).set ..

theorem Canonical.dropMaster (h : Canonical s) : Canonical s.dropMaster :=
  .ite (((h.rest.setPair ..).set ..).flag ..) h.rest

theorem execAnnounceReceive_canonical (h : Canonical s) (m : Announce) : Outcome.Canonical (execAnnounceReceive m s) := by
  refine .whilePowered h (.ite h ?_)
  split
  · exact .ite h.dropMaster ((h.selectMaster ..).flag ..)
  · exact .ite (.ite h.dropMaster (h.selectMaster ..)) (.ite ((h.selectMaster ..).flag ..) h)

theorem execIncrWrite_canonical (h : Canonical s) (r : Req) (hi : W32) : Outcome.Canonical (execIncrWrite r hi s) := by
  refine .whilePowered h (.ite h ?_)
  split
  next e1 =>
  exact .unless (((h.takeHeld ..).of_pair e1).setPair ..) (·.flag ..)

theorem Canonical.second (h : Canonical s) : Canonical s.second :=
  .also (.also (.ite (h.set ..) h) (·.incSat ..)) (·.set ..)

theorem Canonical.cycle (h : Canonical s) : Canonical s.cycle := .ite h.rest (.ite h.rest h.rest.rest.second)

/-! ### The frame -/

theorem Canonical.showTick (h : Canonical s) : Canonical s.showTick := ((h.setPair ..).set ..).showSlew.set ..

theorem Canonical.rephased (h : Canonical s) (step : BitVec 64) : Canonical (s.rephased step) :=
  .forN _ (((h.flag ..).inc ..).fumarole ..) fun _ _ h1 => h1.evSetPrivate ..

theorem Canonical.gongAdvance (h : Canonical s) : Canonical s.gongAdvance :=
  .ite (h.rest.showTick.rephased ..) h.rest.showTick

theorem Canonical.tickTriggers (h : Canonical s) : Canonical s.tickTriggers :=
  .also (.ite ((h.flag ..).trigger ..) h) (·.trigger ..)

theorem Canonical.startRecord (h : Canonical s) : Canonical s.startRecord := h.fumarole ..

theorem Canonical.endTrial (h : Canonical s) : Canonical s.endTrial := by
  have h1 := ((h.set R.UPD.STATE.TRIAL 0).set R.UPD.STATE.TRIALS 0).writeSlotRec
  refine .ite h ?_
  dsimp only
  split
  · exact .ite ((h1.set ..).flag ..) h1
  · exact h1

theorem Canonical.firstStamps (h : Canonical s) : Canonical s.firstStamps := by
  unfold State.firstStamps
  exact h.mapCh ..

theorem Canonical.beginRun (h : Canonical s) : Canonical s.beginRun := by
  refine .firstStamps (.takeStartRole (.endTrial (.startRecord ?_)))
  split
  · exact (((h.set ..).toState ..).rest.restoreTimers ..).restoreGuards ..
  · exact ((h.set ..).toState ..).rest

theorem Canonical.closeInputs (h : Canonical s) : Canonical s.closeInputs :=
  .unless (h.mapCh ..) (·.voteGroup ..)

theorem Canonical.resyncStart (h : Canonical s) (ch : Ch) : Canonical (s.resyncStart ch) :=
  .ite (h.excludePerm ..) ((((((h.setCh ..).resetDreg ..).setChRec ..).set ..).set ..).set ..).rest

theorem Canonical.probationStart (h : Canonical s) (ch : Ch) : Canonical (s.probationStart ch) :=
  ((h.setCh ..).set ..).set ..

theorem Canonical.readmit (h : Canonical s) (ch : Ch) : Canonical (s.readmit ch) :=
  ((((((h.putBit ..).set ..).set ..).set ..).flag ..).setLead.setChRec ..).voteRecord ..

theorem Canonical.resyncTick (h : Canonical s) (ch : Ch) : Canonical (s.resyncTick ch) := by
  unfold State.resyncTick
  split
  exacts [h.resyncStart .., .ite (h.probationStart ..) h, .ite (h.readmit ..) h, h]

theorem Canonical.showCopying (h : Canonical s) : Canonical s.showCopying := .ite (h.set ..).rest h

theorem Canonical.voteTick (h : Canonical s) : Canonical s.voteTick :=
  .ite h.closeInputs (.showAttempts (.foldl _ h.closeInputs.showCopying fun _ _ h1 => .ite (h1.resyncTick ..) h1))

theorem Canonical.showHeld (h : Canonical s) : Canonical s.showHeld := h.set ..

theorem Canonical.dropPassed (h : Canonical s) : Canonical s.dropPassed := (h.mapCh ..).rest.evReturn ..

theorem Canonical.releaseClass (h : Canonical s) (k : Nat) : Canonical (s.releaseClass k) := by
  unfold State.releaseClass
  split
  · exact h
  · exact .ite h (.rest (.eachCh (.readHome4 (.foldl _ h fun _ _ h1 => h1.freshCheck ..) ..) ..))

theorem Canonical.releaseAll (h : Canonical s) : Canonical s.releaseAll :=
  .ite h (.forN _ h fun _ _ h1 => .ite (h1.releaseClass ..) h1)

theorem Canonical.frameReset (h : Canonical s) : Canonical s.frameReset := (h.mapCh ..).rest

theorem Canonical.addrStep (h : Canonical s) : Canonical s.addrStep := .ite (h.addrTick.testEnd ..) h.addrTick

theorem Canonical.unitsTick (h : Canonical s) : Canonical s.unitsTick :=
  .unless (.voteTick (.ite h.addrStep.netTick.pairTick.armTick h.addrStep.netTick)) (·.sioTick.noteGuards.spdTick)

theorem Canonical.tickEdge (h : Canonical s) : Canonical s.tickEdge :=
  h.tickTriggers.gongAdvance.forceTick.lcTick.silTick

theorem Canonical.tickBegun (h : Canonical s) : Canonical s.tickBegun := .ite h.tickEdge.beginRun h.tickEdge

theorem Canonical.tickUnits (h : Canonical s) : Canonical s.tickUnits := h.tickBegun.frameReset.unitsTick

theorem Canonical.startNext (h : Canonical s) (e : Eng) : Canonical (s.startNext e) := by
  unfold State.startNext
  dsimp only
  split
  · exact h.rest
  · split
    exacts [h.rest.mapCh .., h.rest]

theorem Canonical.beginPhaseRun (h : Canonical s) : Canonical s.beginPhaseRun :=
  .ite (h.set ..).flushInbound h

theorem Canonical.cutEngine (h : Canonical s) (e : Eng) : Canonical (s.cutEngine e) := h.onEngine ..

theorem Canonical.dropInst (h : Canonical s) (e : Eng) (task : Nat) : Canonical (s.dropInst e task) :=
  h.mapCh ..

theorem Canonical.cutSeg (h : Canonical s) (e : Eng) (g : SegEnt) : Canonical (s.cutSeg e g) := by
  unfold State.cutSeg
  dsimp only
  split
  exacts [h, .ite h ((h.dropInst ..).discard ..)]

theorem Canonical.showPeaks (h : Canonical s) : Canonical s.showPeaks := .forN _ h fun _ _ h1 => h1.set ..

theorem Canonical.pendDemands (h : Canonical s) : Canonical s.pendDemands :=
  .foldl _ h fun _ _ h1 => .ite h1 (h1.setOutp ..)

theorem Canonical.cutWork (h : Canonical s) : Canonical s.cutWork :=
  .unless (h.voteAll ..) fun h1 => .pendDemands (.goneReads (.mapCh (.foldl _ (.showPeaks (.foldl _ h1 fun _ _ h2 => h2.cutEngine ..)) fun _
    _ h2 => .foldl _ h2 fun _ _ h3 => h3.cutSeg ..) ..))

theorem Canonical.applyWrites (h : Canonical s) (ts : List Nat) : Canonical (s.applyWrites ts) := by
  unfold State.applyWrites
  exact (h.mapCh ..).mapCh ..

theorem Canonical.endCycles (h : Canonical s) (ts : List Nat) : Canonical (s.endCycles ts) :=
  .foldl _ h.rest fun _ _ h1 => .ite ((h1.set ..).inc ..) h1

theorem Canonical.captureView (h : Canonical s) (ts : List Nat) (next : Nat) : Canonical (s.captureView ts next) :=
  .ite (((h.applyWrites ..).endCycles ..).exchCommit ..) h

theorem Canonical.commitVotes (h : Canonical s) : Canonical s.commitVotes :=
  .unless (h.voteAll ..) fun h1 => .unless (h1.voteGroup ..) fun h2 => .set (.forN _ h2 fun _ _ h3 => h3.set ..) ..

theorem Canonical.releaseEntries (h : Canonical s) (ts : List Nat) : Canonical (s.releaseEntries ts) :=
  .foldl _ h fun _ _ h1 => .foldl _ h1 fun _ _ h2 => h2.release ..

theorem Canonical.clearEntries (h : Canonical s) (ts : List Nat) : Canonical (s.clearEntries ts) := by
  unfold State.clearEntries
  exact (h.mapCh ..).mapCh ..

theorem Canonical.countSkip (h : Canonical s) (k : Nat) (d : Discard) : Canonical (s.countSkip k d) :=
  ((((h.incSat ..).incSat ..).orBits ..).fumarole ..).rest

theorem Canonical.countSkips (h : Canonical s) : Canonical s.countSkips := by
  refine .unless (.forN _ h fun _ _ h1 => ?_) fun h1 => ?_
  · split
    exacts [h1.countSkip .., h1]
  · split
    exacts [(((h1.set ..).set ..).set ..).setPair .., h1]

theorem Canonical.endTriggers (h : Canonical s) (hits faults : List Nat) : Canonical (s.endTriggers hits faults) := by
  unfold State.endTriggers
  dsimp only
  split
  · split
    exacts [(h.orBits ..).trigger .., h]
  · exact .trigger (by split; exacts [(h.orBits ..).trigger .., h]) ..

theorem Canonical.startBulk (h : Canonical s) (f : Nat) : Canonical (s.startBulk f) := by
  unfold State.startBulk
  split
  exacts [.ite (h.send ..).rest h, h]

theorem Canonical.sendBulk (h : Canonical s) (f n : Nat) : Canonical (s.sendBulk f n) := by
  unfold State.sendBulk
  split
  exacts [.ite (h.rest.send ..).rest h.rest, h]

theorem Canonical.sendCopy (h : Canonical s) (old : Chan) (insts : List Inst) : Canonical (s.sendCopy old insts) :=
  (((h.send ..).rest.set ..).startBulk ..).sendBulk ..

theorem Canonical.returnClaims (h : Canonical s) : Canonical s.returnClaims := h.evReturn ..

theorem Canonical.execDemands (h : Canonical s) : Canonical s.execDemands :=
  .forN _ h fun _ _ h1 => h1.execDemand ..

theorem Canonical.commitWork (h : Canonical s) : Canonical s.commitWork :=
  .endTriggers (.returnClaims (.rest (.also (((((((h.releaseEntries ..).clearEntries ..).applyWrites ..).execDemands.countSkips.endCycles
   ..).exchCommit ..).capture ..).retDue ..) (·.sendCopy ..)))) ..

theorem Canonical.commitFrame (h : Canonical s) : Canonical s.commitFrame :=
  .set (.ite h.commitVotes (.ite h.commitVotes.commitWork h.commitVotes.execDemands)) ..

/-! ### System instructions -/

theorem Canonical.finishSeg (h : Canonical s) (u : State) (e : Eng) : Canonical (s.finishSeg u e) := by
  unfold State.finishSeg
  dsimp only
  split
  exacts [.ite (h.set ..) h, h]

/-! ### The start -/

theorem Canonical.stopAll (h : Canonical s) : Canonical s.stopAll :=
  h.outputsOff.dropWork.giveUpDuties.leaveRole.testEnd ..

theorem Canonical.restoreVote (h : Canonical s) : Canonical s.restoreVote := by
  unfold State.restoreVote
  dsimp only
  split
  · exact .setLead (.set (.foldl _ (((((h.rest.resetDreg ..).resetDreg ..).set ..).set ..).set ..) fun _ _ h1 => h1.set ..) ..)
  · exact .setLead (.set (.set (.set (.set (.set (.putBit (.set (.foldl _ (((((h.rest.resetDreg ..).resetDreg ..).set ..).set ..).set ..)
      fun _ _ h1 => h1.set ..) ..) ..) ..) ..) ..) ..) ..)

theorem Canonical.restoreStaging (h : Canonical s) : Canonical s.restoreStaging := by
  unfold State.restoreStaging
  split
  exacts [.ite (((h.set ..).set ..).setStgid ..) h, h]

theorem Canonical.clearHidden (h : Canonical s) (warm : Bool) : Canonical (s.clearHidden warm) := ⟨h.regs, h.smem, rfl⟩

theorem Canonical.restoreIdent (h : Canonical s) : Canonical s.restoreIdent := (h.setPair ..).setPair ..

theorem Canonical.beginStart (h : Canonical s) (old : Nat) : Canonical (s.beginStart old) := by
  have h1 := h.readSlotRec.stopAll
  unfold State.beginStart
  extract_lets s0 warm s1 s2 s3 s4 s5
  have h2 : Canonical { s1 with regs := startRegs warm s1.reg } := ⟨fileWf_startRegs .., h1.smem, h1.evs⟩
  have h2 : Canonical s2 := h2.clearHidden ..
  have h3 : Canonical s3 := h2.restoreVote.showAttempts.restoreIdent.restoreStaging.inc ..
  have h4 : Canonical s4 := .also h3 (·.set ..)
  have h5 : Canonical s5 := .unless h4 (·.set ..)
  exact (h5.showUcause.enterState ..).lcTick

theorem execPowerInputValid_canonical (h : Canonical s) (offNs : Nat) (mv10 : BitVec 16) :
    Outcome.Canonical (execPowerInputValid offNs mv10 s) := by
  refine .next (.ite h (.beginStart ?_ ..))
  exact ⟨h.regs, rfl, h.evs⟩

theorem Canonical.leaveBoot (h : Canonical s) : Canonical s.leaveBoot := .ite (h.toState ..).derive h

theorem execSlotCodeSample_canonical (h : Canonical s) (samples : List (BitVec 6)) : Outcome.Canonical (execSlotCodeSample samples s) :=
  .whilePowered h (.ite h (.leaveBoot (.showUcause (.ite (((h.set ..).set ..).set ..).rest ((((h.set ..).set ..).set ..).flag ..).rest))))

theorem Canonical.plugDone (h : Canonical s) (b : Option (List Byte)) : Canonical (s.plugDone b) := by
  refine .leaveBoot (.showUcause (.rest ?_))
  split
  exacts [.forN _ (((h.set ..).set ..).set ..) fun _ _ h1 => h1.set .., h]

theorem Canonical.startFrom (h : Canonical s) (n : Nat) (i : ImageStart) : Canonical (s.startFrom n i) := by
  refine .leaveBoot (.rest (.ite (.writeSlotRec ?_) ?_))
  · split
    · exact .set (.setActid (.also (.also (((h.set ..).set ..).set ..) (·.flag ..)) (·.flag ..))) ..
    · exact .setActid (.also (.also (((h.set ..).set ..).set ..) (·.flag ..)) (·.flag ..))
  · split
    · exact .set (.setActid (.also (.also (((h.set ..).set ..).set ..) (·.flag ..)) (·.flag ..))) ..
    · exact .setActid (.also (.also (((h.set ..).set ..).set ..) (·.flag ..)) (·.flag ..))

theorem execImageCheck_canonical (h : Canonical s) : Outcome.Canonical (execImageCheck s) := by
  refine .whilePowered h (.ite h ?_)
  dsimp only
  split
  · exact h.startFrom ..
  · have h1 : Canonical (if s.imageStart.back then (s.makeActive s.idleSlot false).flag R.UPD.FLAG.ROLLBACK else s) :=
      .ite ((h.makeActive ..).flag ..) h
    exact .ite (((h1.set ..).set ..).setActid.toState ..).showUcause.rest (h1.set ..)

theorem execProcessorLoad_canonical (h : Canonical s) (step : Fin 4) (digest : BitVec 256) : Outcome.Canonical (execProcessorLoad step
    digest s) :=
  .whilePowered h (.ite h (by split; exacts [h, .ite h.rest.leaveBoot ((h.flag ..).set ..)]))

theorem Canonical.applyPend (h : Canonical s) : Canonical s.applyPend := by
  refine .ite ?_ (.ite ?_ h.rest)
  · split
    exacts [((h.rest.setUserImg ..).rest.set ..).set .., h.rest]
  · split
    exacts [h.rest.setUserImg .., h.rest]

theorem Canonical.checkImages (h : Canonical s) : Canonical s.checkImages := by
  unfold State.checkImages
  extract_lets bad s1 cur s2
  have h1 : Canonical s1 := .ite (h.flag ..) h
  have h2 : Canonical s2 := by
    unfold s2
    split
    exacts [.ite ((h1.flag ..).fumarole ..) h1, h1]
  clear_value s2 cur
  split
  · exact ((h2.set ..).set ..).set ..
  · exact ((((h2.set ..).set ..).set ..).set ..).set ..

theorem Canonical.inForce (h : Canonical s) : Canonical s.inForce := ((h.set ..).set ..).set ..

theorem execConfigLayering_canonical (h : Canonical s) : Outcome.Canonical (execConfigLayering s) := by
  refine .whilePowered h (.ite h (.leaveBoot (.showUcause (.rest (.ite (.flag ?_ ..) ?_)))))
  · split
    exacts [(h.applyPend.checkImages.layered ..).checkRanges.inForce, h.applyPend.checkImages]
  · split
    exacts [(h.applyPend.checkImages.layered ..).checkRanges.inForce, h.applyPend.checkImages]

theorem execInjectionTest_canonical (h : Canonical s) (f : TestFaults) : Outcome.Canonical (execInjectionTest f s) := by
  refine .whilePowered h (.ite h ?_)
  split
  · exact ((((h.set ..).set ..).set ..).toState ..).derive
  · exact (((h.set ..).set ..).set ..).trigger ..

theorem Canonical.loadRegs (h : Canonical s) (p : Program) : Canonical (s.loadRegs p) :=
  .loadTables (.showUse (.forN _ (.set (.set (.set (.set (.forN _ h fun _ _ h1 => h1.setReg ..) ..) ..) ..) ..) fun _ _ h1 => h1.set ..) ..)
   ..

theorem Canonical.clearRetain (h : Canonical s) : Canonical s.clearRetain := h.rest

theorem Canonical.loadChannels (h : Canonical s) (p : Program) : Canonical (s.loadChannels p) := by
  unfold State.loadChannels
  split
  · exact ((((h.eachCh ..).foldVersion ..).initHome4 ..).eachCh ..).rest.setPair ..
  · exact ((h.eachCh ..).foldVersion ..).initHome4 ..

theorem execProgramLoad_canonical (h : Canonical s) (digest : BitVec 256) : Outcome.Canonical (execProgramLoad digest s) := by
  refine .whilePowered h (.ite h (.ite (.set (.also (.ite h h.clearRetain) (·.flag ..)) ..) (.ite (.set (.flag (.also (.ite h h.clearRetain)
    (·.flag ..)) ..) ..) ?_)))
  split
  · exact .also (.ite h h.clearRetain) (·.flag ..)
  · exact .rest (.loadChannels (.loadRegs (.rest (.also (.ite h h.clearRetain) (·.flag ..))) ..) ..)

/-! ### Supervision -/

theorem execWatchdogWindowClose_canonical (h : Canonical s) (missed : BitVec 3) : Outcome.Canonical (execWatchdogWindowClose missed s) :=
  .whilePowered h (.ite h (.ite h.rest (.ite (((h.rest.set ..).incSat ..).trigger ..) (((h.rest.set ..).incSat ..).flag ..))))

theorem execTocsinMonitorTrigger_canonical (h : Canonical s) (no : Fin 12) (value : BitVec 16) : Outcome.Canonical (execTocsinMonitorTrigger
    no value s) :=
  .whilePowered h (.ite h (.ite (.trigger (.flag (.ite (h.setSupply ..) h) ..) ..) ((h.set ..).trigger ..)))

theorem execClockCheckWindow_canonical (h : Canonical s) (devA devB devC : Nat) : Outcome.Canonical (execClockCheckWindow devA devB devC s)
    :=
  .whilePowered h (.ite h (.also (.unless (.forN _ h fun _ _ h1 => h1.set ..) (·.flag ..)) (·.trigger ..)))

theorem Canonical.powerDown (h : Canonical s) : Canonical s.powerDown :=
  .ite (h.solfatara ..).rest ((h.enterSafe ..).flag ..).rest

theorem Canonical.stwCommand (h : Canonical s) (r : Req) (code why : Nat) {act : State → State} (hact : ∀ t, Canonical t → Canonical (act
    t)) : Canonical (s.stwCommand r code why act) :=
  .command h _ _ _ _ _ _ (hact)

theorem execStwRestart_canonical (h : Canonical s) (r : Req) : Outcome.Canonical (execStwRestart r s) :=
  .whilePowered h (.stwCommand h _ _ _ (fun _ h1 => h1.acceptRestart ..))

theorem execColdstart_canonical (h : Canonical s) (r : Req) : Outcome.Canonical (execColdstart r s) :=
  .whilePowered h (.stwCommand h _ _ _ (fun _ h1 => h1.acceptRestart ..))

theorem execStwSafe_canonical (h : Canonical s) (r : Req) : Outcome.Canonical (execStwSafe r s) :=
  .whilePowered h (.stwCommand h _ _ _ (fun _ h1 => h1.trigger ..))

/-! ### Register reads and writes -/

theorem Canonical.readFor (h : Canonical s) (r : Req) (off : Nat) : Canonical (s.readFor r off) :=
  .ite (h.stewardLoad ..) (.ite h.rest (by split; next e1 => exact ((h.readWord ..).of_pair e1).rest))

theorem execNowsecLoRead_canonical (h : Canonical s) (r : Req) : Outcome.Canonical (execNowsecLoRead r s) :=
  .whilePowered h (h.readFor ..)

theorem execLoRegisterRead_canonical (h : Canonical s) (r : Req) (off : Nat) : Outcome.Canonical (execLoRegisterRead r off s) :=
  .whilePowered h (h.readFor ..)

theorem Canonical.holdLo (h : Canonical s) (r : Req) (off : Nat) (v : W32) : Canonical (s.holdLo r off v) :=
  .ite h.rest h

theorem execLoRegisterWrite_canonical (h : Canonical s) (r : Req) (off : Nat) (v : W32) : Outcome.Canonical (execLoRegisterWrite r off v s)
    :=
  .whilePowered h (h.holdLo ..)

theorem Canonical.writeHi (h : Canonical s) (r : Req) (off : Nat) (v : W32) : Canonical (s.writeHi r off v) := by
  unfold State.writeHi
  split
  next e1 =>
  exact .ite ((((h.takeHeld ..).of_pair e1).setReg ..).setReg ..) (.ite ((((h.takeHeld ..).of_pair e1).setReg ..).setReg ..) ((h.takeHeld
    ..).of_pair e1))

theorem execHiRegisterWrite_canonical (h : Canonical s) (r : Req) (off : Nat) (v : W32) :
    Outcome.Canonical (execHiRegisterWrite r off v s) :=
  .ite (.next h) (.ite (execIncrWrite_canonical h ..) (.ite (execTimeStep_canonical h ..) (.whilePowered h (h.writeHi ..))))

theorem Canonical.undefinedCode (h : Canonical s) (r : Req) (cmd cnt reason : Fld) (why : Nat) :
    Outcome.Canonical (s.undefinedCode r cmd cnt reason why) := .next (h.command _ _ _ _ _ _ fun _ h1 => h1)

theorem Canonical.takeValue (cmd cnt : Nat) (v mask : W32) {o : Host.Outcome State Fault Refusal} (ho : Outcome.Canonical o) :
    Outcome.Canonical (s.takeValue cmd cnt v mask o) := by
  unfold State.takeValue
  split
  · next t => exact .next (.unless (ho.state t rfl) fun h1 => h1.setReg ..)
  · exact ho

theorem Canonical.runCommand (h : Canonical s) (r : Req) (off : Nat) (v : W32) :
    ∀ o ∈ s.runCommand r off v, Outcome.Canonical o := by
  have undef (cmd cnt reason : Fld) (why : Nat) := h.undefinedCode r cmd cnt reason why
  refine forall_mem_ite_some
    (.ite (execExchangeStage_canonical h ..) (.ite (execExchangeArm_canonical h ..) (.ite (execExchangeCancel_canonical h ..) (undef ..)))) ?_
  refine forall_mem_ite_some
    (.ite (execForceSet_canonical h ..) (.ite (execForceClear_canonical h ..) (.ite (execForceClearall_canonical h ..) (undef ..)))) ?_
  refine forall_mem_ite_some (.ite (execClearperm_canonical h ..) (.next h)) ?_
  refine forall_mem_ite_some (.ite (execTimeForce_canonical h ..) (undef ..)) ?_
  refine forall_mem_ite_some (.ite (execClrflt_canonical h ..) (undef ..)) ?_
  refine forall_mem_ite_some
    (.ite (execSwitchover_canonical h ..) (.ite (execFence_canonical h ..) (.ite (execUnfence_canonical h ..) (undef ..)))) ?_
  refine forall_mem_ite_some
    (.ite (execStwRestart_canonical h ..) (.ite (execColdstart_canonical h ..) (.ite (execStwSafe_canonical h ..) (undef ..)))) ?_
  rintro _ ⟨⟩

theorem Canonical.writeLccmd (h : Canonical s) (r : Req) (v : W32) : Outcome.Canonical (s.writeLccmd r v) :=
  takeValue _ _ _ _ (.ite (execMfg_canonical h ..) (.ite (execRelease_canonical h ..) (.ite (execDepot_canonical h ..)
    (.ite (execService_canonical h ..) (.ite (execReturn_canonical h ..) (.ite (execRetire_canonical h ..) (h.undefinedCode ..)))))))

theorem Canonical.storeCommand (h : Canonical s) (r : Req) (off : Nat) (v : W32) :
    ∀ o ∈ s.storeCommand r off v, Outcome.Canonical o := by
  refine forall_mem_ite_some (.ite (execCfgStage_canonical h ..) (.ite (execCfgActivate_canonical h ..) (.ite (execCfgRevert_canonical h ..)
    (.ite (execCfgDiscard_canonical h ..) (.ite (execCfgLock_canonical h ..) (h.undefinedCode ..)))))) ?_
  refine forall_mem_ite_some (takeValue _ _ _ _ (.ite (execApply_canonical h ..) (.ite (execUpdActivate_canonical h ..)
    (.ite (execUpdCancel_canonical h ..) (.ite (execVerify_canonical h ..) (.ite (execOwner_canonical h ..) (h.undefinedCode ..))))))) ?_
  refine forall_mem_ite_some (takeValue _ _ _ _ (.ite (execTestStart_canonical h ..) (.ite (execTestStop_canonical h ..) (h.undefinedCode ..)))) ?_
  refine forall_mem_ite_some (h.writeLccmd ..) ?_
  rintro _ ⟨⟩

theorem Canonical.eventWrite (h : Canonical s) (r : Req) (off : Nat) (v : W32) : ∀ t ∈ s.eventWrite r off v, Canonical t := by
  refine forall_mem_ite_some (h.holdSet ..) (forall_mem_ite_some (h.holdClr ..) (forall_mem_ite_some (h.evComplete ..)
    (forall_mem_ite_some (h.orBits ..) (forall_mem_ite_some (h.orBits ..) (forall_mem_ite_some (.ite (h.setPen ..) h)
    (forall_mem_ite_some (.ite (h.setPen ..) h) (forall_mem_ite_some (h.writeCpend ..) (forall_mem_ite_some (h.writeCmask ..)
    (forall_mem_ite_some (h.evComplete ..) ?_)))))))))
  rintro _ ⟨⟩

theorem Canonical.checkReg (h : Canonical s) (off : Nat) : Canonical (s.checkReg off) := by
  refine .ite (.flag (.foldl _ h fun _ _ h1 => ?_) ..) (.ite (.flag (.foldl _ h fun _ _ h1 => ?_) ..) (.ite (.flag (.foldl _ h fun _ _ h1 =>
    ?_) ..) (.ite (.flag (.foldl _ h fun _ _ h1 => ?_) ..) (.also (.foldl _ h fun _ _ h1 => ?_) (·.flag ..)))))
  · split
    exacts [.ite (h1.flag ..) h1, h1]
  · split
    exacts [.ite (h1.flag ..) h1, h1]
  · split
    exacts [.ite (h1.flag ..) h1, h1]
  · split
    exacts [.ite (h1.flag ..) h1, h1]
  · split
    exacts [.ite (h1.flag ..) h1, h1]

theorem Canonical.readdress (h : Canonical s) : Canonical s.readdress :=
  .ite h.showUcause (.ite h.rest h.rest.derive)

theorem Canonical.writeConfig (h : Canonical s) (off : Nat) (fs : List RegFld) (v : W32) : Canonical (s.writeConfig off fs v) :=
  .ite (.also ((h.setReg ..).checkReg ..) (·.readdress)) h

theorem Canonical.writePeriod (h : Canonical s) (v : W32) : Canonical (s.writePeriod v) :=
  .ite (((h.set ..).set ..).set ..) h

theorem Canonical.writeScfg (h : Canonical s) (n : Nat) (v : W32) : Canonical (s.writeScfg n v) :=
  .evPoll (.ite ((h.setReg ..).checkReg ..) (.ite (h.set ..) h)) ..

theorem Canonical.writeRcfg (h : Canonical s) (ring : Nat) (v : W32) : Canonical (s.writeRcfg ring v) :=
  .ite h (.unless (h.set ..) (·.set ..))

theorem Canonical.plainWrite (h : Canonical s) (r : Req) (off : Nat) (fs : List RegFld) (v : W32) : Canonical (s.plainWrite r off fs v) :=
  .ite (h.preqSet ..) (.ite (h.writePeriod ..) (.ite (.ite (h.setReg ..) h) (.ite (.ite (h.set ..) h) (.ite (.ite (h.setPen ..) h) (.ite
    (h.writeScfg ..) (.ite (h.writeRcfg ..) (.ite (h.writeConfig ..) (h.setReg ..).evSense)))))))

theorem Canonical.stewardWrite (h : Canonical s) (r : Req) (off : Nat) (v : W32) : Outcome.Canonical (s.stewardWrite r off v) := by
  refine .ite (.next (h.postWrite ..)) ?_
  split
  · next o ho =>
    rcases hr : s.runCommand r off v with _ | o'
    · rw [hr] at ho
      exact h.storeCommand r off v o ho
    · rw [hr] at ho
      cases ho
      exact h.runCommand r off v o hr
  · split
    · next t ht => exact .next (h.eventWrite r off v t ht)
    · refine .ite (execExpkeyWrite_canonical h ..) (.ite (execConfigCycleWrite_canonical h ..) (.ite (.next (h.holdLo ..))
        (.ite (execHiRegisterWrite_canonical h ..) (.ite (execRingHeadWrite_canonical h ..) (.ite (execRingTailWrite_canonical h ..) ?_)))))
      split
      exacts [.next (h.plainWrite ..), .next h]

theorem execRegisterWrite_canonical (h : Canonical s) (r : Req) (off : Nat) (v : W32) : Outcome.Canonical (execRegisterWrite r off v s) := by
  refine .ite (.next h) ?_
  split
  · exact .whilePowered h (h.progWrite ..)
  · exact .ite (h.stewardWrite ..) (.next h)

/-- Every command keeps the canonical form. -/
theorem exec_canonical (h : Canonical s) : ∀ c : Instr, Outcome.Canonical (exec c s)
  | .gongTick => .whilePowered h (.ite h h.tickUnits.dropPassed.showHeld.releaseAll.testCheck)
  | .segmentStart .. => .whilePowered h (.ite h (h.beginPhaseRun.startNext ..))
  | .cut => .whilePowered h (.ite h (.set (.ite h.beginPhaseRun.cutWork h.beginPhaseRun) ..))
  | .commit => .whilePowered h (.ite h h.commitFrame)
  | .selfTestSlice .. => .whilePowered h (.ite h ((h.testCheck.startAuto.runSlice ..).issueTokens.set ..))
  | .retainRecordWrite => execRetainRecordWrite_canonical h
  | .add .. => .next (h.osrus ..)
  | .sub .. => .next (h.osrus ..)
  | .mul .. => .next (h.osrus ..)
  | .mulh .. => .next (h.osrus ..)
  | .mulhu .. => .next (h.osrus ..)
  | .div .. => .next (h.osrus ..)
  | .divu .. => .next (h.osrus ..)
  | .rem .. => .next (h.osrus ..)
  | .remu .. => .next (h.osrus ..)
  | .andR .. => .next (h.osrus ..)
  | .orR .. => .next (h.osrus ..)
  | .xorR .. => .next (h.osrus ..)
  | .andn .. => .next (h.osrus ..)
  | .sll .. => .next (h.osrus ..)
  | .srl .. => .next (h.osrus ..)
  | .sra .. => .next (h.osrus ..)
  | .minR .. => .next (h.osrus ..)
  | .maxR .. => .next (h.osrus ..)
  | .minu .. => .next (h.osrus ..)
  | .maxu .. => .next (h.osrus ..)
  | .sext .. => .next (h.osrus ..)
  | .zext .. => .next (h.osrus ..)
  | .addi .. => .next (h.osrus ..)
  | .andi .. => .next (h.osrus ..)
  | .ori .. => .next (h.osrus ..)
  | .xori .. => .next (h.osrus ..)
  | .shi .. => .next (h.osrus ..)
  | .ldil .. => .next (h.osrus ..)
  | .ldih .. => .next (h.osrus ..)
  | .ldb .. => .next (h.load ..)
  | .ldbu .. => .next (h.load ..)
  | .ldh .. => .next (h.load ..)
  | .ldhu .. => .next (h.load ..)
  | .ldw .. => .next (h.load ..)
  | .ldwu .. => .next (h.load ..)
  | .ldd .. => .next (h.load ..)
  | .stb .. => .next (h.osrus ..)
  | .sth .. => .next (h.osrus ..)
  | .stw .. => .next (h.osrus ..)
  | .std .. => .next (h.osrus ..)
  | .cand .. => .next (h.osrus ..)
  | .cor .. => .next (h.osrus ..)
  | .cxor .. => .next (h.osrus ..)
  | .cmv .. => .next (h.osrus ..)
  | .cnz .. => .next (h.osrus ..)
  | .mfc .. => .next (h.osrus ..)
  | .tbit .. => .next (h.osrus ..)
  | .cmp .. => .next (h.osrus ..)
  | .cmpi .. => .next (h.osrus ..)
  | .sel .. => .next (h.osrus ..)
  | .bc .. => .next (h.osrus ..)
  | .bsw .. => .next (h.osrus ..)
  | .loop .. => .next (h.osrus ..)
  | .call .. => .next (h.osrus ..)
  | .ret .. => .next (h.osrus ..)
  | .lds .. => .next (h.osrus ..)
  | .sts .. => .next (h.osrus ..)
  | .ldsq .. => .next (h.osrus ..)
  | .ldsc .. => .next (h.osrus ..)
  | .stsc .. => .next (h.osrus ..)
  | .ldsx .. => .next (h.osrus ..)
  | .stsx .. => .next (h.osrus ..)
  | .ldsb .. => .next (h.osrus ..)
  | .stsb .. => .next (h.osrus ..)
  | .ldsL .. => .next (h.osrus ..)
  | .stsL .. => .next (h.osrus ..)
  | .ldsqL .. => .next (h.osrus ..)
  | .ldscL .. => .next (h.osrus ..)
  | .stscL .. => .next (h.osrus ..)
  | .ton .. => .next (h.osrus ..)
  | .tof .. => .next (h.osrus ..)
  | .tp .. => .next (h.osrus ..)
  | .redge .. => .next (h.osrus ..)
  | .fedge .. => .next (h.osrus ..)
  | .ctu .. => .next (h.osrus ..)
  | .ctd .. => .next (h.osrus ..)
  | .sld .. => .next (h.osrus ..)
  | .fadd .. => .next (h.osrus ..)
  | .fsub .. => .next (h.osrus ..)
  | .fmul .. => .next (h.osrus ..)
  | .fdiv .. => .next (h.osrus ..)
  | .fsqrt .. => .next (h.osrus ..)
  | .fmin .. => .next (h.osrus ..)
  | .fmax .. => .next (h.osrus ..)
  | .fabs .. => .next (h.osrus ..)
  | .fneg .. => .next (h.osrus ..)
  | .fcmp .. => .next (h.osrus ..)
  | .fcvti .. => .next (h.osrus ..)
  | .fcvtf .. => .next (h.osrus ..)
  | .fcvts .. => .next (h.osrus ..)
  | .frnd .. => .next (h.osrus ..)
  | .nop .. => .next (h.osrus ..)
  | .sync .. => .next (h.osrus ..)
  | .yield .. => .next ((h.osrus ..).finishSeg ..)
  | .yieldE .. => .next ((h.osrus ..).finishSeg ..)
  | .faultI .. => .next (h.osrus ..)
  | .evtC .. => execEvtC_canonical h ..
  | .evtD .. => .next (h.osrus ..)
  | .mfs .. => .next (h.osrus ..)
  | .mts .. => .next (h.osrus ..)
  | .windowTimeout .. => .whilePowered h (h.onEngine ..)
  | .vote .. => .whilePowered h (h.voterFaults ..).voteFront
  | .delayParityError .. => execDelayParityError_canonical h ..
  | .captureParityError => .whilePowered h (h.trigger ..)
  | .referenceLoss .. => .whilePowered h (h.flag ..)
  | .resyncBulkCopyDone .. => .whilePowered h (.ite h (((h.setCh ..).setChRec ..).set ..))
  | .degtimeWarning => .whilePowered h (.ite (h.flag ..) h)
  | .degtimeLimit => .whilePowered h (.ite (h.trigger ..) h)
  | .clearperm .. => execClearperm_canonical h ..
  | .injectionTest .. => execInjectionTest_canonical h ..
  | .frameReceive .. => execFrameReceive_canonical h ..
  | .telegramAccept => execTelegramAccept_canonical h
  | .subscribeTimeout .. => .whilePowered h (.ite h ((((h.setSub ..).incSat ..).flag ..).telUpdate ..))
  | .directorySweep .. => .whilePowered h (.ite (h.freshCheck ..) h)
  | .forceSet .. => execForceSet_canonical h ..
  | .forceClear .. => execForceClear_canonical h ..
  | .forceClearall .. => execForceClearall_canonical h ..
  | .stewardSignalWrite .. => execStewardSignalWrite_canonical h ..
  | .exchangeStage .. => execExchangeStage_canonical h ..
  | .exchangeArm .. => execExchangeArm_canonical h ..
  | .exchangeCancel .. => execExchangeCancel_canonical h ..
  | .exchangeFillDone => execExchangeFillDone_canonical h
  | .exchangePersist .. => execExchangePersist_canonical h ..
  | .powerInputValid .. => execPowerInputValid_canonical h ..
  | .restartBegin => .whilePowered h (.ite h (h.beginStart ..))
  | .slotCodeSample .. => execSlotCodeSample_canonical h ..
  | .plugRead .. => .whilePowered h (.ite h (h.plugDone ..))
  | .plugReadRetry .. => .whilePowered h (.ite h (.ite (h.rest.plugDone ..) h.rest))
  | .imageCheck => execImageCheck_canonical h
  | .processorLoad .. => execProcessorLoad_canonical h ..
  | .tocsinConfigConfirmed => .whilePowered h (.ite h h.rest.leaveBoot)
  | .tocsinConfirmTimeout => .whilePowered h (.ite (h.set ..) h)
  | .configLayering => execConfigLayering_canonical h
  | .programLoad .. => execProgramLoad_canonical h ..
  | .storeCharged .. => .whilePowered h (.ite h ((h.set ..).set ..))
  | .startRoleDecision .. => execStartRoleDecision_canonical h ..
  | .heartbeatSend => .whilePowered h (.ite (h.send ..) h)
  | .heartbeatReceive .. => .whilePowered h ((h.rest.set ..).hbRole ..).testCheck
  | .heartbeatTimeout => execHeartbeatTimeout_canonical h
  | .pairActInAccept .. => .whilePowered h (.unless (h.set ..) fun h1 => .ite h1.rest (.ite (h1.set ..).rest h1))
  | .fencedPromotionTimer => .whilePowered h (.ite (h.promote ..) h)
  | .geyserDataReceive .. => .whilePowered h (.ite h h.rest)
  | .geyserEndReceive .. => .whilePowered h (h.endCopy ..)
  | .geyserAckReceive .. => execGeyserAckReceive_canonical h ..
  | .ackMiss .. => execAckMiss_canonical h ..
  | .bulkReceive .. => execBulkReceive_canonical h ..
  | .bulkendReceive .. => .whilePowered h (.ite h (.foldl _ h.rest fun _ _ h1 => h1.endCopy ..))
  | .ctrlReceive .. => .whilePowered h (.ite h.rest h)
  | .geyserLaneLoss .. => .whilePowered h ((h.putBit ..).flag ..)
  | .switchover .. => execSwitchover_canonical h ..
  | .fence .. => execFence_canonical h ..
  | .unfence .. => execUnfence_canonical h ..
  | .inputLevelAccepted .. => .whilePowered h (.ite h (h.setInp ..))
  | .inputFaultDetected .. => execInputFaultDetected_canonical h ..
  | .inputFaultCleared .. => .whilePowered h (.ite h ((h.setInp ..).showFaults ..))
  | .testPulseStart .. => .whilePowered h h.rest
  | .testPulseEnd .. => .whilePowered h h.rest
  | .pairDiscrepancyFault .. => .whilePowered h (.ite (((h.setBit ..).flag ..).ioRecord ..) h)
  | .outputTestPulseStart .. => execOutputTestPulseStart_canonical h ..
  | .outputTestPulseEnd .. => .whilePowered h (h.judgePulse ..)
  | .outputFaultDetected .. => execOutputFaultDetected_canonical h ..
  | .overcurrentRelease .. => .whilePowered h (.ite h (.unless (h.setOutp ..) (·.faultGone ..)))
  | .outputFaultCleared .. => execOutputFaultCleared_canonical h ..
  | .clrflt .. => execClrflt_canonical h ..
  | .wheelSpeedEdge .. => .whilePowered h (.ite h (.ite (h.showSen ..) ((h.showSen ..).inc ..)))
  | .sensorFault .. => .whilePowered h (.ite h ((((h.showSen ..).incSat ..).senLost ..).ioRecord ..))
  | .sensorGood .. => .whilePowered h (.ite (h.set ..) h)
  | .speedNormalEntry => .whilePowered h (.ite ((h.set ..).set ..) h)
  | .speedDiscrepancyTimeout => .whilePowered h (.ite ((h.flag ..).spdUnknown ..) h)
  | .singleSensorLimit => .whilePowered h (.ite (h.spdUnknown ..) h)
  | .ssusedWarning => .whilePowered h (.ite (h.flag ..) h)
  | .ssusedReset => .whilePowered h (.ite (h.set ..) h)
  | .pdTelegramLaunch => execPdTelegramLaunch_canonical h
  | .txDescriptorLaunch .. => execTxDescriptorLaunch_canonical h ..
  | .ringHeadWrite .. => execRingHeadWrite_canonical h ..
  | .ringTailWrite .. => execRingTailWrite_canonical h ..
  | .bridgeForward .. => .whilePowered h (.ite h (.unless (h.learn ..) (·.send ..)))
  | .prpSupervisionSend => .whilePowered h (.ite (h.trailer.send ..) h)
  | .prpLanLoss .. => .whilePowered h (.ite (h.rest.showLans.flag ..) h)
  | .linkChange .. => .whilePowered h (.ite h ((h.set ..).flag ..))
  | .inauguration .. => execInauguration_canonical h ..
  | .ttdbReadDone .. => .whilePowered h (.ite h ((h.rest.set ..).set ..).derive)
  | .arpProbeDone => .whilePowered h (.ite h.rest h)
  | .arpConflict => .whilePowered h (.ite h (h.flag ..).rest.becomeUnaddressed)
  | .arpReprobe => .whilePowered h (.ite h.rest.derive h)
  | .ptpOffsetMeasurement .. => execPtpOffsetMeasurement_canonical h ..
  | .announceReceiptTimeout => .whilePowered h (.ite (h.toSync ..).dropMaster h.dropMaster)
  | .announceReceive .. => execAnnounceReceive_canonical h ..
  | .incrWrite .. => execIncrWrite_canonical h ..
  | .timeStep .. => execTimeStep_canonical h ..
  | .timeForce .. => execTimeForce_canonical h ..
  | .solfataraTimeCopy => .whilePowered h (.ite h.rest h)
  | .nowsecLoRead .. => execNowsecLoRead_canonical h ..
  | .loRegisterRead .. => execLoRegisterRead_canonical h ..
  | .loRegisterWrite .. => execLoRegisterWrite_canonical h ..
  | .hiRegisterWrite .. => execHiRegisterWrite_canonical h ..
  | .registerWrite .. => execRegisterWrite_canonical h ..
  | .eventSourceAssert .. => .whilePowered h (.evPoll (.ite (h.putBit ..) h) ..)
  | .eventSourceWithdraw .. => .whilePowered h (.evPoll (.ite (h.putBit ..) h) ..)
  | .eventDelivery .. => .whilePowered h (h.evDeliverFirst ..)
  | .eventClaim .. => .whilePowered h (.ite h.rest (h.claimFor ..))
  | .eventComplete .. => .whilePowered h (.ite h (h.evComplete ..))
  | .holdset .. => .whilePowered h (.ite h (h.holdSet ..))
  | .holdclr .. => .whilePowered h (.ite h (h.holdClr ..))
  | .pset .. => .whilePowered h (.ite h (h.orBits ..))
  | .swset .. => .whilePowered h (.ite h (h.orBits ..))
  | .penset .. => .whilePowered h (.ite h (h.setPen ..))
  | .penclr .. => .whilePowered h (.ite h (h.setPen ..))
  | .cpendWrite .. => .whilePowered h (.ite h (h.writeCpend ..))
  | .cmaskWrite .. => .whilePowered h (.ite h (h.writeCmask ..))
  | .cvecRead .. => .whilePowered h (.ite h.rest (h.claimFor ..))
  | .cackWrite .. => .whilePowered h (.ite h (h.evComplete ..))
  | .postedWriteComplete .. => execPostedWriteComplete_canonical h ..
  | .postedWriteDiscard => execPostedWriteDiscard_canonical h
  | .delayedReadComplete .. => execDelayedReadComplete_canonical h ..
  | .delayedReadDiscard .. => execDelayedReadDiscard_canonical h ..
  | .cpciInboundWrite .. => execCpciInboundWrite_canonical h ..
  | .inboundLock .. => execInboundLock_canonical h ..
  | .serrSensed => .whilePowered h (h.flag ..)
  | .dutiesTakeAfterPromotion .. => .whilePowered h (.ite (((h.set ..).testCheck.set ..).setBus ..) h)
  | .cpciResetRelease => .whilePowered h (.ite h.rest h)
  | .cardConfiguration .. => execCardConfiguration_canonical h ..
  | .configCycleRead .. => execConfigCycleRead_canonical h ..
  | .configCycleWrite .. => execConfigCycleWrite_canonical h ..
  | .cfgStage .. => execCfgStage_canonical h ..
  | .cfgActivate .. => execCfgActivate_canonical h ..
  | .cfgRevert .. => execCfgRevert_canonical h ..
  | .cfgDiscard .. => execCfgDiscard_canonical h ..
  | .cfgLock .. => execCfgLock_canonical h ..
  | .expchalRead .. => execExpchalRead_canonical h ..
  | .expkeyWrite .. => execExpkeyWrite_canonical h ..
  | .expertTimeout => .whilePowered h (.ite h.lockExpert h)
  | .packageHeaderReceived .. => execPackageHeaderReceived_canonical h ..
  | .packageReceived .. => execPackageReceived_canonical h ..
  | .apply .. => execApply_canonical h ..
  | .applyDone => execApplyDone_canonical h
  | .updActivate .. => execUpdActivate_canonical h ..
  | .updCancel .. => execUpdCancel_canonical h ..
  | .verify .. => execVerify_canonical h ..
  | .owner .. => execOwner_canonical h ..
  | .ochalRead .. => .whilePowered h (.ite h.rest (h.readOchal ..).rest)
  | .attestationRequest .. => .whilePowered h (.ite h ((h.send ..).inc ..))
  | .maintenanceSessionOpen .. => .whilePowered h (.ite h.rest h)
  | .watchdogWindowClose .. => execWatchdogWindowClose_canonical h ..
  | .tocsinMonitorTrigger .. => execTocsinMonitorTrigger_canonical h ..
  | .tocsinWarning .. => .whilePowered h (.ite h ((h.set ..).flag ..))
  | .clockCheckWindow .. => execClockCheckWindow_canonical h ..
  | .tocsinOscDeviation => .whilePowered h (.ite (h.trigger ..) h)
  | .tocsinLivenessLost => .whilePowered h (.ite (h.trigger ..) h)
  | .solfataraStoreLow .. => .whilePowered h (.ite h (((h.set ..).flag ..).trigger ..))
  | .externalRequest .. => .whilePowered h (.ite h ((h.flag ..).trigger ..))
  | .safeStateTrigger .. => .whilePowered h (.ite h (h.trigger ..))
  | .retainBufferCutoff .. => execRetainBufferCutoff_canonical h ..
  | .powerFailure .. => .whilePowered h (.ite h (((((h.setSupply ..).set ..).flag ..).inc ..).fumarole ..).rest)
  | .powerDown => .whilePowered h (.ite h (.powerDown (.ite h.commitFrame h)))
  | .powerRecovered .. => .whilePowered h (.ite h ((h.setSupply ..).set ..).rest)
  | .holdupEnd => .whilePowered h (.ite h.rest h)
  | .stwRestart .. => execStwRestart_canonical h ..
  | .coldstart .. => execColdstart_canonical h ..
  | .stwSafe .. => execStwSafe_canonical h ..
  | .mfg .. => execMfg_canonical h ..
  | .release .. => execRelease_canonical h ..
  | .depot .. => execDepot_canonical h ..
  | .service .. => execService_canonical h ..
  | .returnC .. => execReturn_canonical h ..
  | .retire .. => execRetire_canonical h ..
  | .testStart .. => execTestStart_canonical h ..
  | .testStop .. => execTestStop_canonical h ..
  | .geyserTestPartnerTimeout => .whilePowered h (.ite (h.testEnd ..) h)
  | .geyserLaneUp .. => .whilePowered h (h.putBit ..)
  | .maintenanceSessionClose => .whilePowered h h.rest
  | .configImageReceived .. => .whilePowered h (.ite h ((h.rest.set ..).set ..))
  | .ownerMessageReceived .. => .whilePowered h (.ite h h.rest)
  | .factoryIdentityRecordWrite .. => .whilePowered h (.ite h h.rest)

/-- One cycle of the network clock or the command at the front of the queue. -/
theorem Canonical.step {t : State} (h : Canonical s) (ht : step s = .next t) : Canonical t := by
  unfold Machine.step at ht
  split at ht
  · cases ht
    exact h.cycle
  · exact (exec_canonical h.rest _).state t ht

/-- Settles O22: each arm of `exec` is a chain of operations that keep the form. -/
theorem stepsKeepTheCanonicalForm : Obligations.StepsKeepTheCanonicalForm := fun _ _ h ht =>
  (canonical_iff _).1 (((canonical_iff _).2 h).step ht)

end Sys2Proof.Machine
end

section
/-! PROOF. The state right after reset (R8, R17, R18): what the register file of a start holds at each register's offset. -/

namespace Sys2Proof.Machine

theorem tblFind_eq_none {α : Type} {t : Tbl α} {k : Nat} (h : ∀ p ∈ t, p.1 ≠ k) : tblFind t k = none := by
  induction t with
  | nil => rfl
  | cons p t ih =>
    obtain ⟨hp, ht⟩ := List.forall_mem_cons.1 h
    rw [tblFind, if_neg hp, ih ht]

theorem tblFind_of_mem {α : Type} {t : Tbl α} (ht : tblWf t = true) {p : Nat × α} (hp : p ∈ t) : tblFind t p.1 = some p.2 := by
  rw [tblWf_iff] at ht
  induction t with
  | nil => cases hp
  | cons q t ih =>
    obtain ⟨hq, ht⟩ := List.pairwise_cons.1 ht
    rcases List.mem_cons.1 hp with rfl | hp
    · rw [tblFind, if_pos rfl]
    · rw [tblFind, if_neg (hq p hp).ne, ih ht hp]

theorem mem_regRows {g : RegGrp} (hg : g ∈ regGroups) {i : Nat} (hi : i < g.cnt) {r : Nat × List RegFld} (hr : r ∈ g.rows) :
    (g.base + g.stride * i + r.1, r.2) ∈ regRows :=
  List.mem_flatMap.2 ⟨g, hg, List.mem_flatMap.2 ⟨i, List.mem_range.2 hi, List.mem_map_of_mem hr⟩⟩

/-- No two registers have the same offset. -/
theorem regRows_inj {r r' : Nat × List RegFld} (hr : r ∈ regRows) (hr' : r' ∈ regRows) (h : r.1 = r'.1) : r = r' :=
  List.inj_on_of_nodup_map (List.pairwise_map.2 (regRows_rising.imp Nat.ne_of_lt)) hr hr' h

/-- After a start every register holds its start word, listed or, where it is zero, not. -/
theorem fileGet_startRegs (warm : Bool) (old : Nat → W32) {r : Nat × List RegFld} (hr : r ∈ regRows) :
    fileGet (startRegs warm old) r.1 = startWord warm (old r.1) r.2 := by
  have hwf : tblWf (startRegs warm old) = true := (Bool.and_eq_true_iff.1 (fileWf_startRegs warm old)).1
  by_cases hz : startWord warm (old r.1) r.2 = 0
  · have unlisted : ∀ p ∈ startRegs warm old, p.1 ≠ r.1 := by
      rw [startRegs_eq]
      intro p hp heq
      obtain ⟨r', hr', hentry⟩ := List.mem_filterMap.1 hp
      cases regRows_inj hr hr' (heq.symm.trans (startRegs_entry hentry).1)
      rw [if_pos hz] at hentry
      cases hentry
    rw [fileGet, tblFind_eq_none unlisted, hz, Option.getD_none]
  · have listed : (r.1, startWord warm (old r.1) r.2) ∈ startRegs warm old := by
      rw [startRegs_eq]
      exact List.mem_filterMap.2 ⟨r, hr, if_neg hz⟩
    rw [fileGet, tblFind_of_mem hwf listed, Option.getD_some]

/-- The fields of a register do not overlap, and a Cold value fits its field: the word of a cold start shows it. -/
theorem fieldOf_startWord_cold : ∀ r ∈ regRows, ∀ f ∈ r.2, ∀ v ∈ f.cold,
    fieldOf (startWord false (resetRec r.1) r.2) f.lo f.w = v := by
  decide +kernel

theorem mstate_reset : State.reset.mstate = .boot := by decide +kernel

theorem role_reset : State.reset.role = .none := by decide +kernel

theorem canonical_reset : Canonical State.reset := ⟨fileWf_startRegs _ _, rfl, rfl⟩

/-- Settles O21: the fields but the register file are as `State.reset` lists them, and a register holds its start word. -/
theorem resetIsTheBeginningOfAColdStart : Obligations.ResetIsTheBeginningOfAColdStart := by
  refine ⟨⟨rfl, mstate_reset, role_reset, ?cold, rfl, rfl, rfl, rfl, rfl, rfl, ?engines⟩, (canonical_iff _).1 canonical_reset⟩
  case cold =>
    intro g hg i hi r hr f hf v hv
    have hrow := mem_regRows hg hi hr
    have hword : State.reset.reg (g.base + g.stride * i + r.1) = _ := fileGet_startRegs false resetRec hrow
    rw [hword]
    exact fieldOf_startWord_cold _ hrow f hf v hv
  case engines =>
    intro ch
    have idle : ∀ e : Eng, Chan.reset.eng[e].run = none := by decide
    cases ch <;> exact ⟨rfl, idle⟩

end Sys2Proof.Machine
end

section
/-! PROOF. Distributed reads (R13, R142, R143, R299, R303): what a read leaves as it was, how the captured value reaches a copy, and what
a load of each shared range gives. -/

namespace Sys2Proof.Machine

/-! ### Changes that no copy of an engine sees -/

/-- `u` has the channels and versions of `s`, its votes, and its voting registers: every copy goes on in `u` as in `s`. -/
structure SameCopies (s u : State) : Prop where
  ch : ∀ ch, u.ch ch = s.ch ch
  bank : ∀ b, u.bank b = s.bank b
  vote : u.vote = s.vote
  mode : u.reg R.VOTE.MODE.all.off = s.reg R.VOTE.MODE.all.off
  chst : u.reg R.VOTE.CHST.all.off = s.reg R.VOTE.CHST.all.off

namespace SameCopies

variable {s t u : State}

theorem refl (s : State) : SameCopies s s := ⟨fun _ => rfl, fun _ => rfl, rfl, rfl, rfl⟩

theorem trans (h : SameCopies s t) (k : SameCopies t u) : SameCopies s u :=
  ⟨fun ch => (k.ch ch).trans (h.ch ch), fun b => (k.bank b).trans (h.bank b), k.vote.trans h.vote, k.mode.trans h.mode, k.chst.trans h.chst⟩

theorem setReg (s : State) {o : Nat} (v : W32) (hm : R.VOTE.MODE.all.off ≠ o) (hc : R.VOTE.CHST.all.off ≠ o) : SameCopies s (s.setReg o v) :=
  ⟨fun ch => by cases ch <;> rfl, fun _ => rfl, rfl, reg_setReg_ne s v hm, reg_setReg_ne s v hc⟩

theorem set (s : State) {f : Fld} (n : Nat) (hm : R.VOTE.MODE.all.off ≠ f.off) (hc : R.VOTE.CHST.all.off ≠ f.off) : SameCopies s (s.set f n) :=
  setReg s _ hm hc

theorem withEvs (s : State) (l : Tbl EvSrc) : SameCopies s { s with evs := l } := ⟨fun ch => by cases ch <;> rfl, fun _ => rfl, rfl, rfl, rfl⟩

theorem withBrg (s : State) (b : BrgSt) : SameCopies s { s with brg := b } := ⟨fun ch => by cases ch <;> rfl, fun _ => rfl, rfl, rfl, rfl⟩

theorem preqSet (s : State) (r : Req) (o : Nat) (v : W32) : SameCopies s (s.preqSet r o v) :=
  ⟨fun ch => by cases ch <;> rfl, fun _ => rfl, rfl, rfl, rfl⟩

theorem latchReg (s : State) (r : Req) (o : Nat) : SameCopies s (s.latchReg r o) := ⟨fun ch => by cases ch <;> rfl, fun _ => rfl, rfl, rfl, rfl⟩

theorem fresh (s : State) (w : Nat) : SameCopies s (s.fresh w).2 := ⟨fun ch => by cases ch <;> rfl, fun _ => rfl, rfl, rfl, rfl⟩

theorem setClrec (s : State) (r : Req) (ws : List Nat) : SameCopies s (s.setClrec r ws) :=
  ((preqSet ..).trans (preqSet ..)).trans ((preqSet ..).trans (preqSet ..))

theorem ringTake (s : State) (r : Nat) : SameCopies s (s.ringTake r) :=
  set s _ (by simp only [R.VOTE.MODE.all, R.NET.TAIL.INDEX]; omega) (by simp only [R.VOTE.CHST.all, R.NET.TAIL.INDEX]; omega)

/-- A claim that finds its source withdrawn. -/
theorem spurious (s : State) : SameCopies s ((s.flag R.EVC.FLAG.SPUR).incSat R.EVC.SPURCNT.COUNT) :=
  (set s 1 (by decide) (by decide)).trans (set _ _ (by decide) (by decide))

theorem evClaim (s : State) (r : Req) (t : Nat) (task : Option Nat) : SameCopies s (s.evClaim r t task).2 := by
  unfold State.evClaim
  split
  · exact refl s
  dsimp only
  split
  · split
    · exact (ringTake s t).trans ((withEvs ..).trans (setClrec ..))
    · exact (ringTake s t).trans ((withEvs ..).trans ((spurious _).trans (setClrec ..)))
  · exact (ringTake s t).trans ((spurious _).trans (setClrec ..))

theorem readWord (s : State) (r : Req) (task : Option Nat) (off : Nat) : SameCopies s (s.readWord r task off).2 := by
  unfold State.readWord
  split
  · exact evClaim ..
  split
  · exact evClaim ..
  split
  · exact refl s
  split
  · exact refl s
  split
  · exact (latchReg ..).trans ((latchReg ..).trans (latchReg ..))
  split
  · exact (fresh s 32).trans ((preqSet ..).trans (preqSet ..))
  split
  · exact (fresh s 64).trans (((preqSet ..).trans (preqSet ..)).trans ((preqSet ..).trans (latchReg ..)))
  split
  · exact latchReg ..
  split
  · exact refl s
  · exact refl s

theorem included (h : SameCopies s u) (ch : Ch) : u.included ch = s.included ch := by
  unfold State.included State.bit State.get
  rw [show R.VOTE.MODE.INCL.off = R.VOTE.MODE.all.off from rfl, h.mode]

theorem executing (h : SameCopies s u) (ch : Ch) : u.executing ch = s.executing ch := by
  unfold State.executing State.chst State.get
  rw [h.included, show (R.VOTE.CHST.CH (chNum ch)).off = R.VOTE.CHST.all.off from rfl, h.chst]

theorem leadCh (h : SameCopies s u) : u.leadCh = s.leadCh := by
  unfold State.leadCh State.incl
  rw [show u.included = s.included from funext h.included]

theorem wrongBits (h : SameCopies s u) (ch : Ch) : u.wrongBits ch = s.wrongBits ch := by
  unfold State.wrongBits
  rw [h.leadCh, h.vote]

theorem runs (h : SameCopies s u) {ch : Ch} {e : Eng} {n task : Nat} {i : Inst} {p : Program} (hr : Runs s ch e n task i p) :
    Runs u ch e n task i p := by
  unfold Runs State.bankIn at *
  rw [h.executing, h.ch, h.bank]
  exact hr

end SameCopies

/-! ### The capture stage and the delay registers -/

theorem distribute_ch (s : State) (v : Word) (ch : Ch) : (s.distribute v).ch ch = s.ch ch := by cases ch <;> rfl

theorem distribute_runs {s : State} {ch : Ch} {e : Eng} {n task : Nat} {i : Inst} {p : Program} (v : Word) (h : Runs s ch e n task i p) :
    Runs (s.distribute v) ch e n task i p := by
  unfold Runs at *
  rw [distribute_ch]
  exact h

/-- Distribution changes no register, so each copy receives what its own delay register gives it. -/
theorem distribute_received (s : State) (v w : Word) (ch : Ch) : (s.distribute v).received ch w = s.received ch w := by cases ch <;> rfl

/-- A delay register that inverts nothing holds the value with its parity in every stage. -/
theorem Dreg.mem_carry {d : Dreg} (hd : d.wrong = 0) {n : Nat} {v : Word} {x : Word × Byte} (hx : x ∈ (d.carry n v).stages) :
    x = (v, parityOf v) := by
  have unchanged : v ^^^ d.wrong = v := by rw [hd]; exact BitVec.xor_zero
  rw [List.eq_of_mem_replicate hx, unchanged]

/-! ### The access of one copy -/

theorem Region.shared_iff {g : Region} :
    g.shared = true ↔ g = .exchange ∨ g = .mram ∨ g = .periph ∨ g = .window ∨ g = .outbound := by
  cases g <;> decide

/-- A load of `n` bytes at `a`, in a shared range, that the checks of Table 4-8 let through. -/
structure SharedAccess (x : Ctx) (a n : Nat) : Prop where
  shared : (regionOf a).shared = true
  safe : regionOf a = .exchange ∨ regionOf a = .outbound → x.safe = false
  aligned : (regionOf a).isReg = true ∨ a % n = 0

theorem SharedAccess.loadFault {x : Ctx} {a n : Nat} (h : SharedAccess x a n) (i : Inst) : loadFault x i a n = none := by
  obtain ⟨hshared, hsafe, haligned⟩ := h
  have permitted : ¬ ((regionOf a = .exchange ∨ regionOf a = .outbound) ∧ x.safe = true) := fun ⟨hg, hs⟩ => by
    rw [hsafe hg] at hs
    cases hs
  have fits : ¬ (regionOf a ≠ .unmapped ∧ (!(regionOf a).isReg) = true ∧ a % n ≠ 0) := fun ⟨_, hr, hn⟩ =>
    haligned.elim (fun h => by rw [h] at hr; cases hr) hn
  unfold Machine.loadFault
  dsimp only
  rw [if_neg permitted, if_neg fits]
  rcases Region.shared_iff.1 hshared with hg | hg | hg | hg | hg <;> rw [hg]

theorem SharedAccess.of_memory {x : Ctx} {a n : Nat}
    (hg : regionOf a = .mram ∨ (regionOf a = .exchange ∨ regionOf a = .outbound) ∧ x.safe = false) (hn : a % n = 0) : SharedAccess x a n := by
  refine ⟨Region.shared_iff.2 (by tauto), fun ho => ?_, .inr hn⟩
  rcases hg with hg | ⟨-, hs⟩
  · rw [hg] at ho
    exact absurd ho (by decide)
  · exact hs

/-- Registers take an access of any width and alignment. -/
theorem SharedAccess.of_register {x : Ctx} {a n : Nat} (hg : regionOf a = .periph ∨ regionOf a = .window) : SharedAccess x a n := by
  refine ⟨Region.shared_iff.2 (by tauto), fun ho => ?_, .inl (by rcases hg with hg | hg <;> rw [hg] <;> rfl)⟩
  rcases hg with hg | hg <;> rw [hg] at ho <;> exact absurd ho (by decide)

theorem SharedAccess.readsShared {x : Ctx} {a n : Nat} (h : SharedAccess x a n) (i : Inst) : readsShared x i a n = true := by
  rw [Machine.readsShared, h.loadFault, h.shared]
  rfl

/-- A copy that makes a shared access takes the value it received. -/
theorem SharedAccess.loadOp {gd ga : GReg} {imm : BitVec 16} {n : Nat} {signed : Bool} {v : Env} {x : Ctx} {i : Inst}
    (h : SharedAccess x (effAddr x ga imm) n) :
    loadOp gd ga imm n signed v ⟨x, i, [], [], false, false, false⟩ =
      .ok ⟨(x.setG gd (loadExt v.shared n signed)).adv 4, i, [itemRead (effAddr x ga imm) v.shared], [], false, false, false⟩ := by
  unfold Machine.loadOp
  dsimp only
  rw [h.loadFault]
  dsimp only
  rcases Region.shared_iff.1 h.shared with hg | hg | hg | hg | hg <;> rw [hg] <;> rfl

/-! ### What the bus reads -/

section
variable (s : State) (e : Eng) (task : Option Nat) {a n : Nat}

theorem busRead_exchange (h : regionOf a = .exchange) : s.busRead e task a n = (BitVec.ofNat 64 (leNat (memBytes s.smem a n)), s) := by
  rw [State.busRead, h]

theorem busRead_mram (h : regionOf a = .mram) :
    s.busRead e task a n = (BitVec.ofNat 64 (leNat ((List.range n).map fun i => s.mramByte (a - 0x200000000 + i))), s) := by
  rw [State.busRead, h]

theorem busRead_part (h : regionOf a = .periph ∨ regionOf a = .window) (hn : n < 4 ∨ a % 4 ≠ 0) : s.busRead e task a n = (0, s) := by
  unfold State.busRead
  rcases h with h | h <;> rw [h] <;> exact if_pos hn

/-- The first register of an aligned access; its offset is an argument, so that nothing computes with the base address. -/
theorem busRead_word {off : Nat} (hoff : a - 0x300000000 = off) (h : regionOf a = .periph ∨ regionOf a = .window) (ha : a % 4 = 0) :
    s.busRead e task a 4 =
      let lo := s.readWord (.eng e) task off
      (lo.1.zeroExtend 64, lo.2) := by
  unfold State.busRead
  rw [hoff]
  rcases h with h | h <;> rw [h] <;> exact if_neg (by omega)

theorem busRead_double {off : Nat} (hoff : a - 0x300000000 = off) (h : regionOf a = .periph ∨ regionOf a = .window) (ha : a % 4 = 0) :
    s.busRead e task a 8 =
      let lo := s.readWord (.eng e) task off
      let hi := lo.2.readWord (.eng e) task (off + 4)
      (hi.1 ++ lo.1, hi.2) := by
  unfold State.busRead
  rw [hoff]
  rcases h with h | h <;> rw [h] <;> exact if_neg (by omega)

end

/-! ### What a register shows -/

/-- Bits set one by one, each at its own place. -/
theorem foldl_bits_testBit (P : Nat → Prop) [DecidablePred P] (n b : Nat) :
    ((List.range n).foldl (fun v j => v + if P j then 2 ^ j else 0) 0).testBit b = (decide (b < n) && decide (P b)) ∧
      (List.range n).foldl (fun v j => v + if P j then 2 ^ j else 0) 0 < 2 ^ n := by
  induction n with
  | zero => simp
  | succ n ih =>
    obtain ⟨hbit, hlt⟩ := ih
    rw [List.range_succ, List.foldl_append, List.foldl_cons, List.foldl_nil]
    revert hbit hlt
    generalize (List.range n).foldl (fun v j => v + if P j then 2 ^ j else 0) 0 = m
    intro hbit hlt
    have hsum : (m + if P n then 2 ^ n else 0) = 2 ^ n * (if P n then 1 else 0) + m := by split <;> omega
    constructor
    · rw [hsum, Nat.testBit_two_pow_mul_add _ hlt, hbit]
      rcases Nat.lt_trichotomy b n with hb | rfl | hb
      · simp [hb, Nat.lt_succ_of_lt hb]
      · by_cases hp : P b <;> simp [hp]
      · have above : (if P n then 1 else 0) < 2 ^ (b - n) := by
          have := Nat.one_lt_two_pow (n := b - n) (by omega)
          split <;> omega
        rw [if_neg (by omega), Nat.testBit_lt_two_pow above, decide_eq_false (by omega), Bool.false_and]
    · rw [Nat.pow_succ]
      split <;> omega

/-- The same of a 32-bit word. -/
theorem word_of_bits (P : Nat → Prop) [DecidablePred P] {b : Nat} (hb : b < 32) :
    (BitVec.ofNat 32 ((List.range 32).foldl (fun v j => v + if P j then 2 ^ j else 0) 0)).getLsbD b = true ↔ P b := by
  rw [BitVec.getLsbD_ofNat, (foldl_bits_testBit P 32 b).1]
  simp [hb]

theorem evState_waits (s : State) (k : Nat) : (s.evState k = 1 ∨ s.evState k = 2) ↔ ∃ y, tblFind s.evs k = some y ∧ y.ph ≠ .claimed := by
  unfold State.evState
  split
  · next hk => simp [hk]
  · next y hk =>
    simp only [hk, Option.some.injEq, exists_eq_left']
    cases y.ph <;> simp

theorem cpend_bit (s : State) (t j : Nat) {b : Nat} (hb : b < 32) :
    (BitVec.ofNat 32 (s.cpend t j)).getLsbD b = true ↔ ∃ y, tblFind s.evs (winKey t j b) = some y ∧ y.ph ≠ .claimed :=
  (word_of_bits (fun b => s.evState (winKey t j b) = 1 ∨ s.evState (winKey t j b) = 2) hb).trans (evState_waits s _)

theorem winKey_div {t j b : Nat} (h : winKey t j b < 160) : winKey t j b / 16 = t := by
  unfold winKey evKey at *
  split at h
  · next hn =>
    rw [if_pos hn]
    omega
  · omega

/-- The enable of a source as a field of its own: a bit of its target's PEN, or SCFG.EN. -/
def enableFld (t k : Nat) : Fld := if k < 160 then ⟨(R.EVC.PEN.EN t).off, k % 16, 1⟩ else R.EVC.SCFG.EN (k - 160)

theorem bit_iff_get (s : State) {f : Fld} {n : Nat} (hf : f.lo = 0) (hn : n < f.w) : s.bit f n = true ↔ s.get ⟨f.off, n, 1⟩ = 1 := by
  have inside : ((s.reg f.off).toNat % 2 ^ f.w).testBit n = (s.reg f.off).toNat.testBit n := by
    rw [Nat.testBit_mod_two_pow, decide_eq_true hn, Bool.true_and]
  simpa [State.bit, State.get, fieldOf, hf, Nat.testBit_eq_decide_div_mod_eq] using congrArg (· = true) inside

/-- CMASK(j) shows what is not enabled. -/
theorem cmask_eq (s : State) (t j : Nat) :
    s.cmask t j = (List.range 32).foldl (fun v b => v + if s.get (enableFld t (winKey t j b)) = 0 then 2 ^ b else 0) 0 := by
  unfold State.cmask
  congr 1
  funext v b
  have one : s.get (enableFld t (winKey t j b)) = 0 ↔ ¬ s.get (enableFld t (winKey t j b)) = 1 := by
    have : s.get (enableFld t (winKey t j b)) < 2 := by
      refine (get_lt s _).trans_le ?_
      unfold enableFld
      split <;> exact Nat.le_refl 2
    omega
  unfold enableFld at *
  dsimp only
  split
  · next hk =>
    rw [if_pos hk] at one
    have hbit := bit_iff_get s (f := R.EVC.PEN.EN t) (n := winKey t j b % 16) rfl (Nat.mod_lt _ (by decide))
    simp only [winKey_div hk, hbit, one, ite_not]
  · next hk =>
    rw [if_neg hk] at one
    simp only [one, ite_not, decide_eq_true_eq]

theorem cmask_bit (s : State) (t j : Nat) {b : Nat} (hb : b < 32) :
    (BitVec.ofNat 32 (s.cmask t j)).getLsbD b = true ↔ s.get (enableFld t (winKey t j b)) = 0 := by
  rw [cmask_eq]
  exact word_of_bits _ hb

/-- The registers that show their stored word, those of the clause on plain registers. -/
def plainOffs : List Nat :=
  [R.GONG.STATUS.PHASE, R.TASK.XSTAT.STATE, R.SIG.FLAG.all, R.VOTE.CHST.CH 0, R.EVC.HOLD.TGT, R.NET.RXACC.COUNT, R.SIO.OSTATE.DEM,
    R.SPD.STATUS.MODE, R.PAIR.ROLE.PACT, R.CFG.CURVER.CFGVER, R.UPD.STATE.TRIAL, R.SUP.STATE.MSTATE, R.BIST.LCS.STATE, R.ID.PART.NUM].map (·.off)

theorem readWord_plain (s : State) (r : Req) (task : Option Nat) : ∀ off ∈ plainOffs, s.readWord r task off = (s.reg off, s) := by
  intro off hoff
  fin_cases hoff <;> rfl

theorem readWord_frame (s : State) (r : Req) (task : Option Nat) :
    s.readWord r task R.GONG.FRAME_LO.FRAME.off = (BitVec.ofNat 32 s.frameShown, s.latchReg r R.GONG.FRAME_HI.FRAME.off) := rfl

theorem readWord_frame_latched (s : State) (r : Req) (task : Option Nat) :
    ((s.latchReg r R.GONG.FRAME_HI.FRAME.off).readWord r task R.GONG.FRAME_HI.FRAME.off).1 = BitVec.ofNat 32 (s.frameShown / 2 ^ 32) := by
  have found : tblFind (s.latchReg r R.GONG.FRAME_HI.FRAME.off).latch (reqKey r R.GONG.FRAME_HI.FRAME.off) =
      some (s.liveReg r R.GONG.FRAME_HI.FRAME.off) := by
    rw [State.latchReg, tblFind_put, if_pos rfl]
  calc ((s.latchReg r R.GONG.FRAME_HI.FRAME.off).readWord r task R.GONG.FRAME_HI.FRAME.off).1
      = (tblFind (s.latchReg r R.GONG.FRAME_HI.FRAME.off).latch (reqKey r R.GONG.FRAME_HI.FRAME.off)).getD _ := rfl
    _ = s.liveReg r R.GONG.FRAME_HI.FRAME.off := by rw [found, Option.getD_some]
    _ = BitVec.ofNat 32 (s.frameShown / 2 ^ 32) := rfl

theorem readWord_claimEmpty (s : State) (e : Eng) (task : Option Nat) (h : s.ringEmpty e.val = true) :
    s.readWord (.eng e) task 0x200040 = (0x3FF, s) := by
  have empty : s.evClaim (.eng e) e.val task = (0x3FF, s) := if_pos h
  rw [State.readWord, if_neg (by decide), if_pos rfl]
  dsimp only [reqTarget]
  rw [empty]
  rfl

theorem readWord_cpend (s : State) (e : Eng) (task : Option Nat) {off : Nat} (h : 0x200000 ≤ off) (h' : off < 0x200020) :
    s.readWord (.eng e) task off = (BitVec.ofNat 32 (s.cpend e.val ((off - 0x200000) / 4)), s) := by
  rw [State.readWord, if_neg (by omega), if_neg (by omega), if_pos ⟨h, h'⟩]
  rfl

theorem readWord_cmask (s : State) (e : Eng) (task : Option Nat) {off : Nat} (h : 0x200020 ≤ off) (h' : off < 0x200040) :
    s.readWord (.eng e) task off = (BitVec.ofNat 32 (s.cmask e.val ((off - 0x200020) / 4)), s) := by
  rw [State.readWord, if_neg (by omega), if_neg (by omega), if_neg (by omega), if_pos ⟨h, h'⟩]
  rfl

/-! ### A load that the bus serves at once -/

/-- Command `c` loads `v`, which the bus read from `s` and left `u`, and the copy of channel `ch` goes on with the registers `x'`. -/
def LoadGives (s u : State) (ch : Ch) (e : Eng) (task : Nat) (i : Inst) (c : Instr) (v : Word) (x' : Ctx) : Prop :=
  ∃ t, exec c s = .next t ∧ InstanceChanged (u.distribute v) t ch e task i x' 2 ∧
    t.vote.capture = v ∧ t.vote.dregB.stages.length = u.stagesOf .b ∧ t.vote.dregC.stages.length = u.stagesOf .c ∧
    (s.vote.dregB.wrong = 0 → ∀ d ∈ t.vote.dregB.stages, d = (v, parityOf v)) ∧
    (s.vote.dregC.wrong = 0 → ∀ d ∈ t.vote.dregC.stages, d = (v, parityOf v))

section
variable {s : State} {ch : Ch} {e : Eng} {task task' : Nat} {i i' : Inst} {p p' : Program} {ga : GReg} {imm : BitVec 16}
  (hl : Runs s s.leadCh e 4 task' i' p') (h : Runs s ch e 4 task i p)

include hl in
/-- What the leading channel's address decides of a load: a shared range outside the outbound window is read once. -/
theorem load_of_busRead {gd : GReg} {n : Nat} {signed : Bool} (ha : SharedAccess (regsOf s s.leadCh e) (effAddr (regsOf s s.leadCh e) ga imm) n)
    (ho : regionOf (effAddr (regsOf s s.leadCh e) ga imm) ≠ .outbound) {v : Word} {u : State}
    (hread : s.busRead e (some i'.td.id) (effAddr (regsOf s s.leadCh e) ga imm) n = (v, u)) :
    s.load e gd ga imm n signed = (u.distribute v).osrus e true 4 2 (loadOp gd ga imm n signed) v := by
  unfold State.load
  rw [reaches_runs hl]
  dsimp only
  rw [ha.loadFault, if_neg (by simp), if_neg ho, if_pos ha.shared, hread]

include h in
theorem loadGives_of_busRead {u : State} (hu : SameCopies s u) {c : Instr} {gd : GReg} {n : Nat} {signed : Bool} {v : Word}
    (hexec : exec c s = .next ((u.distribute v).osrus e true 4 2 (loadOp gd ga imm n signed) v))
    (ha : SharedAccess (regsOf s ch e) (effAddr (regsOf s ch e) ga imm) n) :
    LoadGives s u ch e task i c v (((regsOf s ch e).setG gd (loadExt (v ^^^ s.wrongBits ch) n signed)).adv 4) := by
  have hreceived : (u.distribute v).received ch v = v ^^^ s.wrongBits ch := by
    rw [distribute_received, State.received, hu.wrongBits]
  have hregs : regsOf (u.distribute v) ch e = regsOf s ch e := by rw [regsOf, distribute_ch, hu.ch]
  have retires := osrus_inst (distribute_runs v (hu.runs h)) 2 (loadOp gd ga imm n signed) v _ i _ <| by
    rw [hregs]
    exact ha.loadOp
  rw [envOf, hreceived] at retires
  obtain ⟨-, ⟨g, hvote⟩, -⟩ := osrus_only (u.distribute v) e true 4 2 (loadOp gd ga imm n signed) v
  refine ⟨_, hexec, retires, ?_⟩
  rw [hvote, ← hu.vote]
  exact ⟨rfl, List.length_replicate, List.length_replicate, fun hd _ hx => Dreg.mem_carry hd hx, fun hd _ hx => Dreg.mem_carry hd hx⟩

end

/-! ### Loads of the outbound window -/

/-- A step that gives each channel only engine `e` and its instances anew. -/
theorem onEngine_only (s : State) (e : Eng) (f : Ch → Chan → Chan × List Close)
    (hf : ∀ ch c, ∃ k is, (f ch c).1 = { c with eng := c.eng.set e k, insts := is }) : OnlyEngine s (s.onEngine e f) e := by
  refine ⟨rfl, ⟨_, rfl⟩, fun ch h => ?_, fun ch => ?_⟩
  · rw [State.onEngine_ch, h]
    rfl
  · rw [State.onEngine_ch]
    split
    · obtain ⟨k, is, hk⟩ := hf ch (s.ch ch)
      rw [hk]
      refine ⟨rfl, rfl, rfl, fun f hne => ?_⟩
      have : e.val ≠ f.val := fun hv => hne (Fin.ext hv.symm)
      simp [Vector.getElem_set_ne, this]
    · exact ⟨rfl, rfl, rfl, fun _ _ => rfl⟩

theorem stallRead_only (s : State) (e : Eng) (ga : GReg) (imm : BitVec 16) (n : Nat) (op : Op) (why : Nat → Stall) :
    OnlyEngine s (s.stallRead e ga imm n op why) e := by
  refine onEngine_only s e _ fun _ c => ?_
  dsimp only
  split
  · split
    · exact ⟨_, _, rfl⟩
    · exact Chan.step_frame ..
  · exact Chan.step_frame ..

theorem stallRead_ch {s u : State} (hu : SameCopies s u) {ch : Ch} {e : Eng} {task : Nat} {i : Inst} {p : Program} (h : Runs s ch e 4 task i p)
    {ga : GReg} {imm : BitVec 16} {n a : Nat} (hown : effAddr (regsOf s ch e) ga imm = a) (ha : SharedAccess (regsOf s ch e) a n) (op : Op)
    (why : Nat → Stall) :
    (u.stallRead e ga imm n op why).ch ch =
      { s.ch ch with eng := (s.ch ch).eng.set e { (s.ch ch).eng[e] with stall := some (why a) } } := by
  have hr := hu.runs h
  rw [State.stallRead, State.onEngine_ch, if_pos hr.1, reaches_runs hr, regsOf, hu.ch]
  dsimp only
  rw [hown, if_pos (ha.readsShared i)]

theorem enterSlot_sameCopies (s : State) (j : Fin 8) (w : DrWait) : SameCopies s (s.enterSlot j w) := .withBrg s _

theorem queueRead_sameCopies (s : State) (w : DrWait) : SameCopies s (s.queueRead w) := .withBrg s _

theorem errorOp_raises {x : Ctx} {ga : GReg} {imm : BitVec 16} {n a : Nat} (hown : effAddr x ga imm = a) (ha : SharedAccess x a n) (op : Op)
    (v : Env) (i : Inst) : errorOp ga imm n op v ⟨x, i, [], [], false, false, false⟩ = .error (0x10, a) := by
  subst hown
  exact if_pos (ha.readsShared i)

theorem readError_sameCopies (s : State) : SameCopies s s.readError :=
  (SameCopies.set s 1 (by decide) (by decide)).trans (SameCopies.set _ _ (by decide) (by decide))

theorem Fld.apart_comm (f g : Fld) : f.apart g = g.apart f := by
  unfold Fld.apart
  rw [Bool.or_assoc, Bool.or_assoc, Bool.or_comm (decide (g.lo + g.w ≤ f.lo)), bne_comm]

theorem FieldsSet.refl (s : State) : FieldsSet s s [] := ⟨by simp, fun _ _ => rfl⟩

/-- One field more is written, beside those written before. -/
theorem FieldsSet.set {s t : State} {l : List (Fld × Nat)} (h : FieldsSet s t l) {f : Fld} (n : Nat) (hf : f.ok = true)
    (hl : ∀ p ∈ l, f.apart p.1 = true) : FieldsSet s (t.set f n) (l ++ [(f, n)]) := by
  obtain ⟨hset, hkept⟩ := h
  constructor
  · intro p hp
    rcases List.mem_append.1 hp with hp | hp
    · rw [get_set_apart t n hf (hl p hp), hset p hp]
    · rw [List.mem_singleton.1 hp]
      exact get_set_same t n hf
  · intro g hg
    have beside : f.apart g = true := by rw [Fld.apart_comm]; exact hg (f, n) (by simp)
    rw [get_set_apart t n hf beside, hkept g fun p hp => hg p (by simp [hp])]

theorem readError_fields (s : State) : FieldsSet s s.readError
    [(R.BRG.FLAG.RDERR, 1), (R.BRG.RDERRCNT.COUNT, min (s.get R.BRG.RDERRCNT.COUNT + 1) (2 ^ R.BRG.RDERRCNT.COUNT.w - 1))] := by
  have count : (s.flag R.BRG.FLAG.RDERR).get R.BRG.RDERRCNT.COUNT = s.get R.BRG.RDERRCNT.COUNT := get_set_apart s 1 (by decide) (by decide)
  unfold State.readError State.incSat
  rw [count]
  exact ((FieldsSet.refl s).set 1 (by decide) (by simp)).set _ (by decide) (by decide)

theorem freeSlot_eq_some {s : State} {j : Fin 8} (hj : s.brg.slots[j] = none) (hlt : ∀ b, b < j → s.brg.slots[b] ≠ none) :
    s.freeSlot = some j := by
  rw [State.freeSlot, List.find?_eq_some_iff_getElem]
  refine ⟨by rw [hj]; rfl, j.val, by simp, by simp, fun b hb => ?_⟩
  rw [List.getElem_finRange]
  simpa [← Option.ne_none_iff_isSome] using hlt ⟨b, by omega⟩ hb

theorem freeSlot_eq_none {s : State} (h : ∀ b : Fin 8, s.brg.slots[b] ≠ none) : s.freeSlot = none := by
  rw [State.freeSlot, List.find?_eq_none]
  intro b _
  simpa using h b

section
variable {s : State} {e : Eng} {task' : Nat} {i' : Inst} {p' : Program} {gd ga : GReg} {imm : BitVec 16} {n : Nat} {signed : Bool} {a : Nat}
  (hl : Runs s s.leadCh e 4 task' i' p') (hlead : effAddr (regsOf s s.leadCh e) ga imm = a) (ha : SharedAccess (regsOf s s.leadCh e) a n)
  (ho : regionOf a = .outbound)
include hl hlead ha ho

theorem load_outbound : s.load e gd ga imm n signed =
    let op := loadOp gd ga imm n signed
    let w : DrWait := ⟨.eng e, BitVec.ofNat 32 (a - 0x400000000), n⟩
    if s.get R.BRG.STATUS.HOLD = 0 then s.readError.osrus e true 4 2 (errorOp ga imm n op)
    else match s.freeSlot with
      | none => (s.queueRead w).stallRead e ga imm n op (.noSlot gd · n signed)
      | some j => (s.enterSlot j w).stallRead e ga imm n op (.read j.val gd · n signed) := by
  unfold State.load
  rw [reaches_runs hl]
  dsimp only
  rw [hlead, ha.loadFault, if_neg (by simp), if_pos ho] <;> rfl

theorem load_outbound_error (hold : s.get R.BRG.STATUS.HOLD = 0) :
    s.load e gd ga imm n signed = s.readError.osrus e true 4 2 (errorOp ga imm n (loadOp gd ga imm n signed)) := by
  rw [load_outbound hl hlead ha ho]
  exact if_pos hold

theorem load_outbound_slot (hold : s.get R.BRG.STATUS.HOLD = 1) {j : Fin 8} (hj : s.freeSlot = some j) :
    s.load e gd ga imm n signed =
      (s.enterSlot j ⟨.eng e, BitVec.ofNat 32 (a - 0x400000000), n⟩).stallRead e ga imm n (loadOp gd ga imm n signed)
        (.read j.val gd · n signed) := by
  rw [load_outbound hl hlead ha ho, hj, hold]
  rfl

theorem load_outbound_queue (hold : s.get R.BRG.STATUS.HOLD = 1) (hj : s.freeSlot = none) :
    s.load e gd ga imm n signed =
      (s.queueRead ⟨.eng e, BitVec.ofNat 32 (a - 0x400000000), n⟩).stallRead e ga imm n (loadOp gd ga imm n signed) (.noSlot gd · n signed) := by
  rw [load_outbound hl hlead ha ho, hj, hold]
  rfl

end

/-! ### The statement, clause by clause -/

/-- The load instructions: the command, the bytes it loads, and whether it extends the sign. -/
def loadsOf (e : Eng) (gd ga : GReg) (imm : BitVec 16) : List (Instr × Nat × Bool) :=
  [(.ldb e gd ga imm, 1, true), (.ldbu e gd ga imm, 1, false), (.ldh e gd ga imm, 2, true), (.ldhu e gd ga imm, 2, false),
    (.ldw e gd ga imm, 4, true), (.ldwu e gd ga imm, 4, false), (.ldd e gd ga imm, 8, false)]

theorem exec_load (s : State) {e : Eng} {gd ga : GReg} {imm : BitVec 16} :
    ∀ l ∈ loadsOf e gd ga imm, exec l.1 s = .next (s.load e gd ga imm l.2.1 l.2.2) := by
  simp only [loadsOf, List.forall_mem_cons]
  exact ⟨rfl, rfl, rfl, rfl, rfl, rfl, rfl, fun _ hl => nomatch hl⟩

theorem wrongBits_leadCh (s : State) : s.wrongBits s.leadCh = 0 := if_pos rfl

section
variable {s : State} {ch : Ch} {e : Eng} {task task' : Nat} {i i' : Inst} {p p' : Program} {gd ga : GReg} {imm : BitVec 16} {a : Nat}
  (hl : Runs s s.leadCh e 4 task' i' p') (h : Runs s ch e 4 task i p)
  (hlead : effAddr (regsOf s s.leadCh e) ga imm = a) (hown : effAddr (regsOf s ch e) ga imm = a)
include hl h hlead hown

/-- A copy that forms the leading channel's address gets what the bus read there. -/
theorem load_gives {u : State} (hu : SameCopies s u) {c : Instr} {n : Nat} {signed : Bool}
    (hexec : exec c s = .next (s.load e gd ga imm n signed)) (hla : SharedAccess (regsOf s s.leadCh e) a n)
    (hca : SharedAccess (regsOf s ch e) a n) (ho : regionOf a ≠ .outbound) {v : Word} (hread : s.busRead e (some i'.td.id) a n = (v, u)) :
    LoadGives s u ch e task i c v (((regsOf s ch e).setG gd (loadExt (v ^^^ s.wrongBits ch) n signed)).adv 4) := by
  subst hlead
  refine loadGives_of_busRead h hu ?_ (hown ▸ hca)
  rw [hexec, load_of_busRead hl hla ho hread]

/-- Bytes of memory: nothing but the copies changes. -/
theorem load_gives_memory (hg : regionOf a = .exchange ∨ regionOf a = .mram)
    (hsafe : regionOf a = .exchange → (regsOf s s.leadCh e).safe = false ∧ (regsOf s ch e).safe = false) {read : Nat → Word}
    (hread : ∀ n, s.busRead e (some i'.td.id) a n = (read n, s)) {c : Instr} (n : Nat) (signed : Bool)
    (hexec : exec c s = .next (s.load e gd ga imm n signed)) (hn : a % n = 0) :
    LoadGives s s ch e task i c (read n) (((regsOf s ch e).setG gd (loadExt (read n ^^^ s.wrongBits ch) n signed)).adv 4) := by
  have inside : regionOf a ≠ .outbound := by rcases hg with hg | hg <;> rw [hg] <;> decide
  have access (y : Ctx) (hy : regionOf a = .exchange → y.safe = false) : SharedAccess y a n :=
    .of_memory (hg.elim (fun hx => .inr ⟨.inl hx, hy hx⟩) .inl) hn
  exact load_gives hl h hlead hown (.refl s) hexec (access _ fun hx => (hsafe hx).1) (access _ fun hx => (hsafe hx).2) inside (hread n)

theorem load_gives_register (hg : regionOf a = .periph ∨ regionOf a = .window) {u : State} (hu : SameCopies s u) {c : Instr} (n : Nat)
    (signed : Bool) (hexec : exec c s = .next (s.load e gd ga imm n signed)) {v : Word} (hread : s.busRead e (some i'.td.id) a n = (v, u)) :
    LoadGives s u ch e task i c v (((regsOf s ch e).setG gd (loadExt (v ^^^ s.wrongBits ch) n signed)).adv 4) := by
  have inside : regionOf a ≠ .outbound := by rcases hg with hg | hg <;> rw [hg] <;> decide
  exact load_gives hl h hlead hown hu hexec (.of_register hg) (.of_register hg) inside hread

end

/-- Settles O11, clause by clause: the leading channel, memory, registers, the outbound window. -/
theorem distributedReadIsTheSameInEveryChannel : Obligations.DistributedReadIsTheSameInEveryChannel := by
  unfold Obligations.DistributedReadIsTheSameInEveryChannel
  intro s ch e task task' i i' p p' gd ga imm j x a own g k mem mram gets got bytes halves words all off lo hi plain frame source pending slot
    loads waits hl h
  have hlead : effAddr (regsOf s s.leadCh e) ga imm = a := rfl
  have hcopy : effAddr (regsOf s ch e) ga imm = own := rfl
  have hoff : a - 0x300000000 = off := rfl
  clear_value a own off
  have memory (hown : own = a) (hg : g = .exchange ∨ g = .mram)
      (hsafe : g = .exchange → (regsOf s s.leadCh e).safe = false ∧ x.safe = false) (read : Nat → Word)
      (hread : ∀ n, s.busRead e (some i'.td.id) a n = (read n, s)) : all read := by
    have gives {c : Instr} (n : Nat) (signed : Bool) (hc : exec c s = .next (s.load e gd ga imm n signed)) (hn : a % n = 0) :=
      load_gives_memory hl h hlead (hcopy.trans hown) hg hsafe hread n signed hc hn
    exact ⟨⟨gives 1 true rfl a.mod_one, gives 1 false rfl a.mod_one⟩, fun hn => ⟨gives 2 true rfl hn, gives 2 false rfl hn⟩,
      fun hn => ⟨gives 4 true rfl hn, gives 4 false rfl hn⟩, fun hn => gives 8 false rfl hn⟩
  refine ⟨?lead, ?exchange, ?mram, ?registers, ?outbound⟩
  case lead =>
    rintro rfl
    exact wrongBits_leadCh s
  case exchange =>
    exact fun hown hg hsl hsc => memory hown (.inl hg) (fun _ => ⟨hsl, hsc⟩) mem fun n => busRead_exchange s e _ hg
  case mram =>
    exact fun hown hg => memory hown (.inr hg) (fun hx => by rw [hg] at hx; cases hx) mram fun n => busRead_mram s e _ hg
  case registers =>
    intro hown hg
    have gives {c : Instr} (n : Nat) (signed : Bool) (hc : exec c s = .next (s.load e gd ga imm n signed)) {u : State} {v : Word}
        (hu : SameCopies s u) (hread : s.busRead e (some i'.td.id) a n = (v, u)) :=
      load_gives_register hl h hlead (hcopy.trans hown) hg hu n signed hc hread
    have same := SameCopies.refl s
    have part {n : Nat} (hn : n < 4 ∨ a % 4 ≠ 0) := busRead_part s e (some i'.td.id) hg hn
    have afterLo : SameCopies s lo.2 := .readWord ..
    have afterHi : SameCopies s hi.2 := afterLo.trans (.readWord ..)
    refine ⟨⟨gives 1 true rfl same (part (.inl (by decide))), gives 1 false rfl same (part (.inl (by decide)))⟩,
      ⟨gives 2 true rfl same (part (.inl (by decide))), gives 2 false rfl same (part (.inl (by decide)))⟩,
      fun hn => ?misaligned, fun hn => ?aligned, ?plain, ?frame, ?empty, ?cpend, ?cmask⟩
    case misaligned =>
      exact ⟨⟨gives 4 true rfl same (part (.inr hn)), gives 4 false rfl same (part (.inr hn))⟩, gives 8 false rfl same (part (.inr hn))⟩
    case aligned =>
      have word := busRead_word s e (some i'.td.id) hoff hg hn
      exact ⟨⟨gives 4 true rfl afterLo word, gives 4 false rfl afterLo word⟩, gives 8 false rfl afterHi (busRead_double s e _ hoff hg hn)⟩
    case plain =>
      intro f hf hof
      rw [← hof]
      exact readWord_plain s _ _ off (hof ▸ List.mem_map_of_mem hf)
    case frame =>
      rintro rfl
      exact ⟨rfl, readWord_frame_latched s _ _⟩
    case empty =>
      rintro rfl hempty
      exact readWord_claimEmpty s e _ hempty
    case cpend =>
      intro hfrom hto _
      have hlo : lo = _ := readWord_cpend s e _ hfrom hto
      have hword : (off - 0x200000) / 4 % 8 = (off - 0x200000) / 4 := by omega
      refine ⟨congrArg Prod.snd hlo, fun b hb => ?_⟩
      simp only [hlo, pending, source, hword]
      exact cpend_bit s _ _ hb
    case cmask =>
      intro hfrom hto _
      have hlo : lo = _ := readWord_cmask s e _ hfrom hto
      have hword : (off - 0x200000) / 4 % 8 = (off - 0x200020) / 4 := by omega
      refine ⟨congrArg Prod.snd hlo, fun b hb => ?_⟩
      simp only [hlo, source, hword]
      exact cmask_bit s _ _ hb
  case outbound =>
    intro hg hsafe c n signed hc hn haccess
    have hexec := exec_load s (c, n, signed) hc
    have hla : SharedAccess (regsOf s s.leadCh e) a n := ⟨Region.shared_iff.2 (.inr (.inr (.inr (.inr hg)))), fun _ => hsafe, .inr hn⟩
    have hca : SharedAccess x own n := haccess.elim (fun ⟨hm, hg⟩ => .of_memory hg hm) .of_register
    refine ⟨fun hold => ?error, fun hold hj hlt => ?slot, fun hold hfull => ?queue⟩
    case error =>
      rw [load_outbound_error hl hlead hla hg hold] at hexec
      have hregs : regsOf s.readError ch e = x := rfl
      refine ⟨_, hexec, osrus_raise ((readError_sameCopies s).runs h) 2 _ 0 _ _ ?_, readError_fields s⟩
      rw [hregs]
      exact errorOp_raises hcopy hca _ _ _
    case slot =>
      rw [load_outbound_slot hl hlead hla hg hold (freeSlot_eq_some hj hlt)] at hexec
      refine ⟨_, hexec, stallRead_only .., ?_⟩
      exact stallRead_ch (enterSlot_sameCopies ..) h hcopy hca _ _
    case queue =>
      rw [load_outbound_queue hl hlead hla hg hold (freeSlot_eq_none hfull)] at hexec
      refine ⟨_, hexec, stallRead_only .., ?_⟩
      exact stallRead_ch (queueRead_sameCopies ..) h hcopy hca _ _

end Sys2Proof.Machine
end

section
/-! PROOF. Registers (R1 to R5): reads with latches, pair writes, access codes, and who may write. -/

namespace Sys2Proof.Machine

/-! ### Commands that act while the module is powered -/

theorem does_of_whilePowered {c : Instr} {s t : State} {post : State → Prop} (h : exec c s = s.whilePowered t)
    (hpost : s.sup.powered = true → post t) : Does c s post :=
  fun hp => ⟨t, by rw [h, State.whilePowered, if_pos hp], hpost hp⟩

theorem does_of_next {c : Instr} {s t : State} {post : State → Prop} (h : exec c s = .next t) (hpost : post t) : Does c s post :=
  fun _ => ⟨t, h, hpost⟩

theorem whilePowered_self (s : State) : s.whilePowered s = .next s := congrArg _ (ite_self s)

theorem shut_iff {s : State} {r : Req} : s.shut r = true ↔ r = .maint ∧ s.session = none := by
  rw [State.shut, Bool.and_eq_true, decide_eq_true_iff, Option.isNone_iff_eq_none]

theorem not_shut_iff {s : State} {r : Req} : s.shut r = false ↔ r ≠ .maint ∨ s.session ≠ none := by
  rw [← Bool.not_eq_true, shut_iff, not_and_or]

theorem shut_eng (s : State) (e : Eng) : s.shut (.eng e) = false := rfl

theorem steward_of_shut {s : State} {r : Req} (h : s.shut r = true) : s.steward r = false := by
  rw [State.steward, h, Bool.not_true, Bool.and_false]

theorem steward_eng (s : State) (e : Eng) : s.steward (.eng e) = false := by
  rw [State.steward, isEng, Bool.not_true, Bool.and_false, Bool.false_and]

/-! ### Keys of what is kept for a requester -/

theorem reqNum_lt (r : Req) : reqNum r < 16 := by
  cases r with
  | eng e => exact Nat.lt_of_lt_of_le e.isLt (by decide)
  | st0 | st1 | maint => decide

theorem reqNum_inj {q r : Req} (h : reqNum q = reqNum r) : q = r := by
  cases q with
  | eng e =>
    cases r with
    | eng f => exact congrArg Req.eng (Fin.ext h)
    | st0 | st1 | maint => exact absurd h (Nat.ne_of_lt (e.isLt.trans_le (by decide)))
  | st0 | st1 | maint =>
    cases r with
    | eng f => exact absurd h.symm (Nat.ne_of_lt (f.isLt.trans_le (by decide)))
    | st0 | st1 | maint =>
      revert h
      decide

theorem reqKey_ne {q r : Req} {o o' : Nat} (h : q ≠ r ∨ o ≠ o') : reqKey q o ≠ reqKey r o' := by
  intro hk
  have hq := reqNum_lt q
  have hr := reqNum_lt r
  unfold reqKey at hk
  rcases h with h | h
  · exact h (reqNum_inj (by omega))
  · exact h (by omega)

/-! ### Reads -/

/-- What a requester other than an engine is shown in `resp`. -/
def State.shows (s : State) (r : Req) (v : W32) : State := { s with resp := if isEng r then s.resp else some v }

theorem readFor_shut {s : State} {r : Req} {off : Nat} (h : s.shut r = true) (hoff : 0x10000 ≤ off) :
    s.readFor r off = { s with resp := some 0 } := by
  obtain ⟨rfl, hs⟩ := shut_iff.1 h
  rw [State.readFor, if_neg (by simp), if_pos (.inr ⟨h, hoff⟩)]
  rfl

/-- An aligned read below the outbound window that the maintenance port's session permits. -/
theorem readFor_open {s : State} {r : Req} {off : Nat} (h : s.shut r = false) (ha : off % 4 = 0) (ho : off < 0x100000000) :
    s.readFor r off = (s.readWord r (s.reqTask r) off).2.shows r (s.readWord r (s.reqTask r) off).1 := by
  rw [State.readFor, if_neg (by omega), if_neg (by simp [h, ha])]
  rfl

theorem readFor_frame {s : State} {r : Req} (h : s.shut r = false) :
    s.readFor r R.GONG.FRAME_LO.FRAME.off = (s.latchReg r R.GONG.FRAME_HI.FRAME.off).shows r (BitVec.ofNat 32 s.frameShown) := by
  rw [readFor_open h (by decide) (by decide), readWord_frame]

theorem readWord_frameHi (s : State) (r : Req) (task : Option Nat) :
    s.readWord r task R.GONG.FRAME_HI.FRAME.off =
      ((tblFind s.latch (reqKey r R.GONG.FRAME_HI.FRAME.off)).getD (BitVec.ofNat 32 (s.frameShown / 2 ^ 32)), s) := rfl

theorem latchReg_find (s : State) (q r : Req) (o o' : Nat) :
    tblFind (s.latchReg r o).latch (reqKey q o') = if reqKey q o' = reqKey r o then some (s.liveReg r o) else tblFind s.latch (reqKey q o') :=
  tblFind_put ..

theorem latchReg_same (s : State) (r : Req) (o : Nat) : tblFind (s.latchReg r o).latch (reqKey r o) = some (s.liveReg r o) := by
  rw [latchReg_find, if_pos rfl]

theorem latchReg_ne (s : State) {q r : Req} {o o' : Nat} (h : q ≠ r ∨ o' ≠ o) :
    tblFind (s.latchReg r o).latch (reqKey q o') = tblFind s.latch (reqKey q o') := by
  rw [latchReg_find, if_neg (reqKey_ne h)]

/-- A read of NOWSEC_LO latches the other three time registers; a latch changes no register's live value. -/
theorem readNow_latch (s : State) (r : Req) :
    let t := (s.readNow r).2
    tblFind t.latch (reqKey r 0x70014) = some (BitVec.ofNat 32 (s.nowNs / 1000000000 / 2 ^ 32)) ∧
      tblFind t.latch (reqKey r 0x70018) = some (BitVec.ofNat 32 (s.nowNs % 1000000000)) ∧
      tblFind t.latch (reqKey r 0x7001C) = some (BitVec.ofNat 32 (s.clk % 2 ^ 32 / 2 ^ 16)) ∧
      ∀ q o, (q ≠ r ∨ o ∉ [0x70014, 0x70018, 0x7001C]) → tblFind t.latch (reqKey q o) = tblFind s.latch (reqKey q o) := by
  dsimp only [State.readNow]
  refine ⟨?_, ?_, latchReg_same .., fun q o h => ?_⟩
  · rw [latchReg_ne _ (.inr (by decide)), latchReg_ne _ (.inr (by decide)), latchReg_same]
    rfl
  · rw [latchReg_ne _ (.inr (by decide)), latchReg_same]
    rfl
  · simp only [List.mem_cons, List.not_mem_nil, or_false, not_or] at h
    rw [latchReg_ne _ (h.imp_right (·.2.2)), latchReg_ne _ (h.imp_right (·.2.1)), latchReg_ne _ (h.imp_right (·.1))]

/-! ### A steward core's load of the outbound window -/

/-- The bridge after a core's earlier load has gone. -/
def BrgSt.leave (b : BrgSt) (q : DrReq) : BrgSt :=
  { b with slots := b.slots.map fun d => d.map fun x => if x.req = q then { x with gone := true } else x
           waits := b.waits.filter fun x => x.req ≠ q }

theorem leaveReads_eq (s : State) (q : DrReq) : s.leaveReads (fun x => x = q) = { s with brg := s.brg.leave q } := by
  simp [State.leaveReads, BrgSt.leave]

theorem readFor_outbound {s : State} {r : Req} {off : Nat} (ha : off % 4 = 0) (h1 : 0x100000000 ≤ off) (h2 : off < 0x200000000)
    (hr : r = .st0 ∨ r = .st1) : s.readFor r off = s.stewardLoad (r = .st1) (BitVec.ofNat 32 off) :=
  if_pos ⟨ha, h1, h2, hr⟩

theorem stewardLoad_eq (s : State) (st1 : Bool) (a : W32) :
    s.stewardLoad st1 a =
      let s1 := { s with resp := none, brg := s.brg.leave (.core st1) }
      if s.get R.BRG.STATUS.HOLD = 0 then s1.readError
      else match s1.freeSlot with
        | none => s1.queueRead ⟨.core st1, a, 4⟩
        | some j => s1.enterSlot j ⟨.core st1, a, 4⟩ := by
  unfold State.stewardLoad
  rw [leaveReads_eq] <;> rfl

/-! ### Pairs that take writes (R4) -/

/-- What a requester holds for a _LO register, else what it shows, and nothing is held any more. -/
theorem takeHeld_eq (s : State) (r : Req) (off : Nat) :
    (s.takeHeld r off).1 = (tblFind s.held (reqKey r off)).getD (s.reg off) ∧
      ∃ l, (s.takeHeld r off).2 = { s with held := l } ∧ tblFind l (reqKey r off) = none := by
  unfold State.takeHeld
  cases h : tblFind s.held (reqKey r off) with
  | none => exact ⟨rfl, s.held, rfl, h⟩
  | some v => exact ⟨rfl, _, rfl, by rw [tblFind_del, if_pos rfl]⟩

theorem exec_loRegisterWrite (r : Req) (off : Nat) (v : W32) (s : State) :
    exec (.loRegisterWrite r off v) s = s.whilePowered (s.holdLo r off v) := rfl

theorem holdLo_held {s : State} {r : Req} {off : Nat} (v : W32) (h : s.steward r = true) (hp : isPairLo off = true) :
    s.holdLo r off v = { s with held := tblPut s.held (reqKey r off) v } := if_pos (by rw [h, hp]; rfl)

theorem holdLo_ignored {s : State} {r : Req} {off : Nat} (v : W32) (h : s.steward r = false ∨ isPairLo off = false) : s.holdLo r off v = s :=
  if_neg (by rcases h with h | h <;> simp [h])

theorem isPairLo_rbase (ring : Fin 64) : isPairLo (0x60800 + 32 * ring.val) = true := by
  revert ring
  decide

theorem exec_hiRegisterWrite_ignored {s : State} {r : Req} {off : Nat} (v : W32)
    (h : s.steward r = false ∨ off < 4 ∨ isPairLo (off - 4) = false) : exec (.hiRegisterWrite r off v) s = .next s :=
  if_pos (by rcases h with h | h | h <;> simp [h])

theorem exec_hiRegisterWrite {s : State} {r : Req} {off : Nat} (v : W32) (h : s.steward r = true) (hp : isPairLo off = true)
    (hi : off + 4 ≠ R.TIME.INCR_HI.NS.off) (hs : off + 4 ≠ R.TIME.STEP_HI.OFFS.off) :
    exec (.hiRegisterWrite r (off + 4) v) s = s.whilePowered (s.writeHi r (off + 4) v) := by
  have accepted : ¬ (!s.steward r || decide (off + 4 < 4) || !isPairLo (off + 4 - 4)) = true := by simp [h, hp]
  exact (if_neg accepted).trans ((if_neg hi).trans (if_neg hs))

/-- The end of a pair: both halves change and the hold is used up. -/
theorem pair_written (s : State) (r : Req) (off : Nat) (hi : W32) :
    let u := s.takeHeld r off
    let t := (u.2.setReg off u.1).setReg (off + 4) hi
    t = { s with regs := t.regs, held := t.held } ∧ tblFind t.held (reqKey r off) = none ∧
      t.reg off = (tblFind s.held (reqKey r off)).getD (s.reg off) ∧ t.reg (off + 4) = hi ∧ RegsKept s t [off, off + 4] := by
  obtain ⟨hlo, l, hu, hl⟩ := takeHeld_eq s r off
  dsimp only
  rw [hlo, hu]
  refine ⟨rfl, hl, ?_, reg_setReg_same .., fun o ho => ?_⟩
  · rw [reg_setReg_ne _ _ (by omega), reg_setReg_same]
  · simp only [List.mem_cons, List.not_mem_nil, or_false, not_or] at ho
    rw [reg_setReg_ne _ _ ho.2, reg_setReg_ne _ _ ho.1]
    rfl

theorem cfgOpen_iff {s : State} : s.cfgOpen = true ↔ s.mstate = .boot ∨ s.mstate = .init := by
  rw [State.cfgOpen, Bool.or_eq_true, decide_eq_true_iff, decide_eq_true_iff]

theorem writeHi_fval (s : State) (r : Req) (v : W32) :
    s.writeHi r (R.SIG.FVAL_LO.VAL.off + 4) v =
      let u := s.takeHeld r R.SIG.FVAL_LO.VAL.off
      (u.2.setReg R.SIG.FVAL_LO.VAL.off u.1).setReg (R.SIG.FVAL_LO.VAL.off + 4) v := rfl

/-- RBASE takes a write in BOOT and INIT; at other times the hold is used up all the same (log 26). -/
theorem writeHi_rbase (s : State) (r : Req) {off : Nat} (v : W32) (hoff : off + 4 ≠ R.SIG.FVAL_HI.VAL.off) :
    s.writeHi r (off + 4) v =
      let u := s.takeHeld r off
      if s.cfgOpen then (u.2.setReg off u.1).setReg (off + 4) (v &&& 0xFF) else u.2 := by
  unfold State.writeHi
  rw [Nat.add_sub_cancel]
  dsimp only
  rw [if_neg hoff]

/-! ### Access codes (R5), bit by bit -/

/-- Bit `b` lies in the field. -/
def RegFld.has (x : RegFld) (b : Nat) : Bool := decide (x.lo ≤ b) && decide (b < x.lo + x.w)

theorem RegFld.has_iff (x : RegFld) (b : Nat) : x.has b = true ↔ x.lo ≤ b ∧ b < x.lo + x.w := by
  rw [RegFld.has, Bool.and_eq_true, decide_eq_true_iff, decide_eq_true_iff]

/-- Every field lies in the word. -/
def fitWord (fs : List RegFld) : Bool := fs.all fun x => decide (x.lo + x.w ≤ 32)

theorem withField_getLsbD (v : W32) {lo w : Nat} (n b : Nat) (h : lo + w ≤ 32) :
    (withField v lo w n).getLsbD b = if lo ≤ b ∧ b < lo + w then n.testBit (b - lo) else v.getLsbD b := withField_testBit v n b h

theorem fieldOf_testBit_sub (v : W32) {lo w b : Nat} (h : lo ≤ b ∧ b < lo + w) : (fieldOf v lo w).testBit (b - lo) = v.getLsbD b := by
  rw [fieldOf_testBit, decide_eq_true (by omega), Bool.true_and, Nat.add_sub_cancel' h.1]
  rfl

theorem clearBits_getLsbD (fs : List RegFld) (old v : W32) (b : Nat) (hfit : fitWord fs = true) :
    (clearBits fs old v).getLsbD b = (old.getLsbD b && !(v.getLsbD b && fs.any fun x => decide (x.acc = .w1c) && x.has b)) := by
  unfold clearBits
  induction fs generalizing old with
  | nil => simp
  | cons f fs ih =>
    rw [fitWord, List.all_cons, Bool.and_eq_true, decide_eq_true_iff] at hfit
    rw [List.foldl_cons, ih _ hfit.2, List.any_cons]
    by_cases hacc : f.acc = .w1c
    · rw [if_pos hacc, withField_getLsbD _ _ _ hfit.1]
      by_cases hb : f.lo ≤ b ∧ b < f.lo + f.w
      · have hhas : f.has b = true := (f.has_iff b).2 hb
        have hmask : (2 ^ f.w - 1).testBit (b - f.lo) = true := by rw [Nat.testBit_two_pow_sub_one, decide_eq_true_iff]; omega
        rw [if_pos hb, Nat.testBit_and, Nat.testBit_xor, hmask, fieldOf_testBit_sub _ hb, fieldOf_testBit_sub _ hb]
        simp only [hacc, hhas, decide_true, Bool.true_or, Bool.and_true]
        cases old.getLsbD b <;> cases v.getLsbD b <;> rfl
      · have hhas : f.has b = false := Bool.eq_false_iff.2 (mt (f.has_iff b).1 hb)
        rw [if_neg hb, hhas, Bool.and_false, Bool.false_or]
    · rw [if_neg hacc, decide_eq_false hacc, Bool.false_and, Bool.false_or]

theorem takeBits_getLsbD (p : RegFld → Bool) (fs : List RegFld) (old v : W32) (b : Nat) (hfit : fitWord fs = true) :
    (takeBits p fs old v).getLsbD b =
      if (fs.any fun x => decide (x.acc = .rw) && p x && x.has b) = true then v.getLsbD b else old.getLsbD b := by
  unfold takeBits
  induction fs generalizing old with
  | nil => rfl
  | cons f fs ih =>
    rw [fitWord, List.all_cons, Bool.and_eq_true, decide_eq_true_iff] at hfit
    rw [List.foldl_cons, ih _ hfit.2, List.any_cons]
    by_cases hacc : (decide (f.acc = .rw) && p f) = true
    · rw [if_pos hacc, withField_getLsbD _ _ _ hfit.1, hacc, Bool.true_and]
      by_cases hb : f.lo ≤ b ∧ b < f.lo + f.w
      · have hhas : f.has b = true := (f.has_iff b).2 hb
        rw [if_pos hb, fieldOf_testBit_sub _ hb, hhas, Bool.true_or, ite_self, if_pos rfl]
      · have hhas : f.has b = false := Bool.eq_false_iff.2 (mt (f.has_iff b).1 hb)
        rw [if_neg hb, hhas, Bool.false_or]
    · rw [if_neg hacc, Bool.eq_false_iff.2 hacc, Bool.false_and, Bool.false_or]

/-- A register without RW fields takes nothing of a write. -/
theorem takeBits_eq_self (p : RegFld → Bool) {fs : List RegFld} (old v : W32) (h : fs.all (fun x => decide (x.acc ≠ .rw)) = true) :
    takeBits p fs old v = old := by
  unfold takeBits
  induction fs with
  | nil => rfl
  | cons f fs ih =>
    rw [List.all_cons, Bool.and_eq_true, decide_eq_true_iff] at h
    rw [List.foldl_cons, if_neg (by simp [h.1]), ih h.2]

theorem clearBits_eq_self {fs : List RegFld} (old v : W32) (h : fs.all (fun x => decide (x.acc ≠ .w1c)) = true) : clearBits fs old v = old := by
  unfold clearBits
  induction fs with
  | nil => rfl
  | cons f fs ih =>
    rw [List.all_cons, Bool.and_eq_true, decide_eq_true_iff] at h
    rw [List.foldl_cons, if_neg h.1, ih h.2]

/-! ### A steward's write of a single register -/

theorem exec_registerWrite_steward {s : State} {r : Req} {off : Nat} (v : W32) (h : s.steward r = true) (ha : off % 4 = 0) :
    exec (.registerWrite r off v) s = s.stewardWrite r off v := by
  cases r with
  | eng e =>
    rw [steward_eng] at h
    cases h
  | st0 | st1 | maint => exact (if_neg (by simp [ha])).trans (if_pos h)

theorem exec_registerWrite_ignored {s : State} {r : Req} {off : Nat} (v : W32) (h : off % 4 ≠ 0 ∨ s.shut r = true) :
    exec (.registerWrite r off v) s = .next s := by
  by_cases ha : off % 4 = 0
  · obtain ⟨rfl, hs⟩ := shut_iff.1 (h.resolve_left (not_not.2 ha))
    exact (if_neg (by simp [ha])).trans (if_neg (by simp [steward_of_shut (shut_iff.2 ⟨rfl, hs⟩)]))
  · exact if_pos ha

theorem exec_registerWrite_eng (s : State) (e : Eng) {off : Nat} (v : W32) (ha : off % 4 = 0) :
    exec (.registerWrite (.eng e) off v) s = s.whilePowered (s.progWrite e off v) := if_neg (by simp [ha])

theorem stewardWrite_runCommand {s : State} {r : Req} {off : Nat} {v : W32} {o : Host.Outcome State Fault Refusal} (hoff : off < 0x100000000)
    (h : s.runCommand r off v = some o) : s.stewardWrite r off v = o := by
  rw [State.stewardWrite, if_neg (by omega), h]
  rfl

theorem stewardWrite_storeCommand {s : State} {r : Req} {off : Nat} {v : W32} {o : Host.Outcome State Fault Refusal} (hoff : off < 0x100000000)
    (hrun : s.runCommand r off v = none) (h : s.storeCommand r off v = some o) : s.stewardWrite r off v = o := by
  rw [State.stewardWrite, if_neg (by omega), hrun, h]
  rfl

/-- The registers whose write has a row of its own, the ranges aside. -/
def rowOffs : List Nat :=
  [R.TASK.XCMD.CODE.off, R.SIG.FCMD.CODE.off, R.VOTE.CMD.CODE.off, R.TIME.CMD.CODE.off, R.SIO.CMD.CODE.off, R.PAIR.CMD.CODE.off,
    R.STW.CMD.CODE.off, R.CFG.CMD.CODE.off, R.UPD.CMD.CODE.off, R.BIST.CMD.CODE.off, R.BIST.LCCMD.CODE.off, R.EVC.HOLDSET.TGT.off,
    R.EVC.HOLDCLR.TGT.off, 0x200044, R.CFG.EXPKEY.KEY.off, R.BRG.CFGDATA.DATA.off]

/-- The write of a register below the outbound window has no row of its own. -/
structure NoRow (off : Nat) : Prop where
  below : off < 0x100000000
  single : off ∉ rowOffs
  complete : ¬ (0x50080 ≤ off ∧ off < 0x500A8)
  plat : ¬ (0x50200 ≤ off ∧ off < 0x50228)
  swlat : ¬ (0x50260 ≤ off ∧ off < 0x50278)
  penset : ¬ (0x50280 ≤ off ∧ off < 0x502A8)
  penclr : ¬ (0x502C0 ≤ off ∧ off < 0x502E8)
  cpend : ¬ (0x200000 ≤ off ∧ off < 0x200020)
  cmask : ¬ (0x200020 ≤ off ∧ off < 0x200040)
  pairLo : isPairLo off = false
  pairHi : ¬ (4 ≤ off ∧ isPairLo (off - 4) = true)
  head : ¬ (0x60800 ≤ off ∧ off < 0x61000 ∧ off % 32 = 12)
  tail : ¬ (0x60800 ≤ off ∧ off < 0x61000 ∧ off % 32 = 16)

theorem NoRow.ne {off o : Nat} (h : NoRow off) (ho : o ∈ rowOffs) : off ≠ o := fun he => h.single (he ▸ ho)

theorem NoRow.runCommand {off : Nat} (h : NoRow off) (s : State) (r : Req) (v : W32) : s.runCommand r off v = none := by
  rw [State.runCommand, if_neg (h.ne (by decide)), if_neg (h.ne (by decide)), if_neg (h.ne (by decide)), if_neg (h.ne (by decide)),
    if_neg (h.ne (by decide)), if_neg (h.ne (by decide)), if_neg (h.ne (by decide))]

theorem NoRow.storeCommand {off : Nat} (h : NoRow off) (s : State) (r : Req) (v : W32) : s.storeCommand r off v = none := by
  rw [State.storeCommand, if_neg (h.ne (by decide)), if_neg (h.ne (by decide)), if_neg (h.ne (by decide)), if_neg (h.ne (by decide))]

theorem NoRow.eventWrite {off : Nat} (h : NoRow off) (s : State) (r : Req) (v : W32) : s.eventWrite r off v = none := by
  rw [State.eventWrite, if_neg (h.ne (by decide)), if_neg (h.ne (by decide)), if_neg h.complete, if_neg h.plat, if_neg h.swlat,
    if_neg h.penset, if_neg h.penclr, if_neg h.cpend, if_neg h.cmask, if_neg (h.ne (by decide))]

theorem exec_registerWrite_plain {s : State} {r : Req} {off : Nat} {fs : List RegFld} (v : W32) (hst : s.steward r = true) (ha : off % 4 = 0)
    (h : NoRow off) (hfs : regFields off = some fs) : exec (.registerWrite r off v) s = .next (s.plainWrite r off fs v) := by
  have below := h.below
  rw [exec_registerWrite_steward v hst ha, State.stewardWrite, if_neg (by omega), h.runCommand, h.storeCommand]
  dsimp only [Option.orElse]
  rw [h.eventWrite]
  dsimp only
  rw [if_neg (h.ne (by decide)), if_neg (h.ne (by decide)), if_neg (by rw [h.pairLo]; decide), if_neg h.pairHi, if_neg h.head,
    if_neg h.tail, hfs]

/-- A register without a row whose write the access codes of its fields alone decide. -/
structure ByAccess (off : Nat) : Prop extends NoRow off where
  perReq : ¬ (off = R.SIG.QID.SIGID.off ∨ off = R.NET.TSEL.INDEX.off ∨ off = R.EVC.SQRY.NUM.off)
  period : off ≠ R.GONG.CTRL.PERIOD.off
  per : ¬ (0x20000 ≤ off ∧ off < 0x20020)
  forceok : off ≠ R.TASK.EXCH.FORCEOK.off
  pen : ¬ (0x50100 ≤ off ∧ off < 0x501A0 ∧ off % 16 = 0)
  scfg : ¬ (0x50440 ≤ off ∧ off < 0x50800)
  ring : ¬ (0x60800 ≤ off ∧ off < 0x61000)

theorem ByAccess.plainWrite {off : Nat} (h : ByAccess off) (s : State) (r : Req) (fs : List RegFld) (v : W32) :
    s.plainWrite r off fs v =
      if fs.any (·.nv) then s.writeConfig off fs v
      else (s.setReg off (clearBits fs (takeBits (fun _ => true) fs (s.reg off) v) v)).evSense := by
  rw [State.plainWrite, if_neg h.perReq, if_neg h.period, if_neg h.per, if_neg h.forceok, if_neg h.pen, if_neg h.scfg, if_neg h.ring]

/-! ### Registers whose access codes decide -/

/-- The flag registers. -/
def flagRegs : List Fld :=
  [R.GONG.FLAG.all, R.SIG.FLAG.all, R.VOTE.FLAG.all, R.EVC.FLAG.all, R.NET.FLAG.all, R.TIME.FLAG.all, R.SIO.FLAG.all, R.SPD.FLAG.all,
    R.BRG.FLAG.all, R.PAIR.FLAG.all, R.CFG.FLAG.all, R.UPD.FLAG.all, R.SUP.FLAG.all, R.BIST.FLAG.all, R.ID.FLAG.all]

/-- Configuration registers of the blocks. -/
def configRegs : List Fld :=
  [R.NET.CFG.PMODE, R.TIME.CFG.DOMAIN, R.BRG.CFG.IBASE, R.SUP.CFG.EXTEN, R.UPD.CFG.TRIALN, R.CFG.EXPCFG.TO, R.PAIR.CFG.COLDTAKE,
    R.BIST.AUTO.MASK]

/-- Registers that only the hardware writes. -/
def statusRegs : List Fld :=
  [R.SUP.STATE.MSTATE, R.PAIR.ROLE.PACT, R.TASK.XSTAT.STATE, R.VOTE.CHST.CH 0, R.NET.RXACC.COUNT, R.CFG.CURVER.CFGVER, R.BIST.LCS.STATE]

theorem byAccess_of_mem : ∀ f ∈ R.CFG.ADDRCFG.MODE :: flagRegs ++ configRegs ++ statusRegs, ByAccess f.off := by
  intro f hf
  refine ⟨⟨?_, ?_, ?_, ?_, ?_, ?_, ?_, ?_, ?_, ?_, ?_, ?_, ?_⟩, ?_, ?_, ?_, ?_, ?_, ?_, ?_⟩ <;> revert f <;> decide

/-- What the fields of a register are. -/
def fieldsAre (p : List RegFld → Bool) (f : Fld) : Bool := decide (f.off % 4 = 0) && (regFields f.off).any p

theorem exists_fields {p : List RegFld → Bool} {l : List Fld} (h : l.all (fieldsAre p) = true) {f : Fld} (hf : f ∈ l) :
    f.off % 4 = 0 ∧ ∃ fs, regFields f.off = some fs ∧ p fs = true := by
  have hfs := List.all_eq_true.1 h f hf
  rw [fieldsAre, Bool.and_eq_true, decide_eq_true_iff, Option.any_eq_true] at hfs
  exact hfs

theorem flagRegs_fields : flagRegs.all (fieldsAre fun fs =>
    fitWord fs && !fs.any (·.nv) && fs.all fun x => decide (x.acc ≠ .rw)) = true := by
  decide +kernel

theorem statusRegs_fields : statusRegs.all (fieldsAre fun fs =>
    !fs.any (·.nv) && fs.all fun x => decide (x.acc ≠ .rw) && decide (x.acc ≠ .w1c)) = true := by
  decide +kernel

theorem configRegs_fields : configRegs.all (fieldsAre fun fs => fitWord fs && fs.any (·.nv)) = true := by
  decide +kernel

/-- Levels and enables are read off the registers alone. -/
theorem evLevel_congr {s t : State} (h : t.regs = s.regs) (k : Nat) : t.evLevel k = s.evLevel k := by
  have hget : t.get = s.get := by
    funext f
    rw [State.get, State.get, State.reg, State.reg, h]
  unfold State.evLevel State.evBlockLevel State.bit State.ringEmpty
  rw [hget]

theorem evEnabled_congr {s t : State} (h : t.regs = s.regs) (k : Nat) : t.evEnabled k = s.evEnabled k := by
  have hget : t.get = s.get := by
    funext f
    rw [State.get, State.get, State.reg, State.reg, h]
  unfold State.evEnabled State.bit
  rw [hget]

/-- A poll of all can be read off the state that it leaves. -/
theorem evSense_eq (s : State) :
    s.evSense = { s with evs := s.evs.filter fun p => p.2.ph != .pending || (s.evSense.evLevel p.1 && s.evSense.evEnabled p.1) } := by
  simp only [evLevel_congr (s := s) (t := s.evSense) rfl, evEnabled_congr (s := s) (t := s.evSense) rfl]
  rfl

/-- A write by access codes changes its own register, and sources that a cleared flag no longer asserts leave PENDING. -/
theorem access_written (s : State) (off : Nat) (new : W32) :
    let t := (s.setReg off new).evSense
    t = { s with regs := t.regs, evs := s.evs.filter fun p => p.2.ph != .pending || (t.evLevel p.1 && t.evEnabled p.1) } ∧
      RegsKept s t [off] ∧ t.reg off = new :=
  ⟨evSense_eq (s.setReg off new), fun _ ho => reg_setReg_ne s new (List.mem_singleton.not.1 ho), reg_setReg_same s off new⟩

theorem exec_write_byAccess {s : State} {r : Req} {off : Nat} {fs : List RegFld} (v : W32) (hst : s.steward r = true) (ha : off % 4 = 0)
    (h : ByAccess off) (hfs : regFields off = some fs) (hnv : fs.any (·.nv) = false) (hrw : fs.all (fun x => decide (x.acc ≠ .rw)) = true) :
    exec (.registerWrite r off v) s = .next (s.setReg off (clearBits fs (s.reg off) v)).evSense := by
  rw [exec_registerWrite_plain v hst ha h.toNoRow hfs, h.plainWrite, hnv, if_neg (by decide), takeBits_eq_self _ _ _ hrw]

theorem exec_write_config {s : State} {r : Req} {off : Nat} {fs : List RegFld} (v : W32) (hst : s.steward r = true) (ha : off % 4 = 0)
    (h : ByAccess off) (hfs : regFields off = some fs) (hnv : fs.any (·.nv) = true) :
    exec (.registerWrite r off v) s = .next (s.writeConfig off fs v) := by
  rw [exec_registerWrite_plain v hst ha h.toNoRow hfs, h.plainWrite, if_pos hnv]

theorem byAccess_addrcfg : ByAccess R.CFG.ADDRCFG.MODE.off := byAccess_of_mem _ (by simp)

theorem byAccess_flag {f : Fld} (hf : f ∈ flagRegs) : ByAccess f.off := byAccess_of_mem f (by simp [hf])

theorem byAccess_config {f : Fld} (hf : f ∈ configRegs) : ByAccess f.off := byAccess_of_mem f (by simp [hf])

theorem byAccess_status {f : Fld} (hf : f ∈ statusRegs) : ByAccess f.off := byAccess_of_mem f (by simp [hf])

/-- The sources of `s` that stay when `t` has the levels and enables. -/
def sensedIn (s t : State) : Tbl EvSrc := s.evs.filter fun p => p.2.ph != .pending || (t.evLevel p.1 && t.evEnabled p.1)

/-- A flag register: a 1 clears a W1C flag, everything else stays. -/
theorem flag_written {s : State} {r : Req} {f : Fld} (v : W32) (hst : s.steward r = true) (hf : f ∈ flagRegs) :
    Does (.registerWrite r f.off v) s fun t => t = { s with regs := t.regs, evs := sensedIn s t } ∧ RegsKept s t [f.off] ∧
      ∀ fs, regFields f.off = some fs → ∀ b, b < 32 → (t.reg f.off).getLsbD b =
        ((s.reg f.off).getLsbD b && !(v.getLsbD b && fs.any fun x => x.acc = .w1c && decide (x.lo ≤ b) && decide (b < x.lo + x.w))) := by
  obtain ⟨ha, fs, hfs, hp⟩ := exists_fields flagRegs_fields hf
  simp only [Bool.and_eq_true, Bool.not_eq_true'] at hp
  obtain ⟨⟨hfit, hnv⟩, hrw⟩ := hp
  obtain ⟨heq, hkept, hreg⟩ := access_written s f.off (clearBits fs (s.reg f.off) v)
  refine does_of_next (exec_write_byAccess v hst ha (byAccess_flag hf) hfs hnv hrw) ⟨heq, hkept, fun fs' hfs' b _ => ?_⟩
  cases hfs.symm.trans hfs'
  simp only [hreg, clearBits_getLsbD fs _ _ b hfit, RegFld.has, ← Bool.and_assoc]

/-- A status register keeps its value. -/
theorem status_written {s : State} {r : Req} {f : Fld} (v : W32) (hst : s.steward r = true) (hf : f ∈ statusRegs) :
    Does (.registerWrite r f.off v) s fun t => t = { s with regs := t.regs, evs := sensedIn s t } ∧ RegsKept s t [] := by
  obtain ⟨ha, fs, hfs, hp⟩ := exists_fields statusRegs_fields hf
  simp only [Bool.and_eq_true, Bool.not_eq_true', List.all_eq_true] at hp
  obtain ⟨hnv, hacc⟩ := hp
  have hrw := List.all_eq_true.2 fun x hx => (hacc x hx).1
  have hclear := List.all_eq_true.2 fun x hx => (hacc x hx).2
  obtain ⟨heq, hkept, hreg⟩ := access_written s f.off (s.reg f.off)
  have hexec := exec_write_byAccess v hst ha (byAccess_status hf) hfs hnv hrw
  rw [clearBits_eq_self _ _ hclear] at hexec
  refine does_of_next hexec ⟨heq, fun o _ => ?_⟩
  by_cases ho : o = f.off
  · rw [ho, hreg]
  · exact hkept o (List.mem_singleton.not.2 ho)

/-! ### Values outside their range (R318) -/

/-- Registers whose values only the list of a block's ranges checks, of NET, TIME and EVC. -/
structure CheckedByRange (off : Nat) : Prop where
  basic : basicRegs.all (fun b => decide (b.reg.off ≠ off)) = true
  sio : sioRanges.filter (fun x => x.1.off = off) = []
  spd : spdRanges.filter (fun x => x.1.off = off) = []
  pulsed : ¬ (0x80040 ≤ off ∧ off < 0x80080)
  pairs : ¬ (0x90000 ≤ off ∧ off < 0x90060)

theorem foldl_eq_self {α β : Type} {f : α → β → α} {l : List β} {a : α} (h : ∀ b ∈ l, f a b = a) : l.foldl f a = a := by
  induction l with
  | nil => rfl
  | cons b l ih =>
    rw [List.foldl_cons, h b (List.mem_cons_self ..), ih fun c hc => h c (List.mem_cons_of_mem b hc)]

theorem CheckedByRange.checkReg {off : Nat} (h : CheckedByRange off) (s : State) :
    s.checkReg off =
      if s.outOfRange (netRanges.filter fun x => x.1.off = off) then s.flag R.NET.FLAG.CFGERR
      else if s.outOfRange (timeRanges.filter fun x => x.1.off = off) then s.flag R.TIME.FLAG.CFGERR
      else if s.outOfRange (evcRanges.filter fun x => x.1.off = off) then s.flag R.EVC.FLAG.CFGERR
      else s := by
  unfold State.checkReg
  rw [foldl_eq_self]
  · dsimp only
    have sio : ¬ (s.outOfRange (sioRanges.filter fun x => x.1.off = off) ||
        decide (0x80040 ≤ off) && decide (off < 0x80080) && s.pulsedWrong) = true := by simp [h.sio, State.outOfRange, h.pulsed]
    have spd : ¬ (s.outOfRange (spdRanges.filter fun x => x.1.off = off) ||
        decide (0x90000 ≤ off) && decide (off < 0x90060) && s.spdPairsWrong) = true := by simp [h.spd, State.outOfRange, h.pairs]
    rw [if_neg sio, if_neg spd]
  · intro b hb
    have hne : b.reg.off ≠ off := of_decide_eq_true (List.all_eq_true.1 h.basic b hb)
    split
    · exact if_neg fun hc => hne hc.1
    · rfl

/-- Only the error flag of the block whose range names the register may change. -/
theorem CheckedByRange.checkReg_cases {off : Nat} (h : CheckedByRange off) (s : State) :
    s.checkReg off = s ∨ (∃ x ∈ netRanges, x.1.off = off) ∧ s.checkReg off = s.flag R.NET.FLAG.CFGERR ∨
      (∃ x ∈ timeRanges, x.1.off = off) ∧ s.checkReg off = s.flag R.TIME.FLAG.CFGERR ∨
      (∃ x ∈ evcRanges, x.1.off = off) ∧ s.checkReg off = s.flag R.EVC.FLAG.CFGERR := by
  have named {l : List (Fld × Nat × Nat)} (hl : s.outOfRange (l.filter fun x => x.1.off = off) = true) : ∃ x ∈ l, x.1.off = off := by
    obtain ⟨x, hx, -⟩ := List.any_eq_true.1 hl
    exact ⟨x, (List.mem_filter.1 hx).1, of_decide_eq_true (List.mem_filter.1 hx).2⟩
  rw [h.checkReg]
  split
  · next hn => exact .inr (.inl ⟨named hn, rfl⟩)
  split
  · next ht => exact .inr (.inr (.inl ⟨named ht, rfl⟩))
  split
  · next he => exact .inr (.inr (.inr ⟨named he, rfl⟩))
  · exact .inl rfl

/-! ### Configuration registers -/

theorem checkedByRange_of_mem : ∀ f ∈ R.CFG.ADDRCFG.MODE :: configRegs, CheckedByRange f.off := by
  intro f hf
  refine ⟨?_, ?_, ?_, ?_, ?_⟩ <;> revert f <;> decide +kernel

theorem evcRanges_ne : ∀ f ∈ configRegs, ∀ x ∈ evcRanges, x.1.off ≠ f.off := by decide +kernel

theorem configRegs_ne : ∀ f ∈ configRegs, f.off ≠ R.CFG.ADDRCFG.ESUB.off ∧ f.off ∉ [R.NET.FLAG.CFGERR.off, R.TIME.FLAG.CFGERR.off] := by
  decide

theorem writeConfig_closed {s : State} (off : Nat) (fs : List RegFld) (v : W32) (h : s.cfgOpen = false) : s.writeConfig off fs v = s :=
  if_neg (by rw [h]; decide)

theorem writeConfig_open {s : State} {off : Nat} (fs : List RegFld) (v : W32) (h : s.cfgOpen = true) :
    s.writeConfig off fs v =
      let new := takeBits (·.nv) fs (s.reg off) v
      let s1 := (s.setReg off new).checkReg off
      if off = R.CFG.ADDRCFG.ESUB.off ∧ new ≠ s.reg off then s1.readdress else s1 := if_pos h

/-- An open write of a configuration register takes its RW fields of the layering; two error flags may follow. -/
theorem config_written (s : State) {f : Fld} (hf : f ∈ configRegs) (fs : List RegFld) (v : W32) (h : s.cfgOpen = true) :
    let t := s.writeConfig f.off fs v
    t = { s with regs := t.regs } ∧ RegsKept s t [f.off, R.NET.FLAG.CFGERR.off, R.TIME.FLAG.CFGERR.off] ∧
      t.reg f.off = takeBits (·.nv) fs (s.reg f.off) v := by
  obtain ⟨hesub, hother⟩ := configRegs_ne f hf
  simp only [List.mem_cons, List.not_mem_nil, or_false, not_or] at hother
  have flagged {g : Fld} (hg : g = R.NET.FLAG.CFGERR ∨ g = R.TIME.FLAG.CFGERR) (new : W32) :
      let t := (s.setReg f.off new).flag g
      t = { s with regs := t.regs } ∧ RegsKept s t [f.off, R.NET.FLAG.CFGERR.off, R.TIME.FLAG.CFGERR.off] ∧ t.reg f.off = new := by
    have hne : f.off ≠ g.off := by rcases hg with rfl | rfl <;> simp [hother]
    refine ⟨rfl, fun o ho => ?_, ?_⟩
    · simp only [List.mem_cons, List.not_mem_nil, or_false, not_or] at ho
      have hog : o ≠ g.off := by rcases hg with rfl | rfl <;> simp [ho]
      rw [State.flag, reg_set_ne _ _ _ hog, reg_setReg_ne _ _ ho.1]
    · rw [State.flag, reg_set_ne _ _ _ hne, reg_setReg_same]
  rw [writeConfig_open fs v h]
  dsimp only
  rw [if_neg fun hc => hesub hc.1]
  rcases (checkedByRange_of_mem f (List.mem_cons_of_mem _ hf)).checkReg_cases (s.setReg f.off (takeBits (·.nv) fs (s.reg f.off) v)) with
    hc | ⟨-, hc⟩ | ⟨-, hc⟩ | ⟨⟨x, hx, hxf⟩, -⟩
  · rw [hc]
    refine ⟨rfl, fun o ho => reg_setReg_ne _ _ fun he => ho (by simp [he]), reg_setReg_same ..⟩
  · rw [hc]
    exact flagged (.inl rfl) _
  · rw [hc]
    exact flagged (.inr rfl) _
  · exact absurd hxf (evcRanges_ne f hf x hx)

theorem config_ignored {s : State} {r : Req} {f : Fld} (v : W32) (hst : s.steward r = true) (hf : f ∈ configRegs) (h : s.cfgOpen = false) :
    Ignored (.registerWrite r f.off v) s := by
  obtain ⟨ha, fs, hfs, hp⟩ := exists_fields configRegs_fields hf
  rw [Bool.and_eq_true] at hp
  rw [Ignored, exec_write_config v hst ha (byAccess_config hf) hfs hp.2, writeConfig_closed _ _ _ h]

theorem config_taken {s : State} {r : Req} {f : Fld} (v : W32) (hst : s.steward r = true) (hf : f ∈ configRegs) (h : s.cfgOpen = true) :
    Does (.registerWrite r f.off v) s fun t => t = { s with regs := t.regs } ∧
      RegsKept s t [f.off, R.NET.FLAG.CFGERR.off, R.TIME.FLAG.CFGERR.off] ∧
      ∀ fs, regFields f.off = some fs → ∀ b, b < 32 → (t.reg f.off).getLsbD b =
        if fs.any fun x => x.acc = .rw && x.nv && decide (x.lo ≤ b) && decide (b < x.lo + x.w) then v.getLsbD b else (s.reg f.off).getLsbD b := by
  obtain ⟨ha, fs, hfs, hp⟩ := exists_fields configRegs_fields hf
  rw [Bool.and_eq_true] at hp
  obtain ⟨heq, hkept, hreg⟩ := config_written s hf fs v h
  refine does_of_next (exec_write_config v hst ha (byAccess_config hf) hfs hp.2) ⟨heq, hkept, fun fs' hfs' b _ => ?_⟩
  cases hfs.symm.trans hfs'
  simp only [hreg, takeBits_getLsbD _ fs _ _ b hp.1, RegFld.has, ← Bool.and_assoc]

/-! ### ADDRCFG: addresses and probes (R329 to R331, log 29) -/

theorem ucause_le (s : State) : s.ucause ≤ 7 := by
  unfold State.ucause
  simp only [firstReason]
  split_ifs <;> decide

/-- UCAUSE is read off SLOT, PLUG and ADDRCFG, and off what the start and the network know. -/
theorem ucause_congr {s t : State} (hslot : t.reg R.ID.SLOT.VALID.off = s.reg R.ID.SLOT.VALID.off)
    (hplug : t.reg R.ID.PLUG.VALID.off = s.reg R.ID.PLUG.VALID.off) (haddr : t.reg R.CFG.ADDRCFG.MODE.off = s.reg R.CFG.ADDRCFG.MODE.off)
    (hboot : t.boot = s.boot) (hnet : t.net.conflict = s.net.conflict) : t.ucause = s.ucause := by
  have valid : t.get R.ID.SLOT.VALID = s.get R.ID.SLOT.VALID := by rw [State.get, hslot]; rfl
  have code : t.get R.ID.SLOT.CODE = s.get R.ID.SLOT.CODE := by
    rw [State.get, show R.ID.SLOT.CODE.off = R.ID.SLOT.VALID.off from rfl, hslot]; rfl
  have plug : t.get R.ID.PLUG.VALID = s.get R.ID.PLUG.VALID := by rw [State.get, hplug]; rfl
  have rack : t.get R.ID.PLUG.RACK = s.get R.ID.PLUG.RACK := by
    rw [State.get, show R.ID.PLUG.RACK.off = R.ID.PLUG.VALID.off from rfl, hplug]; rfl
  have mode : t.get R.CFG.ADDRCFG.MODE = s.get R.CFG.ADDRCFG.MODE := by rw [State.get, haddr]; rfl
  unfold State.ucause State.byTtdb State.hostId
  rw [valid, code, plug, rack, mode, hboot, hnet]

theorem showUcause_regs (s : State) : s.showUcause = { s with regs := s.showUcause.regs } ∧ RegsKept s s.showUcause [R.ID.ASTAT.UCAUSE.off] := by
  unfold State.showUcause
  split
  · exact ⟨rfl, fun _ _ => rfl⟩
  · exact ⟨rfl, fun o ho => reg_set_ne _ _ _ (List.mem_singleton.not.1 ho)⟩

theorem showUcause_ucause (s : State) : s.showUcause.ucause = s.ucause := by
  obtain ⟨heq, hkept⟩ := showUcause_regs s
  exact ucause_congr (hkept _ (by decide)) (hkept _ (by decide)) (hkept _ (by decide)) (by rw [heq]) (by rw [heq])

theorem showUcause_shows {s : State} (h : s.get R.ID.ASTAT.ADDR = 0) : s.showUcause.get R.ID.ASTAT.UCAUSE = s.ucause := by
  rw [State.showUcause, if_neg (by omega), get_set_same _ _ (by decide)]
  exact Nat.mod_eq_of_lt (Nat.lt_succ_of_le (ucause_le s))

/-- Frames were sent: nothing but what waits to be sent and the network's state changed, and of that not whether an address is in conflict. -/
def OnlySent (s t : State) : Prop := t = { s with net := t.net, out := t.out } ∧ t.net.conflict = s.net.conflict

theorem OnlySent.refl (s : State) : OnlySent s s := ⟨rfl, rfl⟩

theorem OnlySent.trans {s t u : State} (h : OnlySent s t) (k : OnlySent t u) : OnlySent s u := by
  obtain ⟨hst, hs⟩ := h
  obtain ⟨htu, ht⟩ := k
  refine ⟨?_, ht.trans hs⟩
  rw [htu, hst]

theorem OnlySent.probe (s : State) (addr : W32) : OnlySent s (s.probe addr) := by
  unfold State.probe State.trailer
  split <;> exact ⟨rfl, rfl⟩

/-- The host number and the addresses as derived anew. -/
def State.derived (s : State) : State :=
  let esub := s.get R.CFG.ADDRCFG.ESUB
  ((s.set R.ID.HOSTID.ID s.hostId).set R.ID.IPLOC.ADDR (Config.localAddr esub s.hostId).toNat).set R.ID.IPTRN.ADDR
    (if s.byTtdb ∧ s.boot.posRead then (Config.trainAddr s.boot.trnId esub s.hostId).toNat else 0)

theorem derived_regs (s : State) :
    s.derived = { s with regs := s.derived.regs } ∧ RegsKept s s.derived [R.ID.HOSTID.ID.off, R.ID.IPLOC.ADDR.off, R.ID.IPTRN.ADDR.off] := by
  refine ⟨rfl, fun o ho => ?_⟩
  simp only [List.mem_cons, List.not_mem_nil, or_false, not_or] at ho
  rw [State.derived, reg_set_ne _ _ _ ho.2.2, reg_set_ne _ _ _ ho.2.1, reg_set_ne _ _ _ ho.1]

theorem derive_eq (s : State) :
    s.derive =
      let s2 := s.derived.showUcause
      if s.derived.ucause = 7 ∧ s2.txOpen then
        let s3 := s2.probe (s2.reg R.ID.IPLOC.ADDR.off)
        if s.byTtdb then s3.probe (s2.reg R.ID.IPTRN.ADDR.off) else s3
      else s2 := rfl

/-- Deriving shows UCAUSE for the new addresses and may send probes. -/
theorem derive_sent (s : State) : OnlySent s.derived.showUcause s.derive := by
  rw [derive_eq]
  dsimp only
  split
  · split
    · exact (OnlySent.probe ..).trans (OnlySent.probe ..)
    · exact OnlySent.probe ..
  · exact OnlySent.refl _

theorem derive_spec (s : State) :
    let t := s.derive
    t = { s with regs := t.regs, net := t.net, out := t.out } ∧
      RegsKept s t [R.ID.HOSTID.ID.off, R.ID.IPLOC.ADDR.off, R.ID.IPTRN.ADDR.off, R.ID.ASTAT.UCAUSE.off] ∧
      (s.get R.ID.ASTAT.ADDR = 0 → t.get R.ID.ASTAT.UCAUSE = t.ucause) := by
  obtain ⟨hderived, hkept⟩ := derived_regs s
  obtain ⟨hshown, hkept'⟩ := showUcause_regs s.derived
  obtain ⟨hsent, hn⟩ := derive_sent s
  have hregs (off : Nat) : s.derive.reg off = s.derived.showUcause.reg off := by rw [hsent]; rfl
  refine ⟨?_, fun off ho => ?_, fun haddr => ?_⟩
  · rw [hsent, hshown, hderived]
  · simp only [List.mem_cons, List.not_mem_nil, or_false, not_or] at ho
    rw [hregs, hkept' off (by simp [ho]), hkept off (by simp [ho])]
  · have same : s.derived.get R.ID.ASTAT.ADDR = 0 := by
      rw [State.get, hkept _ (by decide)]
      exact haddr
    calc s.derive.get R.ID.ASTAT.UCAUSE
        = s.derived.showUcause.get R.ID.ASTAT.UCAUSE := by rw [State.get, hregs]; rfl
      _ = s.derived.ucause := showUcause_shows same
      _ = s.derived.showUcause.ucause := (showUcause_ucause _).symm
      _ = s.derive.ucause := (ucause_congr (hregs _) (hregs _) (hregs _) (by rw [hsent]) hn).symm

/-- What follows a change of ADDRCFG: only ID registers, the probe's state, and the frames that the probes are. -/
theorem readdress_spec (s : State) :
    let t := s.readdress
    t = { s with regs := t.regs, boot := t.boot, net := t.net, out := t.out } ∧
      RegsKept s t [R.ID.HOSTID.ID.off, R.ID.IPLOC.ADDR.off, R.ID.IPTRN.ADDR.off, R.ID.ASTAT.UCAUSE.off] ∧
      (s.get R.ID.ASTAT.ADDR = 0 → t.get R.ID.ASTAT.UCAUSE = t.ucause) ∧
      (s.mstate = .init → s.get R.ID.ASTAT.ADDR = 1 → t.net.addrNext = some false) ∧
      (s.mstate ≠ .init → t.boot = s.boot ∧ t.net = s.net ∧ t.out = s.out) := by
  unfold State.readdress
  split
  · next hm =>
    obtain ⟨hshown, hkept⟩ := showUcause_regs s
    refine ⟨?_, fun off ho => hkept off fun hc => ho ?_, fun haddr => ?_, fun hi => absurd hi hm, fun _ => ?_⟩
    · rw [hshown]
    · rw [List.mem_singleton.1 hc]
      decide
    · rw [showUcause_shows haddr, showUcause_ucause]
    · rw [hshown]
      exact ⟨rfl, rfl, rfl⟩
  · next hm =>
    split
    · next ha => exact ⟨rfl, fun _ _ => rfl, fun h => absurd (ha.symm.trans h) (by decide), fun _ _ => rfl, fun hne => absurd hne hm⟩
    · next ha =>
      obtain ⟨heq, hkept, hcause⟩ :=
        derive_spec { s with boot := { s.boot with probed := false }, net := { s.net with addrNext := none } }
      refine ⟨?_, hkept, hcause, fun _ h => absurd h ha, fun hne => absurd hne hm⟩
      rw [heq]

theorem addrcfg_fields : [R.CFG.ADDRCFG.MODE].all (fieldsAre fun fs => fitWord fs && fs.any (·.nv) &&
    [0, 1, 2, 3, 4, 5, 31].all fun b => fs.any fun x => decide (x.acc = .rw) && x.nv && x.has b) = true := by
  decide +kernel

theorem checkReg_addrcfg (s : State) : s.checkReg R.CFG.ADDRCFG.MODE.off = s := by
  have unnamed : ∀ x ∈ netRanges ++ timeRanges ++ evcRanges, x.1.off ≠ R.CFG.ADDRCFG.MODE.off := by decide +kernel
  rcases (checkedByRange_of_mem _ (List.mem_cons_self ..)).checkReg_cases s with h | ⟨⟨x, hx, he⟩, -⟩ | ⟨⟨x, hx, he⟩, -⟩ | ⟨⟨x, hx, he⟩, -⟩
  · exact h
  all_goals exact absurd he (unnamed x (by simp [hx]))

theorem fieldOf_eq_of_bits {v w : W32} {lo n : Nat} (h : ∀ b, lo ≤ b → b < lo + n → v.getLsbD b = w.getLsbD b) :
    fieldOf v lo n = fieldOf w lo n := by
  apply Nat.eq_of_testBit_eq
  intro i
  rw [fieldOf_testBit, fieldOf_testBit]
  by_cases hi : i < n
  · exact congrArg _ (h (lo + i) (by omega) (by omega))
  · rw [decide_eq_false hi, Bool.false_and, Bool.false_and]

/-- ADDRCFG takes MODE and ESUB from the write. -/
theorem addrcfg_taken {fs : List RegFld} (hfs : regFields R.CFG.ADDRCFG.MODE.off = some fs) (old v : W32) :
    fieldOf (takeBits (·.nv) fs old v) R.CFG.ADDRCFG.MODE.lo R.CFG.ADDRCFG.MODE.w = v.toNat / 2 ^ 31 % 2 ∧
      fieldOf (takeBits (·.nv) fs old v) R.CFG.ADDRCFG.ESUB.lo R.CFG.ADDRCFG.ESUB.w = v.toNat % 64 := by
  obtain ⟨-, fs', hfs', h⟩ := exists_fields addrcfg_fields (List.mem_singleton_self _)
  cases hfs.symm.trans hfs'
  rw [Bool.and_eq_true, Bool.and_eq_true, List.all_eq_true] at h
  obtain ⟨⟨hfit, -⟩, hbits⟩ := h
  have taken (b : Nat) (hb : b ∈ [0, 1, 2, 3, 4, 5, 31]) : (takeBits (·.nv) fs old v).getLsbD b = v.getLsbD b := by
    rw [takeBits_getLsbD _ _ _ _ _ hfit, if_pos (hbits b hb)]
  constructor
  · rw [fieldOf_eq_of_bits (w := v) fun b h1 h2 => taken b (by
      simp only [R.CFG.ADDRCFG.MODE] at h1 h2
      simp only [List.mem_cons, List.not_mem_nil, or_false]
      omega)]
    rfl
  · rw [fieldOf_eq_of_bits (w := v) fun b h1 h2 => taken b (by
      simp only [R.CFG.ADDRCFG.ESUB] at h1 h2
      simp only [List.mem_cons, List.not_mem_nil, or_false]
      omega)]
    exact congrArg (· % 64) (Nat.div_one _)

/-- A write of ADDRCFG while the configuration is open. -/
theorem addrcfg_written (s : State) {fs : List RegFld} (hfs : regFields R.CFG.ADDRCFG.MODE.off = some fs) (v : W32)
    (hopen : s.cfgOpen = true) :
    let off := R.CFG.ADDRCFG.MODE.off
    let t := s.writeConfig off fs v
    t = { s with regs := t.regs, boot := t.boot, net := t.net, out := t.out } ∧ t.get R.CFG.ADDRCFG.MODE = v.toNat / 2 ^ 31 % 2 ∧
      t.get R.CFG.ADDRCFG.ESUB = v.toNat % 64 ∧
      (t.reg off ≠ s.reg off → s.get R.ID.ASTAT.ADDR = 0 → t.get R.ID.ASTAT.UCAUSE = t.ucause) ∧
      (t.reg off ≠ s.reg off → s.mstate = .init → s.get R.ID.ASTAT.ADDR = 1 → t.net.addrNext = some false) ∧
      (t.reg off = s.reg off ∨ s.mstate = .boot → t.boot = s.boot ∧ t.net = s.net ∧ t.out = s.out) := by
  obtain ⟨hmode, hesub⟩ := addrcfg_taken hfs (s.reg R.CFG.ADDRCFG.MODE.off) v
  have esub : R.CFG.ADDRCFG.ESUB.off = R.CFG.ADDRCFG.MODE.off := rfl
  dsimp only
  rw [writeConfig_open fs v hopen]
  dsimp only
  rw [checkReg_addrcfg, esub]
  revert hmode hesub
  generalize takeBits (·.nv) fs (s.reg R.CFG.ADDRCFG.MODE.off) v = new
  intro hmode hesub
  have hreg : (s.setReg R.CFG.ADDRCFG.MODE.off new).reg R.CFG.ADDRCFG.MODE.off = new := reg_setReg_same ..
  by_cases hnew : new = s.reg R.CFG.ADDRCFG.MODE.off
  · rw [if_neg fun hc => hc.2 hnew]
    have kept := hreg.trans hnew
    refine ⟨rfl, ?_, ?_, fun hc => absurd kept hc, fun hc => absurd kept hc, fun _ => ⟨rfl, rfl, rfl⟩⟩
    · rw [State.get, hreg]
      exact hmode
    · rw [State.get, esub, hreg]
      exact hesub
  · rw [if_pos ⟨rfl, hnew⟩]
    obtain ⟨heq, hkept, hcause, hnext, hboot⟩ := readdress_spec (s.setReg R.CFG.ADDRCFG.MODE.off new)
    have hreg' : (s.setReg R.CFG.ADDRCFG.MODE.off new).readdress.reg R.CFG.ADDRCFG.MODE.off = new := (hkept _ (by decide)).trans hreg
    have haddr : (s.setReg R.CFG.ADDRCFG.MODE.off new).get R.ID.ASTAT.ADDR = s.get R.ID.ASTAT.ADDR := get_setReg_ne _ _ (by decide)
    have hstate : (s.setReg R.CFG.ADDRCFG.MODE.off new).mstate = s.mstate := congrArg mstateOf (get_setReg_ne _ _ (by decide))
    rw [haddr] at hcause hnext
    rw [hstate] at hnext hboot
    refine ⟨?_, ?_, ?_, fun _ => hcause, fun _ => hnext, ?_⟩
    · rw [heq]
      rfl
    · rw [State.get, hreg']
      exact hmode
    · rw [State.get, esub, hreg']
      exact hesub
    · rintro (hsame | hb)
      · exact absurd (hreg'.symm.trans hsame) hnew
      · exact hboot (by rw [hb]; decide)

theorem exec_write_addrcfg {s : State} {r : Req} (v : W32) (hst : s.steward r = true) :
    ∃ fs, regFields R.CFG.ADDRCFG.MODE.off = some fs ∧
      exec (.registerWrite r R.CFG.ADDRCFG.MODE.off v) s = .next (s.writeConfig R.CFG.ADDRCFG.MODE.off fs v) := by
  obtain ⟨ha, fs, hfs, hp⟩ := exists_fields addrcfg_fields (List.mem_singleton_self _)
  rw [Bool.and_eq_true, Bool.and_eq_true] at hp
  obtain ⟨⟨-, hnv⟩, -⟩ := hp
  exact ⟨fs, hfs, exec_write_config v hst ha byAccess_addrcfg hfs hnv⟩

/-! ### EVC.SCFG: a source's configuration and its enable (Table 12-3) -/

theorem isPairLo_between {off : Nat} (h1 : 0x40000 ≤ off) (h2 : off < 0x60800) : isPairLo off = false := by
  rw [← Bool.not_eq_true]
  intro h
  simp only [isPairLo, Bool.or_eq_true, Bool.and_eq_true, decide_eq_true_eq] at h
  simp only [R.SIG.FVAL_LO.VAL, R.TIME.INCR_LO.FRAC, R.TIME.STEP_LO.OFFS] at h
  omega

theorem scfg_noRow {n : Nat} (h1 : 16 ≤ n) (h2 : n < 256) : NoRow (R.EVC.SCFG.EN n).off := by
  have hoff : (R.EVC.SCFG.EN n).off = 0x50400 + 4 * n := rfl
  have apart : ∀ o ∈ rowOffs, o < 0x50440 ∨ 0x50800 ≤ o := by decide
  refine ⟨by omega, fun hm => ?_, by omega, by omega, by omega, by omega, by omega, by omega, by omega,
    isPairLo_between (by omega) (by omega), fun hp => ?_, by omega, by omega⟩
  · have := apart _ hm
    omega
  · rw [isPairLo_between (by omega) (by omega)] at hp
    exact absurd hp.2 (by decide)

theorem scfg_fields {n : Nat} (h1 : 16 ≤ n) (h2 : n < 256) : ∃ fs, regFields (R.EVC.SCFG.EN n).off = some fs := by
  have known : ∀ n < 256, 16 ≤ n → (regFields (R.EVC.SCFG.EN n).off).isSome = true := by decide +kernel
  exact Option.isSome_iff_exists.1 (known n h2 h1)

theorem scfg_checkedByRange {n : Nat} (h1 : 16 ≤ n) (h2 : n < 256) : CheckedByRange (R.EVC.SCFG.EN n).off := by
  have hoff : (R.EVC.SCFG.EN n).off = 0x50400 + 4 * n := rfl
  have basic : ∀ b ∈ basicRegs, b.reg.off < 0x50440 ∨ 0x50800 ≤ b.reg.off := by decide
  have sio : ∀ x ∈ sioRanges, 0x50800 ≤ x.1.off := by decide
  have spd : ∀ x ∈ spdRanges, 0x50800 ≤ x.1.off := by decide
  refine ⟨List.all_eq_true.2 fun b hb => ?_, List.filter_eq_nil_iff.2 fun x hx => ?_, List.filter_eq_nil_iff.2 fun x hx => ?_,
    by omega, by omega⟩
  · have := basic b hb
    rw [decide_eq_true_iff]
    omega
  · have := sio x hx
    rw [decide_eq_true_iff]
    omega
  · have := spd x hx
    rw [decide_eq_true_iff]
    omega

theorem exec_write_scfg {s : State} {r : Req} {n : Nat} (v : W32) (hst : s.steward r = true) (h1 : 16 ≤ n) (h2 : n < 256) :
    exec (.registerWrite r (R.EVC.SCFG.EN n).off v) s = .next (s.writeScfg n v) := by
  obtain ⟨fs, hfs⟩ := scfg_fields h1 h2
  have hoff : (R.EVC.SCFG.EN n).off = 0x50400 + 4 * n := rfl
  have hn : ((R.EVC.SCFG.EN n).off - 0x50400) / 4 = n := by omega
  have requester : ¬ ((R.EVC.SCFG.EN n).off = R.SIG.QID.SIGID.off ∨ (R.EVC.SCFG.EN n).off = R.NET.TSEL.INDEX.off ∨
      (R.EVC.SCFG.EN n).off = R.EVC.SQRY.NUM.off) := by
    simp only [R.EVC.SCFG.EN, R.SIG.QID.SIGID, R.NET.TSEL.INDEX, R.EVC.SQRY.NUM]
    omega
  have period : (R.EVC.SCFG.EN n).off ≠ R.GONG.CTRL.PERIOD.off := by simp only [R.EVC.SCFG.EN, R.GONG.CTRL.PERIOD]; omega
  have forceok : (R.EVC.SCFG.EN n).off ≠ R.TASK.EXCH.FORCEOK.off := by simp only [R.EVC.SCFG.EN, R.TASK.EXCH.FORCEOK]; omega
  rw [exec_registerWrite_plain v hst (by omega) (scfg_noRow h1 h2) hfs, State.plainWrite, if_neg requester, if_neg period,
    if_neg (by omega), if_neg forceok, if_neg (by omega), if_pos (by omega), hn]

/-- A poll moves its own source, as its level and enable say. -/
theorem evPoll_polled (s : State) (k : Nat) :
    let t := s.evPoll k
    t = { s with evs := t.evs } ∧ EvPolled s t k ∧ ∀ x, x ≠ k → tblFind t.evs x = tblFind s.evs x := by
  have evsOnly : s.evPoll k = { s with evs := (s.evPoll k).evs } := by
    unfold State.evPoll
    dsimp only
    split <;> split <;> rfl
  have hregs : (s.evPoll k).regs = s.regs := by rw [evsOnly]
  refine ⟨evsOnly, ?_, fun x hx => ?_⟩
  · unfold EvPolled
    rw [evLevel_congr hregs, evEnabled_congr hregs]
    unfold State.evPoll
    cases hk : tblFind s.evs k with
    | none =>
      dsimp only
      split
      · rw [tblFind_put, if_pos rfl]
      · exact hk
    | some y =>
      dsimp only
      by_cases hw : y.ph = .pending ∧ (s.evLevel k && s.evEnabled k) = false
      · rw [if_pos hw, if_pos (by rw [hw.1, hw.2]; rfl), tblFind_del, if_pos rfl]
      · rw [if_neg hw, if_neg (by simpa using hw), hk]
  · unfold State.evPoll
    dsimp only
    split
    · split
      · rw [tblFind_put, if_neg hx]
      · rfl
    · split
      · rw [tblFind_del, if_neg hx]
      · rfl

/-- The same after register writes that leave the frame number's display as it was. -/
theorem evPoll_afterRegs {s u : State} (hu : u = { s with regs := u.regs })
    (halign : u.reg R.GONG.STATUS.ALIGNED.off = s.reg R.GONG.STATUS.ALIGNED.off) (k : Nat) :
    let t := u.evPoll k
    t = { s with regs := t.regs, evs := t.evs } ∧ t.regs = u.regs ∧ EvPolled s t k ∧ ∀ x, x ≠ k → tblFind t.evs x = tblFind s.evs x := by
  obtain ⟨heq, hpolled, hother⟩ := evPoll_polled u k
  have hevs : u.evs = s.evs := by rw [hu]
  have hnow : u.nowNs = s.nowNs := by rw [hu]; rfl
  have hframe : u.frameShown = s.frameShown := by
    have hget : u.get R.GONG.STATUS.ALIGNED = s.get R.GONG.STATUS.ALIGNED := congrArg (fieldOf · _ _) halign
    have hgong : u.gong = s.gong := by rw [hu]
    rw [State.frameShown, State.frameShown, hget, hgong]
  refine ⟨?_, by rw [heq], ?_, fun x hx => ?_⟩
  · rw [heq, hu]
  · rw [EvPolled, hevs, hnow, hframe] at hpolled
    exact hpolled
  · rw [hother x hx, hevs]

theorem scfg_checkReg {n : Nat} (h1 : 16 ≤ n) (h2 : n < 256) (s : State) :
    let t := s.checkReg (R.EVC.SCFG.EN n).off
    t = { s with regs := t.regs } ∧ RegsKept s t [R.EVC.FLAG.CFGERR.off] := by
  have elsewhere : ∀ x ∈ netRanges ++ timeRanges, x.1.off ≠ (R.EVC.SCFG.EN n).off := by
    have above : ∀ x ∈ netRanges ++ timeRanges, 0x60000 ≤ x.1.off := by decide
    intro x hx he
    have := above x hx
    simp only [R.EVC.SCFG.EN] at he
    omega
  rcases (scfg_checkedByRange h1 h2).checkReg_cases s with h | ⟨⟨x, hx, he⟩, -⟩ | ⟨⟨x, hx, he⟩, -⟩ | ⟨-, h⟩
  · rw [h]
    exact ⟨rfl, fun _ _ => rfl⟩
  · exact absurd he (elsewhere x (List.mem_append_left _ hx))
  · exact absurd he (elsewhere x (List.mem_append_right _ hx))
  · rw [h]
    exact ⟨rfl, fun o ho => reg_set_ne _ _ _ (List.mem_singleton.not.1 ho)⟩

theorem scfg_written_open {s : State} {n : Nat} (v : W32) (h1 : 16 ≤ n) (h2 : n < 256) (hopen : s.cfgOpen = true) :
    let off := (R.EVC.SCFG.EN n).off
    let t := s.writeScfg n v
    t = { s with regs := t.regs, evs := t.evs } ∧ t.reg off = v &&& 0x80000F0F ∧ EvPolled s t (n + 160) ∧
      RegsKept s t [off, R.EVC.FLAG.CFGERR.off] ∧ ∀ x, x ≠ n + 160 → tblFind t.evs x = tblFind s.evs x := by
  have hother : (R.EVC.SCFG.EN n).off ≠ R.EVC.FLAG.CFGERR.off := by simp only [R.EVC.SCFG.EN, R.EVC.FLAG.CFGERR]; omega
  have halign : R.GONG.STATUS.ALIGNED.off ≠ (R.EVC.SCFG.EN n).off := by simp only [R.EVC.SCFG.EN, R.GONG.STATUS.ALIGNED]; omega
  obtain ⟨hu, hkept⟩ := scfg_checkReg h1 h2 (s.setReg (R.EVC.SCFG.EN n).off (v &&& 0x80000F0F))
  dsimp only
  rw [State.writeScfg, if_pos hopen]
  obtain ⟨heq, hregs, hpolled, hevs⟩ := evPoll_afterRegs (s := s) (by rw [hu]; rfl)
    ((hkept _ (by decide)).trans (reg_setReg_ne _ _ halign)) (n + 160)
  have hreg (o : Nat) : (State.evPoll _ (n + 160)).reg o = _ := congrArg (fileGet · o) hregs
  refine ⟨heq, ?_, hpolled, fun o ho => ?_, hevs⟩
  · exact (hreg _).trans ((hkept _ (by simpa using hother)).trans (reg_setReg_same ..))
  · simp only [List.mem_cons, List.not_mem_nil, or_false, not_or] at ho
    exact (hreg o).trans ((hkept o (by simpa using ho.2)).trans (reg_setReg_ne _ _ ho.1))

theorem scfg_written_enable {s : State} {n : Nat} (v : W32) (hm : s.mstate = .run ∨ s.mstate = .safe) :
    let t := s.writeScfg n v
    t = { s with regs := t.regs, evs := t.evs } ∧ EvPolled s t (n + 160) ∧ FieldsSet s t [(R.EVC.SCFG.EN n, v.toNat / 2 ^ 31)] ∧
      ∀ x, x ≠ n + 160 → tblFind t.evs x = tblFind s.evs x := by
  have closed : ¬ s.cfgOpen = true := by
    rw [cfgOpen_iff]
    rcases hm with hm | hm <;> rw [hm] <;> decide
  have enables : s.enablesOpen = true := by
    unfold State.enablesOpen
    rcases hm with hm | hm <;> rw [hm] <;> rfl
  have halign : R.GONG.STATUS.ALIGNED.off ≠ (R.EVC.SCFG.EN n).off := by simp only [R.EVC.SCFG.EN, R.GONG.STATUS.ALIGNED]; omega
  dsimp only
  rw [State.writeScfg, if_neg closed, if_pos enables]
  obtain ⟨heq, hregs, hpolled, hevs⟩ := evPoll_afterRegs (s := s) (u := s.set (R.EVC.SCFG.EN n) (v.toNat / 2 ^ 31)) rfl
    (reg_set_ne _ _ _ halign) (n + 160)
  have hget (f : Fld) : (State.evPoll _ (n + 160)).get f = _ := congrArg (fun l => fieldOf (fileGet l f.off) f.lo f.w) hregs
  obtain ⟨hset, hkept⟩ := (FieldsSet.refl s).set (v.toNat / 2 ^ 31) (f := R.EVC.SCFG.EN n) rfl (by simp)
  exact ⟨heq, hpolled, ⟨fun p hp => (hget _).trans (hset p hp), fun f hf => (hget f).trans (hkept f hf)⟩, hevs⟩

/-! ### FORCEOK and the expected periods -/

theorem exec_write_forceok {s : State} {r : Req} (v : W32) (hst : s.steward r = true) :
    exec (.registerWrite r R.TASK.EXCH.FORCEOK.off v) s =
      .next (if s.get R.CFG.EXPERT.UNLK = 1 then s.set R.TASK.EXCH.FORCEOK (v.toNat % 2) else s) := by
  have row : NoRow R.TASK.EXCH.FORCEOK.off := by refine ⟨?_, ?_, ?_, ?_, ?_, ?_, ?_, ?_, ?_, ?_, ?_, ?_, ?_⟩ <;> decide
  obtain ⟨fs, hfs⟩ : ∃ fs, regFields R.TASK.EXCH.FORCEOK.off = some fs := Option.isSome_iff_exists.1 (by decide +kernel)
  rw [exec_registerWrite_plain v hst (by decide) row hfs, State.plainWrite, if_neg (by decide), if_neg (by decide), if_neg (by decide),
    if_pos rfl]

theorem exec_write_period {s : State} {r : Req} (v : W32) (hst : s.steward r = true) (hm : s.mstate ≠ .init) :
    exec (.registerWrite r (R.TASK.PER.EXP 0).off v) s = .next s := by
  have row : NoRow (R.TASK.PER.EXP 0).off := by refine ⟨?_, ?_, ?_, ?_, ?_, ?_, ?_, ?_, ?_, ?_, ?_, ?_, ?_⟩ <;> decide
  obtain ⟨fs, hfs⟩ : ∃ fs, regFields (R.TASK.PER.EXP 0).off = some fs := Option.isSome_iff_exists.1 (by decide +kernel)
  rw [exec_registerWrite_plain v hst (by decide) row hfs, State.plainWrite, if_neg (by decide), if_neg (by decide), if_pos (by decide),
    if_neg hm]

/-! ### Command registers -/

theorem exec_write_runCommand {s : State} {r : Req} {v : W32} {off : Nat} {o : Host.Outcome State Fault Refusal} (hst : s.steward r = true)
    (ha : off % 4 = 0) (hoff : off < 0x100000000) (h : s.runCommand r off v = some o) : exec (.registerWrite r off v) s = o := by
  rw [exec_registerWrite_steward v hst ha, stewardWrite_runCommand hoff h]

theorem exec_write_cfgCommand {s : State} {r : Req} {v : W32} {o : Host.Outcome State Fault Refusal} (hst : s.steward r = true)
    (h : s.storeCommand r R.CFG.CMD.CODE.off v = some o) : exec (.registerWrite r R.CFG.CMD.CODE.off v) s = o := by
  rw [exec_registerWrite_steward v hst (by decide), stewardWrite_storeCommand (by decide) rfl h]

/-- Where the first code is meant. -/
theorem first_code {α : Type} {n : Nat} {a b : α} (h : n = 1) : (if n = 1 then a else b) = a := if_pos h

theorem second_code {α : Type} {n : Nat} {a b c : α} (h : n = 2) : (if n = 1 then a else if n = 2 then b else c) = b := by
  subst h
  rfl

theorem third_code {α : Type} {n : Nat} {a b c d : α} (h : n = 3) :
    (if n = 1 then a else if n = 2 then b else if n = 3 then c else d) = c := by
  subst h
  rfl

/-- An undefined code only shows its reason (R22). -/
theorem sets_undefinedCode {c : Instr} {s : State} {r : Req} {cmd cnt reason : Fld} (hst : s.steward r = true) (hok : reason.ok = true)
    (h : exec c s = s.undefinedCode r cmd cnt reason 1) : Sets c s [(reason, 1)] := by
  have shown : s.undefinedCode r cmd cnt reason 1 = .next (s.set reason 1) := by
    rw [State.undefinedCode, State.command, if_neg (by simp [hst]), if_neg (by decide)]
  exact does_of_next (h.trans shown) ⟨rfl, (FieldsSet.refl s).set 1 hok (by simp)⟩

theorem stw_undefined {s : State} {r : Req} {v : W32} (hst : s.steward r = true) (hv : v.toNat % 16 = 0 ∨ 3 < v.toNat % 16) :
    Sets (.registerWrite r R.STW.CMD.CODE.off v) s [(R.STW.REASON.CODE, 1)] := by
  refine sets_undefinedCode (cmd := R.STW.CMD.CODE) (cnt := R.STW.CMDCNT.COUNT) hst (by decide)
    (exec_write_runCommand hst (by decide) (by decide) (congrArg some ?_))
  rw [if_neg (by omega), if_neg (by omega), if_neg (by omega)]

theorem cfg_undefined {s : State} {r : Req} {v : W32} (hst : s.steward r = true) (hv : v.toNat % 16 = 0 ∨ 5 < v.toNat % 16) :
    Sets (.registerWrite r R.CFG.CMD.CODE.off v) s [(R.CFG.REASON.CODE, 1)] := by
  refine sets_undefinedCode (cmd := R.CFG.CMD.CODE) (cnt := R.CFG.CMDCNT.COUNT) hst (by decide)
    (exec_write_cfgCommand hst (congrArg some ?_))
  rw [if_neg (by omega), if_neg (by omega), if_neg (by omega), if_neg (by omega), if_neg (by omega)]

/-! ### A program's writes (R15) -/

theorem truncate_ten (v : W32) : (v.truncate 10).toNat = v.toNat % 1024 := BitVec.toNat_setWidth ..

theorem progWrite_complete (s : State) (e : Eng) (v : W32) :
    s.progWrite e (0x50080 + 4 * e.val) v = s.evComplete e.val (v.toNat % 1024) := by
  have := e.isLt
  have apart (o : Nat) (ho : o < 0x50080 ∨ 0x500A0 ≤ o) : 0x50080 + 4 * e.val ≠ o := by omega
  rw [State.progWrite, if_neg (apart _ (by decide)), if_neg (apart _ (by decide)), if_neg (apart _ (by decide)), if_neg (apart _ (by decide)),
    if_pos rfl]

theorem progWrite_cack (s : State) (e : Eng) (v : W32) : s.progWrite e 0x200044 v = s.evComplete e.val (v.toNat % 1024) := by
  have := e.isLt
  rw [State.progWrite, if_neg (by decide), if_neg (by decide), if_neg (by decide), if_neg (by decide), if_neg (by omega), if_neg (by decide),
    if_neg (by decide), if_neg (by decide), if_neg (by decide), if_pos rfl]

theorem progWrite_ignored {s : State} {e : Eng} {off : Nat} (v : W32)
    (h : off ∉ [R.SIG.QID.SIGID.off, R.NET.TSEL.INDEX.off, R.EVC.HOLDSET.TGT.off, R.EVC.HOLDCLR.TGT.off, 0x50080 + 4 * e.val, 0x200044])
    (hplat : ¬ (0x50200 ≤ off ∧ off < 0x50228)) (hsw : ¬ (0x50260 ≤ off ∧ off < 0x50278)) (hwin : ¬ (0x200000 ≤ off ∧ off < 0x200040)) :
    s.progWrite e off v = s := by
  simp only [List.mem_cons, List.not_mem_nil, or_false, not_or] at h
  obtain ⟨hqid, htsel, hset, hclr, hcomplete, hcack⟩ := h
  rw [State.progWrite, if_neg hqid, if_neg htsel, if_neg hset, if_neg hclr, if_neg hcomplete, if_neg hplat, if_neg hsw, if_neg (by omega),
    if_neg (by omega), if_neg hcack]

theorem exec_eventComplete_eng (s : State) (e : Eng) (t : Fin 10) (ht : t.val = e.val) (n : BitVec 10) :
    exec (.eventComplete (.eng e) t n) s = s.whilePowered (s.evComplete e.val n.toNat) := by
  have own : ¬ ((isEng (.eng e) && (reqTarget (.eng e)).val != t.val) || s.shut (.eng e)) = true := by simp [reqTarget, shut_eng, ht]
  exact congrArg s.whilePowered ((if_neg own).trans (by rw [ht]))

/-! ### The statement -/

/-- Settles O60, clause by clause: reads, pairs, writes of single registers, a program's writes. -/
theorem registersAreReadAndWrittenByTheirRules : Obligations.RegistersAreReadAndWrittenByTheirRules := by
  unfold Obligations.RegistersAreReadAndWrittenByTheirRules
  intro s r off v w ring e j shut open_ word latched others frame reads frameLo frameHi out_ core slots slot left asks base pair lo early both
    write sameAs flags config readOnly sensed program reached
  refine ⟨?readsShut, ?nowsec, ?frameLo, ?frameLatched, ?frameLive, ?status, ?outError, ?outSlot, ?outQueue, ?holdLo, ?loIgnored, ?hiIgnored,
    ?hi, ?ignored, ?steward, ?holdset, ?holdclr, ?complete, ?cack, ?qid, ?unreached⟩
  case readsShut =>
    intro h
    have hs : s.shut r = true := shut_iff.2 h
    exact ⟨fun o ho => does_of_whilePowered rfl fun _ => readFor_shut hs ho, does_of_whilePowered rfl fun _ => readFor_shut hs (by decide)⟩
  case nowsec =>
    intro h
    obtain ⟨hsec, hns, hfrac, hothers⟩ := readNow_latch s r
    refine does_of_whilePowered rfl fun _ => ?_
    rw [readFor_open (not_shut_iff.2 h) (by decide) (by decide)]
    exact ⟨rfl, hsec, hns, hfrac, hothers⟩
  case frameLo =>
    intro h
    refine does_of_whilePowered rfl fun _ => ?_
    rw [readFor_frame (not_shut_iff.2 h)]
    exact ⟨rfl, latchReg_same .., fun q o hq => latchReg_ne s (hq.imp_right (List.mem_singleton.not.1 ·))⟩
  case frameLatched =>
    intro h hw
    refine does_of_whilePowered rfl fun _ => ?_
    rw [readFor_open (not_shut_iff.2 h) (by decide) (by decide), readWord_frameHi, hw]
    rfl
  case frameLive =>
    intro h hw
    refine does_of_whilePowered rfl fun _ => ?_
    rw [readFor_open (not_shut_iff.2 h) (by decide) (by decide), readWord_frameHi, hw]
    rfl
  case status =>
    intro f hf h
    have plain : ∀ f ∈ statusRegs, f.off % 4 = 0 ∧ f.off < 0x100000000 ∧ f.off ∈ plainOffs := by decide
    obtain ⟨ha, hb, hp⟩ := plain f hf
    refine does_of_whilePowered rfl fun _ => ?_
    rw [readFor_open (not_shut_iff.2 h) ha hb, readWord_plain _ _ _ _ hp]
    rfl
  case outError =>
    rintro ⟨ha, h1, h2, hr⟩ hold
    refine does_of_whilePowered rfl fun _ => ?_
    rw [readFor_outbound ha h1 h2 hr, stewardLoad_eq]
    dsimp only
    rw [if_pos hold]
    exact ⟨rfl, readError_fields _⟩
  case outSlot =>
    rintro ⟨ha, h1, h2, hr⟩ hold hj hlt
    refine does_of_whilePowered rfl fun _ => ?_
    have free : State.freeSlot { s with resp := none, brg := s.brg.leave core } = some j := freeSlot_eq_some hj hlt
    rw [readFor_outbound ha h1 h2 hr, stewardLoad_eq]
    dsimp only
    rw [if_neg (by rw [hold]; decide), free]
    rfl
  case outQueue =>
    rintro ⟨ha, h1, h2, hr⟩ hold hfull
    refine does_of_whilePowered rfl fun _ => ?_
    have full : State.freeSlot { s with resp := none, brg := s.brg.leave core } = none := freeSlot_eq_none hfull
    rw [readFor_outbound ha h1 h2 hr, stewardLoad_eq]
    dsimp only
    rw [if_neg (by rw [hold]; decide), full]
    rfl
  case holdLo =>
    intro hst hp
    have hlo : isPairLo off = true := by
      rcases hp with hp | hp | hp | hp
      · rw [hp]; decide
      · rw [hp]; decide
      · rw [hp]; decide
      · rw [hp]; exact isPairLo_rbase ring
    exact does_of_whilePowered rfl fun _ => holdLo_held v hst hlo
  case loIgnored =>
    intro h
    rw [Ignored, exec_loRegisterWrite, holdLo_ignored v h, whilePowered_self]
  case hiIgnored => exact exec_hiRegisterWrite_ignored v
  case hi =>
    intro hst
    have rbase := isPairLo_rbase ring
    have hbase : base = 0x60800 + 32 * ring.val := rfl
    have incr : base + 4 ≠ R.TIME.INCR_HI.NS.off := by simp only [R.TIME.INCR_HI.NS]; omega
    have step : base + 4 ≠ R.TIME.STEP_HI.OFFS.off := by simp only [R.TIME.STEP_HI.OFFS]; omega
    have fval : base + 4 ≠ R.SIG.FVAL_HI.VAL.off := by simp only [R.SIG.FVAL_HI.VAL]; omega
    have exec_rbase := exec_hiRegisterWrite v hst rbase incr step
    have writes := writeHi_rbase s r v fval
    refine ⟨?fval, fun hearly => ?rbase, fun hclosed => ?late, ?incr, ?step⟩
    case fval =>
      refine does_of_whilePowered (exec_hiRegisterWrite v hst (by decide) (by decide) (by decide)) fun _ => ?_
      rw [writeHi_fval]
      exact pair_written s r _ v
    case rbase =>
      refine does_of_whilePowered exec_rbase fun _ => ?_
      rw [writes]
      dsimp only
      rw [if_pos (cfgOpen_iff.2 hearly)]
      exact pair_written s r base _
    case late =>
      refine does_of_whilePowered exec_rbase fun _ => ?_
      rw [writes]
      dsimp only
      rw [if_neg (mt cfgOpen_iff.1 hclosed)]
      obtain ⟨-, l, hu, hl⟩ := takeHeld_eq s r base
      rw [hu]
      exact ⟨rfl, hl⟩
    case incr => exact (if_neg (by rw [hst]; decide)).trans (if_pos rfl)
    case step => exact (if_neg (by rw [hst]; decide)).trans ((if_neg (by decide)).trans (if_pos rfl))
  case ignored => exact fun h => exec_registerWrite_ignored v (h.imp_right shut_iff.2)
  case steward =>
    intro hst
    have shut_of (h : ¬ early) : s.cfgOpen = false := Bool.eq_false_iff.2 (mt cfgOpen_iff.1 h)
    refine ⟨?restart, ?safe, ?switchover, ?force, ?arm, ?timeForce, ?clearperm, ?stage, ?stwUndefined, ?cfgUndefined, ?flags, ?readOnly, ?scfg,
      ?configShut, ?config, ?addrcfgShut, ?addrcfg, ?forceok, ?per⟩
    case restart =>
      rintro rfl hv
      exact exec_write_runCommand hst (by decide) (by decide) (congrArg some (first_code hv))
    case safe =>
      rintro rfl hv
      exact exec_write_runCommand hst (by decide) (by decide) (congrArg some (third_code hv))
    case switchover =>
      rintro rfl hv
      exact exec_write_runCommand hst (by decide) (by decide) (congrArg some (first_code hv))
    case force =>
      rintro rfl hv
      exact exec_write_runCommand hst (by decide) (by decide) (congrArg some (first_code hv))
    case arm =>
      rintro rfl hv
      exact exec_write_runCommand hst (by decide) (by decide) (congrArg some (second_code hv))
    case timeForce =>
      rintro rfl hv
      exact exec_write_runCommand hst (by decide) (by decide) (congrArg some (first_code hv))
    case clearperm =>
      rintro rfl hv
      exact exec_write_runCommand hst (by decide) (by decide) (congrArg some (first_code hv))
    case stage =>
      rintro rfl hv
      exact exec_write_cfgCommand hst (congrArg some (first_code hv))
    case stwUndefined =>
      rintro rfl hv
      exact stw_undefined hst hv
    case cfgUndefined =>
      rintro rfl hv
      exact cfg_undefined hst hv
    case flags =>
      rintro f hf rfl
      exact flag_written v hst hf
    case readOnly =>
      rintro f hf rfl
      exact status_written v hst hf
    case scfg =>
      rintro n h1 h2 rfl
      exact ⟨fun hearly => does_of_next (exec_write_scfg v hst h1 h2) (scfg_written_open v h1 h2 (cfgOpen_iff.2 hearly)),
        fun hm => does_of_next (exec_write_scfg v hst h1 h2) (scfg_written_enable v hm)⟩
    case configShut =>
      rintro f hf rfl hclosed
      exact config_ignored v hst hf (shut_of hclosed)
    case config =>
      rintro f hf rfl hearly
      exact config_taken v hst hf (cfgOpen_iff.2 hearly)
    case addrcfgShut =>
      rintro rfl hclosed
      obtain ⟨fs, -, hexec⟩ := exec_write_addrcfg v hst
      rw [Ignored, hexec, writeConfig_closed _ _ _ (shut_of hclosed)]
    case addrcfg =>
      rintro rfl hearly
      obtain ⟨fs, hfs, hexec⟩ := exec_write_addrcfg v hst
      exact does_of_next hexec (addrcfg_written s hfs v (cfgOpen_iff.2 hearly))
    case forceok =>
      rintro rfl
      have hexec := exec_write_forceok v hst
      refine ⟨fun hunlocked => ?_, fun hlocked => ?_⟩
      · rw [if_pos hunlocked] at hexec
        exact does_of_next hexec ⟨rfl, (FieldsSet.refl s).set _ (by decide) (by simp)⟩
      · rw [if_neg (by rw [hlocked]; decide)] at hexec
        exact hexec
    case per =>
      rintro rfl hm
      exact exec_write_period v hst hm
  case holdset =>
    rintro rfl
    refine (exec_registerWrite_eng s e v (by decide)).trans (congrArg s.whilePowered ?_)
    rw [State.progWrite, if_neg (by decide), if_neg (by decide), if_pos rfl, ← truncate_ten]
    rfl
  case holdclr =>
    rintro rfl
    refine (exec_registerWrite_eng s e v (by decide)).trans (congrArg s.whilePowered ?_)
    rw [State.progWrite, if_neg (by decide), if_neg (by decide), if_neg (by decide), if_pos rfl, ← truncate_ten]
    rfl
  case complete =>
    rintro rfl
    have hexec := exec_registerWrite_eng s e (off := 0x50080 + 4 * e.val) v (by omega)
    rw [progWrite_complete, ← truncate_ten] at hexec
    exact hexec.trans (exec_eventComplete_eng s e ⟨e.val, by omega⟩ rfl _).symm
  case cack =>
    rintro rfl
    refine (exec_registerWrite_eng s e v (by decide)).trans (congrArg s.whilePowered ?_)
    rw [progWrite_cack]
    rfl
  case qid =>
    rintro rfl
    refine does_of_whilePowered (exec_registerWrite_eng s e v (by decide)) fun _ => ⟨rfl, ?_⟩
    exact (fileGet_put ..).trans (if_pos rfl)
  case unreached =>
    intro h hplat hsw hwin
    by_cases ha : off % 4 = 0
    · rw [Ignored, exec_registerWrite_eng s e v ha, progWrite_ignored v h hplat hsw hwin, whilePowered_self]
    · exact exec_registerWrite_ignored v (.inl ha)

end Sys2Proof.Machine
end

section
/-! PROOF. Command registers (R22, R23) and the fields that a command writes: chains of field writes, and what a judged command leaves. -/

namespace Sys2Proof.Machine

/-! ### Chains of field writes -/

/-- Field `f` lies in its word and beside every field of `l`. -/
def besides (f : Fld) (l : List (Fld × Nat)) : Bool := f.ok && l.all fun p => f.apart p.1

theorem besides_iff {f : Fld} {l : List (Fld × Nat)} : besides f l = true ↔ f.ok = true ∧ ∀ p ∈ l, f.apart p.1 = true := by
  rw [besides, Bool.and_eq_true, List.all_eq_true]

/-- One field more is written; where all fields are concrete the side condition is computed. -/
theorem FieldsSet.put {s t : State} {l : List (Fld × Nat)} (h : FieldsSet s t l) (f : Fld) (n : Nat) (hf : besides f l = true) :
    FieldsSet s (t.set f n) (l ++ [(f, n)]) := h.set n (besides_iff.1 hf).1 (besides_iff.1 hf).2

/-- A field beside those written reads as before. -/
theorem FieldsSet.get_eq {s t : State} {l : List (Fld × Nat)} (h : FieldsSet s t l) (f : Fld) (hf : besides f l = true) :
    t.get f = s.get f := h.2 f (besides_iff.1 hf).2

/-- A counter beside those fields advances. -/
theorem FieldsSet.count {s t : State} {l : List (Fld × Nat)} (h : FieldsSet s t l) (f : Fld) (hf : besides f l = true) :
    FieldsSet s (t.inc f) (l ++ [(f, s.get f + 1)]) := by
  rw [State.inc_eq, h.get_eq f hf, Nat.add_comm]
  exact h.put f _ hf

/-- A field is what the register file says. -/
theorem get_congr {s t : State} (h : t.regs = s.regs) (f : Fld) : t.get f = s.get f := by rw [State.get, State.reg, h, State.get, State.reg]

/-- The fields written are what the register file says. -/
theorem FieldsSet.of_regs {s t u : State} {l : List (Fld × Nat)} (h : FieldsSet s t l) (hu : u.regs = t.regs) : FieldsSet s u l :=
  ⟨fun p hp => (get_congr hu p.1).trans (h.1 p hp), fun f hf => (get_congr hu f).trans (h.2 f hf)⟩

/-- Which fields were written does not depend on their order. -/
theorem FieldsSet.reorder {s t : State} {l l' : List (Fld × Nat)} (h : FieldsSet s t l) (hl : l.Perm l') : FieldsSet s t l' :=
  ⟨fun p hp => h.1 p (hl.mem_iff.2 hp), fun f hf => h.2 f fun p hp => hf p (hl.mem_iff.1 hp)⟩

/-- Fields written after those of a first command are written beside them. -/
theorem FieldsSet.trans {s t u : State} {l l' : List (Fld × Nat)} (h : FieldsSet s t l) (h' : FieldsSet t u l')
    (hl : ∀ p ∈ l, ∀ q ∈ l', p.1.apart q.1 = true) : FieldsSet s u (l ++ l') := by
  constructor
  · intro p hp
    rcases List.mem_append.1 hp with hp | hp
    · rw [h'.2 p.1 (hl p hp), h.1 p hp]
    · exact h'.1 p hp
  · intro f hf
    rw [h'.2 f fun q hq => hf q (List.mem_append_right _ hq), h.2 f fun p hp => hf p (List.mem_append_left _ hp)]

/-- Nothing is written. -/
theorem OnlyFields.refl (s : State) : OnlyFields s s [] := ⟨rfl, .refl s⟩

theorem OnlyFields.put {s t : State} {l : List (Fld × Nat)} (h : OnlyFields s t l) (f : Fld) (n : Nat) (hf : besides f l = true) :
    OnlyFields s (t.set f n) (l ++ [(f, n)]) :=
  ⟨congrArg (fun u : State => { u with regs := (t.set f n).regs }) h.1, h.2.put f n hf⟩

theorem OnlyFields.count {s t : State} {l : List (Fld × Nat)} (h : OnlyFields s t l) (f : Fld) (hf : besides f l = true) :
    OnlyFields s (t.inc f) (l ++ [(f, s.get f + 1)]) :=
  ⟨congrArg (fun u : State => { u with regs := (t.inc f).regs }) h.1, h.2.count f hf⟩

theorem OnlyFields.reorder {s t : State} {l l' : List (Fld × Nat)} (h : OnlyFields s t l) (hl : l.Perm l') : OnlyFields s t l' :=
  ⟨h.1, h.2.reorder hl⟩

/-! ### Judged commands -/

/-- An accepted command takes the value and advances the counter. -/
theorem command_fields (s : State) (cmd cnt reason : Fld) (v : Nat) (h1 : besides cmd [(reason, 0)] = true)
    (h0 : reason.ok = true) (h2 : besides cnt [(reason, 0), (cmd, v)] = true) :
    OnlyFields s (((s.set reason 0).set cmd v).inc cnt) [(reason, 0), (cmd, v), (cnt, s.get cnt + 1)] :=
  (((OnlyFields.refl s).put reason 0 (by simp [besides, h0])).put cmd v h1).count cnt h2

theorem command_unmoved {s : State} {r : Req} {cmd cnt reason : Fld} {v why : Nat} {act : State → State} (h : s.steward r = false) :
    s.command r cmd cnt reason v why act = s := by rw [State.command, h]; rfl

theorem command_refused {s : State} {r : Req} {cmd cnt reason : Fld} {v why : Nat} {act : State → State} (h : s.steward r = true)
    (hw : why ≠ 0) : s.command r cmd cnt reason v why act = s.set reason why := by rw [State.command, h]; exact if_neg hw

theorem command_accepted {s : State} {r : Req} {cmd cnt reason : Fld} {v why : Nat} {act : State → State} (h : s.steward r = true)
    (hw : why = 0) : s.command r cmd cnt reason v why act = act (((s.set reason 0).set cmd v).inc cnt) := by
  rw [State.command, h, hw]; rfl

/-- A command register's three fields lie beside each other. -/
def cmdFieldsOk (cmd cnt reason : Fld) : Bool := reason.ok && besides cmd [(reason, 0)] && besides cnt [(reason, 0), (cmd, 0)]

/-- A command through its register is judged by `why`; what it does once accepted is left to `act`. -/
theorem judged_of_command {c : Instr} {s : State} {r : Req} {cmd cnt reason : Fld} {v why : Nat} {act : State → State}
    {more : List (Fld × Nat)} {rest : State → State}
    (h : exec c s = s.whilePowered (s.command r cmd cnt reason v why act)) (hok : cmdFieldsOk cmd cnt reason = true)
    (hact : ∀ g : Tbl W32, FieldsSet s { s with regs := g } [(reason, 0), (cmd, v), (cnt, s.get cnt + 1)] →
      act { s with regs := g } = { rest s with regs := (act { s with regs := g }).regs } ∧
        FieldsSet s (act { s with regs := g }) ([(reason, 0), (cmd, v), (cnt, s.get cnt + 1)] ++ more)) : Judged c s r cmd cnt reason v why more rest := by
  simp only [cmdFieldsOk, Bool.and_eq_true] at hok
  obtain ⟨⟨h0, h1⟩, h2⟩ := hok
  refine ⟨fun hst => ?_, fun hst hw => ?_, fun hst hw => ?_⟩
  · rw [Ignored, h, command_unmoved hst, whilePowered_self]
  · rw [command_refused hst hw] at h
    exact does_of_whilePowered h fun _ => ⟨rfl, (FieldsSet.refl s).set why h0 (by simp)⟩
  · rw [command_accepted hst hw] at h
    obtain ⟨ht, hf⟩ := command_fields s cmd cnt reason v h1 h0 h2
    rw [ht] at h hf
    exact does_of_whilePowered h fun _ => hact _ hf

/-- A command that writes no register beside its own. -/
theorem judged_of_command_rest {c : Instr} {s : State} {r : Req} {cmd cnt reason : Fld} {v why : Nat} {act rest : State → State}
    (h : exec c s = s.whilePowered (s.command r cmd cnt reason v why act)) (hok : cmdFieldsOk cmd cnt reason = true)
    (hact : ∀ g : Tbl W32, act { s with regs := g } = { rest s with regs := g }) : Judged c s r cmd cnt reason v why [] rest :=
  judged_of_command h hok fun g hf => by rw [hact g]; exact ⟨rfl, hf⟩

end Sys2Proof.Machine
end

section
/-! PROOF. The end of RUN (R18, R297 to R299, R353 to R357): outputs, duties and role given up, and the triggers that lead there (Table 16-2). -/

namespace Sys2Proof.Machine

/-! ### Channels -/

/-- A function of every channel that `p` picks changes the channels alone. -/
theorem eachCh_eq (s : State) (p : Ch → Bool) (f : Ch → Chan → Chan) :
    s.eachCh p f = { s with
      chA := if p .a then f .a s.chA else s.chA
      chB := if p .b then f .b s.chB else s.chB
      chC := if p .c then f .c s.chC else s.chC } := by
  simp only [State.eachCh, List.foldl_cons, List.foldl_nil]
  cases p .a <;> cases p .b <;> cases p .c <;> rfl

theorem eachCh_ch (s : State) (p : Ch → Bool) (f : Ch → Chan → Chan) (ch : Ch) :
    (s.eachCh p f).ch ch = if p ch then f ch (s.ch ch) else s.ch ch := by
  rw [eachCh_eq]
  cases ch <;> rfl

theorem mapCh_eq (s : State) (p : Ch → Bool) (f : Chan → Chan) : s.mapCh p f = s.eachCh p fun _ => f := rfl

theorem mapCh_ch (s : State) (p : Ch → Bool) (f : Chan → Chan) (ch : Ch) :
    (s.mapCh p f).ch ch = if p ch then f (s.ch ch) else s.ch ch := eachCh_ch ..

/-! ### Outputs -/

theorem bit_eq_testBit (s : State) (f : Fld) (n : Nat) : s.bit f n = (s.get f).testBit n := by
  rw [State.bit, Nat.testBit_eq_decide_div_mod_eq]

/-- One bit of a field written, the others as they were. -/
theorem bit_setBit (s : State) {f : Fld} {n : Nat} (b : Bool) (hf : f.ok = true) (hn : n < f.w) (i : Nat) :
    (s.setBit f n b).bit f i = if i = n then b else s.bit f i := by
  have hsum : s.get f / 2 ^ (n + 1) * 2 ^ (n + 1) + b2n b * 2 ^ n + s.get f % 2 ^ n =
      2 ^ n * (2 ^ 1 * (s.get f / 2 ^ (n + 1)) + b2n b) + s.get f % 2 ^ n := by ring
  have hb : b2n b < 2 ^ 1 := by cases b <;> decide
  rw [bit_eq_testBit, bit_eq_testBit, State.setBit, get_set_same _ _ hf, hsum, Nat.testBit_mod_two_pow,
    Nat.testBit_two_pow_mul_add _ (Nat.mod_lt _ (Nat.two_pow_pos n)), Nat.testBit_two_pow_mul_add _ hb]
  rcases Nat.lt_trichotomy i n with h | h | h
  · rw [if_pos h, if_neg h.ne, Nat.testBit_mod_two_pow]
    simp [h, Nat.lt_trans h hn]
  · subst h
    cases b <;> simp [hn, b2n]
  · have h1 : ¬ i - n < 1 := by omega
    have h2 : i - n - 1 + (n + 1) = i := by omega
    rw [if_neg (by omega), if_neg h1, if_neg (by omega), Nat.testBit_div_two_pow, h2]
    by_cases hi : i < f.w
    · simp [hi]
    · simp [hi, Nat.testBit_lt_two_pow (Nat.lt_of_lt_of_le (get_lt s f) (Nat.pow_le_pow_right (by decide) (Nat.le_of_not_lt hi)))]

theorem bit_set_apart (s : State) {f g : Fld} (n i : Nat) (h : f.ok = true) (hd : f.apart g = true) : (s.set f n).bit g i = s.bit g i := by
  rw [State.bit, get_set_apart s n h hd, State.bit]

/-- A field is 0 where none of its bits is 1. -/
theorem get_eq_zero {s : State} {f : Fld} (h : ∀ i, i < f.w → s.bit f i = false) : s.get f = 0 := by
  refine Nat.eq_of_testBit_eq fun i => ?_
  rw [Nat.zero_testBit, ← bit_eq_testBit]
  by_cases hi : i < f.w
  · exact h i hi
  · rw [bit_eq_testBit]
    exact Nat.testBit_lt_two_pow (Nat.lt_of_lt_of_le (get_lt s f) (Nat.pow_le_pow_right (by decide) (Nat.le_of_not_lt hi)))

/-! ### Outputs -/

/-- From `s` to `t` only the outputs' own state and OSTATE changed. -/
def OutputsOnly (s t : State) : Prop := t = { s with regs := t.regs, sio := t.sio } ∧ RegsKept s t [R.SIO.OSTATE.all.off]

theorem OutputsOnly.refl (s : State) : OutputsOnly s s := ⟨rfl, fun _ _ => rfl⟩

theorem OutputsOnly.trans {s t u : State} (h : OutputsOnly s t) (k : OutputsOnly t u) : OutputsOnly s u :=
  ⟨k.1.trans (congrArg (fun x : State => { x with regs := u.regs, sio := u.sio }) h.1), fun o ho => (k.2 o ho).trans (h.2 o ho)⟩

/-- A demand of 0 clears its own bit of OSTATE.DEM. -/
theorem execDemand_false (s : State) (o : Fin 8) :
    OutputsOnly s (s.execDemand o false) ∧
      ∀ i, (s.execDemand o false).bit R.SIO.OSTATE.DEM i = if i = o.val then false else s.bit R.SIO.OSTATE.DEM i := by
  rw [State.execDemand]
  by_cases hb : s.bit R.SIO.OSTATE.DEM o.val = false
  · rw [hb]
    refine ⟨⟨rfl, fun _ _ => rfl⟩, fun i => ?_⟩
    show s.bit R.SIO.OSTATE.DEM i = if i = o.val then false else s.bit R.SIO.OSTATE.DEM i
    split
    · next hi => rw [hi]; exact hb
    · rfl
  · rw [Bool.not_eq_false] at hb
    rw [hb]
    refine ⟨⟨rfl, fun off hoff => ?_⟩, fun i => ?_⟩
    · have ho : off ≠ 0x80028 := fun h => hoff (by rw [h]; exact List.mem_singleton_self _)
      exact (reg_set_ne _ _ _ ho).trans (reg_set_ne _ _ _ ho)
    · exact (bit_set_apart _ _ _ rfl rfl).trans (bit_setBit _ false rfl o.isLt i)

/-- Every output is de-energised. -/
theorem outputsOff_spec (s : State) : OutputsOnly s s.outputsOff ∧ s.outputsOff.get R.SIO.OSTATE.DEM = 0 := by
  have upTo (n : Nat) : OutputsOnly s (forN n s fun t o => t.execDemand (Fin.ofNat 8 o) false) ∧
      ∀ i, i < n → i < 8 → (forN n s fun t o => t.execDemand (Fin.ofNat 8 o) false).bit R.SIO.OSTATE.DEM i = false := by
    induction n with
    | zero => exact ⟨.refl s, fun i hi => absurd hi (Nat.not_lt_zero i)⟩
    | succ n ih =>
      rw [forN, List.range_succ, List.foldl_append, List.foldl_cons, List.foldl_nil, ← forN]
      obtain ⟨honly, hbit⟩ := execDemand_false (forN n s fun t o => t.execDemand (Fin.ofNat 8 o) false) (Fin.ofNat 8 n)
      refine ⟨ih.1.trans honly, fun i hi h8 => ?_⟩
      rw [hbit]
      split
      · rfl
      · next hne =>
        refine ih.2 i (Nat.lt_of_le_of_ne (Nat.le_of_lt_succ hi) fun he => hne ?_) h8
        subst he
        exact (Nat.mod_eq_of_lt h8).symm
  exact ⟨(upTo 8).1, get_eq_zero fun i hi => (upTo 8).2 i hi hi⟩

/-! ### The duties -/

/-- No copy of the channel runs, waits or holds a store, and nothing of it is released. -/
def Halted (c : Chan) : Prop := c.insts = [] ∧ ∀ e : Eng, c.eng[e].run = none ∧ c.eng[e].stall = none ∧ c.eng[e].cbuf = []

/-- The registers that the end of the duties writes. -/
def dutyRegs : List Nat :=
  [R.BRG.STATUS.all.off, R.BRG.FLAG.PWLOSS.off, R.BRG.INTST.all.off, R.BRG.PWLOST.all.off, R.BRG.DISCCNT.all.off, R.BRG.RDERRCNT.all.off,
    (R.NET.HEAD.all 10).off]

/-- From `s` to `t` only the bridge, what an inbound write touches, the channels and the votes that wait changed, and no halted channel does anything. -/
def DutiesOnly (s t : State) : Prop :=
  t = { s with
    regs := t.regs, brg := t.brg, smem := t.smem, chA := t.chA, chB := t.chB, chC := t.chC, vote := t.vote, resp := t.resp
    upd := { s.upd with bat := t.upd.bat }, pair := { s.pair with touched := t.pair.touched } } ∧
  RegsKept s t dutyRegs ∧ ∀ ch, Halted (s.ch ch) → Halted (t.ch ch)

namespace DutiesOnly

variable {s t u : State}

theorem refl (s : State) : DutiesOnly s s := ⟨rfl, fun _ _ => rfl, fun _ h => h⟩

theorem trans (h : DutiesOnly s t) (k : DutiesOnly t u) : DutiesOnly s u :=
  ⟨k.1.trans (congrArg (fun x : State => { x with
      regs := u.regs, brg := u.brg, smem := u.smem, chA := u.chA, chB := u.chB, chC := u.chC, vote := u.vote, resp := u.resp
      upd := { x.upd with bat := u.upd.bat }, pair := { x.pair with touched := u.pair.touched } }) h.1),
    fun o ho => (k.2.1 o ho).trans (h.2.1 o ho), fun ch hh => k.2.2 ch (h.2.2 ch hh)⟩

theorem ite {c : Prop} [Decidable c] {a b : State} (ha : DutiesOnly s a) (hb : DutiesOnly s b) : DutiesOnly s (if c then a else b) := by
  split <;> assumption

theorem foldl {α : Type} {f : State → α → State} (l : List α) (h : DutiesOnly s t) (hf : ∀ t a, DutiesOnly t (f t a)) :
    DutiesOnly s (l.foldl f t) := by
  induction l generalizing t with
  | nil => exact h
  | cons a l ih => exact ih (h.trans (hf t a))

/-- Whatever leaves registers and channels alone and changes nothing but what the duties may. -/
theorem rest (h : DutiesOnly s t) {b : BrgSt} {m : Tbl Byte} {v : VoteSt} {r : Option W32} {x : Option (Bool × Bool)} {l : List Nat} :
    DutiesOnly s { t with brg := b, smem := m, vote := v, resp := r, upd := { t.upd with bat := x }, pair := { t.pair with touched := l } } :=
  h.trans ⟨rfl, fun _ _ => rfl, fun ch hh => by cases ch <;> exact hh⟩

theorem set (h : DutiesOnly s t) (f : Fld) (n : Nat) (hf : f.off ∈ dutyRegs) : DutiesOnly s (t.set f n) :=
  h.trans ⟨rfl, fun o ho => reg_set_ne t f n fun he => ho (he ▸ hf), fun ch hh => by cases ch <;> exact hh⟩

theorem eachCh (h : DutiesOnly s t) {p : Ch → Bool} {f : Ch → Chan → Chan} (hf : ∀ ch c, Halted c → Halted (f ch c)) :
    DutiesOnly s (t.eachCh p f) := by
  refine h.trans ⟨by rw [eachCh_eq], fun o _ => by rw [eachCh_eq]; rfl, fun ch hh => ?_⟩
  rw [eachCh_ch]
  split
  exacts [hf ch _ hh, hh]

theorem onEngine (h : DutiesOnly s t) {e : Eng} {f : Ch → Chan → Chan × List Close} (hf : ∀ ch c, Halted c → Halted (f ch c).1) :
    DutiesOnly s (t.onEngine e f) := by
  refine h.trans ⟨rfl, fun _ _ => rfl, fun ch hh => ?_⟩
  rw [State.onEngine_ch]
  split
  exacts [hf ch _ hh, hh]

end DutiesOnly

theorem input_dutiesOnly (s : State) (id : Nat) (val : List Byte) (src : Src) : DutiesOnly s (s.input id val src) := by
  have note : DutiesOnly s (s.noteBattery id val src) := by
    unfold State.noteBattery
    exact .ite (DutiesOnly.refl s).rest (.refl s)
  have every : DutiesOnly s ((s.noteBattery id val src).eachCh s.follows fun ch c => c.input s.gong.frame id (s.receivedBytes ch val) src) := by
    refine note.eachCh fun ch c hc => ?_
    unfold Chan.input
    split
    exacts [hc, hc]
  unfold State.input
  split
  · exact .ite every.rest every
  · exact every

theorem flushInbound_dutiesOnly (s : State) : DutiesOnly s s.flushInbound :=
  .foldl _ (DutiesOnly.refl s).rest fun t _ => .foldl _ (DutiesOnly.refl t).rest fun _ _ => input_dutiesOnly ..

theorem pwRecord_dutiesOnly (s : State) (cause : Nat) (p : PwEnt) : DutiesOnly s (s.pwRecord cause p) := by
  unfold State.pwRecord State.ringPut
  exact .ite (.refl s) (.ite (((DutiesOnly.refl s).set _ _ (by decide)).set _ _ (by decide)) ((DutiesOnly.refl s).rest.set _ _ (by decide)))

theorem Chan.answer_halted {c : Chan} (hc : Halted c) (s : State) (e : Eng) (j : Option Nat) (data : Option Word) :
    c.answer s e j data = (c, []) := by
  unfold Chan.answer
  rw [(hc.2 e).2.1]
  rfl

theorem answerTo_dutiesOnly (s : State) (req : DrReq) (j : Option Nat) (data : Option Word) : DutiesOnly s (s.answerTo req j data) := by
  have error : DutiesOnly s (if data.isNone then s.readError else s) :=
    .ite (((DutiesOnly.refl s).set _ _ (by decide)).set _ _ (by decide)) (.refl s)
  unfold State.answerTo
  dsimp only
  split
  · split
    all_goals exact .onEngine error.rest fun ch c hc => by rw [Chan.answer_halted hc]; exact hc
  · exact error.rest

theorem freeDr_dutiesOnly (s : State) (j : Fin 8) : DutiesOnly s (s.freeDr j) := by
  unfold State.freeDr
  split
  · exact (DutiesOnly.refl s).rest
  · dsimp only
    split
    · exact (DutiesOnly.refl s).rest
    · next e _ =>
      rw [mapCh_eq]
      refine DutiesOnly.eachCh (DutiesOnly.refl s).rest fun _ c hc => ?_
      split
      · next h => rw [(hc.2 e).2.1] at h; cases h
      · exact hc

theorem endTransfers_dutiesOnly (s : State) : DutiesOnly s s.endTransfers := by
  refine .foldl _ (.foldl _ (.foldl _ (DutiesOnly.refl s).rest fun t p => pwRecord_dutiesOnly ..) fun t w => answerTo_dutiesOnly ..) fun t j => ?_
  split
  · exact .refl t
  · refine .ite ?_ ((answerTo_dutiesOnly ..).trans (freeDr_dutiesOnly ..))
    exact DutiesOnly.trans (((DutiesOnly.refl t).set _ _ (by decide)).set _ _ (by decide)) (freeDr_dutiesOnly ..)

/-- The duties given up are held no more. -/
theorem giveUpDuties_spec (s : State) : DutiesOnly s s.giveUpDuties ∧ s.giveUpDuties.get R.BRG.STATUS.HOLD = 0 := by
  unfold State.giveUpDuties
  split
  · next h => exact ⟨.refl s, h⟩
  · refine ⟨((((((flushInbound_dutiesOnly s).trans (endTransfers_dutiesOnly _)).set _ _ (by decide)).set _ _ (by decide)).set _ _ (by decide)).set _ _ (by decide)), ?_⟩
    rw [get_set_apart _ _ rfl rfl, get_set_apart _ _ rfl rfl, get_set_apart _ _ rfl rfl, get_set_same _ _ rfl]
    rfl

/-! ### SAFE -/

theorem dropWork_eq (s : State) : s.dropWork = { s with
    chA := s.dropWork.chA, chB := s.dropWork.chB, chC := s.dropWork.chC, seqr := s.dropWork.seqr, vote := s.dropWork.vote } := by
  rw [State.dropWork, mapCh_eq, eachCh_eq]

theorem dropWork_halted (s : State) (ch : Ch) : Halted (s.dropWork.ch ch) := by
  have h : s.dropWork.ch ch = { (s.ch ch).halt with insts := [] } := by
    rw [State.dropWork, mapCh_eq, eachCh_eq]
    cases ch <;> rfl
  rw [h]
  refine ⟨rfl, fun e => ?_⟩
  simp [Chan.halt]

theorem regsKept_get {s t : State} {l : List Nat} (h : RegsKept s t l) {f : Fld} (hf : f.off ∉ l) : t.get f = s.get f := by
  rw [State.get, h f.off hf, State.get]

theorem RegsKept.trans {s t u : State} {l m : List Nat} (h : RegsKept s t l) (k : RegsKept t u m) : RegsKept s u (l ++ m) :=
  fun o ho => (k o fun hm => ho (List.mem_append_right _ hm)).trans (h o fun hl => ho (List.mem_append_left _ hl))

theorem RegsKept.set (s : State) (f : Fld) (n : Nat) : RegsKept s (s.set f n) [f.off] :=
  fun _ ho => reg_set_ne s f n fun he => ho (he ▸ List.mem_singleton_self _)

theorem RegsKept.mono {s t : State} {l m : List Nat} (h : RegsKept s t l) (hlm : l ⊆ m) : RegsKept s t m := fun o ho => h o fun hl => ho (hlm hl)

/-- Entering a state shows it and writes its record. -/
theorem enterState_spec (s : State) (m : MState) (old : Nat) :
    (s.enterState m old) = { s with regs := (s.enterState m old).regs, fum := (s.enterState m old).fum, fumPos := (s.enterState m old).fumPos } ∧
      FieldsSet s (s.enterState m old) [(R.SUP.STATE.MSTATE, mstateCode m), (R.SUP.FUMSEQ.SEQ, s.get R.SUP.FUMSEQ.SEQ + 1)] :=
  ⟨rfl, ((FieldsSet.refl s).put R.SUP.STATE.MSTATE (mstateCode m) rfl).count R.SUP.FUMSEQ.SEQ rfl⟩

theorem mstateOf_mstateCode (m : MState) : mstateOf (mstateCode m % 2 ^ R.SUP.STATE.MSTATE.w) = m := by cases m <;> rfl

theorem enterState_mstate (s : State) (m : MState) (old : Nat) : (s.enterState m old).mstate = m := by
  have h := (enterState_spec s m old).2.1 _ (List.mem_cons_self ..)
  rw [State.mstate, h, mstateOf_mstateCode]

/-- The registers that the entry into SAFE writes. -/
def safeRegs : List Nat := R.SIO.OSTATE.all.off :: R.PAIR.ROLE.all.off :: R.SUP.STATE.all.off :: R.SUP.FUMSEQ.SEQ.off :: dutyRegs

/-- What the entry into SAFE leaves: outputs, role and duties given up, every channel halted, and of the supervision only Solfatara's operations
latched. -/
structure SafeEntered (s t : State) : Prop where
  mstate : t.mstate = .safe
  dem : t.get R.SIO.OSTATE.DEM = 0
  role : t.get R.PAIR.ROLE.fld = 0
  pact : t.get R.PAIR.ROLE.PACT = 0
  hold : t.get R.BRG.STATUS.HOLD = 0
  sup : t.sup = { s.sup with latch := true, words := t.sup.words }
  regs : RegsKept s t safeRegs
  halted : ∀ ch, Halted (t.ch ch)
  fum : ∃ r, t.fum = (r :: s.fum).take fumSize

theorem leaveRole_fields (s : State) : FieldsSet s s.leaveRole [(R.PAIR.ROLE.fld, 0), (R.PAIR.ROLE.PACT, 0), (R.PAIR.ROLE.CUR, 0)] :=
  (((FieldsSet.refl s).put R.PAIR.ROLE.fld 0 rfl).put R.PAIR.ROLE.PACT 0 rfl).put R.PAIR.ROLE.CUR 0 rfl

theorem leaveRole_regs (s : State) : RegsKept s s.leaveRole [R.PAIR.ROLE.all.off] :=
  (((RegsKept.set s R.PAIR.ROLE.fld 0).trans (.set _ R.PAIR.ROLE.PACT 0)).trans (.set _ R.PAIR.ROLE.CUR 0)).mono (by decide)

theorem fumarole_regs (s : State) (type src code : Nat) (data : List Byte) :
    RegsKept s (s.fumarole type src code data) [R.SUP.FUMSEQ.SEQ.off] := fun o ho =>
  show (s.inc R.SUP.FUMSEQ.SEQ).reg o = s.reg o from RegsKept.set s R.SUP.FUMSEQ.SEQ _ o ho

theorem enterState_regs (s : State) (m : MState) (old : Nat) :
    RegsKept s (s.enterState m old) [R.SUP.STATE.all.off, R.SUP.FUMSEQ.SEQ.off] :=
  (RegsKept.set s R.SUP.STATE.MSTATE (mstateCode m)).trans (fumarole_regs _ _ _ _ _)

/-- The state and role that the entry into SAFE shows, whatever was given up before. -/
theorem leaveToSafe_spec (g : State) :
    (g.leaveRole.toState .safe).mstate = .safe ∧ (g.leaveRole.toState .safe).get R.PAIR.ROLE.fld = 0 ∧
      (g.leaveRole.toState .safe).get R.PAIR.ROLE.PACT = 0 ∧
      RegsKept g (g.leaveRole.toState .safe) [R.PAIR.ROLE.all.off, R.SUP.STATE.all.off, R.SUP.FUMSEQ.SEQ.off] := by
  have hlast : RegsKept g.leaveRole (g.leaveRole.toState .safe) [R.SUP.STATE.all.off, R.SUP.FUMSEQ.SEQ.off] := enterState_regs _ _ _
  have hrole := leaveRole_fields g
  refine ⟨enterState_mstate .., ?_, ?_, (leaveRole_regs g).trans hlast⟩
  · rw [regsKept_get hlast (by decide)]
    exact hrole.1 (R.PAIR.ROLE.fld, 0) (by simp)
  · rw [regsKept_get hlast (by decide)]
    exact hrole.1 (R.PAIR.ROLE.PACT, 0) (by simp)

theorem solfatara_spec (s : State) (code : Nat) :
    (s.solfatara code).get R.SIO.OSTATE.DEM = 0 ∧ RegsKept s (s.solfatara code) [R.SIO.OSTATE.all.off] ∧
      (s.solfatara code).sup = { s.sup with latch := true, words := (s.solfatara code).sup.words } ∧ (s.solfatara code).fum = s.fum := by
  obtain ⟨⟨hs, hregs⟩, hdem⟩ := outputsOff_spec s
  have hsup : s.outputsOff.sup = s.sup := by rw [hs]
  have hfum : s.outputsOff.fum = s.fum := by rw [hs]
  refine ⟨hdem, hregs, ?_, hfum⟩
  unfold State.solfatara
  dsimp only
  rw [hsup]

/-- What is given up on the way to SAFE before the role. -/
theorem giveUp_spec (s : State) (code : Nat) :
    let g := (s.solfatara code).dropWork.giveUpDuties
    g.get R.SIO.OSTATE.DEM = 0 ∧ g.get R.BRG.STATUS.HOLD = 0 ∧ g.sup = (s.solfatara code).sup ∧ g.fum = s.fum ∧
      RegsKept s g (R.SIO.OSTATE.all.off :: dutyRegs) ∧ ∀ ch, Halted (g.ch ch) := by
  obtain ⟨hdem, hregs, -, hfum⟩ := solfatara_spec s code
  generalize s.solfatara code = o at hdem hregs hfum ⊢
  obtain ⟨⟨hduties, hdregs, hhalt⟩, hhold⟩ := giveUpDuties_spec o.dropWork
  have hkept : RegsKept o o.dropWork.giveUpDuties dutyRegs := by
    have hdrop : o.dropWork.regs = o.regs := by rw [dropWork_eq]
    intro off hoff
    rw [hdregs off hoff, State.reg, hdrop, State.reg]
  have hsup : o.dropWork.giveUpDuties.sup = o.sup := by rw [hduties, dropWork_eq]
  have hduties_fum : o.dropWork.giveUpDuties.fum = o.fum := by rw [hduties, dropWork_eq]
  exact ⟨(regsKept_get hkept (by decide)).trans hdem, hhold, hsup, hduties_fum.trans hfum, hregs.trans hkept, fun ch => hhalt ch (dropWork_halted o ch)⟩

theorem leaveToSafe_sup (g : State) : (g.leaveRole.toState .safe).sup = g.sup := by
  simp [State.toState, State.enterState, State.leaveRole]

theorem leaveToSafe_ch (g : State) (ch : Ch) : (g.leaveRole.toState .safe).ch ch = g.ch ch := by
  cases ch <;> simp [State.toState, State.enterState, State.leaveRole, State.ch]

theorem fumPut_fum (s : State) (body : List Byte) :
    (s.fumPut body).fum = (⟨BitVec.ofNat 32 (1 + s.get R.SUP.FUMSEQ.SEQ), body⟩ :: s.fum).take fumSize := by
  simp only [State.fumPut]

theorem leaveToSafe_fum (g : State) : ∃ r, (g.leaveRole.toState .safe).fum = (r :: g.fum).take fumSize := by
  have h : (g.leaveRole.set R.SUP.STATE.MSTATE (mstateCode .safe)).fum = g.fum := by simp [State.leaveRole]
  rw [State.toState, State.enterState, State.fumarole, fumPut_fum, h]
  exact ⟨_, rfl⟩

theorem enterSafe_spec (s : State) (code : Nat) : SafeEntered s (s.enterSafe code) := by
  obtain ⟨hdem, hhold, hsup, hfum, hregs, hhalt⟩ := giveUp_spec s code
  obtain ⟨-, -, hlatch, -⟩ := solfatara_spec s code
  unfold State.enterSafe
  generalize (s.solfatara code).dropWork.giveUpDuties = g at hdem hhold hsup hfum hregs hhalt ⊢
  obtain ⟨hm, hrole, hpact, hlast⟩ := leaveToSafe_spec g
  have hkeep : (g.leaveRole.toState .safe).sup = (s.solfatara code).sup := (leaveToSafe_sup g).trans hsup
  have hch := leaveToSafe_ch g
  have hrec := leaveToSafe_fum g
  rw [hfum] at hrec
  generalize g.leaveRole.toState .safe = w at *
  exact {
    mstate := hm
    dem := (regsKept_get hlast (by decide)).trans hdem
    role := hrole
    pact := hpact
    hold := (regsKept_get hlast (by decide)).trans hhold
    sup := by dsimp only; rw [hkeep]; exact hlatch
    regs := (hregs.trans hlast).mono (by decide)
    halted := fun ch => by have h := hhalt ch; rw [← hch] at h; cases ch <;> exact h
    fum := hrec }

/-! ### Triggers (R353 to R355) -/

/-- A record takes the next number, beside the fields written before. -/
theorem FieldsSet.fumarole {s t : State} {l : List (Fld × Nat)} (h : FieldsSet s t l) (type src code : Nat) (data : List Byte)
    (hf : besides R.SUP.FUMSEQ.SEQ l = true) :
    FieldsSet s (t.fumarole type src code data) (l ++ [(R.SUP.FUMSEQ.SEQ, s.get R.SUP.FUMSEQ.SEQ + 1)]) := by
  have hregs : (t.fumarole type src code data).regs = (t.inc R.SUP.FUMSEQ.SEQ).regs := by simp only [State.fumarole, State.fumPut]
  exact (h.count R.SUP.FUMSEQ.SEQ hf).of_regs hregs

theorem leBytes_length (n v : Nat) : (leBytes n v).length = n := by
  induction n generalizing v with
  | zero => rfl
  | succ n ih => exact congrArg (· + 1) (ih _)

/-- A record with the next number stands at the head of Fumarole. -/
theorem fumarole_recorded (s : State) (type src code : Nat) (data : List Byte) :
    ∃ r l, (s.fumarole type src code data).fum = r :: l ∧ r.seq = BitVec.ofNat 32 (1 + s.get R.SUP.FUMSEQ.SEQ) ∧
      r.body.take 4 = leBytes 1 type ++ leBytes 1 src ++ leBytes 2 code ∧ r.body.drop 16 = bytesAt data 0 12 := by
  refine ⟨_, s.fum.take (fumSize - 1), (fumPut_fum ..).trans List.take_succ_cons, rfl, ?_, ?_⟩
  · rw [List.append_assoc, List.append_assoc]
    exact List.take_left' (by simp [leBytes_length])
  · exact List.drop_left' (by simp [leBytes_length])

/-- A record is still there after the next one. -/
theorem recorded_of_fum {s u t : State} {type src code : Nat} {data : List Byte} (hu : u.fum = (s.fumarole type src code data).fum)
    (ht : t.fum = u.fum ∨ ∃ r, t.fum = (r :: u.fum).take fumSize) : Recorded s t type src code data := by
  obtain ⟨r, l, hfum, hr⟩ := fumarole_recorded s type src code data
  rw [hu, hfum] at ht
  refine ⟨r, ?_, hr⟩
  rcases ht with ht | ⟨x, ht⟩
  · rw [ht]
    exact List.mem_cons_self ..
  · rw [ht, show fumSize = 2097150 + 1 + 1 from rfl, List.take_succ_cons, List.take_succ_cons]
    exact List.mem_cons_of_mem _ (List.mem_cons_self ..)

/-- The data of a trigger's record: detail, module state and role. -/
def triggerData (s : State) (detail : Nat) : List Byte :=
  leBytes 1 detail ++ leBytes 1 (s.get R.SUP.STATE.MSTATE) ++ leBytes 1 (s.get R.PAIR.ROLE.fld)

/-- What the first trigger shows before it enters SAFE: its record, the cause and the count. -/
def State.decideCause (s : State) (code detail : Nat) : State :=
  let t := ((((s.fumarole 0x03 0x0F code (triggerData s detail)).set R.SUP.CAUSE.CODE code).set R.SUP.CAUSE.DETAIL detail).flag R.SUP.FLAG.SAFE).inc
    R.SUP.SAFECNT.COUNT
  { t with sup := { t.sup with lastSafe := code } }

theorem trigger_of_armed {s : State} (h : Armed s) (code detail : Nat) : s.trigger code detail = (s.decideCause code detail).enterSafe code := by
  rw [State.trigger, if_neg fun k => k.elim h.1 h.2]
  rfl

theorem trigger_of_not_armed {s : State} (h : ¬ Armed s) (code detail : Nat) :
    s.trigger code detail = s.fumarole 0x03 0x0F code (triggerData s detail) := by
  rw [State.trigger, if_pos (by simpa [Armed, Classical.or_iff_not_imp_left] using h)]
  rfl

theorem decideCause_fields (s : State) (code detail : Nat) :
    FieldsSet s (s.decideCause code detail) [(R.SUP.FUMSEQ.SEQ, s.get R.SUP.FUMSEQ.SEQ + 1), (R.SUP.CAUSE.CODE, code), (R.SUP.CAUSE.DETAIL, detail),
      (R.SUP.FLAG.SAFE, 1), (R.SUP.SAFECNT.COUNT, s.get R.SUP.SAFECNT.COUNT + 1)] := by
  have h := (((((FieldsSet.refl s).fumarole 0x03 0x0F code (triggerData s detail) rfl).put R.SUP.CAUSE.CODE code rfl).put R.SUP.CAUSE.DETAIL detail rfl).put
    R.SUP.FLAG.SAFE 1 rfl).count R.SUP.SAFECNT.COUNT rfl
  exact h.of_regs (by simp only [State.decideCause, State.flag])

/-- The first trigger decides the cause and enters SAFE. -/
theorem trigger_armed {s : State} (h : Armed s) {code detail : Nat} (hc : code < 256) (hd : detail < 256) :
    EntersSafe s (s.trigger code detail) code detail ∧ Recorded s (s.trigger code detail) 0x03 0x0F code (triggerData s detail) := by
  rw [trigger_of_armed h]
  have hf := decideCause_fields s code detail
  have hfum : (s.decideCause code detail).fum = (s.fumarole 0x03 0x0F code (triggerData s detail)).fum := by
    simp only [State.decideCause, State.flag, State.inc, State.set_fum]
  have hlast : (s.decideCause code detail).sup.lastSafe = code := rfl
  generalize s.decideCause code detail = u at hf hfum hlast ⊢
  have e := enterSafe_spec u code
  generalize u.enterSafe code = t at e ⊢
  have shown (f : Fld) (n : Nat) (hm : (f, n) ∈ [(R.SUP.FUMSEQ.SEQ, s.get R.SUP.FUMSEQ.SEQ + 1), (R.SUP.CAUSE.CODE, code), (R.SUP.CAUSE.DETAIL, detail),
      (R.SUP.FLAG.SAFE, 1), (R.SUP.SAFECNT.COUNT, s.get R.SUP.SAFECNT.COUNT + 1)]) (hk : f.off ∉ safeRegs) : t.get f = n % 2 ^ f.w :=
    (regsKept_get e.regs hk).trans (hf.1 _ hm)
  refine ⟨⟨e.mstate, (shown _ _ (by simp) (by decide)).trans (Nat.mod_eq_of_lt hc), (shown _ _ (by simp) (by decide)).trans (Nat.mod_eq_of_lt hd),
    shown R.SUP.FLAG.SAFE 1 (by simp) (by decide), shown R.SUP.SAFECNT.COUNT _ (by simp) (by decide), e.dem, ?_, e.pact, e.hold, ?_, ?_, fun ch => ?_⟩,
    recorded_of_fum hfum (.inr e.fum)⟩
  · rw [State.role, e.role]; rfl
  · rw [e.sup]
  · rw [e.sup]; exact hlast
  · exact ⟨(e.halted ch).1, fun k => ⟨((e.halted ch).2 k).1, ((e.halted ch).2 k).2.2⟩⟩

/-- A later trigger writes its record and nothing else. -/
theorem trigger_recorded {s : State} (h : ¬ Armed s) (code detail : Nat) :
    let t := s.trigger code detail
    (t = { s with regs := t.regs, fum := t.fum, fumPos := t.fumPos } ∧ FieldsSet s t [(R.SUP.FUMSEQ.SEQ, s.get R.SUP.FUMSEQ.SEQ + 1)]) ∧
      Recorded s t 0x03 0x0F code (triggerData s detail) := by
  rw [trigger_of_not_armed h]
  exact ⟨⟨rfl, (FieldsSet.refl s).count R.SUP.FUMSEQ.SEQ rfl⟩, recorded_of_fum rfl (.inl rfl)⟩

/-- What keeps a trigger from coming while the module is powered (R349, R350, R358, R359, R365). -/
theorem trigger_comes_iff {s : State} (hp : s.sup.powered = true) {code : Nat} (h0 : code ≠ 0) :
    (!s.raisable code || (tocsinCodes.contains code && !s.tocsinOn)) = true ↔
      (s.sup.startHold = true ∧ code ∈ [10, 11, 12, 13, 15, 17]) ∨ (s.mstate ≠ .run ∧ code ∈ [10, 14]) ∨
        (s.get R.SUP.CFG.EXTEN = 0 ∧ code = 15) ∨ (s.mstate ∉ [.starttest, .init, .run] ∧ code = 16) := by
  have hon : s.tocsinOn = !s.sup.startHold := by rw [State.tocsinOn, hp, Bool.true_and]
  have hext : s.get R.SUP.CFG.EXTEN < 2 := get_lt s R.SUP.CFG.EXTEN
  have hraise : s.raisable code = false ↔ (s.mstate ≠ .run ∧ code ∈ [10, 14]) ∨ (s.get R.SUP.CFG.EXTEN = 0 ∧ code = 15) ∨
      (s.mstate ∉ [.starttest, .init, .run] ∧ code = 16) := by
    unfold State.raisable
    split
    case h_1 => exact absurd rfl h0
    case h_2 | h_3 => simp
    case h_4 => simp; omega
    case h_5 => simp [State.initOrRun]
    case h_6 => simp; tauto
  rw [hon, Bool.or_eq_true, Bool.and_eq_true, Bool.not_not, Bool.not_eq_true', hraise, tocsinCodes, List.contains_iff_mem, or_comm]
  exact or_congr_left and_comm

/-- Settles O37: the first trigger decides, later ones only record. -/
theorem triggersEnterSafeOnce : Obligations.TriggersEnterSafeOnce := by
  intro s code detail c recorded held
  have hexec : exec c s = s.whilePowered (if !s.raisable code.val || (tocsinCodes.contains code.val && !s.tocsinOn) then s
      else s.trigger code.val detail.toNat) := rfl
  have comes (hp : s.sup.powered = true) (h0 : code.val ≠ 0) (hh : ¬ held) : exec c s = .next (s.trigger code.val detail.toNat) := by
    rw [hexec, State.whilePowered, if_pos hp, if_neg (mt (trigger_comes_iff hp h0).1 hh)]
  refine ⟨fun h0 hh ha hp => ⟨_, comes hp h0 hh, trigger_armed ha (by omega) detail.isLt⟩,
    fun h0 hh ha hp => ⟨_, comes hp h0 hh, ?_⟩, fun hh => ?_⟩
  · obtain ⟨⟨hs, hf⟩, hrec⟩ := trigger_recorded ha code.val detail.toNat
    exact ⟨hs, hf, hrec⟩
  · by_cases hp : s.sup.powered = true
    · rw [Ignored, hexec, if_pos, whilePowered_self]
      rcases Decidable.em (code.val = 0) with h0 | h0
      · rw [h0]; rfl
      · exact (trigger_comes_iff hp h0).2 (hh.resolve_left h0)
    · rw [Ignored, hexec, State.whilePowered, if_neg hp]

end Sys2Proof.Machine
end

section
/-! PROOF. Configuration commands, the challenge and the expert unlock (R314, R317, R320 to R324). -/

namespace Sys2Proof.Machine

/-! ### The first entry that fails a check -/

theorem firstIndex_eq_find (l : List NvEntry) (p : NvEntry → Bool) : firstIndex l p = (List.range l.length).find? fun i => l[i]?.any p := by
  unfold firstIndex
  congr 1
  funext i
  rw [List.head?_drop]
  cases l[i]? <;> rfl

theorem firstIndex_eq_some {l : List NvEntry} {p : NvEntry → Bool} {k : Nat} {e : NvEntry} (hk : l[k]? = some e) (he : p e = true)
    (hlt : ∀ i x, i < k → l[i]? = some x → p x = false) : firstIndex l p = some k := by
  have hlen : k < l.length := (List.getElem?_eq_some_iff.1 hk).1
  rw [firstIndex_eq_find, List.find?_eq_some_iff_getElem]
  refine ⟨by rw [hk]; exact he, k, by simpa using hlen, by simp, fun i hi => ?_⟩
  rw [List.getElem_range, List.getElem?_eq_getElem (by omega), Option.any_some, hlt i _ hi (List.getElem?_eq_getElem (by omega))]
  rfl

theorem firstIndex_eq_none {l : List NvEntry} {p : NvEntry → Bool} (h : l.any p = false) : firstIndex l p = none := by
  rw [firstIndex_eq_find, List.find?_eq_none]
  intro i hi
  have hlen : i < l.length := by simpa using hi
  rw [List.getElem?_eq_getElem hlen, Option.any_some]
  exact List.any_eq_false.1 h _ (List.getElem_mem hlen)

/-! ### STAGE -/

theorem showStgerr_quiet {s : State} {why : Nat} (h4 : why ≠ 4) (h5 : why ≠ 5) : s.showStgerr why = s := by
  unfold State.showStgerr
  split
  · rfl
  · exact if_neg (by simp [h4, h5])

theorem showStgerr_index {s : State} {m : NvImage} {why k : Nat} (hm : s.nv.staged = some m) (hw : why = 4 ∨ why = 5)
    (hk : (if why = 4 then firstIndex m.entries fun e => !entryFits e
      else firstIndex m.entries fun e => (s.expertDiff m).any fun f => coversFld e f) = some k) :
    s.showStgerr why = s.set R.CFG.STGERR.INDEX k := by
  unfold State.showStgerr
  rw [hm]
  dsimp only
  rw [if_pos hw, hk]

theorem showStgerr_free {s : State} {m : NvImage} (hm : s.nv.staged = some m)
    (hk : (firstIndex m.entries fun e => (s.expertDiff m).any fun f => coversFld e f) = none) :
    s.showStgerr 5 = (s.fresh 32).2.set R.CFG.STGERR.INDEX (s.fresh 32).1.toNat := by
  unfold State.showStgerr
  rw [hm]
  dsimp only
  rw [if_pos (.inr rfl), if_neg (by decide), hk]

theorem exec_cfgStage {s : State} {r : Req} (h : s.steward r = true) :
    exec (.cfgStage r) s = s.whilePowered ((s.showStgerr s.stageWhy).cfgCommand r 1 s.stageWhy fun t =>
      (t.set R.CFG.STATUS.STGV 1).set R.CFG.STGVER.CFGVER (match t.nv.staged with
        | some m => m.cfgver.toNat
        | none => 0)) := by
  show s.whilePowered _ = _
  rw [if_pos h] <;> rfl

theorem exec_cfgStage_refused {s : State} {r : Req} (h : s.steward r = true) (h0 : s.stageWhy ≠ 0) (h4 : s.stageWhy ≠ 4) (h5 : s.stageWhy ≠ 5) :
    Sets (.cfgStage r) s [(R.CFG.REASON.CODE, s.stageWhy)] := by
  rw [Sets]
  have hx := exec_cfgStage h
  rw [showStgerr_quiet h4 h5, State.cfgCommand, command_refused h h0] at hx
  exact does_of_whilePowered hx fun _ => ⟨rfl, (FieldsSet.refl s).put R.CFG.REASON.CODE _ rfl⟩

theorem exec_cfgStage_index {s : State} {r : Req} {k : Nat} (h : s.steward r = true) (h0 : s.stageWhy ≠ 0)
    (hk : s.showStgerr s.stageWhy = s.set R.CFG.STGERR.INDEX k) :
    Sets (.cfgStage r) s [(R.CFG.REASON.CODE, s.stageWhy), (R.CFG.STGERR.INDEX, k)] := by
  have hx := exec_cfgStage h
  rw [hk, State.cfgCommand, command_refused (by exact h) h0] at hx
  exact does_of_whilePowered hx fun _ => ⟨rfl,
    (((FieldsSet.refl s).put R.CFG.STGERR.INDEX k rfl).put R.CFG.REASON.CODE _ rfl).reorder (List.Perm.swap ..)⟩

/-- The outcome of STAGE where an image is staged. -/
theorem stageWhy_eq {s : State} {m : NvImage} (hm : s.nv.staged = some m) :
    s.stageWhy = firstReason [(2, !nvFrame m 0x7A310C01), (3, m.cfgver = 0 || m.cfgver = s.reg R.CFG.CURVER.CFGVER.off), (4, !m.entries.all entryFits),
      (5, s.get R.CFG.EXPERT.UNLK = 0 && s.expertDiff m != [])] := by
  unfold State.stageWhy State.stagedOk State.expertLocked
  rw [hm]

theorem noWork_eq (s : State) : s.noWork = (s.mstate = .safe || s.mstate = .recovery || s.mstate = .init ||
    (s.mstate = .run && (s.role = .standby || s.role = .fenced)) || s.get R.BIST.LCS.STATE = 3 || s.get R.BIST.LCS.STATE = 1) := by
  rw [State.noWork, State.depot, ← Bool.or_assoc]
  rfl

/-! ### What the other commands write -/

theorem lockExpert_fields {s t : State} {l : List (Fld × Nat)} (h : FieldsSet s t l) (hl : besides R.CFG.EXPERT.UNLK l = true)
    (hl' : besides R.CFG.EXPERT.TLEFT (l ++ [(R.CFG.EXPERT.UNLK, 0)]) = true) :
    FieldsSet s t.lockExpert (l ++ [(R.CFG.EXPERT.UNLK, 0)] ++ [(R.CFG.EXPERT.TLEFT, 0)]) := (h.put _ 0 hl).put _ 0 hl'

theorem preqGet_preqSet (s : State) (q r : Req) (o o' : Nat) (v : W32) :
    (s.preqSet r o v).preqGet q o' = if q = r ∧ o' = o then v else s.preqGet q o' := by
  rw [State.preqGet, State.preqSet, fileGet_put]
  by_cases h : q = r ∧ o' = o
  · rw [if_pos h, if_pos (by rw [h.1, h.2])]
  · rw [if_neg h, if_neg (reqKey_ne (by simpa [or_iff_not_imp_left] using h)), State.preqGet]

/-- The accepted STAGE shows the version held. -/
theorem exec_cfgStage_accepted {s : State} {r : Req} {m : NvImage} (h : s.steward r = true) (hm : s.nv.staged = some m) (h0 : s.stageWhy = 0) :
    Sets (.cfgStage r) s [(R.CFG.REASON.CODE, 0), (R.CFG.CMD.CODE, 1), (R.CFG.CMDCNT.COUNT, s.get R.CFG.CMDCNT.COUNT + 1), (R.CFG.STATUS.STGV, 1),
      (R.CFG.STGVER.CFGVER, m.cfgver.toNat)] := by
  have hx := exec_cfgStage h
  rw [h0, showStgerr_quiet (by decide) (by decide), State.cfgCommand, command_accepted h rfl] at hx
  have hnv : (((s.set R.CFG.REASON.CODE 0).set R.CFG.CMD.CODE 1).inc R.CFG.CMDCNT.COUNT).nv.staged = some m := by
    simp only [State.inc, State.set_nv, hm]
  rw [hnv] at hx
  exact does_of_whilePowered hx fun _ =>
    ((command_fields s R.CFG.CMD.CODE R.CFG.CMDCNT.COUNT R.CFG.REASON.CODE 1 rfl rfl rfl).put R.CFG.STATUS.STGV 1 rfl).put R.CFG.STGVER.CFGVER _ rfl

/-- An expert change whose field no entry names leaves a free index. -/
theorem exec_cfgStage_free {s : State} {r : Req} {m : NvImage} (h : s.steward r = true) (hm : s.nv.staged = some m) (h5 : s.stageWhy = 5)
    (hany : (m.entries.any fun e => (s.expertDiff m).any fun f => coversFld e f) = false) :
    Does (.cfgStage r) s fun t => ∃ v, t = { s with regs := t.regs, free := s.free + 1 } ∧
      FieldsSet s t [(R.CFG.REASON.CODE, 5), (R.CFG.STGERR.INDEX, v)] := by
  have hx := exec_cfgStage h
  rw [h5, showStgerr_free hm (firstIndex_eq_none hany), State.cfgCommand, command_refused (by exact h) (by decide)] at hx
  have hf : FieldsSet s (s.fresh 32).2 [] := (FieldsSet.refl s).of_regs rfl
  exact does_of_whilePowered hx fun _ => ⟨_, rfl,
    ((hf.put R.CFG.STGERR.INDEX _ rfl).put R.CFG.REASON.CODE 5 rfl).reorder (List.Perm.swap ..)⟩

/-! ### The challenge and the key -/

theorem readExpchal_preqGet (s : State) (q r : Req) (off : Nat) :
    (s.readExpchal r).2.preqGet q off = if q = r ∧ off = R.CFG.EXPCHAL.CHAL.off + 1 then 1
      else if q = r ∧ off = R.CFG.EXPCHAL.CHAL.off then (s.readExpchal r).1 else s.preqGet q off := by
  unfold State.readExpchal
  rw [preqGet_preqSet, preqGet_preqSet]
  rfl

theorem exec_expchalRead {s : State} {r : Req} (h : s.shut r = false) :
    exec (.expchalRead r) s = s.whilePowered { (s.readExpchal r).2 with resp := if isEng r then s.resp else some (s.readExpchal r).1 } := by
  show s.whilePowered _ = _
  rw [if_neg (by rw [h]; decide)]
  cases h : isEng r <;> rfl

theorem preqSet_get (s : State) (r : Req) (off : Nat) (v : W32) (f : Fld) : (s.preqSet r off v).get f = s.get f := rfl

/-- What a right key writes. -/
theorem unlock_fields (s : State) (n : Nat) :
    OnlyFields s ((((s.set R.CFG.REASON.CODE 0).inc R.CFG.CMDCNT.COUNT).set R.CFG.EXPERT.UNLK 1).set R.CFG.EXPERT.TLEFT n)
      [(R.CFG.REASON.CODE, 0), (R.CFG.CMDCNT.COUNT, s.get R.CFG.CMDCNT.COUNT + 1), (R.CFG.EXPERT.UNLK, 1), (R.CFG.EXPERT.TLEFT, n)] :=
  ((((OnlyFields.refl s).put R.CFG.REASON.CODE 0 rfl).count R.CFG.CMDCNT.COUNT rfl).put R.CFG.EXPERT.UNLK 1 rfl).put R.CFG.EXPERT.TLEFT n rfl

/-- A key uses the challenge up; what else it writes are registers. -/
theorem keyAnswered {s u : State} {r : Req} {key : W32} {l : List (Fld × Nat)} (hexec : exec (.expkeyWrite r key) s = s.whilePowered u)
    (h : OnlyFields (s.preqSet r (R.CFG.EXPCHAL.CHAL.off + 1) 0) u l) :
    Does (.expkeyWrite r key) s fun t => t = { s with regs := t.regs, preq := t.preq } ∧ FieldsSet s t l ∧
      t.preqGet r (R.CFG.EXPCHAL.CHAL.off + 1) = 0 ∧
      ∀ q off, (q ≠ r ∨ off ≠ R.CFG.EXPCHAL.CHAL.off + 1) → t.preqGet q off = s.preqGet q off := by
  obtain ⟨hu, hf⟩ := h
  have hpreq (q : Req) (off : Nat) : u.preqGet q off = (s.preqSet r (R.CFG.EXPCHAL.CHAL.off + 1) 0).preqGet q off := by
    rw [State.preqGet, State.preqGet, hu]
  refine does_of_whilePowered hexec fun _ => ⟨hu.trans (by rw [hu]; rfl), hf, ?_, fun q off hq => ?_⟩
  · rw [hpreq, preqGet_preqSet, if_pos ⟨rfl, rfl⟩]
  · rw [hpreq, preqGet_preqSet, if_neg fun h => hq.elim (· h.1) (· h.2)]

/-- The requester holds an open challenge and the key fits it. -/
theorem rightKey_iff (s : State) (r : Req) (key : W32) :
    (s.expchalOpen r && key = s.expKey r) = true ↔
      s.preqGet r (R.CFG.EXPCHAL.CHAL.off + 1) ≠ 0 ∧ key = s.preqGet r R.CFG.EXPCHAL.CHAL.off ^^^ 0x7E5A1C3B := by
  rw [Bool.and_eq_true, decide_eq_true_iff, State.expchalOpen, bne_iff_ne]
  rfl

theorem exec_expkeyWrite_right {s : State} {r : Req} {key : W32} (hst : s.steward r = true) (h : (s.expchalOpen r && key = s.expKey r) = true) :
    exec (.expkeyWrite r key) s = s.whilePowered
      (((((s.preqSet r (R.CFG.EXPCHAL.CHAL.off + 1) 0).set R.CFG.REASON.CODE 0).inc R.CFG.CMDCNT.COUNT).set R.CFG.EXPERT.UNLK 1).set
        R.CFG.EXPERT.TLEFT (inRange (s.get R.CFG.EXPCFG.TO) 1 120 15 * 60)) := by
  show s.whilePowered _ = _
  rw [if_neg (by rw [hst]; decide)]
  dsimp only
  rw [if_pos h]

theorem exec_expkeyWrite_wrong {s : State} {r : Req} {key : W32} (hst : s.steward r = true) (h : ¬ (s.expchalOpen r && key = s.expKey r) = true) :
    exec (.expkeyWrite r key) s = s.whilePowered ((s.preqSet r (R.CFG.EXPCHAL.CHAL.off + 1) 0).set R.CFG.REASON.CODE 8) := by
  show s.whilePowered _ = _
  rw [if_neg (by rw [hst]; decide)]
  dsimp only
  rw [if_neg h]

/-- Settles O56: each command is judged, and what it writes is read off the chain of its field writes. -/
theorem configurationCommandsAreJudged : Obligations.ConfigurationCommandsAreJudged := by
  intro s r m key k e judged locked idle why names stage chal right mins answered
  have hidle : s.noWork = idle := noWork_eq s
  refine ⟨fun hst => ⟨?_, ?_⟩, fun hst hnone => ?_, fun hst hm => ?_, ?_, ?_, ?_, ?_, ?_, ?_, ?_, ?_, ?_, ?_⟩
  · show s.whilePowered _ = _
    rw [if_neg (by rw [hst]; decide), State.cfgCommand, command_unmoved hst, whilePowered_self]
  · show s.whilePowered _ = _
    rw [if_pos (by rw [hst]; rfl), whilePowered_self]
  · have hw : s.stageWhy = 2 := by
      unfold State.stageWhy State.stagedOk
      rw [hnone]
      rfl
    have h := exec_cfgStage_refused hst (by rw [hw]; decide) (by rw [hw]; decide) (by rw [hw]; decide)
    rwa [hw] at h
  · have hw : s.stageWhy = why := stageWhy_eq hm
    clear_value why
    subst hw
    refine ⟨fun h0 => ?_, fun h23 => ?_, fun h4 hk he hlt => ?_, fun h5 hk he hlt => ?_, fun h5 hany => ?_⟩
    · exact exec_cfgStage_accepted hst hm h0
    · exact exec_cfgStage_refused hst (by omega) (by omega) (by omega)
    · have h := exec_cfgStage_index (k := k) hst (by omega) (showStgerr_index hm (.inl h4) ?_)
      · rwa [h4] at h
      · rw [if_pos h4]
        exact firstIndex_eq_some hk (by rw [he]; rfl) fun i x hi hx => by rw [hlt i x hi hx]; rfl
    · have h := exec_cfgStage_index (k := k) hst (by omega) (showStgerr_index hm (.inr h5) ?_)
      · rwa [h5] at h
      · rw [if_neg (by omega)]
        exact firstIndex_eq_some hk he hlt
    · exact exec_cfgStage_free hst hm h5 hany
  · rw [← hidle]
    exact judged_of_command rfl rfl fun g hf => ⟨by rfl, (hf.put R.CFG.STATUS.PEND 1 rfl).of_regs rfl⟩
  · rw [← hidle]
    exact judged_of_command rfl rfl fun g hf => ⟨by rfl, (hf.put R.CFG.STATUS.PEND 2 rfl).of_regs rfl⟩
  · exact judged_of_command rfl rfl fun g hf => ⟨by rfl, (hf.put R.CFG.STATUS.STGV 0 rfl).put R.CFG.STGVER.CFGVER 0 rfl⟩
  · exact judged_of_command rfl rfl fun g hf => ⟨by rfl, lockExpert_fields hf rfl rfl⟩
  · rintro rfl hses
    refine does_of_whilePowered (t := { s with resp := some 0 }) ?_ fun _ => rfl
    show s.whilePowered _ = _
    rw [if_pos (shut_iff.2 ⟨rfl, hses⟩)]
  · intro hopen
    have hget := readExpchal_preqGet s
    refine does_of_whilePowered (exec_expchalRead (not_shut_iff.2 hopen)) fun _ => ⟨(s.readExpchal r).1, rfl, ?_, ?_, fun q off hq => ?_⟩
    · refine (hget r r _).trans ?_
      rw [if_neg (fun h => absurd h.2 (by decide)), if_pos ⟨rfl, rfl⟩]
    · refine (hget r r _).trans ?_
      rw [if_pos ⟨rfl, rfl⟩]
    · refine (hget q r _).trans ?_
      rw [if_neg fun h => hq.elim (· h.1) fun ho => ho.2 h.2, if_neg fun h => hq.elim (· h.1) fun ho => ho.1 h.2]
  · intro hst hright
    have hf := unlock_fields (s.preqSet r (R.CFG.EXPCHAL.CHAL.off + 1) 0) (inRange (s.get R.CFG.EXPCFG.TO) 1 120 15 * 60)
    rw [preqSet_get] at hf
    rw [show 60 * mins = inRange (s.get R.CFG.EXPCFG.TO) 1 120 15 * 60 from Nat.mul_comm ..]
    exact keyAnswered (exec_expkeyWrite_right hst ((rightKey_iff s r key).2 hright)) hf
  · intro hst hright
    have hf := (OnlyFields.refl (s.preqSet r (R.CFG.EXPCHAL.CHAL.off + 1) 0)).put R.CFG.REASON.CODE 8 rfl
    exact keyAnswered (exec_expkeyWrite_wrong hst (mt (rightKey_iff s r key).1 hright)) hf
  · intro h0
    refine does_of_whilePowered (t := s.lockExpert) ?_ fun _ => ⟨rfl, lockExpert_fields (.refl s) rfl rfl⟩
    show s.whilePowered _ = _
    rw [if_pos h0]
  · intro h0
    show s.whilePowered _ = _
    rw [if_neg h0, whilePowered_self]

end Sys2Proof.Machine
end

section
/-! PROOF. Force commands, the directory sweep and the steward's signals (R59, R69, R72 to R74, R196, R260, R342). -/

namespace Sys2Proof.Machine

/-! ### Word 3 (Table 3-6) -/

theorem word3_toNat (stamp q : Nat) : (word3 stamp q).toNat = stamp % 2 ^ 24 * 256 + q % 64 := by
  rw [word3, BitVec.toNat_ofNat]
  omega

theorem word3_stamp (stamp q : Nat) : fieldOf (word3 stamp q) 8 24 = stamp % 2 ^ 24 := by
  rw [fieldOf, word3_toNat]
  omega

/-- A quality field of word 3. -/
theorem word3_qual (stamp q : Nat) {lo w : Nat} (h : lo + w ≤ 6) : fieldOf (word3 stamp q) lo w = q % 64 / 2 ^ lo % 2 ^ w := by
  refine Nat.eq_of_testBit_eq fun i => ?_
  rw [fieldOf_testBit, word3_toNat, Nat.mul_comm, Nat.testBit_mod_two_pow, Nat.testBit_div_two_pow, Nat.add_comm lo i]
  by_cases hi : i < w
  · rw [show (256 : Nat) = 2 ^ 8 from rfl, Nat.testBit_two_pow_mul_add _ (by omega), if_pos (by omega)]
  · simp [hi]

/-- The quality fields of an entry, as its QUAL holds them. -/
theorem fieldOf_qual (e : DirEnt) {lo w : Nat} (h : lo + w ≤ 6) : e.qual.toNat / 2 ^ lo % 2 ^ w = fieldOf e.w3 lo w := by
  have hq : e.qual.toNat = fieldOf e.w3 0 6 := by
    rw [DirEnt.qual, BitVec.toNat_ofNat]
    exact Nat.mod_eq_of_lt (fieldOf_lt ..)
  refine Nat.eq_of_testBit_eq fun i => ?_
  rw [hq, Nat.testBit_mod_two_pow, Nat.testBit_div_two_pow, fieldOf_testBit, fieldOf_testBit, Nat.zero_add, Nat.add_comm lo i]
  by_cases hi : i < w
  · simp [show i + lo < 6 by omega]
  · simp [hi]

/-- STALE is set, VALID and SAFE are cleared, the rest of the quality and STAMP are kept. -/
theorem setStale_fields (e : DirEnt) :
    fieldOf e.setStale.w3 8 24 = e.stamp ∧ fieldOf e.setStale.w3 3 1 = 1 ∧ fieldOf e.setStale.w3 0 1 = 0 ∧ fieldOf e.setStale.w3 4 1 = 0 ∧
      fieldOf e.setStale.w3 1 2 = fieldOf e.w3 1 2 ∧ fieldOf e.setStale.w3 5 1 = fieldOf e.w3 5 1 := by
  have bits : ∀ q : BitVec 6, (q.toNat &&& 0x26 ||| 8) % 64 / 2 ^ 3 % 2 ^ 1 = 1 ∧ (q.toNat &&& 0x26 ||| 8) % 64 / 2 ^ 0 % 2 ^ 1 = 0 ∧
      (q.toNat &&& 0x26 ||| 8) % 64 / 2 ^ 4 % 2 ^ 1 = 0 ∧ (q.toNat &&& 0x26 ||| 8) % 64 / 2 ^ 1 % 2 ^ 2 = q.toNat / 2 ^ 1 % 2 ^ 2 ∧
      (q.toNat &&& 0x26 ||| 8) % 64 / 2 ^ 5 % 2 ^ 1 = q.toNat / 2 ^ 5 % 2 ^ 1 := by decide
  obtain ⟨b3, b0, b4, b1, b5⟩ := bits e.qual
  rw [DirEnt.setStale]
  dsimp only
  rw [word3_stamp, word3_qual _ _ (by decide), word3_qual _ _ (by decide), word3_qual _ _ (by decide), word3_qual _ _ (by decide),
    word3_qual _ _ (by decide), ← fieldOf_qual e (by decide), ← fieldOf_qual e (by decide)]
  exact ⟨Nat.mod_eq_of_lt (fieldOf_lt ..), b3, b0, b4, b1, b5⟩

/-- An update by a source that is good, not SAFE and no substitute. -/
theorem update_fields (e : DirEnt) (frame : Nat) (val : List Byte) :
    let w3 := (e.update frame val ⟨true, false, false⟩).w3
    fieldOf w3 8 24 = frame % 2 ^ 24 ∧ fieldOf w3 0 1 = 1 ∧ fieldOf w3 1 1 = fieldOf e.w3 1 1 ∧ fieldOf w3 2 4 = 0 := by
  have hforced : fieldOf e.w3 1 1 = b2n e.forced := by
    have h2 : fieldOf e.w3 1 1 < 2 := fieldOf_lt ..
    rw [DirEnt.forced, b2n]
    split
    · next h => exact of_decide_eq_true h
    · next h => simp only [decide_eq_true_eq] at h; omega
  have hqual : updQual e ⟨true, false, false⟩ = 1 + 2 * b2n e.forced := by simp [updQual, b2n]
  rw [DirEnt.update]
  dsimp only
  rw [word3_stamp, word3_qual _ _ (by decide), word3_qual _ _ (by decide), word3_qual _ _ (by decide), hforced, hqual]
  cases e.forced <;> exact ⟨rfl, rfl, rfl, rfl⟩

/-! ### What a channel receives -/

theorem xorBytes_zero (l : List Byte) : xorBytes 0 l = l := by
  unfold xorBytes
  exact if_pos rfl

/-! ### The sweep -/

/-- The age of an entry exceeds its limit. -/
theorem tooOld_iff (e : DirEnt) (f pNs : Nat) :
    e.tooOld f pNs = true ↔ e.fresh ≠ 0 ∧ min (e.fresh * e.funit) (2 ^ 20 * pNs) < (f + 2 ^ 24 - e.stamp) % 2 ^ 24 * pNs := by
  rw [DirEnt.tooOld, Bool.and_eq_true, bne_iff_ne, decide_eq_true_iff]

/-- The freshness check of one signal in one channel. -/
def Chan.freshen (c : Chan) (frame pNs id : Nat) : Chan :=
  match tblFind c.dir id with
  | some e => if e.type != 0 && e.tooOld frame pNs then { c with dir := tblPut c.dir id e.setStale } else c
  | none => c

theorem freshen_other (c : Chan) (frame pNs : Nat) {id k : Nat} (h : k ≠ id) : tblFind (c.freshen frame pNs id).dir k = tblFind c.dir k := by
  unfold Chan.freshen
  split
  · split
    · exact (tblFind_put ..).trans (if_neg h)
    · rfl
  · rfl

theorem freshen_old {c : Chan} {frame pNs id : Nat} {e : DirEnt} (he : tblFind c.dir id = some e) (ht : e.type ≠ 0)
    (ho : e.tooOld frame pNs = true) : tblFind (c.freshen frame pNs id).dir id = some e.setStale := by
  unfold Chan.freshen
  rw [he]
  dsimp only
  rw [if_pos (by simp [ht, ho])]
  exact (tblFind_put ..).trans (if_pos rfl)

theorem freshCheck_eq {s : State} {id : Nat} {e : DirEnt} (he : s.dirEnt id = some e) (ht : e.type ≠ 0) (ho : e.tooOld s.gong.frame s.pNs = true) :
    s.freshCheck id =
      let t := s.mapCh s.follows (·.freshen s.gong.frame s.pNs id)
      if fieldOf e.w3 3 1 = 0 then (t.incSat R.SIG.STALECNT.COUNT).flag R.SIG.FLAG.STALE else t := by
  rw [State.dirEnt] at he
  rw [State.freshCheck, he]
  dsimp only
  by_cases h : fieldOf e.w3 3 1 = 0
  · rw [if_pos h]
    exact if_pos (by simp [ht, ho, h])
  · rw [if_neg h]
    exact if_neg (by simp [h])

/-- A transition to STALE is counted and flagged. -/
theorem stale_counted (s : State) :
    OnlyFields s ((s.incSat R.SIG.STALECNT.COUNT).flag R.SIG.FLAG.STALE)
      [(R.SIG.STALECNT.COUNT, min (s.get R.SIG.STALECNT.COUNT + 1) (2 ^ 32 - 1)), (R.SIG.FLAG.STALE, 1)] :=
  ((OnlyFields.refl s).put R.SIG.STALECNT.COUNT _ rfl).put R.SIG.FLAG.STALE 1 rfl

theorem mapCh_frame (s : State) (p : Ch → Bool) (f : Chan → Chan) :
    s.mapCh p f = { s with chA := (s.mapCh p f).chA, chB := (s.mapCh p f).chB, chC := (s.mapCh p f).chC } := by
  rw [mapCh_eq, eachCh_eq]

/-- The sweep of an entry that is too old. -/
theorem freshCheck_spec {s : State} {id : Nat} {e : DirEnt} (he : s.dirEnt id = some e) (ht : e.type ≠ 0)
    (ho : e.tooOld s.gong.frame s.pNs = true) :
    let t := s.freshCheck id
    t = { s with regs := t.regs, chA := t.chA, chB := t.chB, chC := t.chC } ∧
      (∀ ch, t.ch ch = if s.follows ch then (s.ch ch).freshen s.gong.frame s.pNs id else s.ch ch) ∧
      (fieldOf e.w3 3 1 = 0 → FieldsSet s t [(R.SIG.STALECNT.COUNT, min (s.get R.SIG.STALECNT.COUNT + 1) (2 ^ 32 - 1)), (R.SIG.FLAG.STALE, 1)]) ∧
      (fieldOf e.w3 3 1 ≠ 0 → t.regs = s.regs) := by
  rw [freshCheck_eq he ht ho]
  have hf := mapCh_frame s s.follows (·.freshen s.gong.frame s.pNs id)
  have hch := mapCh_ch s s.follows (·.freshen s.gong.frame s.pNs id)
  generalize s.mapCh s.follows (·.freshen s.gong.frame s.pNs id) = u at hf hch ⊢
  have hregs : u.regs = s.regs := by rw [hf]
  have hget (f : Fld) : u.get f = s.get f := by rw [State.get, State.reg, hregs, State.get, State.reg]
  by_cases h : fieldOf e.w3 3 1 = 0
  · rw [if_pos h]
    obtain ⟨hu, hset⟩ := stale_counted u
    generalize (u.incSat R.SIG.STALECNT.COUNT).flag R.SIG.FLAG.STALE = t at hu hset ⊢
    refine ⟨?_, fun ch => ?_, fun _ => ?_, fun hn => absurd h hn⟩
    · rw [hu, hf]
    · rw [← hch ch, hu]
      cases ch <;> rfl
    · rw [hget] at hset
      exact ⟨hset.1, fun f hf' => (hset.2 f hf').trans (hget f)⟩
  · rw [if_neg h]
    exact ⟨by rw [hf], hch, fun h0 => absurd h0 h, fun _ => hregs⟩

/-! ### Updates (R59) -/

theorem Chan.input_other (c : Chan) (frame : Nat) {id k : Nat} (val : List Byte) (src : Src) (h : k ≠ id) :
    tblFind (c.input frame id val src).dir k = tblFind c.dir k := by
  unfold Chan.input
  split
  · rfl
  · exact (tblFind_put ..).trans (if_neg h)

theorem Chan.input_same {c : Chan} {frame id : Nat} {val : List Byte} {src : Src} {e : DirEnt} (he : tblFind c.dir id = some e) :
    tblFind (c.input frame id val src).dir id = some (e.update frame val src) := by
  unfold Chan.input
  rw [he]
  exact (tblFind_put ..).trans (if_pos rfl)

theorem noteBattery_eq (s : State) (id : Nat) (val : List Byte) (src : Src) :
    s.noteBattery id val src = { s with upd := { s.upd with
      bat := if id ≠ 0 ∧ s.get R.UPD.CFG.BATSIG = id then some (decide (leNat val % 2 = 1), src.good && !src.subst) else s.upd.bat } } := by
  rw [State.noteBattery]
  split <;> rfl

/-- An update of a signal of HOME 4 or 5: every channel that follows takes it, and it goes with the next copy. -/
theorem input_spec {s : State} {id : Nat} {e : DirEnt} (he : s.dirEnt id = some e) (hh : e.home = 4 ∨ e.home = 5) (val : List Byte) (src : Src) :
    let t := s.input id val src
    t = { s with
      chA := t.chA, chB := t.chB, chC := t.chC, upd := { s.upd with bat := t.upd.bat }, pair := { s.pair with touched := t.pair.touched } } ∧
      id ∈ t.pair.touched ∧ t.upd.bat = (s.noteBattery id val src).upd.bat ∧
      ∀ ch, t.ch ch = if s.follows ch then (s.ch ch).input s.gong.frame id (s.receivedBytes ch val) src else s.ch ch := by
  rw [State.dirEnt] at he
  rw [State.input, he]
  dsimp only
  rw [noteBattery_eq, eachCh_eq]
  by_cases hm : s.pair.touched.contains id = true
  · rw [if_neg (by simpa [hh] using hm)]
    exact ⟨rfl, List.contains_iff_mem.1 hm, rfl, fun ch => by cases ch <;> rfl⟩
  · rw [if_pos (by simpa [hh] using hm)]
    exact ⟨rfl, List.mem_cons_self .., rfl, fun ch => by cases ch <;> rfl⟩

/-! ### Force commands -/

theorem late_eq (s : State) : (!s.initOrRun) = (s.mstate != .init && s.mstate != .run) := by
  rw [State.initOrRun, Bool.not_or]
  rfl

/-- The outcome of SET on a signal that is defined. -/
theorem setWhy_defined {s : State} {id : Nat} {e : DirEnt} (he : s.dirEnt id = some e) (ht : e.type ≠ 0) :
    s.setWhy id = firstReason [(3, e.isBytes), (4, !(s.forcesAfter.any fun f => f.id = id) && decide (1024 ≤ s.forcesAfter.length)),
      (5, 1 ≤ e.sclass && e.sclass ≤ 4 && !s.depot), (7, s.mstate != .init && s.mstate != .run)] := by
  rw [State.setWhy, he, late_eq]
  exact if_neg (by simpa using ht)

theorem setWhy_undefined {s : State} {id : Nat} (h : (s.dirEnt id).filter (fun e => e.type != 0) = none) : s.setWhy id = 2 := by
  rw [State.setWhy]
  rcases hd : s.dirEnt id with _ | e
  · rfl
  · rw [hd] at h
    have ht : e.type = 0 := by simpa using h
    exact if_pos (by simpa using ht)

/-- Settles O39: force commands are judged and wait; the sweep and the steward's write go through the lemmas about one entry. -/
theorem forcesSweepsAndStewardWritesAct : Obligations.ForcesSweepsAndStewardWritesAct := by
  constructor
  · intro s r id v there t forced late judged
    have hlate : (!s.initOrRun) = late := late_eq s
    refine ⟨?_, ?_, fun hnone hst => ?_, fun e he => ?_⟩
    · rw [← hlate]
      exact judged_of_command_rest rfl rfl fun g => rfl
    · rw [← hlate]
      exact judged_of_command_rest rfl rfl fun g => rfl
    · have hx : exec (.forceSet r) s = s.whilePowered (s.force r 1 (s.setWhy id) _) := rfl
      rw [setWhy_undefined hnone, State.force, command_refused hst (by decide)] at hx
      exact does_of_whilePowered hx fun _ => (OnlyFields.refl s).put R.SIG.FREASON.CODE 2 rfl
    · obtain ⟨hd, ht⟩ := Option.filter_eq_some_iff.1 he
      rw [← setWhy_defined hd (by simpa using ht)]
      exact judged_of_command_rest rfl rfl fun g => rfl
  · intro s id e value limit age old stored within others he
    have hfull : s.home5Full e.size = true ↔ ¬ within := by
      rw [State.home5Full, decide_eq_true_iff]
      omega
    refine ⟨fun hal hold => ?_, fun hal => ?_, fun ht hh hw => ?_, fun hno => ?_⟩
    · have aged {x : DirEnt} (hx : old x) : x.tooOld s.gong.frame s.pNs = true := (tooOld_iff ..).2 hx.2
      obtain ⟨hs, hch, hcount, hkept⟩ := freshCheck_spec he hold.1 (aged hold)
      refine does_of_whilePowered (t := s.freshCheck id) (congrArg s.whilePowered (if_pos hal)) fun _ => ⟨hs, fun ch k hk => ?_, hcount, fun h1 => hkept (by omega),
        fun ch x hf hx hold' => ⟨x.setStale.w3, ?_, setStale_fields x⟩⟩
      · rw [hch]
        split
        exacts [freshen_other _ _ _ hk, rfl]
      · rw [hch, if_pos hf]
        exact freshen_old hx hold'.1 (aged hold')
    · rw [Ignored, ← whilePowered_self]
      exact congrArg s.whilePowered (if_neg (by omega))
    · have hstored : e.stores value = stored := rfl
      have hx : exec (.stewardSignalWrite id value) s = s.whilePowered ((s.countHome5 e.size).input id stored ⟨true, false, false⟩) := by
        have hif : (e.type != 0 && e.home = 5 && !s.home5Full e.size) = true := by
          rw [Bool.eq_false_iff.2 (mt hfull.1 (not_not_intro hw))]
          simp [ht, hh]
        refine congrArg s.whilePowered ?_
        rw [he]
        exact if_pos hif
      obtain ⟨hs, htouched, hbat, hch⟩ := input_spec (s := s.countHome5 e.size) he (.inr hh) stored ⟨true, false, false⟩
      rw [noteBattery_eq] at hbat
      refine does_of_whilePowered hx fun _ => ⟨hs, fun ch k hk => ?_, htouched, fun h0 hb => ?_, fun hb => ?_, fun ch x hf hx => ⟨fun hw => ?_, ?_⟩⟩
      · rw [hch]
        split
        · rw [Chan.input_other _ _ _ _ hk]
          cases ch <;> rfl
        · cases ch <;> rfl
      · exact hbat.trans (if_pos ⟨h0, hb⟩)
      · exact hbat.trans (if_neg fun h => hb h.2)
      · rw [State.receivedBytes, hw, xorBytes_zero]
      · refine ⟨_, ?_, update_fields x s.gong.frame (s.receivedBytes ch stored)⟩
        rw [hch, if_pos (by exact hf)]
        have hx' : tblFind ((s.countHome5 e.size).ch ch).dir id = some x := by rw [← hx]; cases ch <;> rfl
        rw [Chan.input_same hx']
        rfl
    · have hif : ¬ (e.type != 0 && e.home = 5 && !s.home5Full e.size) = true := by
        rcases hno with h | h | h
        · simp [h]
        · simp [h]
        · simp [hfull.2 h]
      rw [Ignored, ← whilePowered_self]
      refine congrArg s.whilePowered ?_
      rw [he]
      exact if_neg hif

end Sys2Proof.Machine
end

section
/-! PROOF. What a tick leaves alone: the queue, and in RUN, unless it ends in SAFE, the words of the role, the outputs and the bridge's duties (R28 to R53, R203). -/

namespace Sys2Proof.Machine

/-! ### The relation -/

/-- The words of the state, the role, the outputs and the bridge's duties. -/
def quietOffs : List Nat := [R.SUP.STATE.all.off, R.PAIR.ROLE.all.off, R.SIO.OSTATE.all.off, R.BRG.STATUS.all.off]

/-- The fields of those words, of the state's word MSTATE alone. -/
def QuietFld (f : Fld) : Prop := f = R.SUP.STATE.MSTATE ∨ (f.off ∈ quietOffs ∧ f.off ≠ R.SUP.STATE.all.off)

theorem QuietFld.off {f : Fld} (h : QuietFld f) : f.off ∈ quietOffs := h.elim (fun h => by rw [h]; decide) (·.1)

/-- The queue waits on, and unless the module has entered SAFE its state, role, outputs, duties and yield are as they were. -/
def Quiet (s t : State) : Prop :=
  t.pending = s.pending ∧ (t.mstate = .safe ∨ (t.pair.yield = s.pair.yield ∧ ∀ f, QuietFld f → t.get f = s.get f))

theorem mstate_congr {s t : State} (h : t.get R.SUP.STATE.MSTATE = s.get R.SUP.STATE.MSTATE) : t.mstate = s.mstate := congrArg mstateOf h

/-! ### SAFE and the queue -/

theorem outputsOff_pending (s : State) : s.outputsOff.pending = s.pending := by rw [(outputsOff_spec s).1.1]

theorem dropWork_pending (s : State) : s.dropWork.pending = s.pending := by rw [dropWork_eq]

theorem giveUpDuties_pending (s : State) : s.giveUpDuties.pending = s.pending := by rw [(giveUpDuties_spec s).1.1]

theorem enterSafe_pending (s : State) (code : Nat) : (s.enterSafe code).pending = s.pending := by
  have hsol : (s.solfatara code).pending = s.pending := outputsOff_pending s
  simp only [State.enterSafe, State.toState, State.enterState, State.leaveRole, State.fumarole_pending, State.set_pending, giveUpDuties_pending, dropWork_pending,
    hsol]

theorem decideCause_pending (s : State) (code detail : Nat) : (s.decideCause code detail).pending = s.pending := by
  simp only [State.decideCause, State.flag, State.inc, State.set_pending, State.fumarole_pending]

namespace Quiet

variable {s t u : State}

theorem refl (s : State) : Quiet s s := ⟨rfl, .inr ⟨rfl, fun _ _ => rfl⟩⟩

theorem trans (h : Quiet s t) (k : Quiet t u) : Quiet s u := by
  obtain ⟨hp, h⟩ := h
  obtain ⟨kp, k⟩ := k
  refine ⟨kp.trans hp, ?_⟩
  rcases k with k | ⟨ky, kf⟩
  · exact .inl k
  · rcases h with h | ⟨hy, hf⟩
    · exact .inl ((mstate_congr (kf _ (.inl rfl))).trans h)
    · exact .inr ⟨ky.trans hy, fun f hq => (kf f hq).trans (hf f hq)⟩

/-- Whatever leaves registers, queue and yield alone. -/
theorem rest (h : Quiet s t) (hp : u.pending = t.pending) (hr : u.regs = t.regs) (hy : u.pair.yield = t.pair.yield) : Quiet s u :=
  h.trans ⟨hp, .inr ⟨hy, fun f _ => get_congr hr f⟩⟩

theorem withVote (h : Quiet s t) (v : VoteSt) : Quiet s { t with vote := v } := h.rest rfl rfl rfl

theorem withSeqr (h : Quiet s t) (v : SeqSt) : Quiet s { t with seqr := v } := h.rest rfl rfl rfl

theorem ite {c : Prop} [Decidable c] {a b : State} (ha : Quiet s a) (hb : Quiet s b) : Quiet s (if c then a else b) := by
  split <;> assumption

theorem foldl {α : Type} {f : State → α → State} (l : List α) (h : Quiet s t) (hf : ∀ t, ∀ a ∈ l, Quiet t (f t a)) : Quiet s (l.foldl f t) := by
  induction l generalizing t with
  | nil => exact h
  | cons a l ih => exact ih (h.trans (hf t a (List.mem_cons_self ..))) fun t b hb => hf t b (List.mem_cons_of_mem _ hb)

theorem forN (n : Nat) {f : State → Nat → State} (h : Quiet s t) (hf : ∀ t i, i < n → Quiet t (f t i)) : Quiet s (forN n t f) :=
  .foldl _ h fun t i hi => hf t i (List.mem_range.1 hi)

/-- A write to another word. -/
theorem set (h : Quiet s t) (f : Fld) (n : Nat) (hf : quietOffs.contains f.off = false) : Quiet s (t.set f n) := by
  refine h.trans ⟨State.set_pending .., .inr ⟨by rw [State.set_pair], fun g hg => ?_⟩⟩
  have apart : g.off ≠ f.off := fun he => by
    have hm := List.contains_iff_mem.2 hg.off
    rw [he, hf] at hm
    cases hm
  rw [State.get, reg_set_ne t f n apart, State.get]

theorem setPair (h : Quiet s t) (lo hi : Fld) (n : Nat) (hl : quietOffs.contains lo.off = false)
    (hh : quietOffs.contains hi.off = false) : Quiet s (t.setPair lo hi n) := (h.set lo _ hl).set hi _ hh

theorem stopc (h : Quiet s t) (n : Nat) : Quiet s (t.set R.SUP.STATE.STOPC n) := by
  refine h.trans ⟨State.set_pending .., .inr ⟨by rw [State.set_pair], fun g hg => ?_⟩⟩
  rcases hg with rfl | ⟨-, hne⟩
  · exact get_set_apart _ _ rfl rfl
  · exact get_setReg_ne t _ hne

theorem eachCh (h : Quiet s t) (p : Ch → Bool) (f : Ch → Chan → Chan) : Quiet s (t.eachCh p f) := by
  rw [eachCh_eq]
  exact h.rest rfl rfl rfl

theorem mapCh (h : Quiet s t) (p : Ch → Bool) (f : Chan → Chan) : Quiet s (t.mapCh p f) := h.eachCh ..

theorem setCh (h : Quiet s t) (ch : Ch) (c : Chan) : Quiet s (t.setCh ch c) := by
  cases ch <;> exact h.rest rfl rfl rfl

theorem setChRec (h : Quiet s t) (ch : Ch) (c : ChRec) : Quiet s (t.setChRec ch c) := by
  cases ch <;> exact h.rest rfl rfl rfl

theorem fumarole (h : Quiet s t) (type src code : Nat) (data : List Byte) : Quiet s (t.fumarole type src code data) := by
  refine (h.set R.SUP.FUMSEQ.SEQ (t.get R.SUP.FUMSEQ.SEQ + 1) rfl).rest (by simp) ?_ (by simp)
  simp only [State.fumarole, State.fumPut, State.inc_eq, Nat.add_comm]

theorem onlyBist (h : Quiet s t) (k : OnlyBist t u) : Quiet s u := by
  obtain ⟨hu, hget⟩ := k
  have low : ∀ o ∈ quietOffs, o < 0x100000 := by decide
  exact h.trans ⟨by rw [hu], .inr ⟨by rw [hu], fun f hf => hget f (low _ hf.off)⟩⟩

/-- A trigger that the module heeds ends in SAFE, any other writes its record alone. -/
theorem trigger (h : Quiet s t) (code detail : Nat) : Quiet s (t.trigger code detail) := by
  by_cases ha : Armed t
  · rw [trigger_of_armed ha]
    exact ⟨(enterSafe_pending ..).trans ((decideCause_pending ..).trans h.1), .inl (enterSafe_spec ..).mstate⟩
  · rw [trigger_of_not_armed ha]
    exact h.fumarole ..

end Quiet

/-! ### The stages of a tick -/

section

variable {s : State}

namespace Quiet

variable {t : State}

/-- The words of 16 targets' latches never fall on a word kept. -/
theorem evSetPrivate (h : Quiet s t) (k n : Nat) : Quiet s (t.evSetPrivate k n) := by
  refine h.set _ _ (Bool.eq_false_iff.2 fun hc => ?_)
  simp [quietOffs, R.EVC.PLAT.LAT, R.SUP.STATE.all, R.PAIR.ROLE.all, R.SIO.OSTATE.all, R.BRG.STATUS.all] at hc
  omega

theorem testCheck (h : Quiet s t) : Quiet s t.testCheck := h.onlyBist (testCheck_onlyBist t)

theorem testEnd (h : Quiet s t) (cause : Nat) : Quiet s (t.testEnd cause) := h.onlyBist (testEnd_onlyBist t cause)

theorem setForces (h : Quiet s t) (l : List ForceEnt) : Quiet s (t.setForces l) := by
  unfold State.setForces
  exact (h.mapCh t.follows _).rest rfl rfl rfl

theorem dropForces (h : Quiet s t) (ids : List Nat) : Quiet s (t.dropForces ids) := by
  unfold State.dropForces
  exact .ite h (.foldl _ ((h.setForces _).set R.SIG.FLAG.FDROP 1 rfl) fun t _ _ => (Quiet.refl t).fumarole ..)

theorem silTick (h : Quiet s t) : Quiet s t.silTick := by
  unfold State.silTick State.dropSil
  exact .ite ((h.dropForces _).rest rfl rfl rfl) h

theorem tickTriggers (h : Quiet s t) : Quiet s t.tickTriggers := by
  unfold State.tickTriggers
  have hlate : Quiet s (if t.mstate = .run ∧ t.get R.GONG.STATUS.PHASE < 4 then (t.flag R.GONG.FLAG.LATE).trigger 6 0 else t) :=
    .ite ((h.set _ _ rfl).trigger ..) h
  exact .ite (hlate.trigger ..) hlate

theorem showTick (h : Quiet s t) : Quiet s t.showTick := by
  unfold State.showTick
  exact (((h.setPair _ _ _ rfl rfl).set _ _ rfl).set R.GONG.STATUS.SLEW _ rfl).set _ _ rfl

theorem rephased (h : Quiet s t) (step : BitVec 64) : Quiet s (t.rephased step) := by
  unfold State.rephased
  exact .forN _ (((h.set R.GONG.FLAG.REPHASE _ rfl).set R.GONG.RPCNT.COUNT _ rfl).fumarole ..) fun t k _ => (Quiet.refl t).evSetPrivate ..

theorem gongAdvance (h : Quiet s t) : Quiet s t.gongAdvance := by
  unfold State.gongAdvance
  have hadv : Quiet s { t with gong := t.gong.advance t.pNs t.nowNs }.showTick := showTick (h.rest rfl rfl rfl)
  exact .ite (hadv.rephased _) hadv

theorem forceTick (h : Quiet s t) : Quiet s t.forceTick := by
  unfold State.forceTick
  have hforces := h.setForces (t.fcmds.foldl (forceApply (BitVec.ofNat 32 t.gong.frame)) t.forces)
  generalize t.setForces (t.fcmds.foldl (forceApply (BitVec.ofNat 32 t.gong.frame)) t.forces) = u at hforces ⊢
  exact .ite h (hforces.rest rfl rfl rfl)

theorem lcTick (h : Quiet s t) : Quiet s t.lcTick := by
  unfold State.lcTick
  split
  · exact h
  · next n _ =>
    extract_lets old b s1 s2 s3 w s4 s5
    have h1 : Quiet s s1 := h.rest rfl rfl rfl
    have h2 : Quiet s s2 := (h1.set R.BIST.LCS.STATE n rfl).set R.BIST.FLAG.LCCHG 1 rfl
    have h3 : Quiet s s3 := .ite h2.silTick h2
    have h4 : Quiet s s4 := .ite (h3.rest rfl rfl rfl) (.ite (h3.rest rfl rfl rfl) h3)
    have h5 : Quiet s s5 := .ite (h4.stopc _) h4
    exact (((h5.set R.CFG.EXPERT.UNLK 0 rfl).set R.CFG.EXPERT.TLEFT 0 rfl).testCheck).fumarole ..

theorem tickEdge (h : Quiet s t) : Quiet s t.tickEdge := h.tickTriggers.gongAdvance.forceTick.lcTick.silTick

theorem frameReset (h : Quiet s t) : Quiet s t.frameReset := by
  unfold State.frameReset
  exact (h.mapCh _ _).rest rfl rfl rfl

/-! The change of address -/

theorem bindAll (h : Quiet s t) : Quiet s t.bindAll := by
  unfold State.bindAll
  exact .foldl _ h fun t _ _ => .ite ((Quiet.refl t).rest rfl rfl rfl) (.refl t)

theorem showUcause (h : Quiet s t) : Quiet s t.showUcause := by
  unfold State.showUcause
  exact .ite h (h.set _ _ rfl)

theorem probe (h : Quiet s t) (addr : W32) : Quiet s (t.probe addr) := by
  unfold State.probe State.trailer
  split <;> exact h.rest rfl rfl rfl

theorem derive (h : Quiet s t) : Quiet s t.derive := by
  unfold State.derive
  extract_lets esub s1 s2 s3
  have h1 : Quiet s s1 := ((h.set _ _ rfl).set _ _ rfl).set _ _ rfl
  have h2 : Quiet s s2 := h1.showUcause
  exact .ite (.ite ((h2.probe _).probe _) (h2.probe _)) h2

theorem becomeAddressed (h : Quiet s t) : Quiet s t.becomeAddressed := by
  unfold State.becomeAddressed
  exact bindAll ((((h.set _ _ rfl).set _ _ rfl).set _ _ rfl).set _ _ rfl)

theorem becomeUnaddressed (h : Quiet s t) : Quiet s t.becomeUnaddressed := by
  unfold State.becomeUnaddressed State.unbindAll
  have hclr : Quiet s (((t.set R.ID.ASTAT.ADDR 0).set R.NET.STATUS.ADDR 0).set R.ID.UNITKEY.KEY 0) := ((h.set _ _ rfl).set _ _ rfl).set _ _ rfl
  generalize ((t.set R.ID.ASTAT.ADDR 0).set R.NET.STATUS.ADDR 0).set R.ID.UNITKEY.KEY 0 = u at hclr ⊢
  exact derive (hclr.rest rfl rfl rfl)

theorem addrTick (h : Quiet s t) : Quiet s t.addrTick := by
  unfold State.addrTick
  split
  · exact .ite (becomeAddressed (h.rest rfl rfl rfl)) h
  · exact h.becomeUnaddressed
  · exact .ite (bindAll (h.rest rfl rfl rfl)) h

theorem addrStep (h : Quiet s t) : Quiet s t.addrStep := by
  unfold State.addrStep
  exact .ite (h.addrTick.testEnd 4) h.addrTick

theorem netTick (h : Quiet s t) : Quiet s t.netTick := by
  unfold State.netTick
  extract_lets off caps timed net
  have hnet : Quiet s { t with net := net } := h.rest rfl rfl rfl
  exact hnet.set _ _ rfl

theorem armTick (h : Quiet s t) : Quiet s t.armTick := by
  unfold State.armTick
  refine .ite h ?_
  extract_lets x s0 why
  have h0 : Quiet s s0 := h.rest rfl rfl rfl
  refine .ite h0 (.ite (h0.set _ _ rfl) ?_)
  split
  · extract_lets xs swf s1 y
    have h1 : Quiet s s1 := (((h0.set _ _ rfl).set _ _ rfl).set _ _ rfl).set R.TASK.XSEQ.SEQ _ rfl
    generalize s1 = u at h1 ⊢
    exact .setPair (h1.rest rfl rfl rfl) _ _ _ rfl rfl
  · exact h0

/-! Votes -/

theorem setLead (h : Quiet s t) : Quiet s t.setLead := by
  unfold State.setLead
  extract_lets s1
  have h1 : Quiet s s1 := h.set _ _ rfl
  split <;> exact (h1.set _ _ rfl).set _ _ rfl

theorem voteRecord (h : Quiet s t) (code : Nat) (ch : Ch) (d : Devn) : Quiet s (t.voteRecord code ch d) := h.fumarole ..

theorem excludePerm (h : Quiet s t) (ch : Ch) (d : Devn) (reason : Nat) : Quiet s (t.excludePerm ch d reason) := by
  unfold State.excludePerm
  extract_lets s1 s2 v
  have hperm : quietOffs.contains (R.VOTE.CAUSE.PERM (chNum ch)).off = false := by cases ch <;> rfl
  have h2 : Quiet s s2 := (((h.set _ _ rfl).set _ _ hperm).set _ _ rfl).set R.VOTE.FLAG.PERM 1 rfl
  clear_value v
  generalize s2 = u at h2 ⊢
  exact (h2.withVote _).voteRecord ..

theorem incSat (h : Quiet s t) (f : Fld) (hf : quietOffs.contains f.off = false) : Quiet s (t.incSat f) := h.set f _ hf

theorem exclude (h : Quiet s t) (ch : Ch) (cause : Nat) (d : Devn) : Quiet s (t.exclude ch cause d) := by
  have hcnt : quietOffs.contains (R.VOTE.EXCLCNT.COUNT (chNum ch)).off = false := by cases ch <;> rfl
  have hcause : quietOffs.contains (R.VOTE.CAUSE.fld (chNum ch)).off = false := by cases ch <;> rfl
  have heng : quietOffs.contains (R.VOTE.CAUSE.ENGINE (chNum ch)).off = false := hcause
  have hdreg : quietOffs.contains (R.VOTE.CAUSE.DREG (chNum ch)).off = false := hcause
  unfold State.exclude
  extract_lets n r was s1 s2 shown s3 s4 s5
  have h1 : Quiet s s1 := h.setCh ..
  clear_value s1
  have h2 : Quiet s s2 := ((h1.set R.VOTE.MODE.INCL _ rfl).set _ _ rfl).set _ _ rfl
  clear_value s2
  have h3 : Quiet s s3 := ((h2.set _ _ hcause).set _ _ heng).set _ _ hdreg
  clear_value s3
  have h4 : Quiet s s4 := ((h3.set R.VOTE.FLAG.EXCL 1 rfl).incSat _ hcnt).setLead
  clear_value s4
  have h5 : Quiet s s5 := (h4.setChRec ..).voteRecord ..
  clear_value s5
  exact .ite (h5.excludePerm ..) h5

theorem checkProbation (h : Quiet s t) (g : VGroup) (stands : Option Close) : Quiet s (t.checkProbation g stands) := by
  unfold State.checkProbation
  split
  · exact h
  · refine .ite h ?_
    unfold State.failProbation
    exact ((h.exclude ..).set R.VOTE.FLAG.PROBFAIL 1 rfl).set _ _ rfl

theorem discard (h : Quiet s t) (task cls eng cause : Nat) : Quiet s (t.discard task cls eng cause) :=
  (h.withSeqr _).evSetPrivate ..

theorem raiseVoted (h : Quiet s t) (task : Nat) (r : ExcRec) : Quiet s (t.raiseVoted task r) := by
  unfold State.raiseVoted
  extract_lets s1 s2
  have h2 : Quiet s s2 := (((h.fumarole ..).set R.EVC.SLAT.EXC _ rfl).evSetPrivate ..).discard ..
  clear_value s2
  exact .ite (h2.withSeqr _) h2

theorem markVoted (h : Quiet s t) (path seq agree : Nat) : Quiet s (t.markVoted path seq agree) := by
  unfold State.markVoted
  exact .ite h (h.mapCh ..)

theorem countWindow (h : Quiet s t) (path : Nat) : Quiet s (t.countWindow path) := by
  unfold State.countWindow
  exact .ite h (h.setPair _ _ _ rfl rfl)

theorem voteGroup (h : Quiet s t) (g : VGroup) : Quiet s (t.voteGroup g) := by
  unfold State.voteGroup
  extract_lets v r1 s1 s2
  have h1 : Quiet s s1 := by
    unfold s1
    split
    · split
      · exact ((h.markVoted ..).countWindow _).raiseVoted ..
      · exact (h.markVoted ..).countWindow _
    · exact h
  have h2 : Quiet s s2 := h1.checkProbation ..
  refine .ite (.trigger (h.set R.VOTE.FLAG.XCHK 1 rfl) ..) (.ite (h.trigger ..) (.ite ?_ h2))
  split
  · exact .ite (h2.exclude ..) h2
  · exact h2

theorem closeInputs (h : Quiet s t) : Quiet s t.closeInputs := by
  unfold State.closeInputs
  exact .ite (h.mapCh ..) ((h.mapCh ..).voteGroup _)

theorem resyncStart (h : Quiet s t) (ch : Ch) : Quiet s (t.resyncStart ch) := by
  unfold State.resyncStart
  extract_lets r old s1 s2
  have hr : Quiet s ((t.setCh ch Chan.reset).resetDreg ch) := by
    unfold State.resetDreg
    split
    · exact h.setCh ..
    · exact (h.setCh ..).rest rfl rfl rfl
    · exact (h.setCh ..).rest rfl rfl rfl
  have h2 : Quiet s s2 := (((hr.setChRec ..).set _ _ rfl).set _ _ rfl).set _ _ rfl
  clear_value s2
  exact .ite (h.excludePerm ..) (h2.withVote _)

theorem probationStart (h : Quiet s t) (ch : Ch) : Quiet s (t.probationStart ch) := by
  unfold State.probationStart
  exact ((h.setCh ..).set _ _ rfl).set _ _ rfl

theorem readmit (h : Quiet s t) (ch : Ch) : Quiet s (t.readmit ch) := by
  unfold State.readmit
  exact voteRecord (setChRec (setLead ((((((h.set R.VOTE.MODE.INCL _ rfl).set _ _ rfl).set _ _ rfl)).set _ _ rfl).set R.VOTE.FLAG.READMIT 1 rfl)) _ _) _ _ _

theorem resyncTick (h : Quiet s t) (ch : Ch) : Quiet s (t.resyncTick ch) := by
  unfold State.resyncTick
  split
  · exact h.resyncStart _
  · exact .ite (h.probationStart _) h
  · exact .ite (h.readmit _) h
  · exact h

theorem voteTick (h : Quiet s t) : Quiet s t.voteTick := by
  unfold State.voteTick State.showCopying State.showAttempts
  have hattempt (ch : Ch) : quietOffs.contains (R.VOTE.ATTEMPT.CH (chNum ch)).off = false := by cases ch <;> rfl
  have hclose := h.closeInputs
  refine .ite hclose (.foldl _ (.foldl _ (.ite ((hclose.set _ _ rfl).withVote _) hclose) fun t _ _ => .ite ((Quiet.refl t).resyncTick _) (.refl t))
    fun t ch _ => (Quiet.refl t).set _ _ (hattempt ch))

/-! Inputs, outputs and speed -/

theorem setBit (h : Quiet s t) (f : Fld) (n : Nat) (b : Bool) (hf : quietOffs.contains f.off = false) : Quiet s (t.setBit f n b) :=
  h.set f _ hf

theorem input (h : Quiet s t) (id : Nat) (val : List Byte) (src : Src) : Quiet s (t.input id val src) := by
  have hbat : Quiet t (t.noteBattery id val src) := by
    rw [noteBattery_eq]
    exact (Quiet.refl t).rest rfl rfl rfl
  have hch : Quiet s ((t.noteBattery id val src).eachCh t.follows fun ch c => c.input t.gong.frame id (t.receivedBytes ch val) src) :=
    h.trans (hbat.eachCh ..)
  unfold State.input
  extract_lets s1
  split
  · exact .ite (hch.rest rfl rfl rfl) hch
  · exact hch

theorem inputItem (h : Quiet s t) (home href v : Nat) (src : Src) : Quiet s (t.inputItem home href v src) :=
  .foldl _ h fun t _ _ => .ite ((Quiet.refl t).input ..) (.refl t)

theorem sioTick (h : Quiet s t) : Quiet s t.sioTick := by
  have trips (o : Nat) (ho : o < 8) : quietOffs.contains (R.SIO.ODIAG.TRIPS o).off = false := by
    refine Bool.eq_false_iff.2 fun hc => ?_
    simp [quietOffs, R.SIO.ODIAG.TRIPS, R.SUP.STATE.all, R.PAIR.ROLE.all, R.SIO.OSTATE.all, R.BRG.STATUS.all] at hc
    omega
  unfold State.sioTick
  exact .forN _ (.forN _ (.forN _ (.forN _ (.forN _ (.forN _ (.forN _ (.forN _ h
    fun t o ho => (Quiet.refl t).set _ _ (trips o ho))
    fun t _ _ => .ite (((Quiet.refl t).setBit _ _ _ rfl).setBit _ _ _ rfl) ((Quiet.refl t).setBit _ _ _ rfl))
    fun t _ _ => .ite ((Quiet.refl t).setBit _ _ _ rfl) (.refl t))
    fun t _ _ => (Quiet.refl t).inputItem ..) fun t _ _ => (Quiet.refl t).inputItem ..) fun t _ _ => (Quiet.refl t).inputItem ..)
    fun t _ _ => (Quiet.refl t).inputItem ..) fun t _ _ => (Quiet.refl t).inputItem ..

theorem noteGuards (h : Quiet s t) : Quiet s t.noteGuards := h.rest rfl rfl rfl

theorem showSen (h : Quiet s t) (n : Fin 2) (v : SenSt) : Quiet s (t.showSen n v) := by
  have hoff : quietOffs.contains (R.SPD.SDIAG.FAULT n.val).off = false := by
    match n with
    | 0 | 1 => rfl
  have hset : Quiet s (t.setSen n v) := by
    unfold State.setSen
    split <;> exact h.rest rfl rfl rfl
  exact hset.set _ _ hoff

theorem withSpd (h : Quiet s t) (v : SpdSt) : Quiet s { t with spd := v } := h.rest rfl rfl rfl

theorem spdTick (h : Quiet s t) : Quiet s t.spdTick := by
  unfold State.spdTick
  extract_lets now s1 use unknown still upper vhi vlo dir vs below s2 s3 s4 s5 sp s6 src s7 s8 s9 s10 s11 s12 s13
  have hsen : Quiet s s1 := (h.showSen 0 ((t.sen 0).settle t.gong.tick t.nowNs)).showSen 1 ((t.sen 1).settle t.gong.tick t.nowNs)
  have h2 : Quiet s s2 := .ite (hsen.set R.SPD.FLAG.DISCR 1 rfl) hsen
  have h4 : Quiet s s4 := (((h2.set _ _ rfl).set _ _ rfl).set _ _ rfl).set _ _ rfl
  have h5 : Quiet s s5 := (h4.set _ _ rfl).set _ _ rfl
  have h6 : Quiet s s6 := h5.withSpd _
  have h10 : Quiet s s10 := (((h6.inputItem ..).inputItem ..).inputItem ..).inputItem ..
  have h13 : Quiet s s13 := ((h10.inputItem ..).inputItem ..).inputItem ..
  exact .forN _ h13 fun t _ _ => (Quiet.refl t).inputItem ..

/-! Tasks -/

theorem evPoll (h : Quiet s t) (k : Nat) (redo : Bool) : Quiet s (t.evPoll k redo) := by
  unfold State.evPoll
  extract_lets on
  split
  · exact .ite (h.rest rfl rfl rfl) h
  · exact .ite (h.rest rfl rfl rfl) h

theorem evFinish (h : Quiet s t) (k : Nat) (redo : Bool) : Quiet s (t.evFinish k redo) := by
  have hdel : Quiet s { t with evs := tblDel t.evs k } := h.rest rfl rfl rfl
  exact hdel.evPoll ..

theorem evReturn (h : Quiet s t) (tasks : List Nat) : Quiet s (t.evReturn tasks) := by
  unfold State.evReturn
  refine .foldl _ h fun t p _ => ?_
  split
  · exact .ite ((Quiet.refl t).evFinish ..) (.refl t)
  · exact .refl t

theorem dropPassed (h : Quiet s t) : Quiet s t.dropPassed := by
  unfold State.dropPassed
  exact ((h.mapCh ..).withSeqr _).evReturn _

theorem showHeld (h : Quiet s t) : Quiet s t.showHeld := h.set _ _ rfl

theorem freshCheck (h : Quiet s t) (id : Nat) : Quiet s (t.freshCheck id) := by
  unfold State.freshCheck
  exact .ite (((h.mapCh ..).incSat _ rfl).set R.SIG.FLAG.STALE 1 rfl) (h.mapCh ..)

theorem distribute (h : Quiet s t) (v : Word) : Quiet s (t.distribute v) := h.rest rfl rfl rfl

theorem readHome4 (h : Quiet s t) (p : Program) (k : Nat) : Quiet s (t.readHome4 p k) := by
  unfold State.readHome4
  refine .foldl _ h fun t id _ => ?_
  split
  · exact .ite (.foldl _ (.refl t) fun u _ _ => (Quiet.refl u).distribute _) (.refl t)
  · exact .refl t

theorem releaseClass (h : Quiet s t) (k : Nat) : Quiet s (t.releaseClass k) := by
  unfold State.releaseClass
  split
  · exact h
  · next p _ =>
    extract_lets ts s1
    have h1 : Quiet s s1 := .foldl _ h fun t id _ => (Quiet.refl t).freshCheck id
    clear_value s1
    exact .ite h (((h1.readHome4 p k).eachCh ..).withSeqr _)

theorem releaseAll (h : Quiet s t) : Quiet s t.releaseAll := by
  unfold State.releaseAll
  exact .ite h (.forN _ h fun t _ _ => .ite ((Quiet.refl t).releaseClass _) (.refl t))

end Quiet

end

/-- SAFE, once entered, is not left. -/
theorem Quiet.safe {s t : State} (h : Quiet s t) (hs : s.mstate = .safe) : t.mstate = .safe :=
  h.2.elim id fun k => (mstate_congr (k.2 _ (.inl rfl))).trans hs

end Sys2Proof.Machine
end

section
/-! PROOF. The module pair (R200 to R205, R211, R297): PAIR_ACT_IN, promotion, duties and the PAIR commands. -/

namespace Sys2Proof.Machine

/-! ### PAIR_ACT_IN -/

theorem exec_pairActInAccept (s : State) (level : Bool) (ns : Nat) :
    exec (.pairActInAccept level ns) s = s.whilePowered (
      let s1 := s.set R.PAIR.ROLE.PACTIN (b2n level)
      if s.get R.PAIR.ROLE.PACTIN = b2n level then s1
      else if level then { s1 with pair := { s1.pair with yield := s1.pair.yield.or s1.yieldOnRise } }
      else if s1.pair.both then
        { s1.set R.PAIR.BOTHNS.NS (min (ns - s1.pair.pactNs) (2 ^ 32 - 1)) with pair := { s1.pair with both := false } }
      else s1) := rfl

theorem pairActInAccept_same {s : State} {level : Bool} (ns : Nat) (h : s.get R.PAIR.ROLE.PACTIN = b2n level) :
    Sets (.pairActInAccept level ns) s [(R.PAIR.ROLE.PACTIN, b2n level)] :=
  does_of_whilePowered ((exec_pairActInAccept s level ns).trans (congrArg s.whilePowered (if_pos h))) fun _ =>
    (OnlyFields.refl s).put R.PAIR.ROLE.PACTIN _ rfl

/-- The yield that a rise marks depends on what the line was before, on the role and on the heartbeats heard. -/
theorem yieldOnRise_set (s : State) (n : Nat) : (s.set R.PAIR.ROLE.PACTIN n).yieldOnRise = s.yieldOnRise := by
  have kept (f : Fld) (hf : R.PAIR.ROLE.PACTIN.apart f = true) : (s.set R.PAIR.ROLE.PACTIN n).get f = s.get f := get_set_apart s n rfl hf
  rw [State.yieldOnRise, State.yieldOnRise, State.leads, State.leads, State.role, State.role, kept R.PAIR.ROLE.fld rfl, kept R.PAIR.ROLE.PACT rfl,
    kept R.ID.SLOT.CODE rfl]
  rfl

theorem pairActIn_rise {s : State} {ns : Nat} {y : Option Nat} (h : s.get R.PAIR.ROLE.PACTIN = 0) (hy : s.pair.yield.or s.yieldOnRise = y) :
    Does (.pairActInAccept true ns) s fun t =>
      t = { s with regs := t.regs, pair := { s.pair with yield := y } } ∧ FieldsSet s t [(R.PAIR.ROLE.PACTIN, 1)] := by
  have hx := exec_pairActInAccept s true ns
  dsimp only at hx
  rw [if_neg (by rw [h]; decide), if_pos rfl, yieldOnRise_set, show (s.set R.PAIR.ROLE.PACTIN (b2n true)).pair = s.pair from rfl, hy] at hx
  exact does_of_whilePowered hx fun _ => ⟨rfl, ((FieldsSet.refl s).put R.PAIR.ROLE.PACTIN 1 rfl).of_regs rfl⟩

theorem pairActIn_fall {s : State} {ns : Nat} (h : s.get R.PAIR.ROLE.PACTIN = 1) (hb : s.pair.both = true) :
    Does (.pairActInAccept false ns) s fun t =>
      t = { s with regs := t.regs, pair := { s.pair with both := false } } ∧
      FieldsSet s t [(R.PAIR.ROLE.PACTIN, 0), (R.PAIR.BOTHNS.NS, min (ns - s.pair.pactNs) (2 ^ 32 - 1))] := by
  have hx := exec_pairActInAccept s false ns
  dsimp only at hx
  rw [if_neg (by rw [h]; decide), if_neg (by decide), show (s.set R.PAIR.ROLE.PACTIN (b2n false)).pair = s.pair from rfl, if_pos hb] at hx
  exact does_of_whilePowered hx fun _ => ⟨rfl, (((FieldsSet.refl s).put R.PAIR.ROLE.PACTIN 0 rfl).put R.PAIR.BOTHNS.NS _ rfl).of_regs rfl⟩

theorem pairActIn_fall_plain {s : State} {ns : Nat} (h : s.get R.PAIR.ROLE.PACTIN = 1) (hb : s.pair.both = false) :
    Sets (.pairActInAccept false ns) s [(R.PAIR.ROLE.PACTIN, 0)] := by
  have hx := exec_pairActInAccept s false ns
  dsimp only at hx
  rw [if_neg (by rw [h]; decide), if_neg (by decide), show (s.set R.PAIR.ROLE.PACTIN (b2n false)).pair = s.pair from rfl,
    if_neg (by rw [hb]; decide)] at hx
  exact does_of_whilePowered hx fun _ => (OnlyFields.refl s).put R.PAIR.ROLE.PACTIN 0 rfl

/-! ### Roles -/

theorem showRole_spec (s : State) (r : Role) (c : Nat) :
    s.showRole r c = { s with regs := (s.showRole r c).regs, ret := (s.showRole r c).ret } ∧
      FieldsSet s (s.showRole r c) [(R.PAIR.ROLE.fld, roleCode r), (R.PAIR.ROLE.FCAUSE, c), (R.PAIR.ROLE.CUR, 0)] := by
  have h := (((OnlyFields.refl s).put R.PAIR.ROLE.fld (roleCode r) rfl).put R.PAIR.ROLE.FCAUSE c rfl).put R.PAIR.ROLE.CUR 0 rfl
  unfold State.showRole
  dsimp only
  generalize ((s.set R.PAIR.ROLE.fld (roleCode r)).set R.PAIR.ROLE.FCAUSE c).set R.PAIR.ROLE.CUR 0 = u at h ⊢
  obtain ⟨hu, hf⟩ := h
  split
  · exact ⟨by rw [hu], hf.of_regs rfl⟩
  · exact ⟨by rw [hu], hf⟩

theorem showRole_fields (s : State) (r : Role) (c : Nat) :
    FieldsSet s (s.showRole r c) [(R.PAIR.ROLE.fld, roleCode r), (R.PAIR.ROLE.FCAUSE, c), (R.PAIR.ROLE.CUR, 0)] := (showRole_spec s r c).2

theorem roleOf_roleCode (r : Role) : roleOf (roleCode r % 2 ^ R.PAIR.ROLE.fld.w) = r := by cases r <;> rfl

/-- A change of role: the fields of PAIR.ROLE it shows, and every other field outside the BIST block as before. -/
theorem toRole_get (s : State) (r : Role) (c : Nat) {f : Fld} (hf : f.off < 0x100000) :
    (s.toRole r c).get f = (s.showRole r c).get f := (toRole_onlyBist s r c).2 f hf

theorem toRole_role (s : State) (r : Role) (c : Nat) : (s.toRole r c).role = r := by
  have h := (showRole_fields s r c).1 (R.PAIR.ROLE.fld, roleCode r) (by simp)
  rw [State.role, toRole_get _ _ _ (by decide), h, roleOf_roleCode]

theorem toRole_fcause (s : State) (r : Role) (c : Nat) : (s.toRole r c).get R.PAIR.ROLE.FCAUSE = c % 8 :=
  (toRole_get _ _ _ (by decide)).trans ((showRole_fields s r c).1 (R.PAIR.ROLE.FCAUSE, c) (by simp))

theorem toRole_cur (s : State) (r : Role) (c : Nat) : (s.toRole r c).get R.PAIR.ROLE.CUR = 0 :=
  (toRole_get _ _ _ (by decide)).trans ((showRole_fields s r c).1 (R.PAIR.ROLE.CUR, 0) (by simp))

/-- A field outside the BIST block that shares no bit with role, cause or CUR. -/
theorem toRole_other (s : State) (r : Role) (c : Nat) {f : Fld} (hf : f.off < 0x100000)
    (ha : besides f [(R.PAIR.ROLE.fld, roleCode r), (R.PAIR.ROLE.FCAUSE, c), (R.PAIR.ROLE.CUR, 0)] = true) :
    (s.toRole r c).get f = s.get f := (toRole_get _ _ _ hf).trans ((showRole_fields s r c).get_eq f ha)

theorem toRole_rest (s : State) (r : Role) (c : Nat) :
    s.toRole r c = { s with regs := (s.toRole r c).regs, ret := (s.toRole r c).ret, bist := (s.toRole r c).bist, spd := (s.toRole r c).spd } := by
  have h := (toRole_onlyBist s r c).1
  rw [(showRole_spec s r c).1] at h
  generalize s.toRole r c = t at h ⊢
  rw [h]

theorem toRole_pair (s : State) (r : Role) (c : Nat) : (s.toRole r c).pair = s.pair := by rw [toRole_rest]

/-- A record of the pair takes the next number and nothing else. -/
theorem pairRecord_get (s : State) (code : Nat) {f : Fld} (h : R.SUP.FUMSEQ.SEQ.apart f = true) : (s.pairRecord code).get f = s.get f :=
  get_fumarole _ _ _ _ _ _ h

theorem pairRecord_pair (s : State) (code : Nat) : (s.pairRecord code).pair = s.pair := State.fumarole_pair ..

/-! ### Promotion -/

/-- What a promotion from the committed state of frame `a` leaves (R202). -/
theorem promote_spec (s : State) (a : Nat) :
    (s.promote a).role = .alone ∧ (s.promote a).pair.resume = some a ∧ (s.promote a).get R.PAIR.FLAG.PROMO = 1 ∧
      (s.promote a).get R.PAIR.EPOCH.fld = (max (s.get R.PAIR.EPOCH.fld) s.pair.epochIn + 1) % 2 ^ 32 := by
  have hepoch : (s.assertPact.raiseEpoch).get R.PAIR.EPOCH.fld = (max (s.get R.PAIR.EPOCH.fld) s.pair.epochIn + 1) % 2 ^ 32 := by
    rw [State.raiseEpoch, get_set_same _ _ rfl]
    have h : s.assertPact.get R.PAIR.EPOCH.fld = s.get R.PAIR.EPOCH.fld := get_set_apart s _ rfl rfl
    rw [h]
    rfl
  have hrole := toRole_role s.assertPact.raiseEpoch .alone 0
  have hkept := toRole_other s.assertPact.raiseEpoch .alone 0 (f := R.PAIR.EPOCH.fld) (by decide) rfl
  unfold State.promote
  generalize s.assertPact.raiseEpoch.toRole .alone 0 = t at hrole hkept ⊢
  obtain ⟨n, hn⟩ : ∃ n, (t.flag R.PAIR.FLAG.PROMO).incSat R.PAIR.COUNTS.PROMOS = (t.set R.PAIR.FLAG.PROMO 1).set R.PAIR.COUNTS.PROMOS n := ⟨_, rfl⟩
  have hf := (((((FieldsSet.refl t).put R.PAIR.FLAG.PROMO 1 rfl).put R.PAIR.COUNTS.PROMOS n rfl).put R.PAIR.RESF_LO.FRAME a rfl).put
    R.PAIR.RESF_HI.FRAME (a / 2 ^ 32) rfl).put R.PAIR.BOTHNS.NS 0 rfl
  dsimp only
  rw [hn, State.setPair]
  generalize ((((t.set R.PAIR.FLAG.PROMO 1).set R.PAIR.COUNTS.PROMOS n).set R.PAIR.RESF_LO.FRAME a).set R.PAIR.RESF_HI.FRAME (a / 2 ^ 32)).set
    R.PAIR.BOTHNS.NS 0 = u at hf ⊢
  have hg (p : PairSt) (f : Fld) (h : R.SUP.FUMSEQ.SEQ.apart f = true) : (State.pairRecord { u with pair := p } 1).get f = u.get f :=
    (pairRecord_get _ 1 h).trans (get_congr rfl f)
  refine ⟨?_, by rw [pairRecord_pair], ?_, ?_⟩
  · rw [State.role, hg _ _ rfl, hf.get_eq R.PAIR.ROLE.fld rfl, ← State.role, hrole]
  · rw [hg _ _ rfl]
    exact hf.1 (R.PAIR.FLAG.PROMO, 1) (by simp)
  · rw [hg _ _ rfl, hf.get_eq R.PAIR.EPOCH.fld rfl, hkept, hepoch]

/-! ### Duties -/

/-- The bus frequency as the duties are taken. -/
theorem OnlyFields.setBus {s t : State} {l : List (Fld × Nat)} (h : OnlyFields s t l) (m66 : Bool) (hfreq : besides R.BRG.CFG.FREQ l = true)
    (h1 : besides R.BRG.STATUS.M66EN l = true)
    (h2 : besides R.BRG.STATUS.AFREQ (l ++ [(R.BRG.STATUS.M66EN, 0)]) = true)
    (h3 : besides R.BRG.STATUS.IDLE (l ++ [(R.BRG.STATUS.M66EN, 0)] ++ [(R.BRG.STATUS.AFREQ, 0)]) = true) :
    OnlyFields s (t.setBus m66) (l ++ [(R.BRG.STATUS.M66EN, b2n m66)] ++ [(R.BRG.STATUS.AFREQ, if m66 then s.get R.BRG.CFG.FREQ else 0)] ++
      [(R.BRG.STATUS.IDLE, 1)]) := by
  have anyValue (f : Fld) (l : List (Fld × Nat)) (g : Fld) (n m : Nat) : besides f (l ++ [(g, n)]) = besides f (l ++ [(g, m)]) := by
    simp only [besides, List.all_append, List.all_cons]
  rw [State.setBus, h.2.get_eq R.BRG.CFG.FREQ hfreq]
  refine ((h.put _ _ h1).put _ _ ((anyValue ..).trans h2)).put _ _ ?_
  simpa only [besides, List.all_append, List.all_cons] using h3

theorem exec_dutiesTake {s : State} (m66 : Bool) (hrun : s.get R.BIST.STATUS.RUN = 0) (hm : s.mstate = .run) (hl : s.leads = true)
    (hp : s.get R.PAIR.ROLE.PACTIN = 0) (hh : s.get R.BRG.STATUS.HOLD = 0) :
    Sets (.dutiesTakeAfterPromotion m66) s [(R.BRG.STATUS.HOLD, 1), (R.BRG.STATUS.CFGD, 1), (R.BRG.STATUS.M66EN, b2n m66),
      (R.BRG.STATUS.AFREQ, if m66 then s.get R.BRG.CFG.FREQ else 0), (R.BRG.STATUS.IDLE, 1)] := by
  have hx : exec (.dutiesTakeAfterPromotion m66) s = s.whilePowered (((s.set R.BRG.STATUS.HOLD 1).testCheck.set R.BRG.STATUS.CFGD 1).setBus m66) :=
    congrArg s.whilePowered (if_pos ⟨hm, hl, hp, hh⟩)
  have hidle : (s.set R.BRG.STATUS.HOLD 1).get R.BIST.STATUS.RUN = 0 := (get_set_apart s 1 rfl rfl).trans hrun
  rw [testCheck_idle _ hidle] at hx
  exact does_of_whilePowered hx fun _ => (((OnlyFields.refl s).put R.BRG.STATUS.HOLD 1 rfl).put R.BRG.STATUS.CFGD 1 rfl).setBus m66 rfl rfl rfl rfl

/-! ### FENCE on a module that does not lead -/

theorem leads_congr {s t : State} (h : t.get R.PAIR.ROLE.fld = s.get R.PAIR.ROLE.fld) : t.leads = s.leads := by
  rw [State.leads, State.leads, State.role, State.role, h]

/-- What FENCE leaves at once on a module that does not lead. -/
theorem fenced_at_once {s t : State} (ht : t.pair = s.pair)
    (hf : FieldsSet s t [(R.PAIR.REASON.CODE, 0), (R.PAIR.CMD.CODE, 2), (R.PAIR.CMDCNT.COUNT, s.get R.PAIR.CMDCNT.COUNT + 1)]) :
    let u := State.pairRecord { t.toRole .fenced 2 with pair := { (t.toRole .fenced 2).pair with joining := false, handover := none } } 3
    u.role = .fenced ∧ u.get R.PAIR.ROLE.FCAUSE = 2 ∧ u.pair = { s.pair with joining := false, handover := none } ∧ u.get R.PAIR.REASON.CODE = 0 ∧
      u.get R.PAIR.CMDCNT.COUNT = (s.get R.PAIR.CMDCNT.COUNT + 1) % 2 ^ 32 := by
  intro u
  have hg (f : Fld) (h : R.SUP.FUMSEQ.SEQ.apart f = true) : u.get f = (t.toRole .fenced 2).get f :=
    (pairRecord_get _ 3 h).trans (get_congr rfl f)
  refine ⟨?_, (hg _ rfl).trans (toRole_fcause ..), ?_, ?_, ?_⟩
  · rw [State.role, hg _ rfl, ← State.role, toRole_role]
  · refine (pairRecord_pair _ 3).trans ?_
    dsimp only
    rw [toRole_pair, ht]
  · exact (hg _ rfl).trans ((toRole_other _ _ _ (by decide) rfl).trans (hf.1 (R.PAIR.REASON.CODE, 0) (by simp)))
  · exact (hg _ rfl).trans ((toRole_other _ _ _ (by decide) rfl).trans (hf.1 (R.PAIR.CMDCNT.COUNT, s.get R.PAIR.CMDCNT.COUNT + 1) (by simp)))

theorem exec_fence (s : State) (r : Req) :
    exec (.fence r) s = s.whilePowered (s.pairCommand r 2
      (firstReason [(2, s.mstate != .run), (3, s.role = .fenced), (5, s.role = .alone && !s.depot)]) fun t =>
        if t.leads then { t with pair := { t.pair with yield := some 2 } }
        else State.pairRecord { t.toRole .fenced 2 with pair := { (t.toRole .fenced 2).pair with joining := false, handover := none } } 3) := rfl

/-! ### The tick of a yield (R203) -/

/-- A module that yields is FENCED with its cause, its outputs off and the lead and the duties released. -/
structure Yielded (t : State) (cause : Nat) : Prop where
  role : t.get R.PAIR.ROLE.fld = roleCode .fenced % 2 ^ R.PAIR.ROLE.fld.w
  fcause : t.get R.PAIR.ROLE.FCAUSE = cause % 8
  pact : t.get R.PAIR.ROLE.PACT = 0
  dem : t.get R.SIO.OSTATE.DEM = 0
  hold : t.get R.BRG.STATUS.HOLD = 0

/-- The words of role, outputs and duties say whether a module has yielded. -/
theorem Yielded.of_get {s t : State} {cause : Nat} (h : Yielded s cause)
    (k : ∀ f, f.off ∈ [R.PAIR.ROLE.all.off, R.SIO.OSTATE.all.off, R.BRG.STATUS.all.off] → t.get f = s.get f) : Yielded t cause :=
  ⟨(k _ (by decide)).trans h.role, (k _ (by decide)).trans h.fcause, (k _ (by decide)).trans h.pact, (k _ (by decide)).trans h.dem,
    (k _ (by decide)).trans h.hold⟩

theorem dropAll_spec (s : State) :
    s.dropWork.outputsOff.giveUpDuties.get R.SIO.OSTATE.DEM = 0 ∧ s.dropWork.outputsOff.giveUpDuties.get R.BRG.STATUS.HOLD = 0 := by
  obtain ⟨-, hdem⟩ := outputsOff_spec s.dropWork
  obtain ⟨⟨-, hregs, -⟩, hhold⟩ := giveUpDuties_spec s.dropWork.outputsOff
  exact ⟨(regsKept_get hregs (by decide)).trans hdem, hhold⟩

theorem yieldRole_yielded {s : State} (hdem : s.get R.SIO.OSTATE.DEM = 0) (hhold : s.get R.BRG.STATUS.HOLD = 0) (cause : Nat) :
    Yielded ((s.set R.PAIR.ROLE.PACT 0).toRole .fenced cause) cause := by
  have hf := showRole_fields (s.set R.PAIR.ROLE.PACT 0) .fenced cause
  refine Yielded.of_get (s := (s.set R.PAIR.ROLE.PACT 0).showRole .fenced cause) ?_ fun f hf => toRole_get _ _ _ ?_
  · exact ⟨hf.1 (R.PAIR.ROLE.fld, roleCode .fenced) (by simp), hf.1 (R.PAIR.ROLE.FCAUSE, cause) (by simp),
      (hf.get_eq R.PAIR.ROLE.PACT rfl).trans (get_set_same _ _ rfl), ((hf.get_eq R.SIO.OSTATE.DEM rfl).trans (get_set_apart _ _ rfl rfl)).trans hdem,
      ((hf.get_eq R.BRG.STATUS.HOLD rfl).trans (get_set_apart _ _ rfl rfl)).trans hhold⟩
  · have low : ∀ o ∈ [R.PAIR.ROLE.all.off, R.SIO.OSTATE.all.off, R.BRG.STATUS.all.off], o < 0x100000 := by decide
    exact low _ hf

theorem yieldNow_yielded (s : State) (cause : Nat) : Yielded (s.yieldNow cause) cause := by
  obtain ⟨hdem, hhold⟩ := dropAll_spec s
  unfold State.yieldNow
  generalize s.dropWork.outputsOff.giveUpDuties = u at hdem hhold ⊢
  have h := yieldRole_yielded hdem hhold cause
  dsimp only
  generalize (u.set R.PAIR.ROLE.PACT 0).toRole .fenced cause = v at h ⊢
  have away (g : Fld) (hg : [R.PAIR.ROLE.all.off, R.SIO.OSTATE.all.off, R.BRG.STATUS.all.off].contains g.off = false) (f : Fld)
      (hf : f.off ∈ [R.PAIR.ROLE.all.off, R.SIO.OSTATE.all.off, R.BRG.STATUS.all.off]) : f.off ≠ g.off := by
    intro he
    rw [← he, List.contains_iff_mem.2 hf] at hg
    cases hg
  have recorded {w : State} (code : Nat) (hw : Yielded w cause) : Yielded (w.pairRecord code) cause :=
    hw.of_get fun f hf => pairRecord_get _ _ (by simp [Fld.apart, (away R.SUP.FUMSEQ.SEQ rfl f hf).symm])
  have written {w : State} (g : Fld) (n : Nat) (hg : [R.PAIR.ROLE.all.off, R.SIO.OSTATE.all.off, R.BRG.STATUS.all.off].contains g.off = false)
      (hw : Yielded w cause) : Yielded (w.set g n) cause := hw.of_get fun f hf => get_setReg_ne _ _ (away g hg f hf)
  have hv : Yielded { v with
      xch := { v.xch with arm := false }
      pair := { v.pair with yield := none, handover := none, hbSinceYield := false, both := false, resume := none } } cause :=
    h.of_get fun f _ => get_congr rfl f
  split
  · exact recorded _ hv
  · exact recorded _ (written R.PAIR.COUNTS.YIELDS _ rfl (written R.PAIR.FLAG.YIELD 1 rfl hv))

/-- Unless it enters SAFE, a module that has yielded stays so for the rest of the tick. -/
theorem Yielded.quiet {s t : State} {cause : Nat} (h : Yielded s cause) (k : Quiet s t) (hm : t.mstate = .run) : Yielded t cause := by
  obtain ⟨-, hs | ⟨-, hk⟩⟩ := k
  · rw [hm] at hs; cases hs
  · have ne : ∀ o ∈ [R.PAIR.ROLE.all.off, R.SIO.OSTATE.all.off, R.BRG.STATUS.all.off], o ∈ quietOffs ∧ o ≠ R.SUP.STATE.all.off := by decide
    exact h.of_get fun f hf => hk f (.inr (ne _ hf))

/-- What a tick does from its votes on. -/
theorem fromVotes_quiet {s t : State} (h : Quiet s t) :
    Quiet s (if t.voteTick.mstate = .recovery then t.voteTick else t.voteTick.sioTick.noteGuards.spdTick).dropPassed.showHeld.releaseAll.testCheck :=
  (Quiet.ite h.voteTick h.voteTick.sioTick.noteGuards.spdTick).dropPassed.showHeld.releaseAll.testCheck

theorem pairTick_yields {s : State} {cause : Nat} (hl : s.leads = true) (hy : s.pair.yield = some cause) : s.pairTick = s.yieldNow cause := by
  have hrole : s.role = .active ∨ s.role = .alone := by simpa [State.leads] using hl
  unfold State.pairTick
  rw [hy]
  rcases hrole with hrole | hrole <;> rw [hrole]

theorem tick_yields {s : State} {cause : Nat} (hr : s.mstate = .run) (hl : s.leads = true) (hy : s.pair.yield = some cause)
    (hm : s.tickUnits.dropPassed.showHeld.releaseAll.testCheck.mstate = .run) :
    Yielded s.tickUnits.dropPassed.showHeld.releaseAll.testCheck cause := by
  have hedge : Quiet s s.tickEdge := (Quiet.refl s).tickEdge
  have hbegun : s.tickBegun = s.tickEdge := by
    refine if_neg fun hd => ?_
    have hinit : s.tickEdge.mstate = .init := by
      simp only [State.initDone, Bool.and_eq_true, decide_eq_true_eq] at hd
      tauto
    rcases hedge.2 with hs | ⟨-, hk⟩
    · rw [hinit] at hs; cases hs
    · rw [mstate_congr (hk _ (.inl rfl)), hr] at hinit; cases hinit
  have hstart : Quiet s s.tickEdge.frameReset.addrStep.netTick := hedge.frameReset.addrStep.netTick
  rw [State.tickUnits, hbegun, State.unitsTick] at hm ⊢
  generalize s.tickEdge.frameReset.addrStep.netTick = a at hstart hm ⊢
  by_cases hrun : a.mstate = .run
  · obtain ⟨-, hsafe | ⟨hyield, hk⟩⟩ := hstart
    · rw [hrun] at hsafe; cases hsafe
    · have hp : a.pairTick = a.yieldNow cause := pairTick_yields ((leads_congr (hk _ (.inr (by decide)))).trans hl) (hyield.trans hy)
      simp only [if_pos hrun, hp] at hm ⊢
      exact (yieldNow_yielded a cause).quiet (fromVotes_quiet (Quiet.refl _).armTick) hm
  · simp only [if_neg hrun] at hm
    have hsafe : a.mstate = .safe := hstart.2.resolve_right fun ⟨_, hk⟩ => hrun ((mstate_congr (hk _ (.inl rfl))).trans hr)
    rw [Quiet.safe (fromVotes_quiet (.refl a)) hsafe] at hm
    cases hm

/-- Settles O45: PAIR_ACT_IN by its level and the role, the commands through the judged write, the tick through its stages. -/
theorem pairActLinesFollowTheirRules : Obligations.PairActLinesFollowTheirRules := by
  constructor
  · intro s ns cause m66 h early rises pact
    refine ⟨fun h1 => pairActInAccept_same (level := true) ns h1, fun h0 hl hp hn hy => ?_, fun h0 he hb => ?_, fun h0 he hb hh => ⟨fun hs => ?_, fun hs => ?_⟩,
      fun h0 hl => ?_, pairActIn_fall, pairActIn_fall_plain, ?_, ?_, ?_, fun hm hl hp hh hr => exec_dutiesTake m66 hr hm hl hp hh, ?_⟩
    · refine pairActIn_rise h0 ?_
      rw [hy, State.yieldOnRise, if_neg (by simp [hl, hp]), if_pos hn]
      rfl
    · obtain ⟨hl, hp, hn, hy⟩ := he
      refine pairActIn_rise h0 ?_
      rw [hy, State.yieldOnRise, if_neg (by simp [hl, hp]), if_neg (by omega), if_pos (by rw [hb]; rfl)]
      rfl
    · obtain ⟨hl, hp, hn, hy⟩ := he
      refine pairActIn_rise h0 ?_
      rw [hy, State.yieldOnRise, if_neg (by simp [hl, hp]), if_neg (by omega), if_neg (by rw [hb]; decide), hh]
      exact if_pos hs
    · obtain ⟨hl, hp, hn, hy⟩ := he
      refine pairActIn_rise h0 ?_
      rw [hy, State.yieldOnRise, if_neg (by simp [hl, hp]), if_neg (by omega), if_neg (by rw [hb]; decide), hh]
      exact if_neg (by omega)
    · refine pairActIn_rise h0 ?_
      rw [State.yieldOnRise, if_pos (by simpa using hl), Option.or_none]
    · intro hr hg hph hl hy
      have hx : exec .gongTick s = s.whilePowered s.tickUnits.dropPassed.showHeld.releaseAll.testCheck :=
        congrArg s.whilePowered (if_neg (by rw [hr]; decide))
      refine does_of_whilePowered hx fun _ hm => ?_
      obtain ⟨hrole, hfc, hpact, hdem, hhold⟩ := tick_yields hr hl hy hm
      exact ⟨by rw [State.role, hrole]; rfl, hfc, hpact, hdem, hhold⟩
    · intro hr hc hb hp
      have hx : exec .fencedPromotionTimer s = s.whilePowered (s.promote s.pair.lastF) :=
        congrArg s.whilePowered (if_pos ⟨hr, hc, by rw [hb]; rfl, hp⟩)
      exact does_of_whilePowered hx fun _ => promote_spec s s.pair.lastF
    · intro hn
      rw [Ignored, ← whilePowered_self]
      refine congrArg s.whilePowered (if_neg fun ⟨hr, hc, hb, hp⟩ => ?_)
      rcases hn with hn | hn | hn | hn
      · exact hn hr
      · exact hn hc
      · rw [hn] at hb
        cases hb
      · exact absurd (hn.symm.trans hp) (by decide)
    · intro hn
      rw [Ignored, ← whilePowered_self]
      refine congrArg s.whilePowered (if_neg fun ⟨_, hl, hp, hh⟩ => ?_)
      rcases hn with hn | hn | hn
      · rw [hn] at hl
        cases hl
      · exact absurd (hn.symm.trans hp) (by decide)
      · omega
  · intro s r judged why
    refine ⟨judged_of_command_rest rfl rfl fun g => rfl, fun hl => ?_, fun hl => ⟨fun hst => ?_, fun hst hw => ?_, fun hst hw => ?_⟩,
      judged_of_command_rest rfl rfl fun g => rfl⟩
    · refine judged_of_command (exec_fence s r) rfl fun g hf => ?_
      rw [if_pos ((leads_congr (hf.get_eq R.PAIR.ROLE.fld rfl)).trans hl)]
      exact ⟨rfl, hf⟩
    · rw [Ignored, exec_fence, State.pairCommand, command_unmoved hst, whilePowered_self]
    · have hx := exec_fence s r
      rw [State.pairCommand, command_refused hst hw] at hx
      exact does_of_whilePowered hx fun _ => (OnlyFields.refl s).put R.PAIR.REASON.CODE why rfl
    · have hx := exec_fence s r
      have hf := command_fields s R.PAIR.CMD.CODE R.PAIR.CMDCNT.COUNT R.PAIR.REASON.CODE 2 rfl rfl rfl
      rw [State.pairCommand, command_accepted hst hw] at hx
      generalize ((s.set R.PAIR.REASON.CODE 0).set R.PAIR.CMD.CODE 2).inc R.PAIR.CMDCNT.COUNT = t at hx hf
      obtain ⟨ht, hf⟩ := hf
      rw [if_neg (by rw [leads_congr (hf.get_eq R.PAIR.ROLE.fld rfl), hl]; decide)] at hx
      exact does_of_whilePowered hx fun _ => fenced_at_once (by rw [ht]) hf

end Sys2Proof.Machine
end

section
/-! PROOF. INIT (R19, R170, R171, R187, R195, R199, R340): the load of a program into every channel, the restore from a retain record, and the start role. -/

namespace Sys2Proof.Machine

/-! ### Bytes -/

theorem leNat_leBytes (n v : Nat) : leNat (leBytes n v) = v % 256 ^ n := by
  induction n generalizing v with
  | zero => rw [pow_zero, Nat.mod_one]; rfl
  | succ n ih =>
    rw [leBytes, leNat, ih, pow_succ', Nat.mod_mul]
    rfl

theorem bytesAt_append {a b : List Byte} {n : Nat} (l : List Byte) (ha : a.length = n) : bytesAt (a ++ (b ++ l)) n b.length = b := by
  refine List.ext_getElem (by simp [bytesAt]) fun i h1 h2 => ?_
  have hi : i < b.length := h2
  simp only [bytesAt, List.getElem_map, List.getElem_range, List.getD_eq_getElem?_getD]
  rw [List.getElem?_append_right (by omega), ha, Nat.add_sub_cancel_left, List.getElem?_append_left hi, List.getElem?_eq_getElem hi, Option.getD_some]

/-- What a loader that changes no bit receives of a signal is the signal. -/
theorem receivedSig_right {rx : List Byte → List Byte} (hrx : ∀ l, rx l = l) (id : Nat) (w3 : W32) (v : List Byte) :
    receivedSig rx id w3 v = (w3, v) := by
  unfold receivedSig
  dsimp only
  rw [hrx, List.append_assoc]
  have h := bytesAt_append (b := leBytes 4 w3.toNat) v (leBytes_length 4 id)
  rw [leBytes_length] at h
  rw [h, leNat_leBytes, Nat.mod_eq_of_lt (by have := w3.isLt; omega), BitVec.ofNat_toNat, BitVec.setWidth_eq]
  rw [← List.append_assoc, List.drop_left' (by simp [leBytes_length])]

/-! ### Directories and slots -/

/-- A program enters its signals into an empty directory. -/
theorem enterDir_fold (f : Nat) (l : List SigDef) (t : Tbl DirEnt) (hn : (l.map fun d => d.id).Nodup) (ht : ∀ d ∈ l, tblFind t d.id = none) :
    let t' := l.foldl (fun t d => match tblFind t d.id with
      | some e => tblPut t d.id (if e.type = 0 then sigEnter d f else sigKeep e d)
      | none => tblPut t d.id (sigEnter d f)) t
    (∀ d ∈ l, tblFind t' d.id = some (sigEnter d f)) ∧ ∀ k, (∀ d ∈ l, d.id ≠ k) → tblFind t' k = tblFind t k := by
  induction l generalizing t with
  | nil => exact ⟨fun _ h => (List.not_mem_nil h).elim, fun _ _ => rfl⟩
  | cons a l ih =>
    rw [List.map_cons, List.nodup_cons] at hn
    obtain ⟨ha, hn⟩ := hn
    have away (d : SigDef) (hd : d ∈ l) : d.id ≠ a.id := fun he => ha (he ▸ List.mem_map_of_mem hd)
    have hfree : tblFind t a.id = none := ht a (List.mem_cons_self ..)
    obtain ⟨hin, hout⟩ := ih (tblPut t a.id (sigEnter a f)) hn fun d hd => by
      rw [tblFind_put, if_neg (away d hd)]
      exact ht d (List.mem_cons_of_mem _ hd)
    simp only [List.foldl_cons, hfree]
    refine ⟨fun d hd => ?_, fun k hk => ?_⟩
    · rcases List.mem_cons.1 hd with rfl | hd
      · rw [hout _ away, tblFind_put, if_pos rfl]
      · exact hin d hd
    · rw [hout k fun d hd => hk d (List.mem_cons_of_mem _ hd), tblFind_put, if_neg (hk a (List.mem_cons_self ..)).symm]

theorem enterDir_nil {p : Program} (hn : (p.sigs.map fun d => d.id).Nodup) (f : Nat) {d : SigDef} (hd : d ∈ p.sigs) :
    tblFind (enterDir [] p f) d.id = some (sigEnter d f) :=
  (enterDir_fold f p.sigs [] hn fun _ _ => rfl).1 d hd

theorem tblOf_fold {α : Type} (l : List (Nat × α)) (t : Tbl α) (hn : (l.map (·.1)).Nodup) :
    (∀ p ∈ l, tblFind (l.foldl (fun t p => tblPut t p.1 p.2) t) p.1 = some p.2) ∧
      ∀ k, (∀ p ∈ l, p.1 ≠ k) → tblFind (l.foldl (fun t p => tblPut t p.1 p.2) t) k = tblFind t k := by
  induction l generalizing t with
  | nil => exact ⟨fun _ h => (List.not_mem_nil h).elim, fun _ _ => rfl⟩
  | cons a l ih =>
    rw [List.map_cons, List.nodup_cons] at hn
    obtain ⟨ha, hn⟩ := hn
    obtain ⟨hin, hout⟩ := ih (tblPut t a.1 a.2) hn
    refine ⟨fun p hp => ?_, fun k hk => ?_⟩
    · rcases List.mem_cons.1 hp with rfl | hp
      · rw [List.foldl_cons, hout _ fun q hq he => ha (List.mem_map.2 ⟨q, hq, he⟩), tblFind_put, if_pos rfl]
      · exact hin p hp
    · rw [List.foldl_cons, hout k fun p hp => hk p (List.mem_cons_of_mem _ hp), tblFind_put, if_neg (hk a (List.mem_cons_self ..)).symm]

theorem tblFind_tblOf {α : Type} {l : List (Nat × α)} (hn : (l.map (·.1)).Nodup) {p : Nat × α} (hp : p ∈ l) : tblFind (tblOf l) p.1 = some p.2 :=
  (tblOf_fold l [] hn).1 p hp

/-! ### Restore -/

/-- One entry of a record restored. -/
def Chan.restoreEnt (c : Chan) : RetEnt → Chan
  | .sig id w3 v => { c with dir := tblMod c.dir id fun d => { d with w3 := withField w3 1 1 0, val := v } }
  | .slot i v => { c with slots := tblMod c.slots i fun _ => v }

theorem restoreChan_eq (c : Chan) (b : RetBuf) : restoreChan c b = b.body.foldl Chan.restoreEnt c := rfl

theorem restoreEnt_rx (c : Chan) (e : RetEnt) : (c.restoreEnt e).rx0 = c.rx0 := by cases e <;> rfl

theorem restoreChan_rx (c : Chan) (b : RetBuf) : (restoreChan c b).rx0 = c.rx0 := by
  rw [restoreChan_eq]
  generalize b.body = l
  induction l generalizing c with
  | nil => rfl
  | cons e l ih => exact (ih _).trans (restoreEnt_rx c e)

theorem restoreEnt_dir (c : Chan) {id : Nat} {e : RetEnt} (he : ∀ w3 v, e ≠ .sig id w3 v) : tblFind (c.restoreEnt e).dir id = tblFind c.dir id := by
  cases e with
  | slot i v => rfl
  | sig k w3 v => exact tblFind_mod_ne _ _ fun hk => he w3 v (by rw [hk])

theorem restoreEnt_slots (c : Chan) {i : Nat} {e : RetEnt} (he : ∀ v, e ≠ .slot i v) : tblFind (c.restoreEnt e).slots i = tblFind c.slots i := by
  cases e with
  | sig id w3 v => rfl
  | slot k v => exact tblFind_mod_ne _ _ fun hk => he v (by rw [hk])

/-- A signal that a record does not hold stays as it was. -/
theorem restore_dir_unheld {id : Nat} (l : List RetEnt) (hl : ∀ w3 v, RetEnt.sig id w3 v ∉ l) (c : Chan) :
    tblFind (l.foldl Chan.restoreEnt c).dir id = tblFind c.dir id := by
  induction l generalizing c with
  | nil => rfl
  | cons e l ih =>
    rw [List.foldl_cons, ih fun w3 v hm => hl w3 v (List.mem_cons_of_mem _ hm)]
    exact restoreEnt_dir c fun w3 v he => hl w3 v (he ▸ List.mem_cons_self ..)

/-- A slot that a record does not hold stays as it was. -/
theorem restore_slots_unheld {i : Nat} (l : List RetEnt) (hl : ∀ v, RetEnt.slot i v ∉ l) (c : Chan) :
    tblFind (l.foldl Chan.restoreEnt c).slots i = tblFind c.slots i := by
  induction l generalizing c with
  | nil => rfl
  | cons e l ih =>
    rw [List.foldl_cons, ih fun v hm => hl v (List.mem_cons_of_mem _ hm)]
    exact restoreEnt_slots c fun v he => hl v (he ▸ List.mem_cons_self ..)

/-- A signal that a record holds, as one value, is restored to it. -/
theorem restore_dir_held {id : Nat} {w3 : W32} {v : List Byte} (l : List RetEnt) (hm : RetEnt.sig id w3 v ∈ l)
    (hl : ∀ w3' v', RetEnt.sig id w3' v' ∈ l → w3' = w3 ∧ v' = v) (c : Chan) {d : DirEnt} (hd : tblFind c.dir id = some d) :
    tblFind (l.foldl Chan.restoreEnt c).dir id = some ⟨d.w0, d.w1, d.w2, withField w3 1 1 0, v⟩ := by
  induction l generalizing c d with
  | nil => exact (List.not_mem_nil hm).elim
  | cons e l ih =>
    have hl' : ∀ w3' v', RetEnt.sig id w3' v' ∈ l → w3' = w3 ∧ v' = v := fun w3' v' h => hl w3' v' (List.mem_cons_of_mem _ h)
    rw [List.foldl_cons]
    by_cases he : e = .sig id w3 v
    · subst he
      have hc : tblFind (c.restoreEnt (.sig id w3 v)).dir id = some ⟨d.w0, d.w1, d.w2, withField w3 1 1 0, v⟩ := by
        rw [Chan.restoreEnt, tblFind_mod_same, hd]; rfl
      by_cases hin : RetEnt.sig id w3 v ∈ l
      · exact ih (d := ⟨d.w0, d.w1, d.w2, withField w3 1 1 0, v⟩) hin hl' _ hc
      · rw [restore_dir_unheld l (fun w3' v' h => hin (by obtain ⟨rfl, rfl⟩ := hl' w3' v' h; exact h)), hc]
    · have hin := (List.mem_cons.1 hm).resolve_left fun h => he h.symm
      refine ih hin hl' _ ((restoreEnt_dir c fun w3' v' h => he ?_).trans hd)
      obtain ⟨rfl, rfl⟩ := hl w3' v' (h ▸ List.mem_cons_self ..)
      exact h

/-- A slot that a record holds, as one value, is restored to it. -/
theorem restore_slots_held {i : Nat} {v : Slot} (l : List RetEnt) (hm : RetEnt.slot i v ∈ l) (hl : ∀ v', RetEnt.slot i v' ∈ l → v' = v)
    (c : Chan) (hd : (tblFind c.slots i).isSome = true) : tblFind (l.foldl Chan.restoreEnt c).slots i = some v := by
  induction l generalizing c with
  | nil => exact (List.not_mem_nil hm).elim
  | cons e l ih =>
    have hl' : ∀ v', RetEnt.slot i v' ∈ l → v' = v := fun v' h => hl v' (List.mem_cons_of_mem _ h)
    rw [List.foldl_cons]
    by_cases he : e = .slot i v
    · subst he
      have hc : tblFind (c.restoreEnt (.slot i v)).slots i = some v := by
        obtain ⟨d, hd⟩ := Option.isSome_iff_exists.1 hd
        rw [Chan.restoreEnt, tblFind_mod_same, hd]; rfl
      by_cases hin : RetEnt.slot i v ∈ l
      · exact ih hin hl' _ (by rw [hc]; rfl)
      · rw [restore_slots_unheld l (fun v' h => hin (hl' v' h ▸ h)), hc]
    · have hin := (List.mem_cons.1 hm).resolve_left fun h => he h.symm
      refine ih hin hl' _ ?_
      rw [restoreEnt_slots c fun v' h => he (hl v' (h ▸ List.mem_cons_self ..) ▸ h)]
      exact hd

/-! ### The load -/

/-- The registers that a version loads after its number. -/
def loadLateOffs : List Nat :=
  (List.range 8).map (fun o => (R.SIO.OSRC.SIGID o).off) ++
    [R.SIG.NSIG.COUNT.off, R.SIG.HOTUSE.KIB.off, R.SIG.COLDUSE.KIB.off, R.NET.TABN.PUBN.off]

/-- The registers that a version loads. -/
def loadOffs : List Nat :=
  (List.range 8).map (fun k => (R.TASK.PER.all k).off) ++ [R.TASK.SCHEDID.ID.off, R.TASK.SCHEDINF.MAXSEG.off, R.TASK.PVER.fld.off] ++ loadLateOffs

/-- From `s` to `t` only registers of `l` and the network's tables changed. -/
def LoadsOnly (l : List Nat) (s t : State) : Prop := t = { s with regs := t.regs, net := t.net } ∧ RegsKept s t l

namespace LoadsOnly

variable {l : List Nat} {s t : State}

theorem refl (s : State) : LoadsOnly l s s := ⟨rfl, fun _ _ => rfl⟩

theorem setReg (h : LoadsOnly l s t) (o : Nat) (v : W32) (ho : o ∈ l) : LoadsOnly l s (t.setReg o v) :=
  ⟨congrArg (fun u : State => { u with regs := (t.setReg o v).regs }) h.1,
    fun o' h' => (reg_setReg_ne _ _ fun he => h' (by rw [he]; exact ho)).trans (h.2 o' h')⟩

theorem set (h : LoadsOnly l s t) (f : Fld) (n : Nat) (hf : f.off ∈ l) : LoadsOnly l s (t.set f n) := h.setReg _ _ hf

theorem net (h : LoadsOnly l s t) (n : NetSt) : LoadsOnly l s { t with net := n } :=
  ⟨congrArg (fun u : State => { u with net := n }) h.1, h.2⟩

theorem forN (h : LoadsOnly l s t) (n : Nat) {f : State → Nat → State} (hf : ∀ t i, i < n → LoadsOnly l s t → LoadsOnly l s (f t i)) :
    LoadsOnly l s (forN n t f) := by
  have fold (k : List Nat) (hk : ∀ i ∈ k, i < n) (u : State) (hu : LoadsOnly l s u) : LoadsOnly l s (k.foldl f u) := by
    induction k generalizing u with
    | nil => exact hu
    | cons i k ih => exact ih (fun j hj => hk j (List.mem_cons_of_mem _ hj)) _ (hf u i (hk i (List.mem_cons_self ..)) hu)
  exact fold _ (fun i hi => List.mem_range.1 hi) t h

theorem trans {u : State} {m : List Nat} (h : LoadsOnly l s t) (k : LoadsOnly m t u) : LoadsOnly (l ++ m) s u :=
  ⟨k.1.trans (congrArg (fun x : State => { x with regs := u.regs, net := u.net }) h.1), h.2.trans k.2⟩

theorem get {f : Fld} (h : LoadsOnly l s t) (hf : f.off ∉ l) : t.get f = s.get f := regsKept_get h.2 hf

end LoadsOnly

theorem loadRegs_spec (s : State) (p : Program) :
    LoadsOnly loadOffs s (s.loadRegs p) ∧ (s.loadRegs p).get R.TASK.PVER.fld = p.pver.toNat := by
  have per : LoadsOnly ((List.range 8).map fun k => (R.TASK.PER.all k).off) s (forN 8 s fun t k => t.setReg (R.TASK.PER.all k).off (perWord p k &&& 0xF33FFF)) :=
    LoadsOnly.forN (.refl s) 8 fun t k hk h => h.setReg _ _ (List.mem_map.2 ⟨k, List.mem_range.2 hk, rfl⟩)
  unfold State.loadRegs
  generalize forN 8 s (fun t k => t.setReg (R.TASK.PER.all k).off (perWord p k &&& 0xF33FFF)) = a at per ⊢
  have ver : LoadsOnly [R.TASK.SCHEDID.ID.off, R.TASK.SCHEDINF.MAXSEG.off, R.TASK.PVER.fld.off] a
      ((((a.set R.TASK.SCHEDID.ID p.schedId.toNat).set R.TASK.SCHEDINF.MAXSEG p.maxSeg).set R.TASK.SCHEDINF.HYPER p.hyper).set R.TASK.PVER.fld p.pver.toNat) :=
    (((LoadsOnly.refl a).set _ _ (by decide)).set _ _ (by decide)).set _ _ (by decide) |>.set _ _ (by decide)
  have hver := get_set_same (((a.set R.TASK.SCHEDID.ID p.schedId.toNat).set R.TASK.SCHEDINF.MAXSEG p.maxSeg).set R.TASK.SCHEDINF.HYPER p.hyper)
    (f := R.TASK.PVER.fld) p.pver.toNat rfl
  dsimp only
  generalize (((a.set R.TASK.SCHEDID.ID p.schedId.toNat).set R.TASK.SCHEDINF.MAXSEG p.maxSeg).set R.TASK.SCHEDINF.HYPER p.hyper).set R.TASK.PVER.fld
    p.pver.toNat = v at ver hver ⊢
  have late : LoadsOnly loadLateOffs v (((forN 8 v fun t o => t.set (R.SIO.OSRC.SIGID o) (p.osrc.getD o 0)).showUse p).loadTables p) := by
    have src : LoadsOnly loadLateOffs v (forN 8 v fun t o => t.set (R.SIO.OSRC.SIGID o) (p.osrc.getD o 0)) :=
      LoadsOnly.forN (.refl v) 8 fun t o ho h =>
        h.set _ _ (List.mem_append_left _ (List.mem_map.2 ⟨o, List.mem_range.2 ho, rfl⟩))
    have use : LoadsOnly loadLateOffs v ((forN 8 v fun t o => t.set (R.SIO.OSRC.SIGID o) (p.osrc.getD o 0)).showUse p) :=
      ((src.set _ _ (by decide)).set _ _ (by decide)).set _ _ (by decide)
    unfold State.loadTables
    exact ((use.net _).set _ _ (by decide)).set _ _ (by decide)
  refine ⟨(per.trans ver).trans late, (late.get (by decide)).trans (hver.trans (Nat.mod_eq_of_lt p.pver.isLt))⟩

/-! ### Channels loaded -/

theorem foldInputs_dir (c : Chan) (f : Nat) (l : List (BitVec 128)) :
    (l.foldl (fun c i => c.foldInput f i) c).dir = c.dir ∧ (l.foldl (fun c i => c.foldInput f i) c).slots = c.slots ∧
      (l.foldl (fun c i => c.foldInput f i) c).rx0 = c.rx0 := by
  induction l generalizing c with
  | nil => exact ⟨rfl, rfl, rfl⟩
  | cons i l ih => exact ih (c.foldInput f i)

/-- A loader's channel after a load without restore. -/
structure Loaded (w : Word) (p : Program) (c : Chan) : Prop where
  rx : c.rx0 = w
  dir : ∃ f, c.dir = enterDir [] (versionAs w p) f
  slots : c.slots = tblOf ((versionAs w p).slots.map fun d => (d.idx, slotCold d))

theorem versionAs_ids (w : Word) (p : Program) : (versionAs w p).sigs.map (fun d => d.id) = p.sigs.map (fun d => d.id) := by
  unfold versionAs
  split
  · rfl
  · rw [List.map_map]; rfl

theorem versionAs_idxs (w : Word) (p : Program) : (versionAs w p).slots.map (fun d => d.idx) = p.slots.map (fun d => d.idx) := by
  unfold versionAs
  split
  · rfl
  · rw [List.map_map]; rfl

namespace Loaded

variable {w : Word} {p : Program} {c : Chan}

theorem sig (h : Loaded w p c) (hn : (p.sigs.map fun d => d.id).Nodup) {g : SigDef} (hg : g ∈ (versionAs w p).sigs) :
    ∃ w3, tblFind c.dir g.id = some ⟨g.w0, g.w1, g.w2, w3, bytesAt g.init 0 (defEnt g).size⟩ ∧ fieldOf w3 0 6 = 0x20 := by
  obtain ⟨-, ⟨f, hdir⟩, -⟩ := h
  rw [hdir]
  exact ⟨word3 f 0x20, enterDir_nil (by rw [versionAs_ids]; exact hn) f hg, (word3_qual f 0x20 (by decide)).trans (by decide)⟩

theorem slot (h : Loaded w p c) (hn : (p.slots.map fun d => d.idx).Nodup) {d : SlotDef} (hd : d ∈ (versionAs w p).slots) :
    tblFind c.slots d.idx = some (slotCold d) := by
  rw [h.slots]
  refine tblFind_tblOf (p := (d.idx, slotCold d)) ?_ (List.mem_map_of_mem hd)
  rw [List.map_map, show (Prod.fst ∘ fun d : SlotDef => (d.idx, slotCold d)) = fun d => d.idx from rfl, versionAs_idxs]
  exact hn

end Loaded

theorem initHome4_eq (s : State) (l : List SigDef) : s.initHome4 l = { s with smem := (s.initHome4 l).smem } := by
  unfold State.initHome4
  induction l generalizing s with
  | nil => rfl
  | cons d l ih =>
    rw [List.foldl_cons]
    split
    · exact (ih _).trans rfl
    · exact ih s

theorem included_congr {s t : State} (hr : t.get R.VOTE.MODE.INCL = s.get R.VOTE.MODE.INCL) : t.included = s.included := by
  funext ch
  rw [State.included, State.bit, hr, State.included, State.bit]

theorem wrongBits_congr {s t : State} (hr : t.get R.VOTE.MODE.INCL = s.get R.VOTE.MODE.INCL) (hv : t.vote = s.vote) (ch : Ch) : t.wrongBits ch = s.wrongBits ch := by
  unfold State.wrongBits State.leadCh State.incl
  rw [included_congr hr, hv]

theorem follows_of_included {s : State} {ch : Ch} (h : s.included ch = true) : s.follows ch = true := by
  rw [State.follows, State.executing, h]; rfl

/-- A program put into every included channel. -/
def State.loadFresh (s : State) (p : Program) : State :=
  ((s.eachCh s.included fun ch c => freshChan c (versionAs (s.wrongBits ch) p) s.gong.frame).foldVersion false p).initHome4 p.sigs

theorem loadFresh_spec (s : State) (p : Program) :
    s.loadFresh p = { s with chA := (s.loadFresh p).chA, chB := (s.loadFresh p).chB, chC := (s.loadFresh p).chC, smem := (s.loadFresh p).smem } ∧
      ∀ ch, s.included ch = true → Loaded (s.wrongBits ch) p ((s.loadFresh p).ch ch) := by
  have hx : s.eachCh s.included (fun ch c => freshChan c (versionAs (s.wrongBits ch) p) s.gong.frame) = { s with
      chA := (s.eachCh s.included fun ch c => freshChan c (versionAs (s.wrongBits ch) p) s.gong.frame).chA
      chB := (s.eachCh s.included fun ch c => freshChan c (versionAs (s.wrongBits ch) p) s.gong.frame).chB
      chC := (s.eachCh s.included fun ch c => freshChan c (versionAs (s.wrongBits ch) p) s.gong.frame).chC } := by rw [eachCh_eq]
  have hch := eachCh_ch s s.included fun ch c => freshChan c (versionAs (s.wrongBits ch) p) s.gong.frame
  unfold State.loadFresh
  generalize s.eachCh s.included (fun ch c => freshChan c (versionAs (s.wrongBits ch) p) s.gong.frame) = x at hx hch ⊢
  have hxr : x.get R.VOTE.MODE.INCL = s.get R.VOTE.MODE.INCL := get_congr (by rw [hx]) _
  have hxv : x.vote = s.vote := by rw [hx]
  have hy : x.foldVersion false p = { x with
      chA := (x.foldVersion false p).chA, chB := (x.foldVersion false p).chB, chC := (x.foldVersion false p).chC } := by
    rw [State.foldVersion, eachCh_eq]
  have hych (ch : Ch) (hi : s.included ch = true) : Loaded (s.wrongBits ch) p ((x.foldVersion false p).ch ch) := by
    rw [State.foldVersion, eachCh_ch, if_pos (follows_of_included (by rw [included_congr hxr]; exact hi)), wrongBits_congr hxr hxv, hch, if_pos hi]
    obtain ⟨hd, hs, -⟩ := foldInputs_dir (freshChan (s.ch ch) (versionAs (s.wrongBits ch) p) s.gong.frame) x.gong.frame
      (versionItems (s.wrongBits ch) p)
    exact ⟨rfl, ⟨s.gong.frame, hd⟩, hs⟩
  generalize x.foldVersion false p = y at hy hych ⊢
  have hz := initHome4_eq y p.sigs
  have hzch (ch : Ch) : (y.initHome4 p.sigs).ch ch = y.ch ch := by
    rw [hz]
    cases ch <;> rfl
  generalize y.initHome4 p.sigs = z at hz hzch ⊢
  refine ⟨?_, fun ch hi => ?_⟩
  · rw [hz, hy, hx]
  · rw [hzch]
    exact hych ch hi

/-- The record that a start restores. -/
def State.startRec (s : State) (p : Program) : Option RetBuf :=
  if s.sup.warm then s.chosenRec p.pver (s.reg R.CFG.CURVER.CFGVER.off) else none

/-- The frame that the start then shows as restored. -/
def State.restoredFrame (s : State) (p : Program) : Option Nat := match s.startRec p with
  | some b => some b.frame
  | none => s.boot.fRec

/-- A channel restored from a record as its loader received it. -/
def State.restored (s : State) (b : RetBuf) (ch : Ch) (c : Chan) : Chan :=
  (recordItems (receivedRecord (s.receivedBytes ch) b)).foldl (fun c i => c.foldInput s.gong.frame i) (restoreChan c (receivedRecord (s.receivedBytes ch) b))

theorem loadChannels_eq (s : State) (p : Program) : s.loadChannels p = match s.startRec p with
    | some b =>
      let t := (s.loadFresh p).eachCh s.included fun ch c => s.restored b ch c
      { t with boot := { t.boot with fRec := some b.frame } }.setPair R.TASK.RETF_LO.FRAME R.TASK.RETF_HI.FRAME b.frame
    | none => s.loadFresh p := rfl

theorem loadChannels_spec (s : State) (p : Program) :
    (s.loadChannels p = { s with
      regs := (s.loadChannels p).regs, chA := (s.loadChannels p).chA, chB := (s.loadChannels p).chB, chC := (s.loadChannels p).chC
      smem := (s.loadChannels p).smem, boot := { s.boot with fRec := s.restoredFrame p } } ∧
      RegsKept s (s.loadChannels p) [R.TASK.RETF_LO.FRAME.off, R.TASK.RETF_HI.FRAME.off]) ∧
      ∀ ch, s.included ch = true → ∃ c, Loaded (s.wrongBits ch) p c ∧
        (s.loadChannels p).ch ch = match s.startRec p with
          | some b => s.restored b ch c
          | none => c := by
  obtain ⟨hu, hload⟩ := loadFresh_spec s p
  have hr : (s.loadFresh p).regs = s.regs := by rw [hu]
  rw [loadChannels_eq, State.restoredFrame]
  generalize s.loadFresh p = u at hu hload hr ⊢
  cases s.startRec p with
  | none =>
    dsimp only
    refine ⟨⟨?_, fun o _ => by rw [State.reg, hr, State.reg]⟩, fun ch hi => ⟨_, hload ch hi, rfl⟩⟩
    rw [hr]
    exact hu
  | some b =>
    dsimp only
    have hx : u.eachCh s.included (fun ch c => s.restored b ch c) = { u with
        chA := (u.eachCh s.included fun ch c => s.restored b ch c).chA
        chB := (u.eachCh s.included fun ch c => s.restored b ch c).chB
        chC := (u.eachCh s.included fun ch c => s.restored b ch c).chC } := by rw [eachCh_eq]
    have hch := eachCh_ch u s.included fun ch c => s.restored b ch c
    generalize u.eachCh s.included (fun ch c => s.restored b ch c) = x at hx hch ⊢
    have hxr : x.regs = s.regs := by rw [hx]; exact hr
    have hxb : x.boot = s.boot := by rw [hx, hu]
    have hxs : x = { s with chA := x.chA, chB := x.chB, chC := x.chC, smem := x.smem } := by rw [hx, hu]
    rw [hxb]
    refine ⟨⟨?_, ?_⟩, fun ch hi => ⟨_, hload ch hi, ?_⟩⟩
    · obtain ⟨g, hg⟩ : ∃ g, { x with boot := { s.boot with fRec := some b.frame } }.setPair R.TASK.RETF_LO.FRAME R.TASK.RETF_HI.FRAME b.frame =
        { x with boot := { s.boot with fRec := some b.frame }, regs := g } := ⟨_, rfl⟩
      rw [hg]
      exact congrArg (fun u : State => { u with boot := { s.boot with fRec := some b.frame }, regs := g }) hxs
    · have hw : RegsKept s { x with boot := { s.boot with fRec := some b.frame } } [] := fun o _ => by rw [State.reg, hxr, State.reg]
      exact (hw.trans (.set _ R.TASK.RETF_LO.FRAME _)).trans (.set _ R.TASK.RETF_HI.FRAME _)
    · refine Eq.trans ?_ ((hch ch).trans (if_pos hi))
      cases ch <;> rfl

/-! ### PROGRAM_LOAD -/

/-- What a start leaves of the retain areas (R19). -/
theorem clearUnlessWarm_ret (s : State) :
    (s.sup.warm = true → (if s.sup.warm then s else s.clearRetain) = s) ∧
      (s.sup.warm = false → (if s.sup.warm then s else s.clearRetain) = s.clearRetain) :=
  ⟨fun h => if_pos h, fun h => if_neg (by rw [h]; decide)⟩

theorem firstReason_mem (l : List (Nat × Bool)) : firstReason l = 0 ∨ ∃ p ∈ l, p.2 = true ∧ firstReason l = p.1 := by
  induction l with
  | nil => exact .inl rfl
  | cons p l ih =>
    rw [firstReason]
    split
    · next hp => exact .inr ⟨p, List.mem_cons_self .., hp, rfl⟩
    · exact ih.imp_right fun ⟨q, hq, h⟩ => ⟨q, List.mem_cons_of_mem _ hq, h⟩

theorem firstReason_zero {l : List (Nat × Bool)} (hl : ∀ p ∈ l, p.1 ≠ 0) (h : firstReason l = 0) : ∀ p ∈ l, p.2 = false := by
  induction l with
  | nil => exact fun _ hp => (List.not_mem_nil hp).elim
  | cons q l ih =>
    rw [firstReason] at h
    split at h
    · exact absurd h (hl q (List.mem_cons_self ..))
    · next hq =>
      intro p hp
      rcases List.mem_cons.1 hp with rfl | hp
      · simpa using hq
      · exact ih (fun p hp => hl p (List.mem_cons_of_mem _ hp)) h p hp

/-- The plug does not fit the program that this start loads. -/
def State.loadMis (s : State) : Bool := match s.slotProgram s.loadSlot with
  | some p => s.plugMis p
  | none => s.get R.ID.PLUG.VALID = 0

/-- The reasons to stop, in the order of Table 16-10. -/
def State.stopReasons (s : State) : List (Nat × Bool) :=
  [(1, !s.noProgram && (match s.slotProgram s.loadSlot with | some p => !programOk p s.pUs | none => true)), (2, s.factoryImage.isNone),
    (3, s.loadMis), (4, s.lcs = 0 || s.lcs = 4), (8, s.noProgram)]

theorem stopCode_eq (s : State) : s.stopCode = firstReason s.stopReasons := rfl

theorem stopReasons_code {s : State} {p : Nat × Bool} (hp : p ∈ s.stopReasons) : p.1 ∈ [1, 2, 3, 4, 8] :=
  (List.mem_map_of_mem (f := Prod.fst) hp : p.1 ∈ s.stopReasons.map Prod.fst)

theorem stopCode_lt (s : State) : s.stopCode < 16 := by
  have low : ∀ n ∈ [1, 2, 3, 4, 8], n < 16 := by decide
  rw [stopCode_eq]
  rcases firstReason_mem s.stopReasons with h | ⟨p, hp, -, h⟩
  · rw [h]; decide
  · rw [h]; exact low _ (stopReasons_code hp)

theorem loadMis_false {s : State} (h : s.stopCode = 0) : s.loadMis = false := by
  have pos : ∀ n ∈ [1, 2, 3, 4, 8], n ≠ 0 := by decide
  exact firstReason_zero (fun p hp => pos _ (stopReasons_code hp)) h (3, s.loadMis) (by simp [State.stopReasons])

/-- What PROGRAM_LOAD does where it is not ignored. -/
def State.loadStep (s : State) (digest : BitVec 256) : State :=
  let s0 := if s.sup.warm then s else s.clearRetain
  let s1 := if s.loadMis then s0.flag R.ID.FLAG.PLUGMIS else s0
  if s.stopCode ≠ 0 then s1.set R.SUP.STATE.STOPC s.stopCode
  else if s.loadWrong digest then (s1.flag R.UPD.FLAG.LOADERR).set R.SUP.STATE.STOPC 6
  else match s.slotProgram s.loadSlot with
    | none => s1
    | some p =>
      let s2 := ({ s1 with bank0 := some p, bank1 := none, act := false }.loadRegs p).loadChannels p
      { s2 with boot := { s2.boot with program := true, prgDig := some digest } }

theorem exec_programLoad {s : State} (hm : s.mstate = .init) (hp : s.boot.program = false) (hz : s.get R.SUP.STATE.STOPC = 0) (dig : BitVec 256) :
    exec (.programLoad dig) s = s.whilePowered (s.loadStep dig) :=
  congrArg s.whilePowered (if_neg (by rw [hm, hp, hz]; decide))

/-- The retain areas after a start: kept by a warm one, empty after a cold one. -/
structure RetainAfter (s : State) (r : RetSt) : Prop where
  warm : s.sup.warm = true → r = s.ret
  cold : s.sup.warm = false → r.a = ⟨none, none⟩ ∧ r.b = ⟨none, none⟩ ∧ r.c = ⟨none, none⟩ ∧ r.seq = 0

theorem retainAfter (s : State) : ∃ r, (if s.sup.warm then s else s.clearRetain) = { s with ret := r } ∧ RetainAfter s r := by
  cases hw : s.sup.warm
  · exact ⟨s.clearRetain.ret, rfl, fun h => absurd (hw.symm.trans h) (by decide), fun _ => ⟨rfl, rfl, rfl, rfl⟩⟩
  · exact ⟨s.ret, rfl, fun _ => rfl, fun h => absurd (hw.symm.trans h) (by decide)⟩

theorem loadStep_stops {s : State} (h : s.stopCode ≠ 0) (dig : BitVec 256) :
    let t := s.loadStep dig
    t = { s with regs := t.regs, ret := t.ret } ∧ RetainAfter s t.ret ∧ t.get R.SUP.STATE.STOPC = s.stopCode ∧
      RegsKept s t [R.SUP.STATE.STOPC.off, R.ID.FLAG.PLUGMIS.off] := by
  obtain ⟨r, hr, hret⟩ := retainAfter s
  dsimp only
  rw [State.loadStep, if_pos h, hr]
  have hval (u : State) : (u.set R.SUP.STATE.STOPC s.stopCode).get R.SUP.STATE.STOPC = s.stopCode :=
    (get_set_same _ _ rfl).trans (Nat.mod_eq_of_lt (stopCode_lt s))
  split
  · exact ⟨rfl, hret, hval _, ((RegsKept.set _ R.ID.FLAG.PLUGMIS 1).trans (.set _ R.SUP.STATE.STOPC _)).mono (by decide)⟩
  · exact ⟨rfl, hret, hval _, (RegsKept.set _ R.SUP.STATE.STOPC _).mono (by decide)⟩

theorem loadStep_wrong {s : State} (h : s.stopCode = 0) {dig : BitVec 256} (hw : s.loadWrong dig = true) :
    let t := s.loadStep dig
    t = { s with regs := t.regs, ret := t.ret } ∧ RetainAfter s t.ret ∧ FieldsSet s t [(R.UPD.FLAG.LOADERR, 1), (R.SUP.STATE.STOPC, 6)] := by
  obtain ⟨r, hr, hret⟩ := retainAfter s
  dsimp only
  rw [State.loadStep, if_neg (by rw [h]; decide), if_pos hw, hr, loadMis_false h]
  exact ⟨rfl, hret, (((FieldsSet.refl s).of_regs rfl).put R.UPD.FLAG.LOADERR 1 rfl).put R.SUP.STATE.STOPC 6 rfl⟩

theorem loadWrong_iff {s : State} {dig : BitVec 256} :
    s.loadWrong dig = true ↔ ∃ i, s.img s.loadSlot = some i ∧ dig ≠ sectsDigest i.man [6] := by
  rw [State.loadWrong, Option.any_eq_true]
  simp

theorem startRec_congr {s t : State} {p : Program} (hs : t.sup = s.sup) (hr : s.sup.warm = true → t.ret = s.ret)
    (hv : t.reg R.CFG.CURVER.CFGVER.off = s.reg R.CFG.CURVER.CFGVER.off) : t.startRec p = s.startRec p := by
  unfold State.startRec
  rw [hs, hv]
  cases hw : s.sup.warm
  · rfl
  · simp only [State.chosenRec, hr hw]

/-- What a load leaves: program, bank and frame of the record, and every included channel as its loader received it. -/
structure ProgramLoaded (s t : State) (p : Program) : Prop where
  ret : RetainAfter s t.ret
  bank0 : t.bank0 = some p
  bank1 : t.bank1 = none
  act : t.act = false
  program : t.boot.program = true
  pver : t.get R.TASK.PVER.fld = p.pver.toNat
  fRec : t.boot.fRec = s.restoredFrame p
  chan : ∀ ch, s.included ch = true → ∃ c, Loaded (s.wrongBits ch) p c ∧ t.ch ch = match s.startRec p with
    | some b => s.restored b ch c
    | none => c

theorem restored_congr {s t : State} (hg : t.gong = s.gong) {ch : Ch} (hw : t.wrongBits ch = s.wrongBits ch) (b : RetBuf) (c : Chan) :
    t.restored b ch c = s.restored b ch c := by
  have hrx : t.receivedBytes ch = s.receivedBytes ch := by
    funext l
    rw [State.receivedBytes, hw, State.receivedBytes]
  unfold State.restored
  rw [hrx, hg]

theorem loadStep_loads {s : State} (h : s.stopCode = 0) {dig : BitVec 256} (hw : s.loadWrong dig = false) {p : Program}
    (hp : s.slotProgram s.loadSlot = some p) : ProgramLoaded s (s.loadStep dig) p := by
  obtain ⟨r, hr, hret⟩ := retainAfter s
  rw [State.loadStep, if_neg (by rw [h]; decide), if_neg (by rw [hw]; decide), hr, loadMis_false h, hp]
  obtain ⟨⟨ha, hregs⟩, hver⟩ := loadRegs_spec { s with ret := r, bank0 := some p, bank1 := none, act := false } p
  dsimp only
  rw [if_neg (by decide)]
  generalize { s with ret := r, bank0 := some p, bank1 := none, act := false }.loadRegs p = a at ha hregs hver ⊢
  obtain ⟨⟨hb, hbregs⟩, hch⟩ := loadChannels_spec a p
  have hsup : a.sup = s.sup := by rw [ha]
  have hvote : a.vote = s.vote := by rw [ha]
  have hgong : a.gong = s.gong := by rw [ha]
  have haret : a.ret = r := by rw [ha]
  have hincl : a.get R.VOTE.MODE.INCL = s.get R.VOTE.MODE.INCL := regsKept_get hregs (by decide)
  have hrec : a.startRec p = s.startRec p := startRec_congr hsup (fun hw => haret.trans (hret.warm hw)) (hregs _ (by decide))
  have hframe : a.restoredFrame p = s.restoredFrame p := by rw [State.restoredFrame, hrec, ha, State.restoredFrame]
  generalize a.loadChannels p = b at hb hbregs hch ⊢
  exact {
    ret := by rw [hb]; exact haret ▸ hret
    bank0 := by rw [hb, ha]
    bank1 := by rw [hb, ha]
    act := by rw [hb, ha]
    program := rfl
    pver := (regsKept_get hbregs (by decide)).trans hver
    fRec := by rw [hb]; exact hframe
    chan := fun ch hi => by
      obtain ⟨c, hc, he⟩ := hch ch (by rw [included_congr hincl]; exact hi)
      have hwb := wrongBits_congr hincl hvote ch
      rw [hwb] at hc
      rw [hrec] at he
      refine ⟨c, hc, Eq.trans (by cases ch <;> rfl) (he.trans ?_)⟩
      cases s.startRec p with
      | none => rfl
      | some b => exact restored_congr hgong hwb b c }

/-! ### What a restored channel holds -/

theorem receivedSig_mem {rx : List Byte → List Byte} {l : List RetEnt} {id : Nat} {w3 : W32} {v : List Byte} :
    RetEnt.sig id w3 v ∈ l.map (receivedEnt rx) ↔ ∃ w v', RetEnt.sig id w v' ∈ l ∧ receivedSig rx id w v' = (w3, v) := by
  rw [List.mem_map]
  constructor
  · rintro ⟨e, he, h⟩
    cases e with
    | slot i s => cases h
    | sig id' w v' =>
      cases h
      exact ⟨w, v', he, rfl⟩
  · rintro ⟨w, v', he, h⟩
    exact ⟨_, he, by rw [receivedEnt, h]⟩

theorem receivedSlot_mem {rx : List Byte → List Byte} {l : List RetEnt} {i : Nat} {v : Slot} :
    RetEnt.slot i v ∈ l.map (receivedEnt rx) ↔ ∃ v', RetEnt.slot i v' ∈ l ∧ bytesSlot (rx (slotBytes v')) v'.adopt = v := by
  rw [List.mem_map]
  constructor
  · rintro ⟨e, he, h⟩
    cases e with
    | sig id w v' => cases h
    | slot i' v' =>
      cases h
      exact ⟨v', he, rfl⟩
  · rintro ⟨v', he, rfl⟩
    exact ⟨_, he, rfl⟩

/-- The parts of a restored channel that its loader's record decides. -/
theorem restored_parts (s : State) (b : RetBuf) (ch : Ch) (c : Chan) :
    (s.restored b ch c).rx0 = c.rx0 ∧
      (s.restored b ch c).dir = ((b.body.map (receivedEnt (s.receivedBytes ch))).foldl Chan.restoreEnt c).dir ∧
      (s.restored b ch c).slots = ((b.body.map (receivedEnt (s.receivedBytes ch))).foldl Chan.restoreEnt c).slots := by
  obtain ⟨hd, hs, hrx⟩ := foldInputs_dir (restoreChan c (receivedRecord (s.receivedBytes ch) b)) s.gong.frame
    (recordItems (receivedRecord (s.receivedBytes ch) b))
  exact ⟨hrx.trans (restoreChan_rx ..), hd, hs⟩

section

variable {s : State} {ch : Ch} {c : Chan} {b : RetBuf}

theorem restored_dir_unheld {id : Nat} (h : ∀ w3 v, RetEnt.sig id w3 v ∉ b.body) : tblFind (s.restored b ch c).dir id = tblFind c.dir id := by
  rw [(restored_parts s b ch c).2.1]
  refine restore_dir_unheld _ (fun w3 v hm => ?_) c
  obtain ⟨w, v', hin, -⟩ := receivedSig_mem.1 hm
  exact h w v' hin

theorem restored_slots_unheld {i : Nat} (h : ∀ v, RetEnt.slot i v ∉ b.body) : tblFind (s.restored b ch c).slots i = tblFind c.slots i := by
  rw [(restored_parts s b ch c).2.2]
  refine restore_slots_unheld _ (fun v hm => ?_) c
  obtain ⟨v', hin, -⟩ := receivedSlot_mem.1 hm
  exact h v' hin

theorem restored_dir_held {id : Nat} {w3 : W32} {v : List Byte} {d : DirEnt} (hd : tblFind c.dir id = some d) (hm : RetEnt.sig id w3 v ∈ b.body)
    (hl : ∀ w3' v', RetEnt.sig id w3' v' ∈ b.body → w3' = w3 ∧ v' = v) :
    tblFind (s.restored b ch c).dir id = some ⟨d.w0, d.w1, d.w2, withField (receivedSig (s.receivedBytes ch) id w3 v).1 1 1 0,
      (receivedSig (s.receivedBytes ch) id w3 v).2⟩ := by
  rw [(restored_parts s b ch c).2.1]
  refine restore_dir_held _ (receivedSig_mem.2 ⟨w3, v, hm, rfl⟩) (fun w3' v' hm' => ?_) c hd
  obtain ⟨w, x, hin, he⟩ := receivedSig_mem.1 hm'
  obtain ⟨rfl, rfl⟩ := hl w x hin
  exact ⟨(congrArg Prod.fst he).symm, (congrArg Prod.snd he).symm⟩

theorem restored_slots_held {i : Nat} {v : Slot} {d : Slot} (hd : tblFind c.slots i = some d) (hm : RetEnt.slot i v ∈ b.body)
    (hl : ∀ v', RetEnt.slot i v' ∈ b.body → v' = v) :
    tblFind (s.restored b ch c).slots i = some (bytesSlot (s.receivedBytes ch (slotBytes v)) v.adopt) := by
  rw [(restored_parts s b ch c).2.2]
  refine restore_slots_held _ (receivedSlot_mem.2 ⟨v, hm, rfl⟩) (fun v' hm' => ?_) c (by rw [hd]; rfl)
  obtain ⟨x, hin, rfl⟩ := receivedSlot_mem.1 hm'
  rw [hl x hin]

end

/-- A channel without wrong bits receives what was sent. -/
theorem receivedBytes_right {s : State} {ch : Ch} (h : s.wrongBits ch = 0) (l : List Byte) : s.receivedBytes ch l = l := by
  rw [State.receivedBytes, h, xorBytes_zero]

/-! ### The start role (R199) -/

/-- The start role is decided. -/
def State.decideRole (s : State) (d : Role × Nat) : State :=
  if d.2 = 3 then { s with boot := { s.boot with role := some d } }.flag R.PAIR.FLAG.SLOTDUP else { s with boot := { s.boot with role := some d } }

theorem decideRole_spec (s : State) (d : Role × Nat) :
    s.decideRole d = { s with regs := (s.decideRole d).regs, boot := { s.boot with role := some d } } ∧
      FieldsSet s (s.decideRole d) (if d.2 = 3 then [(R.PAIR.FLAG.SLOTDUP, 1)] else []) := by
  unfold State.decideRole
  split
  · exact ⟨rfl, ((FieldsSet.refl s).of_regs rfl).put R.PAIR.FLAG.SLOTDUP 1 rfl⟩
  · exact ⟨rfl, (FieldsSet.refl s).of_regs rfl⟩

theorem decideRole_get (s : State) (d : Role × Nat) {f : Fld} (hf : besides f [(R.PAIR.FLAG.SLOTDUP, 1)] = true) : (s.decideRole d).get f = s.get f := by
  refine (decideRole_spec s d).2.2 f fun p hp => (besides_iff.1 hf).2 p ?_
  split at hp
  exacts [hp, (List.not_mem_nil hp).elim]

theorem takeDuties_fields (s : State) (m66 : Bool) :
    FieldsSet s (s.takeDuties m66) [(R.BRG.STATUS.HOLD, 1), (R.BRG.STATUS.M66EN, b2n m66), (R.BRG.STATUS.AFREQ, if m66 then s.get R.BRG.CFG.FREQ else 0),
      (R.BRG.STATUS.IDLE, 1)] :=
  (((OnlyFields.refl s).put R.BRG.STATUS.HOLD 1 rfl).setBus m66 rfl rfl rfl rfl).2.of_regs (by simp only [State.takeDuties])

theorem exec_startRole {s : State} (hm : s.mstate = .init) (hp : s.boot.program = true) (hr : s.boot.role = none) {d : Role × Nat}
    (hd : s.startRole = d) (m66 : Bool) :
    Does (.startRoleDecision m66) s fun t =>
      t.boot = { s.boot with role := some d } ∧
      (d.1 = .alone → t.get R.BRG.STATUS.HOLD = 1 ∧ t.brg.rst = true ∧ t.get R.BRG.STATUS.M66EN = b2n m66 ∧
        t.get R.BRG.STATUS.AFREQ = (if m66 then s.get R.BRG.CFG.FREQ else 0)) ∧
      (d.1 ≠ .alone → t = { s with regs := t.regs, boot := t.boot } ∧ FieldsSet s t (if d.2 = 3 then [(R.PAIR.FLAG.SLOTDUP, 1)] else [])) := by
  have hx : exec (.startRoleDecision m66) s = s.whilePowered (if d.1 = .alone then ((s.decideRole d).takeDuties m66).testCheck else s.decideRole d) := by
    subst hd
    exact congrArg s.whilePowered (if_neg (by rw [hm, hp, hr]; decide))
  refine does_of_whilePowered hx fun _ => ?_
  obtain ⟨hu, hfields⟩ := decideRole_spec s d
  have hfreq : (s.decideRole d).get R.BRG.CFG.FREQ = s.get R.BRG.CFG.FREQ := decideRole_get s d rfl
  generalize s.decideRole d = u at hu hfields hfreq ⊢
  by_cases ha : d.1 = .alone
  · rw [if_pos ha]
    have hf := (takeDuties_fields u m66).1
    obtain ⟨hb, hget⟩ := testCheck_onlyBist (u.takeDuties m66)
    have hrst : (u.takeDuties m66).brg.rst = true := rfl
    have hboot : (u.takeDuties m66).boot = u.boot := by simp only [State.takeDuties, State.setBus, State.set_boot]
    generalize u.takeDuties m66 = v at hf hb hget hrst hboot ⊢
    have hsame : v.testCheck.brg = v.brg ∧ v.testCheck.boot = v.boot := by rw [hb]; exact ⟨rfl, rfl⟩
    refine ⟨by rw [hsame.2, hboot, hu], fun _ => ⟨?_, by rw [hsame.1, hrst], ?_, ?_⟩, fun h => absurd ha h⟩
    · exact (hget _ (by decide)).trans (hf (R.BRG.STATUS.HOLD, 1) (by simp))
    · refine (hget _ (by decide)).trans ((hf (R.BRG.STATUS.M66EN, b2n m66) (by simp)).trans ?_)
      cases m66 <;> rfl
    · refine (hget _ (by decide)).trans ((hf (R.BRG.STATUS.AFREQ, if m66 then u.get R.BRG.CFG.FREQ else 0) (by simp)).trans ?_)
      rw [hfreq]
      exact Nat.mod_eq_of_lt (by split; exacts [get_lt s R.BRG.CFG.FREQ, by decide])
  · rw [if_neg ha]
    exact ⟨by rw [hu], fun h => absurd h ha, fun _ => ⟨by rw [hu], hfields⟩⟩

/-- Settles O43: the load by its stages and each channel as its loader received it, the start role by its four rules. -/
theorem initLoadsTheProgramAndDecidesTheRole : Obligations.InitLoadsTheProgramAndDecidesTheRole := by
  intro s p mv d dig m66 load wrong cleared restored own pact decided
  refine ⟨fun hm hp hz => ⟨fun hst => ?_, fun hst hw => ?_, fun hst hw hprog => ?_⟩, fun hn => ?_, fun hpow => ?_, fun hm hp hr => ?_, fun hr => ?_⟩
  · refine does_of_whilePowered (exec_programLoad hm hp hz dig) fun _ => ?_
    obtain ⟨ht, hret, hcode, hregs⟩ := loadStep_stops hst dig
    exact ⟨ht, ⟨hret.warm, hret.cold⟩, hcode, hregs⟩
  · refine does_of_whilePowered (exec_programLoad hm hp hz dig) fun _ => ?_
    obtain ⟨ht, hret, hf⟩ := loadStep_wrong hst (loadWrong_iff.2 hw)
    exact ⟨ht, ⟨hret.warm, hret.cold⟩, hf⟩
  · refine does_of_whilePowered (exec_programLoad hm hp hz dig) fun _ => ?_
    have h := loadStep_loads hst (Bool.eq_false_iff.2 fun h => hw (loadWrong_iff.1 h)) hprog
    generalize s.loadStep dig = t at h ⊢
    have hprogOf : t.prog = some p := by rw [State.prog, h.act]; exact h.bank0
    refine ⟨⟨h.ret.warm, h.ret.cold⟩, h.bank0, h.bank1, hprogOf, h.program, h.pver, h.fRec, fun hids hidx ch hi => ?_⟩
    obtain ⟨c, hc, hch⟩ := h.chan ch hi
    have hstart : s.startRec p = restored := rfl
    rw [hstart] at hch
    have hrx : (t.ch ch).rx0 = s.wrongBits ch := by
      rw [hch, ← hc.rx]
      cases restored with
      | none => rfl
      | some b => exact (restored_parts s b ch c).1
    refine ⟨?_, fun h0 => ?_, fun g hg hun => ?_, fun d hd hun => ?_, fun b hb => ⟨fun g hg w3 v hm hl => ⟨?_, fun h0 => ?_⟩, fun d hd v hm hl => ?_⟩⟩
    · rw [State.bankIn, State.bank, if_neg (by decide), h.bank0, Chan.rx, if_neg (by decide), hrx]
      rfl
    · rw [h0]; exact if_pos rfl
    · obtain ⟨w3, hx, hq⟩ := hc.sig hids hg
      refine ⟨w3, ?_, hq⟩
      rw [hch, ← hx]
      cases hb : restored with
      | none => rfl
      | some b => exact restored_dir_unheld (hun b hb)
    · rw [hch, ← hc.slot hidx hd]
      cases hb : restored with
      | none => rfl
      | some b => exact restored_slots_unheld (hun b hb)
    · rw [hch, hb]
      obtain ⟨x, hx, -⟩ := hc.sig hids hg
      exact restored_dir_held hx hm hl
    · exact receivedSig_right (receivedBytes_right h0) g.id w3 v
    · rw [hch, hb]
      exact restored_slots_held (hc.slot hidx hd) hm hl
  · rw [Ignored, ← whilePowered_self]
    refine congrArg s.whilePowered (if_pos ?_)
    simpa using hn
  · have hx : exec (.storeCharged mv) s = s.whilePowered ((s.set R.SUP.SUPPLY.STORE mv.toNat).set R.SUP.STATE.STORE 1) :=
      congrArg s.whilePowered (if_neg (by rw [hpow]; decide))
    exact does_of_whilePowered hx fun _ => ((OnlyFields.refl s).put R.SUP.SUPPLY.STORE mv.toNat rfl).put R.SUP.STATE.STORE 1 rfl
  · have role {d : Role × Nat} (hd : s.startRole = d) : decided d := exec_startRole hm hp hr hd m66
    refine ⟨fun hpar h0 => role ?_, fun hpar h1 => role ?_, fun h hpar => ⟨fun he => role ?_, fun hne hor => role ?_, fun h0 hn hi hlt => role ?_,
      fun h0 hn hi hlt => role ?_, fun hne h0 ha hac hn => role ?_⟩⟩
    all_goals unfold State.startRole; rw [hpar]; dsimp only
    · rw [if_neg fun h => absurd (h0.symm.trans h) (by decide)]
    · rw [if_pos h1]
    · rw [if_pos he]
    · rw [if_neg hne, if_pos hor]
    · rw [if_neg hlt.ne', if_neg, if_pos ⟨hn, hi⟩, if_pos hlt]
      rw [hn]
      exact fun h => h.elim (fun h => absurd (h0.symm.trans h) (by decide)) fun h => h.elim (fun h => nomatch h) fun h => nomatch h
    · rw [if_neg hlt.ne, if_neg, if_pos ⟨hn, hi⟩, if_neg hlt.not_gt]
      rw [hn]
      exact fun h => h.elim (fun h => absurd (h0.symm.trans h) (by decide)) fun h => h.elim (fun h => nomatch h) fun h => nomatch h
    · rw [if_neg hne, if_neg, if_neg fun h => hn.elim (fun k => k h.1) fun k => k h.2]
      exact fun h => h.elim (fun h => absurd (h0.symm.trans h) (by decide)) fun h => h.elim ha hac
  · rw [Ignored, ← whilePowered_self]
    exact congrArg s.whilePowered (if_pos (by rw [hr]; simp))

end Sys2Proof.Machine
end

section
/-! PROOF. The event controller (R12, R282 to R294): source states, delivery, claims, completions, HOLD, enables and the compatibility window. -/

namespace Sys2Proof.Machine

/-! ### Bits of a field -/

theorem putBit_eq_setBit (s : State) (f : Fld) (n : Nat) (b : Bool) : s.putBit f n b = s.setBit f n b := by
  rw [State.putBit, State.setBit, Nat.mul_comm (2 ^ (n + 1)), Nat.mul_comm (2 ^ n)]

theorem bit_split (s : State) (f : Fld) (n : Nat) :
    s.get f = 2 ^ (n + 1) * (s.get f / 2 ^ (n + 1)) + 2 ^ n * b2n (s.bit f n) + s.get f % 2 ^ n := by
  have hbit : b2n (s.bit f n) = s.get f / 2 ^ n % 2 := by
    rw [State.bit]
    rcases Nat.mod_two_eq_zero_or_one (s.get f / 2 ^ n) with h | h <;> rw [h] <;> rfl
  have h1 := Nat.div_add_mod (s.get f) (2 ^ n)
  have h2 := Nat.div_add_mod (s.get f / 2 ^ n) 2
  rw [Nat.div_div_eq_div_mul, ← Nat.pow_succ] at h2
  rw [hbit]
  calc s.get f = 2 ^ n * (2 * (s.get f / 2 ^ (n + 1)) + s.get f / 2 ^ n % 2) + s.get f % 2 ^ n := by rw [h2, h1]
    _ = _ := by rw [Nat.pow_succ, Nat.mul_add, ← Nat.mul_assoc]

/-- A bit cleared. -/
theorem putBit_false (s : State) (f : Fld) (n : Nat) : s.putBit f n false = s.set f (s.get f - 2 ^ n * b2n (s.bit f n)) := by
  have h := bit_split s f n
  rw [State.putBit, show b2n false = 0 from rfl, Nat.mul_zero]
  congr 1
  omega

/-- A bit set. -/
theorem putBit_true (s : State) (f : Fld) (n : Nat) : s.putBit f n true = s.set f (s.get f ||| 2 ^ n) := by
  have hlow : s.get f % 2 ^ n < 2 ^ n := Nat.mod_lt _ (Nat.two_pow_pos n)
  rw [State.putBit]
  congr 1
  have hsum : 2 ^ (n + 1) * (s.get f / 2 ^ (n + 1)) + 2 ^ n * b2n true + s.get f % 2 ^ n =
      2 ^ n * (2 ^ 1 * (s.get f / 2 ^ (n + 1)) + 1) + s.get f % 2 ^ n := by
    rw [show b2n true = 1 from rfl]; ring
  refine Nat.eq_of_testBit_eq fun i => ?_
  rw [hsum, Nat.testBit_two_pow_mul_add _ hlow, Nat.testBit_or, Nat.testBit_two_pow]
  rcases Nat.lt_trichotomy i n with h | rfl | h
  · rw [if_pos h, Nat.testBit_mod_two_pow]
    simp [h, h.ne']
  · rw [if_neg (Nat.lt_irrefl _), Nat.sub_self, Nat.testBit_two_pow_mul_add _ (by decide)]
    simp
  · have h2 : i - n - 1 + (n + 1) = i := by omega
    rw [if_neg (by omega), Nat.testBit_two_pow_mul_add _ (by decide), if_neg (by omega), Nat.testBit_div_two_pow, h2]
    simp [h.ne]

theorem bit_putBit (s : State) {f : Fld} {n : Nat} (b : Bool) (hf : f.ok = true) (hn : n < f.w) (i : Nat) :
    (s.putBit f n b).bit f i = if i = n then b else s.bit f i := by
  rw [putBit_eq_setBit, bit_setBit s b hf hn]

theorem putBit_get_ne (s : State) {f g : Fld} (n : Nat) (b : Bool) (h : g.off ≠ f.off) : (s.putBit f n b).get g = s.get g :=
  get_setReg_ne s _ h

/-! ### Levels and enables -/

theorem evLatch_ok (k : Nat) : (evLatch k).1.ok = true ∧ (evLatch k).2 < (evLatch k).1.w := by
  unfold evLatch
  dsimp only
  split
  · exact ⟨rfl, Nat.mod_lt _ (by decide)⟩
  · split
    · exact ⟨rfl, by decide⟩
    · exact ⟨rfl, Nat.mod_lt _ (by decide)⟩

theorem evLevel_latched {s : State} {k : Nat} (h : evLatched k = true) : s.evLevel k = s.bit (evLatch k).1 (evLatch k).2 := if_pos h

/-- The registers of the enables. -/
def EnableOff (off : Nat) : Prop := (0x50100 ≤ off ∧ off < 0x501A0 ∧ off % 16 = 0) ∨ (0x50400 ≤ off ∧ off < 0x50800)

/-- The registers of the enables, of the controller's flags, HOLD and delivery count, and of the heads and tails of the event rings. -/
def NoLevelOff (off : Nat) : Prop :=
  EnableOff off ∨ (0x50004 ≤ off ∧ off ≤ 0x50008) ∨ off = 0x50020 ∨ (0x6080C ≤ off ∧ off < 0x60940)

/-- Levels are read off other registers. -/
theorem evBlockLevel_frame {s t : State} (h : ∀ f : Fld, ¬ NoLevelOff f.off → t.get f = s.get f) (n : Nat) : t.evBlockLevel n = s.evBlockLevel n := by
  have hget (f : Fld) (hf : decide ((f.off < 0x50004 ∨ 0x50800 ≤ f.off) ∧ (f.off < 0x6080C ∨ 0x60940 ≤ f.off)) = true) : t.get f = s.get f := by
    refine h f fun he => ?_
    rw [decide_eq_true_eq] at hf
    unfold NoLevelOff EnableOff at he
    omega
  unfold State.evBlockLevel State.bit State.ringEmpty
  split <;> simp (disch := decide) only [hget]

theorem evLatch_off {k : Nat} (h : evLatched k = true) : ¬ NoLevelOff (evLatch k).1.off := by
  unfold evLatched at h
  unfold evLatch NoLevelOff EnableOff
  dsimp only at h ⊢
  split at h
  · next hk =>
    rw [if_pos hk]
    simp only [R.EVC.PLAT.LAT]
    omega
  · next hk =>
    rw [if_neg hk]
    split
    · decide
    · next hn =>
      have hr : 64 ≤ k - 160 ∧ k - 160 < 256 := by simpa [hn] using h
      simp only [R.EVC.SWLAT.LAT]
      omega

theorem evLevel_frame {s t : State} (h : ∀ f : Fld, ¬ NoLevelOff f.off → t.get f = s.get f) (k : Nat) : t.evLevel k = s.evLevel k := by
  unfold State.evLevel
  rw [evBlockLevel_frame h]
  split
  · next hl =>
    rw [State.bit, h _ (evLatch_off hl), State.bit]
  · rfl

/-- A source's enable is read off the registers of the enables. -/
theorem evEnabled_frame {s t : State} {k : Nat} (hk : k < 0x500) (h : ∀ f : Fld, 0x50100 ≤ f.off → f.off < 0x60000 → t.get f = s.get f) :
    t.evEnabled k = s.evEnabled k := by
  have hp : t.get (R.EVC.PEN.EN (k / 16)) = s.get (R.EVC.PEN.EN (k / 16)) :=
    h _ (by simp only [R.EVC.PEN.EN]; omega) (by simp only [R.EVC.PEN.EN]; omega)
  have he : t.get (R.EVC.SCFG.EN (k - 160)) = s.get (R.EVC.SCFG.EN (k - 160)) :=
    h _ (by simp only [R.EVC.SCFG.EN]; omega) (by simp only [R.EVC.SCFG.EN]; omega)
  have ht : t.get (R.EVC.SCFG.TARGET (k - 160)) = s.get (R.EVC.SCFG.TARGET (k - 160)) :=
    h _ (by simp only [R.EVC.SCFG.TARGET]; omega) (by simp only [R.EVC.SCFG.TARGET]; omega)
  unfold State.evEnabled State.bit
  rw [hp, he, ht]

/-! ### Levels and lines -/

/-- A register write beside the frame number's display, then a poll. -/
theorem set_evPoll (s : State) (f : Fld) (n : Nat) (hf : f.off ≠ R.GONG.STATUS.ALIGNED.off) (k : Nat) :
    let t := (s.set f n).evPoll k
    t = { s with regs := t.regs, evs := t.evs } ∧ t.regs = (s.set f n).regs ∧ EvPolled s t k ∧ ∀ x, x ≠ k → tblFind t.evs x = tblFind s.evs x :=
  evPoll_afterRegs (u := s.set f n) rfl (reg_set_ne s f n hf.symm) k

theorem exec_assert (s : State) (t : Fin 10) (num : Fin 256) :
    Does (.eventSourceAssert t num) s fun u => u = { s with regs := u.regs, evs := u.evs } ∧ EvPolled s u (evKey t.val num.val) ∧
      (∀ x, x ≠ evKey t.val num.val → tblFind u.evs x = tblFind s.evs x) ∧
      FieldsSet s u (if 40 ≤ num.val ∧ num.val ≤ 43 ∧ s.get R.BRG.STATUS.HOLD = 1 then
        [(R.BRG.INTST.INT, s.get R.BRG.INTST.INT ||| 2 ^ (num.val - 40))] else []) := by
  have hx : exec (.eventSourceAssert t num) s = s.whilePowered ((if 40 ≤ num.val ∧ num.val ≤ 43 ∧ s.get R.BRG.STATUS.HOLD = 1 then
    s.putBit R.BRG.INTST.INT (num.val - 40) true else s).evPoll (evKey t.val num.val)) := rfl
  refine does_of_whilePowered hx fun _ => ?_
  split
  · rw [putBit_true]
    obtain ⟨hu, hregs, hpoll, hother⟩ := set_evPoll s R.BRG.INTST.INT (s.get R.BRG.INTST.INT ||| 2 ^ (num.val - 40)) (by decide) (evKey t.val num.val)
    exact ⟨hu, hpoll, hother, ((FieldsSet.refl s).put R.BRG.INTST.INT _ rfl).of_regs hregs⟩
  · obtain ⟨hu, hpoll, hother⟩ := evPoll_polled s (evKey t.val num.val)
    exact ⟨hu.trans (by rw [hu]), hpoll, hother, (FieldsSet.refl s).of_regs (by rw [hu])⟩

theorem exec_withdraw (s : State) (t : Fin 10) (num : Fin 256) :
    Does (.eventSourceWithdraw t num) s fun u => u = { s with regs := u.regs, evs := u.evs } ∧ EvPolled s u (evKey t.val num.val) ∧
      (∀ x, x ≠ evKey t.val num.val → tblFind u.evs x = tblFind s.evs x) ∧
      (40 ≤ num.val ∧ num.val ≤ 43 → FieldsSet s u [(R.BRG.INTST.INT, s.get R.BRG.INTST.INT - 2 ^ (num.val - 40) * b2n (s.bit R.BRG.INTST.INT (num.val - 40)))]) ∧
      (¬ (40 ≤ num.val ∧ num.val ≤ 43) → u.regs = s.regs) := by
  have hx : exec (.eventSourceWithdraw t num) s = s.whilePowered ((if 40 ≤ num.val ∧ num.val ≤ 43 then
    s.putBit R.BRG.INTST.INT (num.val - 40) false else s).evPoll (evKey t.val num.val)) := rfl
  refine does_of_whilePowered hx fun _ => ?_
  split
  · next hl =>
    rw [putBit_false]
    obtain ⟨hu, hregs, hpoll, hother⟩ := set_evPoll s R.BRG.INTST.INT
      (s.get R.BRG.INTST.INT - 2 ^ (num.val - 40) * b2n (s.bit R.BRG.INTST.INT (num.val - 40))) (by decide) (evKey t.val num.val)
    exact ⟨hu, hpoll, hother, fun _ => ((FieldsSet.refl s).put R.BRG.INTST.INT _ rfl).of_regs hregs, fun h => absurd hl h⟩
  · next hl =>
    obtain ⟨hu, hpoll, hother⟩ := evPoll_polled s (evKey t.val num.val)
    exact ⟨hu.trans (by rw [hu]), hpoll, hother, fun h => absurd h hl, fun _ => by rw [hu]⟩

/-! ### Delivery -/

theorem tblFind_mem {α : Type} {t : Tbl α} {k : Nat} {v : α} (h : tblFind t k = some v) : (k, v) ∈ t := by
  induction t with
  | nil => cases h
  | cons p t ih =>
    obtain ⟨k', v'⟩ := p
    rw [tblFind] at h
    split at h
    · next he =>
      cases h
      rw [he]
      exact List.mem_cons_self ..
    · exact List.mem_cons_of_mem _ (ih h)

theorem tblFind_filter {α : Type} {t : Tbl α} {k : Nat} {v : α} {f : Nat × α → Bool} (h : tblFind t k = some v) (hf : f (k, v) = true) :
    tblFind (t.filter f) k = some v := by
  induction t with
  | nil => cases h
  | cons p t ih =>
    obtain ⟨k', v'⟩ := p
    rw [tblFind] at h
    split at h
    · next he =>
      cases h
      subst he
      rw [List.filter_cons_of_pos hf, tblFind, if_pos rfl]
    · next he =>
      cases hp : f (k', v')
      · rw [List.filter_cons_of_neg (by rw [hp]; decide)]
        exact ih h
      · rw [List.filter_cons_of_pos hp, tblFind, if_neg he]
        exact ih h

/-- Source `k` is written before `x` (R286). -/
def State.before (s : State) (k x : Nat) : Prop := s.evPrio x < s.evPrio k ∨ (s.evPrio x = s.evPrio k ∧ evNum k < evNum x)

/-- One step of the choice of the first source. -/
def State.choose (s : State) (t : Nat) (best : Option Nat) (p : Nat × EvSrc) : Option Nat :=
  if p.2.ph = .pending && s.evTarget p.1 = t then
    match best with
    | none => some p.1
    | some b =>
      if s.evPrio b < s.evPrio p.1 ∨ (s.evPrio p.1 = s.evPrio b ∧ evNum p.1 < evNum b) then some p.1 else best
  else best

theorem evFirst_eq (s : State) (t : Nat) : s.evFirst t = s.evs.foldl (s.choose t) none := rfl

theorem choose_fold_none {s : State} {t : Nat} (l : List (Nat × EvSrc)) (h : ∀ p ∈ l, p.2.ph = .pending → s.evTarget p.1 ≠ t) (b : Option Nat) :
    l.foldl (s.choose t) b = b := by
  induction l generalizing b with
  | nil => rfl
  | cons p l ih =>
    have hp : s.choose t b p = b := by
      refine if_neg fun hc => ?_
      simp only [Bool.and_eq_true, decide_eq_true_eq] at hc
      exact h p (List.mem_cons_self ..) hc.1 hc.2
    rw [List.foldl_cons, hp]
    exact ih (fun q hq => h q (List.mem_cons_of_mem _ hq)) b

theorem choose_not {s : State} {t : Nat} {p : Nat × EvSrc} (h : ¬ (p.2.ph = .pending ∧ s.evTarget p.1 = t)) (b : Option Nat) : s.choose t b p = b :=
  if_neg fun hc => h (by simpa only [Bool.and_eq_true, decide_eq_true_eq] using hc)

theorem choose_none {s : State} {t : Nat} {p : Nat × EvSrc} (h : p.2.ph = .pending ∧ s.evTarget p.1 = t) : s.choose t none p = some p.1 :=
  if_pos (by simpa only [Bool.and_eq_true, decide_eq_true_eq] using h)

theorem choose_some {s : State} {t : Nat} {p : Nat × EvSrc} (h : p.2.ph = .pending ∧ s.evTarget p.1 = t) (b : Nat) :
    (s.before p.1 b ∧ s.choose t (some b) p = some p.1) ∨ (¬ s.before p.1 b ∧ s.choose t (some b) p = some b) := by
  have hx : s.choose t (some b) p = if s.evPrio b < s.evPrio p.1 ∨ (s.evPrio p.1 = s.evPrio b ∧ evNum p.1 < evNum b) then some p.1 else some b :=
    if_pos (by simpa only [Bool.and_eq_true, decide_eq_true_eq] using h)
  rw [hx, State.before]
  split
  · next hc => exact .inl ⟨by omega, rfl⟩
  · next hc => exact .inr ⟨by omega, rfl⟩

theorem before_asymm {s : State} {k x : Nat} (h : s.before k x) : ¬ s.before x k := by
  unfold State.before at *
  omega

/-- A source that goes before every other eligible one stays chosen, and is chosen where it comes. -/
theorem choose_fold_best {s : State} {t k : Nat} (l : List (Nat × EvSrc))
    (h : ∀ p ∈ l, p.2.ph = .pending → s.evTarget p.1 = t → p.1 ≠ k → s.before k p.1) (b : Option Nat)
    (hb : ∀ x, b = some x → x ≠ k → s.before k x)
    (hk : b = some k ∨ ∃ e, (k, e) ∈ l ∧ e.ph = .pending ∧ s.evTarget k = t) : l.foldl (s.choose t) b = some k := by
  induction l generalizing b with
  | nil => exact hk.elim id fun ⟨e, he, _⟩ => (List.not_mem_nil he).elim
  | cons p l ih =>
    have later (hk : ∃ e, (k, e) ∈ p :: l ∧ e.ph = .pending ∧ s.evTarget k = t) :
        (p.1 = k ∧ p.2.ph = .pending ∧ s.evTarget p.1 = t) ∨ ∃ e, (k, e) ∈ l ∧ e.ph = .pending ∧ s.evTarget k = t := by
      obtain ⟨e, he, hp⟩ := hk
      rcases List.mem_cons.1 he with rfl | he
      exacts [.inl ⟨rfl, hp⟩, .inr ⟨e, he, hp⟩]
    rw [List.foldl_cons]
    refine ih (fun q hq => h q (List.mem_cons_of_mem _ hq)) _ ?_ ?_
    all_goals by_cases he : p.2.ph = .pending ∧ s.evTarget p.1 = t
    · have hp : p.1 ≠ k → s.before k p.1 := h p (List.mem_cons_self ..) he.1 he.2
      intro x hx hne
      cases b with
      | none =>
        rw [choose_none he] at hx
        cases hx
        exact hp hne
      | some y =>
        rcases choose_some he y with ⟨-, hc⟩ | ⟨-, hc⟩ <;> rw [hc] at hx <;> cases hx
        exacts [hp hne, hb _ rfl hne]
    · rw [choose_not he]
      exact hb
    · cases b with
      | none =>
        rw [choose_none he]
        exact (later (hk.resolve_left fun h => nomatch h)).imp_left fun h => congrArg some h.1
      | some y =>
        rcases choose_some he y with ⟨hbef, hc⟩ | ⟨hbef, hc⟩ <;> rw [hc]
        · rcases hk with hk | hk
          · cases hk
            by_cases hpk : p.1 = k
            · exact .inl (congrArg some hpk)
            · exact absurd hbef (before_asymm (h p (List.mem_cons_self ..) he.1 he.2 hpk))
          · exact (later hk).imp_left fun h => congrArg some h.1
        · rcases hk with hk | hk
          · exact .inl hk
          · refine (later hk).imp_left fun hl => congrArg some ?_
            by_contra hy
            exact hbef (hl.1.symm ▸ hb y rfl hy)
    · rw [choose_not he]
      exact hk.imp_right fun hk => (later hk).resolve_left fun h => he h.2

/-! The record in memory -/

theorem memGet_dmaPut_ne (l : List Byte) (m : Tbl Byte) (a x : Nat) (h : x < a ∨ a + l.length ≤ x) : memGet (dmaPut m a l) x = memGet m x := by
  induction l generalizing m a with
  | nil => rfl
  | cons b l ih =>
    rw [List.length_cons] at h
    rw [dmaPut, ih _ _ (by omega)]
    split
    · rw [memGet_put, if_neg (by omega)]
    · rfl

theorem memGet_dmaPut (l : List Byte) (m : Tbl Byte) (a i : Nat) (hi : i < l.length) (hm : smemMapped (a + i) = true) :
    memGet (dmaPut m a l) (a + i) = l[i] := by
  induction l generalizing m a i with
  | nil => exact absurd hi (Nat.not_lt_zero i)
  | cons b l ih =>
    cases i with
    | zero =>
      rw [Nat.add_zero] at hm ⊢
      rw [dmaPut, memGet_dmaPut_ne _ _ _ _ (by omega), if_pos hm, memGet_put, if_pos rfl]
      rfl
    | succ i =>
      have h := ih (if smemMapped a then memPut m a b else m) (a + 1) i (by rw [List.length_cons] at hi; omega)
        (by rw [show a + 1 + i = a + (i + 1) by omega]; exact hm)
      rw [show a + (i + 1) = a + 1 + i by omega]
      exact h

theorem memBytes_dmaPut (l : List Byte) (m : Tbl Byte) (a : Nat) (hm : ∀ x, a ≤ x → x < a + l.length → smemMapped x = true) :
    memBytes (dmaPut m a l) a l.length = l := by
  refine List.ext_getElem (by simp [memBytes]) fun i h1 h2 => ?_
  simp only [memBytes, List.getElem_map, List.getElem_range]
  exact memGet_dmaPut l m a i h2 (hm _ (by omega) (by omega))

theorem leBytes_add (a b v : Nat) : leBytes (a + b) v = leBytes a v ++ leBytes b (v / 256 ^ a) := by
  induction a generalizing v with
  | zero => rw [Nat.zero_add, pow_zero, Nat.div_one]; rfl
  | succ a ih =>
    rw [Nat.succ_add, leBytes, ih, leBytes, Nat.div_div_eq_div_mul, ← Nat.pow_succ']
    rfl

theorem leBytes_mod (n v : Nat) : leBytes n (v % 256 ^ n) = leBytes n v := by
  induction n generalizing v with
  | zero => rfl
  | succ n ih =>
    rw [leBytes, leBytes, Nat.pow_succ', Nat.mod_mul_right_div_self, ih]
    congr 1
    exact BitVec.eq_of_toNat_eq (by simp only [BitVec.toNat_ofNat]; exact Nat.mod_mul_right_mod ..)

/-- The 16 bytes of a record. -/
def State.recordBytes (s : State) (t : Fin 10) (k : Nat) (e : EvSrc) : List Byte :=
  leBytes 4 (2 ^ 28 * s.evPrio k + 2 ^ 24 * t.val + 2 ^ 16 * (s.evSeq[t] + 1).toNat + 2 ^ 11 * b2n e.redo + evNum k) ++ leBytes 8 e.ts.toNat ++
    leBytes 4 e.frame.toNat

theorem recordWords (w0 ts f : Nat) :
    [w0, ts % 2 ^ 32, ts / 2 ^ 32, f].flatMap (fun w => leBytes 4 w) = leBytes 4 w0 ++ leBytes 8 ts ++ leBytes 4 f := by
  simp only [List.flatMap_cons, List.flatMap_nil, List.append_nil, List.append_assoc]
  rw [show (8 : Nat) = 4 + 4 from rfl, leBytes_add 4 4 ts, show (2 : Nat) ^ 32 = 256 ^ 4 from rfl, leBytes_mod, List.append_assoc]

theorem recordBytes_length (s : State) (t : Fin 10) (k : Nat) (e : EvSrc) : (s.recordBytes t k e).length = 16 := by
  simp [State.recordBytes, leBytes_length]

/-- What a delivery leaves (R286, R287). -/
theorem evDeliver_spec {s : State} {t : Fin 10} {k : Nat} {e : EvSrc} (h : tblFind s.evs k = some e) :
    let u := s.evDeliver t k
    u = { s with
      regs := u.regs
      smem := dmaPut s.smem (s.ringAddr t.val (s.get (R.NET.HEAD.INDEX t.val))) (s.recordBytes t k e)
      evSeq := s.evSeq.set t (s.evSeq[t] + 1)
      evs := tblPut s.evs k { e with ph := .delivered } } ∧
      FieldsSet s u [(R.NET.HEAD.INDEX t.val, (s.get (R.NET.HEAD.INDEX t.val) + 1) % s.ringN t.val),
        (R.EVC.DELIVCNT.COUNT, s.get R.EVC.DELIVCNT.COUNT + 1)] := by
  have hb : [2 ^ 28 * s.evPrio k + 2 ^ 24 * t.val + 2 ^ 16 * (s.evSeq[t] + 1).toNat + 2 ^ 11 * b2n e.redo + evNum k, e.ts.toNat % 2 ^ 32, e.ts.toNat / 2 ^ 32,
      e.frame.toNat].flatMap (fun w => leBytes 4 w) = s.recordBytes t k e := recordWords ..
  have hcount : besides R.EVC.DELIVCNT.COUNT ([] ++ [(R.NET.HEAD.INDEX t.val, (s.get (R.NET.HEAD.INDEX t.val) + 1) % s.ringN t.val)]) = true := by
    simp [besides, Fld.ok, Fld.apart, R.EVC.DELIVCNT.COUNT, R.NET.HEAD.INDEX]
    omega
  unfold State.evDeliver
  rw [h]
  dsimp only
  rw [State.ringPut, hb]
  have hput : FieldsSet s ({ s with smem := dmaPut s.smem (s.ringAddr t.val (s.get (R.NET.HEAD.INDEX t.val))) (s.recordBytes t k e) }.set (R.NET.HEAD.INDEX t.val)
      ((s.get (R.NET.HEAD.INDEX t.val) + 1) % s.ringN t.val)) [(R.NET.HEAD.INDEX t.val, (s.get (R.NET.HEAD.INDEX t.val) + 1) % s.ringN t.val)] :=
    ((FieldsSet.refl s).of_regs rfl).put _ _ rfl
  refine ⟨rfl, FieldsSet.count (hput.of_regs rfl) _ hcount⟩

/-- The sources that a sensing leaves. -/
def State.sensed (s : State) : Tbl EvSrc := s.evs.filter fun p => p.2.ph != .pending || (s.evLevel p.1 && s.evEnabled p.1)

theorem evDeliverFirst_idle {s : State} {t : Fin 10} (h : s.bit R.EVC.HOLD.TGT t.val = true ∨ s.ringOn t.val = false ∨
    (∀ p ∈ s.sensed, p.2.ph = .pending → s.evTarget p.1 ≠ t.val)) : s.evDeliverFirst t = { s with evs := s.sensed } := by
  have hs : s.evDeliverFirst t = if s.bit R.EVC.HOLD.TGT t.val || !s.ringOn t.val then s.evSense else match s.evSense.evFirst t.val with
    | none => s.evSense
    | some k => if s.evSense.ringFull t.val then s.evSense.flag R.EVC.FLAG.RFULL else s.evSense.evDeliver t k := rfl
  rw [hs]
  split
  · rfl
  · next hc =>
    have hopen : ¬ (s.bit R.EVC.HOLD.TGT t.val = true ∨ s.ringOn t.val = false) := by simpa using hc
    have hnone : s.evSense.evFirst t.val = none := choose_fold_none s.sensed (fun p hp => (h.resolve_left fun k => hopen (.inl k)).resolve_left
      (fun k => hopen (.inr k)) p hp) none
    rw [hnone]
    rfl

/-- `k` is the source of target `t` that is written first. -/
structure FirstOf (s : State) (t : Fin 10) (k : Nat) (e : EvSrc) : Prop where
  found : tblFind s.evs k = some e
  pending : e.ph = .pending
  on : (s.evLevel k && s.evEnabled k) = true
  target : s.evTarget k = t.val
  first : ∀ p ∈ s.sensed, p.2.ph = .pending → s.evTarget p.1 = t.val → p.1 ≠ k → s.before k p.1

theorem FirstOf.sensed {s : State} {t : Fin 10} {k : Nat} {e : EvSrc} (h : FirstOf s t k e) : tblFind s.sensed k = some e :=
  tblFind_filter h.found (by simp [h.on])

theorem evDeliverFirst_first {s : State} {t : Fin 10} {k : Nat} {e : EvSrc} (hh : s.bit R.EVC.HOLD.TGT t.val = false) (hr : s.ringOn t.val = true)
    (h : FirstOf s t k e) : s.evDeliverFirst t =
      if s.ringFull t.val then { s with evs := s.sensed }.flag R.EVC.FLAG.RFULL else { s with evs := s.sensed }.evDeliver t k := by
  have hfirst : { s with evs := s.sensed }.evFirst t.val = some k :=
    choose_fold_best s.sensed h.first none (fun _ hx => nomatch hx) (.inr ⟨e, tblFind_mem h.sensed, h.pending, h.target⟩)
  have hs : s.evDeliverFirst t = if s.bit R.EVC.HOLD.TGT t.val || !s.ringOn t.val then s.evSense else match { s with evs := s.sensed }.evFirst t.val with
    | none => s.evSense
    | some k => if s.ringFull t.val then { s with evs := s.sensed }.flag R.EVC.FLAG.RFULL else { s with evs := s.sensed }.evDeliver t k := rfl
  rw [hs, if_neg (by rw [hh, hr]; decide), hfirst]

/-! ### Claims (R288) -/

theorem setClrec_eq (s : State) (r : Req) (ws : List Nat) : s.setClrec r ws = { s with preq := (s.setClrec r ws).preq } := by
  rfl

theorem setClrec_preqGet (s : State) (r : Req) (ws : List Nat) (q : Req) (off : Nat) :
    (s.setClrec r ws).preqGet q off = if q = r ∧ off = (R.EVC.CLREC.WORD 3).off then BitVec.ofNat 32 (ws.getD 3 0)
      else if q = r ∧ off = (R.EVC.CLREC.WORD 2).off then BitVec.ofNat 32 (ws.getD 2 0)
      else if q = r ∧ off = (R.EVC.CLREC.WORD 1).off then BitVec.ofNat 32 (ws.getD 1 0)
      else if q = r ∧ off = (R.EVC.CLREC.WORD 0).off then BitVec.ofNat 32 (ws.getD 0 0) else s.preqGet q off := by
  show (((((s.preqSet r _ _).preqSet r _ _).preqSet r _ _).preqSet r _ _).preqGet q off) = _
  rw [preqGet_preqSet, preqGet_preqSet, preqGet_preqSet, preqGet_preqSet]

theorem setClrec_clrec (s : State) (r : Req) (ws : List Nat) :
    (∀ i, i < 4 → (s.setClrec r ws).preqGet r (R.EVC.CLREC.WORD i).off = BitVec.ofNat 32 (ws.getD i 0)) ∧
      ∀ q off, (q ≠ r ∨ ∀ i, i < 4 → off ≠ (R.EVC.CLREC.WORD i).off) → (s.setClrec r ws).preqGet q off = s.preqGet q off := by
  constructor
  · intro i hi
    rw [setClrec_preqGet]
    interval_cases i <;> simp [R.EVC.CLREC.WORD]
  · intro q off h
    rw [setClrec_preqGet]
    rcases h with h | h
    · simp [h]
    · rw [if_neg fun k => h 3 (by decide) k.2, if_neg fun k => h 2 (by decide) k.2, if_neg fun k => h 1 (by decide) k.2,
        if_neg fun k => h 0 (by decide) k.2]

theorem ringTake_regs (s : State) (t : Fin 10) (f : Fld) (hf : ¬ (0x60810 ≤ f.off ∧ f.off < 0x60940)) : (s.ringTake t.val).get f = s.get f := by
  refine get_setReg_ne s _ fun he => hf ?_
  rw [he]
  simp only [R.NET.TAIL.INDEX]
  omega

theorem ringTake_on (s : State) (t : Fin 10) {k : Nat} (hk : k < 0x500) :
    ((s.ringTake t.val).evLevel k && (s.ringTake t.val).evEnabled k) = (s.evLevel k && s.evEnabled k) := by
  rw [evLevel_frame fun f hf => ringTake_regs s t f fun h => hf (by unfold NoLevelOff; omega), evEnabled_frame hk fun f _ h => ringTake_regs s t f (by omega)]

theorem evKey_lt (t : Fin 10) (n : Nat) : evKey t.val (n % 1024) < 0x500 := by
  unfold evKey
  split <;> omega

/-- The source whose record stands at TAIL. -/
def State.atTail (s : State) (t : Fin 10) : Nat := evKey t.val (s.ringWord t.val 0 % 1024)

/-- The words of the record at TAIL. -/
def State.tailWords (s : State) (t : Fin 10) : List Nat := (List.range 4).map fun w => s.ringWord t.val w

theorem evClaim_empty {s : State} {t : Fin 10} (h : s.ringEmpty t.val = true) (r : Req) (task : Option Nat) : s.evClaim r t.val task = (0x3FF, s) := if_pos h

theorem evClaim_asserted {s : State} {t : Fin 10} (h : s.ringEmpty t.val = false) {e : EvSrc} (he : tblFind s.evs (s.atTail t) = some e)
    (hon : (s.evLevel (s.atTail t) && s.evEnabled (s.atTail t)) = true) (r : Req) (task : Option Nat) :
    s.evClaim r t.val task = (s.ringWord t.val 0 % 1024,
      State.setClrec { s.ringTake t.val with
        evs := tblPut s.evs (s.atTail t) { e with ph := .claimed, redo := false, task := task, target := some t.val } } r (s.tailWords t)) := by
  have hon' := (ringTake_on s t (evKey_lt t (s.ringWord t.val 0))).trans hon
  have he' : tblFind (s.ringTake t.val).evs (evKey t.val (s.ringWord t.val 0 % 1024)) = some e := he
  unfold State.evClaim
  rw [if_neg (by rw [h]; decide)]
  dsimp only [List.range, List.range.loop, List.map, List.headD]
  rw [he']
  dsimp only
  rw [if_pos hon']
  rfl

/-- A source withdrawn since its record was written leaves no claim. -/
theorem evClaim_withdrawn {s : State} {t : Fin 10} (h : s.ringEmpty t.val = false)
    (hw : tblFind s.evs (s.atTail t) = none ∨ (s.evLevel (s.atTail t) && s.evEnabled (s.atTail t)) = false) (r : Req) (task : Option Nat) :
    ∃ evs, tblFind evs (s.atTail t) = none ∧ (∀ x, x ≠ s.atTail t → tblFind evs x = tblFind s.evs x) ∧
      s.evClaim r t.val task = (0x3FF,
        State.setClrec ((State.flag { s.ringTake t.val with evs := evs } R.EVC.FLAG.SPUR).incSat R.EVC.SPURCNT.COUNT) r []) := by
  have hon := ringTake_on s t (evKey_lt t (s.ringWord t.val 0))
  unfold State.evClaim
  rw [if_neg (by rw [h]; decide)]
  dsimp only [List.range, List.range.loop, List.map, List.headD]
  have hf : tblFind (s.ringTake t.val).evs (evKey t.val (s.ringWord t.val 0 % 1024)) = tblFind s.evs (s.atTail t) := rfl
  rw [hf]
  cases he : tblFind s.evs (s.atTail t) with
  | none => exact ⟨s.evs, he, fun _ _ => rfl, rfl⟩
  | some e =>
    have hoff : (s.evLevel (s.atTail t) && s.evEnabled (s.atTail t)) = false := hw.resolve_left fun hn => by rw [he] at hn; cases hn
    refine ⟨tblDel s.evs (s.atTail t), by rw [tblFind_del, if_pos rfl], fun x hx => by rw [tblFind_del, if_neg hx], ?_⟩
    dsimp only
    rw [if_neg (by rw [hon]; exact fun h => absurd (hoff.symm.trans h) (by decide))]
    rfl

theorem claimFor_eq (s : State) (r : Req) (t : Fin 10) : s.claimFor r t =
    { (s.evClaim r t.val (s.reqTask r)).2 with
      resp := if isEng r then (s.evClaim r t.val (s.reqTask r)).2.resp else some (BitVec.ofNat 32 (s.evClaim r t.val (s.reqTask r)).1) } := rfl

/-- A claim answers a requester that is no engine with a number. -/
def Answered (s u : State) (r : Req) (n : Nat) : Prop := u.resp = if isEng r then s.resp else some (BitVec.ofNat 32 n)

/-- The record registers of the requester are written, and no other register of a requester. -/
def ClrecSet (s u : State) (r : Req) (w : Nat → W32) : Prop :=
  (∀ i, i < 4 → u.preqGet r (R.EVC.CLREC.WORD i).off = w i) ∧
    ∀ q off, (q ≠ r ∨ ∀ i, i < 4 → off ≠ (R.EVC.CLREC.WORD i).off) → u.preqGet q off = s.preqGet q off

theorem claimFor_empty {s : State} {t : Fin 10} (h : s.ringEmpty t.val = true) (r : Req) :
    s.claimFor r t = { s with resp := (s.claimFor r t).resp } ∧ Answered s (s.claimFor r t) r 0x3FF := by
  rw [claimFor_eq, evClaim_empty h]
  exact ⟨rfl, rfl⟩

/-- The record registers and the answer beside registers and sources already changed. -/
theorem clrec_answered {s v : State} {l : List (Fld × Nat)} (hv : v = { s with regs := v.regs, evs := v.evs }) (hf : FieldsSet s v l) (r : Req) (ws : List Nat)
    (n : Nat) :
    let u := { v.setClrec r ws with resp := if isEng r then (v.setClrec r ws).resp else some (BitVec.ofNat 32 n) }
    u = { s with regs := u.regs, evs := v.evs, preq := u.preq, resp := u.resp } ∧ FieldsSet s u l ∧ Answered s u r n ∧
      ClrecSet s u r fun i => BitVec.ofNat 32 (ws.getD i 0) := by
  obtain ⟨hset, hkeep⟩ := setClrec_clrec v r ws
  have hw := setClrec_eq v r ws
  generalize v.setClrec r ws = w at hset hkeep hw ⊢
  have hresp : w.resp = s.resp := by rw [hw, hv]
  have hregs : w.regs = v.regs := by rw [hw]
  have hpreq : v.preq = s.preq := by rw [hv]
  refine ⟨?_, hf.of_regs hregs, congrArg (fun x => if isEng r = true then x else some (BitVec.ofNat 32 n)) hresp, hset, fun q off h => (hkeep q off h).trans ?_⟩
  · rw [hw, hv]
  · rw [State.preqGet, hpreq, State.preqGet]

theorem claimFor_asserted {s : State} {t : Fin 10} (h : s.ringEmpty t.val = false) {e : EvSrc} (he : tblFind s.evs (s.atTail t) = some e)
    (hon : (s.evLevel (s.atTail t) && s.evEnabled (s.atTail t)) = true) (r : Req) :
    let u := s.claimFor r t
    u = { s with
      regs := u.regs
      evs := tblPut s.evs (s.atTail t) { e with ph := .claimed, redo := false, task := s.reqTask r, target := some t.val }
      preq := u.preq
      resp := u.resp } ∧
      FieldsSet s u [(R.NET.TAIL.INDEX t.val, (s.get (R.NET.TAIL.INDEX t.val) + 1) % s.ringN t.val)] ∧
      Answered s u r (s.ringWord t.val 0 % 1024) ∧ ClrecSet s u r fun i => BitVec.ofNat 32 (s.ringWord t.val i) := by
  have hput : FieldsSet s (s.ringTake t.val) [(R.NET.TAIL.INDEX t.val, (s.get (R.NET.TAIL.INDEX t.val) + 1) % s.ringN t.val)] :=
    (FieldsSet.refl s).put _ _ rfl
  obtain ⟨hu, hf, ha, hset, hkeep⟩ := clrec_answered (s := s) (v := { s.ringTake t.val with
    evs := tblPut s.evs (s.atTail t) { e with ph := .claimed, redo := false, task := s.reqTask r, target := some t.val } }) rfl (hput.of_regs rfl) r
    (s.tailWords t) (s.ringWord t.val 0 % 1024)
  dsimp only
  rw [claimFor_eq, evClaim_asserted h he hon]
  refine ⟨hu, hf, ha, fun i hi => (hset i hi).trans ?_, hkeep⟩
  interval_cases i <;> rfl

/-- What a claim that finds its source withdrawn counts. -/
theorem spurious_fields (s : State) (t : Fin 10) (evs : Tbl EvSrc) :
    let v := (State.flag { s.ringTake t.val with evs := evs } R.EVC.FLAG.SPUR).incSat R.EVC.SPURCNT.COUNT
    v = { s with regs := v.regs, evs := evs } ∧ FieldsSet s v
      [(R.NET.TAIL.INDEX t.val, (s.get (R.NET.TAIL.INDEX t.val) + 1) % s.ringN t.val), (R.EVC.FLAG.SPUR, 1),
        (R.EVC.SPURCNT.COUNT, min (s.get R.EVC.SPURCNT.COUNT + 1) (2 ^ R.EVC.SPURCNT.COUNT.w - 1))] := by
  have hspur (n : Nat) : besides R.EVC.FLAG.SPUR [(R.NET.TAIL.INDEX t.val, n)] = true := by
    simp [besides, Fld.ok, Fld.apart, R.EVC.FLAG.SPUR, R.NET.TAIL.INDEX]
    omega
  have hcnt (n : Nat) : besides R.EVC.SPURCNT.COUNT [(R.NET.TAIL.INDEX t.val, n), (R.EVC.FLAG.SPUR, 1)] = true := by
    simp [besides, Fld.ok, Fld.apart, R.EVC.SPURCNT.COUNT, R.NET.TAIL.INDEX, R.EVC.FLAG.SPUR]
    omega
  have hput : FieldsSet s { s.ringTake t.val with evs := evs } [(R.NET.TAIL.INDEX t.val, (s.get (R.NET.TAIL.INDEX t.val) + 1) % s.ringN t.val)] :=
    FieldsSet.of_regs ((FieldsSet.refl s).put _ _ rfl) rfl
  have hv : { s.ringTake t.val with evs := evs } = { s with regs := (s.ringTake t.val).regs, evs := evs } := rfl
  generalize { s.ringTake t.val with evs := evs } = v at hput hv ⊢
  have hflag := hput.put R.EVC.FLAG.SPUR 1 (hspur _)
  rw [State.incSat, State.flag, hflag.get_eq R.EVC.SPURCNT.COUNT (hcnt _)]
  refine ⟨?_, hflag.put R.EVC.SPURCNT.COUNT _ (hcnt _)⟩
  rw [hv]
  rfl

theorem claimFor_withdrawn {s : State} {t : Fin 10} (h : s.ringEmpty t.val = false)
    (hw : tblFind s.evs (s.atTail t) = none ∨ (s.evLevel (s.atTail t) && s.evEnabled (s.atTail t)) = false) (r : Req) :
    let u := s.claimFor r t
    u = { s with regs := u.regs, evs := u.evs, preq := u.preq, resp := u.resp } ∧ tblFind u.evs (s.atTail t) = none ∧
      (∀ x, x ≠ s.atTail t → tblFind u.evs x = tblFind s.evs x) ∧
      FieldsSet s u [(R.NET.TAIL.INDEX t.val, (s.get (R.NET.TAIL.INDEX t.val) + 1) % s.ringN t.val), (R.EVC.FLAG.SPUR, 1),
        (R.EVC.SPURCNT.COUNT, min (s.get R.EVC.SPURCNT.COUNT + 1) (2 ^ R.EVC.SPURCNT.COUNT.w - 1))] ∧
      Answered s u r 0x3FF ∧ ClrecSet s u r fun _ => 0 := by
  obtain ⟨evs, hnone, hother, hc⟩ := evClaim_withdrawn h hw r (s.reqTask r)
  obtain ⟨hv, hf⟩ := spurious_fields s t evs
  dsimp only
  rw [claimFor_eq, hc]
  generalize (State.flag { s.ringTake t.val with evs := evs } R.EVC.FLAG.SPUR).incSat R.EVC.SPURCNT.COUNT = v at hv hf ⊢
  have hve : v.evs = evs := by rw [hv]
  obtain ⟨hu, hfu, ha, hset, hkeep⟩ := clrec_answered (by rw [hve]; exact hv) hf r [] 0x3FF
  have hue : (v.setClrec r []).evs = evs := by rw [setClrec_eq]; exact hve
  exact ⟨by dsimp only; rw [hue, ← hve]; exact hu, by dsimp only; rw [hue]; exact hnone, fun x hx => by dsimp only; rw [hue]; exact hother x hx, hfu, ha,
    fun i hi => (hset i hi).trans rfl, hkeep⟩

/-! ### Completions (R289) -/

theorem evComplete_claimed {s : State} {t n : Nat} {e : EvSrc} (he : tblFind s.evs (evKey t n) = some e) (hp : e.ph = .claimed)
    (ht : e.target = some t) (hn : n < 256) :
    s.evComplete t n = (if evLatched (evKey t n) then s.putBit (evLatch (evKey t n)).1 (evLatch (evKey t n)).2 false else s).evFinish (evKey t n) false := by
  unfold State.evComplete
  dsimp only
  rw [he]
  exact if_pos (by rw [hp, ht]; simp [hn])

theorem evComplete_ignored {s : State} {t n : Nat}
    (h : tblFind s.evs (evKey t n) = none ∨ (∃ e, tblFind s.evs (evKey t n) = some e ∧ (e.ph ≠ .claimed ∨ e.target ≠ some t)) ∨ 256 ≤ n) :
    s.evComplete t n = s := by
  unfold State.evComplete
  dsimp only
  split
  · next e he =>
    refine if_neg fun hc => ?_
    simp only [Bool.and_eq_true, decide_eq_true_eq] at hc
    obtain ⟨⟨hp, ht⟩, hn⟩ := hc
    rcases h with h | ⟨e', h, h'⟩ | h
    · rw [he] at h; cases h
    · rw [he] at h
      cases h
      exact h'.elim (fun k => k hp) fun k => k ht
    · omega
  · rfl

theorem evFinish_spec (s : State) (k : Nat) :
    let u := s.evFinish k false
    u = { s with evs := u.evs } ∧
      tblFind u.evs k = (if s.evLevel k && s.evEnabled k then some ⟨.pending, BitVec.ofNat 64 s.nowNs, BitVec.ofNat 32 s.frameShown, false, none, none⟩ else none) ∧
      ∀ x, x ≠ k → tblFind u.evs x = tblFind s.evs x := by
  obtain ⟨hu, hpoll, hother⟩ := evPoll_polled { s with evs := tblDel s.evs k } k
  have hregs : (State.evPoll { s with evs := tblDel s.evs k } k).regs = s.regs := by rw [hu]
  have hgone : tblFind (tblDel s.evs k) k = none := by rw [tblFind_del, if_pos rfl]
  rw [EvPolled, evLevel_congr hregs, evEnabled_congr hregs] at hpoll
  dsimp only at hpoll
  rw [hgone] at hpoll
  exact ⟨hu, hpoll, fun x hx => (hother x hx).trans (by dsimp only; rw [tblFind_del, if_neg hx])⟩

theorem complete_unlatched {s : State} {k : Nat} (h : evLatched k = false) :
    (if evLatched k then s.putBit (evLatch k).1 (evLatch k).2 false else s) = s := if_neg (by rw [h]; decide)

/-- A latched source's latch is cleared, so that nothing asserts it. -/
theorem complete_latched {s : State} {k : Nat} (h : evLatched k = true) :
    let u := (if evLatched k then s.putBit (evLatch k).1 (evLatch k).2 false else s).evFinish k false
    u = { s with regs := u.regs, evs := u.evs } ∧ tblFind u.evs k = none ∧ (∀ x, x ≠ k → tblFind u.evs x = tblFind s.evs x) ∧
      FieldsSet s u [((evLatch k).1, s.get (evLatch k).1 - 2 ^ (evLatch k).2 * b2n (s.bit (evLatch k).1 (evLatch k).2))] := by
  obtain ⟨hok, hlt⟩ := evLatch_ok k
  have hclear : (s.putBit (evLatch k).1 (evLatch k).2 false).evLevel k = false := by
    rw [evLevel_latched h, bit_putBit s false hok hlt, if_pos rfl]
  dsimp only
  rw [if_pos h]
  obtain ⟨hu, hk, hother⟩ := evFinish_spec (s.putBit (evLatch k).1 (evLatch k).2 false) k
  rw [hclear, Bool.false_and, if_neg (by decide)] at hk
  refine ⟨?_, hk, fun x hx => (hother x hx), ?_⟩
  · rw [hu]
    rfl
  · refine FieldsSet.of_regs (t := s.putBit (evLatch k).1 (evLatch k).2 false) ?_ (by rw [hu])
    rw [putBit_false]
    exact (FieldsSet.refl s).put _ _ (by simp [besides, hok])

/-! ### Enables (R285, R292) -/

/-- A poll compares with what the source, the time and the frame number were. -/
theorem EvPolled.from {s s' t : State} {k : Nat} (h : EvPolled s' t k) (hk : tblFind s'.evs k = tblFind s.evs k) (hn : s'.nowNs = s.nowNs)
    (hf : s'.frameShown = s.frameShown) : EvPolled s t k := by
  rw [EvPolled, hk, hn, hf] at h
  exact h

/-- A poll is of the state's sources and of its levels and enables. -/
theorem EvPolled.to {s t u : State} {k : Nat} (h : EvPolled s t k) (hk : tblFind u.evs k = tblFind t.evs k) (hl : u.evLevel k = t.evLevel k)
    (he : u.evEnabled k = t.evEnabled k) : EvPolled s u k := by
  rw [EvPolled, ← hk, ← hl, ← he] at h
  exact h

theorem evPollAll_polled (ks : List Nat) (hk : ks.Nodup) (s : State) :
    let u := s.evPollAll ks
    u = { s with evs := u.evs } ∧ (∀ k ∈ ks, EvPolled s u k) ∧ ∀ x, x ∉ ks → tblFind u.evs x = tblFind s.evs x := by
  induction ks generalizing s with
  | nil => exact ⟨rfl, fun _ h => (List.not_mem_nil h).elim, fun _ _ => rfl⟩
  | cons k ks ih =>
    obtain ⟨hnot, hks⟩ := List.nodup_cons.1 hk
    obtain ⟨hp, hpoll, hpother⟩ := evPoll_polled s k
    obtain ⟨hu, hall, hother⟩ := ih hks (s.evPoll k)
    have hcons : s.evPollAll (k :: ks) = (s.evPoll k).evPollAll ks := rfl
    dsimp only
    rw [hcons]
    generalize (s.evPoll k).evPollAll ks = u at hu hall hother ⊢
    have hregs : u.regs = (s.evPoll k).regs := by rw [hu]
    refine ⟨?_, fun x hx => ?_, fun x hx => ?_⟩
    · rw [hu, hp]
    · rcases List.mem_cons.1 hx with rfl | hx
      · exact hpoll.to (hother x hnot) (evLevel_congr hregs x) (evEnabled_congr hregs x)
      · exact (hall x hx).from (hpother x fun he => hnot (he ▸ hx)) (by rw [hp]; rfl) (by rw [hp]; rfl)
    · exact (hother x fun h => hx (List.mem_cons_of_mem _ h)).trans (hpother x fun h => hx (h ▸ List.mem_cons_self ..))

theorem setPen_spec (s : State) (t : Fin 10) (v : Nat) :
    let u := s.setPen t.val v
    u = { s with regs := u.regs, evs := u.evs } ∧ FieldsSet s u [(R.EVC.PEN.EN t.val, v)] ∧ (∀ n, n < 16 → EvPolled s u (16 * t.val + n)) ∧
      ∀ x, x / 16 ≠ t.val → tblFind u.evs x = tblFind s.evs x := by
  have hkeys : (List.range 16).map (fun n => evKey t.val n) = (List.range 16).map fun n => 16 * t.val + n :=
    List.map_congr_left fun n hn => if_pos (List.mem_range.1 hn)
  have hnodup : ((List.range 16).map fun n => 16 * t.val + n).Nodup := List.Nodup.map (fun a b h => by omega) List.nodup_range
  have halign : (s.set (R.EVC.PEN.EN t.val) v).reg R.GONG.STATUS.ALIGNED.off = s.reg R.GONG.STATUS.ALIGNED.off := by
    refine reg_set_ne _ _ _ ?_
    simp only [R.GONG.STATUS.ALIGNED, R.EVC.PEN.EN]
    omega
  have hframe : (s.set (R.EVC.PEN.EN t.val) v).frameShown = s.frameShown := by
    have hget : (s.set (R.EVC.PEN.EN t.val) v).get R.GONG.STATUS.ALIGNED = s.get R.GONG.STATUS.ALIGNED := congrArg (fieldOf · _ _) halign
    rw [State.frameShown, hget, State.frameShown]
    rfl
  have hx : s.setPen t.val v = (s.set (R.EVC.PEN.EN t.val) v).evPollAll ((List.range 16).map fun n => evKey t.val n) := rfl
  obtain ⟨hu, hall, hother⟩ := evPollAll_polled _ hnodup (s.set (R.EVC.PEN.EN t.val) v)
  rw [hkeys] at hx
  dsimp only
  rw [hx]
  generalize (s.set (R.EVC.PEN.EN t.val) v).evPollAll ((List.range 16).map fun n => 16 * t.val + n) = u at hu hall hother ⊢
  refine ⟨?_, ?_, fun n hn => ?_, fun x hx => ?_⟩
  · rw [hu]
    rfl
  · exact ((FieldsSet.refl s).put _ v rfl).of_regs (by rw [hu])
  · exact (hall _ (List.mem_map.2 ⟨n, List.mem_range.2 hn, rfl⟩)).from rfl rfl hframe
  · refine hother x fun hm => hx ?_
    obtain ⟨n, hn, rfl⟩ := List.mem_map.1 hm
    have := List.mem_range.1 hn
    omega

/-! ### The compatibility window (R293) -/

theorem winKey_eq (t j b : Nat) : winKey t j b = if 32 * j + b < 16 then 16 * t + (32 * j + b) else 160 + (32 * j + b) := rfl

theorem winKey_inj {t j b b' : Nat} (ht : t < 10) (h : winKey t j b = winKey t j b') : b = b' := by
  rw [winKey_eq, winKey_eq] at h
  split at h <;> split at h <;> omega

/-- One bit of CPEND written. -/
def State.cpendBit (s : State) (t j : Nat) (v : W32) (b : Nat) : State :=
  if evLatched (winKey t j b) then s.putBit (evLatch (winKey t j b)).1 (evLatch (winKey t j b)).2 (v.toNat / 2 ^ b % 2 = 1) else s

theorem writeCpend_eq (s : State) (r : Req) (j : Nat) (v : W32) :
    s.writeCpend r j v = ((List.range 32).foldl (fun t b => t.cpendBit (reqTarget r).val j v b) s).evSense := rfl

/-- The latches of the sources that have one. -/
theorem evLatch_cases {k : Nat} (h : evLatched k = true) :
    (k < 160 ∧ evLatch k = (R.EVC.PLAT.LAT (k / 16), k % 16)) ∨ (k = 177 ∧ evLatch k = (R.EVC.SLAT.EXC, 0)) ∨
      (224 ≤ k ∧ k < 416 ∧ evLatch k = (R.EVC.SWLAT.LAT ((k - 224) / 32), (k - 224) % 32)) := by
  unfold evLatched at h
  unfold evLatch
  dsimp only at h ⊢
  split at h
  · next hk => exact .inl ⟨hk, if_pos hk⟩
  · next hk =>
    rw [if_neg hk]
    by_cases hn : k - 160 = 17
    · exact .inr (.inl ⟨by omega, if_pos hn⟩)
    · have hr : 64 ≤ k - 160 ∧ k - 160 < 256 := by simpa [hn] using h
      have hs : k - 160 - 64 = k - 224 := by omega
      exact .inr (.inr ⟨by omega, by omega, by rw [if_neg hn, hs]⟩)

/-- Two latched sources have latches apart. -/
theorem evLatch_apart {k x : Nat} (hk : evLatched k = true) (hx : evLatched x = true) (hne : x ≠ k) :
    (evLatch x).1.off ≠ (evLatch k).1.off ∨ ((evLatch x).1 = (evLatch k).1 ∧ (evLatch x).2 ≠ (evLatch k).2) := by
  rcases evLatch_cases hk with ⟨hk, e⟩ | ⟨hk, e⟩ | ⟨hk, hk', e⟩ <;> rcases evLatch_cases hx with ⟨hx, e'⟩ | ⟨hx, e'⟩ | ⟨hx, hx', e'⟩ <;> rw [e, e'] <;>
    simp only [R.EVC.PLAT.LAT, R.EVC.SLAT.EXC, R.EVC.SWLAT.LAT, Fld.mk.injEq, and_true] <;> omega

/-- Writing the latch of source `k` decides its level, and that of no other latched source. -/
theorem putLatch_level {s : State} {k x : Nat} (hk : evLatched k = true) (hx : evLatched x = true) (b : Bool) :
    (s.putBit (evLatch k).1 (evLatch k).2 b).evLevel x = if x = k then b else s.evLevel x := by
  obtain ⟨hok, hlt⟩ := evLatch_ok k
  rw [evLevel_latched hx, evLevel_latched hx]
  split
  · next he => rw [he, bit_putBit s b hok hlt, if_pos rfl]
  · next he =>
    rcases evLatch_apart hk hx he with h | ⟨h, h'⟩
    · rw [State.bit, putBit_get_ne s _ _ h, State.bit]
    · rw [h, bit_putBit s b hok hlt, if_neg h']

theorem getLsbD_eq (v : W32) (n : Nat) : v.getLsbD n = decide (v.toNat / 2 ^ n % 2 = 1) := by
  rw [BitVec.getLsbD, Nat.testBit_eq_decide_div_mod_eq]

theorem latch_inWindow (t : Fin 10) (j : Fin 8) {b : Nat} (hb : b < 32) (h : evLatched (winKey t.val j.val b) = true) :
    (evLatch (winKey t.val j.val b)).1.off ∈ [(R.EVC.PLAT.LAT t.val).off, R.EVC.SLAT.EXC.off, (R.EVC.SWLAT.LAT (j.val - 2)).off] := by
  rcases evLatch_cases h with ⟨hk, e⟩ | ⟨-, e⟩ | ⟨hk, hk', e⟩ <;> rw [e]
  · rw [winKey_div hk]
    simp
  · simp
  · have hj : (winKey t.val j.val b - 224) / 32 = j.val - 2 := by
      rw [winKey_eq] at hk ⊢
      split <;> omega
    rw [hj]
    simp

/-- What the first `n` bits of a write of CPEND leave. -/
theorem cpendBits_spec (s : State) (t : Fin 10) (j : Fin 8) (v : W32) (n : Nat) (hn : n ≤ 32) :
    let u := (List.range n).foldl (fun u b => u.cpendBit t.val j.val v b) s
    u = { s with regs := u.regs } ∧
      RegsKept s u [(R.EVC.PLAT.LAT t.val).off, R.EVC.SLAT.EXC.off, (R.EVC.SWLAT.LAT (j.val - 2)).off] ∧
      (∀ b, b < n → evLatched (winKey t.val j.val b) = true → u.evLevel (winKey t.val j.val b) = v.getLsbD b) ∧
      ∀ x, evLatched x = true → (∀ b, b < n → x ≠ winKey t.val j.val b) → u.evLevel x = s.evLevel x := by
  induction n with
  | zero => exact ⟨rfl, fun _ _ => rfl, fun b hb => absurd hb (Nat.not_lt_zero b), fun _ _ _ => rfl⟩
  | succ n ih =>
    obtain ⟨hu, hregs, hin, hout⟩ := ih (by omega)
    dsimp only
    rw [List.range_succ, List.foldl_append, List.foldl_cons, List.foldl_nil]
    generalize (List.range n).foldl (fun u b => u.cpendBit t.val j.val v b) s = u at hu hregs hin hout ⊢
    unfold State.cpendBit
    by_cases hl : evLatched (winKey t.val j.val n) = true
    · rw [if_pos hl]
      refine ⟨?_, ?_, fun b hb hlb => ?_, fun x hx hne => ?_⟩
      · exact congrArg (fun w : State => { w with regs := (u.putBit (evLatch (winKey t.val j.val n)).1 (evLatch (winKey t.val j.val n)).2
          (v.toNat / 2 ^ n % 2 = 1)).regs }) hu
      · exact ((hregs.trans (.set u _ _))).mono (by simpa using latch_inWindow t j (by omega) hl)
      · rw [putLatch_level hl hlb]
        split
        · next he =>
          rw [winKey_inj t.isLt he]
          exact (getLsbD_eq v n).symm
        · next he => exact hin b (Nat.lt_of_le_of_ne (Nat.le_of_lt_succ hb) fun h => he (by rw [h])) hlb
      · rw [putLatch_level hl hx, if_neg (hne n (Nat.lt_succ_self n))]
        exact hout x hx fun b hb => hne b (Nat.lt_succ_of_lt hb)
    · rw [if_neg hl]
      refine ⟨hu, hregs, fun b hb hlb => hin b (Nat.lt_of_le_of_ne (Nat.le_of_lt_succ hb) fun h => hl (by rw [← h]; exact hlb)) hlb,
        fun x hx hne => hout x hx fun b hb => hne b (Nat.lt_succ_of_lt hb)⟩

/-- One bit of CMASK written. -/
def State.cmaskBit (s : State) (r : Req) (j : Nat) (v : W32) (b : Nat) : State :=
  let k := winKey (reqTarget r).val j b
  let en := v.toNat / 2 ^ b % 2 = 0
  if k < 160 then (s.putBit (R.EVC.PEN.EN (k / 16)) (k % 16) en).evPoll k
  else if isEng r && s.evTarget k != (reqTarget r).val then s
  else (s.set (R.EVC.SCFG.EN (k - 160)) (b2n en)).evPoll k

theorem writeCmask_eq (s : State) (r : Req) (j : Nat) (v : W32) :
    s.writeCmask r j v = (List.range 32).foldl (fun t b => t.cmaskBit r j v b) s := rfl

/-- A program reaches a shared source that is targeted at its engine only. -/
def Reaches (s : State) (r : Req) (n : Nat) : Prop := isEng r = false ∨ s.get (R.EVC.SCFG.TARGET n) = (reqTarget r).val

/-- The registers that a write of CMASK(j) reaches. -/
def cmaskOffs (r : Req) (j : Fin 8) : List Nat := (R.EVC.PEN.EN (reqTarget r).val).off :: (List.range 32).map fun b => (R.EVC.SCFG.EN (32 * j.val + b)).off

/-- What the write of bit `b` does: to its own source, and to no other. -/
structure CmaskStep (s u : State) (r : Req) (j : Fin 8) (v : W32) (b : Nat) : Prop where
  eq : u = { s with regs := u.regs, evs := u.evs }
  regs : RegsKept s u (cmaskOffs r j)
  other : ∀ x, x ≠ winKey (reqTarget r).val j.val b → tblFind u.evs x = tblFind s.evs x
  pen : ∀ m, m < 16 → m ≠ 32 * j.val + b → u.bit (R.EVC.PEN.EN (reqTarget r).val) m = s.bit (R.EVC.PEN.EN (reqTarget r).val) m
  en : ∀ m, m ≠ 32 * j.val + b → u.get (R.EVC.SCFG.EN m) = s.get (R.EVC.SCFG.EN m)
  target : ∀ m, u.get (R.EVC.SCFG.TARGET m) = s.get (R.EVC.SCFG.TARGET m)
  priv : 32 * j.val + b < 16 → u.bit (R.EVC.PEN.EN (reqTarget r).val) (32 * j.val + b) = !v.getLsbD b ∧
    EvPolled s u (winKey (reqTarget r).val j.val b)
  shared : 16 ≤ 32 * j.val + b → Reaches s r (32 * j.val + b) →
    u.get (R.EVC.SCFG.EN (32 * j.val + b)) = b2n (!v.getLsbD b) ∧ EvPolled s u (winKey (reqTarget r).val j.val b)
  away : 16 ≤ 32 * j.val + b → ¬ Reaches s r (32 * j.val + b) →
    u.get (R.EVC.SCFG.EN (32 * j.val + b)) = s.get (R.EVC.SCFG.EN (32 * j.val + b)) ∧
      tblFind u.evs (winKey (reqTarget r).val j.val b) = tblFind s.evs (winKey (reqTarget r).val j.val b)

theorem bit_congr {s t : State} {f : Fld} (h : t.get f = s.get f) (n : Nat) : t.bit f n = s.bit f n := by rw [State.bit, h, State.bit]

/-- A per-target source's enable is a bit of its target's bank. -/
theorem cmaskStep_private (s : State) (r : Req) (j : Fin 8) (v : W32) {b : Nat} (hn : 32 * j.val + b < 16) :
    CmaskStep s ((s.putBit (R.EVC.PEN.EN (reqTarget r).val) (32 * j.val + b) (!v.getLsbD b)).evPoll (winKey (reqTarget r).val j.val b)) r j v b := by
  have hown : (reqTarget r).val < 10 := (reqTarget r).isLt
  have halign : (R.EVC.PEN.EN (reqTarget r).val).off ≠ R.GONG.STATUS.ALIGNED.off := by
    simp only [R.EVC.PEN.EN, R.GONG.STATUS.ALIGNED]
    omega
  have hscfg (m : Nat) : (R.EVC.SCFG.EN m).off ≠ (R.EVC.PEN.EN (reqTarget r).val).off := by
    simp only [R.EVC.PEN.EN, R.EVC.SCFG.EN]
    omega
  have hbits := bit_putBit s (f := R.EVC.PEN.EN (reqTarget r).val) (!v.getLsbD b) rfl hn
  obtain ⟨hu, hregs, hpoll, hother⟩ := set_evPoll s (R.EVC.PEN.EN (reqTarget r).val) _ halign (winKey (reqTarget r).val j.val b)
  change State.regs _ = (s.putBit (R.EVC.PEN.EN (reqTarget r).val) (32 * j.val + b) (!v.getLsbD b)).regs at hregs
  have hget := get_congr hregs
  exact {
    eq := hu
    regs := fun o ho => (congrArg (fileGet · o) hregs).trans (reg_set_ne s _ _ fun he => ho (he ▸ List.mem_cons_self ..))
    other := hother
    pen := fun m _ hne => (bit_congr (hget _) m).trans ((hbits m).trans (if_neg hne))
    en := fun m _ => (hget _).trans (putBit_get_ne s _ _ (hscfg m))
    target := fun m => (hget _).trans (putBit_get_ne s _ _ (hscfg m))
    priv := fun _ => ⟨(bit_congr (hget _) _).trans ((hbits _).trans (if_pos rfl)), hpoll⟩
    shared := fun h => absurd hn (by omega)
    away := fun h => absurd hn (by omega) }

/-- A shared source's enable is its own. -/
theorem cmaskStep_shared (s : State) (r : Req) (j : Fin 8) (v : W32) {b : Nat} (hb : b < 32) (hn : ¬ 32 * j.val + b < 16)
    (hr : Reaches s r (32 * j.val + b)) :
    CmaskStep s ((s.set (R.EVC.SCFG.EN (32 * j.val + b)) (b2n (!v.getLsbD b))).evPoll (winKey (reqTarget r).val j.val b)) r j v b := by
  have hown : (reqTarget r).val < 10 := (reqTarget r).isLt
  have halign : (R.EVC.SCFG.EN (32 * j.val + b)).off ≠ R.GONG.STATUS.ALIGNED.off := by
    simp only [R.EVC.SCFG.EN, R.GONG.STATUS.ALIGNED]
    omega
  have hpen : (R.EVC.PEN.EN (reqTarget r).val).off ≠ (R.EVC.SCFG.EN (32 * j.val + b)).off := by
    simp only [R.EVC.PEN.EN, R.EVC.SCFG.EN]
    omega
  obtain ⟨hu, hregs, hpoll, hother⟩ := set_evPoll s (R.EVC.SCFG.EN (32 * j.val + b)) (b2n (!v.getLsbD b)) halign (winKey (reqTarget r).val j.val b)
  have hget := get_congr hregs
  exact {
    eq := hu
    regs := fun o ho => (congrArg (fileGet · o) hregs).trans
      (reg_set_ne s _ _ fun he => ho (List.mem_cons_of_mem _ (List.mem_map.2 ⟨b, List.mem_range.2 hb, he.symm⟩)))
    other := hother
    pen := fun m _ _ => bit_congr ((hget _).trans (get_setReg_ne s _ hpen)) m
    en := fun m hne => (hget _).trans (get_setReg_ne s _ (by simp only [R.EVC.SCFG.EN]; omega))
    target := fun m => by
      refine (hget _).trans (get_set_apart s _ rfl ?_)
      simp [Fld.apart, R.EVC.SCFG.EN, R.EVC.SCFG.TARGET]
    priv := fun h => absurd h hn
    shared := fun _ _ => ⟨(hget _).trans ((get_set_same s _ rfl).trans (by cases v.getLsbD b <;> rfl)), hpoll⟩
    away := fun _ h => absurd hr h }

/-- A program's write does not reach a source of another engine. -/
theorem cmaskStep_away (s : State) (r : Req) (j : Fin 8) (v : W32) {b : Nat} (hn : ¬ 32 * j.val + b < 16) (hr : ¬ Reaches s r (32 * j.val + b)) :
    CmaskStep s s r j v b where
  eq := rfl
  regs := fun _ _ => rfl
  other := fun _ _ => rfl
  pen := fun _ _ _ => rfl
  en := fun _ _ => rfl
  target := fun _ => rfl
  priv := fun h => absurd h hn
  shared := fun _ h => absurd h hr
  away := fun _ _ => ⟨rfl, rfl⟩

theorem cmaskBit_step (s : State) (r : Req) (j : Fin 8) (v : W32) {b : Nat} (hb : b < 32) : CmaskStep s (s.cmaskBit r j.val v b) r j v b := by
  have hbit : (!v.getLsbD b) = decide (v.toNat / 2 ^ b % 2 = 0) := by
    rw [getLsbD_eq, ← decide_not]
    exact decide_eq_decide.2 (by omega)
  have hown : (reqTarget r).val < 10 := (reqTarget r).isLt
  unfold State.cmaskBit
  dsimp only
  by_cases hn : 32 * j.val + b < 16
  · have hk : winKey (reqTarget r).val j.val b = 16 * (reqTarget r).val + (32 * j.val + b) := if_pos hn
    have hdiv : winKey (reqTarget r).val j.val b / 16 = (reqTarget r).val := by omega
    have hmod : winKey (reqTarget r).val j.val b % 16 = 32 * j.val + b := by omega
    rw [if_pos (by omega), hdiv, hmod, ← hbit]
    exact cmaskStep_private s r j v hn
  · have hk : winKey (reqTarget r).val j.val b = 160 + (32 * j.val + b) := if_neg hn
    have hsub : winKey (reqTarget r).val j.val b - 160 = 32 * j.val + b := by omega
    have htarget : s.evTarget (winKey (reqTarget r).val j.val b) = s.get (R.EVC.SCFG.TARGET (32 * j.val + b)) := by
      rw [State.evTarget, if_neg (by omega), hsub]
    rw [if_neg (by omega), hsub, ← hbit, htarget]
    split
    · next hc => exact cmaskStep_away s r j v hn (by simpa [Reaches] using hc)
    · next hc => exact cmaskStep_shared s r j v hb hn (by simpa [Reaches, or_iff_not_imp_left] using hc)

/-- What the first `n` bits of a write of CMASK leave. -/
structure CmaskBits (s u : State) (r : Req) (j : Fin 8) (v : W32) (n : Nat) : Prop where
  eq : u = { s with regs := u.regs, evs := u.evs }
  regs : RegsKept s u (cmaskOffs r j)
  other : ∀ x, (∀ b, b < n → x ≠ winKey (reqTarget r).val j.val b) → tblFind u.evs x = tblFind s.evs x
  target : ∀ m, u.get (R.EVC.SCFG.TARGET m) = s.get (R.EVC.SCFG.TARGET m)
  later : ∀ m, (∀ b, b < n → m ≠ 32 * j.val + b) → u.get (R.EVC.SCFG.EN m) = s.get (R.EVC.SCFG.EN m)
  priv : ∀ b, b < n → 32 * j.val + b < 16 → u.bit (R.EVC.PEN.EN (reqTarget r).val) (32 * j.val + b) = !v.getLsbD b ∧
    EvPolled s u (winKey (reqTarget r).val j.val b)
  shared : ∀ b, b < n → 16 ≤ 32 * j.val + b → Reaches s r (32 * j.val + b) →
    u.get (R.EVC.SCFG.EN (32 * j.val + b)) = b2n (!v.getLsbD b) ∧ EvPolled s u (winKey (reqTarget r).val j.val b)
  away : ∀ b, b < n → 16 ≤ 32 * j.val + b → ¬ Reaches s r (32 * j.val + b) →
    u.get (R.EVC.SCFG.EN (32 * j.val + b)) = s.get (R.EVC.SCFG.EN (32 * j.val + b)) ∧
      tblFind u.evs (winKey (reqTarget r).val j.val b) = tblFind s.evs (winKey (reqTarget r).val j.val b)

theorem cmaskOffs_enable {r : Req} {j : Fin 8} {f : Fld} (hf : ¬ NoLevelOff f.off) : f.off ∉ cmaskOffs r j := by
  have hown : (reqTarget r).val < 10 := (reqTarget r).isLt
  intro hm
  refine hf (.inl ?_)
  unfold EnableOff
  rcases List.mem_cons.1 hm with he | he
  · rw [he]
    simp only [R.EVC.PEN.EN]
    omega
  · obtain ⟨b, hb, he⟩ := List.mem_map.1 he
    have := List.mem_range.1 hb
    rw [← he]
    simp only [R.EVC.SCFG.EN]
    omega

/-- A later bit leaves the poll of an earlier source as it was. -/
theorem CmaskStep.keeps_poll {s t u : State} {r : Req} {j : Fin 8} {v : W32} {n b : Nat} (h : CmaskStep t u r j v n) (hne : b ≠ n)
    (hp : EvPolled s t (winKey (reqTarget r).val j.val b)) : EvPolled s u (winKey (reqTarget r).val j.val b) := by
  have hown : (reqTarget r).val < 10 := (reqTarget r).isLt
  refine hp.to (h.other _ fun he => hne (winKey_inj hown he)) (evLevel_frame (fun f hf => regsKept_get h.regs (cmaskOffs_enable hf)) _) ?_
  unfold State.evEnabled
  by_cases hlt : 32 * j.val + b < 16
  · have hk : winKey (reqTarget r).val j.val b = 16 * (reqTarget r).val + (32 * j.val + b) := by rw [winKey_eq, if_pos hlt]
    have hk' : winKey (reqTarget r).val j.val b < 160 := by omega
    rw [if_pos hk', if_pos hk', winKey_div hk']
    exact h.pen _ (Nat.mod_lt _ (by decide)) (by omega)
  · have hk : winKey (reqTarget r).val j.val b = 160 + (32 * j.val + b) := by rw [winKey_eq, if_neg hlt]
    have hk' : ¬ winKey (reqTarget r).val j.val b < 160 := by omega
    rw [if_neg hk', if_neg hk', h.target, h.en _ (by omega)]

/-- A poll of the next bit compares with what its source was at first. -/
theorem CmaskBits.next_poll {s t u : State} {r : Req} {j : Fin 8} {v : W32} {n : Nat} (h : CmaskBits s t r j v n) 
    (hp : EvPolled t u (winKey (reqTarget r).val j.val n)) : EvPolled s u (winKey (reqTarget r).val j.val n) := by
  have hown : (reqTarget r).val < 10 := (reqTarget r).isLt
  have halign : R.GONG.STATUS.ALIGNED.off ∉ cmaskOffs r j := cmaskOffs_enable fun he => by
    unfold NoLevelOff EnableOff at he
    simp only [R.GONG.STATUS.ALIGNED] at he
    omega
  refine hp.from (h.other _ fun b hb he => hb.ne (winKey_inj hown he).symm) (by rw [h.eq]; rfl) ?_
  rw [State.frameShown, regsKept_get h.regs halign, State.frameShown, h.eq]

theorem CmaskBits.step {s t u : State} {r : Req} {j : Fin 8} {v : W32} {n : Nat} (h : CmaskBits s t r j v n) (k : CmaskStep t u r j v n) :
    CmaskBits s u r j v (n + 1) where
  eq := by rw [k.eq, h.eq]
  regs := fun o ho => (k.regs o ho).trans (h.regs o ho)
  other := fun x hx => (k.other x (hx n (Nat.lt_succ_self n))).trans (h.other x fun b hb => hx b (Nat.lt_succ_of_lt hb))
  target := fun m => (k.target m).trans (h.target m)
  later := fun m hm => (k.en m (hm n (Nat.lt_succ_self n))).trans (h.later m fun b hb => hm b (Nat.lt_succ_of_lt hb))
  priv := fun b hb hlt => by
    rcases Nat.lt_succ_iff_lt_or_eq.1 hb with hb | rfl
    · obtain ⟨hbit, hpoll⟩ := h.priv b hb hlt
      exact ⟨(k.pen _ hlt (by omega)).trans hbit, k.keeps_poll hb.ne hpoll⟩
    · obtain ⟨hbit, hpoll⟩ := k.priv hlt
      exact ⟨hbit, h.next_poll hpoll⟩
  shared := fun b hb hge hr => by
    rcases Nat.lt_succ_iff_lt_or_eq.1 hb with hb | rfl
    · obtain ⟨hen, hpoll⟩ := h.shared b hb hge hr
      exact ⟨(k.en _ (by omega)).trans hen, k.keeps_poll hb.ne hpoll⟩
    · obtain ⟨hen, hpoll⟩ := k.shared hge (by rw [Reaches, h.target]; exact hr)
      exact ⟨hen, h.next_poll hpoll⟩
  away := fun b hb hge hr => by
    have hown : (reqTarget r).val < 10 := (reqTarget r).isLt
    rcases Nat.lt_succ_iff_lt_or_eq.1 hb with hb | rfl
    · obtain ⟨hen, hevs⟩ := h.away b hb hge hr
      exact ⟨(k.en _ (by omega)).trans hen, (k.other _ fun he => hb.ne (winKey_inj hown he)).trans hevs⟩
    · obtain ⟨hen, hevs⟩ := k.away hge (by rw [Reaches, h.target]; exact hr)
      exact ⟨hen.trans (h.later _ fun c hc => by omega), hevs.trans (h.other _ fun c hc he => hc.ne (winKey_inj hown he).symm)⟩

theorem cmaskBits_spec (s : State) (r : Req) (j : Fin 8) (v : W32) (n : Nat) (hn : n ≤ 32) :
    CmaskBits s ((List.range n).foldl (fun t b => t.cmaskBit r j.val v b) s) r j v n := by
  induction n with
  | zero =>
    exact ⟨rfl, fun _ _ => rfl, fun _ _ => rfl, fun _ => rfl, fun _ _ => rfl, fun b hb => absurd hb (Nat.not_lt_zero b),
      fun b hb => absurd hb (Nat.not_lt_zero b), fun b hb => absurd hb (Nat.not_lt_zero b)⟩
  | succ n ih =>
    rw [List.range_succ, List.foldl_append, List.foldl_cons, List.foldl_nil]
    exact (ih (by omega)).step (cmaskBit_step _ r j v (by omega))

end Sys2Proof.Machine
end

section
/-! PROOF. Deliveries after HOLD is cleared (R292): each target of the mask is served until its ring is full or none of its sources is PENDING. -/

namespace Sys2Proof.Machine

theorem evBlockLevel_high {s : State} {n : Nat} (h : 50 ≤ n) : s.evBlockLevel n = false := by
  obtain ⟨m, rfl⟩ := Nat.exists_eq_add_of_le' h
  rfl

/-- No source that the number does not name has a level. -/
theorem evLevel_lt {s : State} {k : Nat} (h : s.evLevel k = true) : k < 0x500 := by
  unfold State.evLevel at h
  split at h
  · next hl =>
    unfold evLatched at hl
    dsimp only at hl
    split at hl
    · omega
    · have hr : k - 160 = 17 ∨ (64 ≤ k - 160 ∧ k - 160 < 256) := by simpa using hl
      omega
  · split at h
    · omega
    · by_contra hk
      rw [evBlockLevel_high (by omega)] at h
      cases h

/-- Level and enable of a source. -/
def State.isOn (s : State) (k : Nat) : Bool := s.evLevel k && s.evEnabled k

theorem isOn_lt {s : State} {k : Nat} (h : s.isOn k = true) : k < 0x500 := evLevel_lt (Bool.and_eq_true .. ▸ h).1

theorem isOn_frame {s t : State} (hl : ∀ f : Fld, ¬ NoLevelOff f.off → t.get f = s.get f)
    (he : ∀ f : Fld, 0x50100 ≤ f.off → f.off < 0x60000 → t.get f = s.get f) (k : Nat) : t.isOn k = s.isOn k := by
  rw [State.isOn, State.isOn, evLevel_frame hl]
  cases hk : s.evLevel k
  · rfl
  · rw [evEnabled_frame (evLevel_lt hk) he]

theorem evTarget_frame {s t : State} {k : Nat} (hk : k < 0x500) (he : ∀ f : Fld, 0x50100 ≤ f.off → f.off < 0x60000 → t.get f = s.get f) :
    t.evTarget k = s.evTarget k := by
  unfold State.evTarget
  rw [he _ (by simp only [R.EVC.SCFG.TARGET]; omega) (by simp only [R.EVC.SCFG.TARGET]; omega)]

/-- The registers that deliveries write: RFULL, DELIVCNT and the heads of the event rings. -/
def DeliveryOff (off : Nat) : Prop := off = 0x50004 ∨ off = 0x50020 ∨ ∃ t, t < 10 ∧ off = (R.NET.HEAD.INDEX t).off

theorem deliveryOff_noLevel {off : Nat} (h : DeliveryOff off) : NoLevelOff off := by
  unfold NoLevelOff
  rcases h with h | h | ⟨t, ht, h⟩
  · omega
  · omega
  · simp only [R.NET.HEAD.INDEX] at h
    omega

theorem deliveryOff_high {off : Nat} (h : DeliveryOff off) : off < 0x50100 ∨ 0x60000 ≤ off := by
  rcases h with h | h | ⟨t, ht, h⟩
  · omega
  · omega
  · simp only [R.NET.HEAD.INDEX] at h
    omega

/-- Deliveries to targets of `T` lead from `s` to `u`. -/
structure Delivered (T : Nat → Prop) (s u : State) : Prop where
  eq : u = { s with regs := u.regs, smem := u.smem, evs := u.evs, evSeq := u.evSeq }
  regs : ∀ f : Fld, ¬ DeliveryOff f.off → u.get f = s.get f
  wf : tblWf u.evs = true
  sources : ∀ k e, tblFind s.evs k = some e → tblFind u.evs k = some e ∨ (e.ph = .pending ∧ s.isOn k = false ∧ tblFind u.evs k = none) ∨
    (e.ph = .pending ∧ s.isOn k = true ∧ T (s.evTarget k) ∧ tblFind u.evs k = some { e with ph := .delivered })
  absent : ∀ k, tblFind s.evs k = none → tblFind u.evs k = none

theorem Delivered.refl {T : Nat → Prop} {s : State} (h : tblWf s.evs = true) : Delivered T s s :=
  ⟨rfl, fun _ _ => rfl, h, fun _ _ he => .inl he, fun _ hk => hk⟩

theorem Delivered.isOn {T : Nat → Prop} {s u : State} (h : Delivered T s u) (k : Nat) : u.isOn k = s.isOn k :=
  isOn_frame (fun f hf => h.regs f fun hd => hf (deliveryOff_noLevel hd)) (fun f h1 h2 => h.regs f fun hd => by have := deliveryOff_high hd; omega) k

theorem Delivered.evTarget {T : Nat → Prop} {s u : State} (h : Delivered T s u) {k : Nat} (hk : s.isOn k = true) : u.evTarget k = s.evTarget k :=
  evTarget_frame (isOn_lt hk) fun f h1 h2 => h.regs f fun hd => by have := deliveryOff_high hd; omega

theorem Delivered.trans {T : Nat → Prop} {s t u : State} (h : Delivered T s t) (k : Delivered T t u) : Delivered T s u where
  eq := by rw [k.eq, h.eq]
  regs := fun f hf => (k.regs f hf).trans (h.regs f hf)
  wf := k.wf
  sources := fun x e he => by
    rcases h.sources x e he with hx | ⟨hp, hoff, hx⟩ | ⟨hp, hon, hT, hx⟩
    · rcases k.sources x e hx with hx | ⟨hp, hoff, hx⟩ | ⟨hp, hon, hT, hx⟩
      · exact .inl hx
      · exact .inr (.inl ⟨hp, (h.isOn x).symm.trans hoff, hx⟩)
      · have hon := (h.isOn x).symm.trans hon
        exact .inr (.inr ⟨hp, hon, h.evTarget hon ▸ hT, hx⟩)
    · exact .inr (.inl ⟨hp, hoff, k.absent x hx⟩)
    · rcases k.sources x _ hx with hx | ⟨hp', -⟩ | ⟨hp', -⟩
      · exact .inr (.inr ⟨hp, hon, hT, hx⟩)
      · cases hp'
      · cases hp'
  absent := fun x hx => k.absent x (h.absent x hx)

/-- A source that is PENDING afterwards was PENDING before. -/
theorem Delivered.pending {T : Nat → Prop} {s u : State} (h : Delivered T s u) {p : Nat × EvSrc} (hp : p ∈ u.evs) (hph : p.2.ph = .pending) :
    tblFind s.evs p.1 = some p.2 := by
  have hu := tblFind_of_mem h.wf hp
  cases hs : tblFind s.evs p.1 with
  | none => rw [h.absent _ hs] at hu; cases hu
  | some e =>
    rcases h.sources _ e hs with hk | ⟨-, -, hk⟩ | ⟨-, -, -, hk⟩ <;> rw [hk] at hu
    · exact hu
    · cases hu
    · rw [← Option.some.inj hu] at hph
      cases hph

/-! ### One delivery -/

theorem choose_fold_none_imp {s : State} {t : Nat} (l : List (Nat × EvSrc)) {b : Option Nat} (h : l.foldl (s.choose t) b = none) :
    b = none ∧ ∀ p ∈ l, p.2.ph = .pending → s.evTarget p.1 ≠ t := by
  induction l generalizing b with
  | nil => exact ⟨h, fun _ hp => (List.not_mem_nil hp).elim⟩
  | cons p l ih =>
    obtain ⟨hb, hl⟩ := ih h
    by_cases hp : p.2.ph = .pending ∧ s.evTarget p.1 = t
    · cases b with
      | none => rw [choose_none hp] at hb; cases hb
      | some x => rcases choose_some hp x with ⟨-, hc⟩ | ⟨-, hc⟩ <;> rw [hc] at hb <;> cases hb
    · rw [choose_not hp] at hb
      refine ⟨hb, fun q hq hph ht => ?_⟩
      rcases List.mem_cons.1 hq with rfl | hq
      exacts [hp ⟨hph, ht⟩, hl q hq hph ht]

theorem choose_fold_mem {s : State} {t k : Nat} (l : List (Nat × EvSrc)) {b : Option Nat} (h : l.foldl (s.choose t) b = some k) :
    b = some k ∨ ∃ e, (k, e) ∈ l ∧ e.ph = .pending ∧ s.evTarget k = t := by
  induction l generalizing b with
  | nil => exact .inl h
  | cons p l ih =>
    rcases ih h with hb | ⟨e, he, hp⟩
    · by_cases hp : p.2.ph = .pending ∧ s.evTarget p.1 = t
      · have hsame : b = some k ∨ p.1 = k := by
          cases b with
          | none => rw [choose_none hp] at hb; exact .inr (Option.some.inj hb)
          | some x =>
            rcases choose_some hp x with ⟨-, hc⟩ | ⟨-, hc⟩ <;> rw [hc] at hb
            exacts [.inr (Option.some.inj hb), .inl hb]
        refine hsame.imp_right fun hk => ?_
        subst hk
        exact ⟨p.2, List.mem_cons_self .., hp⟩
      · rw [choose_not hp] at hb
        exact .inl hb
    · exact .inr ⟨e, List.mem_cons_of_mem _ he, hp⟩

/-- The sensing of the sources is a delivery of none. -/
theorem Delivered.sense {s : State} (T : Nat → Prop) (h : tblWf s.evs = true) : Delivered T s { s with evs := s.sensed } where
  eq := rfl
  regs := fun _ _ => rfl
  wf := tblWf_filter _ h
  sources := fun k e he => by
    by_cases hk : e.ph = .pending ∧ s.isOn k = false
    · refine .inr (.inl ⟨hk.1, hk.2, tblFind_eq_none fun p hp hpk => ?_⟩)
      obtain ⟨hm, hf⟩ := List.mem_filter.1 hp
      have hpe := tblFind_of_mem h hm
      rw [hpk, he] at hpe
      cases hpe
      rw [hk.1, hpk] at hf
      have hon : s.isOn k = true := hf
      rw [hk.2] at hon
      cases hon
    · refine .inl (tblFind_filter he ?_)
      show (e.ph != .pending || s.isOn k) = true
      cases hon : s.isOn k
      · simpa [hon] using hk
      · simp
  absent := fun k hk => tblFind_eq_none fun p hp hpk => by
    have hpe := tblFind_of_mem h (List.mem_filter.1 hp).1
    rw [hpk, hk] at hpe
    cases hpe

/-- How many sources are PENDING. -/
def State.pendings (s : State) : Nat := s.evs.countP fun p => p.2.ph == .pending

theorem countP_put_lt {α : Type} {t : Tbl α} {P : Nat × α → Bool} {k : Nat} {v w : α} (hwf : tblWf t = true) (hk : tblFind t k = some v)
    (hv : P (k, v) = true) (hw : P (k, w) = false) : (tblPut t k w).countP P < t.countP P := by
  induction t with
  | nil => cases hk
  | cons p t ih =>
    obtain ⟨k', v'⟩ := p
    have hpair := List.pairwise_cons.1 ((tblWf_iff _).1 hwf)
    rw [tblFind] at hk
    rw [tblPut]
    split at hk
    · next he =>
      cases hk
      subst he
      rw [if_neg (Nat.lt_irrefl _), if_pos rfl, List.countP_cons, List.countP_cons, hv, hw]
      simp
    · next he =>
      have hlt : k' < k := hpair.1 _ (tblFind_mem hk)
      have := ih ((tblWf_iff _).2 hpair.2) hk
      rw [if_neg (by omega), if_neg he, List.countP_cons, List.countP_cons]
      omega

/-- No source of target `i` waits that its ring would take. -/
def State.Settled (s : State) (i : Nat) : Prop :=
  s.ringFull i = true ∨ ∀ p ∈ s.evs, p.2.ph = .pending → s.isOn p.1 = true ∧ s.evTarget p.1 ≠ i

theorem ringFull_congr {s t : State} {i : Nat} (hh : t.get (R.NET.HEAD.INDEX i) = s.get (R.NET.HEAD.INDEX i))
    (h : ∀ f : Fld, ¬ DeliveryOff f.off → t.get f = s.get f) (hi : i < 10) : t.ringFull i = s.ringFull i := by
  have hoff (d : Nat) (hd : d % 32 ≠ 12) (hlow : 0x60800 ≤ d) : ¬ DeliveryOff d := by
    rintro (h | h | ⟨t, -, h⟩)
    · omega
    · omega
    · simp only [R.NET.HEAD.INDEX] at h
      omega
  unfold State.ringFull State.ringN State.ringLog
  rw [hh, h (R.NET.TAIL.INDEX i) (hoff _ (by simp only [R.NET.TAIL.INDEX]; omega) (by simp only [R.NET.TAIL.INDEX]; omega)),
    h (R.NET.RCFG.LOG2N i) (hoff _ (by simp only [R.NET.RCFG.LOG2N]; omega) (by simp only [R.NET.RCFG.LOG2N]; omega))]

theorem Delivered.settled {T : Nat → Prop} {s u : State} {i : Nat} (h : Delivered T s u) (hi : i < 10)
    (hh : u.get (R.NET.HEAD.INDEX i) = s.get (R.NET.HEAD.INDEX i)) (hs : s.Settled i) : u.Settled i := by
  refine hs.imp (fun hf => (ringFull_congr hh h.regs hi).trans hf) fun hp p hu hph => ?_
  obtain ⟨hon, ht⟩ := hp p (tblFind_mem (h.pending hu hph)) hph
  exact ⟨(h.isOn p.1).trans hon, (h.evTarget hon).symm ▸ ht⟩

/-- What the first delivery of a target is: none, a full ring, or the record of one source. -/
theorem evDeliverFirst_cases (s : State) (t : Fin 10) :
    let v := { s with evs := s.sensed }
    let u := s.evDeliverFirst t
    (u = v ∧ (s.bit R.EVC.HOLD.TGT t.val = true ∨ s.ringOn t.val = false ∨ ∀ p ∈ s.sensed, p.2.ph = .pending → s.evTarget p.1 ≠ t.val)) ∨
      (u = v.flag R.EVC.FLAG.RFULL ∧ s.ringFull t.val = true) ∨
      ∃ k e, u = v.evDeliver t k ∧ s.ringFull t.val = false ∧ (k, e) ∈ s.sensed ∧ e.ph = .pending ∧ s.evTarget k = t.val := by
  have hs : s.evDeliverFirst t = if s.bit R.EVC.HOLD.TGT t.val || !s.ringOn t.val then s.evSense else match { s with evs := s.sensed }.evFirst t.val with
    | none => s.evSense
    | some k => if s.ringFull t.val then { s with evs := s.sensed }.flag R.EVC.FLAG.RFULL else { s with evs := s.sensed }.evDeliver t k := rfl
  dsimp only
  rw [hs]
  split
  · next hc =>
    refine .inl ⟨rfl, ?_⟩
    simp only [Bool.or_eq_true, Bool.not_eq_true'] at hc
    exact hc.imp_right .inl
  · cases hf : State.evFirst { s with evs := s.sensed } t.val with
    | none => exact .inl ⟨rfl, .inr (.inr (choose_fold_none_imp s.sensed hf).2)⟩
    | some k =>
      cases hfull : s.ringFull t.val
      · obtain ⟨e, he, hp⟩ := (choose_fold_mem s.sensed hf).resolve_left fun h => nomatch h
        exact .inr (.inr ⟨k, e, rfl, rfl, he, hp⟩)
      · exact .inr (.inl ⟨rfl, rfl⟩)

theorem sensed_mem {s : State} {p : Nat × EvSrc} (h : p ∈ s.sensed) : p ∈ s.evs ∧ (p.2.ph = .pending → s.isOn p.1 = true) := by
  obtain ⟨hm, hf⟩ := List.mem_filter.1 h
  refine ⟨hm, fun hp => ?_⟩
  rw [hp] at hf
  exact hf

/-- Registers beside those of deliveries are not among the fields that a delivery writes. -/
theorem FieldsSet.deliveryRegs {s u : State} {l : List (Fld × Nat)} (h : FieldsSet s u l) (hl : ∀ p ∈ l, DeliveryOff p.1.off) (f : Fld)
    (hf : ¬ DeliveryOff f.off) : u.get f = s.get f :=
  h.2 f fun p hp => by
    have hne : f.off ≠ p.1.off := fun he => hf (he ▸ hl p hp)
    simp [Fld.apart, hne]

/-- The record of one source. -/
theorem Delivered.deliver {s : State} {T : Nat → Prop} {t : Fin 10} {k : Nat} {e : EvSrc} (hT : T t.val) (hwf : tblWf s.evs = true)
    (he : tblFind s.evs k = some e) (hp : e.ph = .pending) (hon : s.isOn k = true) (ht : s.evTarget k = t.val) : Delivered T s (s.evDeliver t k) := by
  obtain ⟨hu, hf⟩ := evDeliver_spec (t := t) he
  generalize s.evDeliver t k = u at hu hf
  have hevs : u.evs = tblPut s.evs k { e with ph := .delivered } := by rw [hu]
  refine { eq := by rw [hu], regs := hf.deliveryRegs ?_, wf := by rw [hevs]; exact tblWf_put _ _ hwf, sources := fun x y hx => ?_, absent := fun x hx => ?_ }
  · intro p hp
    simp only [List.mem_cons, List.not_mem_nil, or_false] at hp
    rcases hp with rfl | rfl
    exacts [.inr (.inr ⟨t.val, t.isLt, rfl⟩), .inr (.inl rfl)]
  · rw [hevs, tblFind_put]
    split
    · next hxk =>
      rw [hxk, he] at hx
      cases hx
      rw [hxk]
      exact .inr (.inr ⟨hp, hon, ht ▸ hT, rfl⟩)
    · exact .inl hx
  · rw [hevs, tblFind_put, if_neg fun hxk => by rw [hxk, he] at hx; cases hx]
    exact hx

/-- A ring that is full is flagged. -/
theorem Delivered.full {s : State} (T : Nat → Prop) (hwf : tblWf s.evs = true) : Delivered T s (s.flag R.EVC.FLAG.RFULL) where
  eq := rfl
  regs := FieldsSet.deliveryRegs ((FieldsSet.refl s).put R.EVC.FLAG.RFULL 1 rfl) fun p hp => by
    simp only [List.nil_append, List.mem_cons, List.not_mem_nil, or_false] at hp
    subst hp
    exact .inl (by decide)
  wf := hwf
  sources := fun _ _ he => .inl he
  absent := fun _ hk => hk

theorem evDeliverFirst_delivered {s : State} {T : Nat → Prop} {t : Fin 10} (hT : T t.val) (hwf : tblWf s.evs = true) :
    Delivered T s (s.evDeliverFirst t) := by
  have hsense := Delivered.sense T hwf
  rcases evDeliverFirst_cases s t with ⟨hu, -⟩ | ⟨hu, -⟩ | ⟨k, e, hu, -, he, hp, ht⟩
  · rw [hu]
    exact hsense
  · rw [hu]
    exact hsense.trans (.full T hsense.wf)
  · rw [hu]
    have hon := (sensed_mem he).2 hp
    exact hsense.trans (.deliver hT hsense.wf (tblFind_of_mem hsense.wf he) hp ((hsense.isOn k).trans hon) ((hsense.evTarget hon).trans ht))

/-- A target that is settled stays so. -/
theorem evDeliverFirst_settled {s : State} {t : Fin 10} {i : Nat} (hwf : tblWf s.evs = true) (hi : i < 10) (hs : s.Settled i) :
    (s.evDeliverFirst t).Settled i := by
  refine (evDeliverFirst_delivered (T := fun _ => True) trivial hwf).settled hi ?_ hs
  rcases evDeliverFirst_cases s t with ⟨hu, -⟩ | ⟨hu, -⟩ | ⟨k, e, hu, hfull, he, hp, ht⟩
  · rw [hu]
    rfl
  · rw [hu]
    exact get_setReg_ne _ _ (by simp only [R.NET.HEAD.INDEX]; show _ ≠ 0x50004; omega)
  · have hne : i ≠ t.val := by
      rintro rfl
      rcases hs with hf | hnone
      · rw [hf] at hfull
        cases hfull
      · exact (hnone _ (sensed_mem he).1 hp).2 ht
    rw [hu]
    have hf := (evDeliver_spec (s := { s with evs := s.sensed }) (t := t) (tblFind_of_mem (Delivered.sense (fun _ => True) hwf).wf he)).2
    refine (hf.2 (R.NET.HEAD.INDEX i) fun p hp => ?_).trans rfl
    simp only [List.mem_cons, List.not_mem_nil, or_false] at hp
    rcases hp with rfl | rfl <;> simp [Fld.apart, R.NET.HEAD.INDEX, R.EVC.DELIVCNT.COUNT] <;> omega

/-- A target that may be served is settled, or one source less is PENDING. -/
theorem evDeliverFirst_progress {s : State} {t : Fin 10} (hwf : tblWf s.evs = true) (hhold : s.bit R.EVC.HOLD.TGT t.val = false)
    (hon : s.ringOn t.val = true) : (s.evDeliverFirst t).Settled t.val ∨ (s.evDeliverFirst t).pendings < s.pendings := by
  have hsense := Delivered.sense (fun _ => True) hwf
  rcases evDeliverFirst_cases s t with ⟨hu, h⟩ | ⟨hu, hfull⟩ | ⟨k, e, hu, -, he, hp, -⟩
  · rw [hu]
    have hnone := (h.resolve_left fun k => by rw [hhold] at k; cases k).resolve_left fun k => by rw [hon] at k; cases k
    exact .inl (.inr fun p hp hph => ⟨(hsense.isOn p.1).trans ((sensed_mem hp).2 hph), hnone p hp hph⟩)
  · rw [hu]
    refine .inl ((Delivered.full (fun _ => True) hsense.wf).settled t.isLt ?_ (.inl hfull))
    exact get_setReg_ne _ _ (by simp only [R.NET.HEAD.INDEX]; show _ ≠ 0x50004; omega)
  · have hfind : tblFind s.sensed k = some e := tblFind_of_mem hsense.wf he
    have hevs : (s.evDeliverFirst t).evs = tblPut s.sensed k { e with ph := .delivered } := by
      rw [hu, (evDeliver_spec (s := { s with evs := s.sensed }) (t := t) hfind).1]
    refine .inr ?_
    rw [State.pendings, hevs, State.pendings]
    calc _ < s.sensed.countP (fun p => p.2.ph == .pending) := countP_put_lt hsense.wf hfind (by simp [hp]) rfl
      _ ≤ _ := List.Sublist.countP_le List.filter_sublist

/-! ### All deliveries of the mask -/

theorem evDeliverAll_delivered {T : Nat → Prop} {t : Fin 10} (hT : T t.val) (n : Nat) {s : State} (hwf : tblWf s.evs = true) :
    Delivered T s (s.evDeliverAll t n) := by
  induction n generalizing s with
  | zero => exact .refl hwf
  | succ n ih =>
    have h := evDeliverFirst_delivered hT hwf
    exact h.trans (ih h.wf)

theorem evDeliverAll_settled {t : Fin 10} {i : Nat} (n : Nat) {s : State} (hwf : tblWf s.evs = true) (hi : i < 10) (hs : s.Settled i) :
    (s.evDeliverAll t n).Settled i := by
  induction n generalizing s with
  | zero => exact hs
  | succ n ih => exact ih (evDeliverFirst_delivered (T := fun _ => True) trivial hwf).wf (evDeliverFirst_settled hwf hi hs)

theorem deliveryOff_hold : ¬ DeliveryOff R.EVC.HOLD.TGT.off := by
  rintro (h | h | ⟨t, -, h⟩)
  · exact absurd h (by decide)
  · exact absurd h (by decide)
  · simp only [R.NET.HEAD.INDEX, R.EVC.HOLD.TGT] at h
    omega

theorem deliveryOff_rcfg (i : Nat) : ¬ DeliveryOff (R.NET.RCFG.EN i).off := by
  simp only [R.NET.RCFG.EN]
  rintro (h | h | ⟨t, -, h⟩)
  · omega
  · omega
  · simp only [R.NET.HEAD.INDEX] at h
    omega

theorem evDeliverAll_settles {t : Fin 10} (n : Nat) {s : State} (hwf : tblWf s.evs = true) (hhold : s.bit R.EVC.HOLD.TGT t.val = false)
    (hon : s.ringOn t.val = true) (hn : s.pendings ≤ n) : (s.evDeliverAll t n).Settled t.val := by
  induction n generalizing s with
  | zero =>
    refine .inr fun p hp hph => ?_
    have := List.countP_eq_zero.1 (Nat.le_zero.1 hn) p hp
    exact absurd (by rw [hph]; rfl) this
  | succ n ih =>
    have h := evDeliverFirst_delivered (T := fun _ => True) (t := t) trivial hwf
    rcases evDeliverFirst_progress hwf hhold hon with hs | hlt
    · exact evDeliverAll_settled n h.wf t.isLt hs
    · exact ih h.wf (by rw [State.bit, h.regs _ deliveryOff_hold]; exact hhold) (by rw [State.ringOn, h.regs _ (deliveryOff_rcfg _)]; exact hon) (by omega)

/-- The targets of mask `m` among those listed are served. -/
def State.deliverMask (s : State) (m : Nat) (l : List Nat) : State :=
  l.foldl (fun t i => if m / 2 ^ i % 2 = 1 then t.evDeliverAll (Fin.ofNat 10 i) t.evs.length else t) s

theorem testBit_iff (m i : Nat) : m / 2 ^ i % 2 = 1 ↔ m.testBit i = true := by
  rw [Nat.testBit_eq_decide_div_mod_eq, decide_eq_true_eq]

theorem deliverMask_spec {m : Nat} {s : State} (hwf : tblWf s.evs = true) (hhold : ∀ i, i < 10 → m.testBit i = true → s.bit R.EVC.HOLD.TGT i = false)
    (l : List Nat) (hl : ∀ i ∈ l, i < 10) :
    Delivered (fun i => m.testBit i = true) s (s.deliverMask m l) ∧
      (∀ i, i < 10 → s.Settled i → (s.deliverMask m l).Settled i) ∧
      ∀ i ∈ l, m.testBit i = true → s.ringOn i = true → (s.deliverMask m l).Settled i := by
  induction l generalizing s with
  | nil => exact ⟨.refl hwf, fun _ _ h => h, fun _ hi => (List.not_mem_nil hi).elim⟩
  | cons j l ih =>
    have hj : j < 10 := hl j (List.mem_cons_self ..)
    have hfin : (Fin.ofNat 10 j).val = j := Nat.mod_eq_of_lt hj
    have hrest := fun i hi => hl i (List.mem_cons_of_mem j hi)
    rw [State.deliverMask, List.foldl_cons, ← State.deliverMask]
    split
    · next hm =>
      have hmask : m.testBit j = true := (testBit_iff m j).1 hm
      have hall := evDeliverAll_delivered (T := fun i => m.testBit i = true) (t := Fin.ofNat 10 j) (by rw [hfin]; exact hmask) s.evs.length hwf
      obtain ⟨hd, hkeep, hserved⟩ := ih hall.wf (fun i hi h => by rw [State.bit, hall.regs _ deliveryOff_hold]; exact hhold i hi h) hrest
      refine ⟨hall.trans hd, fun i hi hs => hkeep i hi (evDeliverAll_settled _ hwf hi hs), fun i hi hmi hon => ?_⟩
      rcases List.mem_cons.1 hi with rfl | hi
      · refine hkeep i hj ?_
        have := evDeliverAll_settles (t := Fin.ofNat 10 i) s.evs.length hwf (by rw [hfin]; exact hhold i hj hmi) (by rw [hfin]; exact hon) List.countP_le_length
        rwa [hfin] at this
      · exact hserved i hi hmi (by rw [State.ringOn, hall.regs _ (deliveryOff_rcfg _)]; exact hon)
    · next hm =>
      obtain ⟨hd, hkeep, hserved⟩ := ih hwf hhold hrest
      refine ⟨hd, hkeep, fun i hi hmi hon => ?_⟩
      rcases List.mem_cons.1 hi with rfl | hi
      · exact absurd ((testBit_iff m i).2 hmi) hm
      · exact hserved i hi hmi hon

end Sys2Proof.Machine
end

section
/-! PROOF. The event controller's commands. -/

namespace Sys2Proof.Machine

theorem and_not_mask (w : Nat) {x m : Nat} (hx : x < 2 ^ w) (hm : m < 2 ^ w) : x &&& ((2 ^ w - 1) ^^^ m) = x - (x &&& m) := by
  have hsplit (a b : BitVec w) : (a &&& ~~~b).toNat = a.toNat - (a &&& b).toNat := by
    have hand : (a &&& b) &&& (a &&& ~~~b) = 0#w := by
      ext i hi
      simp only [BitVec.getElem_and, BitVec.getElem_not, BitVec.getElem_zero]
      cases a[i] <;> cases b[i] <;> rfl
    have hor : (a &&& b) ||| (a &&& ~~~b) = a := by
      ext i hi
      simp only [BitVec.getElem_and, BitVec.getElem_not, BitVec.getElem_or]
      cases a[i] <;> cases b[i] <;> rfl
    have hsum := BitVec.toNat_add_of_and_eq_zero hand
    rw [BitVec.add_eq_or_of_and_eq_zero _ _ hand, hor] at hsum
    omega
  have h := hsplit (BitVec.ofNat w x) (BitVec.ofNat w m)
  have hnot : (~~~BitVec.ofNat w m).toNat = (2 ^ w - 1) ^^^ m := by
    rw [BitVec.not_def, BitVec.toNat_xor, BitVec.toNat_allOnes, BitVec.toNat_ofNat, Nat.mod_eq_of_lt hm]
  rwa [BitVec.toNat_and, hnot, BitVec.toNat_and, BitVec.toNat_ofNat, BitVec.toNat_ofNat, Nat.mod_eq_of_lt hx, Nat.mod_eq_of_lt hm] at h

/-! ### HOLD (R292) -/

theorem holdMask_lt (r : Req) (m : BitVec 10) : State.holdMask r m.toNat < 2 ^ 10 := by
  unfold State.holdMask
  split
  · exact Nat.lt_of_le_of_lt Nat.and_le_left m.isLt
  · exact m.isLt

theorem holdClr_eq (s : State) (r : Req) (m : BitVec 10) : s.holdClr r m.toNat =
    (s.set R.EVC.HOLD.TGT (s.get R.EVC.HOLD.TGT - (s.get R.EVC.HOLD.TGT &&& State.holdMask r m.toNat))).deliverMask (State.holdMask r m.toNat) (List.range 10) := by
  have hlt := holdMask_lt r m
  rw [← and_not_mask 10 (get_lt s R.EVC.HOLD.TGT) hlt]
  show State.deliverMask (s.set R.EVC.HOLD.TGT (s.get R.EVC.HOLD.TGT &&& (0x3FF ^^^ (State.holdMask r m.toNat % 1024)))) _ _ = _
  rw [Nat.mod_eq_of_lt (show _ < 1024 from hlt), show (2 : Nat) ^ 10 - 1 = 1023 from rfl]

theorem cleared_bit {x m w i : Nat} (hx : x < 2 ^ w) (hm : m < 2 ^ w) (hi : m.testBit i = true) : (x - (x &&& m)).testBit i = false := by
  rw [← and_not_mask w hx hm, Nat.testBit_and, Nat.testBit_xor, hi, Nat.testBit_two_pow_sub_one]
  have : i < w := (Nat.lt_or_ge i w).resolve_right fun h => by
    rw [Nat.testBit_lt_two_pow (Nat.lt_of_lt_of_le hm (Nat.pow_le_pow_right (by decide) h))] at hi
    cases hi
  simp [this]

/-- What HOLDCLR leaves. -/
theorem holdClr_spec {s : State} (hwf : tblWf s.evs = true) (r : Req) (m : BitVec 10) :
    let u := s.holdClr r m.toNat
    let mask := State.holdMask r m.toNat
    u = { s with regs := u.regs, smem := u.smem, evs := u.evs, evSeq := u.evSeq } ∧
      u.get R.EVC.HOLD.TGT = s.get R.EVC.HOLD.TGT - (s.get R.EVC.HOLD.TGT &&& mask) ∧
      (∀ i, i < 10 → mask.testBit i = true → s.ringOn i = true → u.ringFull i = true ∨ ∀ p ∈ u.evs, p.2.ph = .pending → u.evTarget p.1 ≠ i) ∧
      ∀ k e, tblFind s.evs k = some e → tblFind u.evs k = some e ∨ (e.ph = .pending ∧ s.isOn k = false ∧ tblFind u.evs k = none) ∨
        (e.ph = .pending ∧ mask.testBit (s.evTarget k) = true ∧ tblFind u.evs k = some { e with ph := .delivered }) := by
  have hlt := holdMask_lt r m
  have hx := get_lt s R.EVC.HOLD.TGT
  have hv := holdClr_eq s r m
  dsimp only
  generalize State.holdMask r m.toNat = mask at hlt hv ⊢
  have hval : s.get R.EVC.HOLD.TGT - (s.get R.EVC.HOLD.TGT &&& mask) < 2 ^ R.EVC.HOLD.TGT.w := Nat.lt_of_le_of_lt (Nat.sub_le ..) hx
  have hset := get_set_same s (f := R.EVC.HOLD.TGT) (s.get R.EVC.HOLD.TGT - (s.get R.EVC.HOLD.TGT &&& mask)) (by decide)
  rw [Nat.mod_eq_of_lt hval] at hset
  have hne (f : Fld) (hf : f.off ≠ R.EVC.HOLD.TGT.off) :
      (s.set R.EVC.HOLD.TGT (s.get R.EVC.HOLD.TGT - (s.get R.EVC.HOLD.TGT &&& mask))).get f = s.get f := get_setReg_ne s _ hf
  have heq : s.set R.EVC.HOLD.TGT (s.get R.EVC.HOLD.TGT - (s.get R.EVC.HOLD.TGT &&& mask)) =
    { s with regs := (s.set R.EVC.HOLD.TGT (s.get R.EVC.HOLD.TGT - (s.get R.EVC.HOLD.TGT &&& mask))).regs } := rfl
  generalize s.set R.EVC.HOLD.TGT (s.get R.EVC.HOLD.TGT - (s.get R.EVC.HOLD.TGT &&& mask)) = v at hv hset hne heq
  have hevs : v.evs = s.evs := by rw [heq]
  have hhold (i : Nat) (hi : mask.testBit i = true) : v.bit R.EVC.HOLD.TGT i = false := by
    rw [bit_eq_testBit, hset]
    exact cleared_bit hx hlt hi
  have hhigh (f : Fld) (h1 : 0x50100 ≤ f.off) (_ : f.off < 0x60000) : v.get f = s.get f := hne f fun he => by rw [he] at h1; exact absurd h1 (by decide)
  have hison (k : Nat) : v.isOn k = s.isOn k := isOn_frame (fun f hf => hne f fun he => hf (by rw [he]; unfold NoLevelOff EnableOff; decide)) hhigh k
  obtain ⟨hd, -, hserved⟩ := deliverMask_spec (m := mask) (s := v) (by rw [hevs]; exact hwf) (fun i _ hi => hhold i hi) (List.range 10) fun i hi => List.mem_range.1 hi
  rw [hv]
  generalize v.deliverMask mask (List.range 10) = u at hd hserved
  refine ⟨?_, (hd.regs _ deliveryOff_hold).trans hset, fun i hi hm hon => ?_, fun k e he => ?_⟩
  · rw [hd.eq, heq]
  · have hon' : v.ringOn i = true := by
      rw [State.ringOn, hne _ (by simp only [R.NET.RCFG.EN]; show _ ≠ 0x50008; omega)]
      exact hon
    exact (hserved i (List.mem_range.2 hi) hm hon').imp_right fun h p hp hph => (h p hp hph).2
  · rw [← hevs] at he
    rcases hd.sources k e he with h | ⟨hp, hoff, h⟩ | ⟨hp, hon, hT, h⟩
    · exact .inl h
    · exact .inr (.inl ⟨hp, (hison k).symm.trans hoff, h⟩)
    · rw [evTarget_frame (isOn_lt hon) hhigh] at hT
      exact .inr (.inr ⟨hp, hT, h⟩)

/-! ### The commands -/

theorem recordBytes_evs (s : State) (evs : Tbl EvSrc) (t : Fin 10) (k : Nat) (e : EvSrc) :
    State.recordBytes { s with evs := evs } t k e = s.recordBytes t k e := by
  unfold State.recordBytes State.evPrio
  rfl

theorem exec_delivery {s : State} {t : Fin 10} {k : Nat} {e : EvSrc} (hh : s.bit R.EVC.HOLD.TGT t.val = false) (hr : s.ringOn t.val = true)
    (h : FirstOf s t k e) (hfull : s.ringFull t.val = false) :
    Does (.eventDelivery t) s fun u =>
      let a := s.ringAddr t.val (s.get (R.NET.HEAD.INDEX t.val))
      u = { s with regs := u.regs, smem := u.smem, evSeq := s.evSeq.set t (s.evSeq[t] + 1), evs := tblPut s.sensed k { e with ph := .delivered } } ∧
        ((∀ b, a ≤ b → b < a + 16 → smemMapped b = true) → memBytes u.smem a 16 = s.recordBytes t k e) ∧
        (∀ b, (b < a ∨ a + 16 ≤ b) → memGet u.smem b = memGet s.smem b) ∧
        FieldsSet s u [(R.NET.HEAD.INDEX t.val, (s.get (R.NET.HEAD.INDEX t.val) + 1) % s.ringN t.val),
          (R.EVC.DELIVCNT.COUNT, s.get R.EVC.DELIVCNT.COUNT + 1)] := by
  have hx : exec (.eventDelivery t) s = s.whilePowered (s.evDeliverFirst t) := rfl
  refine does_of_whilePowered hx fun _ => ?_
  rw [evDeliverFirst_first hh hr h, if_neg (by rw [hfull]; decide)]
  obtain ⟨hu, hf⟩ := evDeliver_spec (s := { s with evs := s.sensed }) (t := t) h.sensed
  dsimp only at hu hf ⊢
  generalize State.evDeliver { s with evs := s.sensed } t k = u at hu hf ⊢
  have hlen := recordBytes_length s t k e
  rw [recordBytes_evs] at hu
  generalize s.recordBytes t k e = l at hu hlen ⊢
  have hmem : u.smem = dmaPut s.smem (s.ringAddr t.val (s.get (R.NET.HEAD.INDEX t.val))) l := by
    rw [hu]
    rfl
  generalize s.ringAddr t.val (s.get (R.NET.HEAD.INDEX t.val)) = a at hmem ⊢
  refine ⟨?_, fun hm => ?_, fun b hb => ?_, hf⟩
  · rw [hu]
  · rw [hmem, ← hlen, memBytes_dmaPut _ _ _ (by rw [hlen]; exact hm)]
  · rw [hmem, memGet_dmaPut_ne _ _ _ _ (by rw [hlen]; exact hb)]

theorem exec_delivery_full {s : State} {t : Fin 10} {k : Nat} {e : EvSrc} (hh : s.bit R.EVC.HOLD.TGT t.val = false) (hr : s.ringOn t.val = true)
    (h : FirstOf s t k e) (hfull : s.ringFull t.val = true) :
    Does (.eventDelivery t) s fun u => u = { s with regs := u.regs, evs := s.sensed } ∧ FieldsSet s u [(R.EVC.FLAG.RFULL, 1)] := by
  have hx : exec (.eventDelivery t) s = s.whilePowered (s.evDeliverFirst t) := rfl
  refine does_of_whilePowered hx fun _ => ?_
  rw [evDeliverFirst_first hh hr h, if_pos hfull]
  exact ⟨rfl, ((FieldsSet.refl s).of_regs rfl).put R.EVC.FLAG.RFULL 1 rfl⟩

/-- A claim for target `t` in the words of R288. -/
structure Claims (c : Instr) (s : State) (r : Req) (t : Fin 10) (e : EvSrc) : Prop where
  shut : s.shut r = true → Does c s fun u => u = { s with resp := some 0 }
  empty : ¬ s.shut r = true → s.ringEmpty t.val = true → Does c s fun u => u = { s with resp := u.resp } ∧ Answered s u r 0x3FF
  asserted : ¬ s.shut r = true → s.ringEmpty t.val = false → tblFind s.evs (s.atTail t) = some e → s.isOn (s.atTail t) = true → Does c s fun u =>
    u = { s with
      regs := u.regs
      evs := tblPut s.evs (s.atTail t) { e with ph := .claimed, redo := false, task := s.reqTask r, target := some t.val }
      preq := u.preq
      resp := u.resp } ∧
      FieldsSet s u [(R.NET.TAIL.INDEX t.val, (s.get (R.NET.TAIL.INDEX t.val) + 1) % s.ringN t.val)] ∧
      Answered s u r (s.ringWord t.val 0 % 1024) ∧ ClrecSet s u r fun i => BitVec.ofNat 32 (s.ringWord t.val i)
  withdrawn : ¬ s.shut r = true → s.ringEmpty t.val = false → tblFind s.evs (s.atTail t) = none ∨ s.isOn (s.atTail t) = false → Does c s fun u =>
    u = { s with regs := u.regs, evs := u.evs, preq := u.preq, resp := u.resp } ∧ tblFind u.evs (s.atTail t) = none ∧
      (∀ x, x ≠ s.atTail t → tblFind u.evs x = tblFind s.evs x) ∧
      FieldsSet s u [(R.NET.TAIL.INDEX t.val, (s.get (R.NET.TAIL.INDEX t.val) + 1) % s.ringN t.val), (R.EVC.FLAG.SPUR, 1),
        (R.EVC.SPURCNT.COUNT, min (s.get R.EVC.SPURCNT.COUNT + 1) (2 ^ R.EVC.SPURCNT.COUNT.w - 1))] ∧
      Answered s u r 0x3FF ∧ ClrecSet s u r fun _ => 0

theorem claims_of_claimFor {c : Instr} {s : State} {r : Req} {t : Fin 10}
    (hx : exec c s = s.whilePowered (if s.shut r then { s with resp := some 0 } else s.claimFor r t)) (e : EvSrc) : Claims c s r t e where
  shut := fun h => does_of_whilePowered hx fun _ => by rw [if_pos h]
  empty := fun h he => does_of_whilePowered hx fun _ => by rw [if_neg h]; exact claimFor_empty he r
  asserted := fun h he hf hon => does_of_whilePowered hx fun _ => by rw [if_neg h]; exact claimFor_asserted he hf hon r
  withdrawn := fun h he hw => does_of_whilePowered hx fun _ => by rw [if_neg h]; exact claimFor_withdrawn he hw r

/-- A completion of number `n` for target `t` in the words of R289. -/
structure Completes (c : Instr) (s : State) (t n : Nat) (e : EvSrc) : Prop where
  latched : tblFind s.evs (evKey t n) = some e → e.ph = .claimed → e.target = some t → n < 256 → evLatched (evKey t n) = true →
    Does c s fun u => u = { s with regs := u.regs, evs := u.evs } ∧ tblFind u.evs (evKey t n) = none ∧
      (∀ x, x ≠ evKey t n → tblFind u.evs x = tblFind s.evs x) ∧
      FieldsSet s u [((evLatch (evKey t n)).1,
        s.get (evLatch (evKey t n)).1 - 2 ^ (evLatch (evKey t n)).2 * b2n (s.bit (evLatch (evKey t n)).1 (evLatch (evKey t n)).2))]
  unlatched : tblFind s.evs (evKey t n) = some e → e.ph = .claimed → e.target = some t → n < 256 → evLatched (evKey t n) = false →
    Does c s fun u => u = { s with evs := u.evs } ∧
      tblFind u.evs (evKey t n) = (if s.isOn (evKey t n) then
        some ⟨.pending, BitVec.ofNat 64 s.nowNs, BitVec.ofNat 32 s.frameShown, false, none, none⟩ else none) ∧
      ∀ x, x ≠ evKey t n → tblFind u.evs x = tblFind s.evs x
  ignored : tblFind s.evs (evKey t n) = none ∨ (tblFind s.evs (evKey t n) = some e ∧ (e.ph ≠ .claimed ∨ e.target ≠ some t)) ∨ 256 ≤ n → Ignored c s

theorem completes_of_evComplete {c : Instr} {s : State} {t n : Nat} (hx : exec c s = s.whilePowered (s.evComplete t n)) (e : EvSrc) : Completes c s t n e where
  latched := fun hf hp ht hn hl => does_of_whilePowered hx fun _ => by
    rw [evComplete_claimed hf hp ht hn]
    exact complete_latched hl
  unlatched := fun hf hp ht hn hl => does_of_whilePowered hx fun _ => by
    rw [evComplete_claimed hf hp ht hn, complete_unlatched hl]
    exact evFinish_spec s _
  ignored := fun h => by
    rw [Ignored, hx, evComplete_ignored (h.imp_right (Or.imp_left fun ⟨hf, h⟩ => ⟨e, hf, h⟩))]
    exact whilePowered_self s

/-- A write of target `t`'s own enables. -/
theorem enables_of_setPen {c : Instr} {s : State} {r : Req} {t : Fin 10} {v v' : Nat} (hv : v = v')
    (hx : exec c s = s.whilePowered (if !s.steward r || !s.enablesOpen then s else s.setPen t.val v)) :
    (¬ (s.steward r = true ∧ (s.mstate = .init ∨ s.mstate = .run ∨ s.mstate = .safe)) → Ignored c s) ∧
      (s.steward r = true ∧ (s.mstate = .init ∨ s.mstate = .run ∨ s.mstate = .safe) → Does c s fun u =>
        u = { s with regs := u.regs, evs := u.evs } ∧ FieldsSet s u [(R.EVC.PEN.EN t.val, v')] ∧
          (∀ n, n < 16 → EvPolled s u (16 * t.val + n)) ∧ ∀ x, x / 16 ≠ t.val → tblFind u.evs x = tblFind s.evs x) := by
  have hopen : (!s.steward r || !s.enablesOpen) = true ↔ ¬ (s.steward r = true ∧ (s.mstate = .init ∨ s.mstate = .run ∨ s.mstate = .safe)) := by
    rw [State.enablesOpen]
    simp [and_assoc, imp_iff_not_or]
  subst hv
  constructor
  · intro h
    rw [Ignored, hx, if_pos (hopen.2 h)]
    exact whilePowered_self s
  · intro h
    refine does_of_whilePowered hx fun _ => ?_
    rw [if_neg fun k => hopen.1 k h]
    exact setPen_spec s t v

theorem exec_cpendWrite {s : State} {r : Req} (h : ¬ s.shut r = true) (j : Fin 8) (v : W32) :
    Does (.cpendWrite r j v) s fun u =>
      u = { s with regs := u.regs, evs := s.evs.filter fun p => p.2.ph != .pending || u.isOn p.1 } ∧
        RegsKept s u [(R.EVC.PLAT.LAT (reqTarget r).val).off, R.EVC.SLAT.EXC.off, (R.EVC.SWLAT.LAT (j.val - 2)).off] ∧
        (∀ b, b < 32 → evLatched (winKey (reqTarget r).val j.val b) = true → u.evLevel (winKey (reqTarget r).val j.val b) = v.getLsbD b) ∧
        ∀ x, evLatched x = true → ¬ (∃ b, b < 32 ∧ x = winKey (reqTarget r).val j.val b) → u.evLevel x = s.evLevel x := by
  have hx : exec (.cpendWrite r j v) s = s.whilePowered (if s.shut r then s else s.writeCpend r j.val v) := rfl
  refine does_of_whilePowered hx fun _ => ?_
  rw [if_neg h, writeCpend_eq]
  obtain ⟨hu, hregs, hin, hout⟩ := cpendBits_spec s (reqTarget r) j v 32 le_rfl
  generalize (List.range 32).foldl (fun t b => t.cpendBit (reqTarget r).val j.val v b) s = w at hu hregs hin hout ⊢
  have hlevel (k : Nat) : w.evSense.evLevel k = w.evLevel k := evLevel_congr (show w.evSense.regs = w.regs from rfl) k
  have hison (k : Nat) : w.evSense.isOn k = w.isOn k := by rw [State.isOn, hlevel, evEnabled_congr (show w.evSense.regs = w.regs from rfl), State.isOn]
  refine ⟨?_, hregs, fun b hb hl => (hlevel _).trans (hin b hb hl), fun x hl hx => (hlevel x).trans (hout x hl fun b hb he => hx ⟨b, hb, he⟩)⟩
  have hevs : w.evs = s.evs := by rw [hu]
  simp only [hison]
  rw [← hevs]
  exact congrArg (fun x : State => { x with evs := w.evSense.evs }) hu

theorem exec_cmaskWrite {s : State} {r : Req} (h : ¬ s.shut r = true) (j : Fin 8) (v : W32) : Does (.cmaskWrite r j v) s fun u => CmaskBits s u r j v 32 := by
  have hx : exec (.cmaskWrite r j v) s = s.whilePowered (if s.shut r then s else s.writeCmask r j.val v) := rfl
  refine does_of_whilePowered hx fun _ => ?_
  rw [if_neg h, writeCmask_eq]
  exact cmaskBits_spec s r j v 32 le_rfl

theorem does_imp {c : Instr} {s : State} {p q : State → Prop} (h : Does c s p) (hpq : ∀ u, p u → q u) : Does c s q := fun hp => by
  obtain ⟨u, hu, hpu⟩ := h hp
  exact ⟨u, hu, hpq u hpu⟩

end Sys2Proof.Machine
end

section
/-! PROOF. The event controller's obligation. -/

namespace Sys2Proof.Machine

/-- Commands that a shut requester does not reach. -/
theorem ignored_shut {c : Instr} {s t : State} {r : Req} (hx : exec c s = s.whilePowered (if s.shut r then s else t)) (h : s.shut r = true) : Ignored c s := by
  rw [Ignored, hx, if_pos h]
  exact whilePowered_self s

theorem sets_of_open {c : Instr} {s : State} {r : Req} {f : Fld} {n : Nat} (hx : exec c s = s.whilePowered (if s.shut r then s else s.set f n))
    (h : ¬ s.shut r = true) (hf : besides f [] = true) : Sets c s [(f, n)] := by
  refine does_of_whilePowered hx fun _ => ?_
  rw [if_neg h]
  exact (OnlyFields.refl s).put f n hf

theorem exec_eventComplete_open {s : State} {r : Req} {t : Fin 10} (h : ¬ s.shut r = true) (ht : isEng r = false ∨ (reqTarget r).val = t.val) (code : BitVec 10) :
    exec (.eventComplete r t code) s = s.whilePowered (s.evComplete t.val code.toNat) := by
  have hx : exec (.eventComplete r t code) s =
    s.whilePowered (if (isEng r && (reqTarget r).val != t.val) || s.shut r then s else s.evComplete t.val code.toNat) := rfl
  rw [hx, if_neg]
  rcases ht with ht | ht <;> simp [ht, h]

theorem exec_eventComplete_ignored {s : State} {r : Req} {t : Fin 10} (h : s.shut r = true ∨ (isEng r = true ∧ (reqTarget r).val ≠ t.val)) (code : BitVec 10) :
    Ignored (.eventComplete r t code) s := by
  have hx : exec (.eventComplete r t code) s =
    s.whilePowered (if (isEng r && (reqTarget r).val != t.val) || s.shut r then s else s.evComplete t.val code.toNat) := rfl
  rw [Ignored, hx, if_pos]
  · exact whilePowered_self s
  · rcases h with h | ⟨he, hne⟩
    · simp [h]
    · simp [he, hne]

/-- Settles O54: levels, delivery, claims, completions, HOLD, latches, enables and the compatibility window, each by what its operation does. -/
theorem eventSourcesFollowTheirRules : Obligations.EventSourcesFollowTheirRules := by
  unfold Obligations.EventSourcesFollowTheirRules
  intro s r t num e code ten byte pen v sw j at_ k line own shut regsEvs others fresh on sensed head claimed answers clrec takes claims completes mask enables inWindow
  have hs : shut ↔ s.shut r = true := shut_iff.symm
  have claims_of {c : Instr} (h : Claims c s r t e) : claims c :=
    ⟨fun k => h.shut (hs.1 k), fun k => h.empty fun k' => k (hs.2 k'), fun k => h.asserted fun k' => k (hs.2 k'), fun k => h.withdrawn fun k' => k (hs.2 k')⟩
  have completes_of {c : Instr} {n : Nat} (h : Completes c s t.val n e) : completes c n :=
    ⟨fun hf hp ht hn => ⟨h.latched hf hp ht hn, h.unlatched hf hp ht hn⟩, h.ignored⟩
  have hopen (h : ¬ shut) : ¬ s.shut r = true := fun k => h (hs.2 k)
  refine ⟨?_, ?_, ?_, ?_, ?_, ?_, ?_, ?_, ?_, ?_, ?_, ?_, ?_, ?_, ?_, ?_, ?_, ?_, ?_, ?_⟩
  · exact exec_assert s t num
  · exact exec_withdraw s t num
  · intro h
    have hx : exec (.eventDelivery t) s = s.whilePowered (s.evDeliverFirst t) := rfl
    exact does_of_whilePowered hx fun _ => evDeliverFirst_idle h
  · intro k hh hr hf hp hon ht hfirst
    have hk : FirstOf s t k e := ⟨hf, hp, hon, ht, hfirst⟩
    exact ⟨exec_delivery_full hh hr hk, exec_delivery hh hr hk⟩
  · exact claims_of (claims_of_claimFor rfl e)
  · intro ho
    have ht : reqTarget r = t := Fin.ext ho
    exact claims_of (claims_of_claimFor (ht ▸ rfl) e)
  · exact fun h => exec_eventComplete_ignored (h.imp_left hs.1) code
  · exact fun h => ignored_shut rfl (hs.1 h)
  · exact fun h ht => completes_of (completes_of_evComplete (exec_eventComplete_open (hopen h) ht code) e)
  · intro h ht
    have hx : exec (.cackWrite r v) s = s.whilePowered (if s.shut r then s else s.evComplete (reqTarget r).val (v.toNat % 1024)) := rfl
    rw [if_neg (hopen h)] at hx
    have hx' : exec (.cackWrite r v) s = s.whilePowered (s.evComplete t.val (v.toNat % 1024)) := ht ▸ hx
    exact completes_of (completes_of_evComplete hx' e)
  · exact fun h => ⟨ignored_shut rfl (hs.1 h), ignored_shut rfl (hs.1 h)⟩
  · exact fun h => sets_of_open rfl (hopen h) rfl
  · intro h hwf
    have hx : exec (.holdclr r ten) s = s.whilePowered (if s.shut r then s else s.holdClr r ten.toNat) := rfl
    refine does_of_whilePowered hx fun _ => ?_
    rw [if_neg (hopen h)]
    exact holdClr_spec hwf r ten
  · exact fun h => ⟨ignored_shut rfl (hs.1 h), ignored_shut rfl (hs.1 h), ignored_shut rfl (hs.1 h), ignored_shut rfl (hs.1 h)⟩
  · exact fun h => sets_of_open rfl (hopen h) rfl
  · exact fun h => sets_of_open rfl (hopen h) rfl
  · exact enables_of_setPen rfl rfl
  · exact enables_of_setPen (and_not_mask 16 (get_lt s (R.EVC.PEN.EN t.val)) pen.isLt) rfl
  · exact fun h => exec_cpendWrite (hopen h) j v
  · exact fun h => does_imp (exec_cmaskWrite (hopen h) j v) fun u hu => by
      refine ⟨hu.eq, fun x hx => hu.other x fun b hb he => hx ⟨b, hb, he⟩, hu.regs, fun b hb => ⟨fun hn => hu.priv b hb hn, fun hn hr => hu.shared b hb hn hr,
        fun hn he ht => hu.away b hb hn fun hr => ?_⟩⟩
      rcases hr with hr | hr
      · rw [he] at hr
        cases hr
      · exact ht hr

end Sys2Proof.Machine
end

section
/-! PROOF. The queue (R23, R99, R354): every operation leaves the commands that wait as they are, and every command answers a next state. -/

namespace Sys2Proof.Machine

/-- The commands of `q` wait. -/
structure Waits (q : List Instr) (s : State) : Prop where
  pending : s.pending = q

/-- The command answers a next state, and the commands of `q` wait in it. -/
structure Finishes (q : List Instr) (o : Host.Outcome State Fault Refusal) : Prop where
  answers : ∃ t, o = .next t ∧ t.pending = q

variable {s t : State} {q : List Instr}

/-- A change of anything but the queue. -/
theorem Waits.rest {regs preq latch held resp free clk solNs secAcc gong seqr chA chB chC vote bank0 bank1 act forces fcmds evs
    fum fumPos smem pair sio spd evSeq net tim brg out ret xch nv boot upd bist session sup} (h : Waits q s) :
    Waits q ⟨s.pending, regs, preq, latch, held, resp, free, clk, solNs, secAcc, gong, seqr, chA, chB, chC, vote, bank0, bank1, act,
      forces, fcmds, evs, fum, fumPos, smem, pair, sio, spd, evSeq, net, tim, brg, out, ret, xch, nv, boot, upd, bist, session, sup⟩ :=
  ⟨h.pending⟩

/-- What the rules of a frame are quiet about keeps the queue. -/
theorem Waits.quiet (h : Waits q s) (k : Quiet s t) : Waits q t := ⟨k.1.trans h.pending⟩

theorem Waits.ite {c : Prop} [Decidable c] {a b : State} (ha : Waits q a) (hb : Waits q b) : Waits q (if c then a else b) := by
  split
  exacts [ha, hb]

/-- A branch that goes on from the other one, `b`. -/
theorem Waits.also {c : Prop} [Decidable c] {a b : State} (hb : Waits q b) (ha : Waits q b → Waits q a) : Waits q (if c then a else b) := .ite (ha hb) hb

/-- As `also`, from the first branch. -/
theorem Waits.unless {c : Prop} [Decidable c] {a b : State} (ha : Waits q a) (hb : Waits q a → Waits q b) : Waits q (if c then a else b) := .ite ha (hb ha)

/-- The state of a pair that was taken apart. -/
theorem Waits.of_pair {α : Type} {p : α × State} {a : α} {t : State} (h : Waits q p.2) (e : p = (a, t)) : Waits q t := by
  subst e
  exact h

theorem Waits.foldl {α : Type} {f : State → α → State} (l : List α) (h : Waits q s) (hf : ∀ t a, Waits q t → Waits q (f t a)) : Waits q (l.foldl f s) := by
  induction l generalizing s with
  | nil => exact h
  | cons a l ih => exact ih (hf s a h)

theorem Waits.forN (n : Nat) {f : State → Nat → State} (h : Waits q s) (hf : ∀ t i, Waits q t → Waits q (f t i)) : Waits q (forN n s f) := .foldl _ h hf

theorem Finishes.next (h : Waits q t) : Finishes q (.next t) := ⟨t, rfl, h.pending⟩

theorem Finishes.ite {c : Prop} [Decidable c] {a b : Host.Outcome State Fault Refusal} (ha : Finishes q a) (hb : Finishes q b) :
    Finishes q (if c then a else b) := by
  split
  exacts [ha, hb]

theorem Finishes.whilePowered (h : Waits q s) (ht : Waits q t) : Finishes q (s.whilePowered t) := .next (.ite ht h)

/-! ### Registers -/

theorem Waits.setReg (h : Waits q s) (o : Nat) (v : W32) : Waits q (s.setReg o v) := h.rest

/-! ### Named operations -/

theorem Waits.set (h : Waits q s) (f : Fld) (n : Nat) : Waits q (s.set f n) := h.setReg ..

theorem Waits.flag (h : Waits q s) (f : Fld) : Waits q (s.flag f) := h.set ..

theorem Waits.inc (h : Waits q s) (f : Fld) : Waits q (s.inc f) := h.set ..

theorem Waits.incSat (h : Waits q s) (f : Fld) (n : Nat) : Waits q (s.incSat f n) := h.set ..

theorem Waits.setPair (h : Waits q s) (lo hi : Fld) (n : Nat) : Waits q (s.setPair lo hi n) :=
  (h.set ..).set ..

theorem Waits.orBits (h : Waits q s) (f : Fld) (m : Nat) : Waits q (s.orBits f m) := h.set ..

theorem Waits.preqSet (h : Waits q s) (r : Req) (off : Nat) (v : W32) : Waits q (s.preqSet r off v) :=
  h.rest

theorem Waits.fresh (h : Waits q s) (w : Nat) : Waits q (s.fresh w).2 := h.rest

theorem Waits.setCh (h : Waits q s) (ch : Ch) (v : Chan) : Waits q (s.setCh ch v) := h.quiet (.setCh (.refl s) ..)

theorem Waits.setChRec (h : Waits q s) (ch : Ch) (v : ChRec) : Waits q (s.setChRec ch v) := h.quiet (.setChRec (.refl s) ..)

theorem Waits.eachCh (h : Waits q s) (p : Ch → Bool) (f : Ch → Chan → Chan) : Waits q (s.eachCh p f) := h.quiet (.eachCh (.refl s) ..)

theorem Waits.mapCh (h : Waits q s) (p : Ch → Bool) (f : Chan → Chan) : Waits q (s.mapCh p f) := h.quiet (.mapCh (.refl s) ..)

theorem Waits.fumPut (h : Waits q s) (body : List Byte) : Waits q (s.fumPut body) := (h.inc ..).rest

theorem Waits.fumarole (h : Waits q s) (type src code : Nat) (data : List Byte) : Waits q (s.fumarole type src code data) := h.quiet (.fumarole (.refl s) ..)

theorem Waits.fumCont (h : Waits q s) (src idx : Nat) (data : List Byte) : Waits q (s.fumCont src idx data) :=
  h.fumPut ..

/-! ### Command registers -/

theorem Waits.command (h : Waits q s) (r : Req) (cmd cnt reason : Fld) (v why : Nat) {act : State → State}
    (hact : ∀ t, Waits q t → Waits q (act t)) : Waits q (s.command r cmd cnt reason v why act) :=
  .ite h (.ite (hact _ (((h.set ..).set ..).inc ..)) (h.set ..))

theorem Waits.commandNoReason (h : Waits q s) (r : Req) (cmd cnt : Fld) (v : Nat) (ok : Bool) {act : State → State}
    (hact : ∀ t, Waits q t → Waits q (act t)) : Waits q (s.commandNoReason r cmd cnt v ok act) :=
  .ite h (.ite (hact _ ((h.set ..).inc ..)) h)

/-! ### Engine copies -/

theorem Waits.distribute (h : Waits q s) (v : Word) : Waits q (s.distribute v) := h.quiet (.distribute (.refl s) ..)

theorem Waits.resetDreg (h : Waits q s) (x : Ch) : Waits q (s.resetDreg x) := by
  unfold State.resetDreg
  split
  exacts [h, h.rest, h.rest]

theorem Waits.onEngine (h : Waits q s) (e : Eng) (f : Ch → Chan → Chan × List Close) : Waits q (s.onEngine e f) :=
  h.rest.rest

theorem Waits.osrus (h : Waits q s) (e : Eng) (legal : Bool) (n cyc : Nat) (op : Op) (shared : Word) :
    Waits q (s.osrus e legal n cyc op shared) :=
  h.onEngine ..

/-! ### Versions and images -/

theorem Waits.input (h : Waits q s) (id : Nat) (val : List Byte) (src : Src) : Waits q (s.input id val src) := h.quiet (.input (.refl s) ..)

theorem Waits.freshCheck (h : Waits q s) (id : Nat) : Waits q (s.freshCheck id) := h.quiet (.freshCheck (.refl s) ..)

/-! ### Signals -/

theorem Waits.setForces (h : Waits q s) (t : List ForceEnt) : Waits q (s.setForces t) := h.quiet (.setForces (.refl s) ..)

theorem Waits.dropForces (h : Waits q s) (ids : List Nat) : Waits q (s.dropForces ids) := h.quiet (.dropForces (.refl s) ..)

theorem Waits.force (h : Waits q s) (r : Req) (code why : Nat) (c : ForceCmd) : Waits q (s.force r code why c) :=
  .command h _ _ _ _ _ _ (fun _ h1 => h1.rest)

theorem execForceSet_waits (h : Waits q s) (r : Req) : Finishes q (execForceSet r s) :=
  .whilePowered h (h.force ..)

theorem execForceClear_waits (h : Waits q s) (r : Req) : Finishes q (execForceClear r s) :=
  .whilePowered h (h.force ..)

theorem execForceClearall_waits (h : Waits q s) (r : Req) : Finishes q (execForceClearall r s) :=
  .whilePowered h (h.force ..)

theorem Waits.countHome5 (h : Waits q s) (n : Nat) : Waits q (s.countHome5 n) := h.rest

theorem execStewardSignalWrite_waits (h : Waits q s) (id : Nat) (value : List Byte) : Finishes q (execStewardSignalWrite id
    value s) :=
  .whilePowered h (by split; exacts [.ite ((h.countHome5 ..).input ..) h, h])

/-! ### Safety inputs and outputs -/

theorem Waits.setInp (h : Waits q s) (i : Fin 16) (v : InSt) : Waits q (s.setInp i v) := h.rest

theorem Waits.setOutp (h : Waits q s) (o : Fin 8) (v : OutSt) : Waits q (s.setOutp o v) := h.rest

theorem Waits.setBit (h : Waits q s) (f : Fld) (n : Nat) (b : Bool) : Waits q (s.setBit f n b) :=
  h.set ..

theorem Waits.ioRecord (h : Waits q s) (kind code n : Nat) : Waits q (s.ioRecord kind code n) :=
  h.fumarole ..

theorem Waits.showFaults (h : Waits q s) (i : Fin 16) : Waits q (s.showFaults i) :=
  (h.set ..).setBit ..

theorem execInputFaultDetected_waits (h : Waits q s) (i : Fin 16) (code : Fin 5) (xtp : Fin 8) : Finishes q
    (execInputFaultDetected i code xtp s) :=
  .whilePowered h (.ite h (.ioRecord (.also (.also ((((h.setInp ..).showFaults ..).incSat ..).flag ..) (·.set ..)) fun h1 => (h1.setBit
   ..).flag ..) ..))

theorem Waits.sioTick (h : Waits q s) : Waits q s.sioTick := h.quiet (.sioTick (.refl s))

theorem Waits.setAct (h : Waits q s) (o : Fin 8) (b : Bool) : Waits q (s.setAct o b) := h.setBit ..

theorem Waits.setOutFaults (h : Waits q s) (o : Fin 8) (l : List Nat) : Waits q (s.setOutFaults o l) :=
  (h.setOutp ..).set ..

theorem Waits.outFault (h : Waits q s) (o : Fin 8) (code : Nat) : Waits q (s.outFault o code) :=
  ((h.setOutFaults ..).flag ..).ioRecord ..

theorem Waits.faultGone (h : Waits q s) (o : Fin 8) (codes : List Nat) : Waits q (s.faultGone o codes) :=
  h.setOutFaults ..

theorem Waits.latchOut (h : Waits q s) (o : Fin 8) (code : Nat) : Waits q (s.latchOut o code) :=
  (((h.setBit ..).set ..).setAct ..).outFault ..

theorem Waits.judgePulse (h : Waits q s) (o : Fin 8) (opened : Bool) : Waits q (s.judgePulse o opened) := by
  unfold State.judgePulse
  dsimp only
  split
  exacts [h, .ite (((h.setOutp ..).setBit ..).inc ..) (((h.setOutp ..).setBit ..).latchOut ..)]

theorem Waits.execDemand (h : Waits q s) (o : Fin 8) (d : Bool) : Waits q (s.execDemand o d) := by
  refine .ite (.also (h.setOutp ..) (·.setAct ..)) (.setAct (.setBit (.setOutp (.also (h.setOutp ..) fun h1 => ?_) ..) ..) ..)
  split
  next e2 =>
  exact ((h1.fresh ..).of_pair e2).judgePulse ..

theorem Waits.outputsOff (h : Waits q s) : Waits q s.outputsOff :=
  .forN _ h fun _ _ h1 => h1.execDemand ..

theorem execOutputTestPulseStart_waits (h : Waits q s) (o : Fin 8) : Finishes q (execOutputTestPulseStart o s) :=
  .whilePowered h (.ite (h.setOutp ..) (.ite (.setOutp (.ite (h.flag ..) h) ..) (.setBit (.setOutp (.ite (h.flag ..) h) ..) ..)))

theorem execOutputFaultDetected_waits (h : Waits q s) (o code : Fin 8) : Finishes q (execOutputFaultDetected o code s) := by
  refine .whilePowered h (.ite h ?_)
  split
  · exact h.latchOut ..
  · exact h.latchOut ..
  · exact h.latchOut ..
  · exact h.latchOut ..
  · exact .outFault (.also (((h.setOutp ..).setAct ..).set ..) fun h1 => (h1.setBit ..).set ..) ..
  · exact h.outFault ..
  · exact h.set ..
  · exact h

theorem execOutputFaultCleared_waits (h : Waits q s) (o code : Fin 8) : Finishes q (execOutputFaultCleared o code s) :=
  .whilePowered h (by split; exacts [h.faultGone .., h.set .., h])

theorem Waits.unlatch (h : Waits q s) (o : Fin 8) : Waits q (s.unlatch o) :=
  (((((h.setBit ..).set ..).set ..).setOutp ..).faultGone ..).setAct ..

theorem execClrflt_waits (h : Waits q s) (r : Req) (mask : Byte) : Finishes q (execClrflt r mask s) :=
  .whilePowered h (.command h _ _ _ _ _ _ (fun _ h1 => .forN _ h1 fun _ _ h2 => .ite (h2.unlatch ..) h2))

/-! ### Speed -/

theorem Waits.showSen (h : Waits q s) (n : Fin 2) (v : SenSt) : Waits q (s.showSen n v) := h.quiet (.showSen (.refl s) ..)

theorem Waits.spdUnknown (h : Waits q s) (cause : Nat) : Waits q (s.spdUnknown cause) :=
  (((h.set ..).set ..).set ..).flag ..

theorem Waits.senLost (h : Waits q s) (n : Fin 2) : Waits q (s.senLost n) :=
  .unless (h.set ..) fun h1 => .ite (h1.spdUnknown ..) (.ite ((h1.set ..).flag ..) (h1.spdUnknown ..))

theorem Waits.spdTick (h : Waits q s) : Waits q s.spdTick := h.quiet (.spdTick (.refl s))

/-! ### Rings and the event controller -/

theorem Waits.ringPut (h : Waits q s) (r : Nat) (words : List Nat) : Waits q (s.ringPut r words) :=
  (h.rest).set ..

theorem Waits.ringTake (h : Waits q s) (r : Nat) : Waits q (s.ringTake r) := h.set ..

theorem Waits.putBit (h : Waits q s) (f : Fld) (n : Nat) (b : Bool) : Waits q (s.putBit f n b) :=
  h.set ..

theorem Waits.evSetPrivate (h : Waits q s) (t n : Nat) : Waits q (s.evSetPrivate t n) := h.quiet (.evSetPrivate (.refl s) ..)

theorem Waits.evPoll (h : Waits q s) (k : Nat) (redo : Bool) : Waits q (s.evPoll k redo) := h.quiet (.evPoll (.refl s) ..)

theorem Waits.evSense (h : Waits q s) : Waits q s.evSense := h.rest

theorem Waits.evPollAll (h : Waits q s) (ks : List Nat) : Waits q (s.evPollAll ks) :=
  .foldl _ h fun _ _ h1 => h1.evPoll ..

theorem Waits.evFinish (h : Waits q s) (k : Nat) (redo : Bool) : Waits q (s.evFinish k redo) := h.quiet (.evFinish (.refl s) ..)

theorem Waits.evDeliver (h : Waits q s) (t : Fin 10) (k : Nat) : Waits q (s.evDeliver t k) := by
  unfold State.evDeliver
  split
  · exact h
  · have hr := h.ringPut
    exact .inc (hr ..).rest ..

theorem Waits.evDeliverFirst (h : Waits q s) (t : Fin 10) : Waits q (s.evDeliverFirst t) :=
  .ite h.evSense (by split; exacts [h.evSense, .ite (h.evSense.flag ..) (h.evSense.evDeliver ..)])

theorem Waits.evDeliverAll (h : Waits q s) (t : Fin 10) (n : Nat) : Waits q (s.evDeliverAll t n) := by
  induction n generalizing s with
  | zero => exact h
  | succ n ih => exact ih (h.evDeliverFirst t)

theorem Waits.setClrec (h : Waits q s) (r : Req) (ws : List Nat) : Waits q (s.setClrec r ws) :=
  .foldl _ h fun _ _ h1 => h1.preqSet ..

theorem Waits.evClaim (h : Waits q s) (r : Req) (t : Nat) (task : Option Nat) : Waits q (s.evClaim r t task).2 := by
  have hr := h.ringTake t
  unfold State.evClaim
  dsimp only
  split
  · exact h
  · split
    · split
      · exact (hr.rest).setClrec ..
      · exact (((hr.rest).flag ..).incSat ..).setClrec ..
    · exact ((hr.flag ..).incSat ..).setClrec ..

theorem Waits.evComplete (h : Waits q s) (t n : Nat) : Waits q (s.evComplete t n) := by
  unfold State.evComplete
  dsimp only
  split
  exacts [.ite (.evFinish (.ite (h.putBit ..) h) ..) h, h]

theorem Waits.evReturn (h : Waits q s) (tasks : List Nat) : Waits q (s.evReturn tasks) := h.quiet (.evReturn (.refl s) ..)

theorem Waits.setPen (h : Waits q s) (t v : Nat) : Waits q (s.setPen t v) := (h.set ..).evPollAll ..

theorem Waits.writeCpend (h : Waits q s) (r : Req) (j : Nat) (v : W32) : Waits q (s.writeCpend r j v) :=
  .evSense (.foldl _ h fun _ _ h1 => .ite (h1.putBit ..) h1)

theorem Waits.writeCmask (h : Waits q s) (r : Req) (j : Nat) (v : W32) : Waits q (s.writeCmask r j v) :=
  .foldl _ h fun _ _ h1 => .ite ((h1.putBit ..).evPoll ..) (.ite h1 ((h1.set ..).evPoll ..))

theorem Waits.holdSet (h : Waits q s) (r : Req) (mask : Nat) : Waits q (s.holdSet r mask) := h.set ..

theorem Waits.holdClr (h : Waits q s) (r : Req) (mask : Nat) : Waits q (s.holdClr r mask) :=
  .foldl _ (h.set ..) fun _ _ h1 => .ite (h1.evDeliverAll ..) h1

theorem Waits.claimFor (h : Waits q s) (r : Req) (t : Fin 10) : Waits q (s.claimFor r t) := by
  unfold State.claimFor
  split
  next e1 =>
  exact ((h.evClaim ..).of_pair e1).rest

/-! ### Shared ranges -/

theorem Waits.latchReg (h : Waits q s) (r : Req) (off : Nat) : Waits q (s.latchReg r off) := h.rest

theorem Waits.readExpchal (h : Waits q s) (r : Req) : Waits q (s.readExpchal r).2 := ((h.fresh 32).preqSet ..).preqSet ..

theorem Waits.readOchal (h : Waits q s) (r : Req) : Waits q (s.readOchal r).2 :=
  ((((h.fresh 32).preqSet ..).preqSet ..).preqSet ..).latchReg ..

theorem Waits.readNow (h : Waits q s) (r : Req) : Waits q (s.readNow r).2 := ((h.latchReg ..).latchReg ..).latchReg ..

theorem Waits.readWord (h : Waits q s) (r : Req) (task : Option Nat) (off : Nat) : Waits q (s.readWord r task off).2 := by
  unfold State.readWord
  split_ifs
  · exact h.evClaim ..
  · exact h.evClaim ..
  · exact h
  · exact h
  · exact h.readNow ..
  · exact h.readExpchal ..
  · exact h.readOchal ..
  · exact h.latchReg ..
  · exact h
  · exact h

theorem Waits.busRead (h : Waits q s) (e : Eng) (task : Option Nat) (a size : Nat) : Waits q (s.busRead e task a size).2 := by
  unfold State.busRead
  split
  case h_1 | h_2 =>
    extract_lets off
    clear_value off
    split
    · exact h
    · split
      next s1 e1 =>
      have h1 := (h.readWord ..).of_pair e1
      split
      · exact h1
      · split
        next e2 => exact (h1.readWord ..).of_pair e2
  all_goals exact h

theorem Waits.progWrite (h : Waits q s) (e : Eng) (off : Nat) (v : W32) : Waits q (s.progWrite e off v) :=
  .ite (h.preqSet ..) (.ite (h.preqSet ..) (.ite (h.holdSet ..) (.ite (h.holdClr ..) (.unless (h.evComplete ..) fun h1 => .ite (h.orBits ..)
    (.ite (h.orBits ..) (.ite (h.writeCpend ..) (.ite (h.writeCmask ..) (.ite h1 h))))))))

theorem Waits.pwRecord (h : Waits q s) (cause : Nat) (p : PwEnt) : Waits q (s.pwRecord cause p) :=
  .ite h (.ite ((h.incSat ..).flag ..) (h.rest.ringPut ..))

theorem Waits.postWrite (h : Waits q s) (src a : Nat) (d : Word) (be : Byte) : Waits q (s.postWrite src a d be) :=
  .ite (h.pwRecord ..) (.ite (h.pwRecord ..) h.rest)

theorem Waits.release (h : Waits q s) (e : Eng) (c : CbEntry) : Waits q (s.release e c) := by
  unfold State.release
  split
  · exact .ite h (.unless (h.progWrite ..) fun h1 => .ite (h1.progWrite ..) h)
  · exact .ite h (.unless (h.progWrite ..) fun h1 => .ite (h1.progWrite ..) h)
  · exact h.postWrite ..
  · exact h

/-! ### Loads -/

theorem Waits.stallRead (h : Waits q s) (e : Eng) (ga : GReg) (imm : BitVec 16) (n : Nat) (op : Op) (why : Nat → Stall) : Waits q
    (s.stallRead e ga imm n op why) :=
  h.onEngine ..

theorem Waits.enterSlot (h : Waits q s) (j : Fin 8) (w : DrWait) : Waits q (s.enterSlot j w) := h.rest

theorem Waits.queueRead (h : Waits q s) (w : DrWait) : Waits q (s.queueRead w) := h.rest

theorem Waits.readError (h : Waits q s) : Waits q s.readError := (h.flag ..).incSat ..

theorem Waits.load (h : Waits q s) (e : Eng) (gd ga : GReg) (imm : BitVec 16) (n : Nat) (signed : Bool) :
    Waits q (s.load e gd ga imm n signed) := by
  unfold State.load
  split
  · exact h.osrus ..
  · refine .unless (h.osrus ..) fun h1 => .ite (.ite (h.readError.osrus ..) ?_) (.ite ?_ h1)
    · split
      exacts [(h.queueRead ..).stallRead .., (h.enterSlot ..).stallRead ..]
    · split
      next e2 =>
      exact (((h.busRead ..).of_pair e2).distribute ..).osrus ..

theorem execEvtC_waits (h : Waits q s) (e : Eng) (gd : GReg) (rsv : BitVec 15) : Finishes q (execEvtC e gd rsv s) := by
  refine .next ?_
  split
  · refine .ite ?_ (h.osrus ..)
    split
    next e1 =>
    exact (((h.evClaim ..).of_pair e1).distribute ..).osrus ..
  · exact h.osrus ..

/-! ### The bridge -/

theorem Waits.send (h : Waits q s) (o : Out) : Waits q (s.send o) := h.rest

theorem Waits.postedPop (h : Waits q s) : Waits q s.postedPop := h.rest

theorem Waits.bridgeRan (h : Waits q s) : Waits q s.bridgeRan := h.rest

theorem Waits.cardRan (h : Waits q s) (k : Fin 7) : Waits q (s.cardRan k) := h.rest

theorem execPostedWriteComplete_waits (h : Waits q s) (how : BusEnd) (reqs : BitVec 7) : Finishes q (execPostedWriteComplete
    how reqs s) := by
  refine .whilePowered h (.ite h ?_)
  split
  · exact h
  · split
    · exact h.postedPop.bridgeRan.send ..
    · exact h.postedPop.bridgeRan.pwRecord ..
    · exact h.postedPop.bridgeRan.pwRecord ..
    · exact h.postedPop.bridgeRan.pwRecord ..
    · exact h.bridgeRan

theorem execPostedWriteDiscard_waits (h : Waits q s) : Finishes q (execPostedWriteDiscard s) :=
  .whilePowered h (by split; exacts [h, h.postedPop.pwRecord ..])

theorem Waits.answerTo (h : Waits q s) (req : DrReq) (j : Option Nat) (data : Option Word) : Waits q (s.answerTo req j data) := by
  have h1 (c : Prop) [Decidable c] : Waits q (if c then s.readError else s) := .ite h.readError h
  unfold State.answerTo
  dsimp only
  split
  · exact .onEngine (by split; exacts [(h1 _).distribute .., h1 _]) ..
  · exact (h1 _).rest

theorem Waits.freeDr (h : Waits q s) (j : Fin 8) : Waits q (s.freeDr j) := by
  unfold State.freeDr
  split
  · exact h.rest
  · split
    exacts [h.rest.rest.enterSlot .., (h.rest.rest.enterSlot ..).mapCh ..]

theorem Waits.answerRead (h : Waits q s) (j : Fin 8) (d : DrSlot) (data : Option Word) : Waits q (s.answerRead j d data) :=
  (h.answerTo ..).freeDr ..

theorem Waits.dropRead (h : Waits q s) (j : Fin 8) : Waits q (s.dropRead j) :=
  ((h.flag ..).incSat ..).freeDr ..

theorem Waits.applyInbound (h : Waits q s) (w : InWrite) : Waits q (s.applyInbound w) :=
  .foldl _ (h.rest) fun _ _ h1 => h1.input ..

theorem Waits.flushInbound (h : Waits q s) : Waits q s.flushInbound :=
  .foldl _ h.rest fun _ _ h1 => h1.applyInbound ..

theorem execDelayedReadComplete_waits (h : Waits q s) (slot : Fin 8) (how : BusEnd) (reqs : BitVec 7) :
    Finishes q (execDelayedReadComplete slot how reqs s) := by
  refine .whilePowered h ?_
  split
  · exact h
  · refine .ite h ?_
    generalize s.busEnd _ how = ending
    cases ending with
    | ok x => exact h.flushInbound.bridgeRan.answerRead ..
    | retry => exact h.bridgeRan
    | masterAbort | targetAbort | parity => exact h.bridgeRan.answerRead ..

theorem execDelayedReadDiscard_waits (h : Waits q s) (slot : Fin 8) : Finishes q (execDelayedReadDiscard slot s) :=
  .whilePowered h (by split; exacts [h, .ite (h.dropRead ..) (h.answerRead ..)])

theorem Waits.leaveReads (h : Waits q s) (p : DrReq → Bool) : Waits q (s.leaveReads p) := h.rest

theorem Waits.goneReads (h : Waits q s) : Waits q s.goneReads := h.leaveReads ..

theorem Waits.stewardLoad (h : Waits q s) (st1 : Bool) (a : W32) : Waits q (s.stewardLoad st1 a) := by
  refine .ite (h.leaveReads ..).rest.readError ?_
  split
  exacts [(h.leaveReads ..).rest.queueRead .., (h.leaveReads ..).rest.enterSlot ..]

theorem execCpciInboundWrite_waits (h : Waits q s) (card : Fin 7) (reqs : BitVec 7) (addr : W32) (phases : List InPhase) :
    Finishes q (execCpciInboundWrite card reqs addr phases s) :=
  .whilePowered h (.ite h (.unless (h.cardRan ..) fun h1 => .ite h (.ite (.rest (.ite h1.rest ((h1.rest.flag ..).incSat ..))) (.applyInbound
    (.ite h1.rest ((h1.rest.flag ..).incSat ..)) ..))))

theorem execInboundLock_waits (h : Waits q s) (sender : LockBy) : Finishes q (execInboundLock sender s) :=
  .whilePowered h (by split; exacts [.ite ((h.flag ..).cardRan ..) h, h.rest])

theorem Waits.setBus (h : Waits q s) (m66en : Bool) : Waits q (s.setBus m66en) :=
  ((h.set ..).set ..).set ..

theorem Waits.takeDuties (h : Waits q s) (m66en : Bool) : Waits q (s.takeDuties m66en) :=
  ((h.set ..).setBus ..).rest

theorem Waits.endTransfers (h : Waits q s) : Waits q s.endTransfers := by
  refine .foldl _ (.foldl _ (.foldl _ h.rest fun _ _ h1 => h1.pwRecord ..) fun _ _ h1 => h1.answerTo ..) fun _ _ h1 => ?_
  split
  exacts [h1, .ite (h1.dropRead ..) (h1.answerRead ..)]

theorem Waits.giveUpDuties (h : Waits q s) : Waits q s.giveUpDuties :=
  .ite h ((((h.flushInbound.endTransfers.set ..).set ..).set ..).set ..)

theorem Waits.assignBase (h : Waits q s) (c : CardDef) : Waits q (s.assignBase c) :=
  .foldl _ h fun _ _ h1 => h1.send ..

theorem execCardConfiguration_waits (h : Waits q s) (found : Tbl W32) : Finishes q (execCardConfiguration found s) :=
  .whilePowered h (.ite h (.set (.rest (.unless (.foldl _ h fun _ _ h1 => h1.assignBase ..) (·.flag ..))) ..))

theorem execConfigCycleRead_waits (h : Waits q s) (r : Req) (how : BusEnd) (reqs : BitVec 7) : Finishes q (execConfigCycleRead
    r how reqs s) := by
  refine .whilePowered h (.ite h (.ite h.rest (.ite h.rest ?_)))
  split
  · exact h.bridgeRan.rest
  · exact h.bridgeRan.rest
  · exact h.bridgeRan.rest
  · split
    next e1 =>
    exact ((h.bridgeRan.fresh ..).of_pair e1).rest
  · split
    next e1 =>
    exact ((h.bridgeRan.fresh ..).of_pair e1).rest

theorem execConfigCycleWrite_waits (h : Waits q s) (r : Req) (v : W32) (reqs : BitVec 7) : Finishes q (execConfigCycleWrite r v
    reqs s) :=
  .whilePowered h (.ite h (h.send ..).bridgeRan)

/-! ### Module state, roles and triggers -/

theorem Waits.setSupply (h : Waits q s) (mv10 : Nat) : Waits q (s.setSupply mv10) := (h.set ..).rest

theorem Waits.enterState (h : Waits q s) (m : MState) (old : Nat) : Waits q (s.enterState m old) :=
  (h.set ..).fumarole ..

theorem Waits.toState (h : Waits q s) (m : MState) : Waits q (s.toState m) := h.enterState ..

theorem Waits.dropWork (h : Waits q s) : Waits q s.dropWork := (h.mapCh ..).rest

theorem Waits.leaveRole (h : Waits q s) : Waits q s.leaveRole := (((h.set ..).set ..).set ..).rest

theorem Waits.solfatara (h : Waits q s) (code : Nat) : Waits q (s.solfatara code) := h.outputsOff.rest

theorem Waits.enterSafe (h : Waits q s) (code : Nat) : Waits q (s.enterSafe code) :=
  ((h.solfatara ..).dropWork.giveUpDuties.leaveRole.toState ..).rest

theorem Waits.trigger (h : Waits q s) (code detail : Nat) : Waits q (s.trigger code detail) := h.quiet (.trigger (.refl s) ..)

/-! ### Update -/

theorem Waits.setImg (h : Waits q s) (n : Nat) (v : Option FlashImg) : Waits q (s.setImg n v) :=
  .ite h.rest (.ite h.rest h.rest)

theorem Waits.setStgid (h : Waits q s) (d : BitVec 256) : Waits q (s.setStgid d) :=
  .foldl _ h fun _ _ h1 => h1.set ..

theorem Waits.setActid (h : Waits q s) : Waits q s.setActid := .foldl _ h fun _ _ h1 => h1.set ..

theorem Waits.checkFail (h : Waits q s) (code : Nat) (pver : W32) : Waits q (s.checkFail code pver) :=
  (((h.set ..).set ..).flag ..).fumarole ..

theorem Waits.dropPackage (h : Waits q s) : Waits q s.dropPackage := (h.rest.set ..).setStgid ..

theorem Waits.emptyStaging (h : Waits q s) : Waits q s.emptyStaging := h.rest.dropPackage

theorem execPackageHeaderReceived_waits (h : Waits q s) (x : PkgHeader) : Finishes q (execPackageHeaderReceived x s) :=
  .whilePowered h (.ite h (.ite ((((h.dropPackage.set ..).setStgid ..).set ..).rest.set ..) ((((h.dropPackage.set ..).setStgid ..).set
   ..).checkFail ..)))

theorem execPackageReceived_waits (h : Waits q s) (m : Manifest) (stream : List Byte) : Finishes q (execPackageReceived m
    stream s) :=
  .whilePowered h (by split; exacts [h, .ite h (.ite (h.rest.checkFail ..) (h.rest.set ..))])

theorem Waits.updCommand (h : Waits q s) (r : Req) (v why : Nat) {act : State → State} (hact : ∀ t, Waits q t → Waits q (act t)) :
    Waits q (s.updCommand r v why act) :=
  .command h _ _ _ _ _ _ (hact)

theorem execApply_waits (h : Waits q s) (r : Req) : Finishes q (execApply r s) :=
  .whilePowered h (.updCommand h _ _ _ (fun _ h1 => .also (((h1.set ..).set ..).set ..) (·.setImg ..)))

theorem Waits.changeKey (h : Waits q s) (c : Nat × Bool × Bool × List Byte) : Waits q (s.changeKey c) :=
  h.rest

theorem execApplyDone_waits (h : Waits q s) : Finishes q (execApplyDone s) := by
  refine .whilePowered h ?_
  split
  · refine .ite h ?_
    extract_lets base
    split
    refine .ite (h.checkFail ..) (.ite ((h.set ..).checkFail ..) (.ite ((h.set ..).checkFail ..) ?_))
    have ready (n : Nat) := ((h.set R.UPD.PROG.DONE n).set R.UPD.STATE.fld 3).flag R.UPD.FLAG.READY
    split
    · exact (ready _).setImg ..
    · exact (ready _).setImg ..
    · exact (ready _).setImg ..
    · exact .foldl _ (ready _) fun _ _ h1 => h1.changeKey ..
  · exact h

theorem Waits.writeSlotRec (h : Waits q s) : Waits q s.writeSlotRec := .ite h.rest h.rest

theorem Waits.readSlotRec (h : Waits q s) : Waits q s.readSlotRec := by
  unfold State.readSlotRec
  split
  exacts [((h.set ..).set ..).set .., h]

theorem Waits.makeActive (h : Waits q s) (n : Nat) (trial : Bool) : Waits q (s.makeActive n trial) :=
  (((h.set ..).set ..).set ..).setActid.writeSlotRec

theorem Waits.acceptRestart (h : Waits q s) (cold : Bool) : Waits q (s.acceptRestart cold) := h.rest

theorem execUpdActivate_waits (h : Waits q s) (r : Req) : Finishes q (execUpdActivate r s) :=
  .whilePowered h (.updCommand h _ _ _ (fun _ h1 => (h1.makeActive ..).acceptRestart ..))

theorem execUpdCancel_waits (h : Waits q s) (r : Req) : Finishes q (execUpdCancel r s) :=
  .whilePowered h (.updCommand h _ _ _ (fun _ h1 => h1.emptyStaging.set ..))

theorem execVerify_waits (h : Waits q s) (r : Req) (arg : BitVec 4) : Finishes q (execVerify r arg s) :=
  .whilePowered h (.updCommand h _ _ _ (fun _ h1 => h1.set ..))

theorem Waits.ownerAct (h : Waits q s) : Waits q s.ownerAct := by
  unfold State.ownerAct
  split
  · exact h
  · split
    exacts [h.rest.set .., h.rest.set .., (h.rest.changeKey ..).set ..]

theorem execOwner_waits (h : Waits q s) (r : Req) : Finishes q (execOwner r s) :=
  .whilePowered h (.ite h (.also (.updCommand h _ _ _ (fun _ h1 => h1.ownerAct)) (·.preqSet ..)))

/-! ### Self-test and life cycle -/

theorem Waits.lockExpert (h : Waits q s) : Waits q s.lockExpert := (h.set ..).set ..

theorem Waits.testStimulus (h : Waits q s) (n : Nat) : Waits q (s.testStimulus n) :=
  .ite (.unless ((h.set ..).set ..) (·.spdUnknown ..)) h

theorem Waits.testBegin (h : Waits q s) (n : Nat) (manual : Bool) : Waits q (s.testBegin n manual) :=
  ((((((((h.set ..).set ..).set ..).set ..).set ..).set ..).set ..).set ..).rest.testStimulus ..

theorem Waits.testEnd (h : Waits q s) (cause : Nat) : Waits q (s.testEnd cause) := h.quiet (.testEnd (.refl s) ..)

theorem Waits.testCheck (h : Waits q s) : Waits q s.testCheck := h.quiet (.testCheck (.refl s))

theorem Waits.bistCommand (h : Waits q s) (r : Req) (v why : Nat) {act : State → State} (hact : ∀ t, Waits q t → Waits q (act t))
    : Waits q (s.bistCommand r v why act) :=
  .command h _ _ _ _ _ _ (hact)

theorem execTestStart_waits (h : Waits q s) (r : Req) (test : Fin 8) : Finishes q (execTestStart r test s) :=
  .whilePowered h (.bistCommand h _ _ _ (fun _ h1 => (h1.testEnd ..).testBegin ..))

theorem execTestStop_waits (h : Waits q s) (r : Req) : Finishes q (execTestStop r s) :=
  .whilePowered h (.bistCommand h _ _ _ (fun _ h1 => h1.testEnd ..))

theorem Waits.startAuto (h : Waits q s) : Waits q s.startAuto :=
  .ite h (by split; exacts [.ite (h.testBegin ..).rest h, h])

theorem Waits.sliceRan (h : Waits q s) : Waits q s.sliceRan := .also (h.set ..) (·.testEnd ..)

theorem Waits.runSlice (h : Waits q s) (matched : Bool) (failed item : Nat) : Waits q (s.runSlice matched failed item) := by
  unfold State.runSlice
  split
  exacts [h.rest, .ite h.rest h.rest.sliceRan.rest]

theorem Waits.issueTokens (h : Waits q s) : Waits q s.issueTokens :=
  .ite (.rest (.foldl _ h fun _ _ h1 => h1.send ..)) h

theorem Waits.lcTick (h : Waits q s) : Waits q s.lcTick := h.quiet (.lcTick (.refl s))

theorem Waits.lcCommand (h : Waits q s) (r : Req) (v : Nat) (from' : List Nat) (to' : Nat) (strong : Bool) (more : List (Nat × Bool))
    : Waits q (s.lcCommand r v from' to' strong more) :=
  .command h _ _ _ _ _ _ (fun _ h1 => .ite h1.rest h1.rest.lcTick)

theorem execMfg_waits (h : Waits q s) (r : Req) : Finishes q (execMfg r s) :=
  .whilePowered h (h.lcCommand ..)

theorem execRelease_waits (h : Waits q s) (r : Req) : Finishes q (execRelease r s) :=
  .whilePowered h (h.lcCommand ..)

theorem execDepot_waits (h : Waits q s) (r : Req) : Finishes q (execDepot r s) :=
  .whilePowered h (h.lcCommand ..)

theorem execService_waits (h : Waits q s) (r : Req) : Finishes q (execService r s) :=
  .whilePowered h (h.lcCommand ..)

theorem execReturn_waits (h : Waits q s) (r : Req) : Finishes q (execReturn r s) :=
  .whilePowered h (h.lcCommand ..)

theorem execRetire_waits (h : Waits q s) (r : Req) (confirm : BitVec 16) : Finishes q (execRetire r confirm s) :=
  .whilePowered h (h.lcCommand ..)

/-! ### Configuration store -/

theorem Waits.setUserImg (h : Waits q s) (n : Nat) (v : Option NvImage) : Waits q (s.setUserImg n v) :=
  .ite h.rest h.rest

theorem Waits.layered (h : Waits q s) (fact user : Option NvImage) : Waits q (s.layered fact user) :=
  .foldl _ (.foldl _ h fun _ _ h1 => h1.setReg ..) fun _ _ h1 => h1.set ..

theorem Waits.checkRanges (h : Waits q s) : Waits q s.checkRanges := by
  refine .also (.also (.also (.also (.also (.foldl _ h fun _ _ h1 => ?_) (·.flag ..)) (·.flag ..)) (·.flag ..)) (·.flag ..)) (·.flag ..)
  split
  exacts [.ite (h1.flag ..) h1, h1]

/-! ### Configuration commands -/

theorem Waits.cfgCommand (h : Waits q s) (r : Req) (code why : Nat) {act : State → State} (hact : ∀ t, Waits q t → Waits q (act
    t)) : Waits q (s.cfgCommand r code why act) :=
  .command h _ _ _ _ _ _ (hact)

theorem Waits.showStgerr (h : Waits q s) (why : Nat) : Waits q (s.showStgerr why) := by
  unfold State.showStgerr
  split
  · exact h
  · refine .ite ?_ h
    split
    · exact h.set ..
    · split
      next e1 =>
      exact ((h.fresh ..).of_pair e1).set ..

theorem execCfgStage_waits (h : Waits q s) (r : Req) : Finishes q (execCfgStage r s) :=
  .whilePowered h (.cfgCommand (.ite (h.showStgerr ..) h) _ _ _ (fun _ h1 => (h1.set ..).set ..))

theorem execCfgActivate_waits (h : Waits q s) (r : Req) : Finishes q (execCfgActivate r s) :=
  .whilePowered h (.cfgCommand h _ _ _ (fun _ h1 => (h1.set ..).rest.acceptRestart ..))

theorem execCfgRevert_waits (h : Waits q s) (r : Req) : Finishes q (execCfgRevert r s) :=
  .whilePowered h (.cfgCommand h _ _ _ (fun _ h1 => (h1.set ..).rest.acceptRestart ..))

theorem execCfgDiscard_waits (h : Waits q s) (r : Req) : Finishes q (execCfgDiscard r s) :=
  .whilePowered h (.cfgCommand h _ _ _ (fun _ h1 => (h1.rest.set ..).set ..))

theorem execCfgLock_waits (h : Waits q s) (r : Req) : Finishes q (execCfgLock r s) :=
  .whilePowered h (.cfgCommand h _ _ _ (fun _ h1 => h1.lockExpert))

theorem execExpchalRead_waits (h : Waits q s) (r : Req) : Finishes q (execExpchalRead r s) := by
  refine .whilePowered h (.ite h.rest ?_)
  split
  next e1 =>
  exact .ite ((h.readExpchal ..).of_pair e1) ((h.readExpchal ..).of_pair e1).rest

theorem execExpkeyWrite_waits (h : Waits q s) (r : Req) (key : W32) : Finishes q (execExpkeyWrite r key s) :=
  .whilePowered h (.ite h (.ite (((((h.preqSet ..).set ..).inc ..).set ..).set ..) ((h.preqSet ..).set ..)))

/-! ### Addresses bound to telegrams -/

theorem Waits.setSub (h : Waits q s) (i : Nat) (v : SubSt) : Waits q (s.setSub i v) := h.rest

theorem Waits.bindAll (h : Waits q s) : Waits q s.bindAll := h.quiet (.bindAll (.refl s))

theorem Waits.loadTables (h : Waits q s) (p : Program) : Waits q (s.loadTables p) :=
  (h.rest.set ..).set ..

/-! ### Program exchange -/

theorem Waits.xCommand (h : Waits q s) (r : Req) (code why : Nat) {act : State → State} (hact : ∀ t, Waits q t → Waits q (act t))
    : Waits q (s.xCommand r code why act) :=
  .command h _ _ _ _ _ _ (hact)

theorem execExchangeStage_waits (h : Waits q s) (r : Req) : Finishes q (execExchangeStage r s) :=
  .whilePowered h (.xCommand h _ _ _ (fun _ h1 => ((((h1.set ..).set ..).set ..).set ..).set ..))

theorem Waits.setShadow (h : Waits q s) (p : Option Program) : Waits q (s.setShadow p) :=
  .ite h.rest h.rest

theorem Waits.setActive (h : Waits q s) (p : Option Program) : Waits q (s.setActive p) :=
  .ite h.rest h.rest

theorem Waits.foldVersion (h : Waits q s) (b : Bool) (p : Program) : Waits q (s.foldVersion b p) :=
  h.eachCh ..

theorem execExchangeFillDone_waits (h : Waits q s) : Finishes q (execExchangeFillDone s) := by
  refine .whilePowered h (.ite h ?_)
  split
  exacts [(((((h.setShadow ..).foldVersion ..).set ..).set ..).set ..).set .., (h.set ..).set ..]

theorem execExchangeArm_waits (h : Waits q s) (r : Req) : Finishes q (execExchangeArm r s) :=
  .whilePowered h (.xCommand h _ _ _ (fun _ h1 => h1.rest))

theorem execExchangeCancel_waits (h : Waits q s) (r : Req) : Finishes q (execExchangeCancel r s) :=
  .whilePowered h (.xCommand h _ _ _ (fun _ h1 => ((((h1.setShadow ..).rest.set ..).set ..).set ..).set ..))

theorem Waits.armTick (h : Waits q s) : Waits q s.armTick := h.quiet (.armTick (.refl s))

theorem Waits.moveHome4 (h : Waits q s) (p : Program) : Waits q (s.moveHome4 p) :=
  .foldl _ h fun _ _ h1 => by split; exacts [.ite (h1.rest) h1, h1]

theorem Waits.initHome4 (h : Waits q s) (ds : List SigDef) : Waits q (s.initHome4 ds) :=
  .foldl _ h fun _ _ h1 => .ite (h1.rest) h1

theorem Waits.setRep (h : Waits q s) (r : ExchRep) : Waits q (s.setRep r) := h.rest

theorem Waits.enterSignals (h : Waits q s) (p : Program) : Waits q (s.enterSignals p) :=
  (((h.moveHome4 ..).initHome4 ..).mapCh ..).setRep ..

theorem Waits.listed (h : Waits q s) (kind id : Nat) (inst : W32) : Waits q (s.listed kind id inst) :=
  h.setRep ..

theorem Waits.showUse (h : Waits q s) (p : Program) : Waits q (s.showUse p) :=
  ((h.set ..).set ..).set ..

theorem Waits.deleteSignals (h : Waits q s) (p : Program) : Waits q (s.deleteSignals p) :=
  .setRep (.foldl _ ((h.mapCh ..).dropForces ..) fun _ _ h1 => h1.listed ..) ..

theorem Waits.countSwitch (h : Waits q s) (a b : Program) (k : Nat) : Waits q (s.countSwitch a b k) :=
  .foldl _ (.foldl _ (h.setRep ..) fun _ _ h1 => h1.listed ..) fun _ _ h1 => h1.listed ..

theorem Waits.switchClass (h : Waits q s) (a b : Program) (k : Nat) : Waits q (s.switchClass a b k) :=
  .set (.orBits (.rest (.mapCh (.countSwitch (.foldl _ h fun _ _ h1 => h1.evSetPrivate ..) ..) ..)) ..) ..

theorem Waits.showShadow (h : Waits q s) : Waits q s.showShadow := h.set ..

theorem Waits.showProgram (h : Waits q s) : Waits q s.showProgram := h.rest

theorem Waits.exchCommit (h : Waits q s) (next : Nat) : Waits q (s.exchCommit next) := by
  unfold State.exchCommit
  split
  · exact .ite (.also (.foldl _ (.ite (h.enterSignals ..) h) fun _ _ h1 => .ite (h1.switchClass ..) h1) fun h1 => (((((h1.deleteSignals
      ..).loadTables ..).showUse ..).set ..).rest.showProgram.set ..).showShadow) h
  · exact h

theorem Waits.writeReport (h : Waits q s) (outcome : Nat) : Waits q (s.writeReport outcome) :=
  (((h.rest.fumarole ..).fumCont ..).fumCont ..).fumCont ..

theorem execExchangePersist_waits (h : Waits q s) (written : Bool) : Finishes q (execExchangePersist written s) :=
  .whilePowered h (.ite h (.set (.emptyStaging (.writeReport (.set (.set (.ite (h.makeActive ..) h) ..) ..) ..)) ..))

/-! ### Train network -/

theorem Waits.trailer (h : Waits q s) : Waits q s.trailer.2 := by
  unfold State.trailer
  split
  exacts [h.rest, h]

theorem Waits.learn (h : Waits q s) (mac : BitVec 48) (x2 : Bool) : Waits q (s.learn mac x2) := h.rest

theorem Waits.setPub (h : Waits q s) (i : Nat) (v : PubSt) : Waits q (s.setPub i v) := h.rest

theorem Waits.capture (h : Waits q s) (f : Nat) : Waits q (s.capture f) :=
  .ite h (.foldl _ h fun _ _ h1 => .ite (h1.rest.setPub ..) h1)

theorem Waits.netTick (h : Waits q s) : Waits q s.netTick := h.quiet (.netTick (.refl s))

theorem execPdTelegramLaunch_waits (h : Waits q s) : Finishes q (execPdTelegramLaunch s) := by
  refine .whilePowered h ?_
  split
  · exact h
  · refine .ite h (.ite h.rest ?_)
    exact .also (.inc (.send (.trailer (.setPub h.rest ..)) ..) ..) (·.incSat ..)

theorem Waits.atHead (h : Waits q s) (ring : Nat) : Waits q (s.atHead ring) := .ite h.rest h

theorem Waits.txDone (h : Waits q s) (ring stat ts : Nat) : Waits q (s.txDone ring stat ts) :=
  ((h.rest).ringTake ..).atHead ..

theorem Waits.txSend (h : Waits q s) (ring : Nat) (x : TxHead) (frame : List Byte) (ports : List Nat) (skew : Nat) : Waits q
    (s.txSend ring x frame ports skew) := by
  unfold State.txSend
  split
  next e1 =>
  exact .foldl _ ((h.trailer).of_pair e1) fun _ _ h2 => h2.send ..

theorem execTxDescriptorLaunch_waits (h : Waits q s) (n : Fin 3) (skew : Nat) : Finishes q (execTxDescriptorLaunch n skew s) :=
  .whilePowered h (.ite h (.unless (h.txDone ..) fun h1 => .ite (h.txDone ..) (.ite h1 (.ite h (.ite (.txDone (.ite (h.incSat ..) h) ..)
    (.ite h (.txDone (.txSend (.ite (h.incSat ..) h) ..) ..)))))))

theorem execRingHeadWrite_waits (h : Waits q s) (r : Req) (ring : Fin 64) (v : BitVec 16) : Finishes q (execRingHeadWrite r
    ring v s) :=
  .whilePowered h (.ite (.also (h.set ..) (·.atHead ..)) h)

theorem execRingTailWrite_waits (h : Waits q s) (r : Req) (ring : Fin 64) (v : BitVec 16) : Finishes q (execRingTailWrite r
    ring v s) :=
  .whilePowered h (.ite (h.set ..) h)

theorem Waits.showLans (h : Waits q s) : Waits q s.showLans := (h.set ..).set ..

theorem Waits.rxRing (h : Waits q s) (ring : Nat) (f : RxFrame) : Waits q (s.rxRing ring f) :=
  .ite h (.ite ((h.incSat ..).flag ..) 
    ((h.rest).set ..))

theorem Waits.pdDrop (h : Waits q s) (epoch : Bool) : Waits q (s.pdDrop epoch) :=
  .ite ((h.incSat ..).flag ..) (h.incSat ..)

theorem Waits.sdtFold (h : Waits q s) (i : Nat) (e : List W32) (data : List Byte) : Waits q (s.sdtFold i e data) :=
  h.eachCh ..

theorem Waits.pdCheck (h : Waits q s) (f : RxFrame) (t : PdTel) : Waits q (s.pdCheck f t) := by
  refine .ite (h.incSat ..) ?_
  split
  · exact h.rxRing ..
  · refine .ite (h.incSat ..) (.ite ((h.incSat ..).flag ..) (.ite (((h.sdtFold ..).incSat ..).flag ..) ?_))
    dsimp only
    split
    · exact .pdDrop (.ite (h.sdtFold ..) h) ..
    · exact .rest (.ite (h.sdtFold ..) h)

theorem Waits.hear (h : Waits q s) (f : RxFrame) : Waits q (s.hear f) := h.rest.showLans

theorem Waits.prpKeep (h : Waits q s) (f : RxFrame) : Waits q (s.prpKeep f) := by
  unfold State.prpKeep
  split
  exacts [.ite h.rest h, h]

theorem execFrameReceive_waits (h : Waits q s) (f : RxFrame) : Finishes q (execFrameReceive f s) := by
  have heard : Waits q (if s.pmode = 0 then s.hear f else if s.pmode = 1 then s.learn f.mac (f.port = 2) else s) :=
    .ite (h.hear ..) (.ite (h.learn ..) h)
  refine .whilePowered h (.ite h (.ite (heard.inc ..) ?_))
  dsimp only
  split
  · exact .ite ((heard.prpKeep ..).rxRing ..) ((heard.prpKeep ..).pdCheck ..)
  · exact (heard.prpKeep ..).rxRing ..

theorem Waits.telUpdate (h : Waits q s) (i : Nat) (src : Src) (val : DirEnt → W32 × W32 → List Byte) :
    Waits q (s.telUpdate i src val) :=
  .foldl _ h fun _ _ h1 => (by split; exacts [.ite h1 (h1.input ..), h1])

theorem execTelegramAccept_waits (h : Waits q s) : Finishes q (execTelegramAccept s) := by
  refine .whilePowered h ?_
  split
  · exact h
  · dsimp only
    split
    · exact h.rest.pdDrop ..
    · exact .telUpdate (.inc (.setSub h.rest ..) ..) ..

theorem Waits.showUcause (h : Waits q s) : Waits q s.showUcause := h.quiet (.showUcause (.refl s))

theorem Waits.derive (h : Waits q s) : Waits q s.derive := h.quiet (.derive (.refl s))

theorem Waits.becomeUnaddressed (h : Waits q s) : Waits q s.becomeUnaddressed := h.quiet (.becomeUnaddressed (.refl s))

theorem execInauguration_waits (h : Waits q s) (etb op : W32) (cst : Nat) (vehs : List (Nat × List Byte)) (tnid : W32) (resolved : Tbl
    W32) : Finishes q (execInauguration etb op cst vehs tnid resolved s) :=
  .whilePowered h (.ite h (.also (.rest (.inc (.set (.set (.ite ((h.flag ..).set ..).rest.bindAll ((h.flag ..).set ..).rest) ..) ..) ..))
    fun h1 => .ite (h1.flag ..).rest (h1.flag ..).rest.derive))

/-! ### Copy records -/

theorem Waits.noteGuards (h : Waits q s) : Waits q s.noteGuards := h.quiet (.noteGuards (.refl s))

/-! ### The module pair -/

theorem Waits.showRole (h : Waits q s) (r : Role) (fcause : Nat) : Waits q (s.showRole r fcause) :=
  .also (((h.set ..).set ..).set ..) (·.rest)

theorem Waits.toRole (h : Waits q s) (r : Role) (fcause : Nat) : Waits q (s.toRole r fcause) :=
  (h.showRole ..).testCheck

theorem Waits.pairRecord (h : Waits q s) (code : Nat) : Waits q (s.pairRecord code) := h.fumarole ..

theorem Waits.raiseEpoch (h : Waits q s) : Waits q s.raiseEpoch := h.set ..

theorem Waits.assertPact (h : Waits q s) : Waits q s.assertPact := (h.set ..).rest

theorem Waits.promote (h : Waits q s) (a : Nat) : Waits q (s.promote a) :=
  (((((h.assertPact.raiseEpoch.toRole ..).flag ..).incSat ..).setPair ..).set ..).rest.pairRecord ..

theorem Waits.wouldPromote (h : Waits q s) : Waits q s.wouldPromote :=
  .ite (h.promote ..) (.also (h.flag ..) (·.acceptRestart ..))

theorem Waits.joinBegin (h : Waits q s) : Waits q s.joinBegin := (h.set ..).rest

theorem Waits.joinFail (h : Waits q s) : Waits q s.joinFail :=
  .ite (((h.rest.pairRecord ..).flag ..).toRole ..).rest (h.rest.pairRecord ..).joinBegin

theorem Waits.discardImage (h : Waits q s) : Waits q s.discardImage := by
  unfold State.discardImage
  split
  exacts [h.mapCh .., h]

theorem Waits.hbRole (h : Waits q s) (x : Heartbeat) : Waits q (s.hbRole x) := by
  unfold State.hbRole
  split
  · exact .ite (h.toRole ..).rest h
  · exact .ite h (h.toRole ..)
  · exact .ite h.wouldPromote (.ite h.joinFail h)
  · exact .ite (h.toRole ..).rest.joinBegin h
  · exact h

theorem execHeartbeatTimeout_waits (h : Waits q s) : Finishes q (execHeartbeatTimeout s) := by
  refine .whilePowered h (.testCheck ?_)
  split
  exacts [(h.rest.flag ..).toRole .., (h.rest.flag ..).wouldPromote, h.rest.flag ..]

theorem execStartRoleDecision_waits (h : Waits q s) (m66en : Bool) : Finishes q (execStartRoleDecision m66en s) :=
  .whilePowered h (.ite h (.also (.ite (h.rest.flag ..) h.rest) fun h1 => (h1.takeDuties ..).testCheck))

theorem Waits.takeStartRole (h : Waits q s) : Waits q s.takeStartRole := by
  unfold State.takeStartRole
  split
  · exact h
  · exact h.assertPact.raiseEpoch.toRole ..
  · exact (h.discardImage.toRole ..).joinBegin
  · exact (h.toRole ..).pairRecord ..

theorem Waits.yieldNow (h : Waits q s) (cause : Nat) : Waits q (s.yieldNow cause) :=
  .ite (((h.dropWork.outputsOff.giveUpDuties.set ..).toRole ..).rest.pairRecord ..) (((((h.dropWork.outputsOff.giveUpDuties.set ..).toRole
   ..).rest.flag ..).incSat ..).pairRecord ..)

theorem Waits.resumeExch (h : Waits q s) (f : Nat) : Waits q (s.resumeExch f) :=
  (h.rest.exchCommit ..).rest

theorem Waits.resumeTick (h : Waits q s) : Waits q s.resumeTick := by
  unfold State.resumeTick
  split
  · exact h
  · next a _ =>
    extract_lets f _ s1 s2 n
    have h2 : Waits q s2 := .foldl _ (h.rest.resumeExch f) fun _ _ h1 => by split; exacts [h1.incSat .., h1]
    split
    · exact h2.set ..
    · exact (h2.fresh 8).set ..

theorem Waits.pairTick (h : Waits q s) : Waits q s.pairTick := by
  unfold State.pairTick
  dsimp only
  split
  · split
    exacts [h.yieldNow .., .ite (h.yieldNow ..) h.resumeTick, h.resumeTick]
  · split
    exacts [h.yieldNow .., .ite (h.yieldNow ..) h.resumeTick, h.resumeTick]
  · split
    · exact .unless (.ite h.joinBegin h) fun h1 => .ite (h1.promote ..).resumeTick h1.rest
    · exact .ite h.joinBegin h
  · exact h

theorem Waits.firstAgain (h : Waits q s) (mask : Nat) : Waits q (s.firstAgain mask) := h.rest

theorem Waits.takeExch (h : Waits q s) (x : W32) (armf : Nat) (swf : List Nat) : Waits q (s.takeExch x armf swf) :=
  .ite h (.ite ((((h.firstAgain ..).setReg ..).setPair ..).rest.set ..) (((h.firstAgain ..).setReg ..).setPair ..).rest)

theorem Waits.takeRep (h : Waits q s) (n : W32) (r : ExchRep) : Waits q (s.takeRep n r) :=
  .setRep (.set (.ite h (h.set ..)) ..) ..

theorem Waits.applyExch (h : Waits q s) (n : Nat) (x : W32) (armf : Nat) (swf : List Nat) : Waits q (s.applyExch n x armf swf) := by
  unfold State.applyExch
  dsimp only
  split
  · exact .also (.also (h.takeExch ..) fun h1 => (h1.rest.enterSignals ..).rest) fun h1 => ((((h1.deleteSignals ..).loadTables ..).showUse
      ..).rest.showProgram.set ..).showShadow
  · exact h.takeExch ..

theorem Waits.foldItem (h : Waits q s) (i : CopyItem) : Waits q (s.foldItem i) := by
  unfold State.foldItem
  split
  exacts [.ite h (h.foldVersion ..), h.eachCh ..]

theorem Waits.putHome4 (h : Waits q s) (e : DirEnt) (v : List Byte) : Waits q (s.putHome4 e v) :=
  .ite (h.rest) h

theorem Waits.takeVersion (h : Waits q s) (p : Program) : Waits q (s.takeVersion p) :=
  .set (.also ((((h.setActive ..).loadTables ..).showUse ..).mapCh ..) (·.showProgram)) ..

theorem Waits.takeItem (h : Waits q s) (n : Nat) (x : CopyItem) : Waits q (s.takeItem n x) := by
  unfold State.takeItem
  split
  · split
    exacts [(h.eachCh ..).putHome4 .., h.eachCh ..]
  · exact h.eachCh ..
  · exact h.setForces ..
  · exact h.setForces ..
  · exact h.set ..
  · exact h.set ..
  · exact h.applyExch ..
  · exact h.takeRep ..
  · exact h.setPub ..
  · exact h.set ..
  · exact .ite (h.takeVersion ..) (.ite h (h.setShadow ..).showShadow)
  · exact (h.eachCh ..).putHome4 ..
  · exact h

theorem Waits.applyItem (h : Waits q s) (n : Nat) (i : CopyItem) : Waits q (s.applyItem n i) :=
  (h.foldItem ..).takeItem ..

theorem Waits.applyBulk (h : Waits q s) (b : Nat) (i : CopyItem) : Waits q (s.applyBulk b i) := by
  unfold State.applyBulk
  split
  exacts [(h.foldItem ..).takeExch .., h.applyItem ..]

theorem Waits.applyItems (h : Waits q s) (n : Nat) (l : List CopyItem) : Waits q (s.applyItems n l) :=
  .foldl _ h fun _ _ h1 => h1.applyItem ..

theorem Waits.dropHeld (h : Waits q s) (n : Nat) : Waits q (s.dropHeld n) := h.rest

theorem Waits.retDue (h : Waits q s) (n ns : Nat) : Waits q (s.retDue n ns) :=
  .rest (.also (.ite (h.incSat ..) h) (·.set ..))

theorem Waits.judgeCopy (h : Waits q s) (e : CopyEnd) : Waits q (s.judgeCopy e) :=
  .ite (.retDue (.also (((h.send ..).setPair ..).set ..) fun h1 => (h1.set ..).rest) ..) (.ite ((h.send ..).flag ..).joinFail ((h.send
   ..).flag ..).joinBegin)

theorem Waits.endCopy (h : Waits q s) (e : CopyEnd) : Waits q (s.endCopy e) :=
  .ite h (.ite h.rest (.also (h.dropHeld ..) fun h1 => (h1.applyItems ..).judgeCopy ..))

theorem Waits.noAwait (h : Waits q s) (n : Nat) : Waits q (s.noAwait n) := h.rest

theorem Waits.bulkAgain (h : Waits q s) (n : Nat) : Waits q (s.bulkAgain n) := by
  unfold State.bulkAgain
  split
  exacts [.ite h.rest h, h]

theorem Waits.bulkWrong (h : Waits q s) (n : Nat) : Waits q (s.bulkWrong n) := by
  unfold State.bulkWrong
  split
  exacts [.ite h.rest h, h]

theorem execGeyserAckReceive_waits (h : Waits q s) (n status : Nat) : Finishes q (execGeyserAckReceive n status s) :=
  .whilePowered h (.ite h (.ite ((((h.noAwait ..).bulkWrong ..).flag ..).set ..) (.ite h (((h.noAwait ..).setPair ..).set ..))))

theorem execAckMiss_waits (h : Waits q s) (n : Nat) : Finishes q (execAckMiss n s) := by
  refine .whilePowered h (.ite h ?_)
  split
  · exact .ite ((((h.noAwait ..).bulkAgain ..).flag ..).set ..) h
  · exact .ite h (.ite (.ite h.joinFail h) h.joinBegin)
  · exact h

theorem execBulkReceive_waits (h : Waits q s) (b copyfmt total mib : Nat) (items : List CopyItem) : Finishes q (execBulkReceive
    b copyfmt total mib items s) :=
  .whilePowered h (.ite h (.ite h.joinFail (.foldl _ ((h.set ..).set ..).rest fun _ _ h1 => h1.applyBulk ..)))

theorem Waits.pairCommand (h : Waits q s) (r : Req) (code why : Nat) {act : State → State} (hact : ∀ t, Waits q t → Waits q (act
    t)) : Waits q (s.pairCommand r code why act) :=
  .command h _ _ _ _ _ _ (hact)

theorem execSwitchover_waits (h : Waits q s) (r : Req) : Finishes q (execSwitchover r s) :=
  .whilePowered h (.pairCommand h _ _ _ (fun _ h1 => (h1.send ..).rest))

theorem execFence_waits (h : Waits q s) (r : Req) : Finishes q (execFence r s) :=
  .whilePowered h (.pairCommand h _ _ _ (fun _ h1 => .ite h1.rest ((h1.toRole ..).rest.pairRecord ..)))

theorem execUnfence_waits (h : Waits q s) (r : Req) : Finishes q (execUnfence r s) :=
  .whilePowered h (.pairCommand h _ _ _ (fun _ h1 => h1.rest))

/-! ### Retain areas -/

theorem Waits.sealRec (h : Waits q s) (r : RetBuf) : Waits q (s.sealRec r) :=
  ((((h.rest.set ..).set ..).set ..).setPair ..).set ..

theorem execRetainRecordWrite_waits (h : Waits q s) : Finishes q (execRetainRecordWrite s) :=
  .whilePowered h (by split; exacts [.ite (h.sealRec ..) h, h])

theorem execRetainBufferCutoff_waits (h : Waits q s) (placed : Bool) (op1Us mv10 : BitVec 16) :
    Finishes q (execRetainBufferCutoff placed op1Us mv10 s) := by
  refine .next ?_
  split
  · exact h
  · split
    next w _ outcome s1 e =>
    have h1 : Waits q s1 := by
      split at e
      · cases e
        exact h
      · split at e
        · cases e
          exact h
        · split at e
          · cases e
            exact h.sealRec ..
          · cases e
            exact h.rest
    exact .rest ((h1.fumarole ..).setSupply ..)

theorem Waits.restoreTimers (h : Waits q s) (b : RetBuf) : Waits q (s.restoreTimers b) :=
  (h.mapCh ..).rest

theorem Waits.restoreGuards (h : Waits q s) (b : RetBuf) : Waits q (s.restoreGuards b) :=
  .ite (.forN _ h fun _ _ h1 => .ite (h1.putBit ..) h1) h

/-! ### The vote unit -/

theorem Waits.discard (h : Waits q s) (task cls eng cause : Nat) : Waits q (s.discard task cls eng cause) := h.quiet (.discard (.refl s) ..)

theorem Waits.setLead (h : Waits q s) : Waits q s.setLead := h.quiet (.setLead (.refl s))

theorem Waits.exclude (h : Waits q s) (ch : Ch) (cause : Nat) (d : Devn) : Waits q (s.exclude ch cause d) := h.quiet (.exclude (.refl s) ..)

theorem Waits.failProbation (h : Waits q s) (ch : Ch) (d : Devn) : Waits q (s.failProbation ch d) :=
  ((h.exclude ..).flag ..).set ..

theorem Waits.voteGroup (h : Waits q s) (g : VGroup) : Waits q (s.voteGroup g) := h.quiet (.voteGroup (.refl s) ..)

theorem Waits.voteFront (h : Waits q s) : Waits q s.voteFront := by
  unfold State.voteFront
  split
  exacts [h, h.rest.voteGroup ..]

theorem Waits.voteAll (h : Waits q s) (n : Nat) : Waits q (s.voteAll n) := by
  induction n generalizing s with
  | zero => exact h
  | succ n ih => exact ih h.voteFront

theorem Waits.voterFaults (h : Waits q s) (v1 v2 : Option VoterSays) : Waits q (s.voterFaults v1 v2) :=
  h.rest

theorem execDelayParityError_waits (h : Waits q s) (ch : Ch) (stage : BitVec 4) : Finishes q (execDelayParityError ch stage s)
    :=
  .whilePowered h (.ite h (.ite ((h.flag ..).failProbation ..) (.ite ((h.flag ..).trigger ..) ((h.flag ..).exclude ..))))

theorem Waits.showAttempts (h : Waits q s) : Waits q s.showAttempts :=
  .foldl _ h fun _ _ h1 => h1.set ..

theorem execClearperm_waits (h : Waits q s) (r : Req) : Finishes q (execClearperm r s) :=
  .whilePowered h (.commandNoReason h _ _ _ _ _ (fun _ h1 => h1.rest))

/-! ### Network time -/

theorem Waits.toSync (h : Waits q s) (n : Nat) : Waits q (s.toSync n) :=
  .set (.set (.rest (.ite (h.flag ..) h)) ..) ..

theorem Waits.addTime (h : Waits q s) (d : Int) : Waits q (s.addTime d) := h.rest

theorem Waits.showSlew (h : Waits q s) : Waits q s.showSlew := h.set ..

theorem Waits.slewBy (h : Waits q s) (d : Int) : Waits q (s.slewBy d) := .ite h h.rest.showSlew

theorem Waits.rephase (h : Waits q s) (d : Int) : Waits q (s.rephase d) := .ite h h.rest.showSlew

theorem Waits.applyStep (h : Waits q s) (d : Int) (reph : Bool) : Waits q (s.applyStep d reph) :=
  .also (.set (.inc (.ite ((h.addTime ..).rephase ..) ((h.addTime ..).slewBy ..)) ..) ..) (·.toSync ..)

theorem Waits.writeStep (h : Waits q s) (lo hi : W32) : Waits q (s.writeStep lo hi) :=
  .ite ((((h.setPair ..).set ..).applyStep ..).inc ..) ((((((h.setPair ..).set ..).set ..).flag ..).incSat ..).toSync ..)

theorem Waits.takeHeld (h : Waits q s) (r : Req) (lo : Nat) : Waits q (s.takeHeld r lo).2 := by
  unfold State.takeHeld
  split
  exacts [h.rest, h]

theorem execTimeStep_waits (h : Waits q s) (r : Req) (hi : W32) : Finishes q (execTimeStep r hi s) :=
  .whilePowered h (.ite h (by split; next e1 => exact ((h.takeHeld ..).of_pair e1).writeStep ..))

theorem Waits.forcePend (h : Waits q s) : Waits q s.forcePend :=
  (((h.applyStep ..).flag ..).toSync ..).fumarole ..

theorem execTimeForce_waits (h : Waits q s) (r : Req) : Finishes q (execTimeForce r s) :=
  .whilePowered h (.command h _ _ _ _ _ _ (fun _ h1 => h1.forcePend))

theorem execPtpOffsetMeasurement_waits (h : Waits q s) (ns : Int) : Finishes q (execPtpOffsetMeasurement ns s) :=
  .whilePowered h (.ite h (.ite ((h.set ..).rest.toSync ..) (.ite ((h.set ..).rest.toSync ..) (h.set ..).rest)))

theorem Waits.selectMaster (h : Waits q s) (m : Announce) : Waits q (s.selectMaster m) :=
  ((h.rest.setPair ..).set ..).set ..

theorem Waits.dropMaster (h : Waits q s) : Waits q s.dropMaster :=
  .ite (((h.rest.setPair ..).set ..).flag ..) h.rest

theorem execAnnounceReceive_waits (h : Waits q s) (m : Announce) : Finishes q (execAnnounceReceive m s) := by
  refine .whilePowered h (.ite h ?_)
  split
  · exact .ite h.dropMaster ((h.selectMaster ..).flag ..)
  · exact .ite (.ite h.dropMaster (h.selectMaster ..)) (.ite ((h.selectMaster ..).flag ..) h)

theorem execIncrWrite_waits (h : Waits q s) (r : Req) (hi : W32) : Finishes q (execIncrWrite r hi s) := by
  refine .whilePowered h (.ite h ?_)
  split
  next e1 =>
  exact .unless (((h.takeHeld ..).of_pair e1).setPair ..) (·.flag ..)

/-! ### The frame -/

theorem Waits.startRecord (h : Waits q s) : Waits q s.startRecord := h.fumarole ..

theorem Waits.endTrial (h : Waits q s) : Waits q s.endTrial := by
  have h1 := ((h.set R.UPD.STATE.TRIAL 0).set R.UPD.STATE.TRIALS 0).writeSlotRec
  refine .ite h ?_
  dsimp only
  split
  · exact .ite ((h1.set ..).flag ..) h1
  · exact h1

theorem Waits.firstStamps (h : Waits q s) : Waits q s.firstStamps := by
  unfold State.firstStamps
  exact h.mapCh ..

theorem Waits.beginRun (h : Waits q s) : Waits q s.beginRun := by
  refine .firstStamps (.takeStartRole (.endTrial (.startRecord ?_)))
  split
  · exact (((h.set ..).toState ..).rest.restoreTimers ..).restoreGuards ..
  · exact ((h.set ..).toState ..).rest

theorem Waits.voteTick (h : Waits q s) : Waits q s.voteTick := h.quiet (.voteTick (.refl s))

theorem Waits.showHeld (h : Waits q s) : Waits q s.showHeld := h.quiet (.showHeld (.refl s))

theorem Waits.dropPassed (h : Waits q s) : Waits q s.dropPassed := h.quiet (.dropPassed (.refl s))

theorem Waits.releaseAll (h : Waits q s) : Waits q s.releaseAll := h.quiet (.releaseAll (.refl s))

theorem Waits.frameReset (h : Waits q s) : Waits q s.frameReset := h.quiet (.frameReset (.refl s))

theorem Waits.addrStep (h : Waits q s) : Waits q s.addrStep := h.quiet (.addrStep (.refl s))

theorem Waits.unitsTick (h : Waits q s) : Waits q s.unitsTick :=
  .unless (.voteTick (.ite h.addrStep.netTick.pairTick.armTick h.addrStep.netTick)) (·.sioTick.noteGuards.spdTick)

theorem Waits.tickEdge (h : Waits q s) : Waits q s.tickEdge := h.quiet (.tickEdge (.refl s))

theorem Waits.tickBegun (h : Waits q s) : Waits q s.tickBegun := .ite h.tickEdge.beginRun h.tickEdge

theorem Waits.tickUnits (h : Waits q s) : Waits q s.tickUnits := h.tickBegun.frameReset.unitsTick

theorem Waits.startNext (h : Waits q s) (e : Eng) : Waits q (s.startNext e) := by
  unfold State.startNext
  dsimp only
  split
  · exact h.rest
  · split
    exacts [h.rest.mapCh .., h.rest]

theorem Waits.beginPhaseRun (h : Waits q s) : Waits q s.beginPhaseRun :=
  .ite (h.set ..).flushInbound h

theorem Waits.cutEngine (h : Waits q s) (e : Eng) : Waits q (s.cutEngine e) := h.onEngine ..

theorem Waits.dropInst (h : Waits q s) (e : Eng) (task : Nat) : Waits q (s.dropInst e task) :=
  h.mapCh ..

theorem Waits.cutSeg (h : Waits q s) (e : Eng) (g : SegEnt) : Waits q (s.cutSeg e g) := by
  unfold State.cutSeg
  dsimp only
  split
  exacts [h, .ite h ((h.dropInst ..).discard ..)]

theorem Waits.showPeaks (h : Waits q s) : Waits q s.showPeaks := .forN _ h fun _ _ h1 => h1.set ..

theorem Waits.pendDemands (h : Waits q s) : Waits q s.pendDemands :=
  .foldl _ h fun _ _ h1 => .ite h1 (h1.setOutp ..)

theorem Waits.cutWork (h : Waits q s) : Waits q s.cutWork :=
  .unless (h.voteAll ..) fun h1 => .pendDemands (.goneReads (.mapCh (.foldl _ (.showPeaks (.foldl _ h1 fun _ _ h2 => h2.cutEngine ..)) fun _
    _ h2 => .foldl _ h2 fun _ _ h3 => h3.cutSeg ..) ..))

theorem Waits.applyWrites (h : Waits q s) (ts : List Nat) : Waits q (s.applyWrites ts) := by
  unfold State.applyWrites
  exact (h.mapCh ..).mapCh ..

theorem Waits.endCycles (h : Waits q s) (ts : List Nat) : Waits q (s.endCycles ts) :=
  .foldl _ h.rest fun _ _ h1 => .ite ((h1.set ..).inc ..) h1

theorem Waits.commitVotes (h : Waits q s) : Waits q s.commitVotes :=
  .unless (h.voteAll ..) fun h1 => .unless (h1.voteGroup ..) fun h2 => .set (.forN _ h2 fun _ _ h3 => h3.set ..) ..

theorem Waits.releaseEntries (h : Waits q s) (ts : List Nat) : Waits q (s.releaseEntries ts) :=
  .foldl _ h fun _ _ h1 => .foldl _ h1 fun _ _ h2 => h2.release ..

theorem Waits.clearEntries (h : Waits q s) (ts : List Nat) : Waits q (s.clearEntries ts) := by
  unfold State.clearEntries
  exact (h.mapCh ..).mapCh ..

theorem Waits.countSkip (h : Waits q s) (k : Nat) (d : Discard) : Waits q (s.countSkip k d) :=
  ((((h.incSat ..).incSat ..).orBits ..).fumarole ..).rest

theorem Waits.countSkips (h : Waits q s) : Waits q s.countSkips := by
  refine .unless (.forN _ h fun _ _ h1 => ?_) fun h1 => ?_
  · split
    exacts [h1.countSkip .., h1]
  · split
    exacts [(((h1.set ..).set ..).set ..).setPair .., h1]

theorem Waits.endTriggers (h : Waits q s) (hits faults : List Nat) : Waits q (s.endTriggers hits faults) := by
  unfold State.endTriggers
  dsimp only
  split
  · split
    exacts [(h.orBits ..).trigger .., h]
  · exact .trigger (by split; exacts [(h.orBits ..).trigger .., h]) ..

theorem Waits.startBulk (h : Waits q s) (f : Nat) : Waits q (s.startBulk f) := by
  unfold State.startBulk
  split
  exacts [.ite (h.send ..).rest h, h]

theorem Waits.sendBulk (h : Waits q s) (f n : Nat) : Waits q (s.sendBulk f n) := by
  unfold State.sendBulk
  split
  exacts [.ite (h.rest.send ..).rest h.rest, h]

theorem Waits.sendCopy (h : Waits q s) (old : Chan) (insts : List Inst) : Waits q (s.sendCopy old insts) :=
  (((h.send ..).rest.set ..).startBulk ..).sendBulk ..

theorem Waits.returnClaims (h : Waits q s) : Waits q s.returnClaims := h.evReturn ..

theorem Waits.execDemands (h : Waits q s) : Waits q s.execDemands :=
  .forN _ h fun _ _ h1 => h1.execDemand ..

theorem Waits.commitWork (h : Waits q s) : Waits q s.commitWork :=
  .endTriggers (.returnClaims (.rest (.also (((((((h.releaseEntries ..).clearEntries ..).applyWrites ..).execDemands.countSkips.endCycles
   ..).exchCommit ..).capture ..).retDue ..) (·.sendCopy ..)))) ..

theorem Waits.commitFrame (h : Waits q s) : Waits q s.commitFrame :=
  .set (.ite h.commitVotes (.ite h.commitVotes.commitWork h.commitVotes.execDemands)) ..

/-! ### System instructions -/

theorem Waits.finishSeg (h : Waits q s) (u : State) (e : Eng) : Waits q (s.finishSeg u e) := by
  unfold State.finishSeg
  dsimp only
  split
  exacts [.ite (h.set ..) h, h]

/-! ### The start -/

theorem Waits.stopAll (h : Waits q s) : Waits q s.stopAll :=
  h.outputsOff.dropWork.giveUpDuties.leaveRole.testEnd ..

theorem Waits.restoreVote (h : Waits q s) : Waits q s.restoreVote := by
  unfold State.restoreVote
  dsimp only
  split
  · exact .setLead (.set (.foldl _ (((((h.rest.resetDreg ..).resetDreg ..).set ..).set ..).set ..) fun _ _ h1 => h1.set ..) ..)
  · exact .setLead (.set (.set (.set (.set (.set (.putBit (.set (.foldl _ (((((h.rest.resetDreg ..).resetDreg ..).set ..).set ..).set ..)
      fun _ _ h1 => h1.set ..) ..) ..) ..) ..) ..) ..) ..)

theorem Waits.restoreStaging (h : Waits q s) : Waits q s.restoreStaging := by
  unfold State.restoreStaging
  split
  exacts [.ite (((h.set ..).set ..).setStgid ..) h, h]

theorem Waits.clearHidden (h : Waits q s) (warm : Bool) : Waits q (s.clearHidden warm) := h.rest

theorem Waits.restoreIdent (h : Waits q s) : Waits q s.restoreIdent := (h.setPair ..).setPair ..

theorem Waits.beginStart (h : Waits q s) (old : Nat) : Waits q (s.beginStart old) := by
  have h1 := h.readSlotRec.stopAll
  unfold State.beginStart
  extract_lets s0 warm s1 s2 s3 s4 s5
  have h2 : Waits q { s1 with regs := startRegs warm s1.reg } := h1.rest
  have h2 : Waits q s2 := h2.clearHidden ..
  have h3 : Waits q s3 := h2.restoreVote.showAttempts.restoreIdent.restoreStaging.inc ..
  have h4 : Waits q s4 := .also h3 (·.set ..)
  have h5 : Waits q s5 := .unless h4 (·.set ..)
  exact (h5.showUcause.enterState ..).lcTick

theorem execPowerInputValid_waits (h : Waits q s) (offNs : Nat) (mv10 : BitVec 16) :
    Finishes q (execPowerInputValid offNs mv10 s) := by
  refine .next (.ite h (.beginStart ?_ ..))
  exact h.rest

theorem Waits.leaveBoot (h : Waits q s) : Waits q s.leaveBoot := .ite (h.toState ..).derive h

theorem execSlotCodeSample_waits (h : Waits q s) (samples : List (BitVec 6)) : Finishes q (execSlotCodeSample samples s) :=
  .whilePowered h (.ite h (.leaveBoot (.showUcause (.ite (((h.set ..).set ..).set ..).rest ((((h.set ..).set ..).set ..).flag ..).rest))))

theorem Waits.plugDone (h : Waits q s) (b : Option (List Byte)) : Waits q (s.plugDone b) := by
  refine .leaveBoot (.showUcause (.rest ?_))
  split
  exacts [.forN _ (((h.set ..).set ..).set ..) fun _ _ h1 => h1.set .., h]

theorem Waits.startFrom (h : Waits q s) (n : Nat) (i : ImageStart) : Waits q (s.startFrom n i) := by
  refine .leaveBoot (.rest (.ite (.writeSlotRec ?_) ?_))
  · split
    · exact .set (.setActid (.also (.also (((h.set ..).set ..).set ..) (·.flag ..)) (·.flag ..))) ..
    · exact .setActid (.also (.also (((h.set ..).set ..).set ..) (·.flag ..)) (·.flag ..))
  · split
    · exact .set (.setActid (.also (.also (((h.set ..).set ..).set ..) (·.flag ..)) (·.flag ..))) ..
    · exact .setActid (.also (.also (((h.set ..).set ..).set ..) (·.flag ..)) (·.flag ..))

theorem execImageCheck_waits (h : Waits q s) : Finishes q (execImageCheck s) := by
  refine .whilePowered h (.ite h ?_)
  dsimp only
  split
  · exact h.startFrom ..
  · have h1 : Waits q (if s.imageStart.back then (s.makeActive s.idleSlot false).flag R.UPD.FLAG.ROLLBACK else s) :=
      .ite ((h.makeActive ..).flag ..) h
    exact .ite (((h1.set ..).set ..).setActid.toState ..).showUcause.rest (h1.set ..)

theorem execProcessorLoad_waits (h : Waits q s) (step : Fin 4) (digest : BitVec 256) : Finishes q (execProcessorLoad step
    digest s) :=
  .whilePowered h (.ite h (by split; exacts [h, .ite h.rest.leaveBoot ((h.flag ..).set ..)]))

theorem Waits.applyPend (h : Waits q s) : Waits q s.applyPend := by
  refine .ite ?_ (.ite ?_ h.rest)
  · split
    exacts [((h.rest.setUserImg ..).rest.set ..).set .., h.rest]
  · split
    exacts [h.rest.setUserImg .., h.rest]

theorem Waits.checkImages (h : Waits q s) : Waits q s.checkImages := by
  unfold State.checkImages
  extract_lets bad s1 cur s2
  have h1 : Waits q s1 := .ite (h.flag ..) h
  have h2 : Waits q s2 := by
    unfold s2
    split
    exacts [.ite ((h1.flag ..).fumarole ..) h1, h1]
  clear_value s2 cur
  split
  · exact ((h2.set ..).set ..).set ..
  · exact ((((h2.set ..).set ..).set ..).set ..).set ..

theorem Waits.inForce (h : Waits q s) : Waits q s.inForce := ((h.set ..).set ..).set ..

theorem execConfigLayering_waits (h : Waits q s) : Finishes q (execConfigLayering s) := by
  refine .whilePowered h (.ite h (.leaveBoot (.showUcause (.rest (.ite (.flag ?_ ..) ?_)))))
  · split
    exacts [(h.applyPend.checkImages.layered ..).checkRanges.inForce, h.applyPend.checkImages]
  · split
    exacts [(h.applyPend.checkImages.layered ..).checkRanges.inForce, h.applyPend.checkImages]

theorem execInjectionTest_waits (h : Waits q s) (f : TestFaults) : Finishes q (execInjectionTest f s) := by
  refine .whilePowered h (.ite h ?_)
  split
  · exact ((((h.set ..).set ..).set ..).toState ..).derive
  · exact (((h.set ..).set ..).set ..).trigger ..

theorem Waits.loadRegs (h : Waits q s) (p : Program) : Waits q (s.loadRegs p) :=
  .loadTables (.showUse (.forN _ (.set (.set (.set (.set (.forN _ h fun _ _ h1 => h1.setReg ..) ..) ..) ..) ..) fun _ _ h1 => h1.set ..) ..)
   ..

theorem Waits.clearRetain (h : Waits q s) : Waits q s.clearRetain := h.rest

theorem Waits.loadChannels (h : Waits q s) (p : Program) : Waits q (s.loadChannels p) := by
  unfold State.loadChannels
  split
  · exact ((((h.eachCh ..).foldVersion ..).initHome4 ..).eachCh ..).rest.setPair ..
  · exact ((h.eachCh ..).foldVersion ..).initHome4 ..

theorem execProgramLoad_waits (h : Waits q s) (digest : BitVec 256) : Finishes q (execProgramLoad digest s) := by
  refine .whilePowered h (.ite h (.ite (.set (.also (.ite h h.clearRetain) (·.flag ..)) ..) (.ite (.set (.flag (.also (.ite h h.clearRetain)
    (·.flag ..)) ..) ..) ?_)))
  split
  · exact .also (.ite h h.clearRetain) (·.flag ..)
  · exact .rest (.loadChannels (.loadRegs (.rest (.also (.ite h h.clearRetain) (·.flag ..))) ..) ..)

/-! ### Supervision -/

theorem execWatchdogWindowClose_waits (h : Waits q s) (missed : BitVec 3) : Finishes q (execWatchdogWindowClose missed s) :=
  .whilePowered h (.ite h (.ite h.rest (.ite (((h.rest.set ..).incSat ..).trigger ..) (((h.rest.set ..).incSat ..).flag ..))))

theorem execTocsinMonitorTrigger_waits (h : Waits q s) (no : Fin 12) (value : BitVec 16) : Finishes q (execTocsinMonitorTrigger
    no value s) :=
  .whilePowered h (.ite h (.ite (.trigger (.flag (.ite (h.setSupply ..) h) ..) ..) ((h.set ..).trigger ..)))

theorem execClockCheckWindow_waits (h : Waits q s) (devA devB devC : Nat) : Finishes q (execClockCheckWindow devA devB devC s)
    :=
  .whilePowered h (.ite h (.also (.unless (.forN _ h fun _ _ h1 => h1.set ..) (·.flag ..)) (·.trigger ..)))

theorem Waits.powerDown (h : Waits q s) : Waits q s.powerDown :=
  .ite (h.solfatara ..).rest ((h.enterSafe ..).flag ..).rest

theorem Waits.stwCommand (h : Waits q s) (r : Req) (code why : Nat) {act : State → State} (hact : ∀ t, Waits q t → Waits q (act
    t)) : Waits q (s.stwCommand r code why act) :=
  .command h _ _ _ _ _ _ (hact)

theorem execStwRestart_waits (h : Waits q s) (r : Req) : Finishes q (execStwRestart r s) :=
  .whilePowered h (.stwCommand h _ _ _ (fun _ h1 => h1.acceptRestart ..))

theorem execColdstart_waits (h : Waits q s) (r : Req) : Finishes q (execColdstart r s) :=
  .whilePowered h (.stwCommand h _ _ _ (fun _ h1 => h1.acceptRestart ..))

theorem execStwSafe_waits (h : Waits q s) (r : Req) : Finishes q (execStwSafe r s) :=
  .whilePowered h (.stwCommand h _ _ _ (fun _ h1 => h1.trigger ..))

/-! ### Register reads and writes -/

theorem Waits.readFor (h : Waits q s) (r : Req) (off : Nat) : Waits q (s.readFor r off) :=
  .ite (h.stewardLoad ..) (.ite h.rest (by split; next e1 => exact ((h.readWord ..).of_pair e1).rest))

theorem execNowsecLoRead_waits (h : Waits q s) (r : Req) : Finishes q (execNowsecLoRead r s) :=
  .whilePowered h (h.readFor ..)

theorem execLoRegisterRead_waits (h : Waits q s) (r : Req) (off : Nat) : Finishes q (execLoRegisterRead r off s) :=
  .whilePowered h (h.readFor ..)

theorem Waits.holdLo (h : Waits q s) (r : Req) (off : Nat) (v : W32) : Waits q (s.holdLo r off v) :=
  .ite h.rest h

theorem execLoRegisterWrite_waits (h : Waits q s) (r : Req) (off : Nat) (v : W32) : Finishes q (execLoRegisterWrite r off v s)
    :=
  .whilePowered h (h.holdLo ..)

theorem Waits.writeHi (h : Waits q s) (r : Req) (off : Nat) (v : W32) : Waits q (s.writeHi r off v) := by
  unfold State.writeHi
  split
  next e1 =>
  exact .ite ((((h.takeHeld ..).of_pair e1).setReg ..).setReg ..) (.ite ((((h.takeHeld ..).of_pair e1).setReg ..).setReg ..) ((h.takeHeld
    ..).of_pair e1))

theorem execHiRegisterWrite_waits (h : Waits q s) (r : Req) (off : Nat) (v : W32) :
    Finishes q (execHiRegisterWrite r off v s) :=
  .ite (.next h) (.ite (execIncrWrite_waits h ..) (.ite (execTimeStep_waits h ..) (.whilePowered h (h.writeHi ..))))

theorem Waits.undefinedCode (h : Waits q s) (r : Req) (cmd cnt reason : Fld) (why : Nat) :
    Finishes q (s.undefinedCode r cmd cnt reason why) := .next (h.command _ _ _ _ _ _ fun _ h1 => h1)

theorem Finishes.takeValue (cmd cnt : Nat) (v mask : W32) {o : Host.Outcome State Fault Refusal} (ho : Finishes q o) :
    Finishes q (s.takeValue cmd cnt v mask o) := by
  unfold State.takeValue
  split
  · next t =>
    obtain ⟨_, ⟨⟩, ht⟩ := ho.answers
    exact .next (.unless ⟨ht⟩ fun h1 => h1.setReg ..)
  · exact ho

theorem Waits.runCommand (h : Waits q s) (r : Req) (off : Nat) (v : W32) :
    ∀ o ∈ s.runCommand r off v, Finishes q o := by
  have undef (cmd cnt reason : Fld) (why : Nat) := h.undefinedCode r cmd cnt reason why
  refine forall_mem_ite_some
    (.ite (execExchangeStage_waits h ..) (.ite (execExchangeArm_waits h ..) (.ite (execExchangeCancel_waits h ..) (undef ..)))) ?_
  refine forall_mem_ite_some
    (.ite (execForceSet_waits h ..) (.ite (execForceClear_waits h ..) (.ite (execForceClearall_waits h ..) (undef ..)))) ?_
  refine forall_mem_ite_some (.ite (execClearperm_waits h ..) (.next h)) ?_
  refine forall_mem_ite_some (.ite (execTimeForce_waits h ..) (undef ..)) ?_
  refine forall_mem_ite_some (.ite (execClrflt_waits h ..) (undef ..)) ?_
  refine forall_mem_ite_some
    (.ite (execSwitchover_waits h ..) (.ite (execFence_waits h ..) (.ite (execUnfence_waits h ..) (undef ..)))) ?_
  refine forall_mem_ite_some
    (.ite (execStwRestart_waits h ..) (.ite (execColdstart_waits h ..) (.ite (execStwSafe_waits h ..) (undef ..)))) ?_
  rintro _ ⟨⟩

theorem Waits.writeLccmd (h : Waits q s) (r : Req) (v : W32) : Finishes q (s.writeLccmd r v) :=
  .takeValue _ _ _ _ (.ite (execMfg_waits h ..) (.ite (execRelease_waits h ..) (.ite (execDepot_waits h ..)
    (.ite (execService_waits h ..) (.ite (execReturn_waits h ..) (.ite (execRetire_waits h ..) (h.undefinedCode ..)))))))

theorem Waits.storeCommand (h : Waits q s) (r : Req) (off : Nat) (v : W32) :
    ∀ o ∈ s.storeCommand r off v, Finishes q o := by
  refine forall_mem_ite_some (.ite (execCfgStage_waits h ..) (.ite (execCfgActivate_waits h ..) (.ite (execCfgRevert_waits h ..)
    (.ite (execCfgDiscard_waits h ..) (.ite (execCfgLock_waits h ..) (h.undefinedCode ..)))))) ?_
  refine forall_mem_ite_some (.takeValue _ _ _ _ (.ite (execApply_waits h ..) (.ite (execUpdActivate_waits h ..)
    (.ite (execUpdCancel_waits h ..) (.ite (execVerify_waits h ..) (.ite (execOwner_waits h ..) (h.undefinedCode ..))))))) ?_
  refine forall_mem_ite_some (.takeValue _ _ _ _ (.ite (execTestStart_waits h ..) (.ite (execTestStop_waits h ..) (h.undefinedCode ..)))) ?_
  refine forall_mem_ite_some (h.writeLccmd ..) ?_
  rintro _ ⟨⟩

theorem Waits.eventWrite (h : Waits q s) (r : Req) (off : Nat) (v : W32) : ∀ t ∈ s.eventWrite r off v, Waits q t := by
  refine forall_mem_ite_some (h.holdSet ..) (forall_mem_ite_some (h.holdClr ..) (forall_mem_ite_some (h.evComplete ..)
    (forall_mem_ite_some (h.orBits ..) (forall_mem_ite_some (h.orBits ..) (forall_mem_ite_some (.ite (h.setPen ..) h)
    (forall_mem_ite_some (.ite (h.setPen ..) h) (forall_mem_ite_some (h.writeCpend ..) (forall_mem_ite_some (h.writeCmask ..)
    (forall_mem_ite_some (h.evComplete ..) ?_)))))))))
  rintro _ ⟨⟩

theorem Waits.checkReg (h : Waits q s) (off : Nat) : Waits q (s.checkReg off) := by
  refine .ite (.flag (.foldl _ h fun _ _ h1 => ?_) ..) (.ite (.flag (.foldl _ h fun _ _ h1 => ?_) ..) (.ite (.flag (.foldl _ h fun _ _ h1 =>
    ?_) ..) (.ite (.flag (.foldl _ h fun _ _ h1 => ?_) ..) (.also (.foldl _ h fun _ _ h1 => ?_) (·.flag ..)))))
  · split
    exacts [.ite (h1.flag ..) h1, h1]
  · split
    exacts [.ite (h1.flag ..) h1, h1]
  · split
    exacts [.ite (h1.flag ..) h1, h1]
  · split
    exacts [.ite (h1.flag ..) h1, h1]
  · split
    exacts [.ite (h1.flag ..) h1, h1]

theorem Waits.readdress (h : Waits q s) : Waits q s.readdress :=
  .ite h.showUcause (.ite h.rest h.rest.derive)

theorem Waits.writeConfig (h : Waits q s) (off : Nat) (fs : List RegFld) (v : W32) : Waits q (s.writeConfig off fs v) :=
  .ite (.also ((h.setReg ..).checkReg ..) (·.readdress)) h

theorem Waits.writePeriod (h : Waits q s) (v : W32) : Waits q (s.writePeriod v) :=
  .ite (((h.set ..).set ..).set ..) h

theorem Waits.writeScfg (h : Waits q s) (n : Nat) (v : W32) : Waits q (s.writeScfg n v) :=
  .evPoll (.ite ((h.setReg ..).checkReg ..) (.ite (h.set ..) h)) ..

theorem Waits.writeRcfg (h : Waits q s) (ring : Nat) (v : W32) : Waits q (s.writeRcfg ring v) :=
  .ite h (.unless (h.set ..) (·.set ..))

theorem Waits.plainWrite (h : Waits q s) (r : Req) (off : Nat) (fs : List RegFld) (v : W32) : Waits q (s.plainWrite r off fs v) :=
  .ite (h.preqSet ..) (.ite (h.writePeriod ..) (.ite (.ite (h.setReg ..) h) (.ite (.ite (h.set ..) h) (.ite (.ite (h.setPen ..) h) (.ite
    (h.writeScfg ..) (.ite (h.writeRcfg ..) (.ite (h.writeConfig ..) (h.setReg ..).evSense)))))))

theorem Waits.stewardWrite (h : Waits q s) (r : Req) (off : Nat) (v : W32) : Finishes q (s.stewardWrite r off v) := by
  refine .ite (.next (h.postWrite ..)) ?_
  split
  · next o ho =>
    rcases hr : s.runCommand r off v with _ | o'
    · rw [hr] at ho
      exact h.storeCommand r off v o ho
    · rw [hr] at ho
      cases ho
      exact h.runCommand r off v o hr
  · split
    · next t ht => exact .next (h.eventWrite r off v t ht)
    · refine .ite (execExpkeyWrite_waits h ..) (.ite (execConfigCycleWrite_waits h ..) (.ite (.next (h.holdLo ..))
        (.ite (execHiRegisterWrite_waits h ..) (.ite (execRingHeadWrite_waits h ..) (.ite (execRingTailWrite_waits h ..) ?_)))))
      split
      exacts [.next (h.plainWrite ..), .next h]

theorem execRegisterWrite_waits (h : Waits q s) (r : Req) (off : Nat) (v : W32) : Finishes q (execRegisterWrite r off v s) := by
  refine .ite (.next h) ?_
  split
  · exact .whilePowered h (h.progWrite ..)
  · exact .ite (h.stewardWrite ..) (.next h)

/-- Every command keeps the canonical form. -/
theorem exec_waits (h : Waits q s) : ∀ c : Instr, Finishes q (exec c s)
  | .gongTick => .whilePowered h (.ite h h.tickUnits.dropPassed.showHeld.releaseAll.testCheck)
  | .segmentStart .. => .whilePowered h (.ite h (h.beginPhaseRun.startNext ..))
  | .cut => .whilePowered h (.ite h (.set (.ite h.beginPhaseRun.cutWork h.beginPhaseRun) ..))
  | .commit => .whilePowered h (.ite h h.commitFrame)
  | .selfTestSlice .. => .whilePowered h (.ite h ((h.testCheck.startAuto.runSlice ..).issueTokens.set ..))
  | .retainRecordWrite => execRetainRecordWrite_waits h
  | .add .. => .next (h.osrus ..)
  | .sub .. => .next (h.osrus ..)
  | .mul .. => .next (h.osrus ..)
  | .mulh .. => .next (h.osrus ..)
  | .mulhu .. => .next (h.osrus ..)
  | .div .. => .next (h.osrus ..)
  | .divu .. => .next (h.osrus ..)
  | .rem .. => .next (h.osrus ..)
  | .remu .. => .next (h.osrus ..)
  | .andR .. => .next (h.osrus ..)
  | .orR .. => .next (h.osrus ..)
  | .xorR .. => .next (h.osrus ..)
  | .andn .. => .next (h.osrus ..)
  | .sll .. => .next (h.osrus ..)
  | .srl .. => .next (h.osrus ..)
  | .sra .. => .next (h.osrus ..)
  | .minR .. => .next (h.osrus ..)
  | .maxR .. => .next (h.osrus ..)
  | .minu .. => .next (h.osrus ..)
  | .maxu .. => .next (h.osrus ..)
  | .sext .. => .next (h.osrus ..)
  | .zext .. => .next (h.osrus ..)
  | .addi .. => .next (h.osrus ..)
  | .andi .. => .next (h.osrus ..)
  | .ori .. => .next (h.osrus ..)
  | .xori .. => .next (h.osrus ..)
  | .shi .. => .next (h.osrus ..)
  | .ldil .. => .next (h.osrus ..)
  | .ldih .. => .next (h.osrus ..)
  | .ldb .. => .next (h.load ..)
  | .ldbu .. => .next (h.load ..)
  | .ldh .. => .next (h.load ..)
  | .ldhu .. => .next (h.load ..)
  | .ldw .. => .next (h.load ..)
  | .ldwu .. => .next (h.load ..)
  | .ldd .. => .next (h.load ..)
  | .stb .. => .next (h.osrus ..)
  | .sth .. => .next (h.osrus ..)
  | .stw .. => .next (h.osrus ..)
  | .std .. => .next (h.osrus ..)
  | .cand .. => .next (h.osrus ..)
  | .cor .. => .next (h.osrus ..)
  | .cxor .. => .next (h.osrus ..)
  | .cmv .. => .next (h.osrus ..)
  | .cnz .. => .next (h.osrus ..)
  | .mfc .. => .next (h.osrus ..)
  | .tbit .. => .next (h.osrus ..)
  | .cmp .. => .next (h.osrus ..)
  | .cmpi .. => .next (h.osrus ..)
  | .sel .. => .next (h.osrus ..)
  | .bc .. => .next (h.osrus ..)
  | .bsw .. => .next (h.osrus ..)
  | .loop .. => .next (h.osrus ..)
  | .call .. => .next (h.osrus ..)
  | .ret .. => .next (h.osrus ..)
  | .lds .. => .next (h.osrus ..)
  | .sts .. => .next (h.osrus ..)
  | .ldsq .. => .next (h.osrus ..)
  | .ldsc .. => .next (h.osrus ..)
  | .stsc .. => .next (h.osrus ..)
  | .ldsx .. => .next (h.osrus ..)
  | .stsx .. => .next (h.osrus ..)
  | .ldsb .. => .next (h.osrus ..)
  | .stsb .. => .next (h.osrus ..)
  | .ldsL .. => .next (h.osrus ..)
  | .stsL .. => .next (h.osrus ..)
  | .ldsqL .. => .next (h.osrus ..)
  | .ldscL .. => .next (h.osrus ..)
  | .stscL .. => .next (h.osrus ..)
  | .ton .. => .next (h.osrus ..)
  | .tof .. => .next (h.osrus ..)
  | .tp .. => .next (h.osrus ..)
  | .redge .. => .next (h.osrus ..)
  | .fedge .. => .next (h.osrus ..)
  | .ctu .. => .next (h.osrus ..)
  | .ctd .. => .next (h.osrus ..)
  | .sld .. => .next (h.osrus ..)
  | .fadd .. => .next (h.osrus ..)
  | .fsub .. => .next (h.osrus ..)
  | .fmul .. => .next (h.osrus ..)
  | .fdiv .. => .next (h.osrus ..)
  | .fsqrt .. => .next (h.osrus ..)
  | .fmin .. => .next (h.osrus ..)
  | .fmax .. => .next (h.osrus ..)
  | .fabs .. => .next (h.osrus ..)
  | .fneg .. => .next (h.osrus ..)
  | .fcmp .. => .next (h.osrus ..)
  | .fcvti .. => .next (h.osrus ..)
  | .fcvtf .. => .next (h.osrus ..)
  | .fcvts .. => .next (h.osrus ..)
  | .frnd .. => .next (h.osrus ..)
  | .nop .. => .next (h.osrus ..)
  | .sync .. => .next (h.osrus ..)
  | .yield .. => .next ((h.osrus ..).finishSeg ..)
  | .yieldE .. => .next ((h.osrus ..).finishSeg ..)
  | .faultI .. => .next (h.osrus ..)
  | .evtC .. => execEvtC_waits h ..
  | .evtD .. => .next (h.osrus ..)
  | .mfs .. => .next (h.osrus ..)
  | .mts .. => .next (h.osrus ..)
  | .windowTimeout .. => .whilePowered h (h.onEngine ..)
  | .vote .. => .whilePowered h (h.voterFaults ..).voteFront
  | .delayParityError .. => execDelayParityError_waits h ..
  | .captureParityError => .whilePowered h (h.trigger ..)
  | .referenceLoss .. => .whilePowered h (h.flag ..)
  | .resyncBulkCopyDone .. => .whilePowered h (.ite h (((h.setCh ..).setChRec ..).set ..))
  | .degtimeWarning => .whilePowered h (.ite (h.flag ..) h)
  | .degtimeLimit => .whilePowered h (.ite (h.trigger ..) h)
  | .clearperm .. => execClearperm_waits h ..
  | .injectionTest .. => execInjectionTest_waits h ..
  | .frameReceive .. => execFrameReceive_waits h ..
  | .telegramAccept => execTelegramAccept_waits h
  | .subscribeTimeout .. => .whilePowered h (.ite h ((((h.setSub ..).incSat ..).flag ..).telUpdate ..))
  | .directorySweep .. => .whilePowered h (.ite (h.freshCheck ..) h)
  | .forceSet .. => execForceSet_waits h ..
  | .forceClear .. => execForceClear_waits h ..
  | .forceClearall .. => execForceClearall_waits h ..
  | .stewardSignalWrite .. => execStewardSignalWrite_waits h ..
  | .exchangeStage .. => execExchangeStage_waits h ..
  | .exchangeArm .. => execExchangeArm_waits h ..
  | .exchangeCancel .. => execExchangeCancel_waits h ..
  | .exchangeFillDone => execExchangeFillDone_waits h
  | .exchangePersist .. => execExchangePersist_waits h ..
  | .powerInputValid .. => execPowerInputValid_waits h ..
  | .restartBegin => .whilePowered h (.ite h (h.beginStart ..))
  | .slotCodeSample .. => execSlotCodeSample_waits h ..
  | .plugRead .. => .whilePowered h (.ite h (h.plugDone ..))
  | .plugReadRetry .. => .whilePowered h (.ite h (.ite (h.rest.plugDone ..) h.rest))
  | .imageCheck => execImageCheck_waits h
  | .processorLoad .. => execProcessorLoad_waits h ..
  | .tocsinConfigConfirmed => .whilePowered h (.ite h h.rest.leaveBoot)
  | .tocsinConfirmTimeout => .whilePowered h (.ite (h.set ..) h)
  | .configLayering => execConfigLayering_waits h
  | .programLoad .. => execProgramLoad_waits h ..
  | .storeCharged .. => .whilePowered h (.ite h ((h.set ..).set ..))
  | .startRoleDecision .. => execStartRoleDecision_waits h ..
  | .heartbeatSend => .whilePowered h (.ite (h.send ..) h)
  | .heartbeatReceive .. => .whilePowered h ((h.rest.set ..).hbRole ..).testCheck
  | .heartbeatTimeout => execHeartbeatTimeout_waits h
  | .pairActInAccept .. => .whilePowered h (.unless (h.set ..) fun h1 => .ite h1.rest (.ite (h1.set ..).rest h1))
  | .fencedPromotionTimer => .whilePowered h (.ite (h.promote ..) h)
  | .geyserDataReceive .. => .whilePowered h (.ite h h.rest)
  | .geyserEndReceive .. => .whilePowered h (h.endCopy ..)
  | .geyserAckReceive .. => execGeyserAckReceive_waits h ..
  | .ackMiss .. => execAckMiss_waits h ..
  | .bulkReceive .. => execBulkReceive_waits h ..
  | .bulkendReceive .. => .whilePowered h (.ite h (.foldl _ h.rest fun _ _ h1 => h1.endCopy ..))
  | .ctrlReceive .. => .whilePowered h (.ite h.rest h)
  | .geyserLaneLoss .. => .whilePowered h ((h.putBit ..).flag ..)
  | .switchover .. => execSwitchover_waits h ..
  | .fence .. => execFence_waits h ..
  | .unfence .. => execUnfence_waits h ..
  | .inputLevelAccepted .. => .whilePowered h (.ite h (h.setInp ..))
  | .inputFaultDetected .. => execInputFaultDetected_waits h ..
  | .inputFaultCleared .. => .whilePowered h (.ite h ((h.setInp ..).showFaults ..))
  | .testPulseStart .. => .whilePowered h h.rest
  | .testPulseEnd .. => .whilePowered h h.rest
  | .pairDiscrepancyFault .. => .whilePowered h (.ite (((h.setBit ..).flag ..).ioRecord ..) h)
  | .outputTestPulseStart .. => execOutputTestPulseStart_waits h ..
  | .outputTestPulseEnd .. => .whilePowered h (h.judgePulse ..)
  | .outputFaultDetected .. => execOutputFaultDetected_waits h ..
  | .overcurrentRelease .. => .whilePowered h (.ite h (.unless (h.setOutp ..) (·.faultGone ..)))
  | .outputFaultCleared .. => execOutputFaultCleared_waits h ..
  | .clrflt .. => execClrflt_waits h ..
  | .wheelSpeedEdge .. => .whilePowered h (.ite h (.ite (h.showSen ..) ((h.showSen ..).inc ..)))
  | .sensorFault .. => .whilePowered h (.ite h ((((h.showSen ..).incSat ..).senLost ..).ioRecord ..))
  | .sensorGood .. => .whilePowered h (.ite (h.set ..) h)
  | .speedNormalEntry => .whilePowered h (.ite ((h.set ..).set ..) h)
  | .speedDiscrepancyTimeout => .whilePowered h (.ite ((h.flag ..).spdUnknown ..) h)
  | .singleSensorLimit => .whilePowered h (.ite (h.spdUnknown ..) h)
  | .ssusedWarning => .whilePowered h (.ite (h.flag ..) h)
  | .ssusedReset => .whilePowered h (.ite (h.set ..) h)
  | .pdTelegramLaunch => execPdTelegramLaunch_waits h
  | .txDescriptorLaunch .. => execTxDescriptorLaunch_waits h ..
  | .ringHeadWrite .. => execRingHeadWrite_waits h ..
  | .ringTailWrite .. => execRingTailWrite_waits h ..
  | .bridgeForward .. => .whilePowered h (.ite h (.unless (h.learn ..) (·.send ..)))
  | .prpSupervisionSend => .whilePowered h (.ite (h.trailer.send ..) h)
  | .prpLanLoss .. => .whilePowered h (.ite (h.rest.showLans.flag ..) h)
  | .linkChange .. => .whilePowered h (.ite h ((h.set ..).flag ..))
  | .inauguration .. => execInauguration_waits h ..
  | .ttdbReadDone .. => .whilePowered h (.ite h ((h.rest.set ..).set ..).derive)
  | .arpProbeDone => .whilePowered h (.ite h.rest h)
  | .arpConflict => .whilePowered h (.ite h (h.flag ..).rest.becomeUnaddressed)
  | .arpReprobe => .whilePowered h (.ite h.rest.derive h)
  | .ptpOffsetMeasurement .. => execPtpOffsetMeasurement_waits h ..
  | .announceReceiptTimeout => .whilePowered h (.ite (h.toSync ..).dropMaster h.dropMaster)
  | .announceReceive .. => execAnnounceReceive_waits h ..
  | .incrWrite .. => execIncrWrite_waits h ..
  | .timeStep .. => execTimeStep_waits h ..
  | .timeForce .. => execTimeForce_waits h ..
  | .solfataraTimeCopy => .whilePowered h (.ite h.rest h)
  | .nowsecLoRead .. => execNowsecLoRead_waits h ..
  | .loRegisterRead .. => execLoRegisterRead_waits h ..
  | .loRegisterWrite .. => execLoRegisterWrite_waits h ..
  | .hiRegisterWrite .. => execHiRegisterWrite_waits h ..
  | .registerWrite .. => execRegisterWrite_waits h ..
  | .eventSourceAssert .. => .whilePowered h (.evPoll (.ite (h.putBit ..) h) ..)
  | .eventSourceWithdraw .. => .whilePowered h (.evPoll (.ite (h.putBit ..) h) ..)
  | .eventDelivery .. => .whilePowered h (h.evDeliverFirst ..)
  | .eventClaim .. => .whilePowered h (.ite h.rest (h.claimFor ..))
  | .eventComplete .. => .whilePowered h (.ite h (h.evComplete ..))
  | .holdset .. => .whilePowered h (.ite h (h.holdSet ..))
  | .holdclr .. => .whilePowered h (.ite h (h.holdClr ..))
  | .pset .. => .whilePowered h (.ite h (h.orBits ..))
  | .swset .. => .whilePowered h (.ite h (h.orBits ..))
  | .penset .. => .whilePowered h (.ite h (h.setPen ..))
  | .penclr .. => .whilePowered h (.ite h (h.setPen ..))
  | .cpendWrite .. => .whilePowered h (.ite h (h.writeCpend ..))
  | .cmaskWrite .. => .whilePowered h (.ite h (h.writeCmask ..))
  | .cvecRead .. => .whilePowered h (.ite h.rest (h.claimFor ..))
  | .cackWrite .. => .whilePowered h (.ite h (h.evComplete ..))
  | .postedWriteComplete .. => execPostedWriteComplete_waits h ..
  | .postedWriteDiscard => execPostedWriteDiscard_waits h
  | .delayedReadComplete .. => execDelayedReadComplete_waits h ..
  | .delayedReadDiscard .. => execDelayedReadDiscard_waits h ..
  | .cpciInboundWrite .. => execCpciInboundWrite_waits h ..
  | .inboundLock .. => execInboundLock_waits h ..
  | .serrSensed => .whilePowered h (h.flag ..)
  | .dutiesTakeAfterPromotion .. => .whilePowered h (.ite (((h.set ..).testCheck.set ..).setBus ..) h)
  | .cpciResetRelease => .whilePowered h (.ite h.rest h)
  | .cardConfiguration .. => execCardConfiguration_waits h ..
  | .configCycleRead .. => execConfigCycleRead_waits h ..
  | .configCycleWrite .. => execConfigCycleWrite_waits h ..
  | .cfgStage .. => execCfgStage_waits h ..
  | .cfgActivate .. => execCfgActivate_waits h ..
  | .cfgRevert .. => execCfgRevert_waits h ..
  | .cfgDiscard .. => execCfgDiscard_waits h ..
  | .cfgLock .. => execCfgLock_waits h ..
  | .expchalRead .. => execExpchalRead_waits h ..
  | .expkeyWrite .. => execExpkeyWrite_waits h ..
  | .expertTimeout => .whilePowered h (.ite h.lockExpert h)
  | .packageHeaderReceived .. => execPackageHeaderReceived_waits h ..
  | .packageReceived .. => execPackageReceived_waits h ..
  | .apply .. => execApply_waits h ..
  | .applyDone => execApplyDone_waits h
  | .updActivate .. => execUpdActivate_waits h ..
  | .updCancel .. => execUpdCancel_waits h ..
  | .verify .. => execVerify_waits h ..
  | .owner .. => execOwner_waits h ..
  | .ochalRead .. => .whilePowered h (.ite h.rest (h.readOchal ..).rest)
  | .attestationRequest .. => .whilePowered h (.ite h ((h.send ..).inc ..))
  | .maintenanceSessionOpen .. => .whilePowered h (.ite h.rest h)
  | .watchdogWindowClose .. => execWatchdogWindowClose_waits h ..
  | .tocsinMonitorTrigger .. => execTocsinMonitorTrigger_waits h ..
  | .tocsinWarning .. => .whilePowered h (.ite h ((h.set ..).flag ..))
  | .clockCheckWindow .. => execClockCheckWindow_waits h ..
  | .tocsinOscDeviation => .whilePowered h (.ite (h.trigger ..) h)
  | .tocsinLivenessLost => .whilePowered h (.ite (h.trigger ..) h)
  | .solfataraStoreLow .. => .whilePowered h (.ite h (((h.set ..).flag ..).trigger ..))
  | .externalRequest .. => .whilePowered h (.ite h ((h.flag ..).trigger ..))
  | .safeStateTrigger .. => .whilePowered h (.ite h (h.trigger ..))
  | .retainBufferCutoff .. => execRetainBufferCutoff_waits h ..
  | .powerFailure .. => .whilePowered h (.ite h (((((h.setSupply ..).set ..).flag ..).inc ..).fumarole ..).rest)
  | .powerDown => .whilePowered h (.ite h (.powerDown (.ite h.commitFrame h)))
  | .powerRecovered .. => .whilePowered h (.ite h ((h.setSupply ..).set ..).rest)
  | .holdupEnd => .whilePowered h (.ite h.rest h)
  | .stwRestart .. => execStwRestart_waits h ..
  | .coldstart .. => execColdstart_waits h ..
  | .stwSafe .. => execStwSafe_waits h ..
  | .mfg .. => execMfg_waits h ..
  | .release .. => execRelease_waits h ..
  | .depot .. => execDepot_waits h ..
  | .service .. => execService_waits h ..
  | .returnC .. => execReturn_waits h ..
  | .retire .. => execRetire_waits h ..
  | .testStart .. => execTestStart_waits h ..
  | .testStop .. => execTestStop_waits h ..
  | .geyserTestPartnerTimeout => .whilePowered h (.ite (h.testEnd ..) h)
  | .geyserLaneUp .. => .whilePowered h (h.putBit ..)
  | .maintenanceSessionClose => .whilePowered h h.rest
  | .configImageReceived .. => .whilePowered h (.ite h ((h.rest.set ..).set ..))
  | .ownerMessageReceived .. => .whilePowered h (.ite h h.rest)
  | .factoryIdentityRecordWrite .. => .whilePowered h (.ite h h.rest)

/-- Settles O23: each arm of `exec` answers a next state by a chain of operations that leave the queue as it is. -/
theorem everyCommandCompletesAndKeepsTheQueue : Obligations.EveryCommandCompletesAndKeepsTheQueue := fun c _ => (exec_waits ⟨rfl⟩ c).answers

end Sys2Proof.Machine
end

section
/-! PROOF. The tick edge (R74, R76, R368): force commands, the force table and a life-cycle command take effect. -/

namespace Sys2Proof.Machine

/-! ### The force table -/

/-- The force on signal `id` in a table. -/
def forceIn (t : List ForceEnt) (id : Nat) : Option ForceEnt := t.find? fun f => f.id = id

theorem forceOf_eq (s : State) (id : Nat) : s.forceOf id = forceIn s.forces id := rfl

theorem forceIn_isSome {t : List ForceEnt} {id : Nat} : (forceIn t id).isSome = true ↔ ∃ f ∈ t, f.id = id := by
  simp [forceIn, List.find?_isSome]

theorem forceIn_eq_none {t : List ForceEnt} {id : Nat} : forceIn t id = none ↔ ∀ f ∈ t, f.id ≠ id := by
  simp [forceIn, List.find?_eq_none]

theorem forceIn_filter (t : List ForceEnt) (p : Nat → Bool) (id : Nat) :
    forceIn (t.filter fun f => p f.id) id = if p id then forceIn t id else none := by
  induction t with
  | nil => split <;> rfl
  | cons f t ih =>
    by_cases hf : f.id = id
    · cases hp : p id
      · rw [List.filter_cons_of_neg (by simp [hf, hp]), ih, hp]
        rfl
      · rw [List.filter_cons_of_pos (by simp [hf, hp]), forceIn, List.find?_cons_of_pos (by simp [hf]), if_pos rfl, forceIn,
          List.find?_cons_of_pos (by simp [hf])]
    · have hrest : forceIn (f :: t) id = forceIn t id := List.find?_cons_of_neg (by simp [hf])
      rw [hrest, ← ih]
      cases hp : p f.id
      · rw [List.filter_cons_of_neg (by simp [hp])]
      · rw [List.filter_cons_of_pos (by simp [hp])]
        exact List.find?_cons_of_neg (by simp [hf])

/-- What a command makes of the force on signal `id` in frame `frame`. -/
def ForceCmd.on (frame : W32) (id : Nat) (old : Option ForceEnt) : ForceCmd → Option ForceEnt
  | .set k v => if k = id then some ⟨id, frame, v⟩ else old
  | .clear k => if k = id then none else old
  | .clearAll => none

theorem forceIn_replace (frame : W32) (t : List ForceEnt) (k : Nat) (v : Word) (id : Nat) :
    forceIn (t.map fun f => if f.id = k then ⟨k, frame, v⟩ else f) id =
      if k = id then (forceIn t id).map fun _ => ⟨id, frame, v⟩ else forceIn t id := by
  induction t with
  | nil => split <;> rfl
  | cons f t ih =>
    rw [forceIn, List.map_cons, List.find?_cons, ← forceIn, ih, forceIn, forceIn, List.find?_cons]
    by_cases hk : f.id = k <;> by_cases hi : k = id
    · subst hi
      simp [hk]
    · have : f.id ≠ id := hk ▸ hi
      simp [hk, hi]
    · have : f.id ≠ id := hi ▸ hk
      simp [hi, this]
    · simp only [if_neg hk, if_neg hi]

theorem forceIn_apply (frame : W32) (t : List ForceEnt) (c : ForceCmd) (id : Nat) :
    forceIn (forceApply frame t c) id = c.on frame id (forceIn t id) := by
  cases c with
  | set k v =>
    rw [forceApply, ForceCmd.on]
    split
    · next hany =>
      rw [forceIn_replace]
      split
      · next hk =>
        have hsome : (forceIn t id).isSome = true := forceIn_isSome.2 (by simpa [hk] using hany)
        obtain ⟨f, hf⟩ := Option.isSome_iff_exists.1 hsome
        rw [hf]
        rfl
      · rfl
    · next hany =>
      rw [forceIn, List.find?_append]
      by_cases hk : k = id
      · have hnone : forceIn t id = none := forceIn_eq_none.2 (by simpa [hk] using hany)
        rw [← forceIn, hnone, if_pos hk, Option.none_or]
        simp [hk]
      · rw [← forceIn, if_neg hk]
        simp [hk]
  | clear k =>
    rw [forceApply, ForceCmd.on]
    have h := forceIn_filter t (fun x => x != k) id
    rw [h]
    by_cases hk : k = id
    · simp [hk]
    · simp [hk, Ne.symm hk]
  | clearAll => rfl

theorem forceIn_applyAll (frame : W32) (l : List ForceCmd) (t : List ForceEnt) (id : Nat) :
    forceIn (l.foldl (forceApply frame) t) id = l.foldl (ForceCmd.on frame id) (forceIn t id) := by
  induction l generalizing t with
  | nil => rfl
  | cons c l ih => rw [List.foldl_cons, List.foldl_cons, ih, forceIn_apply]

/-- The command speaks of signal `id`. -/
def ForceCmd.names (id : Nat) : ForceCmd → Bool
  | .set k _ => k == id
  | .clear k => k == id
  | .clearAll => true

/-- Of several commands on a signal the last decides. -/
theorem force_last (frame : W32) (id : Nat) (l : List ForceCmd) (o : Option ForceEnt) :
    l.foldl (ForceCmd.on frame id) o = match (l.filter (ForceCmd.names id)).getLast? with
      | none => o
      | some (.set _ v) => some ⟨id, frame, v⟩
      | some _ => none := by
  induction l using List.reverseRecOn with
  | nil => rfl
  | append_singleton l c ih =>
    rw [List.foldl_append, List.foldl_cons, List.foldl_nil, List.filter_append]
    cases hc : c.names id
    · rw [List.filter_cons_of_neg (by rw [hc]; decide), List.filter_nil, List.append_nil, ← ih]
      cases c <;> simp_all [ForceCmd.names, ForceCmd.on]
    · rw [List.filter_cons_of_pos hc, List.filter_nil, List.getLast?_append]
      cases c <;> simp_all [ForceCmd.names, ForceCmd.on]

/-! ### FORCED -/

/-- Two entries that differ by FORCED at most. -/
structure ForcedApart (x y : DirEnt) : Prop where
  eq : y = { x with w3 := y.w3 }
  valid : fieldOf y.w3 0 1 = fieldOf x.w3 0 1
  other : fieldOf y.w3 2 30 = fieldOf x.w3 2 30

theorem ForcedApart.refl (x : DirEnt) : ForcedApart x x := ⟨rfl, rfl, rfl⟩

theorem ForcedApart.trans {x y z : DirEnt} (h : ForcedApart x y) (k : ForcedApart y z) : ForcedApart x z :=
  ⟨by rw [k.eq, h.eq], k.valid.trans h.valid, k.other.trans h.other⟩

theorem setForced_apart (x : DirEnt) (b : Bool) : ForcedApart x (x.setForced b) :=
  ⟨rfl, fieldOf_withField_ne _ _ (by decide) (by decide), fieldOf_withField_ne _ _ (by decide) (by decide)⟩

theorem setForced_forced (x : DirEnt) (b : Bool) : fieldOf (x.setForced b).w3 1 1 = b2n b :=
  (fieldOf_withField_same _ _ (by decide)).trans (by cases b <;> rfl)

/-- FORCED is written in the entries listed. -/
theorem markForced_dir (c : Chan) (ids : List Nat) (b : Bool) {id : Nat} {x : DirEnt} (h : tblFind c.dir id = some x) :
    ∃ y, tblFind (c.markForced ids b).dir id = some y ∧ ForcedApart x y ∧ (id ∈ ids → fieldOf y.w3 1 1 = b2n b) ∧ (id ∉ ids → y = x) := by
  show ∃ y, tblFind (ids.foldl (fun d id => tblMod d id (·.setForced b)) c.dir) id = some y ∧ _
  induction ids using List.reverseRecOn with
  | nil => exact ⟨x, h, .refl x, fun hm => (List.not_mem_nil hm).elim, fun _ => rfl⟩
  | append_singleton ids k ih =>
    obtain ⟨y, hy, ha, hin, hout⟩ := ih
    rw [List.foldl_append, List.foldl_cons, List.foldl_nil]
    by_cases hk : id = k
    · subst hk
      rw [tblFind_mod_same, hy]
      exact ⟨y.setForced b, rfl, ha.trans (setForced_apart y b), fun _ => setForced_forced y b, fun hn => absurd (by simp) hn⟩
    · rw [tblFind_mod_ne _ _ hk]
      exact ⟨y, hy, ha, fun hm => hin (by simpa [hk] using hm), fun hn => hout fun hm => hn (by simp [hm])⟩

/-- The frame of a replacement of the force table. -/
theorem setForces_frame (s : State) (t : List ForceEnt) :
    s.setForces t = { s with forces := t, chA := (s.setForces t).chA, chB := (s.setForces t).chB, chC := (s.setForces t).chC } := by
  unfold State.setForces
  dsimp only
  rw [mapCh_eq, eachCh_eq]

theorem setForces_dir (s : State) (t : List ForceEnt) {ch : Ch} (hf : s.follows ch = true) {id : Nat} {x : DirEnt} (h : tblFind (s.ch ch).dir id = some x) :
    ∃ y, tblFind ((s.setForces t).ch ch).dir id = some y ∧ ForcedApart x y ∧ ((forceIn t id).isSome = true → fieldOf y.w3 1 1 = 1) ∧
      (forceIn t id = none → (s.forceOf id).isSome = true → fieldOf y.w3 1 1 = 0) := by
  have hch : (s.setForces t).ch ch = ((s.ch ch).markForced ((s.forces.map (·.id)).filter fun id => !t.any fun f => f.id = id) false).markForced
      (t.map (·.id)) true := by
    unfold State.setForces
    exact (mapCh_ch ..).trans (if_pos hf)
  have hin : id ∈ t.map (·.id) ↔ (forceIn t id).isSome = true := by rw [forceIn_isSome, List.mem_map]
  obtain ⟨y, hy, ha, hgone, -⟩ := markForced_dir (s.ch ch) ((s.forces.map (·.id)).filter fun id => !t.any fun f => f.id = id) false h
  obtain ⟨z, hz, hb, hset, hkeep⟩ := markForced_dir _ (t.map (·.id)) true hy
  rw [hch]
  refine ⟨z, hz, ha.trans hb, fun hs => hset (hin.2 hs), fun hn ho => ?_⟩
  rw [hkeep fun hm => by rw [hin, hn] at hm; cases hm]
  refine hgone (List.mem_filter.2 ⟨?_, ?_⟩)
  · exact List.mem_map.2 (forceIn_isSome.1 ho)
  · have := forceIn_eq_none.1 hn
    simpa using this

/-- The force commands accepted take effect (R74). -/
theorem forceTick_eq (s : State) (h : s.fcmds ≠ []) :
    s.forceTick = { s.setForces (s.fcmds.foldl (forceApply (BitVec.ofNat 32 s.gong.frame)) s.forces) with fcmds := [] } := if_neg h

theorem forceTick_frame (s : State) :
    s.forceTick = { s with fcmds := [], forces := s.forceTick.forces, chA := s.forceTick.chA, chB := s.forceTick.chB, chC := s.forceTick.chC } := by
  by_cases h : s.fcmds = []
  · rw [State.forceTick, if_pos h]
    generalize hl : s.fcmds = l at h
    subst h
    cases s
    cases hl
    rfl
  · rw [forceTick_eq s h]
    have hu := setForces_frame s (s.fcmds.foldl (forceApply (BitVec.ofNat 32 s.gong.frame)) s.forces)
    generalize s.setForces _ = u at hu ⊢
    rw [hu]

theorem forceTick_force (s : State) (id : Nat) : s.forceTick.forceOf id = match (s.fcmds.filter (ForceCmd.names id)).getLast? with
    | none => s.forceOf id
    | some (.set _ v) => some ⟨id, BitVec.ofNat 32 s.gong.frame, v⟩
    | some _ => none := by
  have hall := (forceIn_applyAll (BitVec.ofNat 32 s.gong.frame) s.fcmds s.forces id).trans (force_last ..)
  by_cases h : s.fcmds = []
  · rw [State.forceTick, if_pos h, h]
    rfl
  · have hu : (s.setForces (s.fcmds.foldl (forceApply (BitVec.ofNat 32 s.gong.frame)) s.forces)).forces =
      s.fcmds.foldl (forceApply (BitVec.ofNat 32 s.gong.frame)) s.forces := rfl
    rw [forceTick_eq s h, forceOf_eq]
    dsimp only
    rw [hu, hall]
    rfl

theorem forceTick_dir (s : State) {ch : Ch} (hf : s.follows ch = true) {id : Nat} {x : DirEnt} (h : tblFind (s.ch ch).dir id = some x) :
    ∃ y, tblFind (s.forceTick.ch ch).dir id = some y ∧ ForcedApart x y ∧
      (s.fcmds ≠ [] → (s.forceTick.forceOf id).isSome = true → fieldOf y.w3 1 1 = 1) ∧
      (s.forceTick.forceOf id = none → (s.forceOf id).isSome = true → fieldOf y.w3 1 1 = 0) := by
  by_cases hc : s.fcmds = []
  · rw [State.forceTick, if_pos hc]
    exact ⟨x, h, .refl x, fun hn => absurd hc hn, fun hn hs => by rw [hn] at hs; cases hs⟩
  · obtain ⟨y, hy, ha, hset, hclear⟩ := setForces_dir s (s.fcmds.foldl (forceApply (BitVec.ofNat 32 s.gong.frame)) s.forces) hf h
    have hu := setForces_frame s (s.fcmds.foldl (forceApply (BitVec.ofNat 32 s.gong.frame)) s.forces)
    rw [forceTick_eq s hc]
    generalize s.setForces _ = u at hu hy ⊢
    have hforce : State.forceOf { u with fcmds := [] } id = forceIn (s.fcmds.foldl (forceApply (BitVec.ofNat 32 s.gong.frame)) s.forces) id := by
      rw [forceOf_eq]
      dsimp only
      rw [hu]
    rw [hforce]
    exact ⟨y, hy, ha, fun _ => hset, hclear⟩

/-! ### Forces removed (R76) -/

/-- The removal of the forces on the signals of `ids`. -/
structure ForcesDropped (s u : State) (ids : List Nat) : Prop where
  frame : u = { s with
    regs := u.regs
    forces := s.forces.filter fun f => !ids.contains f.id
    chA := u.chA
    chB := u.chB
    chC := u.chC
    fum := u.fum
    fumPos := u.fumPos }
  regs : RegsKept s u [R.SIG.FLAG.FDROP.off, R.SUP.FUMSEQ.SEQ.off]
  flag : (∃ f ∈ s.forces, ids.contains f.id = true) → u.get R.SIG.FLAG.FDROP = 1

theorem foldl_fumarole {α : Type} (l : List α) (type src code : Nat) (data : α → List Byte) (s : State) :
    let u := l.foldl (fun t a => t.fumarole type src code (data a)) s
    u = { s with regs := u.regs, fum := u.fum, fumPos := u.fumPos } ∧ RegsKept s u [R.SUP.FUMSEQ.SEQ.off] := by
  induction l generalizing s with
  | nil => exact ⟨rfl, fun _ _ => rfl⟩
  | cons a l ih =>
    have hregs := fumarole_regs s type src code (data a)
    have hf : s.fumarole type src code (data a) = { s with
      regs := (s.fumarole type src code (data a)).regs
      fum := (s.fumarole type src code (data a)).fum
      fumPos := (s.fumarole type src code (data a)).fumPos } := rfl
    obtain ⟨hu, hk⟩ := ih (s.fumarole type src code (data a))
    dsimp only
    rw [List.foldl_cons]
    generalize s.fumarole type src code (data a) = v at hregs hf hu hk ⊢
    generalize l.foldl (fun t a => t.fumarole type src code (data a)) v = w at hu hk ⊢
    exact ⟨by rw [hu, hf], fun o ho => (hk o ho).trans (hregs o ho)⟩

theorem dropForces_dropped (s : State) (ids : List Nat) : ForcesDropped s (s.dropForces ids) ids := by
  have hgone : (s.forces.map (·.id)).filter (fun id => ids.contains id) = [] ↔ ¬ ∃ f ∈ s.forces, ids.contains f.id = true := by
    rw [List.filter_eq_nil_iff]
    simp
  unfold State.dropForces
  dsimp only
  split
  · next h =>
    have hsame : s.forces.filter (fun f => !ids.contains f.id) = s.forces :=
      List.filter_eq_self.2 fun f hf => by
        have := fun hc => hgone.1 h ⟨f, hf, hc⟩
        simpa using this
    refine ⟨?_, fun _ _ => rfl, fun hf => absurd hf (hgone.1 h)⟩
    rw [hsame]
  · have hset := setForces_frame s (s.forces.filter fun f => !ids.contains f.id)
    generalize s.setForces (s.forces.filter fun f => !ids.contains f.id) = v at hset ⊢
    have hreg : RegsKept s v [] := fun o _ => by rw [State.reg, State.reg, hset]
    have hflag := RegsKept.set v R.SIG.FLAG.FDROP 1
    have hw : v.flag R.SIG.FLAG.FDROP = { v with regs := (v.flag R.SIG.FLAG.FDROP).regs } := rfl
    have hone : (v.flag R.SIG.FLAG.FDROP).get R.SIG.FLAG.FDROP = 1 := get_set_same v (f := R.SIG.FLAG.FDROP) 1 (by decide)
    obtain ⟨hu, hk⟩ := foldl_fumarole ((s.forces.map (·.id)).filter fun id => ids.contains id) 0x0C 0x03 0 (leBytes 4) (v.flag R.SIG.FLAG.FDROP)
    change RegsKept v (v.flag R.SIG.FLAG.FDROP) _ at hflag
    generalize v.flag R.SIG.FLAG.FDROP = w at hflag hw hone hu hk ⊢
    generalize List.foldl (fun t id => t.fumarole 0x0C 0x03 0 (leBytes 4 id)) w _ = u at hu hk ⊢
    refine ⟨?_, (hreg.trans (hflag.trans hk)).mono (by simp), fun _ => (regsKept_get hk (by decide)).trans hone⟩
    rw [hu, hw, hset]

/-- The signal is of SCLASS 1 to 4 in the leading channel. -/
def State.sil (s : State) (id : Nat) : Bool := match s.dirEnt id with
  | some e => decide (1 ≤ e.sclass) && decide (e.sclass ≤ 4)
  | none => false

theorem sil_iff (s : State) (id : Nat) : s.sil id = true ↔ ∃ x, s.dirEnt id = some x ∧ 1 ≤ x.sclass ∧ x.sclass ≤ 4 := by
  unfold State.sil
  cases s.dirEnt id <;> simp

/-- What the removal of R76 leaves. -/
structure SilDropped (s u : State) : Prop where
  force : ∀ id, (s.sil id = true → u.forceOf id = none) ∧ (s.sil id = false → u.forceOf id = s.forceOf id)
  flag : (∃ f ∈ s.forces, s.sil f.id = true) → u.get R.SIG.FLAG.FDROP = 1

theorem dropSil_dropped (s : State) : ForcesDropped s s.dropSil ((s.forces.map (·.id)).filter s.sil) := by
  have h : s.dropSil = s.dropForces ((s.forces.map (·.id)).filter s.sil) := rfl
  rw [h]
  exact dropForces_dropped ..

theorem ForcesDropped.sil {s u : State} (h : ForcesDropped s u ((s.forces.map (·.id)).filter s.sil)) : SilDropped s u := by
  have hmem {f : ForceEnt} (hf : f ∈ s.forces) : ((s.forces.map (·.id)).filter s.sil).contains f.id = s.sil f.id := by
    rw [Bool.eq_iff_iff, List.contains_iff_mem, List.mem_filter]
    exact ⟨fun h => h.2, fun h => ⟨List.mem_map.2 ⟨f, hf, rfl⟩, h⟩⟩
  have hforces : u.forces = s.forces.filter fun f => !s.sil f.id := by
    rw [h.frame]
    exact List.filter_congr fun f hf => by rw [hmem hf]
  refine ⟨fun id => ?_, fun ⟨f, hf, hs⟩ => h.flag ⟨f, hf, (hmem hf).trans hs⟩⟩
  rw [forceOf_eq, hforces, forceIn_filter s.forces (fun id => !s.sil id) id]
  exact ⟨fun h => by rw [h]; rfl, fun h => by rw [h]; rfl⟩

/-! ### The end of a self-test (R374, R375) -/

/-- The result that a test's end records (Table 17-4). -/
def State.testResult (s : State) (cause : Nat) : Nat := if cause != 0 then 4 else if s.bist.bad then 3 else 2

/-- The fields that a test's end writes. -/
def State.testResults (s : State) (n cause : Nat) : List (Fld × Nat) :=
  [(R.BIST.STATUS.RUN, 0), (R.BIST.STATUS.MANUAL, 0), (R.BIST.RES.RESULT n, s.testResult cause), (R.BIST.RES.PARTBAD n, b2n (cause != 0 && s.bist.bad)),
    (R.BIST.RES.ABCAUSE n, cause), (R.BIST.RES.SLICES n, s.get R.BIST.PROG.DONE), (R.BIST.DET.FAILCNT n, min s.bist.failed 0xFFFF),
    (R.BIST.DET.ITEM n, s.bist.item), (R.BIST.FLAG.DONE, 1)] ++
  if s.testResult cause = 3 then [(R.BIST.FLAG.FAIL, 1)] else if s.testResult cause = 4 then [(R.BIST.FLAG.INCOMPLETE, 1)] else []

/-- The fields of a list are written one after the other. -/
def State.setAll (s : State) (l : List (Fld × Nat)) : State := l.foldl (fun t p => t.set p.1 p.2) s

/-- Each field lies in its word and beside those before it. -/
def apartAll (fs : List Fld) : Bool := fs.all Fld.ok && decide (fs.Pairwise fun g f => f.apart g = true)

/-- Fields that share no bit hold what was written to them. -/
theorem setAll_fields (s : State) (l : List (Fld × Nat)) (h : apartAll (l.map (·.1)) = true) : OnlyFields s (s.setAll l) l := by
  rw [apartAll, Bool.and_eq_true, List.all_eq_true, decide_eq_true_eq] at h
  obtain ⟨hok, hpair⟩ := h
  induction l using List.reverseRecOn with
  | nil => exact .refl s
  | append_singleton l p ih =>
    rw [List.map_append, List.pairwise_append] at hpair
    obtain ⟨hl, -, hp⟩ := hpair
    have hrest := ih (fun f hf => hok f (by rw [List.map_append]; exact List.mem_append_left _ hf)) hl
    rw [State.setAll, List.foldl_append, List.foldl_cons, List.foldl_nil, ← State.setAll]
    refine hrest.put p.1 p.2 (besides_iff.2 ⟨hok p.1 (by simp), fun q hq => ?_⟩)
    exact hp q.1 (List.mem_map_of_mem hq) p.1 (List.mem_singleton_self _)

/-- The fields of test `n`, and a flag of its end. -/
theorem testResults_apart (s : State) {n : Nat} (hn : n < 8) (cause : Nat) : apartAll ((s.testResults n cause).map (·.1)) = true := by
  have hall : ∀ m : Fin 8, apartAll ([R.BIST.STATUS.RUN, R.BIST.STATUS.MANUAL, R.BIST.RES.RESULT m, R.BIST.RES.PARTBAD m, R.BIST.RES.ABCAUSE m,
      R.BIST.RES.SLICES m, R.BIST.DET.FAILCNT m, R.BIST.DET.ITEM m, R.BIST.FLAG.DONE] ++ [R.BIST.FLAG.FAIL]) = true ∧
      apartAll ([R.BIST.STATUS.RUN, R.BIST.STATUS.MANUAL, R.BIST.RES.RESULT m, R.BIST.RES.PARTBAD m, R.BIST.RES.ABCAUSE m,
      R.BIST.RES.SLICES m, R.BIST.DET.FAILCNT m, R.BIST.DET.ITEM m, R.BIST.FLAG.DONE] ++ [R.BIST.FLAG.INCOMPLETE]) = true ∧
      apartAll ([R.BIST.STATUS.RUN, R.BIST.STATUS.MANUAL, R.BIST.RES.RESULT m, R.BIST.RES.PARTBAD m, R.BIST.RES.ABCAUSE m,
      R.BIST.RES.SLICES m, R.BIST.DET.FAILCNT m, R.BIST.DET.ITEM m, R.BIST.FLAG.DONE] ++ []) = true := by decide
  obtain ⟨hfail, hinc, hnone⟩ := hall ⟨n, hn⟩
  unfold State.testResults
  split
  · exact hfail
  · split
    exacts [hinc, hnone]

theorem testRecord_eq (s : State) (n cause : Nat) : s.testRecord n cause = s.setAll (s.testResults n cause) := by
  unfold State.testRecord State.testResults State.testResult
  dsimp only
  generalize (if cause != 0 then 4 else if s.bist.bad then 3 else 2) = result
  split
  · rfl
  · split <;> rfl

theorem testRecord_fields (s : State) {n : Nat} (hn : n < 8) (cause : Nat) : OnlyFields s (s.testRecord n cause) (s.testResults n cause) := by
  rw [testRecord_eq]
  exact setAll_fields s _ (testResults_apart s hn cause)

theorem testRun_some {s : State} {n : Nat} (h : s.testRun = some n) : s.get R.BIST.STATUS.RUN = 1 ∧ s.get R.BIST.STATUS.TEST = n ∧ n < 8 := by
  unfold State.testRun at h
  split at h
  · next hr =>
    cases h
    exact ⟨hr, rfl, get_lt s R.BIST.STATUS.TEST⟩
  · cases h

/-- The wheel sensors after the end of test `n`. -/
def State.spdAfter (s : State) (n : Nat) : SpdSt := if n = 6 then s.spd.anew s.nowNs else s.spd

/-- What the end of a running test leaves. -/
theorem testEnd_spec {s : State} {n : Nat} (h : s.testRun = some n) (cause : Nat) :
    let u := s.testEnd cause
    u = { s with regs := u.regs, spd := s.spdAfter n, bist := { s.bist with start := none, drove := [] } } ∧ FieldsSet s u (s.testResults n cause) := by
  obtain ⟨-, -, hn⟩ := testRun_some h
  obtain ⟨hu, hf⟩ := testRecord_fields s hn cause
  unfold State.testEnd State.spdAfter
  rw [h]
  dsimp only
  unfold State.sensorsAnew
  generalize s.testRecord n cause = v at hu hf ⊢
  have hspd : v.spd = s.spd := by rw [hu]
  have hnow : v.nowNs = s.nowNs := by rw [hu]; rfl
  split
  · refine ⟨?_, hf.of_regs rfl⟩
    rw [← hspd, ← hnow]
    exact congrArg (fun x : State => { x with regs := v.regs, spd := v.spd.anew v.nowNs, bist := { s.bist with start := none, drove := [] } }) hu
  · exact ⟨congrArg (fun x : State => { x with regs := v.regs, bist := { s.bist with start := none, drove := [] } }) hu, hf.of_regs rfl⟩

theorem testEnd_idle {s : State} (h : s.testRun = none) (cause : Nat) : s.testEnd cause = s := by
  unfold State.testEnd
  rw [h]

/-! ### The life-cycle command (R368) -/

/-- A test that ends leaves the life-cycle state, its flag, the command that waits and the removal that waits. -/
structure LifeKept (s u : State) : Prop where
  lcs : u.get R.BIST.LCS.STATE = s.get R.BIST.LCS.STATE
  flag : u.get R.BIST.FLAG.LCCHG = s.get R.BIST.FLAG.LCCHG
  lcNew : u.bist.lcNew = s.bist.lcNew
  dropSil : u.bist.dropSil = s.bist.dropSil

theorem LifeKept.refl (s : State) : LifeKept s s := ⟨rfl, rfl, rfl, rfl⟩

/-- The fields that the end of test `n` may write. -/
def endFlds (n : Nat) : List Fld :=
  [R.BIST.STATUS.RUN, R.BIST.STATUS.MANUAL, R.BIST.RES.RESULT n, R.BIST.RES.PARTBAD n, R.BIST.RES.ABCAUSE n, R.BIST.RES.SLICES n, R.BIST.DET.FAILCNT n,
    R.BIST.DET.ITEM n, R.BIST.FLAG.DONE, R.BIST.FLAG.FAIL, R.BIST.FLAG.INCOMPLETE]

theorem testResults_flds (s : State) (n cause : Nat) : (s.testResults n cause).map (·.1) ⊆ endFlds n := by
  unfold State.testResults endFlds
  split
  · simp
  · split <;> simp

/-- A field beside those that the end of a test may write. -/
theorem testEnd_get (s : State) (cause : Nat) {f : Fld} (h : ∀ m : Fin 8, (endFlds m).all (f.apart ·) = true) : (s.testEnd cause).get f = s.get f := by
  cases hr : s.testRun with
  | none => rw [testEnd_idle hr]
  | some n =>
    obtain ⟨-, -, hn⟩ := testRun_some hr
    exact (testEnd_spec hr cause).2.2 f fun p hp => List.all_eq_true.1 (h ⟨n, hn⟩) p.1 (testResults_flds s n cause (List.mem_map_of_mem hp))

theorem testEnd_life (s : State) (cause : Nat) : LifeKept s (s.testEnd cause) := by
  have hbist : (s.testEnd cause).bist.lcNew = s.bist.lcNew ∧ (s.testEnd cause).bist.dropSil = s.bist.dropSil := by
    cases hr : s.testRun with
    | none => rw [testEnd_idle hr]; exact ⟨rfl, rfl⟩
    | some n => rw [(testEnd_spec hr cause).1]; exact ⟨rfl, rfl⟩
  exact ⟨testEnd_get s cause (by decide), testEnd_get s cause (by decide), hbist.1, hbist.2⟩

theorem testCheck_life (s : State) : LifeKept s s.testCheck := by
  unfold State.testCheck
  split
  · exact .refl s
  · split
    · unfold State.noteGeyser
      split
      exacts [⟨rfl, rfl, rfl, rfl⟩, .refl s]
    · exact testEnd_life ..

/-- What a life-cycle change leaves alone after its removal of forces: the table, the directories, and what waits. -/
structure AfterSil (u v : State) : Prop where
  frame : v = { u with regs := v.regs, upd := v.upd, bist := v.bist, spd := v.spd, fum := v.fum, fumPos := v.fumPos }
  lead : v.get R.VOTE.MODE.INCL = u.get R.VOTE.MODE.INCL
  fdrop : v.get R.SIG.FLAG.FDROP = u.get R.SIG.FLAG.FDROP
  life : LifeKept u v

theorem LifeKept.trans {s t u : State} (h : LifeKept s t) (k : LifeKept t u) : LifeKept s u :=
  ⟨k.lcs.trans h.lcs, k.flag.trans h.flag, k.lcNew.trans h.lcNew, k.dropSil.trans h.dropSil⟩

theorem AfterSil.refl (s : State) : AfterSil s s := ⟨rfl, rfl, rfl, .refl s⟩

theorem AfterSil.trans {s t u : State} (h : AfterSil s t) (k : AfterSil t u) : AfterSil s u :=
  ⟨by rw [k.frame, h.frame], k.lead.trans h.lead, k.fdrop.trans h.fdrop, h.life.trans k.life⟩

/-- A field beside those read is written. -/
theorem AfterSil.set (s : State) (f : Fld) (n : Nat)
    (h : ([R.VOTE.MODE.INCL, R.SIG.FLAG.FDROP, R.BIST.LCS.STATE, R.BIST.FLAG.LCCHG].all fun g => g.off != f.off) = true) : AfterSil s (s.set f n) := by
  simp only [List.all_cons, List.all_nil, Bool.and_true, Bool.and_eq_true, bne_iff_ne] at h
  obtain ⟨h1, h2, h3, h4⟩ := h
  exact ⟨rfl, get_setReg_ne s _ h1, get_setReg_ne s _ h2, get_setReg_ne s _ h3, get_setReg_ne s _ h4, rfl, rfl⟩

theorem AfterSil.testCheck (s : State) : AfterSil s s.testCheck := by
  obtain ⟨hu, hk⟩ := testCheck_onlyBist s
  refine ⟨?_, hk _ (by decide), hk _ (by decide), testCheck_life s⟩
  generalize s.testCheck = u at hu ⊢
  rw [hu]

theorem AfterSil.fumarole (s : State) (type src code : Nat) (data : List Byte) : AfterSil s (s.fumarole type src code data) :=
  ⟨rfl, get_fumarole _ _ _ _ _ _ (by decide), get_fumarole _ _ _ _ _ _ (by decide), get_fumarole _ _ _ _ _ _ (by decide),
    get_fumarole _ _ _ _ _ _ (by decide), rfl, rfl⟩

theorem AfterSil.withKey (s : State) (v : UpdSt) : AfterSil s { s with upd := v } := ⟨rfl, rfl, rfl, rfl, rfl, rfl, rfl⟩

theorem leadCh_congr {u v : State} (h : v.get R.VOTE.MODE.INCL = u.get R.VOTE.MODE.INCL) : v.leadCh = u.leadCh := by
  unfold State.leadCh State.incl
  rw [included_congr h]

theorem AfterSil.sil {u v : State} (h : AfterSil u v) (id : Nat) : v.sil id = u.sil id := by
  have hd : v.dirEnt id = u.dirEnt id := by
    rw [State.dirEnt, leadCh_congr h.lead, h.frame, State.dirEnt]
    rfl
  unfold State.sil
  rw [hd]

/-- What the removal that waits does at a tick edge. -/
structure SilTicked (u v : State) : Prop where
  frame : v = { u with
    regs := v.regs
    forces := v.forces
    chA := v.chA
    chB := v.chB
    chC := v.chC
    fum := v.fum
    fumPos := v.fumPos
    bist := v.bist }
  regs : RegsKept u v [R.SIG.FLAG.FDROP.off, R.SUP.FUMSEQ.SEQ.off]
  bist : v.bist = { u.bist with dropSil := false }
  left : u.bist.dropSil = true → SilDropped u v
  stay : u.bist.dropSil = false → v = u

theorem silTick_idle {u : State} (h : u.bist.dropSil = false) : u.silTick = u := by
  unfold State.silTick
  rw [if_neg (by rw [h]; decide)]

theorem silTick_ticked (u : State) : SilTicked u u.silTick := by
  cases hd : u.bist.dropSil
  · rw [silTick_idle hd]
    exact ⟨rfl, fun _ _ => rfl, by rw [← hd], fun h => absurd (hd.symm.trans h) (by decide), fun _ => rfl⟩
  · have hdrop := dropSil_dropped u
    have hsil := hdrop.sil
    unfold State.silTick
    rw [if_pos hd]
    generalize u.dropSil = w at hdrop hsil ⊢
    obtain ⟨hw, hregs, -⟩ := hdrop
    refine ⟨?_, hregs, rfl, fun _ => ⟨hsil.force, hsil.flag⟩, fun h => absurd (hd.symm.trans h) (by decide)⟩
    rw [hw]

/-- The life-cycle command that waits takes effect, apart from its removal of forces: what is left in the end. -/
structure LifeChanged (s u : State) (n : Nat) : Prop where
  lcs : u.lcs = n % 2 ^ R.BIST.LCS.STATE.w
  flag : u.get R.BIST.FLAG.LCCHG = 1
  lcNew : u.bist.lcNew = none
  unlk : u.get R.CFG.EXPERT.UNLK = 0
  key : u.upd.idKey = if n = 4 then false else if s.lcs = 0 then true else s.upd.idKey
  stopc : n = 4 → s.mstate = .init → u.get R.SUP.STATE.STOPC = 4

/-- What the removal of forces leaves of it. -/
theorem LifeChanged.sil {s u v : State} {n : Nat} (h : LifeChanged s u n) (k : SilTicked u v) : LifeChanged s v n where
  lcs := (regsKept_get k.regs (by decide)).trans h.lcs
  flag := (regsKept_get k.regs (by decide)).trans h.flag
  lcNew := by rw [k.bist]; exact h.lcNew
  unlk := (regsKept_get k.regs (by decide)).trans h.unlk
  key := by rw [k.frame]; exact h.key
  stopc := fun hn hi => (regsKept_get k.regs (by decide)).trans (h.stopc hn hi)

/-- The forces after a life-cycle change: those of R76 are gone where a state that allows them was left. -/
structure SilLeft (s u : State) (left : Prop) : Prop where
  gone : left → u.bist.dropSil = false ∧ SilDropped s u
  kept : ¬ left → u.forces = s.forces

/-- The identity key after a life-cycle change: gone in RETIRED, made where BLANK is left. -/
def State.keyStep (s u : State) (n : Nat) : State :=
  if n = 4 then { u with upd := { u.upd with idKey := false } } else if s.lcs = 0 then { u with upd := { u.upd with idKey := true } } else u

/-- A module in INIT that becomes RETIRED stops there. -/
def State.stopStep (s u : State) (n : Nat) : State := if n = 4 ∧ s.mstate = .init then u.set R.SUP.STATE.STOPC 4 else u

/-- The steps of a life-cycle change after its removal of forces. -/
def State.lcRest (s u : State) (n : Nat) : State :=
  ((s.stopStep (s.keyStep u n) n).lockExpert.testCheck).fumarole 0x0A 0x10 n (leBytes 1 0x10 ++ leBytes 3 0 ++ leBytes 4 s.lcs)

/-- The command taken: LCS and LCCHG are shown, and whether forces must go. -/
def State.lcShown (s : State) (n : Nat) : State :=
  (State.set { s with bist := { s.bist with lcNew := none, dropSil := decide (s.lcs = 1 ∨ s.lcs = 3) || s.bist.dropSil } } R.BIST.LCS.STATE n).flag
    R.BIST.FLAG.LCCHG

theorem lcTick_eq {s : State} {n : Nat} (h : s.bist.lcNew = some n) :
    s.lcTick = s.lcRest (if s.gong.ticking then (s.lcShown n).silTick else s.lcShown n) n := by
  unfold State.lcTick
  rw [h]
  rfl

theorem keyStep_after (s u : State) (n : Nat) : AfterSil u (s.keyStep u n) := by
  unfold State.keyStep
  split
  · exact .withKey ..
  · split
    exacts [.withKey .., .refl u]

theorem stopStep_after (s u : State) (n : Nat) : AfterSil u (s.stopStep u n) := by
  unfold State.stopStep
  split
  exacts [.set _ _ _ (by decide), .refl u]

theorem lockExpert_after (u : State) : AfterSil u u.lockExpert :=
  (AfterSil.set u R.CFG.EXPERT.UNLK 0 (by decide)).trans (.set _ R.CFG.EXPERT.TLEFT 0 (by decide))

theorem lcRest_after (s u : State) (n : Nat) : AfterSil u (s.lcRest u n) := by
  unfold State.lcRest
  exact ((keyStep_after s u n).trans (stopStep_after ..)).trans ((lockExpert_after _).trans ((AfterSil.testCheck _).trans (.fumarole ..)))

theorem keyStep_key (s u : State) (n : Nat) (h : u.upd = s.upd) :
    (s.keyStep u n).upd.idKey = if n = 4 then false else if s.lcs = 0 then true else s.upd.idKey := by
  unfold State.keyStep
  split
  · rfl
  · split
    · rfl
    · rw [h]

theorem lcRest_changed {s u : State} {n : Nat} (hl : u.lcs = n % 2 ^ R.BIST.LCS.STATE.w) (hf : u.get R.BIST.FLAG.LCCHG = 1) (hn : u.bist.lcNew = none)
    (hu : u.upd = s.upd) : LifeChanged s (s.lcRest u n) n := by
  have hafter := lcRest_after s u n
  have hkey := keyStep_key s u n hu
  unfold State.lcRest at hafter ⊢
  generalize s.keyStep u n = v at hafter hkey ⊢
  have hstop : n = 4 → s.mstate = .init → (s.stopStep v n).get R.SUP.STATE.STOPC = 4 := fun h4 hi => by
    rw [State.stopStep, if_pos ⟨h4, hi⟩, get_set_same _ _ (by decide)]
    rfl
  have hkey' : (s.stopStep v n).upd = v.upd := by
    unfold State.stopStep
    split <;> rfl
  generalize s.stopStep v n = w at hafter hstop hkey' ⊢
  have hlock := lockExpert_fields (FieldsSet.refl w) rfl rfl
  have hlock' : w.lockExpert.upd = w.upd := rfl
  generalize w.lockExpert = x at hafter hlock hlock' ⊢
  obtain ⟨htest, hget⟩ := testCheck_onlyBist x
  have hupd : x.testCheck.upd = x.upd := by rw [htest]
  generalize x.testCheck = y at hafter htest hget hupd ⊢
  have hfum : (y.fumarole 0x0A 0x10 n (leBytes 1 0x10 ++ leBytes 3 0 ++ leBytes 4 s.lcs)).upd = y.upd := rfl
  refine ⟨hafter.life.lcs.trans hl, hafter.life.flag.trans hf, hafter.life.lcNew.trans hn, ?_, ?_, fun h4 hi => ?_⟩
  · rw [get_fumarole _ _ _ _ _ _ (by decide), hget _ (by decide)]
    exact hlock.1 (R.CFG.EXPERT.UNLK, 0) (by simp)
  · rw [hfum, hupd, hlock', hkey', hkey]
  · rw [get_fumarole _ _ _ _ _ _ (by decide), hget _ (by decide), hlock.get_eq R.SUP.STATE.STOPC rfl]
    exact hstop h4 hi

theorem lcShown_spec (s : State) (n : Nat) :
    let u := s.lcShown n
    u = { s with regs := u.regs, bist := { s.bist with lcNew := none, dropSil := decide (s.lcs = 1 ∨ s.lcs = 3) || s.bist.dropSil } } ∧
      FieldsSet s u [(R.BIST.LCS.STATE, n), (R.BIST.FLAG.LCCHG, 1)] :=
  ⟨rfl, (((FieldsSet.refl s).of_regs rfl).put R.BIST.LCS.STATE n rfl).put R.BIST.FLAG.LCCHG 1 rfl⟩

/-- A life-cycle command that waits has taken effect when the tick edge has passed. -/
theorem lcTick_silTick {s : State} {n : Nat} (h : s.bist.lcNew = some n) :
    LifeChanged s s.lcTick.silTick n ∧ SilLeft s s.lcTick.silTick (s.bist.dropSil = true ∨ s.lcs = 1 ∨ s.lcs = 3) := by
  obtain ⟨hu, hf⟩ := lcShown_spec s n
  rw [lcTick_eq h]
  generalize s.lcShown n = u at hu hf ⊢
  have hleft : u.bist.dropSil = true ↔ s.bist.dropSil = true ∨ s.lcs = 1 ∨ s.lcs = 3 := by
    rw [hu]
    simp only [Bool.or_eq_true, decide_eq_true_eq]
    tauto
  have hsil (id : Nat) : u.sil id = s.sil id := by
    have hd : u.dirEnt id = s.dirEnt id := by
      rw [State.dirEnt, leadCh_congr (hf.get_eq R.VOTE.MODE.INCL rfl), hu, State.dirEnt]
      rfl
    unfold State.sil
    rw [hd]
  have hforces : u.forces = s.forces := by rw [hu]
  have hlcs : u.lcs = n % 2 ^ R.BIST.LCS.STATE.w := hf.1 (R.BIST.LCS.STATE, n) (by simp)
  have hflag : u.get R.BIST.FLAG.LCCHG = 1 := hf.1 (R.BIST.FLAG.LCCHG, 1) (by simp)
  have hnew : u.bist.lcNew = none := by rw [hu]
  have hupd : u.upd = s.upd := by rw [hu]
  have dropped {v : State} (k : SilDropped u v) : SilDropped s v := by
    refine ⟨fun id => ?_, fun hex => k.flag (by simpa only [hforces, hsil] using hex)⟩
    have := k.force id
    rwa [hsil, forceOf_eq u, hforces] at this
  cases hticking : s.gong.ticking
  · rw [if_neg (by decide)]
    have hafter := lcRest_after s u n
    have hchanged := lcRest_changed hlcs hflag hnew hupd
    generalize s.lcRest u n = v at hafter hchanged ⊢
    have hdrop : v.bist.dropSil = u.bist.dropSil := hafter.life.dropSil
    have hvf : v.forces = u.forces := by rw [hafter.frame]
    have htick := silTick_ticked v
    refine ⟨hchanged.sil htick, ⟨fun hl => ⟨by rw [htick.bist], ?_⟩, fun hl => ?_⟩⟩
    · have k := htick.left (hdrop.trans (hleft.2 hl))
      refine dropped ⟨fun id => ?_, fun hex => k.flag (by simpa only [hvf, hafter.sil] using hex)⟩
      have := k.force id
      rwa [hafter.sil, forceOf_eq v, hvf] at this
    · have hd : v.bist.dropSil = false := by rw [hdrop, ← Bool.not_eq_true, hleft]; exact hl
      rw [htick.stay hd, hvf, hforces]
  · rw [if_pos rfl]
    have htick := silTick_ticked u
    generalize u.silTick = w at htick ⊢
    have hafter := lcRest_after s w n
    have hchanged := lcRest_changed (s := s) (u := w) (n := n) ((regsKept_get htick.regs (by decide)).trans hlcs)
      ((regsKept_get htick.regs (by decide)).trans hflag) (by rw [htick.bist]; exact hnew) (by rw [htick.frame]; exact hupd)
    generalize s.lcRest w n = v at hafter hchanged ⊢
    have hdrop : v.bist.dropSil = false := by rw [hafter.life.dropSil, htick.bist]
    have hvf : v.forces = w.forces := by rw [hafter.frame]
    rw [silTick_idle hdrop]
    refine ⟨hchanged, ⟨fun hl => ⟨hdrop, dropped ?_⟩, fun hl => ?_⟩⟩
    · have k := htick.left (hleft.2 hl)
      exact ⟨fun id => by rw [forceOf_eq, hvf]; exact k.force id, fun hex => hafter.fdrop.trans (k.flag hex)⟩
    · have hd : u.bist.dropSil = false := by rw [← Bool.not_eq_true, hleft]; exact hl
      rw [hvf, htick.stay hd, hforces]

/-- With no command waiting only the removal that waits takes effect. -/
theorem lcTick_none {s : State} (h : s.bist.lcNew = none) : s.lcTick = s := by
  unfold State.lcTick
  rw [h]

end Sys2Proof.Machine
end

section
/-! PROOF. The end of INIT (R18, R31, R188 to R190, R199, R339, R393): what the first tick of RUN leaves, step by step. -/

namespace Sys2Proof.Machine

/-- A change of entries that keeps their keys. -/
theorem tblFind_map_if {α : Type} (t : Tbl α) (c : Nat × α → Bool) (g : Nat × α → α) (k : Nat) :
    tblFind (t.map fun p => if c p then (p.1, g p) else p) k = (tblFind t k).map fun v => if c (k, v) then g (k, v) else v := by
  induction t with
  | nil => rfl
  | cons p t ih =>
    obtain ⟨k', v⟩ := p
    rw [List.map_cons]
    by_cases hk : k' = k
    · subst hk
      cases hc : c (k', v) <;> simp [tblFind, hc]
    · dsimp only
      split <;> simp [tblFind, hk, ih]

/-! ### RUN is entered -/

/-- RUN is shown. -/
def State.runShown (s : State) : State := (s.set R.GONG.STATUS.ALIGNED 1).toState .run

theorem runShown_spec (s : State) :
    let u := s.runShown
    u = { s with regs := u.regs, fum := u.fum, fumPos := u.fumPos } ∧ u.mstate = .run ∧ u.get R.GONG.STATUS.ALIGNED = 1 ∧
      RegsKept s u [R.GONG.STATUS.ALIGNED.off, R.SUP.STATE.all.off, R.SUP.FUMSEQ.SEQ.off] := by
  have hset := RegsKept.set s R.GONG.STATUS.ALIGNED 1
  have hone : (s.set R.GONG.STATUS.ALIGNED 1).get R.GONG.STATUS.ALIGNED = 1 := get_set_same s 1 (by decide)
  have hs : s.set R.GONG.STATUS.ALIGNED 1 = { s with regs := (s.set R.GONG.STATUS.ALIGNED 1).regs } := rfl
  unfold State.runShown State.toState
  generalize s.set R.GONG.STATUS.ALIGNED 1 = v at hset hone hs ⊢
  obtain ⟨hu, hf⟩ := enterState_spec v .run (v.get R.SUP.STATE.MSTATE)
  have hm := enterState_mstate v .run (v.get R.SUP.STATE.MSTATE)
  have hk := enterState_regs v .run (v.get R.SUP.STATE.MSTATE)
  generalize v.enterState .run (v.get R.SUP.STATE.MSTATE) = u at hu hf hm hk ⊢
  refine ⟨?_, hm, (hf.get_eq R.GONG.STATUS.ALIGNED rfl).trans hone, (hset.trans hk)⟩
  rw [hu, hs]

/-- The speed bounds begin anew. -/
def SpdSt.firstTick (v : SpdSt) (tick : Nat) : SpdSt :=
  { v with runNs := tick, s0 := { v.s0 with edges := [] }, s1 := { v.s1 with edges := [] } }

/-! ### Timers and guard proofs restored -/

theorem restoreTimers_spec (s : State) (b : RetBuf) :
    let u := s.restoreTimers b
    u = { s with chA := u.chA, chB := u.chB, chC := u.chC, boot := { s.boot with wallFb := u.boot.wallFb } } ∧
      ∀ ch, u.ch ch = if s.follows ch then { s.ch ch with
        slots := (s.ch ch).slots.map fun p => if restoredTimer p.2 && !(p.2.wall && s.wallOk b) then (p.1, shiftTimer s.gong.frame b.frame p.2) else p }
        else s.ch ch := by
  have hframe := mapCh_frame s s.follows fun c => { c with
    slots := c.slots.map fun p => if restoredTimer p.2 && !(p.2.wall && s.wallOk b) then (p.1, shiftTimer s.gong.frame b.frame p.2) else p }
  have hch := mapCh_ch s s.follows fun c => { c with
    slots := c.slots.map fun p => if restoredTimer p.2 && !(p.2.wall && s.wallOk b) then (p.1, shiftTimer s.gong.frame b.frame p.2) else p }
  unfold State.restoreTimers
  dsimp only
  generalize s.mapCh s.follows _ = v at hframe hch ⊢
  refine ⟨?_, fun ch => hch ch⟩
  rw [hframe]

/-- The slots of a channel that follows, after the timers have moved. -/
theorem restoreTimers_slot {s : State} (b : RetBuf) {ch : Ch} (hf : s.follows ch = true) (k : Nat) :
    tblFind ((s.restoreTimers b).ch ch).slots k =
      (tblFind (s.ch ch).slots k).map fun v => if restoredTimer v && !(v.wall && s.wallOk b) then shiftTimer s.gong.frame b.frame v else v := by
  rw [(restoreTimers_spec s b).2 ch, if_pos hf]
  exact tblFind_map_if (s.ch ch).slots (fun p => restoredTimer p.2 && !(p.2.wall && s.wallOk b)) (fun p => shiftTimer s.gong.frame b.frame p.2) k

/-- The guard proof of input `i` survives. -/
def State.guardKept (s : State) (b : RetBuf) (i : Nat) : Bool := s.retGuard i && b.proven.getLsbD i && (s.inFaults i).isEmpty

theorem guardBits_spec (s : State) (b : RetBuf) (n : Nat) (hn : n ≤ 16) :
    let u := forN n s fun t i => if t.guardKept b i then t.putBit R.SIO.ISTATE.PROVEN i true else t
    u = { s with regs := u.regs } ∧ RegsKept s u [R.SIO.ISTATE.PROVEN.off] ∧
      ∀ i, u.bit R.SIO.ISTATE.PROVEN i = (s.bit R.SIO.ISTATE.PROVEN i || (decide (i < n) && s.guardKept b i)) := by
  induction n with
  | zero => exact ⟨rfl, fun _ _ => rfl, fun i => by simp [forN]⟩
  | succ n ih =>
    obtain ⟨hu, hk, hbit⟩ := ih (by omega)
    have hstep : forN (n + 1) s (fun t i => if t.guardKept b i then t.putBit R.SIO.ISTATE.PROVEN i true else t) =
      (fun t => if t.guardKept b n then t.putBit R.SIO.ISTATE.PROVEN n true else t)
        (forN n s fun t i => if t.guardKept b i then t.putBit R.SIO.ISTATE.PROVEN i true else t) := by
      unfold forN
      rw [List.range_succ, List.foldl_append, List.foldl_cons, List.foldl_nil]
    dsimp only
    rw [hstep]
    generalize (forN n s fun t i => if t.guardKept b i then t.putBit R.SIO.ISTATE.PROVEN i true else t) = u at hu hk hbit ⊢
    have hsame : u.guardKept b n = s.guardKept b n := by
      unfold State.guardKept State.retGuard
      rw [regsKept_get hk (by simp [R.SIO.ICFG.GUARD, R.SIO.ISTATE.PROVEN]; omega), regsKept_get hk (by simp [R.SIO.ICFG.RGUARD, R.SIO.ISTATE.PROVEN]; omega), hu]
      rfl
    dsimp only
    rw [hsame]
    cases hg : s.guardKept b n
    · refine ⟨hu, hk, fun i => (hbit i).trans ?_⟩
      by_cases hi : i = n
      · subst hi
        simp [hg]
      · have : decide (i < n + 1) = decide (i < n) := by simp; omega
        rw [this]
    · refine ⟨?_, (hk.trans (.set u _ _)).mono (by simp), fun i => ?_⟩
      · rw [if_pos rfl, hu]
        rfl
      · rw [if_pos rfl, bit_putBit u true (by decide) (show n < 16 by omega), hbit]
        by_cases hi : i = n
        · subst hi
          simp [hg]
        · have : decide (i < n + 1) = decide (i < n) := by simp; omega
          rw [if_neg hi, this]

/-- The guard proofs of a record are in force again. -/
def State.guardsOpen (s : State) (b : RetBuf) : Prop := b.tlock = true ∧ s.get R.TIME.STATUS.SYNC = 1 ∧ s.gong.tick < b.wallNs + 10000000000

theorem restoreGuards_spec (s : State) (b : RetBuf) :
    let u := s.restoreGuards b
    u = { s with regs := u.regs } ∧ RegsKept s u [R.SIO.ISTATE.PROVEN.off] ∧
      ∀ i, i < 16 → (u.bit R.SIO.ISTATE.PROVEN i = true ↔ s.bit R.SIO.ISTATE.PROVEN i = true ∨ (s.guardsOpen b ∧ s.guardKept b i = true)) := by
  by_cases h : b.tlock = true ∧ s.get R.TIME.STATUS.SYNC = 1 ∧ s.gong.tick < b.wallNs + 10000000000
  · have hx : s.restoreGuards b = forN 16 s fun t i => if t.guardKept b i then t.putBit R.SIO.ISTATE.PROVEN i true else t := if_pos h
    obtain ⟨hu, hk, hbit⟩ := guardBits_spec s b 16 le_rfl
    rw [hx]
    refine ⟨hu, hk, fun i hi => ?_⟩
    rw [hbit, Bool.or_eq_true, Bool.and_eq_true, decide_eq_true_eq, State.guardsOpen]
    tauto
  · have hx : s.restoreGuards b = s := if_neg h
    rw [hx]
    exact ⟨rfl, fun _ _ => rfl, fun i _ => ⟨.inl, fun k => k.resolve_right fun k => h k.1⟩⟩

/-! ### The end of a trial (R339) -/

/-- The registers of the slot's state. -/
def trialRegs : List Nat := [R.UPD.STATE.all.off, R.UPD.MINSVN.SVN.off, R.UPD.FLAG.SVNUP.off]

theorem writeSlotRec_frame (s : State) :
    s.writeSlotRec = { s with upd := { s.upd with rec0 := s.writeSlotRec.upd.rec0, rec1 := s.writeSlotRec.upd.rec1 } } := by
  unfold State.writeSlotRec
  dsimp only
  split <;> rfl

/-- The trial's counters are cleared and the slot record is written. -/
def State.trialEnded (s : State) : State := ((s.set R.UPD.STATE.TRIAL 0).set R.UPD.STATE.TRIALS 0).writeSlotRec

theorem trialEnded_spec (s : State) :
    let u := s.trialEnded
    u = { s with regs := u.regs, upd := u.upd } ∧ FieldsSet s u [(R.UPD.STATE.TRIAL, 0), (R.UPD.STATE.TRIALS, 0)] ∧
      RegsKept s u [R.UPD.STATE.all.off] ∧ ∀ n, u.img n = s.img n := by
  obtain ⟨hv, hf⟩ := ((OnlyFields.refl s).put R.UPD.STATE.TRIAL 0 rfl).put R.UPD.STATE.TRIALS 0 rfl
  have hk : RegsKept s ((s.set R.UPD.STATE.TRIAL 0).set R.UPD.STATE.TRIALS 0) [R.UPD.STATE.all.off] :=
    ((RegsKept.set s R.UPD.STATE.TRIAL 0).trans (.set _ R.UPD.STATE.TRIALS 0)).mono (by simp [R.UPD.STATE.TRIAL, R.UPD.STATE.TRIALS, R.UPD.STATE.all])
  unfold State.trialEnded
  generalize (s.set R.UPD.STATE.TRIAL 0).set R.UPD.STATE.TRIALS 0 = v at hv hf hk ⊢
  have hw := writeSlotRec_frame v
  generalize v.writeSlotRec = w at hw ⊢
  have hregs : w.regs = v.regs := by rw [hw]
  have himg (n : Nat) : w.img n = v.img n := by
    unfold State.img
    rw [hw]
  refine ⟨?_, hf.of_regs hregs, fun o ho => ?_, fun n => (himg n).trans ?_⟩
  · rw [hw, hv]
  · rw [State.reg, hregs]
    exact hk o ho
  · unfold State.img
    rw [hv]

theorem endTrial_none {s : State} (h : s.get R.UPD.STATE.TRIAL = 0 ∨ s.boot.slot ≠ some s.actSlot) : s.endTrial = s := if_pos h

/-- The minimum version after the end of a trial of image `i`. -/
def State.raised (s : State) : Option FlashImg → State
  | some i => if isRaise i.hdr then (s.set R.UPD.MINSVN.SVN i.hdr.svn.toNat).flag R.UPD.FLAG.SVNUP else s
  | none => s

theorem raised_spec (s : State) (i : Option FlashImg) :
    let u := s.raised i
    u = { s with regs := u.regs } ∧ RegsKept s u [R.UPD.MINSVN.SVN.off, R.UPD.FLAG.SVNUP.off] := by
  unfold State.raised
  split
  · split
    · exact ⟨rfl, (RegsKept.set s R.UPD.MINSVN.SVN _).trans (.set _ R.UPD.FLAG.SVNUP 1)⟩
    · exact ⟨rfl, fun _ _ => rfl⟩
  · exact ⟨rfl, fun _ _ => rfl⟩

theorem endTrial_some {s : State} (h : s.get R.UPD.STATE.TRIAL ≠ 0) (hs : s.boot.slot = some s.actSlot) :
    s.endTrial = s.trialEnded.raised (s.img s.actSlot) := by
  obtain ⟨-, hf, -, himg⟩ := trialEnded_spec s
  have hact : s.trialEnded.actSlot = s.actSlot := hf.get_eq R.UPD.STATE.ACT rfl
  have hx : s.endTrial = if s.get R.UPD.STATE.TRIAL = 0 ∨ s.boot.slot ≠ some s.actSlot then s else
    s.trialEnded.raised (s.trialEnded.img s.trialEnded.actSlot) := rfl
  rw [hx, if_neg (by simp [h, hs]), hact, himg]

theorem endTrial_spec (s : State) :
    let u := s.endTrial
    u = { s with regs := u.regs, upd := u.upd } ∧ RegsKept s u trialRegs := by
  by_cases h : s.get R.UPD.STATE.TRIAL = 0 ∨ s.boot.slot ≠ some s.actSlot
  · rw [endTrial_none h]
    exact ⟨rfl, fun _ _ => rfl⟩
  · rw [not_or, not_ne_iff] at h
    rw [endTrial_some h.1 h.2]
    obtain ⟨hv, -, hk, -⟩ := trialEnded_spec s
    generalize s.trialEnded = v at hv hk ⊢
    obtain ⟨hw, hk'⟩ := raised_spec v (s.img s.actSlot)
    generalize v.raised (s.img s.actSlot) = w at hw hk' ⊢
    refine ⟨?_, hk.trans hk'⟩
    rw [hw, hv]

/-- A slot on trial is taken for good, and the minimum version rises where its image says so. -/
theorem endTrial_fields {s : State} (h : s.get R.UPD.STATE.TRIAL ≠ 0) (hs : s.boot.slot = some s.actSlot) :
    s.endTrial.get R.UPD.STATE.TRIAL = 0 ∧ s.endTrial.get R.UPD.STATE.TRIALS = 0 ∧ ∀ i, s.img s.actSlot = some i →
      (i.hdr.flags.toNat / 2 % 2 = 1 → s.endTrial.get R.UPD.MINSVN.SVN = i.hdr.svn.toNat ∧ s.endTrial.get R.UPD.FLAG.SVNUP = 1) ∧
      (i.hdr.flags.toNat / 2 % 2 = 0 → s.endTrial.get R.UPD.MINSVN.SVN = s.get R.UPD.MINSVN.SVN) := by
  rw [endTrial_some h hs]
  obtain ⟨-, hf, hk, -⟩ := trialEnded_spec s
  generalize s.trialEnded = v at hf hk ⊢
  have hk' := (raised_spec v (s.img s.actSlot)).2
  refine ⟨(regsKept_get hk' (by decide)).trans (hf.1 (R.UPD.STATE.TRIAL, 0) (by simp)),
    (regsKept_get hk' (by decide)).trans (hf.1 (R.UPD.STATE.TRIALS, 0) (by simp)), fun i hi => ⟨fun hr => ?_, fun hr => ?_⟩⟩
  · rw [hi, State.raised, if_pos (by rw [isRaise, hr]; rfl)]
    have hput := ((FieldsSet.refl v).put R.UPD.MINSVN.SVN i.hdr.svn.toNat rfl).put R.UPD.FLAG.SVNUP 1 rfl
    exact ⟨(hput.1 (R.UPD.MINSVN.SVN, i.hdr.svn.toNat) (by simp)).trans (Nat.mod_eq_of_lt i.hdr.svn.isLt), hput.1 (R.UPD.FLAG.SVNUP, 1) (by simp)⟩
  · rw [hi, State.raised, if_neg (by rw [isRaise, hr]; decide)]
    exact regsKept_get hk (by decide)

/-! ### The start role is taken (R199) -/

/-- What the taking of a role leaves alone. -/
structure RoleTaken (s u : State) : Prop where
  frame : u = { s with
    regs := u.regs
    fum := u.fum
    fumPos := u.fumPos
    chA := u.chA
    chB := u.chB
    chC := u.chC
    pair := u.pair
    ret := u.ret
    bist := u.bist
    spd := u.spd }
  get : ∀ f : Fld, f.off < 0x100000 → f.off ∉ [R.PAIR.ROLE.all.off, R.PAIR.EPOCH.fld.off, R.SUP.FUMSEQ.SEQ.off] → u.get f = s.get f
  runNs : u.spd.runNs = s.spd.runNs

theorem RoleTaken.refl (s : State) : RoleTaken s s := ⟨rfl, fun _ _ _ => rfl, rfl⟩

theorem RoleTaken.trans {s t u : State} (h : RoleTaken s t) (k : RoleTaken t u) : RoleTaken s u :=
  ⟨by rw [k.frame, h.frame], fun f hf hn => (k.get f hf hn).trans (h.get f hf hn), k.runNs.trans h.runNs⟩

theorem RoleTaken.of_regs {s u : State} (hframe : u = { s with regs := u.regs, pair := u.pair })
    (h : RegsKept s u [R.PAIR.ROLE.all.off, R.PAIR.EPOCH.fld.off, R.SUP.FUMSEQ.SEQ.off]) : RoleTaken s u :=
  ⟨by rw [hframe], fun _ _ hn => regsKept_get h hn, by rw [hframe]⟩

theorem testCheck_runNs (s : State) : s.testCheck.spd.runNs = s.spd.runNs := by
  unfold State.testCheck
  split
  · rfl
  · next n hn =>
    split
    · unfold State.noteGeyser
      split <;> rfl
    · rw [(testEnd_spec hn _).1]
      unfold State.spdAfter
      split <;> rfl

theorem toRole_taken (s : State) (r : Role) (c : Nat) : RoleTaken s (s.toRole r c) := by
  have hframe := toRole_rest s r c
  have hrun : (s.toRole r c).spd.runNs = s.spd.runNs := by
    have h : (s.showRole r c).spd = s.spd := by rw [(showRole_spec s r c).1]
    rw [State.toRole, testCheck_runNs, h]
  refine ⟨?_, fun f hf hn => ?_, hrun⟩
  · generalize s.toRole r c = u at hframe ⊢
    rw [hframe]
  · rw [toRole_get s r c hf]
    refine (showRole_fields s r c).2 f fun p hp => ?_
    have hne : f.off ≠ R.PAIR.ROLE.all.off := fun he => hn (he ▸ List.mem_cons_self ..)
    simp only [List.mem_cons, List.not_mem_nil, or_false] at hp
    rcases hp with rfl | rfl | rfl <;> simpa [Fld.apart] using .inl (.inl hne)

theorem toRole_ch (s : State) (r : Role) (c : Nat) (ch : Ch) : (s.toRole r c).ch ch = s.ch ch := by
  rw [toRole_rest]
  cases ch <;> rfl

/-- PAIR_ACT and the epoch of a start as ALONE. -/
theorem pactRaised_spec (s : State) :
    let u := s.assertPact.raiseEpoch
    u = { s with regs := u.regs, pair := u.pair } ∧ FieldsSet s u [(R.PAIR.ROLE.PACT, b2n s.gates),
      (R.PAIR.EPOCH.fld, max (s.get R.PAIR.EPOCH.fld) s.pair.epochIn + 1)] ∧
      RegsKept s u [R.PAIR.ROLE.all.off, R.PAIR.EPOCH.fld.off, R.SUP.FUMSEQ.SEQ.off] := by
  have hv : s.assertPact = { s with regs := s.assertPact.regs, pair := s.assertPact.pair } := rfl
  have hf : FieldsSet s s.assertPact [(R.PAIR.ROLE.PACT, b2n s.gates)] := ((FieldsSet.refl s).put R.PAIR.ROLE.PACT (b2n s.gates) rfl).of_regs rfl
  have hk : RegsKept s s.assertPact [R.PAIR.ROLE.all.off] := RegsKept.set s R.PAIR.ROLE.PACT (b2n s.gates)
  have hin : s.assertPact.pair.epochIn = s.pair.epochIn := rfl
  unfold State.raiseEpoch
  generalize s.assertPact = v at hv hf hk hin ⊢
  rw [hf.get_eq R.PAIR.EPOCH.fld rfl, hin]
  refine ⟨?_, hf.put R.PAIR.EPOCH.fld _ rfl, (hk.trans (.set v R.PAIR.EPOCH.fld _)).mono (by decide)⟩
  rw [hv]
  rfl

theorem pairRecord_taken (s : State) (code : Nat) : RoleTaken s (s.pairRecord code) :=
  ⟨rfl, fun _ _ hn => regsKept_get (fumarole_regs _ _ _ _ _) fun hm => hn (List.mem_cons_of_mem _ (List.mem_cons_of_mem _ hm)), rfl⟩

theorem joinBegin_role (s : State) : s.joinBegin.role = s.role := by
  have h : (s.set R.PAIR.ROLE.CUR 0).get R.PAIR.ROLE.fld = s.get R.PAIR.ROLE.fld := get_set_apart s 0 rfl rfl
  exact congrArg roleOf h

theorem joinBegin_taken (s : State) : RoleTaken s s.joinBegin :=
  .of_regs rfl ((RegsKept.set s R.PAIR.ROLE.CUR 0).mono (by decide))

theorem discardImage_taken (s : State) : RoleTaken s s.discardImage ∧ s.discardImage.regs = s.regs ∧ s.discardImage.pair = s.pair := by
  unfold State.discardImage
  split
  · next p _ =>
    have h := mapCh_frame s (fun _ => true) fun c => c.discard (versionAs (c.rx s.act) p) s.gong.frame (s.forces.map (·.id))
    generalize s.mapCh (fun _ => true) _ = u at h ⊢
    have hregs : u.regs = s.regs := by rw [h]
    exact ⟨⟨by rw [h], fun f _ _ => get_congr hregs f, by rw [h]⟩, hregs, by rw [h]⟩
  · exact ⟨.refl s, rfl, rfl⟩

theorem startRole_alone {s : State} {c : Nat} (h : s.boot.role = some (.alone, c)) :
    s.takeStartRole = s.assertPact.raiseEpoch.toRole .alone 0 := by
  unfold State.takeStartRole
  rw [h]

theorem startRole_standby {s : State} {c : Nat} (h : s.boot.role = some (.standby, c)) :
    s.takeStartRole = (s.discardImage.toRole .standby 0).joinBegin := by
  unfold State.takeStartRole
  rw [h]

theorem startRole_other {s : State} {r : Role} {c : Nat} (h : s.boot.role = some (r, c)) (ha : r ≠ .alone) (hs : r ≠ .standby) :
    s.takeStartRole = (s.toRole r c).pairRecord 3 := by
  unfold State.takeStartRole
  rw [h]
  cases r with
  | alone => exact absurd rfl ha
  | standby => exact absurd rfl hs
  | none | active | fenced => rfl

theorem takeStartRole_taken (s : State) : RoleTaken s s.takeStartRole := by
  cases h : s.boot.role with
  | none =>
    unfold State.takeStartRole
    rw [h]
    exact .refl s
  | some p =>
    obtain ⟨r, c⟩ := p
    by_cases ha : r = .alone
    · subst ha
      obtain ⟨hv, -, hk⟩ := pactRaised_spec s
      rw [startRole_alone h]
      exact (RoleTaken.of_regs hv hk).trans (toRole_taken ..)
    · by_cases hs : r = .standby
      · subst hs
        rw [startRole_standby h]
        exact ((discardImage_taken s).1.trans (toRole_taken ..)).trans (joinBegin_taken _)
      · rw [startRole_other h ha hs]
        exact (toRole_taken ..).trans (pairRecord_taken ..)

/-- A start role that is not STANDBY keeps what was loaded and restored. -/
theorem takeStartRole_ch {s : State} {r : Role} {c : Nat} (h : s.boot.role = some (r, c)) (hs : r ≠ .standby) (ch : Ch) :
    s.takeStartRole.ch ch = s.ch ch := by
  by_cases ha : r = .alone
  · subst ha
    rw [startRole_alone h, toRole_ch, (pactRaised_spec s).1]
    cases ch <;> rfl
  · rw [startRole_other h ha hs]
    have hp : (State.pairRecord (s.toRole r c) 3).ch ch = (s.toRole r c).ch ch := by cases ch <;> rfl
    rw [hp, toRole_ch]

theorem takeStartRole_role {s : State} {r : Role} {c : Nat} (h : s.boot.role = some (r, c)) : s.takeStartRole.role = r := by
  by_cases ha : r = .alone
  · subst ha
    rw [startRole_alone h, toRole_role]
  · by_cases hs : r = .standby
    · subst hs
      rw [startRole_standby h]
      rw [joinBegin_role, toRole_role]
    · rw [startRole_other h ha hs]
      have hj : ((s.toRole r c).pairRecord 3).role = (s.toRole r c).role := congrArg roleOf (pairRecord_get _ 3 rfl)
      rw [hj, toRole_role]

theorem takeStartRole_alone {s : State} {c : Nat} (h : s.boot.role = some (.alone, c)) :
    s.takeStartRole.get R.PAIR.ROLE.PACT = b2n s.gates ∧
      s.takeStartRole.get R.PAIR.EPOCH.fld = (max (s.get R.PAIR.EPOCH.fld) s.pair.epochIn + 1) % 2 ^ 32 := by
  obtain ⟨-, hf, -⟩ := pactRaised_spec s
  rw [startRole_alone h]
  generalize s.assertPact.raiseEpoch = v at hf ⊢
  generalize max (s.get R.PAIR.EPOCH.fld) s.pair.epochIn + 1 = epoch at hf ⊢
  rw [toRole_other v .alone 0 (by decide) rfl, toRole_other v .alone 0 (by decide) rfl]
  have hpact := hf.1 (R.PAIR.ROLE.PACT, b2n s.gates) (List.mem_cons_self ..)
  refine ⟨?_, hf.1 (R.PAIR.EPOCH.fld, epoch) (List.mem_cons_of_mem _ (List.mem_cons_self ..))⟩
  rw [hpact]
  cases s.gates <;> rfl

theorem takeStartRole_standby {s : State} {c : Nat} (h : s.boot.role = some (.standby, c)) :
    s.takeStartRole.get R.PAIR.ROLE.CUR = 0 ∧ s.takeStartRole.pair.joining = true ∧ s.takeStartRole.get R.PAIR.ROLE.PACT = s.get R.PAIR.ROLE.PACT := by
  obtain ⟨-, hregs, -⟩ := discardImage_taken s
  rw [startRole_standby h]
  have hpact := toRole_other s.discardImage .standby 0 (f := R.PAIR.ROLE.PACT) (by decide) rfl
  generalize s.discardImage.toRole .standby 0 = v at hpact ⊢
  have hcur : (v.set R.PAIR.ROLE.CUR 0).get R.PAIR.ROLE.CUR = 0 := get_set_same v 0 (by decide)
  have hkeep : (v.set R.PAIR.ROLE.CUR 0).get R.PAIR.ROLE.PACT = v.get R.PAIR.ROLE.PACT := get_set_apart v 0 rfl rfl
  exact ⟨(get_congr rfl _).trans hcur, rfl, (get_congr rfl _).trans (hkeep.trans (hpact.trans (get_congr hregs _)))⟩

theorem takeStartRole_fenced {s : State} {c : Nat} (h : s.boot.role = some (.fenced, c)) (hc : c < 4) :
    s.takeStartRole.get R.PAIR.ROLE.FCAUSE = c := by
  rw [startRole_other h (by decide) (by decide), pairRecord_get _ 3 rfl, toRole_fcause, Nat.mod_eq_of_lt (by omega)]

end Sys2Proof.Machine
end

section
/-! PROOF. GONG_TICK (R18, R31): its stages, and INIT's end assembled from its steps. -/

namespace Sys2Proof.Machine

theorem follows_congr {s u : State} (hi : u.get R.VOTE.MODE.INCL = s.get R.VOTE.MODE.INCL)
    (hc : ∀ ch, u.get (R.VOTE.CHST.CH (chNum ch)) = s.get (R.VOTE.CHST.CH (chNum ch))) (hv : u.vote = s.vote) (ch : Ch) : u.follows ch = s.follows ch := by
  have hrec : u.chRec ch = s.chRec ch := by cases ch <;> simp only [State.chRec, hv]
  unfold State.follows State.executing State.chst
  rw [included_congr hi, hc, hrec]

/-- The state of which the record is restored. -/
def State.runStarted (s : State) : State := { s.runShown with spd := s.runShown.spd.firstTick s.runShown.gong.tick }

theorem runStarted_spec (s : State) :
    let u := s.runStarted
    u = { s with regs := u.regs, fum := u.fum, fumPos := u.fumPos, spd := u.spd } ∧ u.mstate = .run ∧ u.get R.GONG.STATUS.ALIGNED = 1 ∧
      u.spd.runNs = s.gong.tick ∧ RegsKept s u [R.GONG.STATUS.ALIGNED.off, R.SUP.STATE.all.off, R.SUP.FUMSEQ.SEQ.off] := by
  obtain ⟨hu, hm, ha, hk⟩ := runShown_spec s
  unfold State.runStarted
  generalize s.runShown = u at hu hm ha hk ⊢
  have htick : u.gong.tick = s.gong.tick := by rw [hu]
  exact ⟨congrArg (fun x : State => { x with spd := u.spd.firstTick u.gong.tick }) hu, hm, ha, htick, hk⟩

/-- Timers and guard proofs of the record restored, if there is one. -/
def State.restoreStep (s : State) : Option RetBuf → State
  | some b => (s.restoreTimers b).restoreGuards b
  | none => s

theorem restoreStep_spec (s : State) (b : Option RetBuf) :
    let u := s.restoreStep b
    u = { s with regs := u.regs, chA := u.chA, chB := u.chB, chC := u.chC, boot := { s.boot with wallFb := u.boot.wallFb } } ∧
      RegsKept s u [R.SIO.ISTATE.PROVEN.off] ∧ (b = none → u = s) ∧ (∀ ch, (u.ch ch).dir = (s.ch ch).dir) ∧
      ∀ r, b = some r → (∀ ch k, s.follows ch = true → tblFind (u.ch ch).slots k =
        (tblFind (s.ch ch).slots k).map fun v => if restoredTimer v && !(v.wall && s.wallOk r) then shiftTimer s.gong.frame r.frame v else v) ∧
        ∀ i, i < 16 → (u.bit R.SIO.ISTATE.PROVEN i = true ↔ s.bit R.SIO.ISTATE.PROVEN i = true ∨ (s.guardsOpen r ∧ s.guardKept r i = true)) := by
  cases b with
  | none => exact ⟨rfl, fun _ _ => rfl, fun _ => rfl, fun _ => rfl, fun _ h => nomatch h⟩
  | some r =>
    obtain ⟨ht, hch⟩ := restoreTimers_spec s r
    have hslot {ch : Ch} (hf : s.follows ch = true) (k : Nat) := restoreTimers_slot r hf k
    have hx : s.restoreStep (some r) = (s.restoreTimers r).restoreGuards r := rfl
    rw [hx]
    generalize s.restoreTimers r = v at ht hch hslot ⊢
    obtain ⟨hg, hk, hbit⟩ := restoreGuards_spec v r
    generalize v.restoreGuards r = u at hg hk hbit ⊢
    have hregs : v.regs = s.regs := by rw [ht]
    have hchu (ch : Ch) : u.ch ch = v.ch ch := by
      rw [hg]
      cases ch <;> rfl
    have hopen : v.guardsOpen r ↔ s.guardsOpen r := by
      unfold State.guardsOpen
      rw [get_congr hregs, ht]
    have hkept (i : Nat) : v.guardKept r i = s.guardKept r i := by
      unfold State.guardKept State.retGuard
      rw [get_congr hregs, get_congr hregs, ht]
      rfl
    refine ⟨?_, fun o ho => ?_, (fun h => nomatch h), fun ch => ?_, fun r' hr => ?_⟩
    · rw [hg, ht]
    · rw [hk o ho, State.reg, State.reg, hregs]
    · rw [hchu, hch]
      split <;> rfl
    · cases hr
      refine ⟨fun ch k hf => by rw [hchu]; exact hslot hf k, fun i hi => ?_⟩
      rw [hbit i hi, State.bit, get_congr hregs, ← State.bit, hopen, hkept]

theorem beginRun_eq (s : State) :
    s.beginRun = ((s.runStarted.restoreStep s.runStarted.restoredRec).startRecord.endTrial.takeStartRole).firstStamps := by
  unfold State.beginRun
  rfl

theorem restoredRec_runStarted (s : State) : s.runStarted.restoredRec = s.restoredRec := by
  obtain ⟨hu, -, -, -, hk⟩ := runStarted_spec s
  unfold State.restoredRec State.chosenRec
  rw [hk _ (by decide), hk _ (by decide), hu]

/-- INIT's end before a role is taken: RUN, with the record restored and a trial ended. -/
structure RunRestored (s u : State) : Prop where
  frame : u = { s with
    regs := u.regs
    fum := u.fum
    fumPos := u.fumPos
    chA := u.chA
    chB := u.chB
    chC := u.chC
    spd := u.spd
    upd := u.upd
    boot := { s.boot with wallFb := u.boot.wallFb } }
  regs : RegsKept s u ([R.GONG.STATUS.ALIGNED.off, R.SUP.STATE.all.off, R.SUP.FUMSEQ.SEQ.off, R.SIO.ISTATE.PROVEN.off] ++ trialRegs)
  mstate : u.mstate = .run
  aligned : u.get R.GONG.STATUS.ALIGNED = 1
  runNs : u.spd.runNs = s.gong.tick
  dir : ∀ ch, (u.ch ch).dir = (s.ch ch).dir
  slots : ∀ ch k, s.follows ch = true → tblFind (u.ch ch).slots k = match s.restoredRec with
    | some r => (tblFind (s.ch ch).slots k).map fun v => if restoredTimer v && !(v.wall && s.wallOk r) then shiftTimer s.gong.frame r.frame v else v
    | none => tblFind (s.ch ch).slots k
  proven : ∀ i, i < 16 → (u.bit R.SIO.ISTATE.PROVEN i = true ↔ s.bit R.SIO.ISTATE.PROVEN i = true ∨
    ∃ r, s.restoredRec = some r ∧ s.guardsOpen r ∧ s.guardKept r i = true)
  trial : s.get R.UPD.STATE.TRIAL ≠ 0 → s.boot.slot = some s.actSlot → u.get R.UPD.STATE.TRIAL = 0 ∧ u.get R.UPD.STATE.TRIALS = 0 ∧
    ∀ i, s.img s.actSlot = some i →
      (i.hdr.flags.toNat / 2 % 2 = 1 → u.get R.UPD.MINSVN.SVN = i.hdr.svn.toNat ∧ u.get R.UPD.FLAG.SVNUP = 1) ∧
      (i.hdr.flags.toNat / 2 % 2 = 0 → u.get R.UPD.MINSVN.SVN = s.get R.UPD.MINSVN.SVN)

theorem runRestored (s : State) : RunRestored s (s.runStarted.restoreStep s.restoredRec).startRecord.endTrial := by
  obtain ⟨hu, hm, ha, hrun, hk⟩ := runStarted_spec s
  generalize s.runStarted = u at hu hm ha hrun hk ⊢
  have hfol (ch : Ch) : u.follows ch = s.follows ch :=
    follows_congr (regsKept_get hk (by decide)) (fun ch => regsKept_get hk (by cases ch <;> decide)) (by rw [hu]) ch
  have hopen (r : RetBuf) : u.guardsOpen r ↔ s.guardsOpen r := by
    unfold State.guardsOpen
    rw [regsKept_get hk (by decide), hu]
  have hkept (r : RetBuf) {i : Nat} (hi : i < 16) : u.guardKept r i = s.guardKept r i := by
    unfold State.guardKept State.retGuard
    rw [regsKept_get hk (by simp [R.SIO.ICFG.GUARD, R.GONG.STATUS.ALIGNED, R.SUP.STATE.all, R.SUP.FUMSEQ.SEQ]; omega),
      regsKept_get hk (by simp [R.SIO.ICFG.RGUARD, R.GONG.STATUS.ALIGNED, R.SUP.STATE.all, R.SUP.FUMSEQ.SEQ]; omega), hu]
    rfl
  have hwall (r : RetBuf) : u.wallOk r = s.wallOk r := by
    unfold State.wallOk
    rw [regsKept_get hk (by decide), hu]
  have hchu (ch : Ch) : u.ch ch = s.ch ch := by
    rw [hu]
    cases ch <;> rfl
  obtain ⟨hv, hkv, hnone, hdir, hsome⟩ := restoreStep_spec u s.restoredRec
  generalize u.restoreStep s.restoredRec = v at hv hkv hnone hdir hsome ⊢
  have hw := fumarole_regs v 0x01 0xF1 (b2n v.sup.warm) (leBytes 1 (b2n v.boot.wallFb + 2 * b2n v.boot.slotFb) ++ leBytes 3 0 ++ leBytes 8 (v.boot.fRec.getD 0))
  have hwf : v.startRecord = { v with regs := v.startRecord.regs, fum := v.startRecord.fum, fumPos := v.startRecord.fumPos } := rfl
  change RegsKept v v.startRecord _ at hw
  generalize v.startRecord = w at hw hwf ⊢
  obtain ⟨hx, hkx⟩ := endTrial_spec w
  have htrial := endTrial_fields (s := w)
  generalize w.endTrial = x at hx hkx htrial ⊢
  have hall := ((hk.trans hkv).trans hw).trans hkx
  have htail := (hkv.trans hw).trans hkx
  have hwtrial (f : Fld) (hf : f.off ∉ [R.GONG.STATUS.ALIGNED.off, R.SUP.STATE.all.off, R.SUP.FUMSEQ.SEQ.off] ++ [R.SIO.ISTATE.PROVEN.off] ++
      [R.SUP.FUMSEQ.SEQ.off]) : w.get f = s.get f := regsKept_get ((hk.trans hkv).trans hw) hf
  have hwact : w.actSlot = s.actSlot := hwtrial _ (by decide)
  have himg (n : Nat) : w.img n = s.img n := by
    unfold State.img
    rw [hwf, hv, hu]
  have hslot : w.boot.slot = s.boot.slot := by rw [hwf, hv, hu]
  have hxch (ch : Ch) : x.ch ch = v.ch ch := by
    rw [hx, hwf]
    cases ch <;> rfl
  refine { frame := ?_, regs := hall.mono (by decide), mstate := (mstate_congr (regsKept_get htail (by decide))).trans hm,
           aligned := (regsKept_get htail (by decide)).trans ha, runNs := ?_, dir := fun ch => by rw [hxch, hdir, hchu], slots := fun ch k hf => ?_,
           proven := fun i hi => ?_, trial := fun ht hs => ?_ }
  · rw [hx, hwf, hv, hu]
  · rw [hx, hwf, hv]
    exact hrun
  · rw [hxch]
    cases hr : s.restoredRec with
    | none => rw [hnone hr, hchu]
    | some r =>
      rw [(hsome r hr).1 ch k ((hfol ch).trans hf), hchu, hwall, hu]
  · have hxv : x.bit R.SIO.ISTATE.PROVEN i = v.bit R.SIO.ISTATE.PROVEN i := by
      rw [State.bit, regsKept_get (hw.trans hkx) (by decide), State.bit]
    have hus : u.bit R.SIO.ISTATE.PROVEN i = s.bit R.SIO.ISTATE.PROVEN i := by
      rw [State.bit, regsKept_get hk (by decide), State.bit]
    rw [hxv]
    cases hr : s.restoredRec with
    | none =>
      rw [hnone hr, hus]
      exact ⟨.inl, fun h => h.resolve_right fun ⟨r, hr, _⟩ => nomatch hr⟩
    | some r =>
      rw [(hsome r hr).2 i hi, hus, hopen, hkept r hi]
      exact or_congr_right ⟨fun h => ⟨r, rfl, h⟩, fun ⟨r', hr', h⟩ => by cases hr'; exact h⟩
  · obtain ⟨h0, h1, h2⟩ := htrial (by rw [hwtrial _ (by decide)]; exact ht) (by rw [hslot, hwact]; exact hs)
    refine ⟨h0, h1, fun i hi => ?_⟩
    rw [← hwtrial R.UPD.MINSVN.SVN (by decide)]
    exact h2 i (by rw [himg, hwact]; exact hi)

/-! ### The first stamps (R393) -/

/-- The entry is stamped with the first frame of RUN. -/
def State.stampNew (s : State) (x : DirEnt) : Bool := fieldOf x.w3 5 1 = 1 && !(s.boot.fRec.isSome && s.role != .standby && x.ret)

theorem firstStamps_spec (s : State) :
    let u := s.firstStamps
    u = { s with chA := u.chA, chB := u.chB, chC := u.chC } ∧ ∀ ch, s.follows ch = true → (u.ch ch).slots = (s.ch ch).slots ∧
      ∀ id, tblFind (u.ch ch).dir id =
        (tblFind (s.ch ch).dir id).map fun x => if s.stampNew x then { x with w3 := word3 s.gong.frame x.qual.toNat } else x := by
  have hx : s.firstStamps = s.mapCh s.follows fun c => { c with
    dir := c.dir.map fun p => if s.stampNew p.2 then (p.1, { p.2 with w3 := word3 s.gong.frame p.2.qual.toNat }) else p } := rfl
  have hframe := mapCh_frame s s.follows fun c => { c with
    dir := c.dir.map fun p => if s.stampNew p.2 then (p.1, { p.2 with w3 := word3 s.gong.frame p.2.qual.toNat }) else p }
  have hch := mapCh_ch s s.follows fun c => { c with
    dir := c.dir.map fun p => if s.stampNew p.2 then (p.1, { p.2 with w3 := word3 s.gong.frame p.2.qual.toNat }) else p }
  dsimp only
  rw [hx]
  generalize s.mapCh s.follows _ = u at hframe hch ⊢
  refine ⟨hframe, fun ch hf => ?_⟩
  rw [hch, if_pos hf]
  exact ⟨rfl, fun id => tblFind_map_if (s.ch ch).dir (fun p => s.stampNew p.2) (fun p => { p.2 with w3 := word3 s.gong.frame p.2.qual.toNat }) id⟩

theorem initDone_iff (e : State) : e.initDone = true ↔ e.mstate = .init ∧ e.boot.program = true ∧ e.boot.role.isSome = true ∧ e.get R.SUP.STATE.STORE = 1 ∧
    e.get R.SUP.STATE.STOPC = 0 ∧ e.lcs ≠ 0 ∧ e.lcs ≠ 4 ∧ (e.get R.BRG.STATUS.HOLD = 0 ∨ e.get R.BRG.STATUS.CFGD = 1) := by
  unfold State.initDone
  simp only [Bool.and_eq_true, Bool.or_eq_true, decide_eq_true_eq, bne_iff_ne, and_assoc]

/-- A timer moved by the outage. -/
theorem shiftTimer_eq {f r : Nat} {v : Slot} (h : r ≤ f + v.l.toNat) : shiftTimer f r v = { v with l := BitVec.ofInt 64 ((f : Int) + v.l.toNat - r) } := by
  have hcast : ((f : Int) + v.l.toNat - r) = ((f + v.l.toNat - r : Nat) : Int) := by omega
  rw [shiftTimer, hcast, BitVec.ofInt_natCast]

/-- What the first tick of RUN leaves. -/
structure RunBegun (e b : State) : Prop where
  mstate : b.mstate = .run
  aligned : b.get R.GONG.STATUS.ALIGNED = 1
  gong : b.gong = e.gong
  runNs : b.spd.runNs = e.gong.tick
  alone : ∀ c, e.boot.role = some (.alone, c) → b.role = .alone ∧ b.get R.PAIR.ROLE.PACT = b2n e.gates ∧
    b.get R.PAIR.EPOCH.fld = (max (e.get R.PAIR.EPOCH.fld) e.pair.epochIn + 1) % 2 ^ 32
  standby : ∀ c, e.boot.role = some (.standby, c) → b.role = .standby ∧ b.get R.PAIR.ROLE.CUR = 0 ∧ b.pair.joining = true ∧
    b.get R.PAIR.ROLE.PACT = e.get R.PAIR.ROLE.PACT
  fenced : ∀ c, c < 4 → e.boot.role = some (.fenced, c) → b.role = .fenced ∧ b.get R.PAIR.ROLE.FCAUSE = c
  trial : e.get R.UPD.STATE.TRIAL ≠ 0 → e.boot.slot = some e.actSlot → b.get R.UPD.STATE.TRIAL = 0 ∧ b.get R.UPD.STATE.TRIALS = 0 ∧
    ∀ i, e.img e.actSlot = some i →
      (i.hdr.flags.toNat / 2 % 2 = 1 → b.get R.UPD.MINSVN.SVN = i.hdr.svn.toNat ∧ b.get R.UPD.FLAG.SVNUP = 1) ∧
      (i.hdr.flags.toNat / 2 % 2 = 0 → b.get R.UPD.MINSVN.SVN = e.get R.UPD.MINSVN.SVN)
  dir : ∀ r c, e.boot.role = some (r, c) → r ≠ .standby → ∀ ch, e.follows ch = true → ∀ id, tblFind (b.ch ch).dir id =
    (tblFind (e.ch ch).dir id).map fun x =>
      if fieldOf x.w3 5 1 = 1 && !(e.boot.fRec.isSome && x.ret) then { x with w3 := word3 e.gong.frame x.qual.toNat } else x
  slots : ∀ r c, e.boot.role = some (r, c) → r ≠ .standby → ∀ ch, e.follows ch = true → ∀ k, tblFind (b.ch ch).slots k = match e.restoredRec with
    | some r => (tblFind (e.ch ch).slots k).map fun v => if restoredTimer v && !(v.wall && e.wallOk r) then shiftTimer e.gong.frame r.frame v else v
    | none => tblFind (e.ch ch).slots k
  proven : ∀ i, i < 16 → (b.bit R.SIO.ISTATE.PROVEN i = true ↔ e.bit R.SIO.ISTATE.PROVEN i = true ∨
    ∃ r, e.restoredRec = some r ∧ e.guardsOpen r ∧ e.guardKept r i = true)

theorem beginRun_begun (e : State) : RunBegun e e.beginRun := by
  have hv := runRestored e
  rw [beginRun_eq, restoredRec_runStarted]
  generalize (e.runStarted.restoreStep e.restoredRec).startRecord.endTrial = v at hv ⊢
  have hrole : v.boot.role = e.boot.role := by rw [hv.frame]
  have hfrec : v.boot.fRec = e.boot.fRec := by rw [hv.frame]
  have hgates : v.gates = e.gates := by
    unfold State.gates
    rw [hv.frame]
  have hin : v.pair.epochIn = e.pair.epochIn := by rw [hv.frame]
  have hve (f : Fld) (hf : f.off ∉ [R.GONG.STATUS.ALIGNED.off, R.SUP.STATE.all.off, R.SUP.FUMSEQ.SEQ.off, R.SIO.ISTATE.PROVEN.off] ++ trialRegs) :
      v.get f = e.get f := regsKept_get hv.regs hf
  have hw := takeStartRole_taken v
  have halone {c : Nat} := takeStartRole_alone (s := v) (c := c)
  have hstandby {c : Nat} := takeStartRole_standby (s := v) (c := c)
  have hfenced {c : Nat} := takeStartRole_fenced (s := v) (c := c)
  have hch {r : Role} {c : Nat} := takeStartRole_ch (s := v) (r := r) (c := c)
  have hr {r : Role} {c : Nat} := takeStartRole_role (s := v) (r := r) (c := c)
  rw [hrole] at halone hstandby hfenced hch hr
  generalize v.takeStartRole = w at hw halone hstandby hfenced hch hr ⊢
  have hfol (ch : Ch) : w.follows ch = e.follows ch := by
    refine follows_congr ?_ (fun ch => ?_) (by rw [hw.frame, hv.frame]) ch
    · rw [hw.get _ (by decide) (by decide), hve _ (by decide)]
    · rw [hw.get _ (by cases ch <;> decide) (by cases ch <;> decide), hve _ (by cases ch <;> decide)]
  obtain ⟨hb, hstamp⟩ := firstStamps_spec w
  generalize w.firstStamps = b at hb hstamp ⊢
  have hregs : b.regs = w.regs := by rw [hb]
  have hbw (f : Fld) : b.get f = w.get f := get_congr hregs f
  have hbrole : b.role = w.role := congrArg roleOf (hbw _)
  have hbv (f : Fld) (hlt : f.off < 0x100000) (hn : f.off ∉ [R.PAIR.ROLE.all.off, R.PAIR.EPOCH.fld.off, R.SUP.FUMSEQ.SEQ.off]) : b.get f = v.get f :=
    (hbw f).trans (hw.get f hlt hn)
  have hgong : w.gong = e.gong := by rw [hw.frame, hv.frame]
  exact
    { mstate := (mstate_congr (hbv _ (by decide) (by decide))).trans hv.mstate
      aligned := (hbv _ (by decide) (by decide)).trans hv.aligned
      gong := by rw [hb]; exact hgong
      runNs := by rw [hb]; exact hw.runNs.trans hv.runNs
      alone := fun c hc => by
        obtain ⟨hp, he⟩ := halone hc
        rw [hbrole, hbw, hbw, hp, he, hgates, hin, hve R.PAIR.EPOCH.fld (by decide)]
        exact ⟨hr hc, rfl, rfl⟩
      standby := fun c hc => by
        obtain ⟨hcur, hj, hp⟩ := hstandby hc
        have hpair : b.pair = w.pair := by rw [hb]
        rw [hbrole, hbw, hbw, hcur, hp, hpair, hve R.PAIR.ROLE.PACT (by decide)]
        exact ⟨hr hc, rfl, hj, rfl⟩
      fenced := fun c hlt hc => by
        rw [hbrole, hbw]
        exact ⟨hr hc, hfenced hc hlt⟩
      trial := fun ht hs => by
        rw [hbv _ (by decide) (by decide), hbv _ (by decide) (by decide), hbv _ (by decide) (by decide), hbv _ (by decide) (by decide)]
        exact hv.trial ht hs
      dir := fun r c hc hne ch hf id => by
        have hrw : w.role = r := hr hc
        have hfw : w.boot.fRec = e.boot.fRec := by rw [hw.frame]; exact hfrec
        have hstb : (r != .standby) = true := bne_iff_ne.2 hne
        rw [(hstamp ch ((hfol ch).trans hf)).2 id, hch hc hne, hv.dir, hgong]
        unfold State.stampNew
        rw [hrw, hfw, hstb, Bool.and_true]
      slots := fun r c hc hne ch hf k => by
        rw [(hstamp ch ((hfol ch).trans hf)).1, hch hc hne, hv.slots ch k hf]
      proven := fun i hi => by
        have hbit : b.bit R.SIO.ISTATE.PROVEN i = v.bit R.SIO.ISTATE.PROVEN i := by
          rw [State.bit, hbv _ (by decide) (by decide), State.bit]
        rw [hbit]
        exact hv.proven i hi }

/-! ### The obligation -/

/-- Force commands at a tick edge. -/
theorem forceTick_spec (s : State) (id : Nat) :
    let t := s.forceTick
    let last := (s.fcmds.filter (ForceCmd.names id)).getLast?
    t = { s with fcmds := [], forces := t.forces, chA := t.chA, chB := t.chB, chC := t.chC } ∧
      (last = none → t.forceOf id = s.forceOf id) ∧
      (∀ k v, last = some (.set k v) → t.forceOf id = some ⟨id, BitVec.ofNat 32 s.gong.frame, v⟩) ∧
      (∀ k, last = some (.clear k) ∨ last = some .clearAll → t.forceOf id = none) ∧
      ∀ ch x, s.follows ch = true → tblFind (s.ch ch).dir id = some x →
        ∃ w3, tblFind (t.ch ch).dir id = some { x with w3 := w3 } ∧ fieldOf w3 0 1 = fieldOf x.w3 0 1 ∧ fieldOf w3 2 30 = fieldOf x.w3 2 30 ∧
          (s.fcmds ≠ [] → (t.forceOf id).isSome = true → fieldOf w3 1 1 = 1) ∧
          (t.forceOf id = none → (s.forceOf id).isSome = true → fieldOf w3 1 1 = 0) := by
  have hforce := forceTick_force s id
  refine ⟨forceTick_frame s, fun h => ?_, fun k v h => ?_, fun k h => ?_, fun ch x hf hx => ?_⟩
  · rw [hforce, h]
  · rw [hforce, h]
  · rw [hforce]
    rcases h with h | h <;> rw [h]
  · obtain ⟨y, hy, ha, hset, hclear⟩ := forceTick_dir s hf hx
    exact ⟨y.w3, hy.trans (congrArg some ha.eq), ha.valid, ha.other, hset, hclear⟩

/-- The life-cycle command and the removal of forces at a tick edge. -/
theorem lifeTick_spec (s : State) :
    let t := s.lcTick.silTick
    let sil (id : Nat) : Prop := ∃ x, s.dirEnt id = some x ∧ 1 ≤ x.sclass ∧ x.sclass ≤ 4
    let left : Prop := s.bist.dropSil = true ∨ (s.bist.lcNew.isSome = true ∧ (s.lcs = 1 ∨ s.lcs = 3))
    (s.bist.lcNew = none → s.bist.dropSil = false → t = s) ∧
      (∀ n, s.bist.lcNew = some n → t.lcs = n % 2 ^ R.BIST.LCS.STATE.w ∧ t.get R.BIST.FLAG.LCCHG = 1 ∧ t.bist.lcNew = none ∧
        t.get R.CFG.EXPERT.UNLK = 0 ∧ t.upd.idKey = (if n = 4 then false else if s.lcs = 0 then true else s.upd.idKey) ∧
        (n = 4 → s.mstate = .init → t.get R.SUP.STATE.STOPC = 4)) ∧
      (left → t.bist.dropSil = false ∧ (∀ id, (sil id → t.forceOf id = none) ∧ (¬ sil id → t.forceOf id = s.forceOf id)) ∧
        ((∃ x ∈ s.forces, sil x.id) → t.get R.SIG.FLAG.FDROP = 1)) ∧
      (¬ left → t.forces = s.forces) := by
  intro t sil left
  have hsil : SilLeft s t left := by
    cases h : s.bist.lcNew with
    | none =>
      have ht : t = s.silTick := congrArg State.silTick (lcTick_none h)
      have htick := silTick_ticked s
      rw [ht]
      refine ⟨fun hl => ?_, fun hl => ?_⟩
      · have hd : s.bist.dropSil = true := hl.resolve_right fun k => by rw [h] at k; exact Bool.false_ne_true k.1
        exact ⟨by rw [htick.bist], htick.left hd⟩
      · rw [htick.stay (by rw [← Bool.not_eq_true]; exact fun k => hl (.inl k))]
    | some n =>
      have hiff : left ↔ s.bist.dropSil = true ∨ s.lcs = 1 ∨ s.lcs = 3 := or_congr_right ⟨fun k => k.2, fun k => ⟨by rw [h]; rfl, k⟩⟩
      obtain ⟨-, hleft⟩ := lcTick_silTick h
      exact ⟨fun k => hleft.gone (hiff.1 k), fun k => hleft.kept fun k' => k (hiff.2 k')⟩
  refine ⟨fun hn hd => ?_, fun n hn => ?_, fun hl => ?_, hsil.kept⟩
  · have ht : t = s.silTick := congrArg State.silTick (lcTick_none hn)
    rw [ht, silTick_idle hd]
  · obtain ⟨hc, -⟩ := lcTick_silTick hn
    exact ⟨hc.lcs, hc.flag, hc.lcNew, hc.unlk, hc.key, hc.stopc⟩
  · obtain ⟨hd, hforce, hflag⟩ := hsil.gone hl
    refine ⟨hd, fun id => ⟨fun k => (hforce id).1 ((sil_iff s id).2 k), fun k => (hforce id).2 ?_⟩, fun ⟨x, hx, k⟩ => hflag ⟨x, hx, (sil_iff s x.id).2 k⟩⟩
    rw [← Bool.not_eq_true, sil_iff]
    exact k

theorem guardsKept_iff (s : State) (b : RetBuf) (i : Nat) : (s.guardsOpen b ∧ s.guardKept b i = true) ↔ b.tlock = true ∧ s.get R.TIME.STATUS.SYNC = 1 ∧
    s.gong.tick < b.wallNs + 10000000000 ∧ s.get (R.SIO.ICFG.GUARD i) = 1 ∧ s.get (R.SIO.ICFG.RGUARD i) = 1 ∧ b.proven.getLsbD i = true ∧
    s.inFaults i = [] := by
  unfold State.guardsOpen State.guardKept State.retGuard
  simp only [Bool.and_eq_true, decide_eq_true_eq, List.isEmpty_iff, and_assoc]

/-- Settles O29: the stages by definition, then force commands, the life-cycle change and the end of INIT, each by its lemma. -/
theorem ticksTakeCommandsAndBeginRun : Obligations.TicksTakeCommandsAndBeginRun := by
  unfold Obligations.TicksTakeCommandsAndBeginRun
  intro s e b f ready
  have hready : ready ↔ e.initDone = true := (initDone_iff e).symm
  refine ⟨fun hm => ?_, rfl, forceTick_spec s, lifeTick_spec s, fun hr => if_neg fun k => hr (hready.2 k), fun hr => ?_⟩
  · have hx : exec .gongTick s = s.whilePowered (if s.mstate = .boot then s else
      s.tickBegun.frameReset.unitsTick.dropPassed.showHeld.releaseAll.testCheck) := rfl
    exact does_of_whilePowered hx fun _ => if_neg hm
  · have hb : b = e.beginRun := if_pos (hready.1 hr)
    have h := beginRun_begun e
    rw [hb]
    refine ⟨h.mstate, h.aligned, h.gong, h.runNs, h.alone, h.standby, h.fenced, h.trial, fun r c hc hne ch hf => ?_⟩
    intro rec? wallOk
    have hwall (r : RetBuf) : e.wallOk r = true ↔ wallOk r := by
      unfold State.wallOk
      simp only [Bool.and_eq_true, decide_eq_true_eq, and_assoc]
      rfl
    refine ⟨fun id x hx => ?_, fun k v hv => ?_, fun i hi => ?_⟩
    · intro new
      have hnew : (fieldOf x.w3 5 1 = 1 && !(e.boot.fRec.isSome && x.ret)) = true ↔ new := by
        rw [Bool.and_eq_true, decide_eq_true_eq, Bool.not_eq_true', ← Bool.not_eq_true, Bool.and_eq_true]
      have hdir := h.dir r c hc hne ch hf id
      rw [hx] at hdir
      refine ⟨fun hn => ?_, fun hn => ?_⟩
      · refine ⟨word3 f x.qual.toNat, hdir.trans (congrArg some (if_pos (hnew.2 hn))), word3_stamp .., ?_⟩
        rw [word3_qual _ _ (by decide), ← fieldOf_qual x (by decide), Nat.mod_eq_of_lt (show x.qual.toNat < 64 from x.qual.isLt)]
      · exact hdir.trans (congrArg some (if_neg fun k => hn (hnew.1 k)))
    · intro timer
      have htimer : restoredTimer v = true ↔ timer := by
        unfold restoredTimer
        simp only [Bool.and_eq_true, decide_eq_true_eq, and_assoc]
        rfl
      have hslot := h.slots r c hc hne ch hf k
      rw [hv] at hslot
      refine ⟨fun hn => ?_, fun b hb ht => ⟨fun hw ho => ?_, fun hw hle => ?_⟩⟩
      · rw [hslot]
        cases hr : e.restoredRec with
        | none => rfl
        | some b =>
          have hnt : restoredTimer v = false := by
            rw [← Bool.not_eq_true, htimer]
            exact hn.resolve_left fun k => by rw [show e.restoredRec = none from k] at hr; cases hr
          simp [hnt]
      · rw [hslot, show e.restoredRec = some b from hb]
        simp [hw, (hwall b).2 ho]
      · rw [hslot, show e.restoredRec = some b from hb]
        have hmove : (restoredTimer v && !(v.wall && e.wallOk b)) = true := by
          rw [htimer.2 ht, Bool.true_and, Bool.not_eq_true', Bool.and_eq_false_iff]
          exact hw.imp_right fun k => by rw [← Bool.not_eq_true, hwall]; exact k
        exact (congrArg some (if_pos hmove)).trans (congrArg some (shiftTimer_eq hle))
    · rw [h.proven i hi]
      exact or_congr_right (exists_congr fun b => and_congr_right fun _ => guardsKept_iff e b i)

end Sys2Proof.Machine
end

section
/-! PROOF. BOOT (R17, R27, R319, R326, R327, R331, R338 to R340, R349, R380): slot code, plug, image check, loading, layering, and its end. -/

namespace Sys2Proof.Machine

/-! ### A step of BOOT -/

theorem booting_of {s : State} (hm : s.mstate = .boot) (hc : s.get R.SUP.STATE.STOPC = 0) (hp : s.sup.powered = true) : s.booting = true := by
  rw [State.booting, hm, hc, hp]; rfl

/-- A step of BOOT that is not done acts. -/
theorem does_of_step {c : Instr} {s t : State} {post : State → Prop} {done : Prop} [Decidable ((!s.booting) = true ∨ done)]
    (hm : s.mstate = .boot) (hc : s.get R.SUP.STATE.STOPC = 0) (hd : ¬ done)
    (hx : exec c s = s.whilePowered (if (!s.booting) = true ∨ done then s else t)) (h : post t) : Does c s post :=
  does_of_whilePowered hx fun hp => by rwa [if_neg (by simp [booting_of hm hc hp, hd])]

/-- A step of BOOT that is done changes nothing. -/
theorem ignored_of_done {c : Instr} {s t : State} {done : Prop} [Decidable ((!s.booting) = true ∨ done)] (hd : done)
    (hx : exec c s = s.whilePowered (if (!s.booting) = true ∨ done then s else t)) : Ignored c s := by
  rw [Ignored, hx, if_pos (.inr hd)]
  exact whilePowered_self s

/-- BOOT goes on while its layering is outstanding. -/
theorem leaveBoot_unlayered {s : State} (h : s.boot.layered = false) : s.leaveBoot = s := by
  rw [State.leaveBoot, State.bootDone, h, Bool.and_false]; rfl

theorem leaveBoot_unchecked {s : State} (h : s.boot.imageOk = false) : s.leaveBoot = s := by
  rw [State.leaveBoot, State.bootDone, h, Bool.and_false]; rfl

/-! ### UCAUSE -/

/-- The first condition of R331 that fails, for a slot code and a plug. -/
def State.bootCause (s : State) (slot plug : Bool) (rack code : Nat) : Nat :=
  firstReason [(1, !slot), (2, !plug), (3, s.byTtdb && !s.boot.posRead), (4, s.byTtdb && s.boot.pos.isNone), (5, !Config.hostOk (32 * rack + code)),
    (6, s.net.conflict), (7, !s.boot.probed)]

theorem b2n_shown (s : State) (f : Fld) (hf : f.w = 1) : s.get f = b2n (decide (s.get f = 1)) := by
  have h := get_lt s f
  rw [hf] at h
  by_cases h1 : s.get f = 1
  · rw [h1]; rfl
  · rw [decide_eq_false h1]
    exact Nat.lt_one_iff.1 (by omega)

theorem ucause_bootCause {s t : State} {b : BootSt} {slot plug : Bool} {rack code : Nat} (hslot : t.get R.ID.SLOT.VALID = b2n slot)
    (hplug : t.get R.ID.PLUG.VALID = b2n plug) (hrack : t.get R.ID.PLUG.RACK = rack) (hcode : t.get R.ID.SLOT.CODE = code)
    (hmode : t.get R.CFG.ADDRCFG.MODE = s.get R.CFG.ADDRCFG.MODE) (hread : b.posRead = s.boot.posRead) (hpos : b.pos = s.boot.pos)
    (hprobed : b.probed = s.boot.probed) (hnet : t.net = s.net) : State.ucause { t with boot := b } = s.bootCause slot plug rack code := by
  have hx : State.ucause { t with boot := b } = firstReason [(1, t.get R.ID.SLOT.VALID = 0), (2, t.get R.ID.PLUG.VALID = 0),
    (3, t.byTtdb && !b.posRead), (4, t.byTtdb && b.pos.isNone), (5, !Config.hostOk t.hostId), (6, t.net.conflict), (7, !b.probed)] := rfl
  have ttdb : t.byTtdb = s.byTtdb := by rw [State.byTtdb, hmode]; rfl
  have hs : decide (b2n slot = 0) = !slot := by cases slot <;> rfl
  have hp : decide (b2n plug = 0) = !plug := by cases plug <;> rfl
  rw [hx, hslot, hplug, ttdb, hread, hpos, State.hostId, hrack, hcode, hnet, hprobed, hs, hp, Nat.mul_comm rack, State.bootCause]

/-- A step of BOOT is done: UCAUSE is shown anew, and BOOT ends where it was the last one. -/
def State.stepEnd (s : State) (b : BootSt) : State := (State.showUcause { s with boot := b }).leaveBoot

/-- A step that wrote fields is done while the layering is outstanding. -/
theorem stepEnd_spec {s t : State} {l : List (Fld × Nat)} {b : BootSt} (h : OnlyFields s t l) (hb : b.layered = false)
    (hl : besides R.ID.ASTAT.ADDR l = true) (hu : besides R.ID.ASTAT.UCAUSE l = true) (ha : s.get R.ID.ASTAT.ADDR = 0) {n : Nat}
    (hn : State.ucause { t with boot := b } = n) :
    t.stepEnd b = { s with regs := (t.stepEnd b).regs, boot := b } ∧ FieldsSet s (t.stepEnd b) (l ++ [(R.ID.ASTAT.UCAUSE, n)]) := by
  obtain ⟨heq, hf⟩ := h
  have haddr : State.get { t with boot := b } R.ID.ASTAT.ADDR = 0 := (hf.get_eq _ hl).trans ha
  have hx : t.stepEnd b = { t with
      boot := b
      regs := (t.set R.ID.ASTAT.UCAUSE n).regs } := by
    rw [State.stepEnd, State.showUcause, if_neg (by rw [haddr]; decide), hn]
    exact leaveBoot_unlayered hb
  rw [hx]
  exact ⟨congrArg (fun x : State => { x with boot := b, regs := (t.set R.ID.ASTAT.UCAUSE n).regs }) heq,
    (hf.put R.ID.ASTAT.UCAUSE n hu).of_regs rfl⟩

/-! ### Slot code and plug -/

/-- The slot code as its first sample shows it. -/
def State.slotShown (s : State) (v : BitVec 6) (ok : Bool) : State :=
  ((s.set R.ID.SLOT.CODE (v.toNat % 32)).set R.ID.SLOT.SLOTP (v.toNat / 32)).set R.ID.SLOT.VALID (b2n ok)

theorem slotShown_fields (s : State) (v : BitVec 6) (ok : Bool) : OnlyFields s (s.slotShown v ok)
    [(R.ID.SLOT.CODE, v.toNat % 32), (R.ID.SLOT.SLOTP, v.toNat / 32), (R.ID.SLOT.VALID, b2n ok)] :=
  (((OnlyFields.refl s).put R.ID.SLOT.CODE _ rfl).put R.ID.SLOT.SLOTP _ rfl).put R.ID.SLOT.VALID _ rfl

/-- The samples are eight of one valid code. -/
def slotOk (samples : List (BitVec 6)) (v : BitVec 6) : Bool :=
  samples.length = 8 && samples.all (fun x => x = v) && ((List.range 6).filter fun i => v.getLsbD i).length % 2 = 1 && decide (1 ≤ v.toNat % 32) &&
    decide (v.toNat % 32 ≤ 30)

theorem slotOk_iff {samples : List (BitVec 6)} {v : BitVec 6} : slotOk samples v = true ↔
    samples = List.replicate 8 v ∧ ((List.range 6).filter fun i => v.getLsbD i).length % 2 = 1 ∧ 1 ≤ v.toNat % 32 ∧ v.toNat % 32 ≤ 30 := by
  simp only [slotOk, Bool.and_eq_true, decide_eq_true_eq, List.all_eq_true, List.eq_replicate_iff, and_assoc]

/-- The slot code taken from its samples. -/
def State.slotTaken (s : State) (v : BitVec 6) (ok : Bool) : State :=
  let s1 := s.slotShown v ok
  let b := { s1.boot with slotDone := true }
  State.leaveBoot (State.showUcause (if ok then { s1 with boot := b } else { s1.flag R.ID.FLAG.SLOTERR with boot := { b with role := some (.fenced, 3) } }))

theorem exec_slotCodeSample (s : State) (samples : List (BitVec 6)) : exec (.slotCodeSample samples) s =
    s.whilePowered (if (!s.booting) = true ∨ s.boot.slotDone = true then s else s.slotTaken (samples.headD 0) (slotOk samples (samples.headD 0))) := rfl

theorem slotTaken_true (s : State) (v : BitVec 6) :
    s.slotTaken v true = (s.slotShown v true).stepEnd { (s.slotShown v true).boot with slotDone := true } := by
  rw [State.slotTaken, if_pos rfl]
  rfl

theorem slotTaken_false (s : State) (v : BitVec 6) : s.slotTaken v false =
    ((s.slotShown v false).flag R.ID.FLAG.SLOTERR).stepEnd { (s.slotShown v false).boot with slotDone := true, role := some (.fenced, 3) } := by
  rw [State.slotTaken, if_neg Bool.false_ne_true]
  rfl

theorem slotShown_boot (s : State) (v : BitVec 6) (ok : Bool) : (s.slotShown v ok).boot = s.boot := by rw [(slotShown_fields s v ok).1]

theorem slotTaken_valid {s : State} {v : BitVec 6} (hl : s.boot.layered = false) (ha : s.get R.ID.ASTAT.ADDR = 0) :
    let t := s.slotTaken v true
    t = { s with regs := t.regs, boot := { s.boot with slotDone := true } } ∧
      FieldsSet s t [(R.ID.SLOT.CODE, v.toNat % 32), (R.ID.SLOT.SLOTP, v.toNat / 32), (R.ID.SLOT.VALID, 1),
        (R.ID.ASTAT.UCAUSE, s.bootCause true (decide (s.get R.ID.PLUG.VALID = 1)) (s.get R.ID.PLUG.RACK) (v.toNat % 32))] := by
  have h := slotShown_fields s v true
  rw [slotTaken_true, slotShown_boot]
  generalize s.slotShown v true = x at h ⊢
  have hnet : x.net = s.net := by rw [h.1]
  have hslot : x.get R.ID.SLOT.VALID = b2n true := h.2.1 (R.ID.SLOT.VALID, b2n true) (by simp)
  have hplug : x.get R.ID.PLUG.VALID = b2n (decide (s.get R.ID.PLUG.VALID = 1)) := (h.2.get_eq R.ID.PLUG.VALID rfl).trans (b2n_shown s _ rfl)
  have hcode : x.get R.ID.SLOT.CODE = v.toNat % 32 := (h.2.1 (R.ID.SLOT.CODE, v.toNat % 32) (by simp)).trans (Nat.mod_mod ..)
  exact stepEnd_spec (b := { s.boot with slotDone := true }) h hl rfl rfl ha
    (ucause_bootCause hslot hplug (h.2.get_eq R.ID.PLUG.RACK rfl) hcode (h.2.get_eq R.CFG.ADDRCFG.MODE rfl) rfl rfl rfl hnet)

theorem slotTaken_invalid {s : State} {v : BitVec 6} (hl : s.boot.layered = false) (ha : s.get R.ID.ASTAT.ADDR = 0) :
    let t := s.slotTaken v false
    t = { s with regs := t.regs, boot := { s.boot with slotDone := true, role := some (.fenced, 3) } } ∧
      FieldsSet s t [(R.ID.SLOT.CODE, v.toNat % 32), (R.ID.SLOT.SLOTP, v.toNat / 32), (R.ID.SLOT.VALID, 0), (R.ID.FLAG.SLOTERR, 1),
        (R.ID.ASTAT.UCAUSE, 1)] := by
  have h : OnlyFields s ((s.slotShown v false).flag R.ID.FLAG.SLOTERR) _ := (slotShown_fields s v false).put R.ID.FLAG.SLOTERR 1 rfl
  rw [slotTaken_false, slotShown_boot]
  generalize (s.slotShown v false).flag R.ID.FLAG.SLOTERR = x at h ⊢
  have hcause : State.ucause { x with boot := { s.boot with slotDone := true, role := some (.fenced, 3) } } = 1 :=
    if_pos (decide_eq_true (h.2.1 (R.ID.SLOT.VALID, b2n false) (by simp)))
  exact stepEnd_spec (b := { s.boot with slotDone := true, role := some (.fenced, 3) }) h hl rfl rfl ha hcause

/-- The identification of the vehicle as a plug holds it. -/
def plugFields (b : List Byte) : List (Fld × Nat) :=
  [(R.ID.PLUG.VALID, 1), (R.ID.PLUG.RACK, leNat (bytesAt b 5 1)), (R.ID.PLUG.VTYPE, leNat (bytesAt b 6 2)),
    (R.ID.VEHID.BYTES 0, leNat (bytesAt b 8 4)), (R.ID.VEHID.BYTES 1, leNat (bytesAt b 12 4)), (R.ID.VEHID.BYTES 2, leNat (bytesAt b 16 4)),
    (R.ID.VEHID.BYTES 3, leNat (bytesAt b 20 4))]

/-- The registers with a plug's identification. -/
def State.plugShown (s : State) (b : List Byte) : State :=
  (((((((s.set R.ID.PLUG.VALID 1).set R.ID.PLUG.RACK (leNat (bytesAt b 5 1))).set R.ID.PLUG.VTYPE (leNat (bytesAt b 6 2))).set
    (R.ID.VEHID.BYTES 0) (leNat (bytesAt b 8 4))).set (R.ID.VEHID.BYTES 1) (leNat (bytesAt b 12 4))).set
    (R.ID.VEHID.BYTES 2) (leNat (bytesAt b 16 4))).set (R.ID.VEHID.BYTES 3) (leNat (bytesAt b 20 4)))

theorem plugShown_fields (s : State) (b : List Byte) : OnlyFields s (s.plugShown b) (plugFields b) :=
  (((((((OnlyFields.refl s).put R.ID.PLUG.VALID 1 rfl).put R.ID.PLUG.RACK _ rfl).put R.ID.PLUG.VTYPE _ rfl).put (R.ID.VEHID.BYTES 0) _ rfl).put
    (R.ID.VEHID.BYTES 1) _ rfl).put (R.ID.VEHID.BYTES 2) _ rfl).put (R.ID.VEHID.BYTES 3) _ rfl

theorem plugDone_none (s : State) : s.plugDone none = s.stepEnd { s.boot with plugDone := true } := rfl

theorem plugDone_some (s : State) (b : List Byte) : s.plugDone (some b) = (s.plugShown b).stepEnd { s.boot with plugDone := true } := by
  have hx : s.plugDone (some b) = (s.plugShown b).stepEnd { (s.plugShown b).boot with plugDone := true } := rfl
  have hboot : (s.plugShown b).boot = s.boot := by rw [(plugShown_fields s b).1]
  rw [hx, hboot]

theorem plugDone_failed {s : State} (hl : s.boot.layered = false) (ha : s.get R.ID.ASTAT.ADDR = 0) :
    let t := s.plugDone none
    t = { s with regs := t.regs, boot := { s.boot with plugDone := true } } ∧
      FieldsSet s t [(R.ID.ASTAT.UCAUSE, s.bootCause (decide (s.get R.ID.SLOT.VALID = 1)) (decide (s.get R.ID.PLUG.VALID = 1)) (s.get R.ID.PLUG.RACK)
        (s.get R.ID.SLOT.CODE))] := by
  rw [plugDone_none]
  exact stepEnd_spec (b := { s.boot with plugDone := true }) (OnlyFields.refl s) hl rfl rfl ha
    (ucause_bootCause (b2n_shown s R.ID.SLOT.VALID rfl) (b2n_shown s R.ID.PLUG.VALID rfl) rfl rfl rfl rfl rfl rfl rfl)

theorem plugDone_read {s : State} (b : List Byte) (hl : s.boot.layered = false) (ha : s.get R.ID.ASTAT.ADDR = 0) :
    let t := s.plugDone (some b)
    t = { s with regs := t.regs, boot := { s.boot with plugDone := true } } ∧
      FieldsSet s t (plugFields b ++ [(R.ID.ASTAT.UCAUSE, s.bootCause (decide (s.get R.ID.SLOT.VALID = 1)) true (leNat (bytesAt b 5 1))
        (s.get R.ID.SLOT.CODE))]) := by
  have h := plugShown_fields s b
  rw [plugDone_some]
  generalize s.plugShown b = x at h ⊢
  have hnet : x.net = s.net := by rw [h.1]
  have hslot : x.get R.ID.SLOT.VALID = b2n (decide (s.get R.ID.SLOT.VALID = 1)) := (h.2.get_eq R.ID.SLOT.VALID rfl).trans (b2n_shown s _ rfl)
  have hplug : x.get R.ID.PLUG.VALID = b2n true := h.2.1 (R.ID.PLUG.VALID, 1) (by simp [plugFields])
  have hrack : x.get R.ID.PLUG.RACK = leNat (bytesAt b 5 1) :=
    (h.2.1 (R.ID.PLUG.RACK, leNat (bytesAt b 5 1)) (by simp [plugFields])).trans (Nat.mod_eq_of_lt (b.getD 5 0).isLt)
  exact stepEnd_spec (b := { s.boot with plugDone := true }) h hl rfl rfl ha
    (ucause_bootCause hslot hplug hrack (h.2.get_eq R.ID.SLOT.CODE rfl) (h.2.get_eq R.CFG.ADDRCFG.MODE rfl) rfl rfl rfl hnet)

end Sys2Proof.Machine
end

section
/-! PROOF. The image check of BOOT (R339, R340): the slot to start from, the slot record, RECOVERY and the stop. -/

namespace Sys2Proof.Machine

/-! ### Registers only -/

/-- From `s` to `t` only registers changed, at the offsets listed. -/
def Shows (l : List Nat) (s t : State) : Prop := t = { s with regs := t.regs } ∧ RegsKept s t l

namespace Shows

variable {l l' : List Nat} {s t u : State}

theorem refl (l : List Nat) (s : State) : Shows l s s := ⟨rfl, fun _ _ => rfl⟩

theorem set (h : Shows l s t) (f : Fld) (n : Nat) (hf : f.off ∈ l) : Shows l s (t.set f n) :=
  ⟨congrArg (fun u : State => { u with regs := (t.set f n).regs }) h.1,
    fun o ho => (reg_set_ne _ _ _ fun he => ho (by rw [he]; exact hf)).trans (h.2 o ho)⟩

theorem setReg (h : Shows l s t) (o : Nat) (v : W32) (ho : o ∈ l) : Shows l s (t.setReg o v) :=
  ⟨congrArg (fun u : State => { u with regs := (t.setReg o v).regs }) h.1,
    fun o' h' => (reg_setReg_ne _ _ fun he => h' (by rw [he]; exact ho)).trans (h.2 o' h')⟩

theorem trans (h : Shows l s t) (k : Shows l t u) : Shows l s u :=
  ⟨k.1.trans (congrArg (fun x : State => { x with regs := u.regs }) h.1), fun o ho => (k.2 o ho).trans (h.2 o ho)⟩

theorem mono (h : Shows l s t) (hl : ∀ o ∈ l, o ∈ l') : Shows l' s t := ⟨h.1, fun o ho => h.2 o fun hm => ho (hl o hm)⟩

theorem ite {c : Prop} [Decidable c] (ht : Shows l s t) (hu : Shows l s u) : Shows l s (if c then t else u) := by
  split
  exacts [ht, hu]

theorem foldl {α : Type} {f : State → α → State} (k : List α) (hf : ∀ t a, a ∈ k → Shows l s t → Shows l s (f t a)) (h : Shows l s t) :
    Shows l s (k.foldl f t) := by
  induction k generalizing t with
  | nil => exact h
  | cons a k ih => exact ih (fun t a' ha => hf t a' (List.mem_cons_of_mem _ ha)) (hf t a (List.mem_cons_self ..) h)

theorem get (h : Shows l s t) {f : Fld} (hf : f.off ∉ l) : t.get f = s.get f := regsKept_get h.2 hf

end Shows

theorem OnlyFields.shows {s t : State} {l : List (Fld × Nat)} {k : List Nat} (h : OnlyFields s t l) (hk : RegsKept s t k) : Shows k s t := ⟨h.1, hk⟩

/-! ### The slot record (R336) -/

theorem slotRec_ok {s : State} {r : SlotRec} (h : s.slotRec = some r) : r.ok = true := by
  unfold State.slotRec at h
  split at h
  · next a b ha hb =>
    split at h
    · rw [← Option.some.inj h]; exact (Option.filter_eq_some_iff.1 hb).2
    · rw [← Option.some.inj h]; exact (Option.filter_eq_some_iff.1 ha).2
  · next a ha hb =>
    rw [← Option.some.inj h]; exact (Option.filter_eq_some_iff.1 ha).2
  · next o ha =>
    exact (Option.filter_eq_some_iff.1 h).2

/-- The record that a start or a command writes. -/
def State.nextSlotRec (s : State) : SlotRec :=
  let r : SlotRec := ⟨(match s.slotRec with | some r => r.seq + 1 | none => 1), s.actSlot, s.get R.UPD.STATE.TRIAL, s.get R.UPD.STATE.TRIALS, 0⟩
  { r with crc := r.sum }

theorem nextSlotRec_ok (s : State) : s.nextSlotRec.ok = true := decide_eq_true rfl

theorem nextSlotRec_seq {s : State} {r : SlotRec} (h : s.slotRec = some r) : s.nextSlotRec.seq = r.seq + 1 := by
  rw [State.nextSlotRec, h]

theorem writeSlotRec_eq (s : State) : s.writeSlotRec =
    if s.slotRec.isSome ∧ s.slotRec = s.upd.rec0 then { s with upd := { s.upd with rec1 := some s.nextSlotRec } }
    else { s with upd := { s.upd with rec0 := some s.nextSlotRec } } := rfl

/-- The record that holds is one of the valid copies; no other valid copy is newer. -/
theorem slotRec_cases (s : State) : match s.upd.rec0.filter SlotRec.ok, s.upd.rec1.filter SlotRec.ok with
    | some a, some b => if a.seq < b.seq then s.slotRec = some b else s.slotRec = some a
    | some a, none => s.slotRec = some a
    | none, b => s.slotRec = b := by
  unfold State.slotRec
  cases s.upd.rec0.filter SlotRec.ok with
  | none => rfl
  | some a =>
    cases s.upd.rec1.filter SlotRec.ok with
    | none => rfl
    | some b =>
      dsimp only
      split <;> rfl

/-- The written record holds from then on. -/
theorem writeSlotRec_slotRec (s : State) : s.writeSlotRec.slotRec = some s.nextSlotRec := by
  have hok := nextSlotRec_ok s
  have hseq {r : SlotRec} (h : s.slotRec = some r) := nextSlotRec_seq h
  rw [writeSlotRec_eq]
  generalize s.nextSlotRec = n at hok hseq ⊢
  have hnew : (some n).filter SlotRec.ok = some n := Option.filter_eq_some_iff.2 ⟨rfl, hok⟩
  split
  · next h =>
    obtain ⟨hsome, heq⟩ := h
    obtain ⟨r, hr⟩ := Option.isSome_iff_exists.1 hsome
    have h0 : s.upd.rec0.filter SlotRec.ok = some r := by rw [← heq, hr]; exact Option.filter_eq_some_iff.2 ⟨rfl, slotRec_ok hr⟩
    unfold State.slotRec
    dsimp only
    rw [h0, hnew]
    exact if_pos (by rw [hseq hr]; omega)
  · next h =>
    unfold State.slotRec
    dsimp only
    rw [hnew]
    cases hb : s.upd.rec1.filter SlotRec.ok with
    | none => rfl
    | some b =>
      refine if_neg fun hlt => h ?_
      have hc := slotRec_cases s
      rw [hb] at hc
      cases ha : s.upd.rec0.filter SlotRec.ok with
      | none =>
        rw [ha] at hc
        have := hseq hc
        omega
      | some a =>
        rw [ha] at hc
        dsimp only at hc
        split at hc
        · have := hseq hc
          omega
        · exact ⟨by rw [hc]; rfl, by rw [hc, (Option.filter_eq_some_iff.1 ha).1]⟩

/-- The record that held stays beside the written one. -/
theorem writeSlotRec_keeps {s : State} {r : SlotRec} (h : s.slotRec = some r) :
    s.writeSlotRec.upd.rec0 = some r ∨ s.writeSlotRec.upd.rec1 = some r := by
  rw [writeSlotRec_eq]
  split
  · next hc => exact .inl (by rw [← h]; exact hc.2.symm)
  · next hc =>
    refine .inr ?_
    have hcs := slotRec_cases s
    rw [h] at hcs hc
    cases ha : s.upd.rec0.filter SlotRec.ok with
    | none =>
      rw [ha] at hcs
      exact (Option.filter_eq_some_iff.1 hcs.symm).1
    | some a =>
      have h0 := (Option.filter_eq_some_iff.1 ha).1
      rw [ha] at hcs
      cases hb : s.upd.rec1.filter SlotRec.ok with
      | none =>
        rw [hb] at hcs
        exact (hc ⟨rfl, by rw [h0]; exact hcs⟩).elim
      | some b =>
        rw [hb] at hcs
        dsimp only at hcs
        split at hcs
        · rw [hcs]; exact (Option.filter_eq_some_iff.1 hb).1
        · exact (hc ⟨rfl, by rw [h0]; exact hcs⟩).elim

/-! ### The identity of a package or of a slot -/

/-- The words of a digest in the registers `f`. -/
def digestFields (f : Nat → Fld) (d : BitVec 256) : List (Fld × Nat) := (List.range 8).map fun w => (f w, d.toNat / 2 ^ (32 * w))

theorem setActid_eq (s : State) : s.setActid = s.setAll (digestFields R.UPD.ACTID.WORD s.actDigest) := rfl

theorem digestFields_fst (f : Nat → Fld) (d : BitVec 256) : (digestFields f d).map (·.1) = (List.range 8).map f := by
  unfold digestFields
  rw [List.map_map]
  rfl

theorem setActid_fields (s : State) : OnlyFields s s.setActid (digestFields R.UPD.ACTID.WORD s.actDigest) := by
  have h : apartAll ((List.range 8).map R.UPD.ACTID.WORD) = true := by decide
  rw [setActid_eq]
  exact setAll_fields s (digestFields R.UPD.ACTID.WORD s.actDigest) (by rw [digestFields_fst]; exact h)

theorem setStgid_eq (s : State) (d : BitVec 256) : s.setStgid d = s.setAll (digestFields R.UPD.STGID.WORD d) := rfl

theorem setStgid_fields (s : State) (d : BitVec 256) : OnlyFields s (s.setStgid d) (digestFields R.UPD.STGID.WORD d) := by
  have h : apartAll ((List.range 8).map R.UPD.STGID.WORD) = true := by decide
  rw [setStgid_eq]
  exact setAll_fields s (digestFields R.UPD.STGID.WORD d) (by rw [digestFields_fst]; exact h)

/-- The registers with the active slot's digest. -/
def actidOffs : List Nat := (List.range 8).map fun w => (R.UPD.ACTID.WORD w).off

theorem setActid_shows (s : State) : Shows actidOffs s s.setActid :=
  Shows.foldl _ (fun _ _ hw h => h.set _ _ (List.mem_map.2 ⟨_, hw, rfl⟩)) (.refl _ s)

/-! ### A start from a slot (R339, R340) -/

theorem img_congr {s t : State} (h : t.upd = s.upd) (n : Nat) : t.img n = s.img n := by unfold State.img; rw [h]

/-- The start is one of a trial. -/
def State.onTrial (s : State) (back : Bool) : Bool := s.get R.UPD.STATE.TRIAL = 1 && !back

/-- The fields of the slot record as a start from slot `n` shows them. -/
def State.slotFields (s : State) (n : Nat) (back : Bool) : List (Fld × Nat) :=
  [(R.UPD.STATE.ACT, n), (R.UPD.STATE.TRIAL, b2n (s.onTrial back)), (R.UPD.STATE.TRIALS, if s.onTrial back then s.get R.UPD.STATE.TRIALS + 1 else 0)]

/-- The registers as a start from slot `n` shows them. -/
def State.slotChosen (s : State) (n : Nat) (i : ImageStart) : State :=
  let s1 := ((s.set R.UPD.STATE.ACT n).set R.UPD.STATE.TRIAL (b2n (s.onTrial i.back))).set R.UPD.STATE.TRIALS
    (if s.onTrial i.back then s.get R.UPD.STATE.TRIALS + 1 else 0)
  let s2 := if i.fall then s1.flag R.UPD.FLAG.SLOTFALL else s1
  let s3 := (if i.back then s2.flag R.UPD.FLAG.ROLLBACK else s2).setActid
  match s3.img n with
  | some x => s3.set R.ID.REV.FWREL x.hdr.fwrel.toNat
  | none => s3

theorem slotShown3_fields (s : State) (n : Nat) (back : Bool) :
    OnlyFields s (((s.set R.UPD.STATE.ACT n).set R.UPD.STATE.TRIAL (b2n (s.onTrial back))).set R.UPD.STATE.TRIALS
      (if s.onTrial back then s.get R.UPD.STATE.TRIALS + 1 else 0)) (s.slotFields n back) :=
  (((OnlyFields.refl s).put R.UPD.STATE.ACT _ rfl).put R.UPD.STATE.TRIAL _ rfl).put R.UPD.STATE.TRIALS _ rfl

/-- The flags of a start. -/
theorem startFlags_spec (s : State) (fall back : Bool) :
    let a := if fall then s.flag R.UPD.FLAG.SLOTFALL else s
    let t := if back then a.flag R.UPD.FLAG.ROLLBACK else a
    Shows [R.UPD.FLAG.SLOTFALL.off] s t ∧ (fall = true → t.get R.UPD.FLAG.SLOTFALL = 1) ∧ (back = true → t.get R.UPD.FLAG.ROLLBACK = 1) := by
  have flagged (u : State) (f : Fld) (hf : f.off = R.UPD.FLAG.SLOTFALL.off) : Shows [R.UPD.FLAG.SLOTFALL.off] u (u.flag f) :=
    (Shows.refl _ u).set f 1 (by rw [hf]; exact List.mem_singleton_self _)
  dsimp only
  cases fall with
  | false =>
    rw [if_neg Bool.false_ne_true]
    refine ⟨.ite (flagged s _ rfl) (.refl _ s), fun h => (Bool.false_ne_true h).elim, fun hb => ?_⟩
    rw [if_pos hb]
    exact get_set_same s 1 rfl
  | true =>
    rw [if_pos rfl]
    refine ⟨.ite ((flagged s _ rfl).trans (flagged _ _ rfl)) (flagged s _ rfl), fun _ => ?_, fun hb => ?_⟩
    · split
      · exact (get_set_apart _ _ rfl rfl).trans (get_set_same s 1 rfl)
      · exact get_set_same s 1 rfl
    · rw [if_pos hb]
      exact get_set_same _ 1 rfl

/-- The registers that a start from a slot shows after those of the slot record. -/
def chosenOffs : List Nat := R.UPD.FLAG.SLOTFALL.off :: R.ID.REV.FWREL.off :: actidOffs

theorem slotChosen_spec (s : State) (n : Nat) (i : ImageStart) :
    let t := s.slotChosen n i
    t = { s with regs := t.regs } ∧ (∀ f v, (f, v) ∈ s.slotFields n i.back → t.get f = v % 2 ^ f.w) ∧
      (i.fall = true → t.get R.UPD.FLAG.SLOTFALL = 1) ∧ (i.back = true → t.get R.UPD.FLAG.ROLLBACK = 1) := by
  have ha := slotShown3_fields s n i.back
  unfold State.slotChosen
  generalize ((s.set R.UPD.STATE.ACT n).set R.UPD.STATE.TRIAL (b2n (s.onTrial i.back))).set R.UPD.STATE.TRIALS
    (if s.onTrial i.back then s.get R.UPD.STATE.TRIALS + 1 else 0) = a at ha ⊢
  have hb := startFlags_spec a i.fall i.back
  dsimp only at hb ⊢
  generalize (if i.fall = true then a.flag R.UPD.FLAG.SLOTFALL else a) = b0 at hb ⊢
  generalize (if i.back = true then b0.flag R.UPD.FLAG.ROLLBACK else b0) = b at hb ⊢
  obtain ⟨hab, hfall, hback⟩ := hb
  have hbc := setActid_shows b
  generalize b.setActid = c at hbc ⊢
  have hcd : Shows [R.ID.REV.FWREL.off] c (match c.img n with | some x => c.set R.ID.REV.FWREL x.hdr.fwrel.toNat | none => c) := by
    split
    · exact (Shows.refl _ c).set _ _ (List.mem_singleton_self _)
    · exact .refl _ c
  generalize (match c.img n with | some x => c.set R.ID.REV.FWREL x.hdr.fwrel.toNat | none => c) = d at hcd ⊢
  have hbd : Shows (R.ID.REV.FWREL.off :: actidOffs) b d :=
    (hbc.mono fun o ho => List.mem_cons_of_mem _ ho).trans (hcd.mono fun o ho => by rw [List.mem_singleton.1 ho]; exact List.mem_cons_self ..)
  have had : Shows chosenOffs a d :=
    (hab.mono fun o ho => by rw [List.mem_singleton.1 ho]; exact List.mem_cons_self ..).trans (hbd.mono fun o ho => List.mem_cons_of_mem _ ho)
  refine ⟨had.1.trans (congrArg (fun x : State => { x with regs := d.regs }) ha.1), fun f v hfv => ?_,
    fun h => (hbd.get (by decide)).trans (hfall h), fun h => (hbd.get (by decide)).trans (hback h)⟩
  refine (had.get ?_).trans (ha.2.1 (f, v) hfv)
  have hoff : f.off = R.UPD.STATE.ACT.off := by
    simp only [State.slotFields, List.mem_cons, Prod.mk.injEq, List.not_mem_nil, or_false] at hfv
    rcases hfv with ⟨rfl, -⟩ | ⟨rfl, -⟩ | ⟨rfl, -⟩ <;> rfl
  rw [hoff]
  decide

/-- The slot record is written where `c` holds. -/
theorem writeSlotRec_ite (u : State) (c : Bool) :
    let v := if c then u.writeSlotRec else u
    v = { u with upd := { u.upd with rec0 := v.upd.rec0, rec1 := v.upd.rec1 } } ∧ (c = false → v = u) ∧ (c = true → v.slotRec = some u.nextSlotRec) := by
  dsimp only
  cases c with
  | false => exact ⟨rfl, fun _ => rfl, fun h => (Bool.false_ne_true h).elim⟩
  | true => exact ⟨writeSlotRec_frame u, fun h => (Bool.false_ne_true h.symm).elim, fun _ => writeSlotRec_slotRec u⟩

theorem slotRec_congr {s t : State} (h : t.upd = s.upd) : t.slotRec = s.slotRec := by unfold State.slotRec; rw [h]

/-- What the steward takes from the slot that it starts from. -/
theorem takeSlot_spec (s : State) (n : Nat) :
    let b := s.takeSlot n
    b = { s.boot with
        slot := some n
        fwDig := b.fwDig
        prgDig := b.prgDig
        copyfmt := b.copyfmt } ∧
      ∀ x, s.img n = some x →
        b.fwDig = sectsDigest x.man [1, 2, 3, 4, 5] ∧ b.prgDig = some (sectsDigest x.man [6]) ∧ b.copyfmt = x.hdr.copyfmt.toNat := by
  unfold State.takeSlot
  cases s.img n with
  | none => exact ⟨rfl, fun x h => nomatch h⟩
  | some i => exact ⟨rfl, fun x h => by cases h; exact ⟨rfl, rfl, rfl⟩⟩

/-- From `s` to `t` the module started from slot `n`. -/
structure StartsFrom (s t : State) (n : Nat) (i : ImageStart) : Prop where
  frame : t = { s with
    regs := t.regs
    boot := { s.boot with
      imageOk := true
      slot := some n
      slotFb := i.fall
      fwDig := t.boot.fwDig
      prgDig := t.boot.prgDig
      copyfmt := t.boot.copyfmt }
    upd := { s.upd with
      rec0 := t.upd.rec0
      rec1 := t.upd.rec1 } }
  digests : ∀ x, s.img n = some x → t.boot.fwDig = sectsDigest x.man [1, 2, 3, 4, 5] ∧ t.boot.prgDig = some (sectsDigest x.man [6]) ∧
    t.boot.copyfmt = x.hdr.copyfmt.toNat
  act : t.get R.UPD.STATE.ACT = n
  trial : t.get R.UPD.STATE.TRIAL = b2n (s.onTrial i.back)
  trials : s.onTrial i.back = true → t.get R.UPD.STATE.TRIALS = (s.get R.UPD.STATE.TRIALS + 1) % 2 ^ R.UPD.STATE.TRIALS.w
  kept : n = s.actSlot → i.back = false → s.get R.UPD.STATE.TRIAL = 0 → t.upd = s.upd
  record : n ≠ s.actSlot ∨ i.back = true ∨ s.get R.UPD.STATE.TRIAL = 1 →
    ∃ r, t.slotRec = some r ∧ r.act = n ∧ r.trial = t.get R.UPD.STATE.TRIAL ∧ r.trials = t.get R.UPD.STATE.TRIALS
  fall : i.fall = true → t.get R.UPD.FLAG.SLOTFALL = 1
  back : i.back = true → t.get R.UPD.FLAG.ROLLBACK = 1

theorem startFrom_eq (s : State) (n : Nat) (i : ImageStart) : s.startFrom n i =
    let u := s.slotChosen n i
    let v := if s.onTrial i.back || decide (n ≠ s.actSlot) || i.back then u.writeSlotRec else u
    State.leaveBoot { v with boot := { v.takeSlot n with imageOk := true, slotFb := i.fall } } := rfl

theorem startFrom_starts {s : State} {n : Nat} (i : ImageStart) (hl : s.boot.layered = false) (hn : n ≤ 1) : StartsFrom s (s.startFrom n i) n i := by
  rw [startFrom_eq]
  obtain ⟨hu, hfields, hfall, hback⟩ := slotChosen_spec s n i
  generalize s.slotChosen n i = u at hu hfields hfall hback ⊢
  have huu : u.upd = s.upd := by rw [hu]
  have hub : u.boot = s.boot := by rw [hu]
  obtain ⟨hv, hkept, hrec⟩ := writeSlotRec_ite u (s.onTrial i.back || decide (n ≠ s.actSlot) || i.back)
  dsimp only at hv hkept hrec ⊢
  generalize hvdef : (if (s.onTrial i.back || decide (n ≠ s.actSlot) || i.back) = true then u.writeSlotRec else u) = v at hv hkept hrec ⊢
  have hvb : v.boot = s.boot := by rw [hv]; exact hub
  have hvr : v.regs = u.regs := by rw [hv]
  have hvi : v.img n = s.img n := by rw [← img_congr huu]; unfold State.img; rw [hv]
  obtain ⟨htake, hdig⟩ := takeSlot_spec v n
  rw [hvb] at htake
  rw [hvi] at hdig
  generalize v.takeSlot n = b at htake hdig ⊢
  have hbl : b.layered = false := by rw [htake]; exact hl
  have hvu : v = { u with
      regs := v.regs
      upd := { u.upd with
        rec0 := v.upd.rec0
        rec1 := v.upd.rec1 } } := by
    rw [hvr]
    exact hv
  have hvs := hvu.trans (congrArg (fun x : State => { x with
    regs := v.regs
    upd := { x.upd with
      rec0 := v.upd.rec0
      rec1 := v.upd.rec1 } }) hu)
  have hboot := congrArg (fun x : BootSt => { x with imageOk := true, slotFb := i.fall }) htake
  dsimp only at hboot
  have hend : State.leaveBoot { v with boot := { b with imageOk := true, slotFb := i.fall } } =
      { v with boot := { b with imageOk := true, slotFb := i.fall } } := leaveBoot_unlayered hbl
  rw [hend]
  have hget (f : Fld) : State.get { v with boot := { b with imageOk := true, slotFb := i.fall } } f = u.get f := get_congr hvr f
  have hact := (hfields R.UPD.STATE.ACT n (by simp [State.slotFields])).trans (Nat.mod_eq_of_lt (show n < 2 ^ 2 by omega))
  have htrial : u.get R.UPD.STATE.TRIAL = b2n (s.onTrial i.back) :=
    (hfields R.UPD.STATE.TRIAL _ (List.mem_cons_of_mem _ (List.mem_cons_self ..))).trans (by cases s.onTrial i.back <;> rfl)
  refine ⟨?_, hdig, (hget _).trans hact, (hget _).trans htrial, fun h => (hget _).trans ?_, fun h1 h2 h3 => ?_, fun h => ?_,
    fun h => (hget _).trans (hfall h), fun h => (hget _).trans (hback h)⟩
  · exact (congrArg (fun x : State => { x with boot := { b with imageOk := true, slotFb := i.fall } }) hvs).trans
      (congrArg (fun y : BootSt => { s with
        regs := v.regs
        boot := y
        upd := { s.upd with
          rec0 := v.upd.rec0
          rec1 := v.upd.rec1 } }) hboot)
  · rw [hfields R.UPD.STATE.TRIALS _ (List.mem_cons_of_mem _ (List.mem_cons_of_mem _ (List.mem_singleton_self _))), if_pos h]
  · have hvu' : v = u := hkept (by simp [State.onTrial, h1, h2, h3])
    rw [← huu, ← hvu']
  · refine ⟨u.nextSlotRec, (slotRec_congr rfl).trans (hrec ?_), hact, (hget _).symm, (hget _).symm⟩
    rcases h with h | h | h
    · simp [h]
    · simp [h]
    · cases hb : i.back <;> simp [State.onTrial, h]

/-! ### The active slot (R336, R339) -/

/-- The digest of the manifest of a slot, 0 where the slot is empty. -/
def State.slotDigest (s : State) (n : Nat) : BitVec 256 := match s.img n with
  | some i => i.hdr.mandig
  | none => 0

/-- What is written where a slot becomes the active one. -/
def activeFields (n : Nat) (trial : Bool) (d : BitVec 256) : List (Fld × Nat) :=
  [(R.UPD.STATE.ACT, n), (R.UPD.STATE.TRIAL, b2n trial), (R.UPD.STATE.TRIALS, 0)] ++ digestFields R.UPD.ACTID.WORD d

theorem apart_of_all {l l' : List (Fld × Nat)} (h : ((l.map (·.1)).all fun f => (l'.map (·.1)).all f.apart) = true) :
    ∀ p ∈ l, ∀ q ∈ l', p.1.apart q.1 = true := by
  simp only [List.all_eq_true, List.mem_map] at h
  exact fun p hp q hq => h p.1 ⟨p, hp, rfl⟩ q.1 ⟨q, hq, rfl⟩

/-- From `s` to `t` slot `n` became the active one of the slot record. -/
structure MadeActive (s t : State) (n : Nat) (trial : Bool) : Prop where
  frame : t = { s with
    regs := t.regs
    upd := { s.upd with
      rec0 := t.upd.rec0
      rec1 := t.upd.rec1 } }
  fields : FieldsSet s t (activeFields n trial (s.slotDigest n))
  record : ∃ x, t.slotRec = some x ∧ x.act = n ∧ x.trial = b2n trial ∧ x.trials = 0 ∧
    ∀ old, s.slotRec = some old → x.seq = old.seq + 1 ∧ (t.upd.rec0 = some old ∨ t.upd.rec1 = some old)

theorem makeActive_spec (s : State) {n : Nat} (trial : Bool) (hn : n ≤ 1) : MadeActive s (s.makeActive n trial) n trial := by
  have ha : OnlyFields s (((s.set R.UPD.STATE.ACT n).set R.UPD.STATE.TRIAL (b2n trial)).set R.UPD.STATE.TRIALS 0)
      [(R.UPD.STATE.ACT, n), (R.UPD.STATE.TRIAL, b2n trial), (R.UPD.STATE.TRIALS, 0)] :=
    (((OnlyFields.refl s).put R.UPD.STATE.ACT _ rfl).put R.UPD.STATE.TRIAL _ rfl).put R.UPD.STATE.TRIALS _ rfl
  unfold State.makeActive
  generalize ((s.set R.UPD.STATE.ACT n).set R.UPD.STATE.TRIAL (b2n trial)).set R.UPD.STATE.TRIALS 0 = a at ha ⊢
  have hact : a.actSlot = n := (ha.2.1 (R.UPD.STATE.ACT, n) (by simp)).trans (Nat.mod_eq_of_lt (show n < 2 ^ 2 by omega))
  have haupd : a.upd = s.upd := by rw [ha.1]
  have hdig : a.actDigest = s.slotDigest n := by rw [State.actDigest, hact, img_congr haupd]; rfl
  have hb := setActid_fields a
  rw [hdig] at hb
  generalize a.setActid = b at hb ⊢
  have hbupd : b.upd = s.upd := by rw [← haupd, hb.1]
  have hfields : FieldsSet s b (activeFields n trial (s.slotDigest n)) := by
    have hapart : ([R.UPD.STATE.ACT, R.UPD.STATE.TRIAL, R.UPD.STATE.TRIALS].all fun f => ((List.range 8).map R.UPD.ACTID.WORD).all f.apart) = true := by
      decide
    refine ha.2.trans hb.2 (apart_of_all ?_)
    rw [digestFields_fst]
    exact hapart
  have hc := writeSlotRec_frame b
  have hrec := writeSlotRec_slotRec b
  have hkeeps {r : SlotRec} (h : b.slotRec = some r) := writeSlotRec_keeps h
  generalize b.writeSlotRec = c at hc hrec hkeeps ⊢
  have hcr : c.regs = b.regs := by rw [hc]
  have hbs := hb.1.trans (congrArg (fun x : State => { x with regs := b.regs }) ha.1)
  have hact' : b.actSlot = n := (hfields.1 (R.UPD.STATE.ACT, n) (by simp [activeFields])).trans (Nat.mod_eq_of_lt (show n < 2 ^ 2 by omega))
  have htrial : b.get R.UPD.STATE.TRIAL = b2n trial :=
    (hfields.1 (R.UPD.STATE.TRIAL, b2n trial) (by simp [activeFields])).trans (by cases trial <;> rfl)
  have htrials : b.get R.UPD.STATE.TRIALS = 0 := hfields.1 (R.UPD.STATE.TRIALS, 0) (by simp [activeFields])
  refine ⟨?_, hfields.of_regs hcr, b.nextSlotRec, hrec, hact', htrial, htrials, fun old ho => ?_⟩
  · have hcu := congrArg (fun x : State => { x with
      regs := b.regs
      upd := { x.upd with
        rec0 := c.upd.rec0
        rec1 := c.upd.rec1 } }) hbs
    rw [hcr]
    exact hc.trans hcu
  · have hold : b.slotRec = some old := (slotRec_congr hbupd).trans ho
    exact ⟨nextSlotRec_seq hold, hkeeps hold⟩

/-! ### The image check -/

theorem passes_iff {s : State} {n : Nat} : s.passes n = true ↔ s.slotCheck n = 0 := decide_eq_true_iff

theorem not_passes_iff {s : State} {n : Nat} : s.passes n = false ↔ s.slotCheck n ≠ 0 := decide_eq_false_iff_not

theorem idleSlot_eq {s : State} (h : s.actSlot ≤ 1) : s.idleSlot = 1 - s.actSlot := by
  unfold State.idleSlot
  split <;> omega

theorem imageStart_settled {s : State} (ha : s.actSlot ≤ 1) (h : s.get R.UPD.STATE.TRIAL = 0) : s.imageStart =
    if s.passes s.actSlot then ⟨some s.actSlot, false, false⟩ else if s.passes s.idleSlot then ⟨some s.idleSlot, true, false⟩ else ⟨none, false, false⟩ := by
  unfold State.imageStart
  have hact : ¬ 1 < s.actSlot := by omega
  simp [h, ha, hact]

theorem imageStart_trial {s : State} (ha : s.actSlot ≤ 1) (h : s.get R.UPD.STATE.TRIAL = 1) : s.imageStart =
    if s.trialN ≤ s.get R.UPD.STATE.TRIALS ∨ s.passes s.actSlot = false then
      if s.passes s.idleSlot then ⟨some s.idleSlot, !s.passes s.actSlot, true⟩
      else if s.passes s.actSlot then ⟨some s.actSlot, true, true⟩ else ⟨none, false, true⟩
    else ⟨some s.actSlot, false, false⟩ := by
  unfold State.imageStart
  cases hp : s.passes s.actSlot <;> simp [h, ha, hp]

/-- No image slot passes its check: RECOVERY, or a stop in BOOT. -/
def State.noImage (s : State) (back : Bool) : State :=
  let s1 := if back then (s.makeActive s.idleSlot false).flag R.UPD.FLAG.ROLLBACK else s
  if s.passes 2 then
    let s2 := ((((s1.set R.UPD.STATE.ACT 2).set R.UPD.STATE.TRIAL 0).setActid).toState .recovery).showUcause
    { s2 with boot := s2.takeSlot 2 }
  else s1.set R.SUP.STATE.STOPC 5

/-- The image check where it acts. -/
def State.imageChecked (s : State) : State :=
  match s.imageStart.slot with
  | some n => s.startFrom n s.imageStart
  | none => s.noImage s.imageStart.back

theorem exec_imageCheck (s : State) :
    exec .imageCheck s = s.whilePowered (if (!s.booting) = true ∨ s.boot.imageOk = true then s else s.imageChecked) := rfl

/-- RECOVERY: the recovery image is taken. -/
theorem recovery_spec (s : State) :
    let s2 := ((((s.set R.UPD.STATE.ACT 2).set R.UPD.STATE.TRIAL 0).setActid).toState .recovery).showUcause
    let t : State := { s2 with boot := s2.takeSlot 2 }
    t.mstate = .recovery ∧ t.get R.UPD.STATE.ACT = 2 ∧ t.get R.UPD.FLAG.ROLLBACK = s.get R.UPD.FLAG.ROLLBACK ∧ t.upd = s.upd := by
  have ha : OnlyFields s ((s.set R.UPD.STATE.ACT 2).set R.UPD.STATE.TRIAL 0) [(R.UPD.STATE.ACT, 2), (R.UPD.STATE.TRIAL, 0)] :=
    ((OnlyFields.refl s).put R.UPD.STATE.ACT _ rfl).put R.UPD.STATE.TRIAL _ rfl
  dsimp only
  generalize (s.set R.UPD.STATE.ACT 2).set R.UPD.STATE.TRIAL 0 = a at ha ⊢
  have hb := setActid_shows a
  generalize a.setActid = b at hb ⊢
  have hc := (enterState_spec b .recovery (b.get R.SUP.STATE.MSTATE)).1
  have hcm := enterState_mstate b .recovery (b.get R.SUP.STATE.MSTATE)
  have hck := enterState_regs b .recovery (b.get R.SUP.STATE.MSTATE)
  unfold State.toState
  generalize b.enterState .recovery (b.get R.SUP.STATE.MSTATE) = c at hc hcm hck ⊢
  obtain ⟨hd, hdk⟩ := showUcause_regs c
  generalize c.showUcause = d at hd hdk ⊢
  generalize d.takeSlot 2 = k
  have hget (f : Fld) (hf : f.off ∉ R.ID.ASTAT.UCAUSE.off :: R.SUP.STATE.all.off :: R.SUP.FUMSEQ.SEQ.off :: actidOffs) : d.get f = a.get f := by
    simp only [List.mem_cons, not_or] at hf
    obtain ⟨h1, h2, h3, h4⟩ := hf
    rw [regsKept_get hdk (by simp [h1]), regsKept_get hck (by simp [h2, h3]), hb.get h4]
  refine ⟨(mstate_congr (regsKept_get hdk (by decide))).trans hcm, ?_, ?_, ?_⟩
  · exact (hget _ (by decide)).trans (ha.2.1 (R.UPD.STATE.ACT, 2) (by simp))
  · exact (hget _ (by decide)).trans (ha.2.get_eq _ rfl)
  · have hdc : d.upd = c.upd := by rw [hd]
    have hcb : c.upd = b.upd := by rw [hc]
    have hba : b.upd = a.upd := by rw [hb.1]
    exact hdc.trans (hcb.trans (hba.trans (by rw [ha.1])))

theorem noImage_settled (s : State) :
    (s.passes 2 = true → (s.noImage false).mstate = .recovery ∧ (s.noImage false).get R.UPD.STATE.ACT = 2) ∧
      (s.passes 2 = false → OnlyFields s (s.noImage false) [(R.SUP.STATE.STOPC, 5)]) := by
  unfold State.noImage
  rw [if_neg Bool.false_ne_true]
  refine ⟨fun h => ?_, fun h => ?_⟩
  · obtain ⟨hm, ha, -, -⟩ := recovery_spec s
    rw [if_pos h]
    exact ⟨hm, ha⟩
  · rw [if_neg (by simp [h])]
    exact (OnlyFields.refl s).put R.SUP.STATE.STOPC 5 rfl

/-- A trial is abandoned and no slot passes. -/
theorem noImage_back {s : State} (ha : s.actSlot ≤ 1) :
    let t := s.noImage true
    t.get R.UPD.FLAG.ROLLBACK = 1 ∧ (∃ rec, t.slotRec = some rec ∧ rec.act = s.idleSlot ∧ rec.trial = 0) ∧
      (s.passes 2 = true → t.mstate = .recovery ∧ t.get R.UPD.STATE.ACT = 2) ∧ (s.passes 2 = false → t.get R.SUP.STATE.STOPC = 5) := by
  have hidle : s.idleSlot ≤ 1 := by rw [idleSlot_eq ha]; omega
  obtain ⟨x, hx, hxa, hxt, -, -⟩ := (makeActive_spec s false hidle).record
  unfold State.noImage
  rw [if_pos rfl, State.flag]
  generalize s.makeActive s.idleSlot false = a at hx ⊢
  have hroll : (a.set R.UPD.FLAG.ROLLBACK 1).get R.UPD.FLAG.ROLLBACK = 1 := get_set_same a 1 rfl
  have hrec : (a.set R.UPD.FLAG.ROLLBACK 1).slotRec = some x := (slotRec_congr rfl).trans hx
  generalize a.set R.UPD.FLAG.ROLLBACK 1 = b at hroll hrec ⊢
  dsimp only
  split
  · next h =>
    obtain ⟨hm, hact, hr, hu⟩ := recovery_spec b
    exact ⟨hr.trans hroll, ⟨x, (slotRec_congr hu).trans hrec, hxa, hxt⟩, fun _ => ⟨hm, hact⟩, fun h' => by simp [h] at h'⟩
  · next h =>
    exact ⟨(get_set_apart _ _ rfl rfl).trans hroll, ⟨x, (slotRec_congr rfl).trans hrec, hxa, hxt⟩, fun h' => (h h').elim, fun _ => get_set_same b 5 rfl⟩

end Sys2Proof.Machine
end

section
/-! PROOF. Layering and the end of BOOT (R27, R319, R324, R331, Table 1-8). -/

namespace Sys2Proof.Machine

/-! ### Registers that layering leaves alone -/

/-- UCAUSE, the image registers and the module's state: no NV field and no profile writes them. -/
def layerKept : List Nat := [R.ID.ASTAT.UCAUSE.off, R.CFG.STATUS.FACTONLY.off, R.CFG.CURVER.CFGVER.off, R.SUP.STATE.MSTATE.off]

theorem nvRegs_apart : ∀ off ∈ layerKept, ∀ r ∈ nvRegs, r.1 ≠ off := by
  have h : nvRegs.all (fun r => !layerKept.contains r.1) = true := by decide +kernel
  intro off ho r hr he
  have hr' := List.all_eq_true.1 h r hr
  rw [he, List.contains_iff_mem.2 ho] at hr'
  exact Bool.false_ne_true hr'

/-- The profiles set no register of those. -/
theorem profileSets_apart (t : State) : ∀ p ∈ t.profileSets, p.1.off ∉ layerKept := by
  have sio (n : Nat) : ∀ p ∈ sioSets n, p.1.off ∉ layerKept := by unfold sioSets; split <;> decide +kernel
  have spd (n : Nat) : ∀ p ∈ spdSets n, p.1.off ∉ layerKept := by
    unfold spdSets
    by_cases h : n = 0 <;> by_cases h' : n = 2 <;> simp [h, h'] <;> decide
  have net (n : Nat) : ∀ p ∈ netSets n, p.1.off ∉ layerKept := by unfold netSets; (split <;> simp); decide
  have time (n : Nat) : ∀ p ∈ timeSets n, p.1.off ∉ layerKept := by
    unfold timeSets; split
    · simp
    · split <;> simp <;> decide
  have evc (n : Nat) : ∀ p ∈ evcSets n, p.1.off ∉ layerKept := by unfold evcSets; split <;> decide +kernel
  have brg (n : Nat) : ∀ p ∈ brgSets n, p.1.off ∉ layerKept := by unfold brgSets; (split <;> simp); decide
  have cfg (n : Nat) : ∀ p ∈ cfgSets n, p.1.off ∉ layerKept := by unfold cfgSets; split <;> decide
  have upd (n : Nat) : ∀ p ∈ (if n = 1 then [(R.UPD.CFG.TRIALN, 3), (R.UPD.CFG.BATSIG, 0)] else [] : List (Fld × Nat)), p.1.off ∉ layerKept := by
    split <;> decide
  have sup (n : Nat) : ∀ p ∈ (if n = 1 then [(R.SUP.CFG.WARMEN, 1), (R.SUP.CFG.EXTEN, 0)] else [] : List (Fld × Nat)), p.1.off ∉ layerKept := by
    split <;> decide
  have bist (n : Nat) : ∀ p ∈ (if n = 1 then [(R.BIST.AUTO.MASK, 7)] else [] : List (Fld × Nat)), p.1.off ∉ layerKept := by split <;> decide
  intro p hp
  unfold State.profileSets at hp
  simp only [List.mem_append] at hp
  rcases hp with (((((((((h | h) | h) | h) | h) | h) | h) | h) | h) | h)
  exacts [sio _ p h, spd _ p h, net _ p h, time _ p h, evc _ p h, brg _ p h, cfg _ p h, upd _ p h, sup _ p h, bist _ p h]

/-- Only registers changed, none of those that layering leaves alone. -/
def Layered (s t : State) : Prop := t = { s with regs := t.regs } ∧ ∀ off ∈ layerKept, t.reg off = s.reg off

namespace Layered

variable {s t u : State}

theorem refl (s : State) : Layered s s := ⟨rfl, fun _ _ => rfl⟩

theorem of_shows {l : List Nat} (h : Shows l s t) (hl : ∀ o ∈ layerKept, o ∉ l) : Layered s t := ⟨h.1, fun o ho => h.2 o (hl o ho)⟩

theorem trans (h : Layered s t) (k : Layered t u) : Layered s u :=
  ⟨k.1.trans (congrArg (fun x : State => { x with regs := u.regs }) h.1), fun o ho => (k.2 o ho).trans (h.2 o ho)⟩

theorem setReg (h : Layered s t) (o : Nat) (v : W32) (ho : o ∉ layerKept) : Layered s (t.setReg o v) :=
  ⟨congrArg (fun u : State => { u with regs := (t.setReg o v).regs }) h.1,
    fun o' h' => (reg_setReg_ne _ _ fun he => ho (by rw [← he]; exact h')).trans (h.2 o' h')⟩

theorem get (h : Layered s t) {f : Fld} (hf : f.off ∈ layerKept) : t.get f = s.get f := by rw [State.get, h.2 _ hf]; rfl

theorem foldl {α : Type} {f : State → α → State} (k : List α) (hf : ∀ t a, a ∈ k → Layered s t → Layered s (f t a)) (h : Layered s t) :
    Layered s (k.foldl f t) := by
  induction k generalizing t with
  | nil => exact h
  | cons a k ih => exact ih (fun t a' ha => hf t a' (List.mem_cons_of_mem _ ha)) (hf t a (List.mem_cons_self ..) h)

end Layered

theorem layered_layered (s : State) (fact user : Option NvImage) : Layered s (s.layered fact user) := by
  unfold State.layered
  have h1 : Layered s (nvRegs.foldl (fun t r => t.setReg r.1 (layerWord fact user r.1 r.2 (t.reg r.1))) s) :=
    Layered.foldl nvRegs (fun t r hr h => h.setReg r.1 _ fun hm => nvRegs_apart r.1 hm r hr rfl) (.refl s)
  generalize nvRegs.foldl (fun t r => t.setReg r.1 (layerWord fact user r.1 r.2 (t.reg r.1))) s = a at h1 ⊢
  exact Layered.foldl a.profileSets (fun t p hp h => h.setReg p.1.off _ (profileSets_apart a p hp)) h1

/-- The flags that the checks of the ranges set. -/
def cfgerrOffs : List Nat := [R.SIO.FLAG.CFGERR.off, R.SPD.FLAG.CFGERR.off, R.NET.FLAG.CFGERR.off, R.TIME.FLAG.CFGERR.off, R.EVC.FLAG.CFGERR.off,
  R.BRG.FLAG.CFGERR.off]

theorem checkRanges_shows (s : State) : Shows cfgerrOffs s s.checkRanges := by
  have flagged {u : State} (h : Shows cfgerrOffs s u) (c : Bool) (f : Fld) (hf : f.off ∈ cfgerrOffs) : Shows cfgerrOffs s (if c then u.flag f else u) :=
    .ite (h.set f 1 hf) h
  have h1 : Shows cfgerrOffs s (basicRegs.foldl (fun t b => match b.err with
      | some f => if b.top < s.get b.reg then t.flag f else t
      | none => t) s) := by
    refine Shows.foldl basicRegs (fun t b hb h => ?_) (.refl _ s)
    have herr : ∀ b ∈ basicRegs, ∀ f, b.err = some f → f.off ∈ cfgerrOffs := by decide
    split
    · next f hf => exact .ite (h.set f 1 (herr b hb f hf)) h
    · exact h
  unfold State.checkRanges
  exact flagged (flagged (flagged (flagged (flagged h1 _ _ (by decide)) _ _ (by decide)) _ _ (by decide)) _ _ (by decide)) _ _ (by decide)

/-- The registers with values in force. -/
def forceOffs : List Nat := [R.GONG.STATUS.APERIOD.off, R.GONG.CUTOFS.NS.off, R.NET.STATUS.APMODE.off]

theorem inForce_spec (s : State) : Shows forceOffs s s.inForce ∧ s.inForce.get R.GONG.STATUS.APERIOD = s.inForce.get R.GONG.CTRL.PERIOD := by
  have hs : Shows forceOffs s s.inForce := (((Shows.refl _ s).set _ _ (by decide)).set _ _ (by decide)).set _ _ (by decide)
  refine ⟨hs, ?_⟩
  rw [hs.get (f := R.GONG.CTRL.PERIOD) (by decide)]
  have h1 := get_set_same s (f := R.GONG.STATUS.APERIOD) (s.get R.GONG.CTRL.PERIOD) rfl
  unfold State.inForce
  dsimp only
  generalize s.set R.GONG.STATUS.APERIOD (s.get R.GONG.CTRL.PERIOD) = a at h1 ⊢
  rw [get_set_apart _ _ rfl rfl, get_set_apart _ _ rfl rfl, h1]
  exact Nat.mod_eq_of_lt (get_lt s R.GONG.CTRL.PERIOD)

/-! ### Records -/

/-- From `s` to `t` only registers changed, at the offsets listed, and records were written. -/
def Logs (l : List Nat) (s t : State) : Prop := t = { s with regs := t.regs, fum := t.fum, fumPos := t.fumPos } ∧ RegsKept s t l

namespace Logs

variable {l l' : List Nat} {s t u : State}

theorem of_shows (h : Shows l s t) : Logs l s t := by
  refine ⟨?_, h.2⟩
  have hf : t.fum = s.fum := by rw [h.1]
  have hp : t.fumPos = s.fumPos := by rw [h.1]
  rw [hf, hp]
  exact h.1

theorem trans (h : Logs l s t) (k : Logs l t u) : Logs l s u :=
  ⟨k.1.trans (congrArg (fun x : State => { x with regs := u.regs, fum := u.fum, fumPos := u.fumPos }) h.1), fun o ho => (k.2 o ho).trans (h.2 o ho)⟩

theorem mono (h : Logs l s t) (hl : ∀ o ∈ l, o ∈ l') : Logs l' s t := ⟨h.1, fun o ho => h.2 o fun hm => ho (hl o hm)⟩

theorem fumarole (s : State) (a b c : Nat) (d : List Byte) : Logs [R.SUP.FUMSEQ.SEQ.off] s (s.fumarole a b c d) := ⟨rfl, fumarole_regs s a b c d⟩

theorem get (h : Logs l s t) {f : Fld} (hf : f.off ∉ l) : t.get f = s.get f := regsKept_get h.2 hf

end Logs

/-! ### The images (R319) -/

/-- The registers that the check of the images writes. -/
def imageOffs : List Nat := [R.CFG.FLAG.BADIMG.off, R.SUP.FUMSEQ.SEQ.off, R.CFG.STATUS.CUR.off, R.CFG.CURVER.CFGVER.off, R.CFG.PREVVER.CFGVER.off]

/-- BADIMG and FALLBACK. -/
def State.imageFlags (s : State) : State :=
  let bad (n : Nat) : Bool := (s.userImg n).isSome && !s.imgValid n
  let s1 := if bad 0 || bad 1 then s.flag R.CFG.FLAG.BADIMG else s
  match s.currentImg, s.newestImg with
  | some n, some m =>
    if n ≠ m then (s1.flag R.CFG.FLAG.FALLBACK).fumarole 0x0A 0x0D 0 (leBytes 1 0x0D ++ leBytes 3 0 ++ leBytes 4 (match s.userImg m with
      | some x => x.cfgver.toNat
      | none => 0))
    else s1
  | _, _ => s1

theorem imageFlags_logs (s : State) : Logs [R.CFG.FLAG.BADIMG.off, R.SUP.FUMSEQ.SEQ.off] s s.imageFlags := by
  have flagged {u v : State} (h : Shows [R.CFG.FLAG.BADIMG.off] u v) : Logs [R.CFG.FLAG.BADIMG.off, R.SUP.FUMSEQ.SEQ.off] u v :=
    (Logs.of_shows h).mono (by simp)
  unfold State.imageFlags
  dsimp only
  have h1 : Shows [R.CFG.FLAG.BADIMG.off] s (if ((s.userImg 0).isSome && !s.imgValid 0 || (s.userImg 1).isSome && !s.imgValid 1) = true then
      s.flag R.CFG.FLAG.BADIMG else s) := .ite ((Shows.refl _ s).set R.CFG.FLAG.BADIMG 1 (by decide)) (.refl _ s)
  generalize (if ((s.userImg 0).isSome && !s.imgValid 0 || (s.userImg 1).isSome && !s.imgValid 1) = true then
      s.flag R.CFG.FLAG.BADIMG else s) = a at h1 ⊢
  have h2 : Shows [R.CFG.FLAG.BADIMG.off] s (a.flag R.CFG.FLAG.FALLBACK) := h1.set R.CFG.FLAG.FALLBACK 1 (by decide)
  generalize a.flag R.CFG.FLAG.FALLBACK = b at h2 ⊢
  split
  · split
    · exact (flagged h2).trans ((Logs.fumarole b ..).mono (by simp))
    · exact flagged h1
  · exact flagged h1

/-- The version of an image, 0 for none. -/
def imageVersion : Option NvImage → Nat
  | some m => m.cfgver.toNat
  | none => 0

/-- STATUS and the versions for the current image and the previous one. -/
def State.versionsShown (s : State) : Option (Nat × Nat × Option NvImage) → State
  | none => ((s.set R.CFG.STATUS.FACTONLY 1).set R.CFG.STATUS.PREVV 0).set R.CFG.CURVER.CFGVER 0
  | some (n, ver, prev) =>
    let s3 := ((s.set R.CFG.STATUS.FACTONLY 0).set R.CFG.STATUS.CUR n).set R.CFG.STATUS.PREVV (b2n prev.isSome)
    (s3.set R.CFG.CURVER.CFGVER ver).set R.CFG.PREVVER.CFGVER (imageVersion prev)

/-- The current image with the version of the start and the previous image. -/
def State.startVersions (s : State) : Option (Nat × Nat × Option NvImage) :=
  s.currentImg.map fun n => (n, s.startCfgver.toNat, if s.imgValid (1 - n) then s.userImg (1 - n) else none)

theorem checkImages_eq (s : State) : s.checkImages = s.imageFlags.versionsShown s.startVersions := by
  have hx : s.checkImages = match s.currentImg with
      | none => ((s.imageFlags.set R.CFG.STATUS.FACTONLY 1).set R.CFG.STATUS.PREVV 0).set R.CFG.CURVER.CFGVER 0
      | some n =>
        let prev := if s.imgValid (1 - n) then s.userImg (1 - n) else none
        let s3 := ((s.imageFlags.set R.CFG.STATUS.FACTONLY 0).set R.CFG.STATUS.CUR n).set R.CFG.STATUS.PREVV (b2n prev.isSome)
        (s3.set R.CFG.CURVER.CFGVER s.startCfgver.toNat).set R.CFG.PREVVER.CFGVER (imageVersion prev) := rfl
  rw [hx, State.startVersions]
  cases s.currentImg <;> rfl

theorem versionsShown_logs (s : State) (v : Option (Nat × Nat × Option NvImage)) : Logs imageOffs s (s.versionsShown v) := by
  refine .of_shows ?_
  rcases v with - | ⟨n, ver, prev⟩
  · exact (((Shows.refl _ s).set _ _ (by decide)).set _ _ (by decide)).set _ _ (by decide)
  · exact (((((Shows.refl _ s).set _ _ (by decide)).set _ _ (by decide)).set _ _ (by decide)).set _ _ (by decide)).set _ _ (by decide)

theorem versionsShown_none (s : State) : OnlyFields s (s.versionsShown none) [(R.CFG.STATUS.FACTONLY, 1), (R.CFG.STATUS.PREVV, 0), (R.CFG.CURVER.CFGVER, 0)] :=
  (((OnlyFields.refl s).put R.CFG.STATUS.FACTONLY 1 rfl).put R.CFG.STATUS.PREVV 0 rfl).put R.CFG.CURVER.CFGVER 0 rfl

theorem versionsShown_some (s : State) (n ver : Nat) (prev : Option NvImage) : OnlyFields s (s.versionsShown (some (n, ver, prev)))
    [(R.CFG.STATUS.FACTONLY, 0), (R.CFG.STATUS.CUR, n), (R.CFG.STATUS.PREVV, b2n prev.isSome), (R.CFG.CURVER.CFGVER, ver),
      (R.CFG.PREVVER.CFGVER, imageVersion prev)] :=
  (((((OnlyFields.refl s).put R.CFG.STATUS.FACTONLY 0 rfl).put R.CFG.STATUS.CUR n rfl).put R.CFG.STATUS.PREVV _ rfl).put R.CFG.CURVER.CFGVER ver rfl).put
    R.CFG.PREVVER.CFGVER _ rfl

/-- What the registers show of the images of `s`. -/
def ImagesShown (s t : State) : Prop :=
  (s.currentImg = none → t.get R.CFG.STATUS.FACTONLY = 1 ∧ t.get R.CFG.CURVER.CFGVER = 0) ∧
    ∀ n m, s.currentImg = some n → s.userImg n = some m →
      t.get R.CFG.STATUS.FACTONLY = 0 ∧ t.get R.CFG.STATUS.CUR = n % 2 ∧ t.get R.CFG.CURVER.CFGVER = m.cfgver.toNat

theorem checkImages_spec (s : State) : Logs imageOffs s s.checkImages ∧ ImagesShown s s.checkImages := by
  rw [checkImages_eq]
  have ha := imageFlags_logs s
  generalize s.imageFlags = a at ha ⊢
  refine ⟨(ha.mono (by decide)).trans (versionsShown_logs a _), fun hc => ?_, fun n m hc hm => ?_⟩
  · rw [State.startVersions, hc]
    have h := (versionsShown_none a).2.1
    exact ⟨h (R.CFG.STATUS.FACTONLY, 1) (by simp), h (R.CFG.CURVER.CFGVER, 0) (by simp)⟩
  · have hver : s.startCfgver = m.cfgver := by rw [State.startCfgver, hc, Option.bind_some, hm]
    rw [State.startVersions, hc, hver, Option.map_some]
    generalize (if s.imgValid (1 - n) = true then s.userImg (1 - n) else none) = prev
    have h := (versionsShown_some a n m.cfgver.toNat prev).2.1
    exact ⟨h (R.CFG.STATUS.FACTONLY, 0) (by simp), h (R.CFG.STATUS.CUR, n) (by simp),
      (h (R.CFG.CURVER.CFGVER, m.cfgver.toNat) (by simp)).trans (Nat.mod_eq_of_lt m.cfgver.isLt)⟩

/-! ### Layering -/

theorem applyPend_none {s : State} (h : s.nv.pend = 0) : s.applyPend = s := by
  have hx : s.applyPend = { s with nv := { s.nv with pend := 0 } } := by
    unfold State.applyPend
    dsimp only
    rw [if_neg (by rw [h]; decide), if_neg (by rw [h]; decide)]
  rw [hx, ← h]

/-- The values layered where the factory defaults image is valid. -/
def State.layerStep (s : State) : State :=
  match s.factoryImage with
  | some f => ((s.layered (some f) (s.currentImg.bind s.userImg)).checkRanges).inForce
  | none => s

theorem layerStep_spec (s : State) : Layered s s.layerStep ∧
    (s.factoryImage.isSome = true → s.layerStep.get R.GONG.STATUS.APERIOD = s.layerStep.get R.GONG.CTRL.PERIOD) := by
  unfold State.layerStep
  cases s.factoryImage with
  | none => exact ⟨.refl s, fun h => (Bool.false_ne_true h).elim⟩
  | some f =>
    have h1 := layered_layered s (some f) (s.currentImg.bind s.userImg)
    dsimp only
    generalize s.layered (some f) (s.currentImg.bind s.userImg) = a at h1 ⊢
    have h2 := checkRanges_shows a
    generalize a.checkRanges = b at h2 ⊢
    obtain ⟨h3, hper⟩ := inForce_spec b
    exact ⟨(h1.trans (.of_shows h2 (by decide))).trans (.of_shows h3 (by decide)), fun _ => hper⟩

/-- Layering where no activation is pending. -/
def State.layeringDone (s : State) : State :=
  let s2 := s.checkImages.layerStep
  if s2.degNear then s2.flag R.VOTE.FLAG.DEGWARN else s2

theorem exec_configLayering (s : State) : exec .configLayering s =
    s.whilePowered (if (!s.booting) = true ∨ s.boot.layered = true then s
      else s.applyPend.layeringDone.stepEnd { s.applyPend.layeringDone.boot with layered := true }) := rfl

theorem layeringDone_spec (s : State) :
    let t := s.layeringDone
    t = { s with regs := t.regs, fum := t.fum, fumPos := t.fumPos } ∧ ImagesShown s t ∧ t.mstate = s.mstate ∧
      t.get R.ID.ASTAT.ADDR = s.get R.ID.ASTAT.ADDR ∧
      (s.factoryImage.isSome = true → t.get R.GONG.STATUS.APERIOD = t.get R.GONG.CTRL.PERIOD) := by
  obtain ⟨ha, hshown⟩ := checkImages_spec s
  unfold State.layeringDone
  generalize s.checkImages = a at ha hshown ⊢
  have hfact : a.factoryImage = s.factoryImage := by unfold State.factoryImage; rw [ha.1]
  obtain ⟨hb, hper⟩ := layerStep_spec a
  rw [hfact] at hper
  generalize a.layerStep = b at hb hper ⊢
  have hc : Shows [R.VOTE.FLAG.DEGWARN.off] b (if b.degNear then b.flag R.VOTE.FLAG.DEGWARN else b) :=
    .ite ((Shows.refl _ b).set _ _ (List.mem_singleton_self _)) (.refl _ b)
  dsimp only
  generalize (if b.degNear = true then b.flag R.VOTE.FLAG.DEGWARN else b) = c at hc ⊢
  have hac : Layered a c := hb.trans (.of_shows hc (by decide))
  have hcf : c.fum = a.fum := by rw [hac.1]
  have hcp : c.fumPos = a.fumPos := by rw [hac.1]
  refine ⟨?_, ⟨fun h => ?_, fun n m h hm => ?_⟩, mstate_congr ((hac.get (by decide)).trans (ha.get (by decide))),
    (hac.get (by decide)).trans (ha.get (by decide)), fun h => ?_⟩
  · rw [hcf, hcp]
    exact hac.1.trans (congrArg (fun x : State => { x with regs := c.regs }) ha.1)
  · obtain ⟨h1, h2⟩ := hshown.1 h
    exact ⟨(hac.get (by decide)).trans h1, (hac.get (by decide)).trans h2⟩
  · obtain ⟨h1, h2, h3⟩ := hshown.2 n m h hm
    exact ⟨(hac.get (by decide)).trans h1, (hac.get (by decide)).trans h2, (hac.get (by decide)).trans h3⟩
  · rw [hc.get (by decide), hc.get (by decide)]
    exact hper h

/-- A step ends while the image check is outstanding. -/
theorem stepEnd_unchecked {s : State} {b : BootSt} (hb : b.imageOk = false) :
    s.stepEnd b = { s with regs := (s.stepEnd b).regs, boot := b } ∧ RegsKept s (s.stepEnd b) [R.ID.ASTAT.UCAUSE.off] ∧
      (s.get R.ID.ASTAT.ADDR = 0 → (s.stepEnd b).get R.ID.ASTAT.UCAUSE = (s.stepEnd b).ucause) := by
  have hu : State.leaveBoot (State.showUcause { s with boot := b }) = State.showUcause { s with boot := b } := by
    refine leaveBoot_unchecked ?_
    rw [(showUcause_regs _).1]
    exact hb
  unfold State.stepEnd
  rw [hu]
  obtain ⟨heq, hk⟩ := showUcause_regs { s with boot := b }
  refine ⟨heq, hk, fun ha => ?_⟩
  rw [showUcause_ucause]
  exact showUcause_shows ha

/-- Layering while the image check is outstanding. -/
theorem layeringEnd_spec {s : State} (hi : s.boot.imageOk = false) :
    let t := s.layeringDone.stepEnd { s.layeringDone.boot with layered := true }
    t.boot = { s.boot with layered := true } ∧ t.mstate = s.mstate ∧ t.nv = s.nv ∧ ImagesShown s t ∧
      (s.get R.ID.ASTAT.ADDR = 0 → t.get R.ID.ASTAT.UCAUSE = t.ucause) ∧
      (s.factoryImage.isSome = true → t.get R.GONG.STATUS.APERIOD = t.get R.GONG.CTRL.PERIOD) := by
  obtain ⟨ha, hshown, hm, haddr, hper⟩ := layeringDone_spec s
  generalize s.layeringDone = a at ha hshown hm haddr hper ⊢
  have hab : a.boot = s.boot := by rw [ha]
  have han : a.nv = s.nv := by rw [ha]
  rw [hab]
  obtain ⟨hb, hk, hu⟩ := stepEnd_unchecked (s := a) (b := { s.boot with layered := true }) hi
  generalize a.stepEnd { s.boot with layered := true } = b at hb hk hu ⊢
  have hget (f : Fld) (hf : f.off ∉ [R.ID.ASTAT.UCAUSE.off]) : b.get f = a.get f := regsKept_get hk hf
  refine ⟨by rw [hb], (mstate_congr (hget _ (by decide))).trans hm, by rw [hb]; exact han, ⟨fun h => ?_, fun n m h hn => ?_⟩,
    fun h => hu (haddr.trans h), fun h => ?_⟩
  · rw [hget _ (by decide), hget _ (by decide)]
    exact hshown.1 h
  · rw [hget _ (by decide), hget _ (by decide), hget _ (by decide)]
    exact hshown.2 n m h hn
  · rw [hget _ (by decide), hget _ (by decide)]
    exact hper h

/-! ### The end of BOOT (Table 1-8) -/

/-- BOOT ends with its last step. -/
theorem leaveBoot_done {s : State} (h : s.bootDone = true) :
    s.leaveBoot.mstate = (if s.sup.warm then .init else .starttest) ∧ s.leaveBoot.sup = s.sup := by
  rw [State.leaveBoot, if_pos h]
  generalize (if s.sup.warm = true then MState.init else MState.starttest) = m
  have ha := (enterState_spec s m (s.get R.SUP.STATE.MSTATE)).1
  have hm := enterState_mstate s m (s.get R.SUP.STATE.MSTATE)
  unfold State.toState
  generalize s.enterState m (s.get R.SUP.STATE.MSTATE) = a at ha hm ⊢
  obtain ⟨hd, hk, -⟩ := derive_spec a
  generalize a.derive = b at hd hk ⊢
  refine ⟨(mstate_congr (regsKept_get hk (by decide))).trans hm, ?_⟩
  have hba : b.sup = a.sup := by rw [hd]
  rw [hba, ha]

end Sys2Proof.Machine
end

section
/-! PROOF. The statement about BOOT. -/

namespace Sys2Proof.Machine

/-! ### The steps as commands -/

section
variable {s : State} (hm : s.mstate = .boot) (hc : s.get R.SUP.STATE.STOPC = 0) (hl : s.boot.layered = false)
include hm hc hl

theorem does_slotCode_valid {v : BitVec 6} {samples : List (BitVec 6)} (ha : s.get R.ID.ASTAT.ADDR = 0) (hd : s.boot.slotDone = false)
    (hs : samples = List.replicate 8 v) (hodd : ((List.range 6).filter fun i => v.getLsbD i).length % 2 = 1)
    (hcode : 1 ≤ v.toNat % 32 ∧ v.toNat % 32 ≤ 30) : Does (.slotCodeSample samples) s fun t =>
      t = { s with regs := t.regs, boot := { s.boot with slotDone := true } } ∧
        FieldsSet s t [(R.ID.SLOT.CODE, v.toNat % 32), (R.ID.SLOT.SLOTP, v.toNat / 32), (R.ID.SLOT.VALID, 1),
          (R.ID.ASTAT.UCAUSE, s.bootCause true (decide (s.get R.ID.PLUG.VALID = 1)) (s.get R.ID.PLUG.RACK) (v.toNat % 32))] := by
  have hx := exec_slotCodeSample s samples
  have hhead : samples.headD 0 = v := by rw [hs]; rfl
  rw [hhead, slotOk_iff.2 ⟨hs, hodd, hcode⟩] at hx
  exact does_of_step hm hc (by rw [hd]; exact Bool.false_ne_true) hx (slotTaken_valid hl ha)

theorem does_slotCode_invalid {v : BitVec 6} {samples : List (BitVec 6)} (ha : s.get R.ID.ASTAT.ADDR = 0) (hd : s.boot.slotDone = false)
    (hs : samples.head? = some v) (hbad : samples ≠ List.replicate 8 v ∨ ¬ ((List.range 6).filter fun i => v.getLsbD i).length % 2 = 1 ∨
      v.toNat % 32 = 0 ∨ v.toNat % 32 = 31) : Does (.slotCodeSample samples) s fun t =>
      t = { s with regs := t.regs, boot := { s.boot with slotDone := true, role := some (.fenced, 3) } } ∧
        FieldsSet s t [(R.ID.SLOT.CODE, v.toNat % 32), (R.ID.SLOT.SLOTP, v.toNat / 32), (R.ID.SLOT.VALID, 0), (R.ID.FLAG.SLOTERR, 1),
          (R.ID.ASTAT.UCAUSE, 1)] := by
  have hx := exec_slotCodeSample s samples
  have hhead : samples.headD 0 = v := by rw [List.headD_eq_head?_getD, hs]; rfl
  have hno : slotOk samples v = false := by
    rw [← Bool.not_eq_true, slotOk_iff]
    rintro ⟨h1, h2, h3, h4⟩
    rcases hbad with h | h | h | h
    · exact h h1
    · exact h h2
    · omega
    · omega
  rw [hhead, hno] at hx
  exact does_of_step hm hc (by rw [hd]; exact Bool.false_ne_true) hx (slotTaken_invalid hl ha)

end

/-- The read of the plug as `execPlugRead` and `execPlugReadRetry` end it. -/
theorem exec_plugRead (s : State) (a : List Byte) (o : Option (List Byte)) : exec (.plugRead (some a) o) s =
    s.whilePowered (if (!s.booting) = true ∨ s.boot.plugDone = true then s
      else s.plugDone (match o with | some b => if a = b ∧ plugOk a then some a else none | none => none)) := by
  cases o <;> rfl

/-- An attempt of one read lost. -/
def State.readLost (s : State) (second : Bool) : State :=
  let s1 := { s with boot := s.boot.lost second }
  if 50 ≤ s1.boot.retry ∨ 50 ≤ s1.boot.retry2 then s1.plugDone none else s1

theorem exec_plugReadRetry (s : State) (second : Bool) : exec (.plugReadRetry second) s =
    s.whilePowered (if (!s.booting) = true ∨ s.boot.plugDone = true then s else s.readLost second) := rfl

theorem exec_processorLoad (s : State) (step : Fin 4) (digest : BitVec 256) : exec (.processorLoad step digest) s =
    s.whilePowered (if (!s.booting) = true ∨ (!s.boot.imageOk) = true ∨ s.boot.loaded.length ≠ step.val then s
      else match s.img s.loadSlot with
        | none => s
        | some i =>
          if digest = sectsDigest i.man [5 - step.val] then
            State.leaveBoot { s with boot := { s.boot with loaded := s.boot.loaded ++ [step.val] } }
          else (s.flag R.UPD.FLAG.LOADERR).set R.SUP.STATE.STOPC 6) := rfl

theorem exec_tocsinConfigConfirmed (s : State) : exec .tocsinConfigConfirmed s =
    s.whilePowered (if (!s.booting) = true ∨ s.boot.tocsin = true ∨ s.boot.loaded = [] then s
      else State.leaveBoot { s with boot := { s.boot with tocsin := true }, sup := { s.sup with startHold := false } }) := rfl

theorem exec_tocsinConfirmTimeout (s : State) : exec .tocsinConfirmTimeout s =
    s.whilePowered (if s.booting = true ∧ (!s.boot.tocsin) = true then s.set R.SUP.STATE.STOPC 7 else s) := rfl

/-! ### The image check as a command -/

theorem imageChecked_starts {s : State} {n : Nat} {fall back : Bool} (hl : s.boot.layered = false) (hn : n ≤ 1)
    (h : s.imageStart = ⟨some n, fall, back⟩) : StartsFrom s s.imageChecked n ⟨some n, fall, back⟩ := by
  rw [State.imageChecked, h]
  exact startFrom_starts _ hl hn

theorem imageChecked_none {s : State} {fall back : Bool} (h : s.imageStart = ⟨none, fall, back⟩) : s.imageChecked = s.noImage back := by
  rw [State.imageChecked, h]

/-- What a start from slot `n` leaves, as the statement says it. -/
def Started (s t : State) (n : Nat) (fall back : Bool) : Prop :=
  t = { s with
    regs := t.regs
    boot := { s.boot with
      imageOk := true
      slot := some n
      slotFb := fall
      fwDig := t.boot.fwDig
      prgDig := t.boot.prgDig
      copyfmt := t.boot.copyfmt }
    upd := { s.upd with
      rec0 := t.upd.rec0
      rec1 := t.upd.rec1 } } ∧
  (∀ x, s.img n = some x → t.boot.fwDig = sectsDigest x.man [1, 2, 3, 4, 5] ∧ t.boot.prgDig = some (sectsDigest x.man [6]) ∧
    t.boot.copyfmt = x.hdr.copyfmt.toNat) ∧
  t.get R.UPD.STATE.ACT = n ∧
  (n = s.get R.UPD.STATE.ACT → s.get R.UPD.STATE.TRIAL = 0 → t.upd = s.upd) ∧
  (n ≠ s.get R.UPD.STATE.ACT ∨ back = true ∨ s.get R.UPD.STATE.TRIAL = 1 → ∃ rec, t.slotRec = some rec ∧ rec.act = n ∧
    rec.trial = t.get R.UPD.STATE.TRIAL ∧ rec.trials = t.get R.UPD.STATE.TRIALS) ∧
  (fall = true → t.get R.UPD.FLAG.SLOTFALL = 1) ∧ (back = true → t.get R.UPD.FLAG.ROLLBACK = 1 ∧ t.get R.UPD.STATE.TRIAL = 0)

theorem StartsFrom.started {s t : State} {n : Nat} {i : ImageStart} (h : StartsFrom s t n i)
    (hb : i.back = true → s.get R.UPD.STATE.TRIAL = 1) : Started s t n i.fall i.back := by
  refine ⟨h.frame, h.digests, h.act, fun hn ht => h.kept hn ?_ ht, h.record, h.fall, fun hback => ⟨h.back hback, ?_⟩⟩
  · by_contra hne
    have := hb (by simpa using hne)
    omega
  · rw [h.trial, State.onTrial, hback, Bool.not_true, Bool.and_false]
    rfl

section
variable {s : State} (hm : s.mstate = .boot) (hc : s.get R.SUP.STATE.STOPC = 0) (hl : s.boot.layered = false) (hi : s.boot.imageOk = false)
  (ha : s.actSlot ≤ 1)
include hm hc hi

theorem does_imageCheck {post : State → Prop} (h : post s.imageChecked) : Does .imageCheck s post :=
  does_of_step hm hc (by rw [hi]; exact Bool.false_ne_true) (exec_imageCheck s) h

include hl ha

theorem imageCheck_settled (h0 : s.get R.UPD.STATE.TRIAL = 0) :
    (s.slotCheck s.actSlot = 0 → Does .imageCheck s fun t => Started s t s.actSlot false false) ∧
      (s.slotCheck s.actSlot ≠ 0 → s.slotCheck s.idleSlot = 0 → Does .imageCheck s fun t => Started s t s.idleSlot true false) ∧
      (s.slotCheck s.actSlot ≠ 0 → s.slotCheck s.idleSlot ≠ 0 → s.slotCheck 2 = 0 → Does .imageCheck s fun t =>
        t.mstate = .recovery ∧ t.get R.UPD.STATE.ACT = 2) ∧
      (s.slotCheck s.actSlot ≠ 0 → s.slotCheck s.idleSlot ≠ 0 → s.slotCheck 2 ≠ 0 → Sets .imageCheck s [(R.SUP.STATE.STOPC, 5)]) := by
  have hstart := imageStart_settled ha h0
  have hidle : s.idleSlot ≤ 1 := by rw [idleSlot_eq ha]; omega
  refine ⟨fun h => ?_, fun h h' => ?_, fun h h' h2 => ?_, fun h h' h2 => ?_⟩
  · rw [if_pos (passes_iff.2 h)] at hstart
    exact does_imageCheck hm hc hi ((imageChecked_starts hl ha hstart).started fun hb => (Bool.false_ne_true hb).elim)
  · rw [if_neg (by simp [not_passes_iff.2 h]), if_pos (passes_iff.2 h')] at hstart
    exact does_imageCheck hm hc hi ((imageChecked_starts hl hidle hstart).started fun hb => (Bool.false_ne_true hb).elim)
  · rw [if_neg (by simp [not_passes_iff.2 h]), if_neg (by simp [not_passes_iff.2 h'])] at hstart
    refine does_imageCheck hm hc hi ?_
    rw [imageChecked_none hstart]
    exact (noImage_settled s).1 (passes_iff.2 h2)
  · rw [if_neg (by simp [not_passes_iff.2 h]), if_neg (by simp [not_passes_iff.2 h'])] at hstart
    refine does_imageCheck hm hc hi ?_
    rw [imageChecked_none hstart]
    exact (noImage_settled s).2 (not_passes_iff.2 h2)

theorem imageCheck_trial (h1 : s.get R.UPD.STATE.TRIAL = 1) :
    (s.get R.UPD.STATE.TRIALS < s.trialN → s.slotCheck s.actSlot = 0 → (Does .imageCheck s fun t => Started s t s.actSlot false false) ∧
      Does .imageCheck s fun t => t.get R.UPD.STATE.TRIAL = 1 ∧ t.get R.UPD.STATE.TRIALS = s.get R.UPD.STATE.TRIALS + 1) ∧
    (s.trialN ≤ s.get R.UPD.STATE.TRIALS ∨ s.slotCheck s.actSlot ≠ 0 → s.slotCheck s.idleSlot = 0 →
      Does .imageCheck s fun t => Started s t s.idleSlot (decide (s.slotCheck s.actSlot ≠ 0)) true) ∧
    (s.trialN ≤ s.get R.UPD.STATE.TRIALS → s.slotCheck s.actSlot = 0 → s.slotCheck s.idleSlot ≠ 0 →
      Does .imageCheck s fun t => Started s t s.actSlot true true) ∧
    (s.slotCheck s.actSlot ≠ 0 → s.slotCheck s.idleSlot ≠ 0 → Does .imageCheck s fun t => t.get R.UPD.FLAG.ROLLBACK = 1 ∧
      (∃ rec, t.slotRec = some rec ∧ rec.act = s.idleSlot ∧ rec.trial = 0) ∧
      (s.slotCheck 2 = 0 → t.mstate = .recovery ∧ t.get R.UPD.STATE.ACT = 2) ∧ (s.slotCheck 2 ≠ 0 → t.get R.SUP.STATE.STOPC = 5)) := by
  have hstart := imageStart_trial ha h1
  have hidle : s.idleSlot ≤ 1 := by rw [idleSlot_eq ha]; omega
  have hfall : (!s.passes s.actSlot) = decide (s.slotCheck s.actSlot ≠ 0) := by rw [State.passes, decide_not]
  refine ⟨fun ht h => ?_, fun ht h' => ?_, fun ht h h' => ?_, fun h h' => ?_⟩
  · rw [if_neg (by simp [passes_iff.2 h]; omega)] at hstart
    have hs := imageChecked_starts hl ha hstart
    refine ⟨does_imageCheck hm hc hi (hs.started fun _ => h1), does_imageCheck hm hc hi ⟨?_, ?_⟩⟩
    · rw [hs.trial, State.onTrial, h1]; rfl
    · have hn : s.trialN ≤ 5 := by
        unfold State.trialN inRange
        split <;> omega
      exact (hs.trials (by rw [State.onTrial, h1]; rfl)).trans (Nat.mod_eq_of_lt (show s.get R.UPD.STATE.TRIALS + 1 < 2 ^ 8 by omega))
  · rw [if_pos (ht.imp_right not_passes_iff.2), if_pos (passes_iff.2 h'), hfall] at hstart
    exact does_imageCheck hm hc hi ((imageChecked_starts hl hidle hstart).started fun _ => h1)
  · rw [if_pos (.inl ht), if_neg (by simp [not_passes_iff.2 h']), if_pos (passes_iff.2 h)] at hstart
    exact does_imageCheck hm hc hi ((imageChecked_starts hl ha hstart).started fun _ => h1)
  · rw [if_pos (.inr (not_passes_iff.2 h)), if_neg (by simp [not_passes_iff.2 h']), if_neg (by simp [not_passes_iff.2 h])] at hstart
    refine does_imageCheck hm hc hi ?_
    rw [imageChecked_none hstart]
    obtain ⟨hr, hrec, hrecov, hstop⟩ := noImage_back ha
    exact ⟨hr, hrec, fun h2 => hrecov (passes_iff.2 h2), fun h2 => hstop (not_passes_iff.2 h2)⟩

end

/-! ### The other steps as commands -/

section
variable {s : State} (hm : s.mstate = .boot) (hc : s.get R.SUP.STATE.STOPC = 0)
include hm hc

theorem does_processorLoad {step : Fin 4} {dig : BitVec 256} {i : FlashImg} (hl : s.boot.layered = false) (hok : s.boot.imageOk = true)
    (hn : s.boot.loaded.length = step.val) (hi : s.img (s.boot.slot.getD (s.get R.UPD.STATE.ACT)) = some i) :
    (dig = sectsDigest i.man [5 - step.val] → Does (.processorLoad step dig) s fun t =>
      t = { s with boot := { s.boot with loaded := s.boot.loaded ++ [step.val] } }) ∧
    (dig ≠ sectsDigest i.man [5 - step.val] → Sets (.processorLoad step dig) s [(R.UPD.FLAG.LOADERR, 1), (R.SUP.STATE.STOPC, 6)]) := by
  have hx := exec_processorLoad s step dig
  have hslot : s.img s.loadSlot = some i := hi
  rw [hslot] at hx
  refine ⟨fun hd => does_of_step hm hc (by simp [hok, hn]) hx ?_, fun hd => does_of_step hm hc (by simp [hok, hn]) hx ?_⟩
  · dsimp only
    rw [if_pos hd]
    exact leaveBoot_unlayered hl
  · dsimp only
    rw [if_neg hd]
    exact ((OnlyFields.refl s).put R.UPD.FLAG.LOADERR 1 rfl).put R.SUP.STATE.STOPC 6 rfl

theorem does_tocsinConfigConfirmed (hl : s.boot.layered = false) (ht : s.boot.tocsin = false) (hn : s.boot.loaded ≠ []) :
    Does .tocsinConfigConfirmed s fun t =>
      t = { s with boot := { s.boot with tocsin := true }, sup := { s.sup with startHold := false } } :=
  does_of_step hm hc (by simp [ht, hn]) (exec_tocsinConfigConfirmed s) (leaveBoot_unlayered hl)

theorem does_tocsinConfirmTimeout (ht : s.boot.tocsin = false) : Sets .tocsinConfirmTimeout s [(R.SUP.STATE.STOPC, 7)] := by
  refine does_of_whilePowered (exec_tocsinConfirmTimeout s) fun hp => ?_
  rw [if_pos ⟨booting_of hm hc hp, by rw [ht]; rfl⟩]
  exact (OnlyFields.refl s).put R.SUP.STATE.STOPC 7 rfl

/-- With its last step BOOT ends. -/
theorem does_tocsin_last (hl : s.boot.layered = true) (hi : s.boot.imageOk = true) (hn : s.boot.loaded.length = 4) (hs : s.boot.slotDone = true)
    (hp : s.boot.plugDone = true) (ht : s.boot.tocsin = false) : Does .tocsinConfigConfirmed s fun t =>
      t.mstate = (if s.sup.warm then .init else .starttest) ∧ t.sup.startHold = false := by
  have hne : s.boot.loaded ≠ [] := fun h => by rw [h] at hn; exact absurd hn (by decide)
  refine does_of_whilePowered (exec_tocsinConfigConfirmed s) fun hpow => ?_
  have hboot := booting_of hm hc hpow
  rw [if_neg (by simp [hboot, ht, hne])]
  obtain ⟨hmst, hsup⟩ := leaveBoot_done (s := { s with boot := { s.boot with tocsin := true }, sup := { s.sup with startHold := false } }) (by
    have hb : State.booting { s with boot := { s.boot with tocsin := true }, sup := { s.sup with startHold := false } } = s.booting := rfl
    rw [State.bootDone, hb, hboot]
    simp [hl, hi, hn, hs, hp])
  exact ⟨hmst, congrArg SupSt.startHold hsup⟩

theorem does_plugReadRetry (hd : s.boot.plugDone = false) (hr : s.boot.retry < 49) (hr2 : s.boot.retry2 < 49) :
    (Does (.plugReadRetry false) s fun t => t = { s with boot := { s.boot with retry := s.boot.retry + 1 } }) ∧
      Does (.plugReadRetry true) s fun t => t = { s with boot := { s.boot with retry2 := s.boot.retry2 + 1 } } := by
  refine ⟨does_of_step hm hc (by simp [hd]) (exec_plugReadRetry s false) (if_neg ?_), does_of_step hm hc (by simp [hd]) (exec_plugReadRetry s true) (if_neg ?_)⟩
  · show ¬ (50 ≤ s.boot.retry + 1 ∨ 50 ≤ s.boot.retry2)
    omega
  · show ¬ (50 ≤ s.boot.retry ∨ 50 ≤ s.boot.retry2 + 1)
    omega

end

/-- The 50th lost attempt of a read ends it. -/
theorem readLost_last {s : State} {second : Bool} (h : (if second then s.boot.retry2 else s.boot.retry) = 49) :
    s.readLost second = State.plugDone { s with boot := s.boot.lost second } none := by
  unfold State.readLost
  refine if_pos ?_
  cases second with
  | false => exact .inl (Nat.le_of_eq (congrArg (· + 1) h).symm)
  | true => exact .inr (Nat.le_of_eq (congrArg (· + 1) h).symm)

/-- The failed read that a lost attempt ends leaves UCAUSE alone to show. -/
theorem readLost_failed {s : State} {second : Bool} (h : (if second then s.boot.retry2 else s.boot.retry) = 49) (hl : s.boot.layered = false)
    (ha : s.get R.ID.ASTAT.ADDR = 0) :
    s.readLost second = { s with regs := (s.readLost second).regs, boot := { s.boot.lost second with plugDone := true } } ∧
      FieldsSet s (s.readLost second) [(R.ID.ASTAT.UCAUSE, s.bootCause (decide (s.get R.ID.SLOT.VALID = 1)) (decide (s.get R.ID.PLUG.VALID = 1))
        (s.get R.ID.PLUG.RACK) (s.get R.ID.SLOT.CODE))] := by
  rw [readLost_last h]
  have hlay : (s.boot.lost second).layered = false := by cases second <;> exact hl
  have hcause : State.bootCause { s with boot := s.boot.lost second } = s.bootCause := by cases second <;> rfl
  obtain ⟨heq, hf⟩ := plugDone_failed (s := { s with boot := s.boot.lost second }) hlay ha
  rw [hcause] at hf
  generalize State.plugDone { s with boot := s.boot.lost second } none = t at heq hf ⊢
  exact ⟨heq, hf⟩

/-- The order in which the statement lists the fields of a plug. -/
theorem plug_order {b : List Byte} {u : Nat} : (plugFields b ++ [(R.ID.ASTAT.UCAUSE, u)]).Perm
    ([(R.ID.PLUG.VALID, 1), (R.ID.PLUG.RACK, leNat (bytesAt b 5 1)), (R.ID.PLUG.VTYPE, leNat (bytesAt b 6 2)), (R.ID.ASTAT.UCAUSE, u)] ++
      (List.range 4).map fun w => (R.ID.VEHID.BYTES w, leNat (bytesAt b (8 + 4 * w) 4))) :=
  ((List.perm_append_singleton (R.ID.ASTAT.UCAUSE, u) ((List.range 4).map fun w => (R.ID.VEHID.BYTES w, leNat (bytesAt b (8 + 4 * w) 4)))).append_left
    [(R.ID.PLUG.VALID, 1), (R.ID.PLUG.RACK, leNat (bytesAt b 5 1)), (R.ID.PLUG.VTYPE, leNat (bytesAt b 6 2))])

/-! ### The statement -/

/-- Settles O42: the steps of BOOT one by one; while the layering is outstanding no step ends BOOT. -/
theorem bootStepsActAsTheirRules : Obligations.BootStepsActAsTheirRules := by
  unfold Obligations.BootStepsActAsTheirRules
  refine ⟨?_, ?_⟩
  · intro s v samples b step i dig code odd act other n trialN regsAndBoot starts cause slotOk plugOk' rack hm hc ha hl
    refine ⟨fun hd hs ho hcode => does_slotCode_valid hm hc hl ha hd hs ho hcode, fun hd hs hbad => does_slotCode_invalid hm hc hl ha hd hs hbad,
      ?plug, ?noPlug, fun hd hr hr2 => does_plugReadRetry hm hc hd hr hr2, ?retry, ?retry2, ?settled, ?trial,
      fun hok hn hi => does_processorLoad hm hc hl hok hn hi, fun ht hn => does_tocsinConfigConfirmed hm hc hl ht hn,
      fun ht => does_tocsinConfirmTimeout hm hc ht, fun hd => ignored_of_done hd (exec_slotCodeSample s samples),
      fun hd => ⟨ignored_of_done hd (exec_plugRead s b (some b)), fun second => ignored_of_done hd (exec_plugReadRetry s second)⟩,
      fun hd => ignored_of_done hd (exec_imageCheck s), fun hd => ⟨ignored_of_done (.inl hd) (exec_tocsinConfigConfirmed s), ?timeout⟩⟩
    case plug =>
      intro hd hok
      have hx := exec_plugRead s b (some b)
      dsimp only at hx
      rw [if_pos (⟨rfl, hok⟩ : b = b ∧ plugOk b = true)] at hx
      refine does_of_step hm hc (by simp [hd]) hx ?_
      obtain ⟨heq, hf⟩ := plugDone_read b hl ha
      exact ⟨heq, hf.reorder plug_order⟩
    case noPlug => exact fun hd => does_of_step hm hc (by simp [hd]) (exec_plugRead s b none) (plugDone_failed hl ha)
    case retry =>
      intro hd hr
      obtain ⟨heq, hf⟩ := readLost_failed (second := false) hr hl ha
      have hb : BootSt.lost s.boot false = { s.boot with retry := 50 } := by rw [BootSt.lost, if_neg Bool.false_ne_true, hr]
      rw [hb] at heq
      exact does_of_step hm hc (by simp [hd]) (exec_plugReadRetry s false) ⟨heq, hf⟩
    case retry2 =>
      intro hd hr
      obtain ⟨heq, -⟩ := readLost_failed (second := true) hr hl ha
      have hb : BootSt.lost s.boot true = { s.boot with retry2 := 50 } := by rw [BootSt.lost, if_pos rfl, hr]
      rw [hb] at heq
      exact does_of_step hm hc (by simp [hd]) (exec_plugReadRetry s true) (congrArg State.boot heq)
    case settled =>
      intro hi hact h0
      have h := imageCheck_settled hm hc hl hi hact h0
      rw [idleSlot_eq hact] at h
      exact h
    case trial =>
      intro hi hact h1
      have h := imageCheck_trial hm hc hl hi hact h1
      rw [idleSlot_eq hact] at h
      exact h
    case timeout =>
      rw [Ignored, exec_tocsinConfirmTimeout, if_neg (by simp [hd])]
      exact whilePowered_self s
  · intro s n m b hm hc hp
    refine ⟨fun hl hi hpend => ?_, fun hl => ?_, fun hl hi hn hs hpl ht => does_tocsin_last hm hc hl hi hn hs hpl ht⟩
    · have hx := exec_configLayering s
      rw [applyPend_none hpend] at hx
      refine does_of_step hm hc (fun h => Bool.false_ne_true (hl.symm.trans h)) hx ?_
      obtain ⟨hboot, hmst, hnv, ⟨hnone, hsome⟩, hcause, hper⟩ := layeringEnd_spec hi
      exact ⟨hboot, hmst.trans hm, hnv, hnone, hsome n m, hcause, hper⟩
    · exact ignored_of_done hl (exec_configLayering s)

end Sys2Proof.Machine
end

section
/-! PROOF. Packages (R333 to R343): what a failed check shows, the header, the rest of a package, and the delta stream. -/

namespace Sys2Proof.Machine

/-! ### Fields written twice -/

/-- Fields that are written again count as written once. -/
theorem FieldsSet.over {s t u : State} {l l' : List (Fld × Nat)} (h : FieldsSet s t l) (h' : FieldsSet t u l')
    (hl : ∀ p ∈ l, p.1 ∈ l'.map (·.1)) : FieldsSet s u l' := by
  refine ⟨h'.1, fun f hf => (h'.2 f hf).trans (h.2 f fun p hp => ?_)⟩
  obtain ⟨q, hq, hqp⟩ := List.mem_map.1 (hl p hp)
  rw [← hqp]
  exact hf q hq

/-- A state whose other parts differ has the same fields written. -/
theorem FieldsSet.of_base {s s' t : State} {l : List (Fld × Nat)} (h : FieldsSet s' t l) (hs : s'.regs = s.regs) : FieldsSet s t l :=
  ⟨h.1, fun f hf => (h.2 f hf).trans (get_congr hs f)⟩

theorem setAll_regs (s : State) (l : List (Fld × Nat)) : s.setAll l = { s with regs := (s.setAll l).regs } := by
  induction l using List.reverseRecOn with
  | nil => rfl
  | append_singleton l p ih =>
    rw [State.setAll, List.foldl_append, ← State.setAll]
    exact congrArg (fun x : State => { x with regs := ((s.setAll l).set p.1 p.2).regs }) ih

theorem setAll_append (s : State) (l l' : List (Fld × Nat)) : s.setAll (l ++ l') = (s.setAll l).setAll l' := List.foldl_append ..

/-! ### A failed check (R337) -/

/-- The fields that a failed check writes. -/
def failFields (s : State) (code : Nat) : List (Fld × Nat) :=
  [(R.UPD.STATUS.CHECK, code), (R.UPD.STATE.fld, 4), (R.UPD.FLAG.CHKFAIL, 1), (R.SUP.FUMSEQ.SEQ, s.get R.SUP.FUMSEQ.SEQ + 1)]

/-- From `s` to `t` a check of a package of version `pver` failed with `code`. -/
structure CheckFailed (s t : State) (code : Nat) (pver : W32) : Prop where
  frame : t = { s with regs := t.regs, fum := t.fum, fumPos := t.fumPos }
  record : Recorded s t 0x0A 0x0E code (leBytes 1 0x0E ++ leBytes 3 0 ++ leBytes 4 pver.toNat)
  fields : FieldsSet s t (failFields s code)

theorem checkFail_spec (s : State) (code : Nat) (pver : W32) : CheckFailed s (s.checkFail code pver) code pver := by
  have h : OnlyFields s (((s.set R.UPD.STATUS.CHECK code).set R.UPD.STATE.fld 4).flag R.UPD.FLAG.CHKFAIL)
      [(R.UPD.STATUS.CHECK, code), (R.UPD.STATE.fld, 4), (R.UPD.FLAG.CHKFAIL, 1)] :=
    (((OnlyFields.refl s).put R.UPD.STATUS.CHECK _ rfl).put R.UPD.STATE.fld _ rfl).put R.UPD.FLAG.CHKFAIL 1 rfl
  unfold State.checkFail
  generalize ((s.set R.UPD.STATUS.CHECK code).set R.UPD.STATE.fld 4).flag R.UPD.FLAG.CHKFAIL = a at h ⊢
  obtain ⟨ha, hf⟩ := h
  have hseq : a.get R.SUP.FUMSEQ.SEQ = s.get R.SUP.FUMSEQ.SEQ := hf.get_eq _ rfl
  have hlog := (Logs.fumarole a 0x0A 0x0E code (leBytes 1 0x0E ++ leBytes 3 0 ++ leBytes 4 pver.toNat)).1
  have hfields := hf.fumarole 0x0A 0x0E code (leBytes 1 0x0E ++ leBytes 3 0 ++ leBytes 4 pver.toNat) rfl
  obtain ⟨r, l, hr, hn, hb, hd⟩ := fumarole_recorded a 0x0A 0x0E code (leBytes 1 0x0E ++ leBytes 3 0 ++ leBytes 4 pver.toNat)
  generalize a.fumarole 0x0A 0x0E code (leBytes 1 0x0E ++ leBytes 3 0 ++ leBytes 4 pver.toNat) = t at hlog hfields hr ⊢
  refine ⟨?_, ⟨r, by rw [hr]; exact List.mem_cons_self .., by rw [hn, hseq], hb, hd⟩, hfields⟩
  exact hlog.trans (congrArg (fun x : State => { x with regs := t.regs, fum := t.fum, fumPos := t.fumPos }) ha)

/-- What is kept beside the registers and the records as a check fails with the staging area `upd`. -/
structure PackageFailed (s t : State) (code : Nat) (pver : W32) (upd : UpdSt) (more : List (Fld × Nat)) : Prop where
  frame : t = { s with regs := t.regs, fum := t.fum, fumPos := t.fumPos, upd := upd }
  record : Recorded s t 0x0A 0x0E code (leBytes 1 0x0E ++ leBytes 3 0 ++ leBytes 4 pver.toNat)
  fields : FieldsSet s t (failFields s code ++ more)

/-- A check fails where nothing else was written. -/
theorem checkFail_with (s : State) (upd : UpdSt) (code : Nat) (pver : W32) :
    PackageFailed s (State.checkFail { s with upd := upd } code pver) code pver upd [] := by
  obtain ⟨hfr, hrec, hf⟩ := checkFail_spec { s with upd := upd } code pver
  exact ⟨hfr, hrec, hf.of_base rfl⟩

/-! ### The header (Table 15-2) -/

/-- KIND and STGID of the package whose header arrived. -/
def shownFields (h : PkgHeader) : List (Fld × Nat) := (R.UPD.STATE.KIND, h.kind.toNat) :: digestFields R.UPD.STGID.WORD h.mandig

/-- The staging area as a header finds it. -/
def UpdSt.dropped (u : UpdSt) : UpdSt := { u with hdr := none, man := none, stream := [] }

/-- KIND and STGID of a header as it arrives. -/
def State.kindShown (s : State) (h : PkgHeader) : State := (s.dropPackage.set R.UPD.STATE.KIND h.kind.toNat).setStgid h.mandig

theorem dropPackage_fields (s : State) : OnlyFields { s with upd := s.upd.dropped } s.dropPackage ((R.UPD.STATE.KIND, 0) :: digestFields R.UPD.STGID.WORD 0) := by
  have h : apartAll (R.UPD.STATE.KIND :: (List.range 8).map R.UPD.STGID.WORD) = true := by decide
  have hx : s.dropPackage = State.setAll { s with upd := s.upd.dropped } ((R.UPD.STATE.KIND, 0) :: digestFields R.UPD.STGID.WORD 0) := rfl
  rw [hx]
  refine setAll_fields _ _ ?_
  rw [List.map_cons, digestFields_fst]
  exact h

theorem kindShown_fields (s : State) (h : PkgHeader) : OnlyFields { s with upd := s.upd.dropped } (s.kindShown h) (shownFields h) := by
  have hap : apartAll (R.UPD.STATE.KIND :: (List.range 8).map R.UPD.STGID.WORD) = true := by decide
  have hx : s.kindShown h = State.setAll s.dropPackage (shownFields h) := rfl
  obtain ⟨hd, hdf⟩ := dropPackage_fields s
  rw [hx]
  have h2 := setAll_fields s.dropPackage (shownFields h) (by rw [shownFields, List.map_cons, digestFields_fst]; exact hap)
  generalize s.dropPackage = d at hd hdf h2 ⊢
  generalize d.setAll (shownFields h) = t at h2 ⊢
  refine ⟨h2.1.trans (congrArg (fun x : State => { x with regs := t.regs }) hd), hdf.over h2.2 fun p hp => ?_⟩
  have hp' : p.1 ∈ ((R.UPD.STATE.KIND, 0) :: digestFields R.UPD.STGID.WORD 0).map (·.1) := List.mem_map_of_mem hp
  rw [List.map_cons, digestFields_fst] at hp'
  rw [shownFields, List.map_cons, digestFields_fst]
  exact hp'

theorem exec_packageHeaderReceived (s : State) (h : PkgHeader) : exec (.packageHeaderReceived h) s =
    s.whilePowered (if s.session.isNone = true ∨ (s.updState ≠ 0 ∧ s.updState ≠ 4) then s else
      let s1 := (s.kindShown h).set R.UPD.STATUS.CHECK 0
      if s.headCheck h = 0 then State.set { s1 with upd := { s1.upd with hdr := some h } } R.UPD.STATE.fld 0
      else s1.checkFail (s.headCheck h) h.pver) := rfl

/-- A header that passes its checks. -/
theorem headerTaken_spec (s : State) (h : PkgHeader) :
    let s1 := (s.kindShown h).set R.UPD.STATUS.CHECK 0
    let t := State.set { s1 with upd := { s1.upd with hdr := some h } } R.UPD.STATE.fld 0
    t = { s with regs := t.regs, upd := { s.upd with hdr := some h, man := none, stream := [] } } ∧
      FieldsSet s t ([(R.UPD.STATUS.CHECK, 0), (R.UPD.STATE.fld, 0)] ++ shownFields h) := by
  obtain ⟨hk, hf⟩ := kindShown_fields s h
  dsimp only
  generalize s.kindShown h = a at hk hf ⊢
  have h1 := hf.put R.UPD.STATUS.CHECK 0 rfl
  have hb : a.set R.UPD.STATUS.CHECK 0 = { s with regs := (a.set R.UPD.STATUS.CHECK 0).regs, upd := s.upd.dropped } :=
    congrArg (fun x : State => { x with regs := (a.set R.UPD.STATUS.CHECK 0).regs }) hk
  generalize a.set R.UPD.STATUS.CHECK 0 = b at h1 hb ⊢
  have hc : { b with upd := { b.upd with hdr := some h } } =
      { s with regs := b.regs, upd := { s.upd with hdr := some h, man := none, stream := [] } } :=
    congrArg (fun x : State => { x with upd := { x.upd with hdr := some h } }) hb
  have h2 : FieldsSet s { b with upd := { b.upd with hdr := some h } } (shownFields h ++ [(R.UPD.STATUS.CHECK, 0)]) := (h1.of_base rfl).of_regs rfl
  generalize { b with upd := { b.upd with hdr := some h } } = c at hc h2 ⊢
  refine ⟨?_, (h2.put R.UPD.STATE.fld 0 rfl).reorder ?_⟩
  · exact congrArg (fun x : State => { x with regs := (c.set R.UPD.STATE.fld 0).regs }) hc
  · rw [List.append_assoc]
    exact List.perm_append_comm

/-- A header that fails its checks. -/
theorem headerFailed_spec (s : State) (h : PkgHeader) (code : Nat) :
    PackageFailed s (((s.kindShown h).set R.UPD.STATUS.CHECK 0).checkFail code h.pver) code h.pver
      { s.upd with hdr := none, man := none, stream := [] } (shownFields h) := by
  obtain ⟨hk, hf⟩ := kindShown_fields s h
  generalize s.kindShown h = a at hk hf ⊢
  have hb : a.set R.UPD.STATUS.CHECK 0 = { s with regs := (a.set R.UPD.STATUS.CHECK 0).regs, upd := s.upd.dropped } :=
    congrArg (fun x : State => { x with regs := (a.set R.UPD.STATUS.CHECK 0).regs }) hk
  have h1 : FieldsSet a (a.set R.UPD.STATUS.CHECK 0) ([] ++ [(R.UPD.STATUS.CHECK, 0)]) := (FieldsSet.refl a).put R.UPD.STATUS.CHECK 0 rfl
  generalize a.set R.UPD.STATUS.CHECK 0 = b at hb h1 ⊢
  have hseq : b.get R.SUP.FUMSEQ.SEQ = s.get R.SUP.FUMSEQ.SEQ := (h1.get_eq _ rfl).trans (hf.get_eq _ rfl)
  obtain ⟨hfr, hrec, hff⟩ := checkFail_spec b code h.pver
  generalize b.checkFail code h.pver = t at hfr hrec hff ⊢
  have hfields : failFields b code = failFields s code := by rw [failFields, hseq]; rfl
  rw [hfields] at hff
  have hat : FieldsSet a t (failFields s code) := h1.over hff (by simp [failFields])
  have hap : ((R.UPD.STATE.KIND :: (List.range 8).map R.UPD.STGID.WORD).all fun f =>
      [R.UPD.STATUS.CHECK, R.UPD.STATE.fld, R.UPD.FLAG.CHKFAIL, R.SUP.FUMSEQ.SEQ].all f.apart) = true := by decide
  have hst := (hf.trans hat (apart_of_all (by rw [shownFields, List.map_cons, digestFields_fst]; exact hap))).of_base (s := s) rfl
  refine ⟨?_, ?_, hst.reorder List.perm_append_comm⟩
  · exact hfr.trans (congrArg (fun x : State => { x with regs := t.regs, fum := t.fum, fumPos := t.fumPos }) hb)
  · obtain ⟨r, hr, hn, hrest⟩ := hrec
    exact ⟨r, hr, by rw [hn, hseq], hrest⟩

/-! ### The rest of a package -/

theorem exec_packageReceived {s : State} {h : PkgHeader} (hh : s.upd.hdr = some h) (m : Manifest) (stream : List Byte) : exec (.packageReceived m stream) s =
    s.whilePowered (if s.session.isNone = true ∨ s.updState ≠ 0 ∨ s.stgKind ≠ h.kind.toNat ∨ stream.length < h.datalen.toNat then s else
      let s1 := { s with upd := { s.upd with man := some m, stream := stream.take h.datalen.toNat } }
      if badManifest h m then s1.checkFail 7 h.pver else s1.set R.UPD.STATE.fld 1) := by
  show s.whilePowered _ = _
  rw [hh]

theorem exec_packageReceived_none {s : State} (hh : s.upd.hdr = none) (m : Manifest) (stream : List Byte) : Ignored (.packageReceived m stream) s := by
  show s.whilePowered _ = _
  rw [hh]
  exact whilePowered_self s

end Sys2Proof.Machine
end

section
/-! PROOF. The delta stream and APPLY (R335, R337, R341). -/

namespace Sys2Proof.Machine

/-! ### The records of a stream -/

section
variable (base : List (List Byte)) (delta : Bool) (m : Manifest) (fwSame : Bool)

/-- A record produces block `n`. -/
def recordMakes (n : Nat) (x : DeltaRec) (b : List Byte) : Prop := deltaBlock base delta x = some b ∧ blockOk base m fwSame n x b = true

/-- The records at the head of a stream produce these blocks, from block `n` on, and the stream ends with them. -/
def streamMakes : Nat → List DeltaRec → List (List Byte) → List Byte → Prop
  | _, [], [], l => l = []
  | n, x :: xs, b :: bs, l => ∃ rest, takeRec l = some (x, rest) ∧ recordMakes base delta m fwSame n x b ∧ streamMakes (n + 1) xs bs rest
  | _, _, _, _ => False

/-- A stream that produces `todo` blocks up to the manifest's end produces what the fold of its records produces. -/
theorem deltaBlocks_of_makes {todo : Nat} {xs : List DeltaRec} {bs : List (List Byte)} {l : List Byte} (hn : todo ≤ m.digests.length)
    (hlen : bs.length = todo) (h : streamMakes base delta m fwSame (m.digests.length - todo) xs bs l) :
    deltaBlocks base delta m fwSame todo l = (bs, []) := by
  induction todo generalizing xs bs l with
  | zero =>
    obtain rfl := List.length_eq_zero_iff.1 hlen
    cases xs with
    | nil => rw [deltaBlocks, show l = [] from h]
    | cons x xs => exact h.elim
  | succ todo ih =>
    cases bs with
    | nil => exact absurd hlen (by simp)
    | cons b bs =>
      cases xs with
      | nil => exact h.elim
      | cons x xs =>
        obtain ⟨rest, ht, ⟨hb, hok⟩, hrest⟩ := h
        rw [show m.digests.length - (todo + 1) + 1 = m.digests.length - todo by omega] at hrest
        rw [deltaBlocks, ht]
        dsimp only
        rw [hb]
        dsimp only
        rw [if_pos hok, ih (by omega) (by simpa using hlen) hrest]

/-- The fold of a stream's records, where it comes to the manifest's end with the stream. -/
theorem makes_of_deltaBlocks {todo : Nat} {bs : List (List Byte)} {l : List Byte} (hn : todo ≤ m.digests.length)
    (h : deltaBlocks base delta m fwSame todo l = (bs, [])) (hlen : bs.length = todo) :
    ∃ xs, streamMakes base delta m fwSame (m.digests.length - todo) xs bs l := by
  induction todo generalizing bs l with
  | zero =>
    obtain rfl := List.length_eq_zero_iff.1 hlen
    exact ⟨[], (Prod.mk.inj h).2⟩
  | succ todo ih =>
    rw [deltaBlocks] at h
    split at h
    · rw [← (Prod.mk.inj h).1] at hlen; exact absurd hlen (by simp)
    · next x rest ht =>
      split at h
      · rw [← (Prod.mk.inj h).1] at hlen; exact absurd hlen (by simp)
      · next b hb =>
        split at h
        · next hok =>
          generalize hd : deltaBlocks base delta m fwSame todo rest = t at h
          obtain ⟨bs', left⟩ := t
          obtain ⟨rfl, rfl⟩ := Prod.mk.inj h
          obtain ⟨xs, hxs⟩ := ih (by omega) hd (by simpa using hlen)
          rw [show m.digests.length - todo = m.digests.length - (todo + 1) + 1 by omega] at hxs
          exact ⟨x :: xs, rest, ht, ⟨hb, hok⟩, hxs⟩
        · rw [← (Prod.mk.inj h).1] at hlen; exact absurd hlen (by simp)

/-- Each record begins where the one before it ends, and the last ends with the stream. -/
def recordsHold (stream : List Byte) (l : List DeltaRec) : Prop :=
  ∃ at_ : List (List Byte), at_.length = l.length + 1 ∧ at_.head? = some stream ∧ at_.getLast? = some [] ∧
    ∀ i x, l[i]? = some x → ∃ a b, at_[i]? = some a ∧ at_[i + 1]? = some b ∧ takeRec a = some (x, b)

theorem recordsHold_nil {l : List Byte} : recordsHold l [] ↔ l = [] := by
  constructor
  · rintro ⟨at_, hlen, hhead, hlast, -⟩
    obtain ⟨a, rfl⟩ := List.length_eq_one_iff.1 hlen
    cases hhead
    cases hlast
    rfl
  · rintro rfl
    exact ⟨[[]], rfl, rfl, rfl, fun i x hx => nomatch hx⟩

theorem recordsHold_cons {l : List Byte} {x : DeltaRec} {xs : List DeltaRec} :
    recordsHold l (x :: xs) ↔ ∃ rest, takeRec l = some (x, rest) ∧ recordsHold rest xs := by
  constructor
  · rintro ⟨at_, hlen, hhead, hlast, hstep⟩
    obtain ⟨a, b, ha, hb, ht⟩ := hstep 0 x rfl
    cases at_ with
    | nil => exact absurd hlen (by simp)
    | cons a' at_ =>
      obtain rfl : a' = l := Option.some.inj hhead
      obtain rfl : a' = a := Option.some.inj ha
      cases at_ with
      | nil => exact absurd hlen (by simp)
      | cons b' at_ =>
        obtain rfl : b' = b := Option.some.inj hb
        exact ⟨b', ht, b' :: at_, by simpa using hlen, rfl, by simpa using hlast, fun i y hy => hstep (i + 1) y hy⟩
  · rintro ⟨rest, ht, at_, hlen, hhead, hlast, hstep⟩
    cases at_ with
    | nil => exact absurd hlen (by simp)
    | cons b at_ =>
      obtain rfl : b = rest := Option.some.inj hhead
      refine ⟨l :: b :: at_, by simpa using hlen, rfl, by simpa using hlast, fun i y hy => ?_⟩
      cases i with
      | zero =>
        obtain rfl : x = y := Option.some.inj hy
        exact ⟨l, b, rfl, rfl, ht⟩
      | succ i => exact hstep i y hy

/-- Records that hold and produce their blocks one by one are records that the stream makes them with. -/
theorem streamMakes_iff {n : Nat} {xs : List DeltaRec} {bs : List (List Byte)} {l : List Byte} :
    streamMakes base delta m fwSame n xs bs l ↔ recordsHold l xs ∧ xs.length = bs.length ∧
      ∀ i x, xs[i]? = some x → ∃ b, bs[i]? = some b ∧ recordMakes base delta m fwSame (n + i) x b := by
  induction xs generalizing n bs l with
  | nil =>
    cases bs with
    | nil => exact ⟨fun h => ⟨recordsHold_nil.2 h, rfl, fun i x hx => nomatch hx⟩, fun h => recordsHold_nil.1 h.1⟩
    | cons b bs => exact ⟨fun h => h.elim, fun h => absurd h.2.1 (by simp)⟩
  | cons x xs ih =>
    cases bs with
    | nil => exact ⟨fun h => h.elim, fun h => absurd h.2.1 (by simp)⟩
    | cons b bs =>
      constructor
      · rintro ⟨rest, ht, hmk, hrest⟩
        obtain ⟨hh, hlen, hall⟩ := ih.1 hrest
        refine ⟨recordsHold_cons.2 ⟨rest, ht, hh⟩, by simpa using hlen, fun i y hy => ?_⟩
        cases i with
        | zero =>
          obtain rfl : x = y := Option.some.inj hy
          exact ⟨b, rfl, hmk⟩
        | succ i =>
          obtain ⟨b', hb', hmk'⟩ := hall i y hy
          exact ⟨b', hb', by rwa [Nat.add_right_comm] at hmk'⟩
      · rintro ⟨hh, hlen, hall⟩
        obtain ⟨rest, ht, hrest⟩ := recordsHold_cons.1 hh
        obtain ⟨b', hb', hmk⟩ := hall 0 x rfl
        obtain rfl : b = b' := Option.some.inj hb'
        refine ⟨rest, ht, hmk, ih.2 ⟨hrest, by simpa using hlen, fun i y hy => ?_⟩⟩
        obtain ⟨b', hb', hmk'⟩ := hall (i + 1) y hy
        exact ⟨b', hb', by rwa [← Nat.add_assoc, Nat.add_right_comm] at hmk'⟩

/-- The stream produces the blocks of the manifest and ends with them. -/
def streamGood (stream : List Byte) (bs : List (List Byte)) : Prop :=
  bs.length = m.digests.length ∧ ∃ xs, streamMakes base delta m fwSame 0 xs bs stream

theorem deltaBlocks_good {stream : List Byte} {bs : List (List Byte)} (h : streamGood base delta m fwSame stream bs) :
    deltaBlocks base delta m fwSame m.digests.length stream = (bs, []) := by
  obtain ⟨hlen, xs, hxs⟩ := h
  exact deltaBlocks_of_makes base delta m fwSame le_rfl hlen (by rwa [Nat.sub_self])

theorem streamGood_of_deltaBlocks {stream : List Byte}
    (hlen : (deltaBlocks base delta m fwSame m.digests.length stream).1.length = m.digests.length)
    (hleft : (deltaBlocks base delta m fwSame m.digests.length stream).2 = []) :
    streamGood base delta m fwSame stream (deltaBlocks base delta m fwSame m.digests.length stream).1 := by
  obtain ⟨xs, hxs⟩ := makes_of_deltaBlocks base delta m fwSame le_rfl (Prod.ext rfl hleft) hlen
  rw [Nat.sub_self] at hxs
  exact ⟨hlen, xs, hxs⟩

end

/-! ### APPLY_DONE -/

/-- The blocks of the active slot. -/
def State.baseBlocks (s : State) : List (List Byte) := match s.img s.actSlot with
  | some i => i.blocks
  | none => []

/-- READY. -/
def State.applyReady (s : State) (n : Nat) : State := ((s.set R.UPD.PROG.DONE n).set R.UPD.STATE.fld 3).flag R.UPD.FLAG.READY

/-- What a package that passed its checks changes. -/
def State.applied (s : State) (h : PkgHeader) (m : Manifest) (bs : List (List Byte)) : State :=
  let img (b : Option (PkgHeader × Manifest)) : FlashImg := ⟨h, m, b, bs, true⟩
  match h.kind.toNat with
  | 1 => (s.applyReady bs.length).setImg s.idleSlot (some (img none))
  | 2 => (s.applyReady bs.length).setImg s.idleSlot (some (img ((s.img s.actSlot).map fun i => (i.hdr, i.man))))
  | 3 => (s.applyReady bs.length).setImg 2 (some (img none))
  | _ => ((Config.keyChanges (bs.flatMap id)).filter (s.keyChangeOk h.keyid.toNat)).foldl State.changeKey (s.applyReady bs.length)

/-- What the records of the staged stream produce. -/
def State.produced (s : State) (h : PkgHeader) (m : Manifest) : List (List Byte) × List Byte :=
  deltaBlocks s.baseBlocks (isDelta h) m (h.kind.toNat = 2) m.digests.length s.upd.stream

theorem exec_applyDone {s : State} {h : PkgHeader} {m : Manifest} (hh : s.upd.hdr = some h) (hm : s.upd.man = some m) (hst : s.updState = 2) :
    exec .applyDone s = s.whilePowered (
      if badManifest h m then s.checkFail 7 h.pver
      else if (s.produced h m).1.length ≠ m.digests.length ∨ (s.produced h m).2 ≠ [] then
        (s.set R.UPD.PROG.DONE (s.produced h m).1.length).checkFail 8 h.pver
      else if s.badMsig h m then (s.set R.UPD.PROG.DONE (s.produced h m).1.length).checkFail 9 h.pver
      else s.applied h m (s.produced h m).1) := by
  show s.whilePowered _ = _
  rw [hh, hm]
  dsimp only
  rw [if_neg (not_not_intro hst)]
  rfl

theorem exec_applyDone_idle {s : State} (h : s.upd.hdr = none ∨ s.upd.man = none ∨ s.updState ≠ 2) : Ignored .applyDone s := by
  show s.whilePowered _ = _
  cases hh : s.upd.hdr with
  | none => exact whilePowered_self s
  | some hd =>
    cases hm : s.upd.man with
    | none => exact whilePowered_self s
    | some m =>
      have hst : s.updState ≠ 2 := by simpa [hh, hm] using h
      dsimp only
      rw [if_pos hst]
      exact whilePowered_self s

/-- A check that fails after fields were written. -/
theorem checkFail_after {s a : State} {l : List (Fld × Nat)} (h : OnlyFields s a l) (hseq : besides R.SUP.FUMSEQ.SEQ l = true)
    (hl : ((l.map (·.1)).all fun f => [R.UPD.STATUS.CHECK, R.UPD.STATE.fld, R.UPD.FLAG.CHKFAIL, R.SUP.FUMSEQ.SEQ].all f.apart) = true)
    (code : Nat) (pver : W32) : PackageFailed s (a.checkFail code pver) code pver s.upd l := by
  obtain ⟨ha, hf⟩ := h
  have hs : a.get R.SUP.FUMSEQ.SEQ = s.get R.SUP.FUMSEQ.SEQ := hf.get_eq _ hseq
  obtain ⟨hfr, hrec, hff⟩ := checkFail_spec a code pver
  generalize a.checkFail code pver = t at hfr hrec hff ⊢
  have hfields : failFields a code = failFields s code := by rw [failFields, hs]; rfl
  rw [hfields] at hff
  refine ⟨hfr.trans (congrArg (fun x : State => { x with regs := t.regs, fum := t.fum, fumPos := t.fumPos }) ha), ?_,
    (hf.trans hff (apart_of_all hl)).reorder List.perm_append_comm⟩
  obtain ⟨r, hr, hn, hrest⟩ := hrec
  exact ⟨r, hr, by rw [hn, hs], hrest⟩

theorem applyReady_fields (s : State) (n : Nat) :
    OnlyFields s (s.applyReady n) [(R.UPD.PROG.DONE, n), (R.UPD.STATE.fld, 3), (R.UPD.FLAG.READY, 1)] :=
  (((OnlyFields.refl s).put R.UPD.PROG.DONE n rfl).put R.UPD.STATE.fld 3 rfl).put R.UPD.FLAG.READY 1 rfl

/-- The flash with a new image in the slot that is not active. -/
def State.withIdle (s : State) (u : UpdSt) (v : Option FlashImg) : UpdSt :=
  if s.get R.UPD.STATE.ACT = 0 then { u with slotB := v } else { u with slotA := v }

theorem setImg_idle (s t : State) (v : Option FlashImg) : t.setImg s.idleSlot v = { t with upd := s.withIdle t.upd v } := by
  unfold State.idleSlot State.withIdle State.actSlot
  split
  · rfl
  · rfl

/-! ### Key changes (Table 15-4) -/

theorem changeKey_frame (s : State) (c : Nat × Bool × Bool × List Byte) :
    s.changeKey c = { s with upd := { s.upd with keys := (s.changeKey c).upd.keys } } := rfl

/-- A key change touches no other key. -/
theorem changeKey_keys (s : State) (c : Nat × Bool × Bool × List Byte) {id : Nat} (h : c.1 ≠ id) :
    (s.changeKey c).upd.keys.filter (fun k => k.id = id) = s.upd.keys.filter fun k => k.id = id := by
  have hrest : (s.upd.keys.filter fun k => k.id != c.1).filter (fun k => k.id = id) = s.upd.keys.filter fun k => k.id = id := by
    rw [List.filter_filter]
    refine List.filter_congr fun k _ => ?_
    by_cases hk : k.id = id
    · simp [hk, h.symm]
    · simp [hk]
  obtain ⟨e, he, hid⟩ : ∃ e : KeyEnt, (s.changeKey c).upd.keys = (s.upd.keys.filter fun k => k.id != c.1) ++ [e] ∧ e.id = c.1 := by
    refine ⟨_, rfl, ?_⟩
    split
    · split
      · next k hk => have hid := List.find?_some hk; exact of_decide_eq_true hid
      · rfl
    · rfl
  rw [he, List.filter_append, hrest, List.filter_cons_of_neg (by rw [hid]; simpa using h), List.filter_nil, List.append_nil]

theorem changeKeys_frame (l : List (Nat × Bool × Bool × List Byte)) (s : State) :
    l.foldl State.changeKey s = { s with upd := { s.upd with keys := (l.foldl State.changeKey s).upd.keys } } := by
  induction l generalizing s with
  | nil => rfl
  | cons c l ih =>
    rw [List.foldl_cons]
    refine (ih (s.changeKey c)).trans ?_
    generalize (l.foldl State.changeKey (s.changeKey c)).upd.keys = k
    exact congrArg (fun x : State => { x with upd := { x.upd with keys := k } }) (changeKey_frame s c)

theorem changeKeys_keys (l : List (Nat × Bool × Bool × List Byte)) (s : State) {id : Nat} (h : ∀ c ∈ l, c.1 ≠ id) :
    (l.foldl State.changeKey s).upd.keys.filter (fun k => k.id = id) = s.upd.keys.filter fun k => k.id = id := by
  induction l generalizing s with
  | nil => rfl
  | cons c l ih =>
    rw [List.foldl_cons, ih _ fun c' hc => h c' (List.mem_cons_of_mem _ hc), changeKey_keys s c (h c (List.mem_cons_self ..))]

end Sys2Proof.Machine
end

section
/-! PROOF. The package commands (R341 to R343) and the statement about packages. -/

namespace Sys2Proof.Machine

theorem exchBusy_eq (s : State) : s.exchBusy = [1, 2, 4, 5, 6].contains (s.get R.TASK.XSTAT.STATE) := by
  unfold State.exchBusy
  generalize s.get R.TASK.XSTAT.STATE = x
  rw [Bool.eq_iff_iff]
  simp [or_assoc]

/-- The header checks as the statement lists them. -/
theorem headCheck_eq (s : State) (h : PkgHeader) : s.headCheck h = firstReason [
      (1, h.magic != 0x7A311501 || h.format != 1 || !(if s.depot then [1, 2, 3, 4] else [1, 2]).contains h.kind.toNat),
      (2, h.part != s.reg R.ID.PART.NUM.off || decide (s.get R.ID.REV.HWREV < h.hwmin.toNat) || decide (h.hwmax.toNat < s.get R.ID.REV.HWREV)),
      (3, !keyFor h.keyid.toNat h.kind.toNat || match s.key h.keyid.toNat with
        | some k => algOf h.siglen.toNat != some k.big
        | none => true),
      (4, !s.signed h.keyid.toNat h.siglen.toNat (hdrBytes h) h.hsig), (5, decide (h.svn.toNat < s.get R.UPD.MINSVN.SVN)),
      (6, h.flags.toNat % 2 = 1 && h.baseid != s.actDigest)] := by
  have hmagic : (h.magic.toNat != 0x7A311501) = (h.magic != 0x7A311501) := by
    rw [Bool.eq_iff_iff, bne_iff_ne, bne_iff_ne, not_iff_not]
    exact ⟨fun e => BitVec.eq_of_toNat_eq e, fun e => by rw [e]; rfl⟩
  have hformat : (h.format.toNat != 1) = (h.format != 1) := by
    rw [Bool.eq_iff_iff, bne_iff_ne, bne_iff_ne, not_iff_not]
    exact ⟨fun e => BitVec.eq_of_toNat_eq e, fun e => by rw [e]; rfl⟩
  unfold State.headCheck State.headSteps State.kinds isDelta
  rw [hmagic, hformat]
  cases s.key h.keyid.toNat with
  | none => rw [Bool.or_true]; rfl
  | some k => rfl

/-! ### The check of a slot -/

theorem reg_of_get {s t : State} {f : Fld} (hlo : f.lo = 0) (hw : f.w = 32) (h : t.get f = s.get f) : t.reg f.off = s.reg f.off := by
  refine BitVec.eq_of_toNat_eq ?_
  have hget (u : State) : u.get f = (u.reg f.off).toNat := by
    rw [State.get, fieldOf, hlo, hw, pow_zero, Nat.div_one]
    exact Nat.mod_eq_of_lt (u.reg f.off).isLt
  rw [← hget, ← hget, h]

/-- The check of a slot reads the flash, the keys, the part number, the revision and the minimum version. -/
theorem slotCheck_congr {s t : State} (hu : t.upd = s.upd) (hp : t.get R.ID.PART.NUM = s.get R.ID.PART.NUM)
    (hr : t.get R.ID.REV.HWREV = s.get R.ID.REV.HWREV) (hv : t.get R.UPD.MINSVN.SVN = s.get R.UPD.MINSVN.SVN) (n : Nat) :
    t.slotCheck n = s.slotCheck n := by
  have hkey (i : Nat) : t.key i = s.key i := by unfold State.key; rw [hu]
  have hsigned (i k : Nat) (a b : List Byte) : t.signed i k a b = s.signed i k a b := by unfold State.signed; rw [hkey]
  have hhead (h : PkgHeader) (l : List Nat) : t.headSteps h l = s.headSteps h l := by
    unfold State.headSteps
    rw [reg_of_get rfl rfl hp, hr, hv, hsigned, hkey]
  have hseal (h : PkgHeader) (m : Manifest) (l : List Nat) : t.sealSteps h m l = s.sealSteps h m l := by
    unfold State.sealSteps State.badMsig
    rw [hhead, hsigned]
  unfold State.slotCheck
  rw [img_congr hu]
  cases s.img n with
  | none => rfl
  | some i =>
    dsimp only
    rw [hseal]
    cases i.base with
    | none => rfl
    | some b => dsimp only; rw [hseal]

/-! ### ACTIVATE -/

section
variable {s : State} {r : Req}

theorem does_updActivate (hst : s.steward r = true) (hw : s.activateWhy = 0) (hact : s.idleSlot ≤ 1) : Does (.updActivate r) s fun t =>
    t = { s with
      regs := t.regs
      sup := { s.sup with restart := some true }
      upd := { s.upd with
        rec0 := t.upd.rec0
        rec1 := t.upd.rec1 } } ∧
    (∃ x, t.slotRec = some x ∧ x.act = s.idleSlot ∧ x.trial = 1 ∧ x.trials = 0 ∧
      ∀ old, s.slotRec = some old → x.seq = old.seq + 1 ∧ (t.upd.rec0 = some old ∨ t.upd.rec1 = some old)) ∧
    FieldsSet s t ([(R.UPD.STATUS.REASON, 0), (R.UPD.CMD.all, 2), (R.UPD.CMDCNT.COUNT, s.get R.UPD.CMDCNT.COUNT + 1)] ++
      activeFields s.idleSlot true (s.slotDigest s.idleSlot)) := by
  have hx : exec (.updActivate r) s = s.whilePowered (s.updCommand r 2 s.activateWhy fun t => (t.makeActive t.idleSlot true).acceptRestart true) := rfl
  rw [State.updCommand, command_accepted hst hw] at hx
  obtain ⟨ha, hf⟩ := command_fields s R.UPD.CMD.all R.UPD.CMDCNT.COUNT R.UPD.STATUS.REASON 2 rfl rfl rfl
  generalize ((s.set R.UPD.STATUS.REASON 0).set R.UPD.CMD.all 2).inc R.UPD.CMDCNT.COUNT = a at hx ha hf
  have hau : a.upd = s.upd := by rw [ha]
  have hidle : a.idleSlot = s.idleSlot := by
    unfold State.idleSlot State.actSlot
    rw [hf.get_eq R.UPD.STATE.ACT rfl]
  have hdig : a.slotDigest s.idleSlot = s.slotDigest s.idleSlot := by unfold State.slotDigest; rw [img_congr hau]
  rw [hidle] at hx
  obtain ⟨hb, hbf, x, hxr, hxa, hxt, hxs, hold⟩ := makeActive_spec a true hact
  rw [hdig] at hbf
  rw [slotRec_congr hau] at hold
  generalize a.makeActive s.idleSlot true = b at hx hb hbf hxr hold
  have hbs := hb.trans (congrArg (fun x : State => { x with
    regs := b.regs
    upd := { x.upd with
      rec0 := b.upd.rec0
      rec1 := b.upd.rec1 } }) ha)
  have hap : ([R.UPD.STATUS.REASON, R.UPD.CMD.all, R.UPD.CMDCNT.COUNT].all fun f =>
      ([R.UPD.STATE.ACT, R.UPD.STATE.TRIAL, R.UPD.STATE.TRIALS] ++ (List.range 8).map R.UPD.ACTID.WORD).all f.apart) = true := by decide
  have hfields := hf.trans hbf (apart_of_all (by rw [activeFields, List.map_append, digestFields_fst]; exact hap))
  refine does_of_whilePowered hx fun _ => ⟨?_, ⟨x, (slotRec_congr rfl).trans hxr, hxa, hxt, hxs, hold⟩, hfields.of_regs rfl⟩
  exact congrArg (fun x : State => { x with sup := { x.sup with restart := some true } }) hbs

end

/-! ### The other commands -/

/-- The fields that an accepted command writes. -/
def cmdFields (s : State) (v : Nat) : List (Fld × Nat) :=
  [(R.UPD.STATUS.REASON, 0), (R.UPD.CMD.all, v), (R.UPD.CMDCNT.COUNT, s.get R.UPD.CMDCNT.COUNT + 1)]

/-- The manifest's number of blocks, 0 where none is in staging. -/
def State.stagedBlocks (s : State) : Nat := match s.upd.man with
  | some m => m.digests.length
  | none => 0

/-- APPLY where it acts. -/
def State.applyBegun (s : State) : State :=
  let t1 := ((s.set R.UPD.STATE.fld 2).set R.UPD.PROG.TOTAL s.stagedBlocks).set R.UPD.PROG.DONE 0
  if s.stgKind = 1 ∨ s.stgKind = 2 then t1.setImg s.idleSlot ((s.img s.idleSlot).map fun i => { i with valid := false }) else t1

/-- The inactive slot's image marked not valid. -/
def State.idleMarked (s : State) : State :=
  if s.stgKind = 1 ∨ s.stgKind = 2 then { s with upd := s.withIdle s.upd ((s.img s.idleSlot).map fun i => { i with valid := false }) } else s

theorem applyBegun_spec (s : State) : s.applyBegun = { s.idleMarked with regs := s.applyBegun.regs } ∧
    FieldsSet s s.applyBegun [(R.UPD.STATE.fld, 2), (R.UPD.PROG.TOTAL, s.stagedBlocks), (R.UPD.PROG.DONE, 0)] := by
  have h : OnlyFields s (((s.set R.UPD.STATE.fld 2).set R.UPD.PROG.TOTAL s.stagedBlocks).set R.UPD.PROG.DONE 0)
      [(R.UPD.STATE.fld, 2), (R.UPD.PROG.TOTAL, s.stagedBlocks), (R.UPD.PROG.DONE, 0)] :=
    (((OnlyFields.refl s).put R.UPD.STATE.fld 2 rfl).put R.UPD.PROG.TOTAL _ rfl).put R.UPD.PROG.DONE 0 rfl
  unfold State.applyBegun State.idleMarked
  generalize ((s.set R.UPD.STATE.fld 2).set R.UPD.PROG.TOTAL s.stagedBlocks).set R.UPD.PROG.DONE 0 = a at h ⊢
  obtain ⟨ha, hf⟩ := h
  dsimp only
  split
  · rw [setImg_idle]
    generalize (s.img s.idleSlot).map (fun i => { i with valid := false }) = v
    exact ⟨congrArg (fun x : State => { x with
      regs := a.regs
      upd := s.withIdle x.upd v }) ha, hf.of_regs rfl⟩
  · exact ⟨ha, hf⟩

theorem judged_apply (s : State) (r : Req) : Judged (.apply r) s r R.UPD.CMD.all R.UPD.CMDCNT.COUNT R.UPD.STATUS.REASON 1 s.applyWhy
    [(R.UPD.STATE.fld, 2), (R.UPD.PROG.DONE, 0), (R.UPD.PROG.TOTAL, s.stagedBlocks)] (fun _ => s.idleMarked) := by
  have hx : exec (.apply r) s = s.whilePowered (s.command r R.UPD.CMD.all R.UPD.CMDCNT.COUNT R.UPD.STATUS.REASON 1 s.applyWhy State.applyBegun) := rfl
  refine judged_of_command hx rfl fun g hf => ?_
  have hkind : State.stgKind { s with regs := g } = s.stgKind := hf.get_eq R.UPD.STATE.KIND rfl
  have hact : State.get { s with regs := g } R.UPD.STATE.ACT = s.get R.UPD.STATE.ACT := hf.get_eq R.UPD.STATE.ACT rfl
  have hmarked : State.idleMarked { s with regs := g } = { s.idleMarked with regs := g } := by
    unfold State.idleMarked State.withIdle State.idleSlot State.actSlot
    rw [hkind, hact]
    split <;> rfl
  obtain ⟨ha, haf⟩ := applyBegun_spec { s with regs := g }
  generalize State.applyBegun { s with regs := g } = t at ha haf ⊢
  rw [hmarked] at ha
  have hap : ([R.UPD.STATUS.REASON, R.UPD.CMD.all, R.UPD.CMDCNT.COUNT].all fun f =>
      [R.UPD.STATE.fld, R.UPD.PROG.TOTAL, R.UPD.PROG.DONE].all f.apart) = true := by decide
  refine ⟨ha, (hf.trans haf (apart_of_all hap)).reorder (List.Perm.append_left _ ?_)⟩
  exact (List.Perm.swap ..).cons _

theorem judged_updCancel (s : State) (r : Req) : Judged (.updCancel r) s r R.UPD.CMD.all R.UPD.CMDCNT.COUNT R.UPD.STATUS.REASON 3
    (firstReason [(2, s.updState != 1 && s.updState != 3 && s.updState != 4), (7, s.exchBusy)])
    ([(R.UPD.STATE.fld, 0), (R.UPD.STATE.KIND, 0)] ++ digestFields R.UPD.STGID.WORD 0)
    (fun s => { s with upd := { s.upd with hdr := none, man := none, stream := [], owner := none } }) := by
  have hx : exec (.updCancel r) s = s.whilePowered (s.command r R.UPD.CMD.all R.UPD.CMDCNT.COUNT R.UPD.STATUS.REASON 3
    (firstReason [(2, s.updState != 1 && s.updState != 3 && s.updState != 4), (7, s.exchBusy)])
    fun t => t.emptyStaging.set R.UPD.STATE.fld 0) := rfl
  refine judged_of_command hx rfl fun g hf => ?_
  obtain ⟨hd, hdf⟩ := dropPackage_fields { s with regs := g, upd := { s.upd with owner := none } }
  unfold State.emptyStaging
  dsimp only
  generalize State.dropPackage { s with regs := g, upd := { s.upd with owner := none } } = d at hd hdf ⊢
  have hst := (hdf.put R.UPD.STATE.fld 0 rfl).of_base (s := { s with regs := g }) rfl
  have hap : ([R.UPD.STATUS.REASON, R.UPD.CMD.all, R.UPD.CMDCNT.COUNT].all fun f =>
      ((R.UPD.STATE.KIND :: (List.range 8).map R.UPD.STGID.WORD) ++ [R.UPD.STATE.fld]).all f.apart) = true := by decide
  refine ⟨congrArg (fun x : State => { x with regs := (d.set R.UPD.STATE.fld 0).regs }) hd,
    (hf.trans hst (apart_of_all ?_)).reorder (List.Perm.append_left _ ?_)⟩
  · rw [List.map_append, List.map_cons (l := digestFields R.UPD.STGID.WORD 0), digestFields_fst]
    exact hap
  · exact List.perm_append_comm

theorem judged_verify (s : State) (r : Req) (arg : BitVec 4) : Judged (.verify r arg) s r R.UPD.CMD.all R.UPD.CMDCNT.COUNT R.UPD.STATUS.REASON
    (256 * arg.toNat + 4) (firstReason [(1, decide (2 < arg.toNat)), (2, s.updState = 2)]) [(R.UPD.STATUS.CHECK, s.slotCheck arg.toNat)] id := by
  have hx : exec (.verify r arg) s = s.whilePowered (s.command r R.UPD.CMD.all R.UPD.CMDCNT.COUNT R.UPD.STATUS.REASON (arg.toNat * 256 + 4)
    (firstReason [(1, decide (2 < arg.toNat)), (2, s.updState = 2)]) fun t => t.set R.UPD.STATUS.CHECK (t.slotCheck arg.toNat)) := rfl
  rw [Nat.mul_comm] at hx
  refine judged_of_command hx rfl fun g hf => ⟨rfl, ?_⟩
  have hcheck : State.slotCheck { s with regs := g } arg.toNat = s.slotCheck arg.toNat :=
    slotCheck_congr (s := s) (t := { s with regs := g }) rfl (hf.get_eq R.ID.PART.NUM rfl) (hf.get_eq R.ID.REV.HWREV rfl) (hf.get_eq R.UPD.MINSVN.SVN rfl) _
  rw [hcheck]
  exact hf.put R.UPD.STATUS.CHECK _ rfl

/-! ### The statement -/

theorem img_idle (s : State) : s.img s.idleSlot = if s.get R.UPD.STATE.ACT = 0 then s.upd.slotB else s.upd.slotA := by
  unfold State.idleSlot State.actSlot
  split <;> rfl

theorem does_failed {c : Instr} {s t : State} {code : Nat} {pver : W32} {upd : UpdSt} {more : List (Fld × Nat)} (hx : exec c s = s.whilePowered t)
    (h : PackageFailed s t code pver upd more) : Does c s fun t =>
      t = { s with regs := t.regs, fum := t.fum, fumPos := t.fumPos, upd := upd } ∧
        Recorded s t 0x0A 0x0E code (leBytes 1 0x0E ++ leBytes 3 0 ++ leBytes 4 pver.toNat) ∧ FieldsSet s t (failFields s code ++ more) :=
  does_of_whilePowered hx fun _ => ⟨h.frame, h.record, h.fields⟩

section
variable {s : State} {h : PkgHeader} {m : Manifest}

/-- The records of the staged stream produce the manifest's blocks, as the statement says it. -/
theorem streamGood_iff {bs : List (List Byte)} : streamGood s.baseBlocks (isDelta h) m (h.kind.toNat = 2) s.upd.stream bs ↔
    bs.length = m.digests.length ∧ ∃ l, recordsHold s.upd.stream l ∧ l.length = bs.length ∧
      ∀ i x, l[i]? = some x → ∃ b, bs[i]? = some b ∧ deltaBlock s.baseBlocks (h.flags.toNat % 2 = 1) x = some b ∧ x.target = i ∧ b.length = 65536 ∧
        sha3 b = m.digests.getD i 0 ∧ (h.kind = 2 → i ∈ fwBlocks m → s.baseBlocks.getD i [] = b) := by
  have hkind : h.kind.toNat = 2 ↔ h.kind = 2 := ⟨fun e => BitVec.eq_of_toNat_eq e, fun e => by rw [e]; rfl⟩
  have hmk (i : Nat) (x : DeltaRec) (b : List Byte) : recordMakes s.baseBlocks (isDelta h) m (h.kind.toNat = 2) (0 + i) x b ↔
      deltaBlock s.baseBlocks (h.flags.toNat % 2 = 1) x = some b ∧ x.target = i ∧ b.length = 65536 ∧
        sha3 b = m.digests.getD i 0 ∧ (h.kind = 2 → i ∈ fwBlocks m → s.baseBlocks.getD i [] = b) := by
    rw [recordMakes, Nat.zero_add, blockOk]
    simp only [Bool.and_eq_true, Bool.or_eq_true, decide_eq_true_eq, Bool.not_eq_true', decide_eq_false_iff_not, List.contains_eq_mem, hkind,
      and_assoc, or_assoc, isDelta, imp_iff_not_or]
  unfold streamGood
  simp only [streamMakes_iff, hmk]

end

section
variable {s : State} {h : PkgHeader} {m : Manifest} (hh : s.upd.hdr = some h) (hm : s.upd.man = some m) (hst : s.updState = 2)
include hh hm hst

/-- Step 7 of a package that an earlier start received. -/
theorem does_applyDone_manifest (hbad : badManifest h m = true) : Does .applyDone s fun t =>
    t = { s with regs := t.regs, fum := t.fum, fumPos := t.fumPos, upd := s.upd } ∧
      Recorded s t 0x0A 0x0E 7 (leBytes 1 0x0E ++ leBytes 3 0 ++ leBytes 4 h.pver.toNat) ∧ FieldsSet s t (failFields s 7 ++ []) := by
  have hx := exec_applyDone hh hm hst
  rw [if_pos hbad] at hx
  exact does_failed hx (checkFail_after (OnlyFields.refl s) rfl rfl 7 h.pver)

variable (hok : badManifest h m = false)
include hok

/-- Step 8 fails where the stream does not make the blocks. -/
theorem does_applyDone_blocks (hno : ∀ bs, ¬ streamGood s.baseBlocks (isDelta h) m (h.kind.toNat = 2) s.upd.stream bs) :
    ∃ n, Does .applyDone s fun t =>
      t = { s with regs := t.regs, fum := t.fum, fumPos := t.fumPos, upd := s.upd } ∧
        Recorded s t 0x0A 0x0E 8 (leBytes 1 0x0E ++ leBytes 3 0 ++ leBytes 4 h.pver.toNat) ∧ FieldsSet s t (failFields s 8 ++ [(R.UPD.PROG.DONE, n)]) := by
  have hx := exec_applyDone hh hm hst
  have hleft : (s.produced h m).1.length ≠ m.digests.length ∨ (s.produced h m).2 ≠ [] := by
    by_contra hc
    rw [not_or, not_not, not_not] at hc
    exact hno _ (streamGood_of_deltaBlocks _ _ _ _ hc.1 hc.2)
  rw [hok, if_neg Bool.false_ne_true, if_pos hleft] at hx
  exact ⟨_, does_failed hx (checkFail_after ((OnlyFields.refl s).put R.UPD.PROG.DONE _ rfl) rfl rfl 8 h.pver)⟩

variable {bs : List (List Byte)} (hgood : streamGood s.baseBlocks (isDelta h) m (h.kind.toNat = 2) s.upd.stream bs)
include hgood

theorem exec_applyDone_good : exec .applyDone s = s.whilePowered (
    if s.badMsig h m then (s.set R.UPD.PROG.DONE bs.length).checkFail 9 h.pver else s.applied h m bs) := by
  have hx := exec_applyDone hh hm hst
  have hp : s.produced h m = (bs, []) := deltaBlocks_good _ _ _ _ hgood
  rwa [hok, if_neg Bool.false_ne_true, hp, if_neg (by simp [hgood.1])] at hx

/-- Step 9 fails where the signature does not fit. -/
theorem does_applyDone_unsealed (hs : s.badMsig h m = true) : Does .applyDone s fun t =>
    t = { s with regs := t.regs, fum := t.fum, fumPos := t.fumPos, upd := s.upd } ∧
      Recorded s t 0x0A 0x0E 9 (leBytes 1 0x0E ++ leBytes 3 0 ++ leBytes 4 h.pver.toNat) ∧
      FieldsSet s t (failFields s 9 ++ [(R.UPD.PROG.DONE, bs.length)]) := by
  have hx := exec_applyDone_good hh hm hst hok hgood
  rw [if_pos hs] at hx
  exact does_failed hx (checkFail_after ((OnlyFields.refl s).put R.UPD.PROG.DONE _ rfl) rfl rfl 9 h.pver)

/-- A package that passed its checks is READY, and the flash or the keys change as it says. -/
theorem does_applyDone_ready (hs : s.badMsig h m = false) {upd : UpdSt → Prop}
    (ht : s.applied h m bs = { s.applyReady bs.length with upd := (s.applied h m bs).upd }) (hu : upd (s.applied h m bs).upd) :
    Does .applyDone s fun t => t = { s with regs := t.regs, upd := t.upd } ∧ upd t.upd ∧
      FieldsSet s t [(R.UPD.PROG.DONE, bs.length), (R.UPD.STATE.fld, 3), (R.UPD.FLAG.READY, 1)] := by
  have hx := exec_applyDone_good hh hm hst hok hgood
  rw [hs, if_neg Bool.false_ne_true] at hx
  obtain ⟨ha, hf⟩ := applyReady_fields s bs.length
  generalize s.applied h m bs = t at hx ht hu
  generalize s.applyReady bs.length = a at ht ha hf
  have hr : t.regs = a.regs := by rw [ht]
  refine does_of_whilePowered hx fun _ => ⟨?_, hu, hf.of_regs hr⟩
  rw [hr]
  exact ht.trans (congrArg (fun x : State => { x with upd := t.upd }) ha)

end

/-- An image in the inactive slot. -/
theorem applied_idle {s : State} {h : PkgHeader} {m : Manifest} {bs : List (List Byte)} {v : Option FlashImg}
    (hx : s.applied h m bs = (s.applyReady bs.length).setImg s.idleSlot v) :
    s.applied h m bs = { s.applyReady bs.length with upd := (s.applied h m bs).upd } ∧
      (s.applied h m bs).upd = s.withIdle s.upd v := by
  have hu : (s.applyReady bs.length).upd = s.upd := by rw [(applyReady_fields s bs.length).1]
  rw [hx, setImg_idle, hu]
  exact ⟨rfl, rfl⟩

/-- A new recovery image. -/
theorem applied_rcv {s : State} {h : PkgHeader} {m : Manifest} {bs : List (List Byte)} {v : Option FlashImg}
    (hx : s.applied h m bs = (s.applyReady bs.length).setImg 2 v) :
    s.applied h m bs = { s.applyReady bs.length with upd := (s.applied h m bs).upd } ∧ (s.applied h m bs).upd = { s.upd with rcv := v } := by
  have hu : (s.applyReady bs.length).upd = s.upd := by rw [(applyReady_fields s bs.length).1]
  rw [hx, ← hu]
  exact ⟨rfl, rfl⟩

/-- Changes of the key store. -/
theorem applied_keys {s : State} {h : PkgHeader} {m : Manifest} {bs : List (List Byte)} {l : List (Nat × Bool × Bool × List Byte)}
    (hx : s.applied h m bs = l.foldl State.changeKey (s.applyReady bs.length)) :
    s.applied h m bs = { s.applyReady bs.length with upd := (s.applied h m bs).upd } ∧
      (s.applied h m bs).upd = { s.upd with keys := (s.applied h m bs).upd.keys } ∧
      ∀ id', (∀ c ∈ l, c.1 ≠ id') → (s.applied h m bs).upd.keys.filter (fun k => k.id = id') = s.upd.keys.filter fun k => k.id = id' := by
  have hu : (s.applyReady bs.length).upd = s.upd := by rw [(applyReady_fields s bs.length).1]
  have hframe := changeKeys_frame l (s.applyReady bs.length)
  have hkeys (id' : Nat) (hc : ∀ c ∈ l, c.1 ≠ id') := changeKeys_keys l (s.applyReady bs.length) hc
  rw [← hx, hu] at hframe
  rw [← hx, hu] at hkeys
  generalize s.applied h m bs = t at hframe hkeys ⊢
  have htu : t.upd = { s.upd with keys := t.upd.keys } := congrArg State.upd hframe
  exact ⟨hframe.trans (congrArg (fun u : UpdSt => { s.applyReady bs.length with upd := u }) htu.symm), htu, hkeys⟩

/-- Settles O57: each event is what its equation says; a stream is good where its records make the manifest's blocks. -/
theorem packagesAreCheckedInOrder : Obligations.PackagesAreCheckedInOrder := by
  intro s r h m stream arg state kind act depot exch lock idle stgid seq fails hwrev check arrives shown base holds good sealed becomes inactive judged
    other why next
  have hcheck : s.headCheck h = check := headCheck_eq s h
  have hgood (bs : List (List Byte)) : streamGood s.baseBlocks (isDelta h) m (h.kind.toNat = 2) s.upd.stream bs ↔ good bs := streamGood_iff
  have hwhy : s.activateWhy = why := by
    unfold State.activateWhy
    rw [exchBusy_eq]
    rfl
  refine ⟨?arrivesShut, ?arrives, fun hshut => ?restShut, ?restShort, ?rest, ?apply, exec_applyDone_idle, fun hh hm hst hbad =>
    does_applyDone_manifest hh hm hst hbad, ?done, ?actShut, ?actRefused, ?act, ?cancel, judged_verify s r arg⟩
  case arrivesShut =>
    intro hshut
    rw [Ignored, exec_packageHeaderReceived, if_pos (by rwa [Option.isNone_iff_eq_none])]
    exact whilePowered_self s
  case arrives =>
    intro hses hst
    have hx := exec_packageHeaderReceived s h
    rw [if_neg (by rw [Option.isNone_iff_eq_none, not_or]; exact ⟨hses, fun hc => hst.elim hc.1 hc.2⟩), hcheck] at hx
    refine ⟨fun h0 => ?_, fun h0 => ?_⟩
    · dsimp only at hx
      rw [if_pos h0] at hx
      exact does_of_whilePowered hx fun _ => headerTaken_spec s h
    · dsimp only at hx
      rw [if_neg h0] at hx
      exact does_failed hx (headerFailed_spec s h check)
  case restShut =>
    cases hh : s.upd.hdr with
    | none => exact exec_packageReceived_none hh m stream
    | some h' =>
      rw [Ignored, exec_packageReceived hh, if_pos]
      · exact whilePowered_self s
      · rw [Option.isNone_iff_eq_none]
        rcases hshut with hc | hc | hc
        · rw [hh] at hc; cases hc
        · exact .inl hc
        · exact .inr (.inl hc)
  case restShort =>
    intro hh hc
    rw [Ignored, exec_packageReceived hh, if_pos (.inr (.inr hc.symm))]
    exact whilePowered_self s
  case rest =>
    intro hh hses hst hk hlen
    have hx := exec_packageReceived hh m stream
    rw [if_neg (by rw [Option.isNone_iff_eq_none]; rintro (hc | hc | hc | hc); exacts [hses hc, hc hst, hc hk, absurd hc (by omega)])] at hx
    dsimp only at hx
    refine ⟨fun hm => ?_, fun hm => ?_⟩
    · rw [hm, if_neg Bool.false_ne_true] at hx
      exact does_of_whilePowered hx fun _ => ⟨rfl, (((FieldsSet.refl _).put R.UPD.STATE.fld 1 rfl).of_base rfl)⟩
    · rw [if_pos hm] at hx
      exact does_failed hx (checkFail_with s _ 7 h.pver)
  case apply =>
    have hj := judged_apply s r
    unfold State.applyWhy State.idleMarked at hj
    rw [exchBusy_eq, img_idle] at hj
    exact hj
  case done =>
    intro hh hm hst hok
    refine ⟨fun hno => does_applyDone_blocks hh hm hst hok fun bs hbs => hno bs ((hgood bs).1 hbs), fun bs hbs => ?_⟩
    have hbs := (hgood bs).2 hbs
    have hseal {b : Bool} (hs : sealed = b) : s.badMsig h m = !b := congrArg (!·) hs
    refine ⟨fun hs => does_applyDone_unsealed hh hm hst hok hbs (hseal hs), fun hs hk => ?_, fun hs hk => ?_, fun hs hk => ?_, fun hs hk => ?_⟩
    · have hx : s.applied h m bs = (s.applyReady bs.length).setImg s.idleSlot (some ⟨h, m, none, bs, true⟩) := by unfold State.applied; rw [hk]; rfl
      obtain ⟨ht, hu⟩ := applied_idle hx
      exact does_applyDone_ready (upd := fun u => u = s.withIdle s.upd (some ⟨h, m, none, bs, true⟩)) hh hm hst hok hbs (hseal hs) ht hu
    · have hx : s.applied h m bs = (s.applyReady bs.length).setImg s.idleSlot
          (some ⟨h, m, (s.img s.actSlot).map fun i => (i.hdr, i.man), bs, true⟩) := by unfold State.applied; rw [hk]; rfl
      obtain ⟨ht, hu⟩ := applied_idle hx
      exact does_applyDone_ready (upd := fun u => u = s.withIdle s.upd (some ⟨h, m, (s.img s.actSlot).map fun i => (i.hdr, i.man), bs, true⟩))
        hh hm hst hok hbs (hseal hs) ht hu
    · have hx : s.applied h m bs = (s.applyReady bs.length).setImg 2 (some ⟨h, m, none, bs, true⟩) := by unfold State.applied; rw [hk]; rfl
      obtain ⟨ht, hu⟩ := applied_rcv hx
      exact does_applyDone_ready (upd := fun u => u = { s.upd with rcv := some ⟨h, m, none, bs, true⟩ }) hh hm hst hok hbs (hseal hs) ht hu
    · have hx : s.applied h m bs =
          ((Config.keyChanges (bs.flatMap id)).filter (s.keyChangeOk h.keyid.toNat)).foldl State.changeKey (s.applyReady bs.length) := by
        unfold State.applied; rw [hk]; rfl
      obtain ⟨ht, hu, hkeys⟩ := applied_keys hx
      refine does_applyDone_ready (upd := fun u => u = { s.upd with keys := u.keys } ∧
          ∀ id', (∀ c ∈ Config.keyChanges (bs.flatMap id), c.1 = id' → s.keyChangeOk h.keyid.toNat c = false) →
            u.keys.filter (fun k => k.id = id') = s.upd.keys.filter fun k => k.id = id') hh hm hst hok hbs (hseal hs) ht
        ⟨hu, fun id' hc => hkeys id' fun c hcm he => ?_⟩
      obtain ⟨hmem, hokc⟩ := List.mem_filter.1 hcm
      rw [hc c hmem he] at hokc
      exact Bool.false_ne_true hokc
  case actShut =>
    intro hst
    show s.whilePowered _ = _
    rw [State.updCommand, command_unmoved hst, whilePowered_self]
  case actRefused =>
    intro hst hw
    have hx : exec (.updActivate r) s = s.whilePowered (s.updCommand r 2 s.activateWhy fun t => (t.makeActive t.idleSlot true).acceptRestart true) := rfl
    rw [hwhy, State.updCommand, command_refused hst hw] at hx
    exact does_of_whilePowered hx fun _ => (OnlyFields.refl s).put R.UPD.STATUS.REASON why rfl
  case act =>
    intro hst hw
    have hidle : s.idleSlot ≤ 1 := by
      unfold State.idleSlot
      split <;> omega
    have hdig : (s.slotDigest s.idleSlot).toNat = (match next with
        | some i => i.hdr.mandig.toNat
        | none => 0) := by
      rw [State.slotDigest, img_idle]
      show BitVec.toNat (match next with
        | some i => i.hdr.mandig
        | none => 0) = _
      cases next <;> rfl
    have hd := does_updActivate hst (hwhy.trans hw) hidle
    unfold activeFields digestFields at hd
    rw [hdig] at hd
    exact hd
  case cancel =>
    have hj := judged_updCancel s r
    rw [exchBusy_eq] at hj
    exact hj

end Sys2Proof.Machine
end

section
/-! PROOF. The owner lock, the maintenance port and attestation (R14, R323, R345 to R348). -/

namespace Sys2Proof.Machine

/-! ### The owner message (R345) -/

/-- An owner message that names this module and the challenge and that the owner key signed, or the first key in MANUFACTURE. -/
def State.ownerValid (s : State) (r : Req) (m : OwnerMsg) : Prop :=
  m.magic = 0x7A3115A0 ∧ (m.action = 1 ∨ m.action = 2 ∨ m.action = 3) ∧
    m.serial.toNat = s.get R.ID.SERIAL_LO.SN + 2 ^ 32 * s.get R.ID.SERIAL_HI.SN ∧ s.chalOf r = some m.chal.toNat ∧ m.keyid = 0x20 ∧
    ((m.action = 3 ∧ s.get R.BIST.LCS.STATE = 1 ∧ s.get R.UPD.OWNER.OWNKEY = 0) ∨ s.signed 0x20 m.siglen.toNat (ownerBytes m) m.sig = true)

theorem chalOf_iff {s : State} {r : Req} {c : Nat} : s.chalOf r = some c ↔
    s.preqGet r (R.UPD.OCHAL_LO.all.off + 1) = 1 ∧
      (s.preqGet r R.UPD.OCHAL_LO.all.off).toNat + 2 ^ 32 * (s.preqGet r R.UPD.OCHAL_HI.all.off).toNat = c := by
  unfold State.chalOf
  split
  · next h => rw [Option.some_inj]; exact ⟨fun e => ⟨h, e⟩, fun e => e.2⟩
  · next h => exact ⟨(fun e => nomatch e), fun e => (h e.1).elim⟩

theorem toNat_eq_iff {w : Nat} {x : BitVec w} {n : Nat} (h : n < 2 ^ w) : x.toNat = n ↔ x = BitVec.ofNat w n := by
  constructor
  · intro e
    exact BitVec.eq_of_toNat_eq (by rw [e, BitVec.toNat_ofNat, Nat.mod_eq_of_lt h])
  · intro e
    rw [e, BitVec.toNat_ofNat, Nat.mod_eq_of_lt h]

theorem action_iff {a : BitVec 8} : (1 ≤ a.toNat ∧ a.toNat ≤ 3) ↔ a = 1 ∨ a = 2 ∨ a = 3 := by
  have h1 : a.toNat = 1 ↔ a = 1 := toNat_eq_iff (by decide)
  have h2 : a.toNat = 2 ↔ a = 2 := toNat_eq_iff (by decide)
  have h3 : a.toNat = 3 ↔ a = 3 := toNat_eq_iff (by decide)
  rw [← h1, ← h2, ← h3]
  omega

theorem ownerOk_iff {s : State} {r : Req} {m : OwnerMsg} (h : s.upd.owner = some m) : s.ownerOk r = true ↔ s.ownerValid r m := by
  have hmagic : m.magic.toNat = 0x7A3115A0 ↔ m.magic = 0x7A3115A0 := toNat_eq_iff (by decide)
  have hkey : m.keyid.toNat = 0x20 ↔ m.keyid = 0x20 := toNat_eq_iff (by decide)
  unfold State.ownerOk State.ownerValid State.getPair State.lcs
  rw [h]
  simp only [Bool.and_eq_true, Bool.or_eq_true, decide_eq_true_eq, hmagic, hkey, ← action_iff, and_assoc]

theorem namesChal_iff {s : State} {r : Req} {m : OwnerMsg} (h : s.upd.owner = some m) : s.namesChal r = true ↔ s.chalOf r = some m.chal.toNat := by
  rw [State.namesChal, h, Option.any_some, decide_eq_true_iff]

/-- The challenge of a requester is used up. -/
def UsedUp (s t : State) (r : Req) : Prop :=
  t.preqGet r (R.UPD.OCHAL_LO.all.off + 1) = 0 ∧
    ∀ q off, (q ≠ r ∨ off ≠ R.UPD.OCHAL_LO.all.off + 1) → t.preqGet q off = s.preqGet q off

theorem usedUp_preqSet {s t : State} (r : Req) (h : t.preq = s.preq) : UsedUp s (t.preqSet r (R.UPD.OCHAL_LO.all.off + 1) 0) r := by
  have hget (q : Req) (o : Nat) : t.preqGet q o = s.preqGet q o := by rw [State.preqGet, h]; rfl
  refine ⟨?_, fun q off hq => ?_⟩
  · rw [preqGet_preqSet, if_pos ⟨rfl, rfl⟩]
  · rw [preqGet_preqSet, if_neg fun hc => hq.elim (· hc.1) (· hc.2), hget]

section
variable {s : State} {r : Req} (hst : s.steward r = true)
include hst

theorem exec_owner : exec (.owner r) s = s.whilePowered (
    let s1 := s.updCommand r 5 (firstReason [(9, !s.ownerOk r)]) State.ownerAct
    if s.namesChal r then s1.preqSet r (R.UPD.OCHAL_LO.all.off + 1) 0 else s1) := by
  show s.whilePowered _ = _
  rw [if_neg (by rw [hst]; decide)]

/-- OWNER refused: REASON 9, and the challenge that the message names is used up. -/
theorem does_owner_refused {used : Prop} (hok : s.ownerOk r = false) (hused : s.namesChal r = true ↔ used) : Does (.owner r) s fun t =>
    t = { s with regs := t.regs, preq := t.preq } ∧ (used → UsedUp s t r) ∧ (¬ used → t.preq = s.preq) ∧ FieldsSet s t [(R.UPD.STATUS.REASON, 9)] := by
  have hx := exec_owner hst
  rw [hok, State.updCommand, show firstReason [(9, !false)] = 9 from rfl, command_refused hst (by decide)] at hx
  obtain ⟨ha, hf⟩ := (OnlyFields.refl s).put R.UPD.STATUS.REASON 9 rfl
  generalize s.set R.UPD.STATUS.REASON 9 = a at hx ha hf
  have hp : a.preq = s.preq := by rw [ha]
  dsimp only at hx
  by_cases hc : s.namesChal r = true
  · rw [if_pos hc] at hx
    refine does_of_whilePowered hx fun _ => ⟨?_, fun _ => usedUp_preqSet r hp, fun hn => (hn (hused.1 hc)).elim, hf.of_regs rfl⟩
    exact congrArg (fun x : State => { x with preq := (a.preqSet r (R.UPD.OCHAL_LO.all.off + 1) 0).preq }) ha
  · rw [if_neg hc] at hx
    refine does_of_whilePowered hx fun _ => ⟨?_, fun hu => (hc (hused.2 hu)).elim, fun _ => hp, hf⟩
    rw [hp]
    exact ha

/-- OWNER accepted: the message leaves staging, its challenge is used up, and it locks, unlocks or installs the key. -/
theorem does_owner_taken {keys : List KeyEnt} {f : Fld} {n : Nat} (hok : s.ownerOk r = true) (hc : s.namesChal r = true)
    (hf : besides f (cmdFields s 5) = true)
    (hact : ∀ a : State, a.upd = s.upd → a.ownerAct = State.set { a with upd := { s.upd with owner := none, keys := keys } } f n) :
    Does (.owner r) s fun t => t = { s with regs := t.regs, preq := t.preq, upd := { s.upd with owner := none, keys := keys } } ∧ UsedUp s t r ∧
      FieldsSet s t [(R.UPD.STATUS.REASON, 0), (R.UPD.CMD.all, 5), (R.UPD.CMDCNT.COUNT, s.get R.UPD.CMDCNT.COUNT + 1), (f, n)] := by
  have hx := exec_owner hst
  rw [hok, State.updCommand, show firstReason [(9, !true)] = 0 from rfl, command_accepted hst rfl] at hx
  dsimp only at hx
  rw [if_pos hc] at hx
  obtain ⟨ha, haf⟩ := command_fields s R.UPD.CMD.all R.UPD.CMDCNT.COUNT R.UPD.STATUS.REASON 5 rfl rfl rfl
  generalize ((s.set R.UPD.STATUS.REASON 0).set R.UPD.CMD.all 5).inc R.UPD.CMDCNT.COUNT = a at hx ha haf
  have hau : a.upd = s.upd := by rw [ha]
  rw [hact a hau] at hx
  have hb : { a with upd := { s.upd with owner := none, keys := keys } } =
      { s with regs := a.regs, upd := { s.upd with owner := none, keys := keys } } :=
    congrArg (fun x : State => { x with upd := { s.upd with owner := none, keys := keys } }) ha
  have hbf : FieldsSet s { a with upd := { s.upd with owner := none, keys := keys } } (cmdFields s 5) := haf.of_regs rfl
  generalize { a with upd := { s.upd with owner := none, keys := keys } } = b at hx hb hbf
  have hcf := hbf.put f n hf
  have hcs : b.set f n = { s with regs := (b.set f n).regs, upd := { s.upd with owner := none, keys := keys } } :=
    congrArg (fun x : State => { x with regs := (b.set f n).regs }) hb
  generalize b.set f n = c at hx hcf hcs
  have hcp : c.preq = s.preq := by rw [hcs]
  refine does_of_whilePowered hx fun _ => ⟨?_, usedUp_preqSet r hcp, hcf.of_regs rfl⟩
  exact congrArg (fun x : State => { x with preq := (c.preqSet r (R.UPD.OCHAL_LO.all.off + 1) 0).preq }) hcs

end

theorem ownerAct_eq {a : State} {m : OwnerMsg} (h : a.upd.owner = some m) :
    (m.action = 1 → a.ownerAct = State.set { a with upd := { a.upd with owner := none } } R.UPD.OWNER.LOCKED 1) ∧
    (m.action = 2 → a.ownerAct = State.set { a with upd := { a.upd with owner := none } } R.UPD.OWNER.LOCKED 0) ∧
    (m.action = 3 → a.ownerAct = State.set { a with upd := { a.upd with
      owner := none
      keys := a.upd.keys.filter (fun k => k.id != 0x20) ++ [⟨0x20, m.newKey.length = 1952, false, m.newKey⟩] } } R.UPD.OWNER.OWNKEY 1) := by
  unfold State.ownerAct
  rw [h]
  dsimp only
  refine ⟨fun e => ?_, fun e => ?_, fun e => ?_⟩
  · rw [e]; rfl
  · rw [e]; rfl
  · rw [e]; rfl

/-! ### The challenge of a requester -/

theorem readOchal_eq (s : State) (r : Req) :
    let c := (s.fresh 64).1
    (s.readOchal r).1 = c.truncate 32 ∧
      (s.readOchal r).2 = { s with free := s.free + 1, preq := (s.readOchal r).2.preq, latch := (s.readOchal r).2.latch } ∧
      ∀ q off, (s.readOchal r).2.preqGet q off =
        ((({ s with free := s.free + 1 } : State).preqSet r R.UPD.OCHAL_LO.all.off (c.truncate 32)).preqSet r R.UPD.OCHAL_HI.all.off
          ((c >>> 32).truncate 32) |>.preqSet r (R.UPD.OCHAL_LO.all.off + 1) 1).preqGet q off := ⟨rfl, rfl, fun _ _ => rfl⟩

/-- A read of the challenge makes a new one, which the requester holds. -/
theorem does_ochalRead {s : State} {r : Req} (h : r ≠ .maint ∨ s.session ≠ none) : Does (.ochalRead r) s fun t =>
    ∃ c : BitVec 64, t = { s with
        free := s.free + 1, preq := t.preq, latch := t.latch, resp := if isEng r then s.resp else some (c.truncate 32) } ∧
      t.preqGet r R.UPD.OCHAL_LO.all.off = c.truncate 32 ∧ t.preqGet r R.UPD.OCHAL_HI.all.off = (c >>> 32).truncate 32 ∧
      t.preqGet r (R.UPD.OCHAL_LO.all.off + 1) = 1 ∧
      ∀ q off, (q ≠ r ∨ (off ≠ R.UPD.OCHAL_LO.all.off ∧ off ≠ R.UPD.OCHAL_HI.all.off ∧ off ≠ R.UPD.OCHAL_LO.all.off + 1)) →
        t.preqGet q off = s.preqGet q off := by
  have hx : exec (.ochalRead r) s = s.whilePowered { (s.readOchal r).2 with resp := if isEng r then s.resp else some (s.readOchal r).1 } := by
    show s.whilePowered _ = _
    rw [if_neg (by rw [not_shut_iff.2 h]; decide)]
  obtain ⟨hc, hfr, hget⟩ := readOchal_eq s r
  generalize (s.fresh 64).1 = c at hc hget
  rw [hc] at hx
  generalize (s.readOchal r).2 = u at hx hfr hget
  have hval (q : Req) (off : Nat) : State.preqGet { u with resp := if isEng r then s.resp else some (c.truncate 32) } q off =
      if q = r ∧ off = R.UPD.OCHAL_LO.all.off + 1 then (1 : W32) else if q = r ∧ off = R.UPD.OCHAL_HI.all.off then (c >>> 32).truncate 32
      else if q = r ∧ off = R.UPD.OCHAL_LO.all.off then c.truncate 32 else s.preqGet q off := by
    refine (hget q off).trans ?_
    rw [preqGet_preqSet, preqGet_preqSet, preqGet_preqSet]
    rfl
  refine does_of_whilePowered hx fun _ => ⟨c, ?_, ?_, ?_, ?_, fun q off hq => ?_⟩
  · exact congrArg (fun x : State => { x with resp := if isEng r then s.resp else some (c.truncate 32) }) hfr
  · rw [hval, if_neg fun hc => absurd hc.2 (by decide), if_neg fun hc => absurd hc.2 (by decide), if_pos ⟨rfl, rfl⟩]
  · rw [hval, if_neg fun hc => absurd hc.2 (by decide), if_pos ⟨rfl, rfl⟩]
  · rw [hval, if_pos ⟨rfl, rfl⟩]
  · rw [hval, if_neg fun hc => hq.elim (· hc.1) fun ho => ho.2.2 hc.2, if_neg fun hc => hq.elim (· hc.1) fun ho => ho.2.1 hc.2,
      if_neg fun hc => hq.elim (· hc.1) fun ho => ho.1 hc.2]

/-! ### Sessions (R347) -/

theorem key_isNone {s : State} {root : Nat} : (s.key root).isNone = !(s.upd.keys.any fun k => k.id = root && !k.revoked) := by
  rw [State.key, ← Option.not_isSome, Bool.not_inj_iff, Bool.eq_iff_iff, List.find?_isSome, List.any_eq_true]

theorem exec_maintenanceSessionOpen (s : State) (root : Nat) (mldsa chains : Bool) : exec (.maintenanceSessionOpen root mldsa chains) s =
    s.whilePowered (if mldsa && chains && s.session.isNone then { s with session := s.sessionKey root } else s) := rfl

/-- A certificate that chains to a key opens the session that the key gives. -/
theorem does_sessionOpen {s : State} {root : Nat} {mldsa chains : Bool} {k : Option SessionKey}
    (h : (mldsa && chains && s.session.isNone && s.upd.keys.any fun k => k.id = root && !k.revoked) = true)
    (hk : (if root = 0x20 then some SessionKey.owner else if 1 ≤ root ∧ root ≤ 0xF then some .hafahild else none) = k) :
    exec (.maintenanceSessionOpen root mldsa chains) s = s.whilePowered { s with session := k } := by
  rw [Bool.and_eq_true] at h
  obtain ⟨hopen, hany⟩ := h
  rw [exec_maintenanceSessionOpen, if_pos hopen, State.sessionKey, key_isNone, hany, if_neg (by decide), hk]

/-- Nothing opens without a key, a certificate and a free port. -/
theorem ignored_sessionOpen {s : State} {root : Nat} {mldsa chains : Bool}
    (h : (mldsa && chains && s.session.isNone && s.upd.keys.any fun k => k.id = root && !k.revoked) = false ∨
      (root ≠ 0x20 ∧ ¬ (1 ≤ root ∧ root ≤ 0xF))) : Ignored (.maintenanceSessionOpen root mldsa chains) s := by
  rw [Ignored, exec_maintenanceSessionOpen]
  split
  · next hopen =>
    have hnone : s.session = none := by
      rw [Bool.and_eq_true] at hopen
      exact Option.isNone_iff_eq_none.1 hopen.2
    have hkey : s.sessionKey root = none := by
      rw [State.sessionKey, key_isNone]
      rcases h with h | h
      · rw [hopen, Bool.true_and] at h
        rw [h, if_pos (by decide)]
      · rw [if_neg h.1, if_neg h.2, ite_self]
    rw [hkey, ← hnone]
    exact whilePowered_self s
  · exact whilePowered_self s

/-! ### Attestation (R348, Table 15-5) -/

/-- Values laid out one after the other, each in its number of bytes. -/
def laidOut (l : List (Nat × Nat)) : List Byte := l.flatMap fun p => leBytes p.1 p.2

theorem laidOut_length (l : List (Nat × Nat)) : (laidOut l).length = (l.map (·.1)).sum := by
  induction l with
  | nil => rfl
  | cons p l ih => rw [laidOut, List.flatMap_cons, List.length_append, leBytes_length, ← laidOut, ih]; rfl

/-- The bytes at a value's place are the value's. -/
theorem bytesAt_laidOut {l : List (Nat × Nat)} {k n v off : Nat} (hk : l[k]? = some (n, v)) (ho : ((l.map (·.1)).take k).sum = off) :
    bytesAt (laidOut l) off n = leBytes n v := by
  have hsplit : l = l.take k ++ ((n, v) :: l.drop (k + 1)) := by
    obtain ⟨hlt, hget⟩ := List.getElem?_eq_some_iff.1 hk
    rw [← hget, ← List.drop_eq_getElem_cons hlt, List.take_append_drop]
  have hlen : (laidOut (l.take k)).length = off := by rw [laidOut_length, List.map_take, ho]
  have h := bytesAt_append (b := leBytes n v) (laidOut (l.drop (k + 1))) hlen
  rw [leBytes_length] at h
  conv_lhs => rw [hsplit]
  rw [laidOut, List.flatMap_append, List.flatMap_cons]
  exact h

/-- The digest of the program that a report shows. -/
def State.attestPrg (s : State) : Nat := match s.boot.prgDig with
  | some d => d.toNat
  | none => 0

/-- The digest of the configuration that a report shows. -/
def State.attestCfg (s : State) : Nat := match s.curImage with
  | some i => if s.get R.CFG.STATUS.FACTONLY = 1 then 0 else (sha3 (nvBytes i)).toNat
  | none => 0

/-- The firmware release that a report shows. -/
def State.attestRel (s : State) : Nat := match s.img s.actSlot with
  | some i => i.hdr.fwrel.toNat
  | none => s.get R.ID.REV.FWREL

/-- The values of a report. -/
def State.attestParts (s : State) (nonce : BitVec 256) : List (Nat × Nat) :=
  [(4, 0x7A3115C0), (4, (s.reg R.ID.PART.NUM.off).toNat), (8, s.getPair R.ID.SERIAL_LO.SN R.ID.SERIAL_HI.SN), (1, s.get R.ID.REV.HWREV),
    (1, s.lcs), (1, s.get R.SUP.STATE.MSTATE), (1, s.get R.PAIR.ROLE.fld), (2, s.attestRel), (1, s.actSlot),
    (1, s.get R.UPD.STATE.TRIAL + 2 * s.get R.UPD.OWNER.LOCKED + 4 * b2n s.boot.slotFb + 8 * s.get R.CFG.STATUS.FACTONLY),
    (4, s.get R.TASK.PVER.fld), (4, s.get R.CFG.CURVER.CFGVER), (4, s.get R.UPD.MINSVN.SVN), (4, s.get R.UPD.BOOTCNT.COUNT),
    (32, s.actDigest.toNat), (32, s.boot.fwDig.toNat), (32, s.attestPrg), (32, s.attestCfg), (32, nonce.toNat), (8, s.nowNs), (48, 0)]

/-- The sizes of the values of a report (Table 15-5). -/
def attestSizes : List Nat := [4, 4, 8, 1, 1, 1, 1, 2, 1, 1, 4, 4, 4, 4, 32, 32, 32, 32, 32, 8, 48]

theorem attestParts_sizes (s : State) (nonce : BitVec 256) : (s.attestParts nonce).map (·.1) = attestSizes := rfl

theorem attestBytes_eq (s : State) (nonce : BitVec 256) : s.attestBytes nonce = laidOut (s.attestParts nonce) := by
  unfold laidOut State.attestParts
  simp only [List.flatMap_cons, List.flatMap_nil, List.append_nil, ← List.append_assoc]
  rfl

theorem exec_attestationRequest (s : State) (x3 : Bool) (nonce : BitVec 256) : exec (.attestationRequest x3 nonce) s =
    s.whilePowered (if (!s.upd.idKey) = true ∨ (!x3 && !s.txOpen) = true then s else
      (s.send (.report (s.portMac x3) (s.attestBytes nonce ++ leBytes 2 2420 ++ bytesAt (Config.sign (s.attestBytes nonce)) 0 2420))).inc
        R.UPD.ATTCNT.COUNT) := rfl

/-- What a module sends is counted. -/
theorem sentCounted_spec (s : State) (o : Out) :
    let t := (s.send o).inc R.UPD.ATTCNT.COUNT
    t = { s with regs := t.regs, out := o :: s.out } ∧ FieldsSet s t [(R.UPD.ATTCNT.COUNT, s.get R.UPD.ATTCNT.COUNT + 1)] := by
  have hs : FieldsSet s (s.send o) [] := (FieldsSet.refl s).of_regs rfl
  exact ⟨rfl, hs.count R.UPD.ATTCNT.COUNT rfl⟩

theorem attestBytes_length (s : State) (nonce : BitVec 256) : (s.attestBytes nonce).length = 256 := by
  rw [attestBytes_eq, laidOut_length, attestParts_sizes]
  decide

/-- Settles O58: each event is what its equation says. -/
theorem ownerAndMaintenanceFollowTheirRules : Obligations.OwnerAndMaintenanceFollowTheirRules := by
  intro s r m root mldsa chains img serial mac idPub idCert fact nonce x3 lo hi chalIs valid opens usedUp refused taken
  refine ⟨?shut, ?noMessage, ?message, ?chalShut, does_ochalRead, ?owner, ?hafahild, ignored_sessionOpen, ?close, ?config, ?configShut, ?msg, ?msgShut,
    ?factory, ?factoryShut, ?report, ?reportShut⟩
  case shut =>
    intro hst
    show s.whilePowered _ = _
    rw [if_pos (by rw [hst]; rfl), whilePowered_self]
  case noMessage =>
    intro hst ho
    refine does_owner_refused hst (by rw [State.ownerOk, ho]) ?_
    rw [State.namesChal, ho]
    exact ⟨fun h => (Bool.false_ne_true h).elim, False.elim⟩
  case message =>
    intro hst ho
    have hok := ownerOk_iff (s := s) (r := r) ho
    have hnames := namesChal_iff (s := s) (r := r) ho
    have hchal : s.chalOf r = some m.chal.toNat ↔ chalIs m.chal.toNat := chalOf_iff
    have hvalid : s.ownerValid r m ↔ valid := by
      unfold State.ownerValid
      rw [hchal]
    rw [hvalid] at hok
    have hc (hv : valid) : s.namesChal r = true := hnames.2 (hvalid.2 hv).2.2.2.1
    have hmsg {a : State} (ha : a.upd = s.upd) : a.upd.owner = some m := by rw [ha]; exact ho
    refine ⟨fun hv => does_owner_refused hst (by rw [← Bool.not_eq_true, hok]; exact hv) (hnames.trans hchal), fun hv h1 => ?_, fun hv h2 => ?_,
      fun hv h3 => ?_⟩
    · exact does_owner_taken (keys := s.upd.keys) hst (hok.2 hv) (hc hv) rfl fun a ha => by rw [(ownerAct_eq (hmsg ha)).1 h1, ha]
    · exact does_owner_taken (keys := s.upd.keys) hst (hok.2 hv) (hc hv) rfl fun a ha => by rw [(ownerAct_eq (hmsg ha)).2.1 h2, ha]
    · exact does_owner_taken hst (hok.2 hv) (hc hv) rfl fun a ha => by rw [(ownerAct_eq (hmsg ha)).2.2 h3, ha]
  case chalShut =>
    rintro rfl hses
    refine does_of_whilePowered (t := { s with resp := some 0 }) ?_ fun _ => rfl
    show s.whilePowered _ = _
    rw [if_pos (shut_iff.2 ⟨rfl, hses⟩)]
  case owner => exact fun ho hr => does_of_whilePowered (does_sessionOpen ho (if_pos hr)) fun _ => rfl
  case hafahild =>
    intro ho h1 h2
    exact does_of_whilePowered (does_sessionOpen ho ((if_neg (by omega)).trans (if_pos ⟨h1, h2⟩))) fun _ => rfl
  case close => exact does_of_whilePowered (t := { s with session := none }) rfl fun _ => rfl
  case config =>
    intro hses hp
    refine does_of_whilePowered (t := (State.set { s with nv := { s.nv with staged := some img } } R.CFG.STATUS.STGV 0).set R.CFG.STGVER.CFGVER 0) ?_
      fun _ => ⟨rfl, (((FieldsSet.refl _).put R.CFG.STATUS.STGV 0 rfl).put R.CFG.STGVER.CFGVER 0 rfl).of_base rfl⟩
    show s.whilePowered _ = _
    rw [if_neg (by rw [Option.isNone_iff_eq_none, not_or, not_not]; exact ⟨hses, hp⟩)]
  case configShut =>
    intro h
    show s.whilePowered _ = _
    rw [if_pos (by rwa [Option.isNone_iff_eq_none]), whilePowered_self]
  case msg =>
    intro hses
    refine does_of_whilePowered (t := { s with upd := { s.upd with owner := some m } }) ?_ fun _ => rfl
    show s.whilePowered _ = _
    rw [if_neg (by rwa [Option.isNone_iff_eq_none])]
  case msgShut =>
    intro hses
    show s.whilePowered _ = _
    rw [if_pos (by rwa [Option.isNone_iff_eq_none]), whilePowered_self]
  case factory =>
    intro hl
    refine does_of_whilePowered (t := { s with nv := { s.nv with
      ident := true
      serial := serial
      mac := mac
      idPub := idPub
      idCert := idCert
      factory := fact.orElse fun _ => s.nv.factory } }) ?_ fun _ => ?_
    · show s.whilePowered _ = _
      rw [if_neg (show ¬ s.lcs ≠ 1 from not_not_intro hl)]
    · cases fact <;> rfl
  case factoryShut =>
    intro hl
    show s.whilePowered _ = _
    rw [if_pos (show s.lcs ≠ 1 from hl), whilePowered_self]
  case report =>
    intro hkey hopen
    have hx := exec_attestationRequest s x3 nonce
    rw [if_neg (by rcases hopen with h | h <;> simp [hkey, h])] at hx
    obtain ⟨hfr, hf⟩ := sentCounted_spec s (.report (s.portMac x3) (s.attestBytes nonce ++ leBytes 2 2420 ++
      bytesAt (Config.sign (s.attestBytes nonce)) 0 2420))
    have hpart {k n v off : Nat} (hk : (s.attestParts nonce)[k]? = some (n, v)) (ho : (attestSizes.take k).sum = off) :
        bytesAt (s.attestBytes nonce) off n = leBytes n v := by
      rw [attestBytes_eq]
      exact bytesAt_laidOut hk (by rwa [attestParts_sizes])
    refine does_of_whilePowered hx fun _ => ⟨s.attestBytes nonce, hfr, hf, attestBytes_length s nonce, hpart (k := 0) rfl (by decide), hpart (k := 1) rfl (by decide), hpart (k := 4) rfl (by decide),
      hpart (k := 5) rfl (by decide), hpart (k := 10) rfl (by decide), hpart (k := 11) rfl (by decide), hpart (k := 14) rfl (by decide), hpart (k := 15) rfl (by decide), fun d hd => ?_,
      hpart (k := 18) rfl (by decide), hpart (k := 19) rfl (by decide), hpart (k := 20) rfl (by decide)⟩
    have hprg : s.attestPrg = d.toNat := by rw [State.attestPrg, hd]
    rw [← hprg]
    exact hpart (k := 16) rfl (by decide)
  case reportShut =>
    intro h
    rw [Ignored, exec_attestationRequest, if_pos (by rcases h with h | h <;> simp [h])]
    exact whilePowered_self s

end Sys2Proof.Machine
end

section
/-! PROOF. Power failure (R360, R361, R383) and the steward's RESTART, COLDSTART and SAFE (R365). -/

namespace Sys2Proof.Machine

/-! ### Power failure -/

/-- The registers of a power failure, before its record. -/
def State.failShown (s : State) (mv : Nat) : State := (((s.setSupply mv).set R.SUP.STATE.PDOWN 1).flag R.SUP.FLAG.PFAIL).inc R.SUP.PFCNT.COUNT

theorem setSupply_fields (s : State) (mv : Nat) : FieldsSet s (s.setSupply mv) [(R.SUP.SUPPLY.INPUT, mv)] :=
  ((FieldsSet.refl s).put R.SUP.SUPPLY.INPUT mv rfl).of_regs rfl

/-- The supply's own entry and the registers that show it. -/
theorem failShown_only (s : State) (mv : Nat) : OnlyFields { s with sup := { s.sup with supply := mv } } (s.failShown mv)
    [(R.SUP.SUPPLY.INPUT, mv), (R.SUP.STATE.PDOWN, 1), (R.SUP.FLAG.PFAIL, 1), (R.SUP.PFCNT.COUNT, s.get R.SUP.PFCNT.COUNT + 1)] := by
  have hs : s.setSupply mv = State.set { s with sup := { s.sup with supply := mv } } R.SUP.SUPPLY.INPUT mv := rfl
  have hc : s.get R.SUP.PFCNT.COUNT = State.get { s with sup := { s.sup with supply := mv } } R.SUP.PFCNT.COUNT := rfl
  rw [State.failShown, hs, hc]
  exact ((((OnlyFields.refl _).put R.SUP.SUPPLY.INPUT mv rfl).put R.SUP.STATE.PDOWN 1 rfl).put R.SUP.FLAG.PFAIL 1 rfl).count R.SUP.PFCNT.COUNT rfl

/-- A record of a state that wrote no record since `s`. -/
theorem fumarole_recorded_from {s u : State} (hseq : u.get R.SUP.FUMSEQ.SEQ = s.get R.SUP.FUMSEQ.SEQ) (type src code : Nat) (data : List Byte) :
    Recorded s (u.fumarole type src code data) type src code data := by
  obtain ⟨r, l, hfum, hnum, hhead, hdata⟩ := fumarole_recorded u type src code data
  exact ⟨r, hfum ▸ List.mem_cons_self .., hseq ▸ hnum, hhead, hdata⟩

/-- A condition that is no reading of the supply while it is good. -/
theorem powerFailure_ignored {s : State} {mv : BitVec 16} (h : ¬ (s.sup.powered = true ∧ s.sup.supplyOk = true) ∨ 1680 ≤ mv.toNat) :
    Ignored (.powerFailure mv) s := by
  have hc : !s.sup.powered ∨ !s.sup.supplyOk ∨ 1680 ≤ mv.toNat := by
    cases hp : s.sup.powered <;> cases ho : s.sup.supplyOk <;> simp_all
  have hx : exec (.powerFailure mv) s = s.whilePowered s := congrArg s.whilePowered (if_pos hc)
  rw [Ignored, hx, whilePowered_self]

theorem powerFailure_taken {s : State} {mv : BitVec 16} (hp : s.sup.powered = true) (ho : s.sup.supplyOk = true) (hm : mv.toNat < 1680) :
    Does (.powerFailure mv) s fun t =>
      t = { s with regs := t.regs, fum := t.fum, fumPos := t.fumPos, sup := { s.sup with supplyOk := false, supply := mv.toNat } } ∧
      Recorded s t 0x02 0x0F 0x100 (leBytes 1 (s.get R.SUP.STATE.MSTATE) ++ leBytes 1 0 ++ leBytes 2 mv.toNat) ∧
      FieldsSet s t [(R.SUP.SUPPLY.INPUT, mv.toNat), (R.SUP.STATE.PDOWN, 1), (R.SUP.FLAG.PFAIL, 1), (R.SUP.PFCNT.COUNT, s.get R.SUP.PFCNT.COUNT + 1),
        (R.SUP.FUMSEQ.SEQ, s.get R.SUP.FUMSEQ.SEQ + 1)] := by
  have hc : ¬ (!s.sup.powered ∨ !s.sup.supplyOk ∨ 1680 ≤ mv.toNat) := by simp [hp, ho, hm]
  let w := (s.failShown mv.toNat).fumarole 0x02 0x0F 0x100 (leBytes 1 (s.get R.SUP.STATE.MSTATE) ++ leBytes 1 0 ++ leBytes 2 mv.toNat)
  have hx : exec (.powerFailure mv) s = s.whilePowered { w with sup := { w.sup with supplyOk := false } } := congrArg s.whilePowered (if_neg hc)
  refine does_of_whilePowered hx fun _ => ?_
  have hw : w = (s.failShown mv.toNat).fumarole 0x02 0x0F 0x100 (leBytes 1 (s.get R.SUP.STATE.MSTATE) ++ leBytes 1 0 ++ leBytes 2 mv.toNat) := rfl
  clear_value w
  obtain ⟨hu, hf⟩ := failShown_only s mv.toNat
  replace hf := hf.of_base (s := s) rfl
  generalize s.failShown mv.toNat = u at hw hu hf
  have hrec := fumarole_recorded_from (hf.get_eq R.SUP.FUMSEQ.SEQ rfl) 0x02 0x0F 0x100
    (leBytes 1 (s.get R.SUP.STATE.MSTATE) ++ leBytes 1 0 ++ leBytes 2 mv.toNat)
  have hf' := hf.fumarole 0x02 0x0F 0x100 (leBytes 1 (s.get R.SUP.STATE.MSTATE) ++ leBytes 1 0 ++ leBytes 2 mv.toNat) rfl
  have hw' : w = { u with regs := w.regs, fum := w.fum, fumPos := w.fumPos } := by rw [hw]; rfl
  rw [← hw] at hrec hf'
  refine ⟨?_, hrec, hf'.of_regs rfl⟩
  rw [hw', hu]

/-! ### Power-down and recovery -/

theorem powerDown_ignored {s : State} (h : s.sup.powered = false ∨ s.sup.supplyOk = true ∨ s.sup.down = true) (mv : BitVec 16) :
    Ignored .powerDown s ∧ Ignored (.powerRecovered mv) s := by
  have hc : !s.sup.powered ∨ s.sup.supplyOk ∨ s.sup.down := by simpa using h
  have hd : exec .powerDown s = s.whilePowered s := congrArg s.whilePowered (if_pos hc)
  have hr : exec (.powerRecovered mv) s = s.whilePowered s := congrArg s.whilePowered (if_pos (hc.imp_right fun k => k.imp_right .inl))
  exact ⟨hd.trans (whilePowered_self s), hr.trans (whilePowered_self s)⟩

/-- What every power-down leaves. -/
structure PoweredDown (s t : State) : Prop where
  down : t.sup.down = true
  dem : t.get R.SIO.OSTATE.DEM = 0
  latch : t.sup.latch = true
  cause : t.get R.SUP.CAUSE.CODE = s.get R.SUP.CAUSE.CODE
  count : t.get R.SUP.SAFECNT.COUNT = s.get R.SUP.SAFECNT.COUNT

/-- A module that is down already keeps its state (R361). -/
theorem powerDown_down {s : State} (h : s.mstate = .safe ∨ s.mstate = .recovery) :
    s.powerDown.mstate = s.mstate ∧ PoweredDown s s.powerDown := by
  rw [State.powerDown, if_pos h]
  obtain ⟨hdem, hregs, hsup, -⟩ := solfatara_spec s 0x20
  generalize s.solfatara 0x20 = u at hdem hregs hsup ⊢
  have hlatch : u.sup.latch = true := by rw [hsup]
  exact ⟨mstate_congr (regsKept_get hregs (by decide)), rfl, hdem, hlatch, regsKept_get hregs (by decide), regsKept_get hregs (by decide)⟩

/-- What a power-down of a module that was not down leaves besides. -/
structure PoweredDownSafe (s t : State) : Prop extends PoweredDown s t where
  mstate : t.mstate = .safe
  role : t.role = .none
  pact : t.get R.PAIR.ROLE.PACT = 0
  hold : t.get R.BRG.STATUS.HOLD = 0
  last : t.sup.lastSafe = 0x20
  flag : t.get R.SUP.FLAG.SAFE = 1
  insts : ∀ ch, (t.ch ch).insts = []

theorem powerDown_safe {s : State} (h : ¬ (s.mstate = .safe ∨ s.mstate = .recovery)) : PoweredDownSafe s s.powerDown := by
  rw [State.powerDown, if_neg h]
  have e := enterSafe_spec s 0x20
  generalize s.enterSafe 0x20 = u at e ⊢
  have hf := (FieldsSet.refl u).put R.SUP.FLAG.SAFE 1 rfl
  have hu : u.flag R.SUP.FLAG.SAFE = { u with regs := (u.flag R.SUP.FLAG.SAFE).regs } := rfl
  rw [← State.flag] at hf
  generalize u.flag R.SUP.FLAG.SAFE = w at hf hu ⊢
  have hlatch : w.sup.latch = true := by rw [hu, e.sup]
  have hch : ∀ ch, w.ch ch = u.ch ch := by rw [hu]; intro ch; cases ch <;> rfl
  exact {
    down := rfl
    dem := (hf.get_eq R.SIO.OSTATE.DEM rfl).trans e.dem
    latch := hlatch
    cause := (hf.get_eq R.SUP.CAUSE.CODE rfl).trans (regsKept_get e.regs (by decide))
    count := (hf.get_eq R.SUP.SAFECNT.COUNT rfl).trans (regsKept_get e.regs (by decide))
    mstate := (mstate_congr (hf.get_eq R.SUP.STATE.MSTATE rfl)).trans e.mstate
    role := by
      show roleOf (w.get R.PAIR.ROLE.fld) = .none
      rw [hf.get_eq R.PAIR.ROLE.fld rfl, e.role]; rfl
    pact := (hf.get_eq R.PAIR.ROLE.PACT rfl).trans e.pact
    hold := (hf.get_eq R.BRG.STATUS.HOLD rfl).trans e.hold
    last := rfl
    flag := hf.1 (R.SUP.FLAG.SAFE, 1) (List.mem_singleton_self _)
    insts := fun ch => by
      have hc := (e.halted ch).1
      rw [← hch] at hc
      cases ch <;> exact hc }

/-- A power-down outside a COMMIT. -/
theorem powerDown_taken {s : State} (hp : s.sup.powered = true) (ho : s.sup.supplyOk = false) (hd : s.sup.down = false)
    (hphase : ¬ (s.mstate = .run ∧ s.get R.GONG.STATUS.PHASE = 2)) : exec .powerDown s = s.whilePowered s.powerDown := by
  have hx : exec .powerDown s = s.whilePowered (if !s.sup.powered ∨ s.sup.supplyOk ∨ s.sup.down then s
      else (if s.mstate = .run ∧ s.get R.GONG.STATUS.PHASE = 2 then s.commitFrame else s).powerDown) := rfl
  rw [hx, if_neg (by simp [hp, ho, hd]), if_neg hphase]

theorem powerRecovered_taken {s : State} {mv : BitVec 16} (hp : s.sup.powered = true) (ho : s.sup.supplyOk = false) (hd : s.sup.down = false)
    (hm : 1750 < mv.toNat) : Does (.powerRecovered mv) s fun t =>
      t = { s with regs := t.regs, sup := { s.sup with supplyOk := true, supply := mv.toNat } } ∧
      FieldsSet s t [(R.SUP.SUPPLY.INPUT, mv.toNat), (R.SUP.STATE.PDOWN, 0)] := by
  have hc : ¬ (!s.sup.powered ∨ s.sup.supplyOk ∨ s.sup.down ∨ mv.toNat ≤ 1750) := by simp [hp, ho, hd, hm]
  refine does_of_whilePowered (congrArg s.whilePowered (if_neg hc)) fun _ => ⟨rfl, ?_⟩
  exact ((setSupply_fields s mv.toNat).put R.SUP.STATE.PDOWN 0 rfl).of_regs rfl

theorem powerRecovered_low {s : State} {mv : BitVec 16} (hm : mv.toNat ≤ 1750) : Ignored (.powerRecovered mv) s := by
  have hx : exec (.powerRecovered mv) s = s.whilePowered s := congrArg s.whilePowered (if_pos (.inr (.inr (.inr hm))))
  exact hx.trans (whilePowered_self s)

theorem holdupEnd_spec (s : State) : (s.sup.down = true → Does .holdupEnd s fun t => t = { s with sup := { s.sup with powered := false } }) ∧
    (s.sup.down = false → Ignored .holdupEnd s) := by
  have hx : exec .holdupEnd s = s.whilePowered (if s.sup.down then { s with sup := { s.sup with powered := false } } else s) := rfl
  refine ⟨fun h => ?_, fun h => ?_⟩
  · rw [h] at hx
    exact does_of_whilePowered hx fun _ => rfl
  · rw [h] at hx
    exact hx.trans (whilePowered_self s)

/-! ### The steward's commands (R365) -/

/-- The fields of the STW command register. -/
theorem stwFields_ok : cmdFieldsOk R.STW.CMD.CODE R.STW.CMDCNT.COUNT R.STW.REASON.CODE = true := rfl

theorem stwRestart_judged (s : State) (r : Req) : Judged (.stwRestart r) s r R.STW.CMD.CODE R.STW.CMDCNT.COUNT R.STW.REASON.CODE 1 s.restartWhy []
    fun s => { s with sup := { s.sup with restart := some (s.sup.restart.getD false) } } :=
  judged_of_command_rest (act := fun t => t.acceptRestart false) rfl stwFields_ok fun _ => rfl

theorem coldstart_judged (s : State) (r : Req) : Judged (.coldstart r) s r R.STW.CMD.CODE R.STW.CMDCNT.COUNT R.STW.REASON.CODE 2 s.restartWhy []
    fun s => { s with sup := { s.sup with restart := some true } } :=
  judged_of_command_rest (act := fun t => t.acceptRestart true) rfl stwFields_ok fun _ => rfl

/-- A trigger counts from the state before a command's own registers were written. -/
theorem EntersSafe.of_count {s u t : State} {code detail : Nat} (h : EntersSafe u t code detail)
    (hc : u.get R.SUP.SAFECNT.COUNT = s.get R.SUP.SAFECNT.COUNT) : EntersSafe s t code detail := by
  obtain ⟨h1, h2, h3, h4, h5, hrest⟩ := h
  exact ⟨h1, h2, h3, h4, hc ▸ h5, hrest⟩

/-- The registers that a trigger writes. -/
theorem trigger_keeps {s : State} (h : Armed s) (code detail : Nat) {f : Fld} (hf : besides f [(R.SUP.FUMSEQ.SEQ, 0), (R.SUP.CAUSE.CODE, 0),
    (R.SUP.CAUSE.DETAIL, 0), (R.SUP.FLAG.SAFE, 0), (R.SUP.SAFECNT.COUNT, 0)] = true) (hk : f.off ∉ safeRegs) :
    (s.trigger code detail).get f = s.get f := by
  rw [trigger_of_armed h]
  have hd := decideCause_fields s code detail
  generalize s.decideCause code detail = u at hd ⊢
  exact (regsKept_get (enterSafe_spec u code).regs hk).trans (hd.get_eq f hf)

theorem stwSafe_spec (s : State) (r : Req) :
    (s.steward r = false → Ignored (.stwSafe r) s) ∧
    (s.steward r = true → (s.mstate = .safe ∨ s.mstate = .recovery) ∨ s.mstate = .boot → Sets (.stwSafe r) s [(R.STW.REASON.CODE, 2)]) ∧
    (s.steward r = true → ¬ (s.mstate = .safe ∨ s.mstate = .recovery) → s.mstate ≠ .boot → Does (.stwSafe r) s fun t => EntersSafe s t 16 0 ∧
      t.get R.STW.REASON.CODE = 0 ∧ t.get R.STW.CMD.CODE = 3 ∧ t.get R.STW.CMDCNT.COUNT = (s.get R.STW.CMDCNT.COUNT + 1) % 2 ^ 32) := by
  let why := firstReason [(2, s.mstate != .starttest && s.mstate != .init && s.mstate != .run)]
  have hx : exec (.stwSafe r) s = s.whilePowered (s.command r R.STW.CMD.CODE R.STW.CMDCNT.COUNT R.STW.REASON.CODE 3 why fun t => t.trigger 16 0) := rfl
  refine ⟨fun hr => ?_, fun hr hm => ?_, fun hr hd hb => ?_⟩
  · rw [Ignored, hx, command_unmoved hr, whilePowered_self]
  · have hw : why = 2 := by
      rcases hm with (hm | hm) | hm <;> simp [why, firstReason, hm]
    rw [hw, command_refused hr (by decide)] at hx
    exact does_of_whilePowered hx fun _ => (OnlyFields.refl s).put R.STW.REASON.CODE 2 rfl
  · have hw : why = 0 := by
      rw [not_or] at hd
      cases hm : s.mstate <;> simp_all [why, firstReason]
    rw [command_accepted hr hw] at hx
    refine does_of_whilePowered hx fun _ => ?_
    obtain ⟨-, hf⟩ := command_fields s R.STW.CMD.CODE R.STW.CMDCNT.COUNT R.STW.REASON.CODE 3 rfl rfl rfl
    generalize ((s.set R.STW.REASON.CODE 0).set R.STW.CMD.CODE 3).inc R.STW.CMDCNT.COUNT = u at hf ⊢
    have hu : Armed u := by
      rw [Armed, mstate_congr (hf.get_eq R.SUP.STATE.MSTATE rfl)]
      exact not_or.1 hd
    refine ⟨(trigger_armed hu (by decide) (by decide)).1.of_count (hf.get_eq R.SUP.SAFECNT.COUNT rfl), ?_, ?_, ?_⟩
    · exact (trigger_keeps hu 16 0 rfl (by decide)).trans (hf.1 (R.STW.REASON.CODE, 0) (by simp))
    · exact (trigger_keeps hu 16 0 rfl (by decide)).trans (hf.1 (R.STW.CMD.CODE, 3) (by simp))
    · exact (trigger_keeps hu 16 0 rfl (by decide)).trans (hf.1 (R.STW.CMDCNT.COUNT, s.get R.STW.CMDCNT.COUNT + 1) (by simp))

end Sys2Proof.Machine
end

section
/-! PROOF. The self-test: what START, STOP and the partner's time-out do (R371 to R374). -/

namespace Sys2Proof.Machine

/-! ### Fields written again -/

/-- The bits of `f` lie among those of `g`. -/
def Fld.within (f g : Fld) : Bool := f.off == g.off && decide (g.lo ≤ f.lo) && decide (f.lo + f.w ≤ g.lo + g.w)

/-- A field beside the larger one lies beside the smaller one. -/
theorem apart_of_within {f g h : Fld} (hg : g.within h = true) (hf : f.apart h = true) : f.apart g = true := by
  simp only [Fld.within, Fld.apart, Bool.and_eq_true, Bool.or_eq_true, beq_iff_eq, bne_iff_ne, decide_eq_true_eq] at *
  omega

/-- Of the fields `fs`, those in `ks` lie beside all of `gs`, and the others among the bits of one of `gs`. -/
def replaces (fs ks gs : List Fld) : Bool :=
  ks.all (fun k => gs.all fun g => k.apart g) && fs.all fun f => ks.contains f || gs.any fun g => f.within g

/-- Fields written over others: those kept stay, those written again hold the later value. -/
theorem FieldsSet.replace {s t u : State} {l l' : List (Fld × Nat)} (h : FieldsSet s t l) (h' : FieldsSet t u l') (k : List (Fld × Nat))
    (hk : ∀ p ∈ k, p ∈ l) (hr : replaces (l.map (·.1)) (k.map (·.1)) (l'.map (·.1)) = true) : FieldsSet s u (k ++ l') := by
  simp only [replaces, Bool.and_eq_true, List.all_eq_true, Bool.or_eq_true, List.contains_iff_mem, List.any_eq_true] at hr
  obtain ⟨hbeside, hcover⟩ := hr
  constructor
  · intro p hp
    rcases List.mem_append.1 hp with hp | hp
    · rw [h'.2 p.1 fun q hq => hbeside p.1 (List.mem_map_of_mem hp) q.1 (List.mem_map_of_mem hq)]
      exact h.1 p (hk p hp)
    · exact h'.1 p hp
  · intro f hf
    have hnew : ∀ g ∈ l'.map (·.1), f.apart g = true := fun g hg => by
      obtain ⟨q, hq, rfl⟩ := List.mem_map.1 hg
      exact hf q (List.mem_append_right _ hq)
    rw [h'.2 f fun q hq => hnew q.1 (List.mem_map_of_mem hq)]
    refine h.2 f fun p hp => ?_
    rcases hcover p.1 (List.mem_map_of_mem hp) with hkept | ⟨g, hg, hin⟩
    · obtain ⟨q, hq, hqp⟩ := List.mem_map.1 hkept
      rw [← hqp]
      exact hf q (List.mem_append_left _ hq)
    · exact apart_of_within hin (hnew g hg)

/-- Fields that lie beside those written before. -/
theorem FieldsSet.also {s t u : State} {l l' : List (Fld × Nat)} (h : FieldsSet s t l) (h' : FieldsSet t u l')
    (hr : replaces (l.map (·.1)) (l.map (·.1)) (l'.map (·.1)) = true) : FieldsSet s u (l ++ l') := h.replace h' l (fun _ hp => hp) hr

/-! ### The end of a test after a command -/

/-- The fields of the BIST command register. -/
def bistFields (s : State) (v : Nat) : List (Fld × Nat) :=
  [(R.BIST.REASON.CODE, 0), (R.BIST.CMD.all, v), (R.BIST.CMDCNT.COUNT, s.get R.BIST.CMDCNT.COUNT + 1)]

theorem bistCommand_fields (s : State) (v : Nat) :
    OnlyFields s (((s.set R.BIST.REASON.CODE 0).set R.BIST.CMD.all v).inc R.BIST.CMDCNT.COUNT) (bistFields s v) :=
  command_fields s _ _ _ v rfl rfl rfl

theorem testRun_congr {s t : State} (hr : t.get R.BIST.STATUS.RUN = s.get R.BIST.STATUS.RUN) (ht : t.get R.BIST.STATUS.TEST = s.get R.BIST.STATUS.TEST) :
    t.testRun = s.testRun := by rw [State.testRun, hr, ht, State.testRun]

theorem testRun_of_running {s : State} (h : s.get R.BIST.STATUS.RUN = 1) : s.testRun = some (s.get R.BIST.STATUS.TEST) := by
  rw [State.testRun, if_pos h]

theorem testRun_of_stopped {s : State} (h : s.get R.BIST.STATUS.RUN = 0) : s.testRun = none := by
  rw [State.testRun, if_neg (by omega)]

theorem run_stopped_or_running (s : State) : s.get R.BIST.STATUS.RUN = 0 ∨ s.get R.BIST.STATUS.RUN = 1 := by
  have h := get_lt s R.BIST.STATUS.RUN
  have hw : (2 : Nat) ^ R.BIST.STATUS.RUN.w = 2 := rfl
  omega

/-- The results of test `m` that ends with a cause. -/
def abortResults (s : State) (m cause : Nat) : List (Fld × Nat) :=
  [(R.BIST.RES.RESULT m, 4), (R.BIST.RES.PARTBAD m, b2n s.bist.bad), (R.BIST.RES.ABCAUSE m, cause),
    (R.BIST.RES.SLICES m, s.get R.BIST.PROG.DONE), (R.BIST.DET.FAILCNT m, min s.bist.failed 0xFFFF), (R.BIST.DET.ITEM m, s.bist.item)]

/-- The flags of a test that ended with a cause. -/
def abortFlags : List (Fld × Nat) := [(R.BIST.FLAG.DONE, 1), (R.BIST.FLAG.INCOMPLETE, 1)]

/-- Everything that the end with a cause writes. -/
def abortFields (s : State) (m cause : Nat) : List (Fld × Nat) :=
  [(R.BIST.STATUS.RUN, 0), (R.BIST.STATUS.MANUAL, 0)] ++ abortResults s m cause ++ abortFlags

theorem testResults_abort (s : State) (m : Nat) {cause : Nat} (hc : cause ≠ 0) : s.testResults m cause = abortFields s m cause := by
  have h : (cause != 0) = true := by simpa using hc
  have hr : s.testResult cause = 4 := by rw [State.testResult, if_pos h]
  rw [State.testResults, hr, h, if_neg (by decide), if_pos rfl, Bool.true_and]
  rfl

/-- What a state needs for a test to end in it as in `s`. -/
structure SameTest (s t : State) : Prop where
  frame : t = { s with regs := t.regs }
  run : t.get R.BIST.STATUS.RUN = s.get R.BIST.STATUS.RUN
  test : t.get R.BIST.STATUS.TEST = s.get R.BIST.STATUS.TEST
  done : t.get R.BIST.PROG.DONE = s.get R.BIST.PROG.DONE

/-- The running test of `s` ends in `t` with a cause. -/
theorem testEnd_abort {s t : State} (h : SameTest s t) {m cause : Nat} (hm : s.testRun = some m) (hc : cause ≠ 0) :
    let u := t.testEnd cause
    u = { s with regs := u.regs, spd := s.spdAfter m, bist := { s.bist with start := none, drove := [] } } ∧ FieldsSet t u (abortFields s m cause) := by
  obtain ⟨hu, hf⟩ := testEnd_spec ((testRun_congr h.run h.test).trans hm) cause
  have hbist : t.bist = s.bist := by rw [h.frame]
  have hspd : t.spdAfter m = s.spdAfter m := by rw [h.frame]; rfl
  have hfields : abortFields t m cause = abortFields s m cause := by
    rw [abortFields, abortResults, h.done, hbist, abortFields, abortResults]
  rw [testResults_abort t m hc, hfields] at hf
  rw [hspd, hbist] at hu
  generalize t.testEnd cause = u at hu hf
  exact ⟨hu.trans (congrArg (fun x : State => { x with
    regs := u.regs
    spd := s.spdAfter m
    bist := { s.bist with start := none, drove := [] } }) h.frame), hf⟩

theorem SameTest.refl (s : State) : SameTest s s := ⟨rfl, rfl, rfl, rfl⟩

theorem SameTest.of_fields {s t : State} {l : List (Fld × Nat)} (h : OnlyFields s t l) (hr : besides R.BIST.STATUS.RUN l = true)
    (ht : besides R.BIST.STATUS.TEST l = true) (hd : besides R.BIST.PROG.DONE l = true) : SameTest s t :=
  ⟨h.1, h.2.get_eq _ hr, h.2.get_eq _ ht, h.2.get_eq _ hd⟩

theorem bistCommand_same (s : State) (v : Nat) : SameTest s (((s.set R.BIST.REASON.CODE 0).set R.BIST.CMD.all v).inc R.BIST.CMDCNT.COUNT) :=
  .of_fields (bistCommand_fields s v) rfl rfl rfl

/-! ### STOP and the partner's time-out -/

theorem abortFields_bist (s s' : State) {m : Nat} (hm : m < 8) (v cause : Nat) :
    replaces ((bistFields s' v).map (·.1)) ((bistFields s' v).map (·.1)) ((abortFields s m cause).map (·.1)) = true := by
  have hall : ∀ m : Fin 8, replaces [R.BIST.REASON.CODE, R.BIST.CMD.all, R.BIST.CMDCNT.COUNT] [R.BIST.REASON.CODE, R.BIST.CMD.all, R.BIST.CMDCNT.COUNT]
      [R.BIST.STATUS.RUN, R.BIST.STATUS.MANUAL, R.BIST.RES.RESULT m, R.BIST.RES.PARTBAD m, R.BIST.RES.ABCAUSE m, R.BIST.RES.SLICES m,
        R.BIST.DET.FAILCNT m, R.BIST.DET.ITEM m, R.BIST.FLAG.DONE, R.BIST.FLAG.INCOMPLETE] = true := by decide
  exact hall ⟨m, hm⟩

theorem testStop_ignored {s : State} {r : Req} (h : s.steward r = false) : Ignored (.testStop r) s := by
  have hx : exec (.testStop r) s = s.whilePowered (s.command r R.BIST.CMD.all R.BIST.CMDCNT.COUNT R.BIST.REASON.CODE 2
      (firstReason [(6, s.testRun.isNone)]) fun t => t.testEnd 1) := rfl
  rw [Ignored, hx, command_unmoved h, whilePowered_self]

theorem testStop_idle {s : State} {r : Req} (h : s.steward r = true) (hr : s.get R.BIST.STATUS.RUN = 0) :
    Sets (.testStop r) s [(R.BIST.REASON.CODE, 6)] := by
  have hx : exec (.testStop r) s = s.whilePowered (s.command r R.BIST.CMD.all R.BIST.CMDCNT.COUNT R.BIST.REASON.CODE 2
      (firstReason [(6, s.testRun.isNone)]) fun t => t.testEnd 1) := rfl
  rw [testRun_of_stopped hr, show firstReason [(6, (none : Option Nat).isNone)] = 6 from rfl, command_refused h (by decide)] at hx
  exact does_of_whilePowered hx fun _ => (OnlyFields.refl s).put R.BIST.REASON.CODE 6 rfl

theorem testStop_running {s : State} {r : Req} (h : s.steward r = true) {m : Nat} (hm : s.testRun = some m) :
    Does (.testStop r) s fun t =>
      t = { s with regs := t.regs, spd := s.spdAfter m, bist := { s.bist with start := none, drove := [] } } ∧
      FieldsSet s t (abortFields s m 1 ++ bistFields s 2) := by
  have hx : exec (.testStop r) s = s.whilePowered (s.command r R.BIST.CMD.all R.BIST.CMDCNT.COUNT R.BIST.REASON.CODE 2
      (firstReason [(6, s.testRun.isNone)]) fun t => t.testEnd 1) := rfl
  obtain ⟨-, -, h8⟩ := testRun_some hm
  rw [command_accepted h (by rw [hm]; rfl)] at hx
  refine does_of_whilePowered hx fun _ => ?_
  have hsame := bistCommand_same s 2
  obtain ⟨-, hf⟩ := bistCommand_fields s 2
  generalize ((s.set R.BIST.REASON.CODE 0).set R.BIST.CMD.all 2).inc R.BIST.CMDCNT.COUNT = c at hsame hf ⊢
  obtain ⟨hu, hend⟩ := testEnd_abort hsame hm (cause := 1) (by decide)
  exact ⟨hu, (hf.also hend (abortFields_bist s s h8 2 1)).reorder List.perm_append_comm⟩

/-- The partner's own GEYSER test is heard. -/
theorem partnerRuns_iff (s : State) (bit : Nat) : s.partnerRuns bit = true ↔ ∃ h, s.partner = some h ∧ h.flags.toNat / 2 ^ bit % 2 = 1 := by
  unfold State.partnerRuns
  cases s.partner with
  | none => simp
  | some h => simp

theorem geyserTimeout_spec (s : State) :
    (s.testRun = some 3 → s.bist.geyser = false → s.partnerRuns 6 = false → Does .geyserTestPartnerTimeout s fun t =>
      t = { s with regs := t.regs, bist := { s.bist with start := none, drove := [] } } ∧ FieldsSet s t (abortFields s 3 4)) ∧
    (¬ (s.testRun = some 3 ∧ s.bist.geyser = false ∧ s.partnerRuns 6 = false) → Ignored .geyserTestPartnerTimeout s) := by
  have hx : exec .geyserTestPartnerTimeout s =
      s.whilePowered (if s.testRun = some 3 ∧ !s.bist.geyser ∧ !s.partnerRuns 6 then s.testEnd 4 else s) := rfl
  refine ⟨fun hm hg hp => ?_, fun h => ?_⟩
  · rw [if_pos ⟨hm, by simp [hg], by simp [hp]⟩] at hx
    exact does_of_whilePowered hx fun _ => testEnd_abort (.refl s) hm (by decide)
  · rw [if_neg (by simpa using h)] at hx
    exact hx.trans (whilePowered_self s)

/-! ### START -/

/-- A test's result word after START: no result but 1, in progress. -/
theorem resultReset_fields (s : State) (n : Nat) :
    OnlyFields s ((s.set (R.BIST.RES.all n) 0).set (R.BIST.RES.RESULT n) 1) [(R.BIST.RES.all n, 2 ^ 28)] := by
  have hzero : (s.set (R.BIST.RES.all n) 0).reg (R.BIST.RES.all n).off = 0 := by
    rw [State.set, reg_setReg_same]
    show BitVec.ofNat 32 (2 ^ 32 * ((s.reg _).toNat / 2 ^ 32) + 1 * 0 + (s.reg _).toNat % 1) = 0
    rw [Nat.div_eq_of_lt (s.reg (R.BIST.RES.all n).off).isLt, Nat.mod_one]
    decide
  refine ⟨rfl, fun p hp => ?_, fun f hf => ?_⟩
  · rw [List.mem_singleton.1 hp]
    have hword : ((s.set (R.BIST.RES.all n) 0).set (R.BIST.RES.RESULT n) 1).reg (R.BIST.RES.all n).off =
        withField ((s.set (R.BIST.RES.all n) 0).reg (R.BIST.RES.all n).off) 28 4 1 := reg_setReg_same ..
    rw [State.get, hword, hzero]
    show fieldOf (withField 0 28 4 1) 0 32 = 2 ^ 28 % 2 ^ 32
    decide
  · have hall : f.apart (R.BIST.RES.all n) = true := hf _ (List.mem_singleton_self _)
    have hres : f.apart (R.BIST.RES.RESULT n) = true := apart_of_within (by simp [Fld.within, R.BIST.RES.RESULT, R.BIST.RES.all]) hall
    rw [Fld.apart_comm] at hall hres
    exact (get_set_apart _ 1 rfl hres).trans (get_set_apart s 0 rfl hall)

/-- What the start of test `n` writes. -/
def beginFields (s : State) (n : Nat) (manual : Bool) : List (Fld × Nat) :=
  [(R.BIST.STATUS.RUN, 1), (R.BIST.STATUS.MANUAL, b2n manual), (R.BIST.STATUS.TEST, n), (R.BIST.PROG.TOTAL, testSlices n s.pUs), (R.BIST.PROG.DONE, 0),
    (R.BIST.RES.all n, 2 ^ 28), (R.BIST.DET.all n, 0)]

/-- The registers of a test that starts. -/
def State.beginShown (s : State) (n : Nat) (manual : Bool) : State :=
  let t := ((((s.set R.BIST.STATUS.RUN 1).set R.BIST.STATUS.MANUAL (b2n manual)).set R.BIST.STATUS.TEST n).set R.BIST.PROG.TOTAL
    (testSlices n s.pUs)).set R.BIST.PROG.DONE 0
  ((t.set (R.BIST.RES.all n) 0).set (R.BIST.RES.RESULT n) 1).set (R.BIST.DET.all n) 0

theorem beginShown_fields (s : State) {n : Nat} (hn : n < 8) (manual : Bool) : OnlyFields s (s.beginShown n manual) (beginFields s n manual) := by
  have hres : ∀ n : Fin 8, replaces [R.BIST.STATUS.RUN, R.BIST.STATUS.MANUAL, R.BIST.STATUS.TEST, R.BIST.PROG.TOTAL, R.BIST.PROG.DONE]
      [R.BIST.STATUS.RUN, R.BIST.STATUS.MANUAL, R.BIST.STATUS.TEST, R.BIST.PROG.TOTAL, R.BIST.PROG.DONE] [R.BIST.RES.all n] = true := by decide
  have hdet : ∀ n : Fin 8, (R.BIST.DET.all n).ok && [R.BIST.STATUS.RUN, R.BIST.STATUS.MANUAL, R.BIST.STATUS.TEST, R.BIST.PROG.TOTAL, R.BIST.PROG.DONE,
      R.BIST.RES.all n].all fun f => (R.BIST.DET.all n).apart f := by decide
  have h := ((((OnlyFields.refl s).put R.BIST.STATUS.RUN 1 rfl).put R.BIST.STATUS.MANUAL (b2n manual) rfl).put R.BIST.STATUS.TEST n rfl).put
    R.BIST.PROG.TOTAL (testSlices n s.pUs) rfl |>.put R.BIST.PROG.DONE 0 rfl
  unfold State.beginShown
  dsimp only
  generalize ((((s.set R.BIST.STATUS.RUN 1).set R.BIST.STATUS.MANUAL (b2n manual)).set R.BIST.STATUS.TEST n).set R.BIST.PROG.TOTAL
    (testSlices n s.pUs)).set R.BIST.PROG.DONE 0 = t at h ⊢
  obtain ⟨hu, hf⟩ := resultReset_fields t n
  generalize (t.set (R.BIST.RES.all n) 0).set (R.BIST.RES.RESULT n) 1 = u at hu hf ⊢
  have hsu : OnlyFields s u _ := ⟨hu.trans (congrArg (fun x : State => { x with regs := u.regs }) h.1), h.2.also hf (hres ⟨n, hn⟩)⟩
  exact hsu.put (R.BIST.DET.all n) 0 (hdet ⟨n, hn⟩)

/-- What WSLOOP writes at its start (R370). -/
def lostFields (s : State) (n : Nat) : List (Fld × Nat) :=
  if n = 6 then [(R.SPD.STATUS.S0OK, 0), (R.SPD.STATUS.S1OK, 0)] ++
    (if s.get R.SPD.STATUS.MODE = 3 then [] else [(R.SPD.STATUS.MODE, 3), (R.SPD.STATUS.UCAUSE, 3), (R.SPD.STATUS.STILL, 0), (R.SPD.FLAG.UNKNOWN, 1)])
  else []

theorem testStimulus_fields (s : State) (n : Nat) : OnlyFields s (s.testStimulus n) (lostFields s n) := by
  unfold State.testStimulus lostFields
  split
  · have h := ((OnlyFields.refl s).put R.SPD.STATUS.S0OK 0 rfl).put R.SPD.STATUS.S1OK 0 rfl
    dsimp only
    generalize (s.set R.SPD.STATUS.S0OK 0).set R.SPD.STATUS.S1OK 0 = t at h ⊢
    have hmode : t.spdMode = s.get R.SPD.STATUS.MODE := h.2.get_eq _ rfl
    rw [hmode]
    split
    · exact h
    · exact (((h.put R.SPD.STATUS.MODE 3 rfl).put R.SPD.STATUS.UCAUSE 3 rfl).put R.SPD.STATUS.STILL 0 rfl).put R.SPD.FLAG.UNKNOWN 1 rfl
  · exact .refl s

/-- The self-test's own state once test `n` has started. -/
def BistSt.begun (b : BistSt) (n : Nat) (geyser : Bool) : BistSt :=
  { b with start := some n, bad := false, failed := 0, item := 0, drove := [], geyser := geyser }

theorem testBegin_eq (s : State) (n : Nat) (manual : Bool) :
    s.testBegin n manual = State.testStimulus { s.beginShown n manual with bist := (s.beginShown n manual).bist.begun n (s.partnerRuns 6) } n := by
  unfold State.testBegin State.beginShown
  dsimp only
  generalize State.set _ (R.BIST.DET.all n) 0 = t
  rfl

/-- No field of the BIST block is one of a wheel sensor's. -/
theorem lostFields_beside {fs : List Fld} (h : ∀ f ∈ fs, 0x100000 ≤ f.off) (s : State) (n : Nat) :
    replaces fs fs ((lostFields s n).map (·.1)) = true := by
  have hlost : ∀ g ∈ (lostFields s n).map (·.1), g.off < 0x100000 := by
    unfold lostFields
    split
    · split
      · decide
      · decide
    · nofun
  simp only [replaces, Bool.and_eq_true, List.all_eq_true, Bool.or_eq_true, List.contains_iff_mem]
  refine ⟨fun f hf g hg => ?_, fun f hf => .inl hf⟩
  have hne : f.off ≠ g.off := (Nat.lt_of_lt_of_le (hlost g hg) (h f hf)).ne'
  simp [Fld.apart, hne]

theorem beginFields_off (s : State) (n : Nat) (manual : Bool) : ∀ f ∈ (beginFields s n manual).map (·.1), 0x100000 ≤ f.off := by
  simp only [beginFields, List.map_cons, List.map_nil, List.forall_mem_cons, List.not_mem_nil, false_imp_iff, implies_true, and_true,
    R.BIST.STATUS.RUN, R.BIST.STATUS.MANUAL, R.BIST.STATUS.TEST, R.BIST.PROG.TOTAL, R.BIST.PROG.DONE, R.BIST.RES.all, R.BIST.DET.all]
  omega

/-- The stimulus of a state whose self-test's own state differs. -/
theorem testStimulus_bist (v : State) (b : BistSt) (n : Nat) :
    let u := State.testStimulus { v with bist := b } n
    u = { v with regs := u.regs, bist := b } ∧ FieldsSet v u (lostFields v n) := by
  obtain ⟨hu, hg⟩ := testStimulus_fields { v with bist := b } n
  have hmode : State.get { v with bist := b } R.SPD.STATUS.MODE = v.get R.SPD.STATUS.MODE := get_congr rfl _
  rw [show lostFields { v with bist := b } n = lostFields v n by rw [lostFields, hmode, lostFields]] at hg
  exact ⟨hu, hg.of_base rfl⟩

/-- What the start of a test leaves of fields written before: those of `k` stay. -/
theorem testBegin_spec {s t : State} {l : List (Fld × Nat)} (h : FieldsSet s t l) (hoff : ∀ f ∈ l.map (·.1), 0x100000 ≤ f.off)
    {n : Nat} (hn : n < 8) (manual : Bool) (k : List (Fld × Nat)) (hk : ∀ p ∈ k, p ∈ l)
    (hr : replaces (l.map (·.1)) (k.map (·.1)) ((beginFields t n manual).map (·.1)) = true) :
    let u := t.testBegin n manual
    u = { t with regs := u.regs, bist := t.bist.begun n (t.partnerRuns 6) } ∧ FieldsSet s u (k ++ beginFields t n manual ++ lostFields s n) := by
  obtain ⟨hv, hf⟩ := beginShown_fields t hn manual
  rw [testBegin_eq]
  generalize t.beginShown n manual = v at hv hf ⊢
  have hbist : v.bist = t.bist := by rw [hv]
  have hkept := h.replace hf k hk hr
  have hkoff : ∀ f ∈ (k ++ beginFields t n manual).map (·.1), 0x100000 ≤ f.off := by
    intro f hf
    rw [List.map_append] at hf
    rcases List.mem_append.1 hf with hf | hf
    · obtain ⟨p, hp, rfl⟩ := List.mem_map.1 hf
      exact hoff _ (List.mem_map_of_mem (hk p hp))
    · exact beginFields_off t n manual f hf
  have hmode : v.get R.SPD.STATUS.MODE = s.get R.SPD.STATUS.MODE :=
    hkept.2 R.SPD.STATUS.MODE fun p hp => by
      have hne : R.SPD.STATUS.MODE.off ≠ p.1.off := (Nat.lt_of_lt_of_le (by decide) (hkoff p.1 (List.mem_map_of_mem hp))).ne
      simp [Fld.apart, hne]
  rw [hbist]
  obtain ⟨hu, hg⟩ := testStimulus_bist v (t.bist.begun n (t.partnerRuns 6)) n
  rw [show lostFields v n = lostFields s n by rw [lostFields, hmode, lostFields]] at hg
  generalize State.testStimulus _ n = u at hu hg ⊢
  refine ⟨?_, hkept.also hg (lostFields_beside hkoff s n)⟩
  exact hu.trans (congrArg (fun x : State => { x with regs := u.regs, bist := t.bist.begun n (t.partnerRuns 6) }) hv)

/-! ### START after a test that runs -/

/-- Fields of the BIST command and of a start: none is among the others' bits. -/
theorem bist_begin_apart {n : Nat} (hn : n < 8) (s s' : State) (v : Nat) (manual : Bool) :
    replaces ((bistFields s v).map (·.1)) ((bistFields s v).map (·.1)) ((beginFields s' n manual).map (·.1)) = true := by
  have hall : ∀ n : Fin 8, let cs := [R.BIST.REASON.CODE, R.BIST.CMD.all, R.BIST.CMDCNT.COUNT]
      replaces cs cs [R.BIST.STATUS.RUN, R.BIST.STATUS.MANUAL, R.BIST.STATUS.TEST, R.BIST.PROG.TOTAL, R.BIST.PROG.DONE, R.BIST.RES.all n,
        R.BIST.DET.all n] = true := by decide
  exact hall ⟨n, hn⟩

/-- What the end of test `m` writes and the start of another leaves. -/
def endKept (s : State) (m n : Nat) : List (Fld × Nat) := if m = n then abortFlags else abortResults s m 5 ++ abortFlags

theorem endKept_mem (s : State) (m n : Nat) : ∀ p ∈ endKept s m n, p ∈ abortFields s m 5 := by
  intro p hp
  unfold endKept at hp
  rw [abortFields]
  split at hp
  · exact List.mem_append_right _ hp
  · rw [List.append_assoc]
    exact List.mem_append_right _ hp

/-- The fields of results of test `m`. -/
def resultFlds (m : Nat) : List Fld :=
  [R.BIST.RES.RESULT m, R.BIST.RES.PARTBAD m, R.BIST.RES.ABCAUSE m, R.BIST.RES.SLICES m, R.BIST.DET.FAILCNT m, R.BIST.DET.ITEM m]

/-- The fields of the start of test `n`. -/
def beginFlds (n : Nat) : List Fld :=
  [R.BIST.STATUS.RUN, R.BIST.STATUS.MANUAL, R.BIST.STATUS.TEST, R.BIST.PROG.TOTAL, R.BIST.PROG.DONE, R.BIST.RES.all n, R.BIST.DET.all n]

/-- A start keeps the results of another test and the flags of its end. -/
theorem end_begin_other {m n : Nat} (hm : m < 8) (hn : n < 8) (hne : m ≠ n) : replaces
    ([R.BIST.REASON.CODE, R.BIST.CMD.all, R.BIST.CMDCNT.COUNT] ++ ([R.BIST.STATUS.RUN, R.BIST.STATUS.MANUAL] ++ resultFlds m ++ abortFlags.map (·.1)))
    ([R.BIST.REASON.CODE, R.BIST.CMD.all, R.BIST.CMDCNT.COUNT] ++ (resultFlds m ++ abortFlags.map (·.1))) (beginFlds n) = true := by
  have hall : ∀ m n : Fin 8, m ≠ n → replaces
      ([R.BIST.REASON.CODE, R.BIST.CMD.all, R.BIST.CMDCNT.COUNT] ++ ([R.BIST.STATUS.RUN, R.BIST.STATUS.MANUAL] ++ resultFlds m ++ abortFlags.map (·.1)))
      ([R.BIST.REASON.CODE, R.BIST.CMD.all, R.BIST.CMDCNT.COUNT] ++ (resultFlds m ++ abortFlags.map (·.1))) (beginFlds n) = true := by decide
  exact hall ⟨m, hm⟩ ⟨n, hn⟩ fun h => hne (congrArg Fin.val h)

/-- The start of the test that ran writes its results anew. -/
theorem end_begin_same {n : Nat} (hn : n < 8) : replaces
    ([R.BIST.REASON.CODE, R.BIST.CMD.all, R.BIST.CMDCNT.COUNT] ++ ([R.BIST.STATUS.RUN, R.BIST.STATUS.MANUAL] ++ resultFlds n ++ abortFlags.map (·.1)))
    ([R.BIST.REASON.CODE, R.BIST.CMD.all, R.BIST.CMDCNT.COUNT] ++ abortFlags.map (·.1)) (beginFlds n) = true := by
  have hall : ∀ n : Fin 8, replaces
      ([R.BIST.REASON.CODE, R.BIST.CMD.all, R.BIST.CMDCNT.COUNT] ++ ([R.BIST.STATUS.RUN, R.BIST.STATUS.MANUAL] ++ resultFlds n ++ abortFlags.map (·.1)))
      ([R.BIST.REASON.CODE, R.BIST.CMD.all, R.BIST.CMDCNT.COUNT] ++ abortFlags.map (·.1)) (beginFlds n) = true := by decide
  exact hall ⟨n, hn⟩

/-- From `s` to `t` test `n` started, after what a command and the end of another test wrote. -/
def Begun (s t : State) (n : Nat) (spd : SpdSt) (more : List (Fld × Nat)) : Prop :=
  t = { s with regs := t.regs, spd := spd, bist := s.bist.begun n (s.partnerRuns 6) } ∧
    FieldsSet s t (bistFields s (n * 256 + 1) ++ more ++ beginFields s n true ++ lostFields s n)

theorem testStart_exec (s : State) (r : Req) (test : Fin 8) : exec (.testStart r test) s = s.whilePowered (s.command r R.BIST.CMD.all
    R.BIST.CMDCNT.COUNT R.BIST.REASON.CODE (test.val * 256 + 1) (s.testWhy test.val) fun t => (t.testEnd 5).testBegin test.val true) := rfl

theorem bistFields_off (s : State) (v : Nat) : ∀ f ∈ (bistFields s v).map (·.1), 0x100000 ≤ f.off := by
  have h : ∀ f ∈ [R.BIST.REASON.CODE, R.BIST.CMD.all, R.BIST.CMDCNT.COUNT], 0x100000 ≤ f.off := by decide
  exact h

theorem abortFields_off (s : State) (m cause : Nat) : ∀ f ∈ (abortFields s m cause).map (·.1), 0x100000 ≤ f.off := by
  intro f hf
  have hmem : f ∈ [R.BIST.STATUS.RUN, R.BIST.STATUS.MANUAL] ++ resultFlds m ++ [R.BIST.FLAG.DONE, R.BIST.FLAG.INCOMPLETE] := hf
  simp only [List.mem_append, List.mem_cons, List.not_mem_nil, or_false, resultFlds] at hmem
  rcases hmem with ((rfl | rfl) | (rfl | rfl | rfl | rfl | rfl | rfl)) | rfl | rfl <;>
    simp only [R.BIST.STATUS.RUN, R.BIST.STATUS.MANUAL, R.BIST.RES.RESULT, R.BIST.RES.PARTBAD, R.BIST.RES.ABCAUSE, R.BIST.RES.SLICES, R.BIST.DET.FAILCNT,
      R.BIST.DET.ITEM, R.BIST.FLAG.DONE, R.BIST.FLAG.INCOMPLETE] <;> omega

/-- A field below the BIST block is not among those written there. -/
theorem FieldsSet.get_below {s t : State} {l : List (Fld × Nat)} (h : FieldsSet s t l) (hoff : ∀ f ∈ l.map (·.1), 0x100000 ≤ f.off) {f : Fld}
    (hf : f.off < 0x100000) : t.get f = s.get f := h.2 f fun p hp => by
  have hne : f.off ≠ p.1.off := (Nat.lt_of_lt_of_le hf (hoff p.1 (List.mem_map_of_mem hp))).ne
  simp [Fld.apart, hne]

theorem beginFields_congr {s t : State} (h : t.get R.GONG.STATUS.APERIOD = s.get R.GONG.STATUS.APERIOD) (n : Nat) (manual : Bool) :
    beginFields t n manual = beginFields s n manual := by
  have hp : t.pUs = s.pUs := by rw [State.pUs, State.pNs, h, State.pUs, State.pNs]
  rw [beginFields, hp, beginFields]

theorem partnerRuns_congr {s t : State} (h : t.pair = s.pair) (bit : Nat) : t.partnerRuns bit = s.partnerRuns bit := by
  rw [State.partnerRuns, State.partner, h, State.partnerRuns, State.partner]

/-- START where no test runs. -/
theorem testStart_idle {s : State} {r : Req} {test : Fin 8} (h : s.steward r = true) (hw : s.testWhy test.val = 0) (hm : s.testRun = none) :
    Does (.testStart r test) s fun t => Begun s t test.val s.spd [] := by
  have hx := testStart_exec s r test
  rw [command_accepted h hw] at hx
  refine does_of_whilePowered hx fun _ => ?_
  have hsame := bistCommand_same s (test.val * 256 + 1)
  obtain ⟨-, hf⟩ := bistCommand_fields s (test.val * 256 + 1)
  generalize ((s.set R.BIST.REASON.CODE 0).set R.BIST.CMD.all (test.val * 256 + 1)).inc R.BIST.CMDCNT.COUNT = c at hsame hf ⊢
  rw [testEnd_idle ((testRun_congr hsame.run hsame.test).trans hm)]
  have hoff := bistFields_off s (test.val * 256 + 1)
  obtain ⟨hu, hg⟩ := testBegin_spec hf hoff test.isLt true _ (fun _ hp => hp) (bist_begin_apart test.isLt s c (test.val * 256 + 1) true)
  rw [beginFields_congr (hf.get_below hoff (by decide))] at hg
  generalize c.testBegin test.val true = u at hu hg
  refine ⟨?_, by rw [List.append_nil]; exact hg⟩
  rw [partnerRuns_congr (s := s) (by rw [hsame.frame]), show c.bist = s.bist by rw [hsame.frame]] at hu
  exact hu.trans (congrArg (fun x : State => { x with regs := u.regs, bist := s.bist.begun test.val (s.partnerRuns 6) }) hsame.frame)

/-- START where a test runs: that one ends with cause 5. -/
theorem testStart_running {s : State} {r : Req} {test : Fin 8} (h : s.steward r = true) (hw : s.testWhy test.val = 0) {m : Nat} (hm : s.testRun = some m) :
    Does (.testStart r test) s fun t => Begun s t test.val (s.spdAfter m) (endKept s m test.val) := by
  obtain ⟨-, -, h8⟩ := testRun_some hm
  have hx := testStart_exec s r test
  rw [command_accepted h hw] at hx
  refine does_of_whilePowered hx fun _ => ?_
  have hsame := bistCommand_same s (test.val * 256 + 1)
  obtain ⟨-, hf⟩ := bistCommand_fields s (test.val * 256 + 1)
  generalize ((s.set R.BIST.REASON.CODE 0).set R.BIST.CMD.all (test.val * 256 + 1)).inc R.BIST.CMDCNT.COUNT = c at hsame hf ⊢
  obtain ⟨he, hend⟩ := testEnd_abort hsame hm (cause := 5) (by decide)
  generalize c.testEnd 5 = e at he hend ⊢
  have hboth := hf.also hend (abortFields_bist s s h8 (test.val * 256 + 1) 5)
  have hoff : ∀ f ∈ (bistFields s (test.val * 256 + 1) ++ abortFields s m 5).map (·.1), 0x100000 ≤ f.off := by
    intro f hf
    rw [List.map_append] at hf
    exact (List.mem_append.1 hf).elim (bistFields_off s _ f) (abortFields_off s m 5 f)
  have hkept : replaces ((bistFields s (test.val * 256 + 1) ++ abortFields s m 5).map (·.1))
      ((bistFields s (test.val * 256 + 1) ++ endKept s m test.val).map (·.1)) ((beginFields e test.val true).map (·.1)) = true := by
    unfold endKept
    split
    · next heq =>
      rw [heq]
      exact end_begin_same test.isLt
    · next hne => exact end_begin_other h8 test.isLt hne
  obtain ⟨hu, hg⟩ := testBegin_spec hboth hoff test.isLt true (bistFields s (test.val * 256 + 1) ++ endKept s m test.val)
    (fun p hp => (List.mem_append.1 hp).elim (List.mem_append_left _) fun k => List.mem_append_right _ (endKept_mem s m test.val p k)) hkept
  rw [beginFields_congr (hboth.get_below hoff (by decide))] at hg
  generalize e.testBegin test.val true = u at hu hg
  refine ⟨?_, hg⟩
  have hb : e.bist.begun test.val (s.partnerRuns 6) = s.bist.begun test.val (s.partnerRuns 6) := by rw [he]; rfl
  rw [partnerRuns_congr (s := s) (by rw [he]), hb] at hu
  exact hu.trans (congrArg (fun x : State => { x with regs := u.regs, bist := s.bist.begun test.val (s.partnerRuns 6) }) he)

theorem testStart_refused {s : State} {r : Req} {test : Fin 8} (h : s.steward r = true) (hw : s.testWhy test.val ≠ 0) :
    Sets (.testStart r test) s [(R.BIST.REASON.CODE, s.testWhy test.val)] := by
  have hx := testStart_exec s r test
  rw [command_refused h hw] at hx
  exact does_of_whilePowered hx fun _ => (OnlyFields.refl s).put R.BIST.REASON.CODE _ rfl

theorem testStart_ignored {s : State} {r : Req} {test : Fin 8} (h : s.steward r = false) : Ignored (.testStart r test) s := by
  rw [Ignored, testStart_exec, command_unmoved h, whilePowered_self]

end Sys2Proof.Machine
end

section
/-! PROOF. The self-test's slices (R369, R373, R374) and the frame-complete tokens that follow them (R38). -/

namespace Sys2Proof.Machine

/-! ### Tokens -/

/-- The tokens that leave after a slice, the last one first. -/
def State.tokenOut (s : State) : List Out := if s.mstate = .run then (s.tokenChs.map Out.token).reverse else []

/-- The supervision once the tokens have left. -/
def State.tokenSup (s : State) : SupSt := if s.mstate = .run then { s.sup with tokens := (s.tokenChs.map fun ch => 2 ^ chNum ch).sum } else s.sup

theorem foldl_send (l : List Ch) (s : State) : l.foldl (fun t ch => t.send (.token ch)) s = { s with out := (l.map Out.token).reverse ++ s.out } := by
  induction l generalizing s with
  | nil => rfl
  | cons ch l ih =>
    rw [List.foldl_cons, ih, List.map_cons, List.reverse_cons, List.append_assoc]
    rfl

/-- No two channels share a bit of the mask. -/
theorem maskOf_channels (p : Ch → Bool) : maskOf (([Ch.a, .b, .c].filter p).map chNum) = (([Ch.a, .b, .c].filter p).map fun ch => 2 ^ chNum ch).sum := by
  cases ha : p .a <;> cases hb : p .b <;> cases hc : p .c <;> simp only [List.filter, ha, hb, hc] <;> decide

theorem issueTokens_eq (s : State) : s.issueTokens = { s with out := s.tokenOut ++ s.out, sup := s.tokenSup } := by
  have hmask : maskOf (s.tokenChs.map chNum) = (s.tokenChs.map fun ch => 2 ^ chNum ch).sum := maskOf_channels s.executing
  unfold State.issueTokens State.tokenOut State.tokenSup
  split
  · dsimp only
    rw [foldl_send, hmask]
  · rfl

/-- The tokens are those of the channels that executed before the slice: no slice changes which do. -/
theorem tokens_congr {s u : State} {l : List (Fld × Nat)} (hf : FieldsSet s u l) (hoff : ∀ f ∈ l.map (·.1), 0x100000 ≤ f.off) (hsup : u.sup = s.sup) :
    u.tokenOut = s.tokenOut ∧ u.tokenSup = s.tokenSup := by
  have hm : u.mstate = s.mstate := mstate_congr (hf.get_below hoff (by decide))
  have hch : u.tokenChs = s.tokenChs := by
    have hexec : ∀ ch, u.executing ch = s.executing ch := fun ch => by
      rw [State.executing, State.included, State.bit, State.chst, hf.get_below hoff (f := R.VOTE.MODE.INCL) (by decide),
        hf.get_below hoff (f := R.VOTE.CHST.CH (chNum ch)) (by cases ch <;> decide)]
      rfl
    rw [State.tokenChs, State.tokenChs, funext hexec]
  rw [State.tokenOut, State.tokenSup, hm, hch, hsup, State.tokenOut, State.tokenSup]
  exact ⟨rfl, rfl⟩

/-! ### A slice and what follows it -/

theorem slice_closed {s : State} (h : s.sliceOpen = false) (matched : Bool) (failed item : Nat) : Ignored (.selfTestSlice matched failed item) s := by
  have hx : exec (.selfTestSlice matched failed item) s = s.whilePowered (if !s.sliceOpen then s
      else (s.testCheck.startAuto.runSlice matched failed item).issueTokens.set R.GONG.STATUS.PHASE 6) := rfl
  rw [h] at hx
  exact hx.trans (whilePowered_self s)

/-- From `s` to `t` a slice changed the self-test and wrote the fields `l` of its block. -/
def Sliced (s t : State) (spd : SpdSt) (b : BistSt) (l : List (Fld × Nat)) : Prop :=
  t = { s with regs := t.regs, spd := spd, bist := b } ∧ FieldsSet s t l ∧ ∀ f ∈ l.map (·.1), 0x100000 ≤ f.off

/-- The tokens and SLACK after what a slice does to the test. -/
theorem slice_taken {s : State} (h : s.sliceOpen = true) {matched : Bool} {failed item : Nat} {spd : SpdSt} {b : BistSt} {l : List (Fld × Nat)}
    (hs : Sliced s (s.testCheck.startAuto.runSlice matched failed item) spd b l) : Does (.selfTestSlice matched failed item) s fun t =>
      t = { s with regs := t.regs, out := s.tokenOut ++ s.out, sup := s.tokenSup, spd := spd, bist := b } ∧
      FieldsSet s t (l ++ [(R.GONG.STATUS.PHASE, 6)]) := by
  have hx : exec (.selfTestSlice matched failed item) s = s.whilePowered (if !s.sliceOpen then s
      else (s.testCheck.startAuto.runSlice matched failed item).issueTokens.set R.GONG.STATUS.PHASE 6) := rfl
  rw [h, Bool.not_true, if_neg Bool.false_ne_true, issueTokens_eq] at hx
  refine does_of_whilePowered hx fun _ => ?_
  generalize s.testCheck.startAuto.runSlice matched failed item = u at hs ⊢
  obtain ⟨hu, hf, hoff⟩ := hs
  obtain ⟨hout, hsup⟩ := tokens_congr hf hoff (by rw [hu])
  have huout : u.out = s.out := by rw [hu]
  rw [hout, hsup, huout]
  have hbeside : besides R.GONG.STATUS.PHASE l = true := besides_iff.2 ⟨rfl, fun p hp => by
    have hne : R.GONG.STATUS.PHASE.off ≠ p.1.off := (Nat.lt_of_lt_of_le (by decide) (hoff p.1 (List.mem_map_of_mem hp))).ne
    simp [Fld.apart, hne]⟩
  have hg : FieldsSet s { u with out := s.tokenOut ++ s.out, sup := s.tokenSup } l := hf.of_regs rfl
  refine ⟨?_, hg.put R.GONG.STATUS.PHASE 6 hbeside⟩
  generalize hw : ({ u with out := s.tokenOut ++ s.out, sup := s.tokenSup } : State) = w
  have hset : w.set R.GONG.STATUS.PHASE 6 = { w with regs := (w.set R.GONG.STATUS.PHASE 6).regs } := rfl
  generalize w.set R.GONG.STATUS.PHASE 6 = t at hset ⊢
  rw [← hw] at hset
  exact hset.trans (congrArg (fun x : State => { x with
    regs := t.regs
    out := s.tokenOut ++ s.out
    sup := s.tokenSup }) hu)

/-! ### Where no slice runs -/

/-- With AUTO empty no automatic test starts. -/
theorem startAuto_masked {s : State} (h : s.get R.BIST.AUTO.MASK = 0) : s.startAuto = s := by
  have hnone : s.nextAuto = none := by
    have hbit : ∀ n, s.bit R.BIST.AUTO.MASK n = false := fun n => by rw [State.bit, h]; simp
    simp [State.nextAuto, hbit]
  unfold State.startAuto
  rw [hnone, ite_self]

theorem startAuto_running {s : State} {m : Nat} (h : s.testRun = some m) : s.startAuto = s := by
  rw [State.startAuto, h]
  rfl

theorem runSlice_idle {s : State} (h : s.testRun = none) (matched : Bool) (failed item : Nat) :
    s.runSlice matched failed item = { s with bist := { s.bist with drove := [] } } := by
  rw [State.runSlice, h]

theorem sliced_idle {s : State} (hm : s.testRun = none) (h : s.get R.BIST.AUTO.MASK = 0) (matched : Bool) (failed item : Nat) :
    Sliced s (s.testCheck.startAuto.runSlice matched failed item) s.spd { s.bist with drove := [] } [] := by
  have hcheck : s.testCheck = s := by rw [State.testCheck, hm]
  rw [hcheck, startAuto_masked h, runSlice_idle hm]
  exact ⟨rfl, FieldsSet.of_regs (.refl s) rfl, nofun⟩

/-- A test that the check ends leaves the slice empty. -/
theorem sliced_ended {s : State} {m cause : Nat} (hm : s.testRun = some m) (hc : s.testCheck = s.testEnd cause) (h0 : cause ≠ 0)
    (h : s.get R.BIST.AUTO.MASK = 0) (matched : Bool) (failed item : Nat) :
    Sliced s (s.testCheck.startAuto.runSlice matched failed item) (s.spdAfter m) { s.bist with start := none, drove := [] } (abortFields s m cause) := by
  obtain ⟨-, -, h8⟩ := testRun_some hm
  obtain ⟨hu, hf⟩ := testEnd_abort (.refl s) hm h0
  rw [hc]
  generalize s.testEnd cause = u at hu hf ⊢
  have hstop : u.testRun = none := testRun_of_stopped (hf.1 (R.BIST.STATUS.RUN, 0) (by simp [abortFields]))
  have hmask : u.get R.BIST.AUTO.MASK = 0 := by
    have hall : ∀ m : Fin 8, besides R.BIST.AUTO.MASK ((([R.BIST.STATUS.RUN, R.BIST.STATUS.MANUAL] ++ resultFlds m ++ abortFlags.map (·.1))).map (·, 0)) =
      true := by decide
    have hbeside := (besides_iff.1 (hall ⟨m, h8⟩)).2
    refine (hf.2 R.BIST.AUTO.MASK fun p hp => hbeside (p.1, 0) (List.mem_map.2 ⟨p.1, ?_, rfl⟩)).trans h
    have hmap : (abortFields s m cause).map (·.1) = [R.BIST.STATUS.RUN, R.BIST.STATUS.MANUAL] ++ resultFlds m ++ abortFlags.map (·.1) := rfl
    rw [← hmap]
    exact List.mem_map_of_mem hp
  rw [startAuto_masked hmask, runSlice_idle hstop]
  refine ⟨?_, hf.of_regs rfl, abortFields_off s m cause⟩
  have hb : ({ u.bist with drove := [] } : BistSt) = { s.bist with start := none, drove := [] } := by rw [hu]
  rw [hb]
  exact congrArg (fun x : State => { x with
    regs := u.regs
    bist := { s.bist with start := none, drove := [] } }) hu

/-- GEYSER waits for the partner's test. -/
theorem sliced_waits {s : State} (hm : s.testRun = some 3) (hc : s.testCheck = s) (hp : s.partnerRuns 6 = false) (matched : Bool) (failed item : Nat) :
    Sliced s (s.testCheck.startAuto.runSlice matched failed item) s.spd { s.bist with start := none } [] := by
  have hrun : s.runSlice matched failed item = { s with bist := { s.bist with start := none } } := by
    rw [State.runSlice, hm]
    exact if_pos ⟨rfl, by rw [hp]; rfl⟩
  rw [hc, startAuto_running hm, hrun]
  exact ⟨rfl, FieldsSet.of_regs (.refl s) rfl, nofun⟩

/-! ### A slice that runs -/

/-- The self-test's own state after a slice that is not the last. -/
def BistSt.sliced (b : BistSt) (matched : Bool) (failed item : Nat) (drove : List SioDrive) (seen : Bool) : BistSt :=
  { b with
    start := none
    bad := b.bad || !matched || failed != 0
    failed := b.failed + failed
    item := if b.failed = 0 ∧ failed ≠ 0 then item else b.item
    drove := drove
    geyser := seen }

/-- Fields hold their values up to the fields' widths. -/
theorem FieldsSet.of_mod {s t : State} {l l' : List (Fld × Nat)} (h : FieldsSet s t l)
    (hl : l.map (fun p => (p.1, p.2 % 2 ^ p.1.w)) = l'.map fun p => (p.1, p.2 % 2 ^ p.1.w)) : FieldsSet s t l' := by
  constructor
  · intro p hp
    have hmem : (p.1, p.2 % 2 ^ p.1.w) ∈ l.map fun p => (p.1, p.2 % 2 ^ p.1.w) := hl ▸ List.mem_map_of_mem (f := fun p => (p.1, p.2 % 2 ^ p.1.w)) hp
    obtain ⟨q, hq, hqp⟩ := List.mem_map.1 hmem
    obtain ⟨hfst, hsnd⟩ := Prod.ext_iff.1 hqp
    dsimp only at hfst hsnd
    rw [← hfst, h.1 q hq, hsnd, hfst]
  · intro f hf
    refine h.2 f fun p hp => ?_
    have hmem : (p.1, p.2 % 2 ^ p.1.w) ∈ l'.map fun p => (p.1, p.2 % 2 ^ p.1.w) := hl ▸ List.mem_map_of_mem (f := fun p => (p.1, p.2 % 2 ^ p.1.w)) hp
    obtain ⟨q, hq, hqp⟩ := List.mem_map.1 hmem
    obtain ⟨hfst, -⟩ := Prod.ext_iff.1 hqp
    dsimp only at hfst
    rw [← hfst]
    exact hf q hq

/-- The fields that the last slice of test `m` writes, besides DONE. -/
def doneFields (m count : Nat) (b : BistSt) : List (Fld × Nat) :=
  [(R.BIST.STATUS.RUN, 0), (R.BIST.STATUS.MANUAL, 0), (R.BIST.RES.RESULT m, if b.bad then 3 else 2), (R.BIST.RES.PARTBAD m, 0), (R.BIST.RES.ABCAUSE m, 0),
    (R.BIST.RES.SLICES m, count), (R.BIST.DET.FAILCNT m, min b.failed 0xFFFF), (R.BIST.DET.ITEM m, b.item), (R.BIST.FLAG.DONE, 1)] ++
  if b.bad then [(R.BIST.FLAG.FAIL, 1)] else []

theorem testResults_done {s : State} {count : Nat} (hd : s.get R.BIST.PROG.DONE = count % 2 ^ 14) (m : Nat) :
    (s.testResults m 0).map (fun p => (p.1, p.2 % 2 ^ p.1.w)) = (doneFields m count s.bist).map fun p => (p.1, p.2 % 2 ^ p.1.w) := by
  have hslices : s.get R.BIST.PROG.DONE % 2 ^ (R.BIST.RES.SLICES m).w = count % 2 ^ (R.BIST.RES.SLICES m).w := by
    rw [hd]
    exact Nat.mod_mod ..
  rw [State.testResults, doneFields, State.testResult]
  cases hb : s.bist.bad
  · simp [hslices, b2n]
  · simp [hslices, b2n]

/-- The fields of the last slice of a test. -/
theorem doneFields_flds {m : Nat} (hm : m < 8) (count : Nat) (b : BistSt) :
    replaces [R.BIST.PROG.DONE] [R.BIST.PROG.DONE] ((doneFields m count b).map (·.1)) = true ∧ ∀ f ∈ (doneFields m count b).map (·.1), 0x100000 ≤ f.off := by
  have hall : ∀ m : Fin 8, let fs := [R.BIST.STATUS.RUN, R.BIST.STATUS.MANUAL, R.BIST.RES.RESULT m, R.BIST.RES.PARTBAD m, R.BIST.RES.ABCAUSE m,
        R.BIST.RES.SLICES m, R.BIST.DET.FAILCNT m, R.BIST.DET.ITEM m, R.BIST.FLAG.DONE]
      (replaces [R.BIST.PROG.DONE] [R.BIST.PROG.DONE] (fs ++ [R.BIST.FLAG.FAIL]) = true ∧ ∀ f ∈ fs ++ [R.BIST.FLAG.FAIL], 0x100000 ≤ f.off) ∧
      (replaces [R.BIST.PROG.DONE] [R.BIST.PROG.DONE] (fs ++ []) = true ∧ ∀ f ∈ fs ++ [], 0x100000 ≤ f.off) := by decide
  obtain ⟨hbad, hgood⟩ := hall ⟨m, hm⟩
  unfold doneFields
  cases b.bad
  exacts [hgood, hbad]

/-- DONE counts the slice; the last one ends the test. -/
theorem sliceRan_spec {s : State} {m : Nat} (hm : s.testRun = some m) :
    let count := s.get R.BIST.PROG.DONE + 1
    (count < s.get R.BIST.PROG.TOTAL → OnlyFields s s.sliceRan [(R.BIST.PROG.DONE, count)]) ∧
    (s.get R.BIST.PROG.TOTAL ≤ count →
      s.sliceRan = { s with regs := s.sliceRan.regs, spd := s.spdAfter m, bist := { s.bist with start := none, drove := [] } } ∧
      FieldsSet s s.sliceRan ([(R.BIST.PROG.DONE, count)] ++ doneFields m count s.bist)) := by
  intro count
  obtain ⟨-, -, h8⟩ := testRun_some hm
  have hf := (OnlyFields.refl s).put R.BIST.PROG.DONE count rfl
  have hdef : s.sliceRan = if decide (s.get R.BIST.PROG.TOTAL ≤ count) then (s.set R.BIST.PROG.DONE count).testEnd 0 else s.set R.BIST.PROG.DONE count := rfl
  rw [hdef]
  generalize s.set R.BIST.PROG.DONE count = c at hf ⊢
  refine ⟨fun hlt => ?_, fun hle => ?_⟩
  · rw [if_neg (by simpa using hlt)]
    exact hf
  · rw [if_pos (by simpa using hle)]
    obtain ⟨hu, hg⟩ := testEnd_spec (s := c) ((testRun_congr (hf.2.get_eq _ rfl) (hf.2.get_eq _ rfl)).trans hm) 0
    have hdone : c.get R.BIST.PROG.DONE = count % 2 ^ 14 := hf.2.1 (R.BIST.PROG.DONE, count) (List.mem_singleton_self _)
    have hbist : c.bist = s.bist := by rw [hf.1]
    have hspd : c.spdAfter m = s.spdAfter m := by rw [hf.1]; rfl
    replace hg := hg.of_mod (testResults_done hdone m)
    rw [hbist] at hg hu
    rw [hspd] at hu
    generalize c.testEnd 0 = u at hu hg ⊢
    exact ⟨hu.trans (congrArg (fun x : State => { x with
      regs := u.regs
      spd := s.spdAfter m
      bist := { s.bist with start := none, drove := [] } }) hf.1), hf.2.also hg (doneFields_flds h8 count s.bist).1⟩

/-- What a slice drives, as its test stood before it. -/
theorem sliceDrives_eq (s : State) (n : Nat) : s.sliceDrives n =
    if n = 5 then (List.range (s.pUs / 250)).map fun i => sioDrive (s.get R.BIST.PROG.DONE * (s.pUs / 250) + i) else [] := rfl

/-- A slice of the running test, GEYSER's only while the partner's runs. -/
theorem runSlice_spec {s : State} {m : Nat} (hm : s.testRun = some m) (hp : m = 3 → s.partnerRuns 6 = true) (matched : Bool) (failed item : Nat) :
    let count := s.get R.BIST.PROG.DONE + 1
    let b := s.bist.sliced matched failed item (s.sliceDrives m) s.bist.geyser
    (count < s.get R.BIST.PROG.TOTAL → Sliced s (s.runSlice matched failed item) s.spd b [(R.BIST.PROG.DONE, count)]) ∧
    (s.get R.BIST.PROG.TOTAL ≤ count →
      Sliced s (s.runSlice matched failed item) (s.spdAfter m) b ([(R.BIST.PROG.DONE, count)] ++ doneFields m count b)) := by
  intro count b
  obtain ⟨-, -, h8⟩ := testRun_some hm
  have hc : ¬ (m = 3 ∧ !s.partnerRuns 6) := fun ⟨h3, hn⟩ => by rw [hp h3] at hn; exact absurd hn (by decide)
  have hdef : s.runSlice matched failed item =
      { State.sliceRan { s with bist := s.bist.slice matched failed item } with
        bist := { (State.sliceRan { s with bist := s.bist.slice matched failed item }).bist with drove := s.sliceDrives m } } := by
    rw [State.runSlice, hm]
    exact if_neg hc
  have hdone : State.get { s with bist := s.bist.slice matched failed item } R.BIST.PROG.DONE = s.get R.BIST.PROG.DONE := get_congr rfl _
  have htotal : State.get { s with bist := s.bist.slice matched failed item } R.BIST.PROG.TOTAL = s.get R.BIST.PROG.TOTAL := get_congr rfl _
  obtain ⟨hmore, hlast⟩ := sliceRan_spec (s := { s with bist := s.bist.slice matched failed item })
    ((testRun_congr (get_congr rfl _) (get_congr rfl _)).trans hm)
  rw [hdone, htotal] at hmore hlast
  rw [hdef]
  generalize State.sliceRan _ = u at hmore hlast ⊢
  refine ⟨fun hlt => ?_, fun hle => ?_⟩
  · obtain ⟨hu, hf⟩ := hmore hlt
    have hb : ({ u.bist with drove := s.sliceDrives m } : BistSt) = b := by rw [hu]; rfl
    rw [hb]
    have hoff : ∀ f ∈ [R.BIST.PROG.DONE], 0x100000 ≤ f.off := by decide
    exact ⟨congrArg (fun x : State => { x with bist := b }) hu, (hf.of_base rfl).of_regs rfl, hoff⟩
  · obtain ⟨hu, hf⟩ := hlast hle
    have hb : ({ u.bist with drove := s.sliceDrives m } : BistSt) = b := by rw [hu]; rfl
    have hfields : doneFields m count (s.bist.slice matched failed item) = doneFields m count b := rfl
    rw [hb]
    have hoff : ∀ f ∈ ([(R.BIST.PROG.DONE, count)] ++ doneFields m count b).map (·.1), 0x100000 ≤ f.off := by
      intro f hf
      rcases List.mem_cons.1 hf with rfl | hf
      · exact show 0x100000 ≤ R.BIST.PROG.DONE.off by decide
      · exact (doneFields_flds h8 count b).2 f hf
    exact ⟨congrArg (fun x : State => { x with bist := b }) hu, ((hfields ▸ hf).of_base rfl).of_regs rfl, hoff⟩

/-- A slice after a check that only noted the partner's test. -/
theorem sliced_runs {s : State} {m : Nat} {seen : Bool} (hm : s.testRun = some m) (hp : m = 3 → s.partnerRuns 6 = true)
    (hc : s.testCheck = { s with bist := { s.bist with geyser := seen } }) (matched : Bool) (failed item : Nat) :
    let count := s.get R.BIST.PROG.DONE + 1
    let b := s.bist.sliced matched failed item (s.sliceDrives m) seen
    (count < s.get R.BIST.PROG.TOTAL →
      Sliced s (s.testCheck.startAuto.runSlice matched failed item) s.spd b [(R.BIST.PROG.DONE, count)]) ∧
    (s.get R.BIST.PROG.TOTAL ≤ count → Sliced s (s.testCheck.startAuto.runSlice matched failed item) (s.spdAfter m) b
      ([(R.BIST.PROG.DONE, count)] ++ doneFields m count b)) := by
  intro count b
  have hdone : s.testCheck.get R.BIST.PROG.DONE = s.get R.BIST.PROG.DONE := get_congr (by rw [hc]) _
  have htotal : s.testCheck.get R.BIST.PROG.TOTAL = s.get R.BIST.PROG.TOTAL := get_congr (by rw [hc]) _
  have hp6 : s.testCheck.partnerRuns 6 = s.partnerRuns 6 := partnerRuns_congr (by rw [hc]) 6
  have hrun : s.testCheck.testRun = some m := (testRun_congr (get_congr (by rw [hc]) _) (get_congr (by rw [hc]) _)).trans hm
  have hdrives : s.testCheck.sliceDrives m = s.sliceDrives m := by
    have hper : s.testCheck.pUs = s.pUs := by rw [State.pUs, State.pNs, get_congr (show s.testCheck.regs = s.regs by rw [hc]), State.pUs, State.pNs]
    rw [State.sliceDrives, hdone, hper, State.sliceDrives]
  have hb : s.testCheck.bist.sliced matched failed item (s.testCheck.sliceDrives m) s.testCheck.bist.geyser = b := by
    rw [hdrives, hc]
    rfl
  have hspd : s.testCheck.spdAfter m = s.spdAfter m := by rw [hc]; rfl
  rw [startAuto_running hrun]
  obtain ⟨hmore, hlast⟩ := runSlice_spec hrun (fun h3 => hp6.trans (hp h3)) matched failed item
  rw [hdone, htotal, hb] at hmore hlast
  rw [hspd] at hlast
  have hsp : s.testCheck.spd = s.spd := by rw [hc]
  rw [hsp] at hmore
  generalize s.testCheck.runSlice matched failed item = u at hmore hlast
  have hregs : s.testCheck.regs = s.regs := by rw [hc]
  refine ⟨fun hlt => ?_, fun hle => ?_⟩
  · obtain ⟨hu, hf, hoff⟩ := hmore hlt
    exact ⟨hu.trans (congrArg (fun x : State => { x with regs := u.regs, spd := s.spd, bist := b }) hc), hf.of_base hregs, hoff⟩
  · obtain ⟨hu, hf, hoff⟩ := hlast hle
    exact ⟨hu.trans (congrArg (fun x : State => { x with regs := u.regs, spd := s.spdAfter m, bist := b }) hc), hf.of_base hregs, hoff⟩

end Sys2Proof.Machine
end

section
/-! PROOF. Which test goes on (R371, R374), the life-cycle commands (R366 to R368), and a module without power (R383). -/

namespace Sys2Proof.Machine

/-! ### The check of the running test -/

/-- Only the tests that depend on the partner ask more of a test that runs than of one that starts. -/
theorem testPre_running (s : State) {m : Nat} (h3 : m ≠ 3) (h4 : m ≠ 4) : s.testPre m true = s.testPre m false := by
  unfold State.testPre
  split
  case h_1 => exact absurd rfl h3
  case h_2 => exact absurd rfl h4
  all_goals rfl

theorem testCause_two (s : State) {m : Nat} (h3 : m ≠ 3) (h4 : m ≠ 4) : s.testCause m = 2 := by
  unfold State.testCause
  split
  · rfl
  · split
    case h_1 => exact absurd rfl h3
    case h_2 => exact absurd rfl h4
    case h_3 => rfl

theorem testCheck_running {s : State} {m : Nat} (hm : s.testRun = some m) :
    s.testCheck = if s.testKind m && s.testPre m true then s.noteGeyser else s.testEnd (s.testCause m) := by
  rw [State.testCheck, hm]

/-- A test that is no longer reachable ends with cause 2. -/
theorem testCheck_lost {s : State} {m : Nat} (hm : s.testRun = some m) (h3 : m ≠ 3) (h4 : m ≠ 4)
    (h : s.testKind m = false ∨ s.testPre m false = false) : s.testCheck = s.testEnd 2 := by
  have hc : (s.testKind m && s.testPre m false) = false := by
    rcases h with h | h
    · rw [h, Bool.false_and]
    · rw [h, Bool.and_false]
  rw [testCheck_running hm, testPre_running s h3 h4, hc, testCause_two s h3 h4]
  rfl

/-- A reachable test that does not depend on the partner goes on. -/
theorem testCheck_kept {s : State} {m : Nat} (hm : s.testRun = some m) (h3 : m ≠ 3) (h4 : m ≠ 4) (hk : s.testKind m = true)
    (hp : s.testPre m false = true) : s.testCheck = s := by
  have hnote : s.noteGeyser = s := by
    rw [State.noteGeyser, hm, if_neg fun h => h3 (Option.some.inj h.1)]
  rw [testCheck_running hm, testPre_running s h3 h4, hk, hp, Bool.and_self, if_pos rfl, hnote]

/-- GEYSER's precondition for a slice, where it may start. -/
theorem testPre_geyser {s : State} (hp : s.testPre 3 false = true) :
    (s.role = .fenced || s.mstate = .safe) = true ∧ s.testPre 3 true = (!s.bist.geyser || s.partnerRuns 6) := by
  have hstart : (s.role = .fenced || s.mstate = .safe) = true := by
    simpa [State.testPre] using hp
  refine ⟨hstart, ?_⟩
  show ((s.role = .fenced || s.mstate = .safe) && (!true || !s.bist.geyser || s.partnerRuns 6)) = _
  rw [hstart, Bool.not_true, Bool.false_or, Bool.true_and]

theorem noteGeyser_heard {s : State} (hm : s.testRun = some 3) (hp : s.partnerRuns 6 = true) :
    s.noteGeyser = { s with bist := { s.bist with geyser := true } } := if_pos ⟨hm, hp⟩

/-- GEYSER while the partner's test is heard. -/
theorem testCheck_heard {s : State} (hm : s.testRun = some 3) (hk : s.testKind 3 = true) (hpre : s.testPre 3 false = true)
    (hp : s.partnerRuns 6 = true) : s.testCheck = { s with bist := { s.bist with geyser := true } } := by
  rw [testCheck_running hm, hk, (testPre_geyser hpre).2, hp, Bool.or_true, Bool.and_self, if_pos rfl, noteGeyser_heard hm hp]

/-- GEYSER before the partner's test was heard. -/
theorem testCheck_waits {s : State} (hm : s.testRun = some 3) (hk : s.testKind 3 = true) (hpre : s.testPre 3 false = true)
    (hp : s.partnerRuns 6 = false) (hg : s.bist.geyser = false) : s.testCheck = s := by
  have hnote : s.noteGeyser = s := if_neg fun h => by rw [hp] at h; exact absurd h.2 (by decide)
  rw [testCheck_running hm, hk, (testPre_geyser hpre).2, hg, Bool.not_false, Bool.true_or, Bool.and_self, if_pos rfl, hnote]

/-- GEYSER where the partner's test was heard and is heard no longer. -/
theorem testCheck_alone {s : State} (hm : s.testRun = some 3) (hk : s.testKind 3 = true) (hpre : s.testPre 3 false = true)
    (hp : s.partnerRuns 6 = false) (hg : s.bist.geyser = true) : s.testCheck = s.testEnd 4 := by
  obtain ⟨hstart, hrun⟩ := testPre_geyser hpre
  have hcause : s.testCause 3 = 4 := by
    rw [State.testCause, hk]
    exact if_pos hstart
  rw [testCheck_running hm, hk, hrun, hg, hp, hcause]
  rfl

/-! ### Life-cycle commands -/

/-- The outcome of a life-cycle command. -/
def State.lcWhy (s : State) (from' : List Nat) (strong : Bool) (more : List (Nat × Bool)) : Nat :=
  firstReason ([(8, s.bist.lcNew.isSome), (2, !from'.contains s.lcs), (3, s.session.isNone || (strong && s.session = some .owner))] ++ more)

/-- What a life-cycle command does once accepted: it waits for the tick, or acts at once where none comes. -/
def State.lcAccept (to' : Nat) (t : State) : State :=
  if t.gong.ticking then { t with bist := { t.bist with lcNew := some to' } } else State.lcTick { t with bist := { t.bist with lcNew := some to' } }

theorem lcCommand_eq (s : State) (r : Req) (v : Nat) (from' : List Nat) (to' : Nat) (strong : Bool) (more : List (Nat × Bool)) :
    s.lcCommand r v from' to' strong more =
      s.command r R.BIST.LCCMD.all R.BIST.LCCNT.COUNT R.BIST.LCREASON.CODE v (s.lcWhy from' strong more) (State.lcAccept to') := by
  unfold State.lcCommand State.lcWhy
  cases hs : s.session with
  | none => rfl
  | some k => cases k <;> cases strong <;> rfl

/-- A life-cycle command in a module without tick edges. -/
theorem lcAccept_stopped {t : State} (h : t.gong.ticking = false) (to' : Nat) :
    LifeChanged { t with bist := { t.bist with lcNew := some to' } } (t.lcAccept to') to' := by
  have hdef : t.lcAccept to' = State.lcTick { t with bist := { t.bist with lcNew := some to' } } := by rw [State.lcAccept, h]; rfl
  rw [hdef]
  have hgong : ({ t with bist := { t.bist with lcNew := some to' } } : State).gong.ticking = false := h
  have hnew : ({ t with bist := { t.bist with lcNew := some to' } } : State).bist.lcNew = some to' := rfl
  generalize ({ t with bist := { t.bist with lcNew := some to' } } : State) = w at hgong hnew ⊢
  obtain ⟨hu, hf⟩ := lcShown_spec w to'
  rw [lcTick_eq hnew, hgong, if_neg (by decide)]
  generalize w.lcShown to' = u at hu hf ⊢
  exact lcRest_changed (hf.1 (R.BIST.LCS.STATE, to') (by simp)) (hf.1 (R.BIST.FLAG.LCCHG, 1) (by simp)) (by rw [hu]) (by rw [hu])

/-- A life-cycle command is judged, and waits for the tick or acts. -/
theorem lifeCommand_spec {c : Instr} {s : State} {r : Req} {v : Nat} {from' : List Nat} {to' : Nat} {strong : Bool} {more : List (Nat × Bool)}
    (hc : exec c s = s.whilePowered (s.lcCommand r v from' to' strong more)) (hto : to' < 8) :
    (s.steward r = false → Ignored c s) ∧
    (s.steward r = true → s.lcWhy from' strong more ≠ 0 → Sets c s [(R.BIST.LCREASON.CODE, s.lcWhy from' strong more)]) ∧
    (s.steward r = true → s.lcWhy from' strong more = 0 → s.gong.ticking = true → Does c s fun t =>
      t = { s with regs := t.regs, bist := { s.bist with lcNew := some to' } } ∧
      FieldsSet s t [(R.BIST.LCREASON.CODE, 0), (R.BIST.LCCMD.all, v), (R.BIST.LCCNT.COUNT, s.get R.BIST.LCCNT.COUNT + 1)]) ∧
    (s.steward r = true → s.lcWhy from' strong more = 0 → s.gong.ticking = false → Does c s fun t =>
      t.get R.BIST.LCS.STATE = to' ∧ t.get R.BIST.FLAG.LCCHG = 1 ∧ t.get R.CFG.EXPERT.UNLK = 0 ∧ t.bist.lcNew = none ∧
      (to' = 4 → t.upd.idKey = false) ∧ (to' ≠ 4 → s.get R.BIST.LCS.STATE ≠ 0 → t.upd.idKey = s.upd.idKey)) := by
  rw [lcCommand_eq] at hc
  refine ⟨fun hr => ?_, fun hr hw => ?_, fun hr hw ht => ?_, fun hr hw ht => ?_⟩
  · rw [Ignored, hc, command_unmoved hr, whilePowered_self]
  · rw [command_refused hr hw] at hc
    exact does_of_whilePowered hc fun _ => (OnlyFields.refl s).put R.BIST.LCREASON.CODE _ rfl
  · rw [command_accepted hr hw] at hc
    refine does_of_whilePowered hc fun _ => ?_
    obtain ⟨hu, hf⟩ := command_fields s R.BIST.LCCMD.all R.BIST.LCCNT.COUNT R.BIST.LCREASON.CODE v rfl rfl rfl
    generalize ((s.set R.BIST.LCREASON.CODE 0).set R.BIST.LCCMD.all v).inc R.BIST.LCCNT.COUNT = u at hu hf ⊢
    have hgong : u.gong.ticking = true := by rw [hu]; exact ht
    have hbist : u.bist = s.bist := by rw [hu]
    rw [State.lcAccept, if_pos hgong, hbist]
    exact ⟨congrArg (fun x : State => { x with bist := { s.bist with lcNew := some to' } }) hu, hf.of_regs rfl⟩
  · rw [command_accepted hr hw] at hc
    refine does_of_whilePowered hc fun _ => ?_
    obtain ⟨hu, hf⟩ := command_fields s R.BIST.LCCMD.all R.BIST.LCCNT.COUNT R.BIST.LCREASON.CODE v rfl rfl rfl
    generalize ((s.set R.BIST.LCREASON.CODE 0).set R.BIST.LCCMD.all v).inc R.BIST.LCCNT.COUNT = u at hu hf ⊢
    have hgong : u.gong.ticking = false := by rw [hu]; exact ht
    have hupd : u.upd = s.upd := by rw [hu]
    have hlcs : State.lcs { u with bist := { u.bist with lcNew := some to' } } = s.get R.BIST.LCS.STATE :=
      (get_congr rfl R.BIST.LCS.STATE).trans (hf.get_eq R.BIST.LCS.STATE rfl)
    have hlife := lcAccept_stopped hgong to'
    have hkey := hlife.key
    rw [hlcs] at hkey
    refine ⟨hlife.lcs.trans (Nat.mod_eq_of_lt hto), hlife.flag, hlife.unlk, hlife.lcNew, fun h4 => ?_, fun h4 h0 => ?_⟩
    · rw [hkey, if_pos h4]
    · rw [hkey, if_neg h4, if_neg h0]
      exact congrArg UpdSt.idKey hupd

/-! ### A module without power -/

theorem ignored_unpowered {c : Instr} {s t : State} (h : s.sup.powered = false) (hx : exec c s = s.whilePowered t) : Ignored c s := by
  rw [Ignored, hx, State.whilePowered, h]
  rfl

theorem steward_unpowered {s : State} (h : s.sup.powered = false) (r : Req) : s.steward r = false := by
  rw [State.steward, h]
  rfl

/-- A write to a _HI register is no steward's. -/
theorem hiRegisterWrite_unpowered {s : State} (h : s.sup.powered = false) (r : Req) (off : Nat) (v : W32) : Ignored (.hiRegisterWrite r off v) s := by
  have hc : (!s.steward r || decide (off < 4) || !isPairLo (off - 4)) = true := by rw [steward_unpowered h]; rfl
  exact if_pos hc

/-- A register takes a write from a program or a steward only. -/
theorem registerWrite_unpowered {s : State} (h : s.sup.powered = false) (r : Req) (off : Nat) (v : W32) : Ignored (.registerWrite r off v) s := by
  have hnot (r : Req) : (if s.steward r then s.stewardWrite r off v else .next s) = .next s := by rw [steward_unpowered h]; rfl
  unfold Ignored
  show execRegisterWrite r off v s = .next s
  unfold execRegisterWrite
  split
  · rfl
  · cases r with
    | eng e =>
      show s.whilePowered _ = .next s
      rw [State.whilePowered, h]
      rfl
    | st0 => exact hnot _
    | st1 => exact hnot _
    | maint => exact hnot _

/-- Without power only the supply's return and Solfatara's own operation act. -/
theorem unpowered_ignores {s : State} (h : s.sup.powered = false) (c : Instr) (hform : osrusForm c = none)
    (hvalid : ∀ a b, c ≠ .powerInputValid a b) (hcut : ∀ a b d, c ≠ .retainBufferCutoff a b d) : Ignored c s := by
  cases c
  case powerInputValid a b => exact absurd rfl (hvalid a b)
  case retainBufferCutoff a b d => exact absurd rfl (hcut a b d)
  case hiRegisterWrite r off v => exact hiRegisterWrite_unpowered h r off v
  case registerWrite r off v => exact registerWrite_unpowered h r off v
  all_goals try exact absurd hform (Option.some_ne_none _)
  all_goals exact ignored_unpowered h rfl

end Sys2Proof.Machine
end

section
/-! PROOF. The stimuli of SIOLOOP (Table 17-6): where its steps begin, and what they drive. How many units each step takes is left open. -/

namespace Sys2Proof.Machine

/-! ### Where the steps begin -/

/-- There is room for `n` steps from `k` on between `b` and `hi`, one unit each, and step 2 may begin with unit 4. -/
structure SioRoom (hi k b n : Nat) : Prop where
  units : b + n ≤ hi
  second : k ≤ 1 → 4 + n ≤ hi

/-- The unit with which the next step begins, where `n` steps follow. -/
def sioNext (hi k b n : Nat) : Nat := b + sioLeast k b + Config.sioExtra k % (hi - b - n - sioLeast k b + 1)

theorem sioStarts_succ (hi k b n : Nat) : sioStarts hi k b (n + 1) = b :: sioStarts hi (k + 1) (sioNext hi k b n) n := rfl

theorem sioNext_gt (hi k b n : Nat) : b < sioNext hi k b n := by
  have hleast : 1 ≤ sioLeast k b := by
    unfold sioLeast
    split
    · exact Nat.le_max_left ..
    · exact Nat.le_refl 1
  unfold sioNext
  omega

theorem SioRoom.next {hi k b n : Nat} (h : SioRoom hi k b (n + 1)) : SioRoom hi (k + 1) (sioNext hi k b n) n := by
  obtain ⟨hunits, hsecond⟩ := h
  refine ⟨?_, fun hk => ?_⟩
  · have hleast : b + sioLeast k b + n ≤ hi := by
      unfold sioLeast
      split
      · next h1 =>
        have := hsecond h1.le
        omega
      · omega
    have hmod := Nat.mod_lt (Config.sioExtra k) (show 0 < hi - b - n - sioLeast k b + 1 from Nat.succ_pos _)
    unfold sioNext
    omega
  · have := hsecond (Nat.le_of_succ_le hk)
    omega

/-- The steps begin one after the other, from `b` on and before `hi`. -/
theorem sioStarts_spec {hi k b n : Nat} (h : SioRoom hi k b n) :
    (sioStarts hi k b n).length = n ∧ (sioStarts hi k b n).Pairwise (· < ·) ∧ ∀ x ∈ sioStarts hi k b n, b ≤ x ∧ x < hi := by
  induction n generalizing k b with
  | zero => exact ⟨rfl, .nil, nofun⟩
  | succ n ih =>
    obtain ⟨hlen, hsorted, hbounds⟩ := ih h.next
    have hgt := sioNext_gt hi k b n
    rw [sioStarts_succ]
    refine ⟨congrArg (· + 1) hlen, .cons (fun x hx => Nat.lt_of_lt_of_le hgt (hbounds x hx).1) hsorted, fun x hx => ?_⟩
    rcases List.mem_cons.1 hx with rfl | hx
    · have := h.units
      omega
    · obtain ⟨hlow, hhigh⟩ := hbounds x hx
      omega

/-! ### Both halves of the test -/

/-- The steps of the first 312 slices at 1 ms. -/
def sioFirst : List Nat := sioStarts 1248 0 0 20

/-- The steps after them. -/
def sioSecond : List Nat := sioStarts 2000 20 1248 60

theorem sioFirst_spec : sioFirst.length = 20 ∧ sioFirst.Pairwise (· < ·) ∧ ∀ x ∈ sioFirst, 0 ≤ x ∧ x < 1248 :=
  sioStarts_spec ⟨by decide, fun _ => by decide⟩

theorem sioSecond_spec : sioSecond.length = 60 ∧ sioSecond.Pairwise (· < ·) ∧ ∀ x ∈ sioSecond, 1248 ≤ x ∧ x < 2000 :=
  sioStarts_spec ⟨by decide, fun _ => by decide⟩

/-- The steps that have begun with unit `u` or before it. -/
def sioBegun (u : Nat) : Nat := ((sioFirst ++ sioSecond).filter fun b => decide (b ≤ u)).length

theorem sioDrive_eq (u : Nat) : sioDrive u = sioStep (sioBegun u - 1) := rfl

theorem sioBegun_split (u : Nat) :
    sioBegun u = (sioFirst.filter fun b => decide (b ≤ u)).length + (sioSecond.filter fun b => decide (b ≤ u)).length := by
  rw [sioBegun, List.filter_append, List.length_append]

theorem sioFirst_zero (u : Nat) : 1 ≤ (sioFirst.filter fun b => decide (b ≤ u)).length :=
  List.length_pos_of_mem (List.mem_filter.2 ⟨(List.mem_cons_self .. : 0 ∈ 0 :: _), decide_eq_true (Nat.zero_le u)⟩)

theorem sioSecond_none {u : Nat} (h : u < 1248) : (sioSecond.filter fun b => decide (b ≤ u)).length = 0 := by
  rw [List.length_eq_zero_iff, List.filter_eq_nil_iff]
  intro x hx
  have := (sioSecond_spec.2.2 x hx).1
  simp only [decide_eq_true_eq]
  omega

/-- In the first 1,248 units one of the first 20 steps runs. -/
theorem sioBegun_first {u : Nat} (h : u < 1248) : 1 ≤ sioBegun u ∧ sioBegun u ≤ 20 := by
  rw [sioBegun_split, sioSecond_none h]
  refine ⟨sioFirst_zero u, ?_⟩
  exact (List.length_filter_le ..).trans sioFirst_spec.1.le

/-- In the first four units only the first two. -/
theorem sioBegun_four {u : Nat} (h : u < 4) : 1 ≤ sioBegun u ∧ sioBegun u ≤ 2 := by
  rw [sioBegun_split, sioSecond_none (by omega)]
  refine ⟨sioFirst_zero u, ?_⟩
  have hroom : SioRoom 1248 0 0 20 := ⟨by decide, fun _ => by decide⟩
  obtain ⟨-, -, hbounds⟩ := sioStarts_spec hroom.next.next
  have hthird : 4 ≤ sioNext 1248 1 (sioNext 1248 0 0 19) 18 := by
    generalize sioNext 1248 0 0 19 = b
    have hleast : 4 ≤ b + sioLeast 1 b := by
      rw [sioLeast, if_pos rfl]
      omega
    unfold sioNext
    omega
  have hrest : (sioStarts 1248 2 (sioNext 1248 1 (sioNext 1248 0 0 19) 18) 18).filter (fun b => decide (b ≤ u)) = [] := by
    rw [List.filter_eq_nil_iff]
    intro x hx
    have hx4 := hthird.trans (hbounds x hx).1
    simp only [decide_eq_true_eq]
    omega
  have hlist : sioFirst = [0, sioNext 1248 0 0 19] ++ sioStarts 1248 2 (sioNext 1248 1 (sioNext 1248 0 0 19) 18) 18 := by
    rw [sioFirst, sioStarts_succ, sioStarts_succ]
    rfl
  rw [hlist, List.filter_append, hrest, List.append_nil]
  exact List.length_filter_le ..

/-- After 1,248 units the first 20 steps are over. -/
theorem sioBegun_second {u : Nat} (h : 1248 ≤ u) : 21 ≤ sioBegun u := by
  rw [sioBegun_split]
  have hall : sioFirst.filter (fun b => decide (b ≤ u)) = sioFirst := by
    rw [List.filter_eq_self]
    intro x hx
    have := (sioFirst_spec.2.2 x hx).2
    simp only [decide_eq_true_eq]
    omega
  have hone : 1 ≤ (sioSecond.filter fun b => decide (b ≤ u)).length :=
    List.length_pos_of_mem (List.mem_filter.2 ⟨(List.mem_cons_self .. : 1248 ∈ 1248 :: _), decide_eq_true h⟩)
  rw [hall, sioFirst_spec.1]
  omega

/-- In a rising list, as many elements as stand up to one of them are not above it. -/
theorem filter_le_getElem {l : List Nat} (h : l.Pairwise (· < ·)) {k : Nat} (hk : k < l.length) : (l.filter fun b => decide (b ≤ l[k])).length = k + 1 := by
  have hlow : (l.take (k + 1)).filter (fun b => decide (b ≤ l[k])) = l.take (k + 1) := by
    rw [List.filter_eq_self]
    intro x hx
    obtain ⟨i, hi, rfl⟩ := List.getElem_of_mem hx
    rw [List.length_take] at hi
    rw [List.getElem_take, decide_eq_true_eq]
    rcases Nat.lt_or_ge i k with hlt | hge
    · exact (List.pairwise_iff_getElem.1 h i k (by omega) hk hlt).le
    · obtain rfl : i = k := by omega
      exact Nat.le_refl _
  have hhigh : (l.drop (k + 1)).filter (fun b => decide (b ≤ l[k])) = [] := by
    rw [List.filter_eq_nil_iff]
    intro x hx
    obtain ⟨i, hi, rfl⟩ := List.getElem_of_mem hx
    rw [List.length_drop] at hi
    rw [List.getElem_drop, decide_eq_true_eq, Nat.not_le]
    exact List.pairwise_iff_getElem.1 h k (k + 1 + i) hk (by omega) (by omega)
  calc (l.filter fun b => decide (b ≤ l[k])).length
      = ((l.take (k + 1) ++ l.drop (k + 1)).filter fun b => decide (b ≤ l[k])).length := by rw [List.take_append_drop]
    _ = (l.take (k + 1)).length := by rw [List.filter_append, hlow, hhigh, List.append_nil]
    _ = k + 1 := by rw [List.length_take, Nat.min_eq_left hk]

/-- Every one of the 80 steps has its units. -/
theorem sioStep_driven {k : Nat} (hk : k < 80) : ∃ u, u < 2000 ∧ sioDrive u = sioStep k := by
  obtain ⟨hlen1, hsort1, hb1⟩ := sioFirst_spec
  obtain ⟨hlen2, hsort2, hb2⟩ := sioSecond_spec
  have hsorted : (sioFirst ++ sioSecond).Pairwise (· < ·) :=
    List.pairwise_append.2 ⟨hsort1, hsort2, fun x hx y hy => Nat.lt_of_lt_of_le (hb1 x hx).2 (hb2 y hy).1⟩
  have hlen : (sioFirst ++ sioSecond).length = 80 := by rw [List.length_append, hlen1, hlen2]
  have hk' : k < (sioFirst ++ sioSecond).length := hlen ▸ hk
  refine ⟨(sioFirst ++ sioSecond)[k], ?_, ?_⟩
  · rcases List.mem_append.1 (List.getElem_mem hk') with h | h
    · exact Nat.lt_trans (hb1 _ h).2 (by decide)
    · exact (hb2 _ h).2
  · rw [sioDrive_eq, sioBegun, filter_le_getElem hsorted hk', Nat.add_sub_cancel]

/-! ### What they drive -/

theorem sioStep_switch {k : Nat} (h : k < 32) : sioStep k = .switch (Fin.ofNat 8 (k / 4)) (k / 2 % 2 = 1) (k % 2 = 0) := by
  rw [sioStep, if_pos h]

/-- Units 0 to 3 drive SO0 HS. -/
theorem sioDrive_four {u : Nat} (h : u < 4) : ∃ close, sioDrive u = .switch 0 false close := by
  obtain ⟨hlow, hhigh⟩ := sioBegun_four h
  rw [sioDrive_eq]
  obtain h0 | h1 : sioBegun u - 1 = 0 ∨ sioBegun u - 1 = 1 := by omega
  · exact ⟨true, by rw [h0]; rfl⟩
  · exact ⟨false, by rw [h1]; rfl⟩

/-- The first 1,248 units drive switches of SO0 to SO4. -/
theorem sioDrive_first {u : Nat} (h : u < 1248) : ∃ o ls close, sioDrive u = .switch o ls close ∧ o.val < 5 := by
  obtain ⟨hlow, hhigh⟩ := sioBegun_first h
  rw [sioDrive_eq, sioStep_switch (by omega)]
  refine ⟨_, _, _, rfl, ?_⟩
  rw [Fin.val_ofNat]
  omega

/-- Later units drive no switch of these. -/
theorem sioDrive_second {u : Nat} (h : 1248 ≤ u) {o : Fin 8} {ls close : Bool} (hd : sioDrive u = .switch o ls close) : 5 ≤ o.val := by
  have hbegun := sioBegun_second h
  rw [sioDrive_eq, sioStep] at hd
  split at hd
  · injection hd with ho
    rw [← ho, Fin.val_ofNat]
    omega
  · cases hd

/-- Every switch is closed and opened. -/
theorem sioDrive_switch (o : Fin 8) (ls close : Bool) : ∃ u, u < 2000 ∧ sioDrive u = .switch o ls close := by
  have hstep : ∀ (o : Fin 8) (ls close : Bool), 4 * o.val + 2 * b2n ls + b2n (!close) < 80 ∧
      sioStep (4 * o.val + 2 * b2n ls + b2n (!close)) = .switch o ls close := by decide
  obtain ⟨hlt, hdrive⟩ := hstep o ls close
  rw [← hdrive]
  exact sioStep_driven hlt

/-- Every input is driven at every level. -/
theorem sioDrive_source (i : Fin 16) (level : Fin 3) : ∃ u, u < 2000 ∧ sioDrive u = .source i level := by
  have hstep : ∀ (i : Fin 16) (level : Fin 3), 32 + 3 * i.val + level.val < 80 ∧ sioStep (32 + 3 * i.val + level.val) = .source i level := by decide
  obtain ⟨hlt, hdrive⟩ := hstep i level
  rw [← hdrive]
  exact sioStep_driven hlt

end Sys2Proof.Machine
end

section
/-! PROOF. Power failure, restarts, self-tests and life-cycle commands as the obligation lists them (R360 to R375). -/

namespace Sys2Proof.Machine

/-! ### The tests' conditions, written out -/

/-- What START asks of a test beside the life-cycle state (Table 17-3). -/
theorem testPre_start (s : State) : s.testPre 3 false = (s.role = .fenced || s.mstate = .safe) ∧
    s.testPre 4 false = (s.get R.BRG.STATUS.HOLD = 0 && (match s.partner with
      | some h => h.role != .alone && h.role != .active && h.flags.toNat / 32 % 2 = 0
      | none => true)) := by
  constructor
  · simp [State.testPre]
  · unfold State.testPre
    cases s.partner with
    | none => rfl
    | some h => simp

theorem sliceOpen_eq (s : State) : s.sliceOpen = if s.mstate = .run then decide (s.get R.GONG.STATUS.PHASE = 4)
    else if s.mstate ≠ .boot then s.gong.ticking && s.get R.GONG.STATUS.PHASE != 6 else false := by
  unfold State.sliceOpen
  cases s.mstate <;> rfl

theorem testWhy_eq (s : State) (n : Nat) : s.testWhy n = firstReason [(2, s.mstate = .boot || s.mstate = .recovery), (3, !s.testKind n),
    (4, !s.testPre n false), (5, s.get R.BIST.STATUS.RUN = 1 && s.get R.BIST.STATUS.MANUAL = 1)] := by
  have hrun : s.testRun.isSome = decide (s.get R.BIST.STATUS.RUN = 1) := by
    rcases run_stopped_or_running s with h | h
    · rw [testRun_of_stopped h, h]
      rfl
    · rw [testRun_of_running h, h]
      rfl
  rw [State.testWhy, hrun]

/-! ### What START leaves, in the order of the obligation -/

theorem Begun.frame {s t : State} {n : Nat} {spd : SpdSt} {more : List (Fld × Nat)} (h : Begun s t n spd more) :
    t = { s with
      regs := t.regs
      spd := spd
      bist := { s.bist with start := some n, bad := false, failed := 0, item := 0, drove := [], geyser := t.bist.geyser } } ∧
      t.bist.geyser = s.partnerRuns 6 := by
  have hg : t.bist.geyser = s.partnerRuns 6 := by rw [h.1]; rfl
  rw [hg]
  exact ⟨h.1, rfl⟩

theorem Begun.fields {s t : State} {n : Nat} {spd : SpdSt} {more : List (Fld × Nat)} (h : Begun s t n spd more) :
    FieldsSet s t (bistFields s (256 * n + 1) ++ beginFields s n true ++ lostFields s n ++ more) := by
  refine (Nat.mul_comm n 256 ▸ h.2 : FieldsSet s t (bistFields s (256 * n + 1) ++ more ++ beginFields s n true ++ lostFields s n)).reorder ?_
  simp only [List.append_assoc]
  refine List.Perm.append_left _ ?_
  rw [← List.append_assoc (beginFields s n true)]
  exact List.perm_append_comm

/-! ### A slice, in the order of the obligation -/

/-- Of a check that lets the test go on, only that the partner's was heard stays. -/
theorem testCheck_goesOn {s : State} {m : Nat} (hm : s.testRun = some m) (h : m = 3 ∧ s.partnerRuns 6 = true ∨ m ≠ 3 ∧ m ≠ 4)
    (hk : s.testKind m = true) (hp : s.testPre m false = true) :
    s.testCheck = { s with bist := { s.bist with geyser := s.bist.geyser || decide (m = 3) } } := by
  rcases h with ⟨rfl, hheard⟩ | ⟨h3, h4⟩
  · rw [testCheck_heard hm hk hp hheard, decide_eq_true rfl, Bool.or_true]
  · rw [testCheck_kept hm h3 h4 hk hp, decide_eq_false h3, Bool.or_false]

/-- A slice of a test that goes on. -/
theorem slice_runs {s : State} {m : Nat} (hopen : s.sliceOpen = true) (hm : s.testRun = some m)
    (h : m = 3 ∧ s.partnerRuns 6 = true ∨ m ≠ 3 ∧ m ≠ 4) (hk : s.testKind m = true) (hp : s.testPre m false = true)
    (matched : Bool) (failed item : Nat) :
    let count := s.get R.BIST.PROG.DONE + 1
    let b := s.bist.sliced matched failed item (s.sliceDrives m) (s.bist.geyser || decide (m = 3))
    let ran (spd : SpdSt) (more : List (Fld × Nat)) : Prop := Does (.selfTestSlice matched failed item) s fun t =>
      t = { s with regs := t.regs, out := s.tokenOut ++ s.out, sup := s.tokenSup, spd := spd, bist := b } ∧
      FieldsSet s t ([(R.BIST.PROG.DONE, count), (R.GONG.STATUS.PHASE, 6)] ++ more)
    (count < s.get R.BIST.PROG.TOTAL → ran s.spd []) ∧ (s.get R.BIST.PROG.TOTAL ≤ count → ran (s.spdAfter m) (doneFields m count b)) := by
  intro count b ran
  have hheard : m = 3 → s.partnerRuns 6 = true := fun h3 => h.elim (·.2) fun hne => absurd h3 hne.1
  obtain ⟨hmore, hlast⟩ := sliced_runs hm hheard (testCheck_goesOn hm h hk hp) matched failed item
  exact ⟨fun hlt => slice_taken hopen (hmore hlt), fun hle => does_imp (slice_taken hopen (hlast hle)) fun t ht =>
    ⟨ht.1, ht.2.reorder (List.Perm.cons _ List.perm_append_comm)⟩⟩

/-- Settles O59: power failure, restarts, self-tests and life-cycle commands follow their rules. -/
theorem powerTestsAndLifeCycleFollowTheirRules : Obligations.PowerTestsAndLifeCycleFollowTheirRules := by
  intro s r mv test matched failed item confirm up lcs depot down off judged idle why n partner heard quiet kind pre running m units slices start
    startWhy results ended stopped lost anew begins slice count bad first phase opens issue tokens sup' driven runs late life notDown
  have hheard : heard ↔ s.partnerRuns 6 = true := (partnerRuns_iff s 6).symm
  have hkind : ∀ n, kind n = s.testKind n := fun _ => rfl
  have hpre : ∀ n, pre n = s.testPre n false := fun n => by
    match n with
    | 3 => exact (testPre_start s).1.symm
    | 4 => exact (testPre_start s).2.symm
    | 0 | 1 | 2 | 5 | 6 | 7 | _ + 8 => rfl
  have hopens : opens = s.sliceOpen := (sliceOpen_eq s).symm
  have hwhy : startWhy = s.testWhy n := by rw [testWhy_eq, ← hpre n]; rfl
  have hrunning : running = 1 → s.testRun = some m := testRun_of_running
  have hanew : running = 1 → anew = s.spdAfter m := fun hr => by
    by_cases h6 : m = 6
    · exact (if_pos ⟨hr, h6⟩).trans (if_pos h6).symm
    · exact (if_neg fun h => h6 h.2).trans (if_neg h6).symm
  have hidle : running = 0 → anew = s.spd := fun hr => if_neg fun h => by omega
  have hends (cause : Nat) (h3 : m = 3) : stopped cause = abortFields s 3 cause := congrArg (abortFields s · cause) h3
  have begun {more more' : List (Fld × Nat)} {spd : SpdSt} (hspd : anew = spd) (hmore : more' = more)
      (h : Does start s fun t => Begun s t n spd more') : begins more := does_imp h fun t ht => by
    obtain ⟨hframe, hgeyser⟩ := ht.frame
    subst hspd hmore
    exact ⟨hframe, hgeyser ▸ hheard.symm, ht.fields⟩
  refine ⟨fun hup hm => powerFailure_taken hup.1 hup.2 hm, powerFailure_ignored, fun h => powerDown_ignored h mv, fun hp ho hd hphase hdown => ?_,
    fun hp ho hd hdown => ?_, powerRecovered_taken, powerRecovered_low, (holdupEnd_spec s).1, (holdupEnd_spec s).2, stwRestart_judged s r,
    coldstart_judged s r, (stwSafe_spec s r).1, (stwSafe_spec s r).2.1, (stwSafe_spec s r).2.2,
    fun hr => ⟨testStart_ignored hr, testStop_ignored hr⟩, fun hr => ⟨fun hw => ?_, fun hw h0 => ?_, fun hw h1 hne => ?_, fun hw h1 heq => ?_,
      testStop_idle hr, fun h1 => ?_⟩, ?_, ?_, ?_, ?_, ⟨fun u => sioDrive_four, fun u => sioDrive_first, fun u h _ _ _ _ => sioDrive_second h, sioDrive_switch, sioDrive_source⟩,
    lifeCommand_spec rfl (by decide), lifeCommand_spec rfl (by decide), lifeCommand_spec rfl (by decide), lifeCommand_spec rfl (by decide),
    lifeCommand_spec rfl (by decide), ?_, fun hp c => unpowered_ignores hp c⟩
  · have e := powerDown_safe hdown
    exact does_of_whilePowered (powerDown_taken hp ho hd fun h => hphase h.1 h.2) fun _ =>
      ⟨e.mstate, ⟨e.down, e.dem, e.latch, e.cause, e.count⟩, e.role, e.pact, e.hold, e.last, e.flag, e.insts⟩
  · obtain ⟨hstate, e⟩ := powerDown_down hdown
    exact does_of_whilePowered (powerDown_taken hp ho hd fun h => by rcases hdown with hs | hs <;> rw [h.1] at hs <;> cases hs) fun _ =>
      ⟨hstate, e.down, e.dem, e.latch, e.cause, e.count⟩
  · rw [hwhy] at hw ⊢
    exact testStart_refused hr hw
  · exact begun (hidle h0) rfl (testStart_idle hr (hwhy ▸ hw) (testRun_of_stopped h0))
  · exact begun (hanew h1) (if_neg hne) (testStart_running hr (hwhy ▸ hw) (hrunning h1))
  · exact begun (hanew h1) (if_pos heq) (testStart_running hr (hwhy ▸ hw) (hrunning h1))
  · rw [hanew h1]
    exact testStop_running hr (hrunning h1)
  · intro ⟨h1, h3, hg, hh⟩
    have hrun := hrunning h1
    rw [h3] at hrun
    rw [hends 4 h3]
    exact (geyserTimeout_spec s).1 hrun hg (Bool.eq_false_iff.2 (mt hheard.2 hh))
  · refine fun h => (geyserTimeout_spec s).2 fun ⟨hm, hg, hp⟩ => h ?_
    obtain ⟨h1, h3, -⟩ := testRun_some hm
    exact ⟨h1, h3, hg, fun hh => by rw [hheard.1 hh] at hp; cases hp⟩
  · exact fun h => slice_closed (hopens ▸ h) matched failed item
  · intro h
    rw [hopens] at h
    refine ⟨fun h0 hmask => slice_taken h (sliced_idle (testRun_of_stopped h0) hmask matched failed item), fun h1 h3 h4 hlost hmask => ?_,
      fun h1 h3 hk hp hh hg => ?_, fun h1 h3 hk hp hh hg hmask => ?_, fun h1 hgo hk hp => ?_⟩
    · rw [hkind, hpre] at hlost
      rw [hanew h1]
      exact slice_taken h (sliced_ended (hrunning h1) (testCheck_lost (hrunning h1) h3 h4 hlost) (by decide) hmask matched failed item)
    · have hrun := hrunning h1
      rw [h3] at hrun
      rw [hkind] at hk
      rw [hpre] at hp
      have hnot := Bool.eq_false_iff.2 (mt hheard.2 hh)
      exact slice_taken h (sliced_waits hrun (testCheck_waits hrun hk hp hnot hg) hnot matched failed item)
    · have hrun := hrunning h1
      rw [h3] at hrun
      rw [hkind] at hk
      rw [hpre] at hp
      have hnot := Bool.eq_false_iff.2 (mt hheard.2 hh)
      rw [hends 4 h3]
      exact slice_taken h (sliced_ended hrun (testCheck_alone hrun hk hp hnot hg) (by decide) hmask matched failed item)
    · rw [hkind] at hk
      rw [hpre] at hp
      rw [hheard] at hgo
      rw [hanew h1]
      exact slice_runs h (hrunning h1) hgo hk hp matched failed item
  · have hconfirm : (confirm != 0x5E7D) = (confirm.toNat != 0x5E7D) := by
      rw [bne, bne, Bool.not_inj_iff, beq_eq_beq]
      exact (BitVec.toNat_inj (x := confirm) (y := 0x5E7D)).symm
    rw [hconfirm]
    exact lifeCommand_spec rfl (by decide)

end Sys2Proof.Machine
end
